-- ==== Sys2Proof/Word.lean ====
section
/-! DEFINITION. The register word and the byte (00_scope.md R3: every register is 32 bits wide, little-endian). -/

namespace Sys2Proof

/-- A register word: 32 bits, bit 0 the least significant (R3). -/
abbrev Word := BitVec 32

/-- A byte of packet, table, flash or host memory. -/
abbrev Byte := BitVec 8

/-- A word of a word queue (R81) and a 64-bit register pair (R9). -/
abbrev Word64 := BitVec 64

/-- The low half of a 64-bit value: what the _LO register holds (R9). -/
def Word64.lo (w : Word64) : Word := w.extractLsb' 0 32

/-- The high half of a 64-bit value: what the _HI register holds (R9). -/
def Word64.hi (w : Word64) : Word := w.extractLsb' 32 32

/-- A 64-bit value from its two registers (R9). -/
def Word64.ofHalves (hi lo : Word) : Word64 := hi ++ lo

end Sys2Proof
end

