-- ==== Sys2Proof/Syntax.lean ====
section
/-! DEFINITION. The commands: one constructor per row of spec/opcode_table.json, in its order, with the operands that the
row's rule names. What a physical front end measures or reads (power, decoded bits, parsed headers, a completion's bytes)
arrives as an operand. -/

namespace Sys2Proof

/-- A master of register accesses, each with its own shadows and held values (00_scope.md R9). (DESIGN CHOICE: log entry 2) -/
inductive Master where
  /-- BAR0 over PCI Express -/
  | host
  /-- commands of the Host Command Queue -/
  | hcq
  /-- commands of the Ethernet management channel -/
  | mgmt
  /-- the Control Complex pair; `secure` tells its worlds apart where a rule does -/
  | cc (secure : Bool)
  /-- the debug master -/
  | debug
  /-- an engine, by physical Caddy × 16 + engine -/
  | engine (e : Nat)
deriving DecidableEq, Repr

/-- Who asks for a host command, security command, start command or campaign operation: a started command of the HCQ or
of the management channel by its journal seq (R475), or a master's own register set. -/
inductive Who where
  | cmd (jseq : Nat)
  | master (m : Master)
deriving DecidableEq, Repr

/-- A MAC header as the receive chain reads it in clear (R179): frame version and type (0 beacon, 1 data, 2 ack, 3 command), ack
request, sequence number, PAN ID, source and destination (mode 0 none, 2 short, 3 extended; the address as a number, first octet lowest),
security level, key identifier mode, key index and frame counter (R362, R364), header length, and the IEs the device acts on. -/
structure MacHdr where
  version : Nat
  ftype : Nat
  ackReq : Bool
  seq : Option Nat
  panId : Option Nat
  dstMode : Nat
  dst : Nat
  srcMode : Nat
  src : Nat
  level : Nat
  keyMode : Nat
  keyIndex : Nat
  counter : Option Nat
  hdrLen : Nat
  /-- Enhanced Beacon: join metric and the tx_offset (µs) of its Timeslot IE (R234) -/
  joinMetric : Nat
  txOffset : Nat
  /-- Time Correction IE of an Enhanced Ack, µs -/
  correction : Option Int
deriving DecidableEq, Repr

/-- The commands of spec/opcode_table.json, in its order; each docstring gives the row's mnemonic and rule. (DESIGN CHOICE: log entry 2) (DESIGN CHOICE: log entry 10) -/
inductive Instr where
  /-- REGISTER_WRITE (R4). -/
  | registerWrite (m : Master) (addr : Nat) (len : Nat) (w : Word64)
  /-- PAIR_LO_READ (R9). -/
  | pairLoRead (m : Master) (addr : Nat) (len : Nat)
  /-- PAIR_HI_READ (R9). -/
  | pairHiRead (m : Master) (addr : Nat) (len : Nat)
  /-- PAIR_LO_WRITE (R9). -/
  | pairLoWrite (m : Master) (addr : Nat) (w : Word)
  /-- PAIR_HI_WRITE (R9). -/
  | pairHiWrite (m : Master) (addr : Nat) (w : Word)
  /-- POR_RELEASE (R392). -/
  | porRelease (ccA : Bool) (trng : Bool)
  /-- POR_ASSERT (R485). -/
  | porAssert
  /-- SUPPLY_TRIP (R486). -/
  | supplyTrip (vbat : Bool) (live : Nat)
  /-- TEMP_TRIP (R486). -/
  | tempTrip (live : Nat)
  /-- SYSCLK_TRIP (R486). -/
  | sysclkTrip (live : Nat)
  /-- VBAT_APPLY (R11). -/
  | vbatApply
  /-- KETTLE_POWER_LOSS (R487). -/
  | kettlePowerLoss
  /-- POWER_DOMAIN_FAULT (R27). -/
  | powerDomainFault (domain : Nat)
  /-- BLEND_START (R52). -/
  | blendStart
  /-- BLEND_ABORT (R53). -/
  | blendAbort
  /-- BLD_DATA (R55). -/
  | bldData (w : Word)
  /-- BLEND_READ_COMPLETION (R54). -/
  | blendReadCompletion (bytes : List Byte)
  /-- BLEND_DATA_TIMEOUT (R54). -/
  | blendDataTimeout
  /-- BLEND_DMA_TIMEOUT (R54). -/
  | blendDmaTimeout
  /-- BLEND_FLASH_TIMEOUT (R54). -/
  | blendFlashTimeout
  /-- BLEND_VALIDATION_DONE (R46). -/
  | blendValidationDone
  /-- DELTA_PAN_SWITCH (R50). -/
  | deltaPanSwitch (pan : Nat)
  /-- SECOND_STEEP_REACHED (R397). -/
  | secondSteepReached
  /-- RESTORE_RECORD_DONE (R403). -/
  | restoreRecordDone (ok : Bool)
  /-- FLASH_SCAN_DONE (R400): areas, as rows of Table START-3, in which a record lost its CRC or digest. -/
  | flashScanDone (bad : List Nat)
  /-- CADDY_IDLE_STOP (R59). -/
  | caddyIdleStop (caddy : Nat)
  /-- CADDY_PLL_LOCK (R60). -/
  | caddyPllLock (caddy : Nat)
  /-- CADDY_PLL_TIMEOUT (R60). -/
  | caddyPllTimeout (caddy : Nat)
  /-- HSUB_SUBMIT (R65). -/
  | hsubSubmit (desc : List Byte)
  /-- CSUB_SUBMIT (R65). -/
  | csubSubmit (desc : List Byte)
  /-- SLOT_SUBMIT (R65). -/
  | slotSubmit (engine : Nat) (desc : List Byte)
  /-- TASK_DISPATCH (R71). -/
  | taskDispatch (task : Nat) (engine : Nat)
  /-- TASK_COMPLETE (R66). -/
  | taskComplete (task : Nat) (ret : Option Nat)
  /-- SLOT_DONE (R87). -/
  | slotDone (engine : Nat) (result : Nat)
  /-- DEP_TIMEOUT (R68). -/
  | depTimeout (task : Nat)
  /-- COMPLETION_WORD_PUSH (R69). -/
  | completionWordPush (q : Nat)
  /-- COMPLETION_WORD_DROP (R69). -/
  | completionWordDrop (q : Nat)
  /-- ROLE_WAIT (R73). -/
  | roleWait (task : Nat)
  /-- STEAL_ATTEMPT (R75). -/
  | stealAttempt (caddy : Nat)
  /-- WATCHDOG (R78). -/
  | watchdog (task : Nat)
  /-- DRAIN_TIMEOUT (R79). -/
  | drainTimeout (task : Nat)
  /-- CADDY_DRAIN_END (R79). -/
  | caddyDrainEnd (caddy : Nat)
  /-- ENGINE_FAULT (R80). -/
  | engineFault (engine : Nat)
  /-- WQ_CFG_WRITE (R81). -/
  | wqCfgWrite (q : Nat) (w : Word)
  /-- WQ_PUSH (R84). -/
  | wqPush (m : Master) (q : Nat) (w : Word64)
  /-- WQ_POP (R85). -/
  | wqPop (m : Master) (q : Nat)
  /-- WQ_ERR_CLR (R91). -/
  | wqErrClr (q : Nat)
  /-- CNT_SEL_SNAPSHOT (R89). -/
  | cntSelSnapshot (caddy : Nat) (unit : Nat)
  /-- DSP_CNT_CLEAR (R89). -/
  | dspCntClear
  /-- DSP_ERR_CLEAR (R91). -/
  | dspErrClear
  /-- STAMP_RECEIVED (R102). -/
  | stampReceived (p : Nat) (since : Nat) (samples : Nat) (stamp : List Byte)
  /-- STAMP_ABSENT (R118). -/
  | stampAbsent (p : Nat)
  /-- BLOCK_ERROR (R117). -/
  | blockError (p : Nat) (sync : Nat) (line : Nat) (prev : Nat) (since : Nat)
  /-- BLOCK_LOCK (R115). -/
  | blockLock (p : Nat)
  /-- HYPERFRAME_BOUNDARY (R100). -/
  | hyperframeBoundary (p : Nat) (h : Nat)
  /-- DESC_DATA (R114). -/
  | descData (p : Nat) (tag : Nat) (payload : List Byte)
  /-- SYNTH_STATUS (R128). -/
  | synthStatus (p : Nat) (tag : Nat) (payload : List Byte)
  /-- CAL_DONE (R128). -/
  | calDone (p : Nat) (tag : Nat) (payload : List Byte)
  /-- TELEM (R136). -/
  | telem (p : Nat) (tag : Nat) (payload : List Byte)
  /-- ACK (R106). -/
  | ack (p : Nat) (tag : Nat) (payload : List Byte)
  /-- EVENT (R106). -/
  | event (p : Nat) (payload : List Byte)
  /-- CTRL_MESSAGE_DROPPED (R109). -/
  | ctrlMessageDropped (p : Nat) (msg : List Byte)
  /-- CTRL_REQUEST_TIMEOUT (R110). -/
  | ctrlRequestTimeout (p : Nat) (tag : Nat)
  /-- TELEM_POLL (R106). -/
  | telemPoll
  /-- PORT_ENABLE (R121). -/
  | portEnable (p : Nat)
  /-- PORT_DISABLE (R121). -/
  | portDisable (p : Nat)
  /-- PORT_RELINK (R118). -/
  | portRelink (p : Nat)
  /-- HOLDOFF_EXPIRY (R119). -/
  | holdoffExpiry (p : Nat)
  /-- ALIGN_TIMEOUT (R115). -/
  | alignTimeout (p : Nat)
  /-- DESC_TIMEOUT (R115). -/
  | descTimeout (p : Nat)
  /-- CAL_TIMEOUT (R115). -/
  | calTimeout (p : Nat)
  /-- PORT_DRAIN_END (R121). -/
  | portDrainEnd (p : Nat)
  /-- YL_ERR_CLR (R124). -/
  | ylErrClr (p : Nat)
  /-- EMU_REQUEST (R123). -/
  | emuRequest (p : Nat) (id : Nat) (tag : Nat) (payload : List Byte)
  /-- EMU_ANSWER_DUE (R123). -/
  | emuAnswerDue (p : Nat) (tag : Nat)
  /-- CAL_AGE_EXPIRY (R129). -/
  | calAgeExpiry (p : Nat) (kind : Nat)
  /-- RECAL_REQUEST (R129). -/
  | recalRequest
  /-- CAL_START (R129). -/
  | calStart (p : Nat) (kind : Nat)
  /-- CAL_RETRY (R131). -/
  | calRetry (p : Nat) (key : Nat)
  /-- CAL_HOLD_RETRY (R131). -/
  | calHoldRetry (p : Nat)
  /-- GAIN_WINDOW (R132). -/
  | gainWindow (p : Nat) (peaks : Nat) (mean : Nat)
  /-- TELEM_AGE_EXPIRY (R136). -/
  | telemAgeExpiry (p : Nat)
  /-- THERMAL_CLEAR (R142). -/
  | thermalClear (p : Nat)
  /-- TX_INHIBIT_WRITE (R142). -/
  | txInhibitWrite (on : Bool)
  /-- SYNTH_DEADLINE (R143). -/
  | synthDeadline (task : Nat)
  /-- ON_AIR_START (R137). -/
  | onAirStart (p : Nat)
  /-- DUTY_BIN_CLOSE (R147). -/
  | dutyBinClose
  /-- DUTY_COPY (R148). -/
  | dutyCopy
  /-- HC_CNT_CLR (R153). -/
  | hcCntClr
  /-- WHISTLE_RECEIVED (R150). -/
  | whistleReceived (code : Option Nat)
  /-- PWR_TIMEOUT (R151). -/
  | pwrTimeout
  /-- PWR_RELEASE (R151). -/
  | pwrRelease
  /-- NOISE_WINDOW (R159). -/
  | noiseWindow (vals : List (Nat × Nat × Nat))
  /-- DETECTION (R159). -/
  | detection (p : Nat) (c : Nat) (m : Nat) (rho : Nat) (pWin : Nat) (runs : List (Nat × Nat × Nat))
  /-- DETECTION_LATE (R160). -/
  | detectionLate (p : Nat) (c : Nat)
  /-- SFD_FOUND (R164). -/
  | sfdFound (task : Nat) (ts : Nat) (fec : Bool)
  /-- NO_SFD (R167). -/
  | noSfd (task : Nat)
  /-- PHR_DONE (R164). -/
  | phrDone (task : Nat) (ok : Bool) (len : Nat) (fcs4 : Bool) (fec : Bool)
  /-- PAYLOAD_END (R164). -/
  | payloadEnd (task : Nat)
  /-- DECODE_DONE (R164). -/
  | decodeDone (task : Nat) (passed : Bool) (psdu : List Byte) (soft : List Byte) (segs : List (Nat×Nat)) (err : Nat) (sig : Nat) (cfo : Int) (mcs : Nat)
  /-- GROUP_TIMEOUT (R172). -/
  | groupTimeout (g : Nat)
  /-- RECENT_EXPIRY (R173). -/
  | recentExpiry
  /-- RECORD_POST (R180). -/
  | recordPost (changed : Nat)
  /-- RECORD_HOLD_TIMEOUT (R180). -/
  | recordHoldTimeout
  /-- RX_CNT_CLEAR (R181). -/
  | rxCntClear
  /-- TX_REQUEST (R184). -/
  | txRequest (task : Nat)
  /-- TX_LATE (R185). -/
  | txLate (task : Nat)
  /-- BURST_START (R190). -/
  | burstStart (task : Nat)
  /-- BURST_END (R190). -/
  | burstEnd (task : Nat) (wave : List (Int×Int×Nat))
  /-- TX_CNT_CLEAR (R200). -/
  | txCntClear
  /-- SLOT_EVALUATION (R213). -/
  | slotEvaluation (pan : Nat) (asn : Nat)
  /-- ACK_WINDOW_EXPIRY (R229). -/
  | ackWindowExpiry (entry : Nat)
  /-- PEER_MISS_CHECK (R232). -/
  | peerMissCheck (peer : Nat) (cell : Nat) (asn : Nat)
  /-- PEER_HOLD_EXPIRY (R233). -/
  | peerHoldExpiry (peer : Nat)
  /-- CELL_WRITE (R210). -/
  | cellWrite (who : Who) (idx : Nat) (w : Nat)
  /-- CELL_INVALIDATE (R210). -/
  | cellInvalidate (who : Who) (idx : Nat)
  /-- CELL_READ (R210). -/
  | cellRead (who : Who) (idx : Nat)
  /-- ADDR_ALLOC (R230). -/
  | addrAlloc (who : Who) (pan : Nat)
  /-- ADDR_FREE (R230). -/
  | addrFree (who : Who) (pan : Nat) (addr : Nat)
  /-- QUARANTINE_EXPIRY (R230). -/
  | quarantineExpiry (pan : Nat) (addr : Nat)
  /-- TS_CNT_CLEAR (R235). -/
  | tsCntClear
  /-- TABLE_READ (R257). -/
  | tableRead (m : Master) (table : Nat) (index : Nat) (part : Nat)
  /-- TABLE_WRITE (R257). -/
  | tableWrite (m : Master) (table : Nat) (index : Nat) (data : List Byte)
  /-- TABLE_LOOKUP (R246). -/
  | tableLookup (m : Master) (table : Nat) (key : List Byte) (changed : Nat)
  /-- TABLE_INSERT (R244). -/
  | tableInsert (m : Master) (table : Nat) (index : Nat) (sector : Nat) (key : List Byte) (data : List Byte)
  /-- TABLE_REMOVE (R242). -/
  | tableRemove (m : Master) (table : Nat) (index : Nat) (sector : Nat) (key : List Byte)
  /-- TABLE_CAS (R257). -/
  | tableCas (m : Master) (table : Nat) (index : Nat) (off : Nat) (wide : Bool) (arg : Nat) (new : Nat)
  /-- TABLE_ADD (R257). -/
  | tableAdd (m : Master) (table : Nat) (index : Nat) (off : Nat) (wide : Bool) (arg : Nat)
  /-- TABLE_MAX (R257). -/
  | tableMax (m : Master) (table : Nat) (index : Nat) (off : Nat) (wide : Bool) (arg : Nat)
  /-- HEAR_MERGE (R248). -/
  | hearMerge (m : Master) (sector : Nat) (nix : Nat) (ports : List Byte) (rssis : List Byte) (lqi : Nat)
  /-- TABLE_REQUEST_TIMEOUT (R260). -/
  | tableRequestTimeout (m : Master)
  /-- SWEEP_VISIT (R252). -/
  | sweepVisit (hitNow : Bool)
  /-- TBL_CNT_CLEAR (R261). -/
  | tblCntClear
  /-- REASM_TIMEOUT (R264). -/
  | reasmTimeout (nix : Nat) (tag : Nat)
  /-- ETH_FRAME_RECEIVED (R268). -/
  | ethFrameReceived (port : Nat) (frame : List Byte) (changed : List Nat)
  /-- UPLINK_SERVE (R278). -/
  | uplinkServe (full : List Nat)
  /-- SHAPER_REFILL (R279). -/
  | shaperRefill (q : Nat)
  /-- POLICER_REFRESH (R283). -/
  | policerRefresh
  /-- ETH_LINK_CHANGE (R288). -/
  | ethLinkChange (port : Nat) (up : Bool)
  /-- BH_DOWN_WRITE (R288). -/
  | bhDownWrite (on : Bool)
  /-- BACKHAUL_LOSS_EXPIRY (R288). -/
  | backhaulLossExpiry
  /-- RECOVERY_JOIN_TIMEOUT (R289). -/
  | recoveryJoinTimeout
  /-- RECOVERY_RETRY_EXPIRY (R289). -/
  | recoveryRetryExpiry
  /-- RETURN_EXPIRY (R291). -/
  | returnExpiry
  /-- FWD_CNT_CLEAR (R292). -/
  | fwdCntClear
  /-- EPOCH_OPEN (R296). -/
  | epochOpen
  /-- TIME_STEP (R297). -/
  | timeStep (ofs : Word64)
  /-- RATE_WRITE (R295). -/
  | rateWrite (w : Word)
  /-- OFFSET_SAMPLE (R301). -/
  | offsetSample (wide : Bool) (theta : Word64)
  /-- MESH_SAMPLE (R303). -/
  | meshSample
  /-- SITE_SAMPLE (R300). -/
  | siteSample
  /-- REVERT_EXPIRY (R306). -/
  | revertExpiry (src : Nat)
  /-- HOLD_WRITE (R307). -/
  | holdWrite (h : Word64)
  /-- DOMAIN_SAMPLE_TIMEOUT (R308). -/
  | domainSampleTimeout (b : Bool)
  /-- PAN_EPOCH_WRITE (R310). -/
  | panEpochWrite (pan : Nat) (e : Word64)
  /-- PPS_EDGE (R317). -/
  | ppsEdge
  /-- PPS_TIMEOUT (R317). -/
  | ppsTimeout
  /-- TOD_SENTENCE (R318). -/
  | todSentence (sentence : List Byte)
  /-- TOD_TIMEOUT (R318). -/
  | todTimeout
  /-- PPS_OUT_EDGE (R320). -/
  | ppsOutEdge (rise : Bool)
  /-- RTC_SECOND (R322). -/
  | rtcSecond
  /-- RTC_TRIM (R322). -/
  | rtcTrim (ppb : Int)
  /-- RTC_ALARM (R324). -/
  | rtcAlarm
  /-- TB_CHECK_FAIL (R434). -/
  | tbCheckFail (tb : Nat) (main : Nat) (check : Nat)
  /-- TIM_CNT_CLEAR (R325). -/
  | timCntClear
  /-- ENVELOPE (R347). -/
  | envelope (who : Who) (bytes : List Byte) (tamper : Option Nat) (cut : Bool)
  /-- QUOTE (R372). -/
  | quote (who : Who) (arg : List Byte) (tamper : Option Nat)
  /-- DERIVE (R342). -/
  | derive (who : Who) (arg : List Byte) (tamper : Option Nat)
  /-- MEAS_EXTEND (R341). -/
  | measExtend (who : Who) (arg : List Byte) (tamper : Option Nat)
  /-- SLOT_REMAP (R335). -/
  | slotRemap (who : Who) (arg : List Byte) (tamper : Option Nat)
  /-- KEK_ROTATE (R357). -/
  | kekRotate (who : Who) (arg : List Byte) (tamper : Option Nat)
  /-- KEK_WALK_DONE (R357). -/
  | kekWalkDone (pan : Nat)
  /-- KEK_INVALIDATE (R358). -/
  | kekInvalidate (who : Who) (arg : List Byte) (tamper : Option Nat)
  /-- KEK_CLEAR (R358). -/
  | kekClear (who : Who) (arg : List Byte) (tamper : Option Nat)
  /-- NODE_KEY_NEW (R355). -/
  | nodeKeyNew (who : Who) (arg : List Byte) (tamper : Option Nat)
  /-- NODE_KEY_ROLL (R355). -/
  | nodeKeyRoll (who : Who) (arg : List Byte) (tamper : Option Nat)
  /-- NODE_KEY_GET (R355). -/
  | nodeKeyGet (who : Who) (arg : List Byte) (tamper : Option Nat)
  /-- NODE_KEY_EXPORT (R356). -/
  | nodeKeyExport (who : Who) (arg : List Byte) (tamper : Option Nat)
  /-- NODE_KEY_IMPORT (R356). -/
  | nodeKeyImport (who : Who) (arg : List Byte) (tamper : Option Nat)
  /-- RANDOM (R371). -/
  | random (who : Who) (arg : List Byte) (tamper : Option Nat)
  /-- RECOV_KEY_LOAD (R361). -/
  | recovKeyLoad (who : Who) (arg : List Byte) (tamper : Option Nat)
  /-- PROVISION (R333). -/
  | provision (who : Who) (arg : List Byte) (tamper : Option Nat) (cut : Bool)
  /-- LIFECYCLE_DEBUG (R331). -/
  | lifecycleDebug (target : Nat) (lock : List Byte) (eui : List Byte) (cert : List Byte) (policy : Nat) (subsys : Option (Nat × Nat)) (cut : Bool)
  /-- DEBUG_REQUEST_REFUSED (R332). -/
  | debugRequestRefused
  /-- SEAL_WRITE_DONE (R339). -/
  | sealWriteDone
  /-- SEAL_WRITE_TIMEOUT (R339). -/
  | sealWriteTimeout
  /-- BCAST_CEILING_WRITE_DONE (R360). -/
  | bcastCeilingWriteDone (pan : Nat)
  /-- FSU_PARSE (R364). -/
  | fsuParse (engine : Nat) (buf : Nat) (node : Nat)
  /-- FSU_VERIFY (R364). -/
  | fsuVerify (engine : Nat) (buf : Nat) (node : Nat)
  /-- FSU_SECURE (R364). -/
  | fsuSecure (engine : Nat) (buf : Nat) (node : Nat) (fc : Nat)
  /-- TAMPER_EVENT (R368). -/
  | tamperEvent (source : Nat) (live : Nat)
  /-- TRNG_HEALTH_FAIL (R371). -/
  | trngHealthFail
  /-- TRNG_RETEST (R371). -/
  | trngRetest (pass : Bool)
  /-- DRBG_RESEED (R371). -/
  | drbgReseed
  /-- SEC_CNT_CLEAR (R373). -/
  | secCntClear
  /-- CREATE (R381). -/
  | create (who : Who) (desc : List Byte) (buf : Option Nat) (image : Option (List Byte)) (flashOk : Bool) (cut : Bool)
  /-- START (R380). -/
  | start (who : Who) (cnum : Nat)
  /-- PAUSE (R380). -/
  | pause (who : Who) (cnum : Nat)
  /-- RESUME (R380). -/
  | resume (who : Who) (cnum : Nat)
  /-- CANCEL (R380). -/
  | cancel (who : Who) (cnum : Nat)
  /-- DELETE (R381). -/
  | delete (who : Who) (cnum : Nat)
  /-- SESSION_GAP_EXPIRY (R384). -/
  | sessionGapExpiry (cnum : Nat)
  /-- CAMPAIGN_SCAN (R385). -/
  | campaignScan
  /-- CAMPAIGN_STATE_WRITE_TIMEOUT (R386). -/
  | campaignStateWriteTimeout (cnum : Nat)
  /-- CMP_CNT_CLEAR (R388). -/
  | cmpCntClear
  /-- UPD_BEGIN (R405). -/
  | updBegin (who : Who) (len : Nat) (stall : Bool)
  /-- UPD_WRITE (R405). -/
  | updWrite (who : Who) (off : Nat) (len : Nat) (buf : Option Nat) (data : List Byte) (stall : Option Nat)
  /-- UPD_VERIFY (R406). -/
  | updVerify (who : Who)
  /-- UPD_ACTIVATE (R407). -/
  | updActivate (who : Who) (again : Bool) (stall : Option Nat)
  /-- UPD_CONFIRM (R409). -/
  | updConfirm (who : Who) (burnt : Option Nat)
  /-- UPD_ABANDON (R412). -/
  | updAbandon (who : Who)
  /-- RESTART (R415). -/
  | restart (who : Who) (ccA : Bool) (trng : Bool)
  /-- SET_WRITE (R413). -/
  | setWrite (who : Who) (key : Nat) (len : Nat) (buf : Option Nat) (data : List Byte) (stall : Bool)
  /-- SET_ERASE_NS (R414). -/
  | setEraseNs (who : Who) (ns : Nat) (stall : Bool)
  /-- SNAP_NOW (R404). -/
  | snapNow (who : Who)
  /-- BREW_READY (R399). -/
  | brewReady (who : Who)
  /-- TRIAL_BREW_TIMEOUT (R408). -/
  | trialBrewTimeout
  /-- TRIAL_CONFIRM_TIMEOUT (R408). -/
  | trialConfirmTimeout
  /-- BASE_IMAGE_CAPTURE (R404). -/
  | baseImageCapture
  /-- COUNTER_IMAGE_CAPTURE (R404). -/
  | counterImageCapture
  /-- IMAGE_WRITE_DONE (R404). -/
  | imageWriteDone (counter : Bool)
  /-- COUNTER_IMAGE_TIMEOUT (R404). -/
  | counterImageTimeout
  /-- FLASH_PROGRAM_TIMEOUT (R416). -/
  | flashProgramTimeout (again : Bool)
  /-- FLASH_ERASE_TIMEOUT (R416). -/
  | flashEraseTimeout (again : Bool)
  /-- HOST_READ_TIMEOUT (R416). -/
  | hostReadTimeout
  /-- COMMIT_POST (R419). -/
  | commitPost (cc : Nat) (secure : Bool) (addr : Nat) (data : Nat) (type : Nat)
  /-- JRNL_OPEN (R442). -/
  | jrnlOpen (w : Word)
  /-- JRNL_STEP (R420). -/
  | jrnlStep (tag : Nat)
  /-- JRNL_CLOSE (R442). -/
  | jrnlClose (w : Word)
  /-- GATE_WINDOW_CLOSE (R421). -/
  | gateWindowClose
  /-- GATE_LAG_TIMEOUT (R422). -/
  | gateLagTimeout
  /-- MISMATCH_TEST_DONE (R422). -/
  | mismatchTestDone (aPass : Bool) (bPass : Bool)
  /-- PATH_CHECK_FAIL (R422). -/
  | pathCheckFail (cc : Nat)
  /-- RESYNC_DONE (R423). -/
  | resyncDone (cc : Nat)
  /-- CC_TEST_DONE (R424). -/
  | ccTestDone (cc : Nat) (pass : Bool)
  /-- CC_RETEST_TIMER (R424). -/
  | ccRetestTimer (cc : Nat)
  /-- CC_RETEST (R424). -/
  | ccRetest (cc : Nat)
  /-- CC_ISOLATE (R428). -/
  | ccIsolate (cc : Nat)
  /-- SWAP_DUE (R426). -/
  | swapDue
  /-- TAKEBACK_HOLDOFF_EXPIRY (R427). -/
  | takebackHoldoffExpiry
  /-- SPARE_CADDY_TEST_DONE (R430). -/
  | spareCaddyTestDone (caddy : Nat) (pass : Bool)
  /-- ECC_ERROR (R432). -/
  | eccError (mem : Nat) (array : Nat) (row : Nat) (col : Nat) (uncorrectable : Bool) (addr : Nat)
  /-- SCRUB_READ (R432). -/
  | scrubRead
  /-- ROW_REPAIR_DONE (R432). -/
  | rowRepairDone (array : Nat) (column : Bool) (index : Nat)
  /-- BANK_REPAIR_DONE (R433). -/
  | bankRepairDone (bank : Nat)
  /-- BIST_SLICE_START (R435). -/
  | bistSliceStart
  /-- BIST_FENCE_IDLE (R435). -/
  | bistFenceIdle
  /-- BIST_FENCE_TIMEOUT (R435). -/
  | bistFenceTimeout
  /-- BIST_SLICE_END (R436). -/
  | bistSliceEnd (pass : Bool) (part : Nat)
  /-- FUNC_DISABLE (R440). -/
  | funcDisable (who : Who) (cls : Nat) (index : Nat)
  /-- FUNC_ENABLE (R440). -/
  | funcEnable (who : Who) (cls : Nat) (index : Nat)
  /-- FUNC_DRAIN_END (R440). -/
  | funcDrainEnd (cls : Nat) (index : Nat)
  /-- REPAIR_BURN (R439). -/
  | repairBurn (who : Who) (seq : Nat) (cut : Bool)
  /-- REPAIR_LOG_TIMEOUT (R437). -/
  | repairLogTimeout
  /-- JRNL_FETCH (R444). -/
  | jrnlFetch (seq : Nat)
  /-- JRNL_FETCH_DONE (R444). -/
  | jrnlFetchDone
  /-- RES_CNT_CLEAR (R445). -/
  | resCntClear
  /-- PENDING_CLEAR (R448). -/
  | pendingClear (m : Nat) (w : Word)
  /-- MASK_WRITE (R448). -/
  | maskWrite (m : Nat) (w : Word)
  /-- CCPEND_CLEAR (R449). -/
  | ccpendClear (m : Nat) (w : Word)
  /-- TEL_ALM_ACK (R451). -/
  | telAlmAck (entry : Nat) (seen : Nat)
  /-- FW_RAISE (R447). -/
  | fwRaise (fw : Nat) (unit : Nat)
  /-- COUNTER_EXPORT (R455). -/
  | counterExport
  /-- TELE_RING_SEND (R456). -/
  | teleRingSend
  /-- RING_CONS_WRITE (R456). -/
  | ringConsWrite (index : Nat)
  /-- TELE_DATAGRAM_SEND (R457). -/
  | teleDatagramSend
  /-- STORM_END (R459). -/
  | stormEnd
  /-- TEL_CNT_CLEAR (R460). -/
  | telCntClear
  /-- HOST_RESET (R462). -/
  | hostReset
  /-- BAR0_BAD_ACCESS (R463). -/
  | bar0BadAccess (offset : Nat) (read : Bool)
  /-- BAR2_READ (R465). -/
  | bar2Read (offset : Nat) (len : Nat) (changed : Bool)
  /-- BAR2_WRITE (R464). -/
  | bar2Write (offset : Nat)
  /-- STOPPED_ACCESS_TIMEOUT (R466). -/
  | stoppedAccessTimeout (cc : Nat)
  /-- MSIX_UNMASK (R468). -/
  | msixUnmask (vector : Nat)
  /-- HCQ_DOORBELL (R469). -/
  | hcqDoorbell (tail : Nat)
  /-- HCQ_FETCH (R469). -/
  | hcqFetch (entry : List Byte)
  /-- HCQ_FETCH_TIMEOUT (R481). -/
  | hcqFetchTimeout
  /-- CQ_STALL (R469). -/
  | cqStall
  /-- CQ_HEAD_WRITE (R469). -/
  | cqHeadWrite (head : Nat)
  /-- HCQ_ENABLE (R476). -/
  | hcqEnable
  /-- HCQ_DISABLE (R476). -/
  | hcqDisable
  /-- COMMAND_START (R471). -/
  | commandStart (mgmt : Bool) (index : Nat)
  /-- COMMAND_COMPLETE (R472). -/
  | commandComplete (jseq : Nat)
  /-- COMMAND_DATA_TIMEOUT (R481). -/
  | commandDataTimeout (jseq : Nat)
  /-- NOP (R473). -/
  | nop (who : Who)
  /-- REG_READ (R474). -/
  | regRead (who : Who) (offset : Nat)
  /-- REG_WRITE (R474). -/
  | regWrite (who : Who) (offset : Nat) (w : Word)
  /-- JRNL_READ (R473). -/
  | jrnlRead (who : Who) (seq : Nat)
  /-- ALARM_ACK (R451). -/
  | alarmAck (who : Who) (entry : Nat) (seen : Nat)
  /-- BLEND_LOAD (R52). -/
  | blendLoad (who : Who) (source : Nat) (addr : Nat) (len : Nat)
  /-- TASK_SUBMIT (R65). -/
  | taskSubmit (who : Who) (desc : List Byte)
  /-- UP_RING_POST (R477). -/
  | upRingPost (ring : Nat) (tail : Nat) (descs : List (Nat × Nat))
  /-- DN_RING_POST (R478). -/
  | dnRingPost (ring : Nat) (tail : Nat)
  /-- DN_DESCRIPTOR_PROCESS (R478). -/
  | dnDescriptorProcess (ring : Nat) (desc : List Byte) (data : List Byte)
  /-- DN_READ_TIMEOUT (R481). -/
  | dnReadTimeout (ring : Nat)
  /-- MQ_SUBMIT (R480). -/
  | mqSubmit (handle : Nat)
  /-- MGMT_TX (R480). -/
  | mgmtTx (handle : Nat)
  /-- MGMT_TX_DONE (R480). -/
  | mgmtTxDone (handle : Nat)
  /-- HIF_CNT_CLEAR (R482). -/
  | hifCntClear
  /-- AT_INSTANT (R140). -/
  | atInstant (p : Nat) (tag : Nat)
  /-- BLANKING_END (R140). -/
  | blankingEnd (p : Nat)
  /-- VECTOR_INTERVAL_EXPIRY (R468). -/
  | vectorIntervalExpiry (vector : Nat)
  /-- PCIE_LINK_CHANGE (R482). -/
  | pcieLinkChange (up : Bool) (width : Nat) (speed : Nat)
  /-- PRBS_ERROR (R122). -/
  | prbsError (p : Nat) (hist : Nat) (block : Nat)
deriving DecidableEq, Repr

end Sys2Proof
end

