-- ==== Sys2Proof/Decode.lean ====
section
/-! DEFINITION. The command a table word spells. -/

namespace Sys2Proof

/-- The command table of the specification gives no row any bits: a command is a register access, an engine command or an event
with operands of its own, never a word of a command stream. So no word spells a command. (DESIGN CHOICE: log entry 1) -/
def decodeTableWord (_nbits _w : Nat) : Option Instr := none

end Sys2Proof
end

