-- ==== Sys2Proof/Config.lean ====
section
/-! DEFINITION. What an implementation fixes and what the spec names by standard only: opaque constants, so that no
proof can see a value. Cryptographic functions take byte strings; free values take a draw number. -/

namespace Sys2Proof.Config

/-- SHA-384 (FIPS 180-4, named at R35, R37, R341): 48 bytes. -/
opaque sha384 : List Byte → List Byte

/-- SHA-256 (named by the campaign rules, R379): 32 bytes. -/
opaque sha256 : List Byte → List Byte

/-- ECDSA P-384 verification with SHA-384 (R37, R347, R396): public key, message, r and s (big-endian). -/
opaque ecdsaVerify : List Byte → List Byte → List Byte → List Byte → Bool

/-- ECDSA P-384 signature with SHA-384 under the private key d of R328: d, message, draw number; 96 bytes. -/
opaque ecdsaSign : Nat → List Byte → Nat → List Byte

/-- ECDH P-384 (R346): private key and uncompressed public key; the 48-byte x-coordinate, or none when the point is not on the curve or
is infinity. -/
opaque ecdh : Nat → List Byte → Option (List Byte)

/-- The public key d·G of R328 as X‖Y, 96 bytes. -/
opaque publicKey : Nat → List Byte

/-- AES-128 of one block (R352): key, block. -/
opaque aes128 : List Byte → List Byte → List Byte

/-- HKDF with SHA-384 (RFC 5869; R342): input key, salt, info, output length. -/
opaque hkdf : List Byte → List Byte → List Byte → Nat → List Byte

/-- AES-256-CMAC (R334): key, message; 16 bytes. -/
opaque cmac : List Byte → List Byte → List Byte

/-- AES-256-GCM opening (R347): key, nonce, associated data, ciphertext, tag. -/
opaque gcmOpen : List Byte → List Byte → List Byte → List Byte → List Byte → Option (List Byte)

/-- AES-256-GCM sealing (R339): key, nonce, associated data, plaintext; ciphertext then tag. -/
opaque gcmSeal : List Byte → List Byte → List Byte → List Byte → List Byte

/-- AES key wrap (RFC 3394; R355): key, plaintext. -/
opaque keyWrap : List Byte → List Byte → List Byte

/-- AES key unwrap (RFC 3394; R354): key, wrapped; none when the integrity check fails. -/
opaque keyUnwrap : List Byte → List Byte → Option (List Byte)

/-- AES-CCM* of IEEE 802.15.4-2020 (R364): key, nonce, level, header, payload; secured payload and MIC. (DESIGN CHOICE: log entry 8) -/
opaque ccmSeal : List Byte → List Byte → Nat → List Byte → List Byte → List Byte

/-- AES-CCM* opening (R364): key, nonce, level, header, secured payload and MIC; none when the MIC fails. -/
opaque ccmOpen : List Byte → List Byte → Nat → List Byte → List Byte → Option (List Byte)

/-- Decoding of summed soft decisions of a PHY mode and PSDU length (R172); none when the FCS fails. (DESIGN CHOICE: log entry 8) -/
opaque decodeSoft : Nat → Nat → List Int → Option (List Byte)

/-- Samples at the context rate of a PPDU (IEEE 802.15.4-2020, named at R188; Table SEND-4): PHY mode record, PSDU with FCS; RMS 2^15. (DESIGN CHOICE: log entry 8) -/
opaque modulate : List Byte → List Byte → List (Int × Int)

/-- Interpolation from the context rate to a port rate in 100 Hz (R189). -/
opaque toRate : Nat → List (Int × Int) → List (Int × Int)

/-- Shift by a frequency (twice Hz) at a rate in Hz, and delay to an instant with 1 ns resolution (R189). -/
opaque shift : Int → Nat → Nat → List (Int × Int) → List (Int × Int)

/-- Channel response (R194) at an offset (twice Hz) and a rate in Hz: 257 samples, 2^15 at the middle. A free value. -/
opaque channelResponse : Int → Nat → List (Int × Int)

/-- Bytes of the DRBG (R371): draw number, length. A free value. (DESIGN CHOICE: log entry 7) -/
opaque random : Nat → Nat → List Byte

/-- Channel page, channel count and PHY configuration of the Channel Hopping IE of a PAN slot (R220 names the IE only): 7 bytes. A free
value. -/
opaque hopHeader : Nat → List Byte

/-- Address of the built-in exit of a PE (R87). A free value. -/
opaque peExit : BitVec 32

/-- A value the spec leaves open, by draw number. A free value. (DESIGN CHOICE: log entry 7) -/
opaque freeValue : Nat → Nat

end Sys2Proof.Config
end

