-- ==== Sys2Proof/Machine/RegMap.lean ====
section
/-! DEFINITION. The BAR0 registers: addresses, fields, access types, reset values and reserved encodings, as the
register tables of the spec give them (one block of definitions per table), and the lookup of an address. -/

namespace Sys2Proof.Machine

/-- A field of a register: the register's BAR0 address and the field's high and low bit. -/
structure Fld where
  reg : Nat
  hi : Nat
  lo : Nat
deriving DecidableEq, Repr

/-- Register access types (Table SCOPE-5, R4). -/
inductive Acc where
  | rw | ro | w1c | w1s | wo
deriving DecidableEq, Repr

/-- A field's description: bits, access type, and the encodings its table lists as reserved (R6), as inclusive ranges. -/
structure FieldDesc where
  hi : Nat
  lo : Nat
  acc : Acc
  reserved : List (Nat × Nat)
deriving DecidableEq, Repr

/-- A register description: first address, the strides and counts of its array indices, reset value, fields.
Bits no field covers are reserved (R5). -/
structure RegDesc where
  base : Nat
  dims : List (Nat × Nat)
  reset : Nat
  fields : List FieldDesc
deriving DecidableEq, Repr


/-! ### Blend loader registers, Table BLEND-11 (02_blend.md R55) -/

/-- BLD_CTRL: Source, start, abort. -/
@[reducible] def BLD_CTRL : Nat := 0x200000
@[reducible] def BLD_CTRL_source : Fld := ⟨BLD_CTRL, 5, 4⟩
@[reducible] def BLD_CTRL_abort : Fld := ⟨BLD_CTRL, 1, 1⟩
@[reducible] def BLD_CTRL_start : Fld := ⟨BLD_CTRL, 0, 0⟩
/-- BLD_STATUS: State, code, failing entry. -/
@[reducible] def BLD_STATUS : Nat := 0x200004
@[reducible] def BLD_STATUS_code : Fld := ⟨BLD_STATUS, 31, 24⟩
@[reducible] def BLD_STATUS_entry : Fld := ⟨BLD_STATUS, 23, 16⟩
@[reducible] def BLD_STATUS_refusal : Fld := ⟨BLD_STATUS, 15, 8⟩
@[reducible] def BLD_STATUS_state : Fld := ⟨BLD_STATUS, 3, 0⟩
/-- BLD_ERR_OFFSET: Byte offset of the failing field. -/
@[reducible] def BLD_ERR_OFFSET : Nat := 0x200008
@[reducible] def BLD_ERR_OFFSET_offset : Fld := ⟨BLD_ERR_OFFSET, 31, 0⟩
/-- BLD_DATA: Register-port data word. -/
@[reducible] def BLD_DATA : Nat := 0x20000C
@[reducible] def BLD_DATA_word : Fld := ⟨BLD_DATA, 31, 0⟩
/-- BLD_SRC_ADDR_LO: Source address, low half. -/
@[reducible] def BLD_SRC_ADDR_LO : Nat := 0x200010
@[reducible] def BLD_SRC_ADDR_LO_addr : Fld := ⟨BLD_SRC_ADDR_LO, 31, 0⟩
/-- BLD_SRC_ADDR_HI: Source address, high half. -/
@[reducible] def BLD_SRC_ADDR_HI : Nat := 0x200014
@[reducible] def BLD_SRC_ADDR_HI_addr : Fld := ⟨BLD_SRC_ADDR_HI, 31, 0⟩
/-- BLD_LENGTH: Length in bytes of the Blend to load. -/
@[reducible] def BLD_LENGTH : Nat := 0x200018
@[reducible] def BLD_LENGTH_length : Fld := ⟨BLD_LENGTH, 31, 0⟩
/-- BLD_ACTIVE_ID_LO: blend_id of the active full Blend, low half. -/
@[reducible] def BLD_ACTIVE_ID_LO : Nat := 0x200020
@[reducible] def BLD_ACTIVE_ID_LO_id : Fld := ⟨BLD_ACTIVE_ID_LO, 31, 0⟩
/-- BLD_ACTIVE_ID_HI: blend_id of the active full Blend, high half. -/
@[reducible] def BLD_ACTIVE_ID_HI : Nat := 0x200024
@[reducible] def BLD_ACTIVE_ID_HI_id : Fld := ⟨BLD_ACTIVE_ID_HI, 31, 0⟩
/-- BLD_DELTA_SEQ: delta_seq of the last applied delta. -/
@[reducible] def BLD_DELTA_SEQ : Nat := 0x200028
@[reducible] def BLD_DELTA_SEQ_seq : Fld := ⟨BLD_DELTA_SEQ, 31, 0⟩
/-- BLD_PENDING_PANS: PANs not yet switched. -/
@[reducible] def BLD_PENDING_PANS : Nat := 0x20002C
@[reducible] def BLD_PENDING_PANS_pans : Fld := ⟨BLD_PENDING_PANS, 7, 0⟩
/-- BLD_REFUSED: Count of refused Blends. -/
@[reducible] def BLD_REFUSED : Nat := 0x200030
@[reducible] def BLD_REFUSED_count : Fld := ⟨BLD_REFUSED, 31, 0⟩
/-- BLD_SVN_MIN: Retained minimum svn. -/
@[reducible] def BLD_SVN_MIN : Nat := 0x200034
@[reducible] def BLD_SVN_MIN_svn : Fld := ⟨BLD_SVN_MIN, 31, 0⟩

/-! ### Dispatcher registers, Table CADDY-10 (03_caddies_and_dispatch.md R91) -/

/-- DSP_CTRL: Trace, stealing, counter clears. -/
@[reducible] def DSP_CTRL : Nat := 0x300000
@[reducible] def DSP_CTRL_err_clear : Fld := ⟨DSP_CTRL, 3, 3⟩
@[reducible] def DSP_CTRL_cnt_clear : Fld := ⟨DSP_CTRL, 2, 2⟩
@[reducible] def DSP_CTRL_steal_en : Fld := ⟨DSP_CTRL, 1, 1⟩
@[reducible] def DSP_CTRL_trace_en : Fld := ⟨DSP_CTRL, 0, 0⟩
/-- DSP_STATUS: Running count, Blend parameters. -/
@[reducible] def DSP_STATUS : Nat := 0x300004
@[reducible] def DSP_STATUS_idle_time : Fld := ⟨DSP_STATUS, 25, 16⟩
@[reducible] def DSP_STATUS_warm_min : Fld := ⟨DSP_STATUS, 13, 8⟩
@[reducible] def DSP_STATUS_accepting : Fld := ⟨DSP_STATUS, 7, 7⟩
@[reducible] def DSP_STATUS_role_wait : Fld := ⟨DSP_STATUS, 6, 6⟩
@[reducible] def DSP_STATUS_running : Fld := ⟨DSP_STATUS, 5, 0⟩
/-- DSP_CADDY_READY_LO: Ready bits CD00–CD31. -/
@[reducible] def DSP_CADDY_READY_LO : Nat := 0x300008
@[reducible] def DSP_CADDY_READY_LO_ready : Fld := ⟨DSP_CADDY_READY_LO, 31, 0⟩
/-- DSP_CADDY_READY_HI: Ready bits CD32–CD33. -/
@[reducible] def DSP_CADDY_READY_HI : Nat := 0x30000C
@[reducible] def DSP_CADDY_READY_HI_ready : Fld := ⟨DSP_CADDY_READY_HI, 1, 0⟩
/-- DSP_TASKS_INUSE: Outstanding tasks. -/
@[reducible] def DSP_TASKS_INUSE : Nat := 0x300010
@[reducible] def DSP_TASKS_INUSE_count : Fld := ⟨DSP_TASKS_INUSE, 15, 0⟩
/-- DSP_ERR: Dependence, identifier and fault counts. -/
@[reducible] def DSP_ERR : Nat := 0x300014
@[reducible] def DSP_ERR_dep_unknown : Fld := ⟨DSP_ERR, 31, 24⟩
@[reducible] def DSP_ERR_dep_underflow : Fld := ⟨DSP_ERR, 23, 16⟩
@[reducible] def DSP_ERR_id_busy : Fld := ⟨DSP_ERR, 15, 8⟩
@[reducible] def DSP_ERR_engine_fault : Fld := ⟨DSP_ERR, 7, 0⟩
/-- DSP_CNT_SEL: Counter unit select and snapshot. -/
@[reducible] def DSP_CNT_SEL : Nat := 0x300020
@[reducible] def DSP_CNT_SEL_caddy : Fld := ⟨DSP_CNT_SEL, 13, 8⟩
@[reducible] def DSP_CNT_SEL_unit : Fld := ⟨DSP_CNT_SEL, 4, 0⟩
/-- DSP_CNT_BUSY: Busy share. -/
@[reducible] def DSP_CNT_BUSY : Nat := 0x300024
@[reducible] def DSP_CNT_BUSY_busy : Fld := ⟨DSP_CNT_BUSY, 9, 0⟩
/-- DSP_CNT_DONE: Tasks completed. -/
@[reducible] def DSP_CNT_DONE : Nat := 0x300028
@[reducible] def DSP_CNT_DONE_done : Fld := ⟨DSP_CNT_DONE, 31, 0⟩
/-- DSP_CNT_WAIT: Mean and maximum wait. -/
@[reducible] def DSP_CNT_WAIT : Nat := 0x30002C
@[reducible] def DSP_CNT_WAIT_wait_max : Fld := ⟨DSP_CNT_WAIT, 31, 16⟩
@[reducible] def DSP_CNT_WAIT_wait_mean : Fld := ⟨DSP_CNT_WAIT, 15, 0⟩
/-- DSP_CNT_DEPTH: Current and maximum depth. -/
@[reducible] def DSP_CNT_DEPTH : Nat := 0x300030
@[reducible] def DSP_CNT_DEPTH_depth_max : Fld := ⟨DSP_CNT_DEPTH, 31, 16⟩
@[reducible] def DSP_CNT_DEPTH_depth : Fld := ⟨DSP_CNT_DEPTH, 15, 0⟩
/-- DSP_CNT_STEAL: Items stolen in and out. -/
@[reducible] def DSP_CNT_STEAL : Nat := 0x300034
@[reducible] def DSP_CNT_STEAL_stolen_in : Fld := ⟨DSP_CNT_STEAL, 31, 16⟩
@[reducible] def DSP_CNT_STEAL_stolen_out : Fld := ⟨DSP_CNT_STEAL, 15, 0⟩
/-- DSP_HSUBm: Host submission. -/
@[reducible] def DSP_HSUBm (i : Nat) : Nat := 0x300040 + 0x4 * i
@[reducible] def DSP_HSUBm_bytes (i : Nat) : Fld := ⟨DSP_HSUBm i, 31, 0⟩
/-- DSP_HSUB_STATUS: Host submission result. -/
@[reducible] def DSP_HSUB_STATUS : Nat := 0x300060
@[reducible] def DSP_HSUB_STATUS_result : Fld := ⟨DSP_HSUB_STATUS, 7, 0⟩
/-- DSP_CSUBm: Control Complex submission; host writes ignored. -/
@[reducible] def DSP_CSUBm (i : Nat) : Nat := 0x300080 + 0x4 * i
@[reducible] def DSP_CSUBm_bytes (i : Nat) : Fld := ⟨DSP_CSUBm i, 31, 0⟩
/-- DSP_CSUB_STATUS: Control Complex submission result. -/
@[reducible] def DSP_CSUB_STATUS : Nat := 0x3000A0
@[reducible] def DSP_CSUB_STATUS_result : Fld := ⟨DSP_CSUB_STATUS, 7, 0⟩
/-- DSP_CADDY_STATEn: State and logical number of CDnn. -/
@[reducible] def DSP_CADDY_STATEn (i : Nat) : Nat := 0x300100 + 0x4 * i
@[reducible] def DSP_CADDY_STATEn_logical (i : Nat) : Fld := ⟨DSP_CADDY_STATEn i, 21, 16⟩
@[reducible] def DSP_CADDY_STATEn_state (i : Nat) : Fld := ⟨DSP_CADDY_STATEn i, 3, 0⟩
/-- DSP_WQ_ERR_CLR: Clears one queue's error counts. -/
@[reducible] def DSP_WQ_ERR_CLR : Nat := 0x300200
@[reducible] def DSP_WQ_ERR_CLR_queue : Fld := ⟨DSP_WQ_ERR_CLR, 7, 0⟩
/-- DSP_WQ_PUSHn_LO: Push, low half, queue n = 0–255. -/
@[reducible] def DSP_WQ_PUSHn_LO (i : Nat) : Nat := 0x301000 + 0x10 * i
@[reducible] def DSP_WQ_PUSHn_LO_half (i : Nat) : Fld := ⟨DSP_WQ_PUSHn_LO i, 31, 0⟩
/-- DSP_WQ_PUSHn_HI: Push, high half. -/
@[reducible] def DSP_WQ_PUSHn_HI (i : Nat) : Nat := 0x301004 + 0x10 * i
@[reducible] def DSP_WQ_PUSHn_HI_half (i : Nat) : Fld := ⟨DSP_WQ_PUSHn_HI i, 31, 0⟩
/-- DSP_WQ_POPn_LO: Pop, low half. -/
@[reducible] def DSP_WQ_POPn_LO (i : Nat) : Nat := 0x301008 + 0x10 * i
@[reducible] def DSP_WQ_POPn_LO_half (i : Nat) : Fld := ⟨DSP_WQ_POPn_LO i, 31, 0⟩
/-- DSP_WQ_POPn_HI: Pop, high half. -/
@[reducible] def DSP_WQ_POPn_HI (i : Nat) : Nat := 0x30100C + 0x10 * i
@[reducible] def DSP_WQ_POPn_HI_half (i : Nat) : Fld := ⟨DSP_WQ_POPn_HI i, 31, 0⟩
/-- DSP_WQ_CFGn: Endpoints and enable. -/
@[reducible] def DSP_WQ_CFGn (i : Nat) : Nat := 0x302000 + 0x4 * i
@[reducible] def DSP_WQ_CFGn_enable (i : Nat) : Fld := ⟨DSP_WQ_CFGn i, 16, 16⟩
@[reducible] def DSP_WQ_CFGn_consumer (i : Nat) : Fld := ⟨DSP_WQ_CFGn i, 15, 8⟩
@[reducible] def DSP_WQ_CFGn_producer (i : Nat) : Fld := ⟨DSP_WQ_CFGn i, 7, 0⟩
/-- DSP_WQ_COUNTn: Words stored. -/
@[reducible] def DSP_WQ_COUNTn (i : Nat) : Nat := 0x302400 + 0x4 * i
@[reducible] def DSP_WQ_COUNTn_count (i : Nat) : Fld := ⟨DSP_WQ_COUNTn i, 5, 0⟩
/-- DSP_WQ_ERRn: Error counts. -/
@[reducible] def DSP_WQ_ERRn (i : Nat) : Nat := 0x302800 + 0x4 * i
@[reducible] def DSP_WQ_ERRn_overrun (i : Nat) : Fld := ⟨DSP_WQ_ERRn i, 31, 16⟩
@[reducible] def DSP_WQ_ERRn_foreign (i : Nat) : Fld := ⟨DSP_WQ_ERRn i, 15, 8⟩
@[reducible] def DSP_WQ_ERRn_zero_push (i : Nat) : Fld := ⟨DSP_WQ_ERRn i, 7, 0⟩

/-! ### Yarlink port registers (04_yarlink.md R124), port n at stride 0x1000 (R467) -/

/-- YL_CTRL: Enable, forced relink. -/
@[reducible] def YL_CTRL (i : Nat) : Nat := 0x400000 + 0x1000 * i
@[reducible] def YL_CTRL_relink (i : Nat) : Fld := ⟨YL_CTRL i, 8, 8⟩
@[reducible] def YL_CTRL_enable (i : Nat) : Fld := ⟨YL_CTRL i, 0, 0⟩
/-- YL_STATUS: State, cause, attempts. -/
@[reducible] def YL_STATUS (i : Nat) : Nat := 0x400004 + 0x1000 * i
@[reducible] def YL_STATUS_attempts (i : Nat) : Fld := ⟨YL_STATUS i, 31, 24⟩
@[reducible] def YL_STATUS_cause (i : Nat) : Fld := ⟨YL_STATUS i, 23, 16⟩
@[reducible] def YL_STATUS_cal_short (i : Nat) : Fld := ⟨YL_STATUS i, 8, 8⟩
@[reducible] def YL_STATUS_state (i : Nat) : Fld := ⟨YL_STATUS i, 3, 0⟩
/-- YL_ERR_SYNC: Sync and type errors. -/
@[reducible] def YL_ERR_SYNC (i : Nat) : Nat := 0x400008 + 0x1000 * i
@[reducible] def YL_ERR_SYNC_sync_err (i : Nat) : Fld := ⟨YL_ERR_SYNC i, 31, 16⟩
@[reducible] def YL_ERR_SYNC_type_err (i : Nat) : Fld := ⟨YL_ERR_SYNC i, 15, 0⟩
/-- YL_ERR_CTRL: Control-channel errors. -/
@[reducible] def YL_ERR_CTRL (i : Nat) : Nat := 0x40000C + 0x1000 * i
@[reducible] def YL_ERR_CTRL_crc_err (i : Nat) : Fld := ⟨YL_ERR_CTRL i, 31, 24⟩
@[reducible] def YL_ERR_CTRL_bad_field (i : Nat) : Fld := ⟨YL_ERR_CTRL i, 23, 16⟩
@[reducible] def YL_ERR_CTRL_stale (i : Nat) : Fld := ⟨YL_ERR_CTRL i, 15, 8⟩
@[reducible] def YL_ERR_CTRL_timeout (i : Nat) : Fld := ⟨YL_ERR_CTRL i, 7, 0⟩
/-- YL_ERR_LINK: Relinks, STAMP and sample errors. -/
@[reducible] def YL_ERR_LINK (i : Nat) : Nat := 0x400010 + 0x1000 * i
@[reducible] def YL_ERR_LINK_relinks (i : Nat) : Fld := ⟨YL_ERR_LINK i, 31, 16⟩
@[reducible] def YL_ERR_LINK_stamp_err (i : Nat) : Fld := ⟨YL_ERR_LINK i, 15, 8⟩
@[reducible] def YL_ERR_LINK_sample_err (i : Nat) : Fld := ⟨YL_ERR_LINK i, 7, 0⟩
/-- YL_ERR_CLR: Clears error counters. -/
@[reducible] def YL_ERR_CLR (i : Nat) : Nat := 0x400014 + 0x1000 * i
@[reducible] def YL_ERR_CLR_clear (i : Nat) : Fld := ⟨YL_ERR_CLR i, 0, 0⟩
/-- YL_RTT: Averaged RTT. -/
@[reducible] def YL_RTT (i : Nat) : Nat := 0x400018 + 0x1000 * i
@[reducible] def YL_RTT_value (i : Nat) : Fld := ⟨YL_RTT i, 23, 0⟩
/-- YL_TURN: Averaged turnaround. -/
@[reducible] def YL_TURN (i : Nat) : Nat := 0x40001C + 0x1000 * i
@[reducible] def YL_TURN_value (i : Nat) : Fld := ⟨YL_TURN i, 23, 0⟩
/-- YL_DLY_DOWN: d_down in use. -/
@[reducible] def YL_DLY_DOWN (i : Nat) : Nat := 0x400020 + 0x1000 * i
@[reducible] def YL_DLY_DOWN_value (i : Nat) : Fld := ⟨YL_DLY_DOWN i, 23, 0⟩
/-- YL_ASYM: Lane asymmetry. -/
@[reducible] def YL_ASYM (i : Nat) : Nat := 0x400024 + 0x1000 * i
@[reducible] def YL_ASYM_asym (i : Nat) : Fld := ⟨YL_ASYM i, 15, 0⟩
/-- YL_DESC_CRC: desc_crc of the accepted descriptor. -/
@[reducible] def YL_DESC_CRC (i : Nat) : Nat := 0x400028 + 0x1000 * i
@[reducible] def YL_DESC_CRC_crc (i : Nat) : Fld := ⟨YL_DESC_CRC i, 31, 0⟩
/-- YL_TEST: Loopback and PRBS. -/
@[reducible] def YL_TEST (i : Nat) : Nat := 0x40002C + 0x1000 * i
@[reducible] def YL_TEST_prbs (i : Nat) : Fld := ⟨YL_TEST i, 4, 4⟩
@[reducible] def YL_TEST_mode (i : Nat) : Fld := ⟨YL_TEST i, 1, 0⟩
/-- YL_PRBS_ERR: PRBS bit errors. -/
@[reducible] def YL_PRBS_ERR (i : Nat) : Nat := 0x400030 + 0x1000 * i
@[reducible] def YL_PRBS_ERR_errors (i : Nat) : Fld := ⟨YL_PRBS_ERR i, 31, 0⟩
/-- YL_EMU_DESCm: Emulated descriptor. -/
@[reducible] def YL_EMU_DESCm (i : Nat) (j : Nat) : Nat := 0x400400 + 0x1000 * i + 0x4 * j
@[reducible] def YL_EMU_DESCm_data (i : Nat) (j : Nat) : Fld := ⟨YL_EMU_DESCm i j, 31, 0⟩
/-- YL_EMU_TELEMm: Emulated telemetry. -/
@[reducible] def YL_EMU_TELEMm (i : Nat) (j : Nat) : Nat := 0x400500 + 0x1000 * i + 0x4 * j
@[reducible] def YL_EMU_TELEMm_data (i : Nat) (j : Nat) : Fld := ⟨YL_EMU_TELEMm i j, 31, 0⟩

/-! ### Head-control and Kettle wake registers (05_head_control.md R152, R153) -/

/-- KTL_WAKE_CTRL: Enable, tolerance, limit, power request. -/
@[reducible] def KTL_WAKE_CTRL : Nat := 0x100200
@[reducible] def KTL_WAKE_CTRL_pwr_req : Fld := ⟨KTL_WAKE_CTRL, 24, 24⟩
@[reducible] def KTL_WAKE_CTRL_max_wakes : Fld := ⟨KTL_WAKE_CTRL, 15, 8⟩
@[reducible] def KTL_WAKE_CTRL_bit_err_max : Fld := ⟨KTL_WAKE_CTRL, 6, 4⟩
@[reducible] def KTL_WAKE_CTRL_rx_en : Fld := ⟨KTL_WAKE_CTRL, 0, 0⟩
/-- KTL_WAKE_CODE: Wake code. -/
@[reducible] def KTL_WAKE_CODE : Nat := 0x100204
@[reducible] def KTL_WAKE_CODE_code : Fld := ⟨KTL_WAKE_CODE, 31, 0⟩
/-- KTL_WAKE_STATUS: Wake outcomes. -/
@[reducible] def KTL_WAKE_STATUS : Nat := 0x100208
@[reducible] def KTL_WAKE_STATUS_pwr_timeout : Fld := ⟨KTL_WAKE_STATUS, 2, 2⟩
@[reducible] def KTL_WAKE_STATUS_limited : Fld := ⟨KTL_WAKE_STATUS, 1, 1⟩
@[reducible] def KTL_WAKE_STATUS_woke : Fld := ⟨KTL_WAKE_STATUS, 0, 0⟩
/-- KTL_WAKE_COUNT: Wakes and false starts. -/
@[reducible] def KTL_WAKE_COUNT : Nat := 0x10020C
@[reducible] def KTL_WAKE_COUNT_false_starts : Fld := ⟨KTL_WAKE_COUNT, 31, 16⟩
@[reducible] def KTL_WAKE_COUNT_wakes : Fld := ⟨KTL_WAKE_COUNT, 15, 0⟩
/-- KTL_WAKE_TIME: RTC seconds of the last accepted wake. -/
@[reducible] def KTL_WAKE_TIME : Nat := 0x100210
@[reducible] def KTL_WAKE_TIME_seconds : Fld := ⟨KTL_WAKE_TIME, 31, 0⟩
/-- HC_CTRL: Inhibit, recalibration request. -/
@[reducible] def HC_CTRL : Nat := 0x500000
@[reducible] def HC_CTRL_recal_req : Fld := ⟨HC_CTRL, 8, 8⟩
@[reducible] def HC_CTRL_tx_inhibit : Fld := ⟨HC_CTRL, 0, 0⟩
/-- HC_SEL: Head and sub-band select. -/
@[reducible] def HC_SEL : Nat := 0x500004
@[reducible] def HC_SEL_sub_band : Fld := ⟨HC_SEL, 12, 8⟩
@[reducible] def HC_SEL_head : Fld := ⟨HC_SEL, 5, 0⟩
/-- HC_HEAD_STATUS: Selected head: readiness, hold, gain. -/
@[reducible] def HC_HEAD_STATUS : Nat := 0x500008
@[reducible] def HC_HEAD_STATUS_hold : Fld := ⟨HC_HEAD_STATUS, 31, 24⟩
@[reducible] def HC_HEAD_STATUS_pa_on : Fld := ⟨HC_HEAD_STATUS, 12, 12⟩
@[reducible] def HC_HEAD_STATUS_tr_tx : Fld := ⟨HC_HEAD_STATUS, 11, 11⟩
@[reducible] def HC_HEAD_STATUS_cal_running : Fld := ⟨HC_HEAD_STATUS, 10, 10⟩
@[reducible] def HC_HEAD_STATUS_rx_ready : Fld := ⟨HC_HEAD_STATUS, 9, 9⟩
@[reducible] def HC_HEAD_STATUS_tx_ready : Fld := ⟨HC_HEAD_STATUS, 8, 8⟩
@[reducible] def HC_HEAD_STATUS_rx_gain : Fld := ⟨HC_HEAD_STATUS, 4, 0⟩
/-- HC_HEAD_TX: Selected head: code and compensation. -/
@[reducible] def HC_HEAD_TX : Nat := 0x50000C
@[reducible] def HC_HEAD_TX_comp : Fld := ⟨HC_HEAD_TX, 31, 16⟩
@[reducible] def HC_HEAD_TX_tx_code : Fld := ⟨HC_HEAD_TX, 15, 0⟩
/-- HC_HEAD_TELEM: Selected head: PA temperature, supply. -/
@[reducible] def HC_HEAD_TELEM : Nat := 0x500010
@[reducible] def HC_HEAD_TELEM_supply : Fld := ⟨HC_HEAD_TELEM, 31, 16⟩
@[reducible] def HC_HEAD_TELEM_pa_temp : Fld := ⟨HC_HEAD_TELEM, 15, 0⟩
/-- HC_HEAD_AGE: Selected head: telemetry and calibration age. -/
@[reducible] def HC_HEAD_AGE : Nat := 0x500014
@[reducible] def HC_HEAD_AGE_telem_ms : Fld := ⟨HC_HEAD_AGE, 31, 16⟩
@[reducible] def HC_HEAD_AGE_cal_min : Fld := ⟨HC_HEAD_AGE, 15, 0⟩
/-- HC_DUTY_USED: Selected meter account. -/
@[reducible] def HC_DUTY_USED : Nat := 0x500018
@[reducible] def HC_DUTY_USED_us : Fld := ⟨HC_DUTY_USED, 31, 0⟩
/-- HC_DUTY_LIMIT: Selected meter limit. -/
@[reducible] def HC_DUTY_LIMIT : Nat := 0x50001C
@[reducible] def HC_DUTY_LIMIT_us : Fld := ⟨HC_DUTY_LIMIT, 31, 0⟩
/-- HC_SKIP_A: SYNTH and DUTY refusals. -/
@[reducible] def HC_SKIP_A : Nat := 0x500020
@[reducible] def HC_SKIP_A_synth : Fld := ⟨HC_SKIP_A, 31, 16⟩
@[reducible] def HC_SKIP_A_duty : Fld := ⟨HC_SKIP_A, 15, 0⟩
/-- HC_SKIP_B: REG refusals and held skips. -/
@[reducible] def HC_SKIP_B : Nat := 0x500024
@[reducible] def HC_SKIP_B_reg : Fld := ⟨HC_SKIP_B, 31, 16⟩
@[reducible] def HC_SKIP_B_held : Fld := ⟨HC_SKIP_B, 15, 0⟩
/-- HC_PWR_LIMITED: Bursts at cap or floor. -/
@[reducible] def HC_PWR_LIMITED : Nat := 0x500028
@[reducible] def HC_PWR_LIMITED_limited : Fld := ⟨HC_PWR_LIMITED, 31, 16⟩
@[reducible] def HC_PWR_LIMITED_floor : Fld := ⟨HC_PWR_LIMITED, 15, 0⟩
/-- HC_CNT_CLR: Clears counters. -/
@[reducible] def HC_CNT_CLR : Nat := 0x50002C
@[reducible] def HC_CNT_CLR_clear : Fld := ⟨HC_CNT_CLR, 0, 0⟩
/-- HC_LOCK_STATUS: Lock state. -/
@[reducible] def HC_LOCK_STATUS : Nat := 0x500030
@[reducible] def HC_LOCK_STATUS_region : Fld := ⟨HC_LOCK_STATUS, 31, 16⟩
@[reducible] def HC_LOCK_STATUS_sub_bands : Fld := ⟨HC_LOCK_STATUS, 13, 8⟩
@[reducible] def HC_LOCK_STATUS_blank : Fld := ⟨HC_LOCK_STATUS, 1, 1⟩
@[reducible] def HC_LOCK_STATUS_valid : Fld := ⟨HC_LOCK_STATUS, 0, 0⟩
/-- HC_LOCK_WINm: Lock bytes 4m to 4m + 3. -/
@[reducible] def HC_LOCK_WINm (i : Nat) : Nat := 0x501000 + 0x4 * i
@[reducible] def HC_LOCK_WINm_bytes (i : Nat) : Fld := ⟨HC_LOCK_WINm i, 31, 0⟩

/-! ### Receive registers (06_receive.md R181) -/

/-- RX_CTRL: Capture, combining, counter clear. -/
@[reducible] def RX_CTRL : Nat := 0x600000
@[reducible] def RX_CTRL_cnt_clear : Fld := ⟨RX_CTRL, 2, 2⟩
@[reducible] def RX_CTRL_combine_en : Fld := ⟨RX_CTRL, 1, 1⟩
@[reducible] def RX_CTRL_capture_en : Fld := ⟨RX_CTRL, 0, 0⟩
/-- RX_STATUS: Contexts and groups in use. -/
@[reducible] def RX_STATUS : Nat := 0x600004
@[reducible] def RX_STATUS_slots : Fld := ⟨RX_STATUS, 28, 16⟩
@[reducible] def RX_STATUS_groups : Fld := ⟨RX_STATUS, 9, 0⟩
/-- RX_SEL: Port and channel select. -/
@[reducible] def RX_SEL : Nat := 0x600008
@[reducible] def RX_SEL_port : Fld := ⟨RX_SEL, 13, 8⟩
@[reducible] def RX_SEL_channel : Fld := ⟨RX_SEL, 7, 0⟩
/-- RX_PORT_STATUS: Selected port: channel rate, truncation. -/
@[reducible] def RX_PORT_STATUS : Nat := 0x60000C
@[reducible] def RX_PORT_STATUS_fch : Fld := ⟨RX_PORT_STATUS, 27, 16⟩
@[reducible] def RX_PORT_STATUS_mask_trunc : Fld := ⟨RX_PORT_STATUS, 8, 8⟩
@[reducible] def RX_PORT_STATUS_modes : Fld := ⟨RX_PORT_STATUS, 7, 0⟩
/-- RX_CH_NOISE: Selected channel noise floor. -/
@[reducible] def RX_CH_NOISE : Nat := 0x600010
@[reducible] def RX_CH_NOISE_floor : Fld := ⟨RX_CH_NOISE, 15, 0⟩
/-- RX_CH_DET: Selected channel detections. -/
@[reducible] def RX_CH_DET : Nat := 0x600014
@[reducible] def RX_CH_DET_det : Fld := ⟨RX_CH_DET, 31, 16⟩
@[reducible] def RX_CH_DET_false : Fld := ⟨RX_CH_DET, 15, 0⟩
/-- RX_CH_CAPTURE: Selected channel capture events. -/
@[reducible] def RX_CH_CAPTURE : Nat := 0x600018
@[reducible] def RX_CH_CAPTURE_opened : Fld := ⟨RX_CH_CAPTURE, 31, 20⟩
@[reducible] def RX_CH_CAPTURE_replaced : Fld := ⟨RX_CH_CAPTURE, 19, 8⟩
@[reducible] def RX_CH_CAPTURE_ignored : Fld := ⟨RX_CH_CAPTURE, 7, 0⟩
/-- RX_CNT_CTX: Pool exhaustion. -/
@[reducible] def RX_CNT_CTX : Nat := 0x60001C
@[reducible] def RX_CNT_CTX_ctx_full : Fld := ⟨RX_CNT_CTX, 31, 16⟩
@[reducible] def RX_CNT_CTX_ctx_preempt : Fld := ⟨RX_CNT_CTX, 15, 0⟩
/-- RX_CNT_LOST: Contexts lost to link, head and engine. -/
@[reducible] def RX_CNT_LOST : Nat := 0x600020
@[reducible] def RX_CNT_LOST_lost_link : Fld := ⟨RX_CNT_LOST, 31, 22⟩
@[reducible] def RX_CNT_LOST_lost_head : Fld := ⟨RX_CNT_LOST, 21, 11⟩
@[reducible] def RX_CNT_LOST_lost_engine : Fld := ⟨RX_CNT_LOST, 10, 0⟩
/-- RX_CNT_DELIV: Frames delivered. -/
@[reducible] def RX_CNT_DELIV : Nat := 0x600024
@[reducible] def RX_CNT_DELIV_frames : Fld := ⟨RX_CNT_DELIV, 31, 0⟩
/-- RX_CNT_FAIL: Failed frames. -/
@[reducible] def RX_CNT_FAIL : Nat := 0x600028
@[reducible] def RX_CNT_FAIL_fcs_fail : Fld := ⟨RX_CNT_FAIL, 31, 16⟩
@[reducible] def RX_CNT_FAIL_phr_bad : Fld := ⟨RX_CNT_FAIL, 15, 0⟩
/-- RX_CNT_COMB: Combining outcomes. -/
@[reducible] def RX_CNT_COMB : Nat := 0x60002C
@[reducible] def RX_CNT_COMB_comb_ok : Fld := ⟨RX_CNT_COMB, 31, 16⟩
@[reducible] def RX_CNT_COMB_comb_fail : Fld := ⟨RX_CNT_COMB, 15, 0⟩
/-- RX_CNT_DUP: Duplicates and full groups. -/
@[reducible] def RX_CNT_DUP : Nat := 0x600030
@[reducible] def RX_CNT_DUP_dup_dropped : Fld := ⟨RX_CNT_DUP, 31, 16⟩
@[reducible] def RX_CNT_DUP_group_full : Fld := ⟨RX_CNT_DUP, 15, 0⟩
/-- RX_CNT_DROP: Late detections and held frames. -/
@[reducible] def RX_CNT_DROP : Nat := 0x600034
@[reducible] def RX_CNT_DROP_ctx_late : Fld := ⟨RX_CNT_DROP, 31, 16⟩
@[reducible] def RX_CNT_DROP_rec_drop : Fld := ⟨RX_CNT_DROP, 15, 0⟩
/-- RX_RSSI_OFSn: RSSI offset of HPnn. -/
@[reducible] def RX_RSSI_OFSn (i : Nat) : Nat := 0x600100 + 0x4 * i
@[reducible] def RX_RSSI_OFSn_ofs (i : Nat) : Fld := ⟨RX_RSSI_OFSn i, 15, 0⟩

/-! ### Transmit registers (07_transmit.md R200) -/

/-- TX_CTRL: Counter clear. -/
@[reducible] def TX_CTRL : Nat := 0x700000
@[reducible] def TX_CTRL_cnt_clear : Fld := ⟨TX_CTRL, 0, 0⟩
/-- TX_STATUS: Contexts and lanes in use. -/
@[reducible] def TX_STATUS : Nat := 0x700004
@[reducible] def TX_STATUS_contexts : Fld := ⟨TX_STATUS, 26, 16⟩
@[reducible] def TX_STATUS_lanes : Fld := ⟨TX_STATUS, 10, 0⟩
/-- TX_CNT_SENT: Bursts ended normally. -/
@[reducible] def TX_CNT_SENT : Nat := 0x700008
@[reducible] def TX_CNT_SENT_bursts : Fld := ⟨TX_CNT_SENT, 31, 0⟩
/-- TX_CNT_SKIP: Transmit-chain refusals. -/
@[reducible] def TX_CNT_SKIP : Nat := 0x70000C
@[reducible] def TX_CNT_SKIP_context : Fld := ⟨TX_CNT_SKIP, 31, 24⟩
@[reducible] def TX_CNT_SKIP_overlap : Fld := ⟨TX_CNT_SKIP, 23, 16⟩
@[reducible] def TX_CNT_SKIP_late : Fld := ⟨TX_CNT_SKIP, 15, 8⟩
@[reducible] def TX_CNT_SKIP_engine : Fld := ⟨TX_CNT_SKIP, 7, 0⟩
/-- TX_CNT_CFR: Crest-factor actions. -/
@[reducible] def TX_CNT_CFR : Nat := 0x700010
@[reducible] def TX_CNT_CFR_cancelled : Fld := ⟨TX_CNT_CFR, 31, 16⟩
@[reducible] def TX_CNT_CFR_clipped : Fld := ⟨TX_CNT_CFR, 15, 0⟩
/-- TX_CNT_WHISTLE: Whistle copies. -/
@[reducible] def TX_CNT_WHISTLE : Nat := 0x700014
@[reducible] def TX_CNT_WHISTLE_sent : Fld := ⟨TX_CNT_WHISTLE, 31, 16⟩
@[reducible] def TX_CNT_WHISTLE_not_sent : Fld := ⟨TX_CNT_WHISTLE, 15, 0⟩
/-- TX_RAMP_SEL: Profile per family and for Whistles. -/
@[reducible] def TX_RAMP_SEL : Nat := 0x700018
@[reducible] def TX_RAMP_SEL_whistle : Fld := ⟨TX_RAMP_SEL, 18, 16⟩
@[reducible] def TX_RAMP_SEL_fam3 : Fld := ⟨TX_RAMP_SEL, 14, 12⟩
@[reducible] def TX_RAMP_SEL_fam2 : Fld := ⟨TX_RAMP_SEL, 10, 8⟩
@[reducible] def TX_RAMP_SEL_fam1 : Fld := ⟨TX_RAMP_SEL, 6, 4⟩
@[reducible] def TX_RAMP_SEL_fam0 : Fld := ⟨TX_RAMP_SEL, 2, 0⟩
/-- TX_RAMP_LENp: Profile duration. -/
@[reducible] def TX_RAMP_LENp (i : Nat) : Nat := 0x700100 + 0x4 * i
@[reducible] def TX_RAMP_LENp_len (i : Nat) : Fld := ⟨TX_RAMP_LENp i, 9, 0⟩
/-- TX_RAMP_PTp_m: Profile points. -/
@[reducible] def TX_RAMP_PTp_m (i : Nat) (j : Nat) : Nat := 0x700400 + 0x80 * i + 0x4 * j
@[reducible] def TX_RAMP_PTp_m_pt_hi (i : Nat) (j : Nat) : Fld := ⟨TX_RAMP_PTp_m i j, 31, 16⟩
@[reducible] def TX_RAMP_PTp_m_pt_lo (i : Nat) (j : Nat) : Fld := ⟨TX_RAMP_PTp_m i j, 15, 0⟩
/-- TX_LOOPn: Loopback of HPnn. -/
@[reducible] def TX_LOOPn (i : Nat) : Nat := 0x700800 + 0x4 * i
@[reducible] def TX_LOOPn_att (i : Nat) : Fld := ⟨TX_LOOPn i, 15, 8⟩
@[reducible] def TX_LOOPn_enable (i : Nat) : Fld := ⟨TX_LOOPn i, 0, 0⟩

/-! ### TSCH registers (08_tsch.md R235) -/

/-- TS_CTRL: PAN run bits, counter clear. -/
@[reducible] def TS_CTRL : Nat := 0x800000
@[reducible] def TS_CTRL_cnt_clear : Fld := ⟨TS_CTRL, 8, 8⟩
@[reducible] def TS_CTRL_pan_run : Fld := ⟨TS_CTRL, 7, 0⟩
/-- TS_STATUS: Running PANs, beacon truncation. -/
@[reducible] def TS_STATUS : Nat := 0x800004
@[reducible] def TS_STATUS_eb_trunc : Fld := ⟨TS_STATUS, 15, 8⟩
@[reducible] def TS_STATUS_running : Fld := ⟨TS_STATUS, 7, 0⟩
/-- TS_CFG: Retry limit. -/
@[reducible] def TS_CFG : Nat := 0x800008
@[reducible] def TS_CFG_max_retries : Fld := ⟨TS_CFG, 2, 0⟩
/-- TS_EUI_LO: Extended address, low half. -/
@[reducible] def TS_EUI_LO : Nat := 0x800010
@[reducible] def TS_EUI_LO_eui : Fld := ⟨TS_EUI_LO, 31, 0⟩
/-- TS_EUI_HI: Extended address, high half. -/
@[reducible] def TS_EUI_HI : Nat := 0x800014
@[reducible] def TS_EUI_HI_eui : Fld := ⟨TS_EUI_HI, 31, 0⟩
/-- TS_ASN_SEL: PAN slot select. -/
@[reducible] def TS_ASN_SEL : Nat := 0x800018
@[reducible] def TS_ASN_SEL_pan : Fld := ⟨TS_ASN_SEL, 2, 0⟩
/-- TS_ASN_LO: Selected ASN, bits [31:0]. -/
@[reducible] def TS_ASN_LO : Nat := 0x80001C
@[reducible] def TS_ASN_LO_asn : Fld := ⟨TS_ASN_LO, 31, 0⟩
/-- TS_ASN_HI: Selected ASN, bits [39:32]. -/
@[reducible] def TS_ASN_HI : Nat := 0x800020
@[reducible] def TS_ASN_HI_asn : Fld := ⟨TS_ASN_HI, 7, 0⟩
/-- TS_CELL_IDX: Cell index. -/
@[reducible] def TS_CELL_IDX : Nat := 0x800030
@[reducible] def TS_CELL_IDX_index : Fld := ⟨TS_CELL_IDX, 19, 0⟩
/-- TS_CELL_DATA_LO: Cell entry, bits [31:0]. -/
@[reducible] def TS_CELL_DATA_LO : Nat := 0x800034
@[reducible] def TS_CELL_DATA_LO_data : Fld := ⟨TS_CELL_DATA_LO, 31, 0⟩
/-- TS_CELL_DATA_HI: Cell entry, bits [63:32]. -/
@[reducible] def TS_CELL_DATA_HI : Nat := 0x800038
@[reducible] def TS_CELL_DATA_HI_data : Fld := ⟨TS_CELL_DATA_HI, 31, 0⟩
/-- TS_CELL_CMD: Cell operation. -/
@[reducible] def TS_CELL_CMD : Nat := 0x80003C
@[reducible] def TS_CELL_CMD_op : Fld := ⟨TS_CELL_CMD, 1, 0⟩
/-- TS_CELL_STATUS: Cell operation result. -/
@[reducible] def TS_CELL_STATUS : Nat := 0x800040
@[reducible] def TS_CELL_STATUS_busy : Fld := ⟨TS_CELL_STATUS, 8, 8⟩
@[reducible] def TS_CELL_STATUS_result : Fld := ⟨TS_CELL_STATUS, 7, 0⟩
/-- TS_ALLOC_REQ: Allocator request. -/
@[reducible] def TS_ALLOC_REQ : Nat := 0x800050
@[reducible] def TS_ALLOC_REQ_op : Fld := ⟨TS_ALLOC_REQ, 31, 31⟩
@[reducible] def TS_ALLOC_REQ_pan : Fld := ⟨TS_ALLOC_REQ, 18, 16⟩
@[reducible] def TS_ALLOC_REQ_address : Fld := ⟨TS_ALLOC_REQ, 15, 0⟩
/-- TS_ALLOC_RESULT: Allocator result. -/
@[reducible] def TS_ALLOC_RESULT : Nat := 0x800054
@[reducible] def TS_ALLOC_RESULT_result : Fld := ⟨TS_ALLOC_RESULT, 31, 24⟩
@[reducible] def TS_ALLOC_RESULT_busy : Fld := ⟨TS_ALLOC_RESULT, 16, 16⟩
@[reducible] def TS_ALLOC_RESULT_address : Fld := ⟨TS_ALLOC_RESULT, 15, 0⟩
/-- TS_PEER_SEL: Peer select. -/
@[reducible] def TS_PEER_SEL : Nat := 0x800060
@[reducible] def TS_PEER_SEL_peer : Fld := ⟨TS_PEER_SEL, 3, 0⟩
/-- TS_PEER_STATUS: Selected peer state. -/
@[reducible] def TS_PEER_STATUS : Nat := 0x800064
@[reducible] def TS_PEER_STATUS_join_metric : Fld := ⟨TS_PEER_STATUS, 31, 24⟩
@[reducible] def TS_PEER_STATUS_misses : Fld := ⟨TS_PEER_STATUS, 23, 16⟩
@[reducible] def TS_PEER_STATUS_released : Fld := ⟨TS_PEER_STATUS, 8, 8⟩
@[reducible] def TS_PEER_STATUS_state : Fld := ⟨TS_PEER_STATUS, 1, 0⟩
/-- TS_PEER_OFFSET: Selected peer mean offset. -/
@[reducible] def TS_PEER_OFFSET : Nat := 0x800068
@[reducible] def TS_PEER_OFFSET_offset : Fld := ⟨TS_PEER_OFFSET, 31, 0⟩
/-- TS_RECOV: Recovery time source. -/
@[reducible] def TS_RECOV : Nat := 0x80006C
@[reducible] def TS_RECOV_switches : Fld := ⟨TS_RECOV, 31, 16⟩
@[reducible] def TS_RECOV_active : Fld := ⟨TS_RECOV, 8, 8⟩
@[reducible] def TS_RECOV_none : Fld := ⟨TS_RECOV, 4, 4⟩
@[reducible] def TS_RECOV_source : Fld := ⟨TS_RECOV, 3, 0⟩
/-- TS_CNT_EB: Beacons. -/
@[reducible] def TS_CNT_EB : Nat := 0x800080
@[reducible] def TS_CNT_EB_sent : Fld := ⟨TS_CNT_EB, 31, 16⟩
@[reducible] def TS_CNT_EB_foreign : Fld := ⟨TS_CNT_EB, 15, 0⟩
/-- TS_CNT_ACK: Acks sent. -/
@[reducible] def TS_CNT_ACK : Nat := 0x800084
@[reducible] def TS_CNT_ACK_sent : Fld := ⟨TS_CNT_ACK, 31, 0⟩
/-- TS_CNT_ACK_ERR: Acks refused or late. -/
@[reducible] def TS_CNT_ACK_ERR : Nat := 0x800088
@[reducible] def TS_CNT_ACK_ERR_refused : Fld := ⟨TS_CNT_ACK_ERR, 31, 16⟩
@[reducible] def TS_CNT_ACK_ERR_late : Fld := ⟨TS_CNT_ACK_ERR, 15, 0⟩
/-- TS_CNT_FC: Duplicates and replays. -/
@[reducible] def TS_CNT_FC : Nat := 0x80008C
@[reducible] def TS_CNT_FC_duplicates : Fld := ⟨TS_CNT_FC, 31, 16⟩
@[reducible] def TS_CNT_FC_replays : Fld := ⟨TS_CNT_FC, 15, 0⟩
/-- TS_CNT_FC_ERR: Counter absence and exhaustion. -/
@[reducible] def TS_CNT_FC_ERR : Nat := 0x800090
@[reducible] def TS_CNT_FC_ERR_no_counter : Fld := ⟨TS_CNT_FC_ERR, 31, 16⟩
@[reducible] def TS_CNT_FC_ERR_exhausted : Fld := ⟨TS_CNT_FC_ERR, 15, 0⟩
/-- TS_CNT_RETRY: Retries and drops. -/
@[reducible] def TS_CNT_RETRY : Nat := 0x800094
@[reducible] def TS_CNT_RETRY_retries : Fld := ⟨TS_CNT_RETRY, 31, 16⟩
@[reducible] def TS_CNT_RETRY_dropped : Fld := ⟨TS_CNT_RETRY, 15, 0⟩
/-- TS_CNT_EXP: Expectation and ack limits. -/
@[reducible] def TS_CNT_EXP : Nat := 0x800098
@[reducible] def TS_CNT_EXP_dropped : Fld := ⟨TS_CNT_EXP, 31, 16⟩
@[reducible] def TS_CNT_EXP_ack_same_slot : Fld := ⟨TS_CNT_EXP, 15, 0⟩
/-- TS_CNT_ORPHAN: Cells cleared by a Blend delta. -/
@[reducible] def TS_CNT_ORPHAN : Nat := 0x80009C
@[reducible] def TS_CNT_ORPHAN_cleared : Fld := ⟨TS_CNT_ORPHAN, 31, 0⟩
/-- TS_SKIP_CNTm: Skips with cause m. -/
@[reducible] def TS_SKIP_CNTm (i : Nat) : Nat := 0x800100 + 0x4 * i
@[reducible] def TS_SKIP_CNTm_count (i : Nat) : Fld := ⟨TS_SKIP_CNTm i, 31, 0⟩
/-- TS_ALLOC_COUNTp: Addresses of PAN slot p. -/
@[reducible] def TS_ALLOC_COUNTp (i : Nat) : Nat := 0x800180 + 0x4 * i
@[reducible] def TS_ALLOC_COUNTp_quarantined (i : Nat) : Fld := ⟨TS_ALLOC_COUNTp i, 31, 16⟩
@[reducible] def TS_ALLOC_COUNTp_allocated (i : Nat) : Fld := ⟨TS_ALLOC_COUNTp i, 15, 0⟩

/-! ### Table registers (09_tables.md R261) -/

/-- TBL_CTRL: Sweeper, learning, counter clear. -/
@[reducible] def TBL_CTRL : Nat := 0x900000
@[reducible] def TBL_CTRL_learn_en : Fld := ⟨TBL_CTRL, 2, 2⟩
@[reducible] def TBL_CTRL_cnt_clear : Fld := ⟨TBL_CTRL, 1, 1⟩
@[reducible] def TBL_CTRL_sweep_en : Fld := ⟨TBL_CTRL, 0, 0⟩
/-- TBL_STATUS: Accepting, spare banks in use. -/
@[reducible] def TBL_STATUS : Nat := 0x900004
@[reducible] def TBL_STATUS_accepting : Fld := ⟨TBL_STATUS, 8, 8⟩
@[reducible] def TBL_STATUS_spares : Fld := ⟨TBL_STATUS, 2, 0⟩
/-- TBL_SWEEP_CFG: Sweep period. -/
@[reducible] def TBL_SWEEP_CFG : Nat := 0x900008
@[reducible] def TBL_SWEEP_CFG_period_s : Fld := ⟨TBL_SWEEP_CFG, 15, 0⟩
/-- TBL_LEARN_CFG: Learn queue and suppression. -/
@[reducible] def TBL_LEARN_CFG : Nat := 0x90000C
@[reducible] def TBL_LEARN_CFG_suppress_ms : Fld := ⟨TBL_LEARN_CFG, 23, 16⟩
@[reducible] def TBL_LEARN_CFG_wq : Fld := ⟨TBL_LEARN_CFG, 7, 0⟩
/-- TBL_CNT_LOOKUP: Keyed lookups. -/
@[reducible] def TBL_CNT_LOOKUP : Nat := 0x900010
@[reducible] def TBL_CNT_LOOKUP_lookups : Fld := ⟨TBL_CNT_LOOKUP, 31, 0⟩
/-- TBL_CNT_RETRY: Version retries and serial paths. -/
@[reducible] def TBL_CNT_RETRY : Nat := 0x900014
@[reducible] def TBL_CNT_RETRY_retries : Fld := ⟨TBL_CNT_RETRY, 31, 16⟩
@[reducible] def TBL_CNT_RETRY_serial : Fld := ⟨TBL_CNT_RETRY, 15, 0⟩
/-- TBL_CNT_INSERT: Failed inserts and evictions. -/
@[reducible] def TBL_CNT_INSERT : Nat := 0x900018
@[reducible] def TBL_CNT_INSERT_full : Fld := ⟨TBL_CNT_INSERT, 31, 16⟩
@[reducible] def TBL_CNT_INSERT_evicted : Fld := ⟨TBL_CNT_INSERT, 15, 0⟩
/-- TBL_CNT_AGE: Aged and saved entries. -/
@[reducible] def TBL_CNT_AGE : Nat := 0x90001C
@[reducible] def TBL_CNT_AGE_aged : Fld := ⟨TBL_CNT_AGE, 31, 16⟩
@[reducible] def TBL_CNT_AGE_saved : Fld := ⟨TBL_CNT_AGE, 15, 0⟩
/-- TBL_CNT_LEARN: Learn notices. -/
@[reducible] def TBL_CNT_LEARN : Nat := 0x900020
@[reducible] def TBL_CNT_LEARN_posted : Fld := ⟨TBL_CNT_LEARN, 31, 16⟩
@[reducible] def TBL_CNT_LEARN_dropped : Fld := ⟨TBL_CNT_LEARN, 15, 0⟩
/-- TBL_CNT_ERR: Timeouts and memory errors. -/
@[reducible] def TBL_CNT_ERR : Nat := 0x900024
@[reducible] def TBL_CNT_ERR_timeout : Fld := ⟨TBL_CNT_ERR, 31, 16⟩
@[reducible] def TBL_CNT_ERR_mem_err : Fld := ⟨TBL_CNT_ERR, 15, 0⟩
/-- TBL_ADDR_COUNT: Address entries in use. -/
@[reducible] def TBL_ADDR_COUNT : Nat := 0x900030
@[reducible] def TBL_ADDR_COUNT_entries : Fld := ⟨TBL_ADDR_COUNT, 18, 0⟩
/-- TBL_NODE_COUNTp: Valid Node entries of PAN slot p. -/
@[reducible] def TBL_NODE_COUNTp (i : Nat) : Nat := 0x900040 + 0x4 * i
@[reducible] def TBL_NODE_COUNTp_nodes (i : Nat) : Fld := ⟨TBL_NODE_COUNTp i, 15, 0⟩

/-! ### Forwarding registers (10_forwarding.md R292) -/

/-- FWD_CTRL: Hairpin, backhaul-down, counter clear. -/
@[reducible] def FWD_CTRL : Nat := 0xA00000
@[reducible] def FWD_CTRL_cnt_clear : Fld := ⟨FWD_CTRL, 2, 2⟩
@[reducible] def FWD_CTRL_hairpin_en : Fld := ⟨FWD_CTRL, 1, 1⟩
@[reducible] def FWD_CTRL_bh_down : Fld := ⟨FWD_CTRL, 0, 0⟩
/-- FWD_STATUS: Links, recovery state, free entries. -/
@[reducible] def FWD_STATUS : Nat := 0xA00004
@[reducible] def FWD_STATUS_desc_free : Fld := ⟨FWD_STATUS, 31, 16⟩
@[reducible] def FWD_STATUS_recov : Fld := ⟨FWD_STATUS, 10, 8⟩
@[reducible] def FWD_STATUS_link_up : Fld := ⟨FWD_STATUS, 3, 0⟩
/-- FWD_CFG: Hops, reassembly time. -/
@[reducible] def FWD_CFG : Nat := 0xA00008
@[reducible] def FWD_CFG_reasm_s : Fld := ⟨FWD_CFG, 13, 8⟩
@[reducible] def FWD_CFG_max_hops : Fld := ⟨FWD_CFG, 5, 0⟩
/-- FWD_PANp_CFG: VLAN and ports of PAN slot p. -/
@[reducible] def FWD_PANp_CFG (i : Nat) : Nat := 0xA00100 + 0x20 * i
@[reducible] def FWD_PANp_CFG_eth_mask (i : Nat) : Fld := ⟨FWD_PANp_CFG i, 19, 16⟩
@[reducible] def FWD_PANp_CFG_vid (i : Nat) : Fld := ⟨FWD_PANp_CFG i, 11, 0⟩
/-- FWD_PANp_PFX_LO: Prefix bytes 0–3. -/
@[reducible] def FWD_PANp_PFX_LO (i : Nat) : Nat := 0xA00104 + 0x20 * i
@[reducible] def FWD_PANp_PFX_LO_prefix (i : Nat) : Fld := ⟨FWD_PANp_PFX_LO i, 31, 0⟩
/-- FWD_PANp_PFX_HI: Prefix bytes 4–7. -/
@[reducible] def FWD_PANp_PFX_HI (i : Nat) : Nat := 0xA00108 + 0x20 * i
@[reducible] def FWD_PANp_PFX_HI_prefix (i : Nat) : Fld := ⟨FWD_PANp_PFX_HI i, 31, 0⟩
/-- FWD_PANp_POL_MODE: PAN policer modes. -/
@[reducible] def FWD_PANp_POL_MODE (i : Nat) : Nat := 0xA0010C + 0x20 * i
@[reducible] def FWD_PANp_POL_MODE_two_rate (i : Nat) : Fld := ⟨FWD_PANp_POL_MODE i, 23, 16⟩
@[reducible] def FWD_PANp_POL_MODE_aware (i : Nat) : Fld := ⟨FWD_PANp_POL_MODE i, 15, 8⟩
@[reducible] def FWD_PANp_POL_MODE_en (i : Nat) : Fld := ⟨FWD_PANp_POL_MODE i, 7, 0⟩
/-- FWD_PANp_POL_A: Profiles, classes 0–3. -/
@[reducible] def FWD_PANp_POL_A (i : Nat) : Nat := 0xA00110 + 0x20 * i
@[reducible] def FWD_PANp_POL_A_profile (i : Nat) : Fld := ⟨FWD_PANp_POL_A i, 31, 0⟩
/-- FWD_PANp_POL_B: Profiles, classes 4–7. -/
@[reducible] def FWD_PANp_POL_B (i : Nat) : Nat := 0xA00114 + 0x20 * i
@[reducible] def FWD_PANp_POL_B_profile (i : Nat) : Fld := ⟨FWD_PANp_POL_B i, 31, 0⟩
/-- FWD_ETHn_CFG: Tags of ETHn. -/
@[reducible] def FWD_ETHn_CFG (i : Nat) : Nat := 0xA00200 + 0x10 * i
@[reducible] def FWD_ETHn_CFG_stag_en (i : Nat) : Fld := ⟨FWD_ETHn_CFG i, 31, 31⟩
@[reducible] def FWD_ETHn_CFG_s_vid (i : Nat) : Fld := ⟨FWD_ETHn_CFG i, 27, 16⟩
@[reducible] def FWD_ETHn_CFG_untag_en (i : Nat) : Fld := ⟨FWD_ETHn_CFG i, 8, 8⟩
@[reducible] def FWD_ETHn_CFG_untag_pan (i : Nat) : Fld := ⟨FWD_ETHn_CFG i, 2, 0⟩
/-- FWD_ETHn_GW_LO: Gateway MAC bytes 0–3. -/
@[reducible] def FWD_ETHn_GW_LO (i : Nat) : Nat := 0xA00204 + 0x10 * i
@[reducible] def FWD_ETHn_GW_LO_mac (i : Nat) : Fld := ⟨FWD_ETHn_GW_LO i, 31, 0⟩
/-- FWD_ETHn_SMAC_LO: Source MAC bytes 0–3. -/
@[reducible] def FWD_ETHn_SMAC_LO (i : Nat) : Nat := 0xA00208 + 0x10 * i
@[reducible] def FWD_ETHn_SMAC_LO_mac (i : Nat) : Fld := ⟨FWD_ETHn_SMAC_LO i, 31, 0⟩
/-- FWD_ETHn_MAC_HI: MAC bytes 4–5. -/
@[reducible] def FWD_ETHn_MAC_HI (i : Nat) : Nat := 0xA0020C + 0x10 * i
@[reducible] def FWD_ETHn_MAC_HI_smac (i : Nat) : Fld := ⟨FWD_ETHn_MAC_HI i, 31, 16⟩
@[reducible] def FWD_ETHn_MAC_HI_gw (i : Nat) : Fld := ⟨FWD_ETHn_MAC_HI i, 15, 0⟩
/-- FWD_DSCP_MAPm: DSCP 8m to 8m + 7. -/
@[reducible] def FWD_DSCP_MAPm (i : Nat) : Nat := 0xA00300 + 0x4 * i
@[reducible] def FWD_DSCP_MAPm_yellow0 (i : Nat) : Fld := ⟨FWD_DSCP_MAPm i, 3, 3⟩
@[reducible] def FWD_DSCP_MAPm_class0 (i : Nat) : Fld := ⟨FWD_DSCP_MAPm i, 2, 0⟩
@[reducible] def FWD_DSCP_MAPm_yellow1 (i : Nat) : Fld := ⟨FWD_DSCP_MAPm i, 7, 7⟩
@[reducible] def FWD_DSCP_MAPm_class1 (i : Nat) : Fld := ⟨FWD_DSCP_MAPm i, 6, 4⟩
@[reducible] def FWD_DSCP_MAPm_yellow2 (i : Nat) : Fld := ⟨FWD_DSCP_MAPm i, 11, 11⟩
@[reducible] def FWD_DSCP_MAPm_class2 (i : Nat) : Fld := ⟨FWD_DSCP_MAPm i, 10, 8⟩
@[reducible] def FWD_DSCP_MAPm_yellow3 (i : Nat) : Fld := ⟨FWD_DSCP_MAPm i, 15, 15⟩
@[reducible] def FWD_DSCP_MAPm_class3 (i : Nat) : Fld := ⟨FWD_DSCP_MAPm i, 14, 12⟩
@[reducible] def FWD_DSCP_MAPm_yellow4 (i : Nat) : Fld := ⟨FWD_DSCP_MAPm i, 19, 19⟩
@[reducible] def FWD_DSCP_MAPm_class4 (i : Nat) : Fld := ⟨FWD_DSCP_MAPm i, 18, 16⟩
@[reducible] def FWD_DSCP_MAPm_yellow5 (i : Nat) : Fld := ⟨FWD_DSCP_MAPm i, 23, 23⟩
@[reducible] def FWD_DSCP_MAPm_class5 (i : Nat) : Fld := ⟨FWD_DSCP_MAPm i, 22, 20⟩
@[reducible] def FWD_DSCP_MAPm_yellow6 (i : Nat) : Fld := ⟨FWD_DSCP_MAPm i, 27, 27⟩
@[reducible] def FWD_DSCP_MAPm_class6 (i : Nat) : Fld := ⟨FWD_DSCP_MAPm i, 26, 24⟩
@[reducible] def FWD_DSCP_MAPm_yellow7 (i : Nat) : Fld := ⟨FWD_DSCP_MAPm i, 31, 31⟩
@[reducible] def FWD_DSCP_MAPm_class7 (i : Nat) : Fld := ⟨FWD_DSCP_MAPm i, 30, 28⟩
/-- FWD_PCP_MAP: PCP per class. -/
@[reducible] def FWD_PCP_MAP : Nat := 0xA00320
@[reducible] def FWD_PCP_MAP_pcp0 : Fld := ⟨FWD_PCP_MAP, 2, 0⟩
@[reducible] def FWD_PCP_MAP_pcp1 : Fld := ⟨FWD_PCP_MAP, 5, 3⟩
@[reducible] def FWD_PCP_MAP_pcp2 : Fld := ⟨FWD_PCP_MAP, 8, 6⟩
@[reducible] def FWD_PCP_MAP_pcp3 : Fld := ⟨FWD_PCP_MAP, 11, 9⟩
@[reducible] def FWD_PCP_MAP_pcp4 : Fld := ⟨FWD_PCP_MAP, 14, 12⟩
@[reducible] def FWD_PCP_MAP_pcp5 : Fld := ⟨FWD_PCP_MAP, 17, 15⟩
@[reducible] def FWD_PCP_MAP_pcp6 : Fld := ⟨FWD_PCP_MAP, 20, 18⟩
@[reducible] def FWD_PCP_MAP_pcp7 : Fld := ⟨FWD_PCP_MAP, 23, 21⟩
/-- FWD_EXC_MAP0: Causes 1–8. -/
@[reducible] def FWD_EXC_MAP0 : Nat := 0xA00324
@[reducible] def FWD_EXC_MAP0_dest1 : Fld := ⟨FWD_EXC_MAP0, 3, 0⟩
@[reducible] def FWD_EXC_MAP0_dest2 : Fld := ⟨FWD_EXC_MAP0, 7, 4⟩
@[reducible] def FWD_EXC_MAP0_dest3 : Fld := ⟨FWD_EXC_MAP0, 11, 8⟩
@[reducible] def FWD_EXC_MAP0_dest4 : Fld := ⟨FWD_EXC_MAP0, 15, 12⟩
@[reducible] def FWD_EXC_MAP0_dest5 : Fld := ⟨FWD_EXC_MAP0, 19, 16⟩
@[reducible] def FWD_EXC_MAP0_dest6 : Fld := ⟨FWD_EXC_MAP0, 23, 20⟩
@[reducible] def FWD_EXC_MAP0_dest7 : Fld := ⟨FWD_EXC_MAP0, 27, 24⟩
@[reducible] def FWD_EXC_MAP0_dest8 : Fld := ⟨FWD_EXC_MAP0, 31, 28⟩
/-- FWD_EXC_MAP1: Causes 9–11. -/
@[reducible] def FWD_EXC_MAP1 : Nat := 0xA00328
@[reducible] def FWD_EXC_MAP1_dest9 : Fld := ⟨FWD_EXC_MAP1, 3, 0⟩
@[reducible] def FWD_EXC_MAP1_dest10 : Fld := ⟨FWD_EXC_MAP1, 7, 4⟩
@[reducible] def FWD_EXC_MAP1_dest11 : Fld := ⟨FWD_EXC_MAP1, 11, 8⟩
/-- FWD_EXC_WQ: Firmware exception queue. -/
@[reducible] def FWD_EXC_WQ : Nat := 0xA0032C
@[reducible] def FWD_EXC_WQ_wq : Fld := ⟨FWD_EXC_WQ, 7, 0⟩
/-- FWD_RECOV_CFG: Tunnel classes and rate. -/
@[reducible] def FWD_RECOV_CFG : Nat := 0xA00400
@[reducible] def FWD_RECOV_CFG_class_mask : Fld := ⟨FWD_RECOV_CFG, 31, 24⟩
@[reducible] def FWD_RECOV_CFG_rate_kbps : Fld := ⟨FWD_RECOV_CFG, 11, 0⟩
/-- FWD_RECOV_STATUS: Peer, port, entries. -/
@[reducible] def FWD_RECOV_STATUS : Nat := 0xA00404
@[reducible] def FWD_RECOV_STATUS_entries : Fld := ⟨FWD_RECOV_STATUS, 31, 16⟩
@[reducible] def FWD_RECOV_STATUS_port : Fld := ⟨FWD_RECOV_STATUS, 13, 8⟩
@[reducible] def FWD_RECOV_STATUS_peer : Fld := ⟨FWD_RECOV_STATUS, 3, 0⟩
/-- FWD_RECOV_TUNm: Tunnel endpoint. -/
@[reducible] def FWD_RECOV_TUNm (i : Nat) : Nat := 0xA00410 + 0x4 * i
@[reducible] def FWD_RECOV_TUNm_addr (i : Nat) : Fld := ⟨FWD_RECOV_TUNm i, 31, 0⟩
/-- FWD_RECOV_ADDRm: Device recovery address. -/
@[reducible] def FWD_RECOV_ADDRm (i : Nat) : Nat := 0xA00420 + 0x4 * i
@[reducible] def FWD_RECOV_ADDRm_addr (i : Nat) : Fld := ⟨FWD_RECOV_ADDRm i, 31, 0⟩
/-- FWD_QSEL: Queue select. -/
@[reducible] def FWD_QSEL : Nat := 0xA00500
@[reducible] def FWD_QSEL_dir : Fld := ⟨FWD_QSEL, 8, 8⟩
@[reducible] def FWD_QSEL_sector : Fld := ⟨FWD_QSEL, 7, 4⟩
@[reducible] def FWD_QSEL_class : Fld := ⟨FWD_QSEL, 2, 0⟩
/-- FWD_Q_OCC: Selected queue occupancy. -/
@[reducible] def FWD_Q_OCC : Nat := 0xA00504
@[reducible] def FWD_Q_OCC_octets : Fld := ⟨FWD_Q_OCC, 24, 0⟩
/-- FWD_Q_DEF: Selected queue deficit. -/
@[reducible] def FWD_Q_DEF : Nat := 0xA00508
@[reducible] def FWD_Q_DEF_deficit : Fld := ⟨FWD_Q_DEF, 16, 0⟩
/-- FWD_Q_DROP: Selected queue drops. -/
@[reducible] def FWD_Q_DROP : Nat := 0xA0050C
@[reducible] def FWD_Q_DROP_tail : Fld := ⟨FWD_Q_DROP, 31, 16⟩
@[reducible] def FWD_Q_DROP_yellow : Fld := ⟨FWD_Q_DROP, 15, 0⟩
/-- FWD_CNT_UP: Packets to Ethernet. -/
@[reducible] def FWD_CNT_UP : Nat := 0xA00600
@[reducible] def FWD_CNT_UP_count : Fld := ⟨FWD_CNT_UP, 31, 0⟩
/-- FWD_CNT_DOWN: Frames admitted downlink. -/
@[reducible] def FWD_CNT_DOWN : Nat := 0xA00604
@[reducible] def FWD_CNT_DOWN_count : Fld := ⟨FWD_CNT_DOWN, 31, 0⟩
/-- FWD_CNT_HAIRPIN: Hairpinned packets. -/
@[reducible] def FWD_CNT_HAIRPIN : Nat := 0xA00608
@[reducible] def FWD_CNT_HAIRPIN_count : Fld := ⟨FWD_CNT_HAIRPIN, 31, 0⟩
/-- FWD_CNT_EXC: Exceptions. -/
@[reducible] def FWD_CNT_EXC : Nat := 0xA0060C
@[reducible] def FWD_CNT_EXC_host : Fld := ⟨FWD_CNT_EXC, 31, 16⟩
@[reducible] def FWD_CNT_EXC_fw : Fld := ⟨FWD_CNT_EXC, 15, 0⟩
/-- FWD_CNT_POL: Yellow and red. -/
@[reducible] def FWD_CNT_POL : Nat := 0xA00610
@[reducible] def FWD_CNT_POL_yellow : Fld := ⟨FWD_CNT_POL, 31, 16⟩
@[reducible] def FWD_CNT_POL_red : Fld := ⟨FWD_CNT_POL, 15, 0⟩
/-- FWD_CNT_DROP: Other drops. -/
@[reducible] def FWD_CNT_DROP : Nat := 0xA00614
@[reducible] def FWD_CNT_DROP_desc_full : Fld := ⟨FWD_CNT_DROP, 31, 24⟩
@[reducible] def FWD_CNT_DROP_stale : Fld := ⟨FWD_CNT_DROP, 23, 16⟩
@[reducible] def FWD_CNT_DROP_bad_profile : Fld := ⟨FWD_CNT_DROP, 15, 8⟩
@[reducible] def FWD_CNT_DROP_frag_drop : Fld := ⟨FWD_CNT_DROP, 7, 0⟩
/-- FWD_CNT_FRAG: Reassembly. -/
@[reducible] def FWD_CNT_FRAG : Nat := 0xA00618
@[reducible] def FWD_CNT_FRAG_reassembled : Fld := ⟨FWD_CNT_FRAG, 31, 16⟩
@[reducible] def FWD_CNT_FRAG_reasm_fail : Fld := ⟨FWD_CNT_FRAG, 15, 0⟩

/-! ### Time registers (11_time.md R325, R326) -/

/-- TIM_CTRL: Revert, counter clear. -/
@[reducible] def TIM_CTRL : Nat := 0xB00000
@[reducible] def TIM_CTRL_cnt_clear : Fld := ⟨TIM_CTRL, 1, 1⟩
@[reducible] def TIM_CTRL_revert_en : Fld := ⟨TIM_CTRL, 0, 0⟩
/-- TIM_STATUS: Mesh source, validity, lock. -/
@[reducible] def TIM_STATUS : Nat := 0xB00004
@[reducible] def TIM_STATUS_mesh_src : Fld := ⟨TIM_STATUS, 18, 16⟩
@[reducible] def TIM_STATUS_tod_valid : Fld := ⟨TIM_STATUS, 12, 12⟩
@[reducible] def TIM_STATUS_pps_valid : Fld := ⟨TIM_STATUS, 11, 11⟩
@[reducible] def TIM_STATUS_site_valid : Fld := ⟨TIM_STATUS, 10, 10⟩
@[reducible] def TIM_STATUS_b_valid : Fld := ⟨TIM_STATUS, 9, 9⟩
@[reducible] def TIM_STATUS_a_valid : Fld := ⟨TIM_STATUS, 8, 8⟩
@[reducible] def TIM_STATUS_locked : Fld := ⟨TIM_STATUS, 7, 0⟩
/-- TIM_DOMAIN_VALID: Domain validity from firmware. -/
@[reducible] def TIM_DOMAIN_VALID : Nat := 0xB00008
@[reducible] def TIM_DOMAIN_VALID_b_ok : Fld := ⟨TIM_DOMAIN_VALID, 1, 1⟩
@[reducible] def TIM_DOMAIN_VALID_a_ok : Fld := ⟨TIM_DOMAIN_VALID, 0, 0⟩
/-- TIM_MESH_CFG: Sources, revert time, timeout. -/
@[reducible] def TIM_MESH_CFG : Nat := 0xB0000C
@[reducible] def TIM_MESH_CFG_sample_to_s : Fld := ⟨TIM_MESH_CFG, 27, 24⟩
@[reducible] def TIM_MESH_CFG_revert_s : Fld := ⟨TIM_MESH_CFG, 23, 16⟩
@[reducible] def TIM_MESH_CFG_src_en : Fld := ⟨TIM_MESH_CFG, 4, 0⟩
/-- TIM_MESH_HOLD_LO: h, low half. -/
@[reducible] def TIM_MESH_HOLD_LO : Nat := 0xB00010
@[reducible] def TIM_MESH_HOLD_LO_h : Fld := ⟨TIM_MESH_HOLD_LO, 31, 0⟩
/-- TIM_MESH_HOLD_HI: h, high half. -/
@[reducible] def TIM_MESH_HOLD_HI : Nat := 0xB00014
@[reducible] def TIM_MESH_HOLD_HI_h : Fld := ⟨TIM_MESH_HOLD_HI, 31, 0⟩
/-- TIM_MESH_D: D of the next valid source. -/
@[reducible] def TIM_MESH_D : Nat := 0xB00018
@[reducible] def TIM_MESH_D_value : Fld := ⟨TIM_MESH_D, 31, 0⟩
/-- TIM_TB_SEL: Base select. -/
@[reducible] def TIM_TB_SEL : Nat := 0xB00020
@[reducible] def TIM_TB_SEL_tb : Fld := ⟨TIM_TB_SEL, 2, 0⟩
/-- TIM_TB_CTRL: Selected: servo, step, epoch. -/
@[reducible] def TIM_TB_CTRL : Nat := 0xB00024
@[reducible] def TIM_TB_CTRL_i_sh : Fld := ⟨TIM_TB_CTRL, 20, 16⟩
@[reducible] def TIM_TB_CTRL_p_sh : Fld := ⟨TIM_TB_CTRL, 12, 8⟩
@[reducible] def TIM_TB_CTRL_servo_en : Fld := ⟨TIM_TB_CTRL, 4, 4⟩
@[reducible] def TIM_TB_CTRL_epoch_open : Fld := ⟨TIM_TB_CTRL, 2, 2⟩
@[reducible] def TIM_TB_CTRL_step_en : Fld := ⟨TIM_TB_CTRL, 1, 1⟩
/-- TIM_TB_STATUS: Selected: role, counts, flags. -/
@[reducible] def TIM_TB_STATUS : Nat := 0xB00028
@[reducible] def TIM_TB_STATUS_role : Fld := ⟨TIM_TB_STATUS, 31, 24⟩
@[reducible] def TIM_TB_STATUS_refused : Fld := ⟨TIM_TB_STATUS, 23, 16⟩
@[reducible] def TIM_TB_STATUS_epochs : Fld := ⟨TIM_TB_STATUS, 15, 8⟩
@[reducible] def TIM_TB_STATUS_clamped : Fld := ⟨TIM_TB_STATUS, 2, 2⟩
@[reducible] def TIM_TB_STATUS_locked : Fld := ⟨TIM_TB_STATUS, 1, 1⟩
@[reducible] def TIM_TB_STATUS_stepped : Fld := ⟨TIM_TB_STATUS, 0, 0⟩
/-- TIM_TB_RATE: Selected rate word. -/
@[reducible] def TIM_TB_RATE : Nat := 0xB0002C
@[reducible] def TIM_TB_RATE_rate : Fld := ⟨TIM_TB_RATE, 31, 0⟩
/-- TIM_TB_STEP_LO: Step offset, low half. -/
@[reducible] def TIM_TB_STEP_LO : Nat := 0xB00030
@[reducible] def TIM_TB_STEP_LO_offset : Fld := ⟨TIM_TB_STEP_LO, 31, 0⟩
/-- TIM_TB_STEP_HI: Step offset, high half; the write steps. -/
@[reducible] def TIM_TB_STEP_HI : Nat := 0xB00034
@[reducible] def TIM_TB_STEP_HI_offset : Fld := ⟨TIM_TB_STEP_HI, 31, 0⟩
/-- TIM_TB_SAMPLE: Offset sample. -/
@[reducible] def TIM_TB_SAMPLE : Nat := 0xB00038
@[reducible] def TIM_TB_SAMPLE_theta : Fld := ⟨TIM_TB_SAMPLE, 31, 0⟩
/-- TIM_TB_THETA: Last θ. -/
@[reducible] def TIM_TB_THETA : Nat := 0xB0003C
@[reducible] def TIM_TB_THETA_value : Fld := ⟨TIM_TB_THETA, 31, 0⟩
/-- TIM_TB_STEP_THR: Step threshold. -/
@[reducible] def TIM_TB_STEP_THR : Nat := 0xB00040
@[reducible] def TIM_TB_STEP_THR_thr_us : Fld := ⟨TIM_TB_STEP_THR, 23, 0⟩
/-- TIM_TB_SAMPLE64_LO: Wide offset sample, low half. -/
@[reducible] def TIM_TB_SAMPLE64_LO : Nat := 0xB00044
@[reducible] def TIM_TB_SAMPLE64_LO_theta : Fld := ⟨TIM_TB_SAMPLE64_LO, 31, 0⟩
/-- TIM_TB_SAMPLE64_HI: Wide offset sample, high half; the write samples. -/
@[reducible] def TIM_TB_SAMPLE64_HI : Nat := 0xB00048
@[reducible] def TIM_TB_SAMPLE64_HI_theta : Fld := ⟨TIM_TB_SAMPLE64_HI, 31, 0⟩
/-- TIM_PPS_CFG: PPS tolerance and output. -/
@[reducible] def TIM_PPS_CFG : Nat := 0xB00050
@[reducible] def TIM_PPS_CFG_out_en : Fld := ⟨TIM_PPS_CFG, 31, 31⟩
@[reducible] def TIM_PPS_CFG_out_tb : Fld := ⟨TIM_PPS_CFG, 30, 28⟩
@[reducible] def TIM_PPS_CFG_out_ms : Fld := ⟨TIM_PPS_CFG, 25, 16⟩
@[reducible] def TIM_PPS_CFG_tol : Fld := ⟨TIM_PPS_CFG, 15, 8⟩
/-- TIM_PPS_STATUS: PPS and ToD state. -/
@[reducible] def TIM_PPS_STATUS : Nat := 0xB00054
@[reducible] def TIM_PPS_STATUS_pps_bad : Fld := ⟨TIM_PPS_STATUS, 31, 24⟩
@[reducible] def TIM_PPS_STATUS_pps_missing : Fld := ⟨TIM_PPS_STATUS, 23, 16⟩
@[reducible] def TIM_PPS_STATUS_tod_bad : Fld := ⟨TIM_PPS_STATUS, 15, 8⟩
@[reducible] def TIM_PPS_STATUS_tod_valid : Fld := ⟨TIM_PPS_STATUS, 1, 1⟩
@[reducible] def TIM_PPS_STATUS_pps_valid : Fld := ⟨TIM_PPS_STATUS, 0, 0⟩
/-- TIM_TOD_CFG: UART rate, UTC offset. -/
@[reducible] def TIM_TOD_CFG : Nat := 0xB00058
@[reducible] def TIM_TOD_CFG_baud : Fld := ⟨TIM_TOD_CFG, 17, 16⟩
@[reducible] def TIM_TOD_CFG_utc_ofs : Fld := ⟨TIM_TOD_CFG, 7, 0⟩
/-- TIM_PANp_EPOCH_LO: E_p, low half. -/
@[reducible] def TIM_PANp_EPOCH_LO (i : Nat) : Nat := 0xB00060 + 0x8 * i
@[reducible] def TIM_PANp_EPOCH_LO_epoch (i : Nat) : Fld := ⟨TIM_PANp_EPOCH_LO i, 31, 0⟩
/-- TIM_PANp_EPOCH_HI: E_p, high half. -/
@[reducible] def TIM_PANp_EPOCH_HI (i : Nat) : Nat := 0xB00064 + 0x8 * i
@[reducible] def TIM_PANp_EPOCH_HI_epoch (i : Nat) : Fld := ⟨TIM_PANp_EPOCH_HI i, 31, 0⟩
/-- TIM_ETHn_LAT: Latencies of ETHn. -/
@[reducible] def TIM_ETHn_LAT (i : Nat) : Nat := 0xB000A0 + 0x4 * i
@[reducible] def TIM_ETHn_LAT_egress (i : Nat) : Fld := ⟨TIM_ETHn_LAT i, 31, 16⟩
@[reducible] def TIM_ETHn_LAT_ingress (i : Nat) : Fld := ⟨TIM_ETHn_LAT i, 15, 0⟩
/-- TIM_CNT_PTP: Timestamps. -/
@[reducible] def TIM_CNT_PTP : Nat := 0xB000B0
@[reducible] def TIM_CNT_PTP_rx_ts : Fld := ⟨TIM_CNT_PTP, 31, 16⟩
@[reducible] def TIM_CNT_PTP_tx_ins : Fld := ⟨TIM_CNT_PTP, 15, 0⟩
/-- TIM_CNT_SWITCH: Switches, timeouts. -/
@[reducible] def TIM_CNT_SWITCH : Nat := 0xB000B4
@[reducible] def TIM_CNT_SWITCH_timeouts : Fld := ⟨TIM_CNT_SWITCH, 31, 16⟩
@[reducible] def TIM_CNT_SWITCH_switches : Fld := ⟨TIM_CNT_SWITCH, 15, 0⟩
/-- TIM_TBn_NS_LO: Nanoseconds view, low half. -/
@[reducible] def TIM_TBn_NS_LO (i : Nat) : Nat := 0xB00200 + 0x20 * i
@[reducible] def TIM_TBn_NS_LO_ns (i : Nat) : Fld := ⟨TIM_TBn_NS_LO i, 31, 0⟩
/-- TIM_TBn_NS_HI: Nanoseconds view, high half. -/
@[reducible] def TIM_TBn_NS_HI (i : Nat) : Nat := 0xB00204 + 0x20 * i
@[reducible] def TIM_TBn_NS_HI_ns (i : Nat) : Fld := ⟨TIM_TBn_NS_HI i, 31, 0⟩
/-- TIM_TBn_SEC_LO: Seconds [31:0]. -/
@[reducible] def TIM_TBn_SEC_LO (i : Nat) : Nat := 0xB00208 + 0x20 * i
@[reducible] def TIM_TBn_SEC_LO_sec (i : Nat) : Fld := ⟨TIM_TBn_SEC_LO i, 31, 0⟩
/-- TIM_TBn_SEC_HI: Fraction, seconds [47:32]. -/
@[reducible] def TIM_TBn_SEC_HI (i : Nat) : Nat := 0xB0020C + 0x20 * i
@[reducible] def TIM_TBn_SEC_HI_frac (i : Nat) : Fld := ⟨TIM_TBn_SEC_HI i, 31, 16⟩
@[reducible] def TIM_TBn_SEC_HI_sec_hi (i : Nat) : Fld := ⟨TIM_TBn_SEC_HI i, 15, 0⟩
/-- TIM_TBn_NSEC: Nanoseconds field. -/
@[reducible] def TIM_TBn_NSEC (i : Nat) : Nat := 0xB00210 + 0x20 * i
@[reducible] def TIM_TBn_NSEC_nsec (i : Nat) : Fld := ⟨TIM_TBn_NSEC i, 31, 0⟩
/-- KTL_RTC_SEC_LO: Seconds [31:0]. -/
@[reducible] def KTL_RTC_SEC_LO : Nat := 0x100100
@[reducible] def KTL_RTC_SEC_LO_sec : Fld := ⟨KTL_RTC_SEC_LO, 31, 0⟩
/-- KTL_RTC_SEC_HI: Ticks, seconds [47:32]. -/
@[reducible] def KTL_RTC_SEC_HI : Nat := 0x100104
@[reducible] def KTL_RTC_SEC_HI_tick : Fld := ⟨KTL_RTC_SEC_HI, 30, 16⟩
@[reducible] def KTL_RTC_SEC_HI_sec_hi : Fld := ⟨KTL_RTC_SEC_HI, 15, 0⟩
/-- KTL_RTC_ALARM: Wake alarm. -/
@[reducible] def KTL_RTC_ALARM : Nat := 0x100108
@[reducible] def KTL_RTC_ALARM_sec : Fld := ⟨KTL_RTC_ALARM, 31, 0⟩
/-- KTL_RTC_STATUS: Alarm, fresh, offset valid. -/
@[reducible] def KTL_RTC_STATUS : Nat := 0x10010C
@[reducible] def KTL_RTC_STATUS_ofs_valid : Fld := ⟨KTL_RTC_STATUS, 2, 2⟩
@[reducible] def KTL_RTC_STATUS_alarm : Fld := ⟨KTL_RTC_STATUS, 1, 1⟩
@[reducible] def KTL_RTC_STATUS_fresh : Fld := ⟨KTL_RTC_STATUS, 0, 0⟩
/-- KTL_RTC_OFS_LO: O, low half. -/
@[reducible] def KTL_RTC_OFS_LO : Nat := 0x100110
@[reducible] def KTL_RTC_OFS_LO_ofs : Fld := ⟨KTL_RTC_OFS_LO, 31, 0⟩
/-- KTL_RTC_OFS_HI: O, high half. -/
@[reducible] def KTL_RTC_OFS_HI : Nat := 0x100114
@[reducible] def KTL_RTC_OFS_HI_ofs : Fld := ⟨KTL_RTC_OFS_HI, 31, 0⟩
/-- KTL_RTC_TRIM: XTAL32 frequency error. -/
@[reducible] def KTL_RTC_TRIM : Nat := 0x100118
@[reducible] def KTL_RTC_TRIM_ppb : Fld := ⟨KTL_RTC_TRIM, 31, 0⟩

/-! ### Security registers (12_keys_and_frame_security.md R373) -/

/-- SEC_CTRL: Counter clear. -/
@[reducible] def SEC_CTRL : Nat := 0xC00000
@[reducible] def SEC_CTRL_cnt_clear : Fld := ⟨SEC_CTRL, 0, 0⟩
/-- SEC_STATUS: Life cycle, hold, health. -/
@[reducible] def SEC_STATUS : Nat := 0xC00004
@[reducible] def SEC_STATUS_slots_bad : Fld := ⟨SEC_STATUS, 31, 24⟩
@[reducible] def SEC_STATUS_spares_free : Fld := ⟨SEC_STATUS, 23, 20⟩
@[reducible] def SEC_STATUS_trng_fail : Fld := ⟨SEC_STATUS, 10, 10⟩
@[reducible] def SEC_STATUS_tamper_hold : Fld := ⟨SEC_STATUS, 9, 9⟩
@[reducible] def SEC_STATUS_seal_ok : Fld := ⟨SEC_STATUS, 8, 8⟩
@[reducible] def SEC_STATUS_lc : Fld := ⟨SEC_STATUS, 2, 0⟩
/-- SEC_DEVICE_IDm: Device ID. -/
@[reducible] def SEC_DEVICE_IDm (i : Nat) : Nat := 0xC00010 + 0x4 * i
@[reducible] def SEC_DEVICE_IDm_bytes (i : Nat) : Fld := ⟨SEC_DEVICE_IDm i, 31, 0⟩
/-- SEC_ENV_CTR_LO: Envelope counter, low half. -/
@[reducible] def SEC_ENV_CTR_LO : Nat := 0xC00020
@[reducible] def SEC_ENV_CTR_LO_counter : Fld := ⟨SEC_ENV_CTR_LO, 31, 0⟩
/-- SEC_ENV_CTR_HI: Envelope counter, high half. -/
@[reducible] def SEC_ENV_CTR_HI : Nat := 0xC00024
@[reducible] def SEC_ENV_CTR_HI_counter : Fld := ⟨SEC_ENV_CTR_HI, 31, 0⟩
/-- SEC_CMD: Command code. -/
@[reducible] def SEC_CMD : Nat := 0xC00030
@[reducible] def SEC_CMD_code : Fld := ⟨SEC_CMD, 7, 0⟩
/-- SEC_CMD_STATUS: Busy, result. -/
@[reducible] def SEC_CMD_STATUS : Nat := 0xC00034
@[reducible] def SEC_CMD_STATUS_busy : Fld := ⟨SEC_CMD_STATUS, 8, 8⟩
@[reducible] def SEC_CMD_STATUS_result : Fld := ⟨SEC_CMD_STATUS, 7, 0⟩
/-- SEC_ARGm: Arguments. -/
@[reducible] def SEC_ARGm (i : Nat) : Nat := 0xC00040 + 0x4 * i
@[reducible] def SEC_ARGm_bytes (i : Nat) : Fld := ⟨SEC_ARGm i, 31, 0⟩
/-- SEC_OUTm: Output. -/
@[reducible] def SEC_OUTm (i : Nat) : Nat := 0xC00080 + 0x4 * i
@[reducible] def SEC_OUTm_bytes (i : Nat) : Fld := ⟨SEC_OUTm i, 31, 0⟩
/-- SEC_SLOT_SEL: Slot select. -/
@[reducible] def SEC_SLOT_SEL : Nat := 0xC00100
@[reducible] def SEC_SLOT_SEL_slot : Fld := ⟨SEC_SLOT_SEL, 6, 0⟩
/-- SEC_SLOT_STATUS: Selected slot state. -/
@[reducible] def SEC_SLOT_STATUS : Nat := 0xC00104
@[reducible] def SEC_SLOT_STATUS_spare : Fld := ⟨SEC_SLOT_STATUS, 11, 8⟩
@[reducible] def SEC_SLOT_STATUS_kek_invalid : Fld := ⟨SEC_SLOT_STATUS, 4, 4⟩
@[reducible] def SEC_SLOT_STATUS_state : Fld := ⟨SEC_SLOT_STATUS, 2, 0⟩
/-- SEC_SLOT_ATTR_LO: Selected attributes, low half. -/
@[reducible] def SEC_SLOT_ATTR_LO : Nat := 0xC00108
@[reducible] def SEC_SLOT_ATTR_LO_attr : Fld := ⟨SEC_SLOT_ATTR_LO, 31, 0⟩
/-- SEC_SLOT_ATTR_HI: Selected attributes, high half. -/
@[reducible] def SEC_SLOT_ATTR_HI : Nat := 0xC0010C
@[reducible] def SEC_SLOT_ATTR_HI_attr : Fld := ⟨SEC_SLOT_ATTR_HI, 31, 0⟩
/-- SEC_PANp_CFG: Levels, broadcast key. -/
@[reducible] def SEC_PANp_CFG (i : Nat) : Nat := 0xC00180 + 0x10 * i
@[reducible] def SEC_PANp_CFG_rx_levels (i : Nat) : Fld := ⟨SEC_PANp_CFG i, 31, 24⟩
@[reducible] def SEC_PANp_CFG_bcast_kidx (i : Nat) : Fld := ⟨SEC_PANp_CFG i, 23, 16⟩
@[reducible] def SEC_PANp_CFG_tx_level (i : Nat) : Fld := ⟨SEC_PANp_CFG i, 14, 12⟩
@[reducible] def SEC_PANp_CFG_bcast_slot (i : Nat) : Fld := ⟨SEC_PANp_CFG i, 6, 0⟩
/-- SEC_PANp_KEK: KEK slots and state. -/
@[reducible] def SEC_PANp_KEK (i : Nat) : Nat := 0xC00184 + 0x10 * i
@[reducible] def SEC_PANp_KEK_rewrap_busy (i : Nat) : Fld := ⟨SEC_PANp_KEK i, 31, 31⟩
@[reducible] def SEC_PANp_KEK_invalid_pending (i : Nat) : Fld := ⟨SEC_PANp_KEK i, 30, 30⟩
@[reducible] def SEC_PANp_KEK_retiring (i : Nat) : Fld := ⟨SEC_PANp_KEK i, 14, 8⟩
@[reducible] def SEC_PANp_KEK_active (i : Nat) : Fld := ⟨SEC_PANp_KEK i, 6, 0⟩
/-- SEC_PANp_REWRAP: Walk position. -/
@[reducible] def SEC_PANp_REWRAP (i : Nat) : Nat := 0xC00188 + 0x10 * i
@[reducible] def SEC_PANp_REWRAP_next (i : Nat) : Fld := ⟨SEC_PANp_REWRAP i, 19, 0⟩
/-- SEC_PANp_BCAST_FC: Broadcast counter. -/
@[reducible] def SEC_PANp_BCAST_FC (i : Nat) : Nat := 0xC0018C + 0x10 * i
@[reducible] def SEC_PANp_BCAST_FC_counter (i : Nat) : Fld := ⟨SEC_PANp_BCAST_FC i, 31, 0⟩
/-- SEC_CNT_FRAME: MIC and key-index failures. -/
@[reducible] def SEC_CNT_FRAME : Nat := 0xC00200
@[reducible] def SEC_CNT_FRAME_mic_fail : Fld := ⟨SEC_CNT_FRAME, 31, 16⟩
@[reducible] def SEC_CNT_FRAME_key_unknown : Fld := ⟨SEC_CNT_FRAME, 15, 0⟩
/-- SEC_CNT_KEY: Level and unwrap failures. -/
@[reducible] def SEC_CNT_KEY : Nat := 0xC00204
@[reducible] def SEC_CNT_KEY_level_refused : Fld := ⟨SEC_CNT_KEY, 31, 16⟩
@[reducible] def SEC_CNT_KEY_unwrap_fail : Fld := ⟨SEC_CNT_KEY, 15, 0⟩
/-- SEC_CNT_UNWRAP: Unwraps. -/
@[reducible] def SEC_CNT_UNWRAP : Nat := 0xC00208
@[reducible] def SEC_CNT_UNWRAP_unwraps : Fld := ⟨SEC_CNT_UNWRAP, 31, 0⟩
/-- SEC_CNT_ENV: Envelopes. -/
@[reducible] def SEC_CNT_ENV : Nat := 0xC0020C
@[reducible] def SEC_CNT_ENV_accepted : Fld := ⟨SEC_CNT_ENV, 31, 16⟩
@[reducible] def SEC_CNT_ENV_refused : Fld := ⟨SEC_CNT_ENV, 15, 0⟩
/-- SEC_TAMPER_STATUS: Tamper sources. -/
@[reducible] def SEC_TAMPER_STATUS : Nat := 0xC00210
@[reducible] def SEC_TAMPER_STATUS_live : Fld := ⟨SEC_TAMPER_STATUS, 23, 16⟩
@[reducible] def SEC_TAMPER_STATUS_latched : Fld := ⟨SEC_TAMPER_STATUS, 7, 0⟩
/-- SEC_TAMPER_POLICY: Enable and policy. -/
@[reducible] def SEC_TAMPER_POLICY : Nat := 0xC00214
@[reducible] def SEC_TAMPER_POLICY_enable : Fld := ⟨SEC_TAMPER_POLICY, 15, 8⟩
@[reducible] def SEC_TAMPER_POLICY_zeroise : Fld := ⟨SEC_TAMPER_POLICY, 7, 0⟩
/-- SEC_TAMPER_LOG_SEL: Log record select. -/
@[reducible] def SEC_TAMPER_LOG_SEL : Nat := 0xC00220
@[reducible] def SEC_TAMPER_LOG_SEL_record : Fld := ⟨SEC_TAMPER_LOG_SEL, 5, 0⟩
/-- SEC_TAMPER_LOG0: Selected record, time. -/
@[reducible] def SEC_TAMPER_LOG0 : Nat := 0xC00224
@[reducible] def SEC_TAMPER_LOG0_seconds : Fld := ⟨SEC_TAMPER_LOG0, 31, 0⟩
/-- SEC_TAMPER_LOG1: Selected record, details. -/
@[reducible] def SEC_TAMPER_LOG1 : Nat := 0xC00228
@[reducible] def SEC_TAMPER_LOG1_seq : Fld := ⟨SEC_TAMPER_LOG1, 31, 16⟩
@[reducible] def SEC_TAMPER_LOG1_source : Fld := ⟨SEC_TAMPER_LOG1, 15, 8⟩
@[reducible] def SEC_TAMPER_LOG1_state : Fld := ⟨SEC_TAMPER_LOG1, 7, 4⟩
@[reducible] def SEC_TAMPER_LOG1_action : Fld := ⟨SEC_TAMPER_LOG1, 3, 0⟩
/-- SEC_MEASi_w: Measurement registers. -/
@[reducible] def SEC_MEASi_w (i : Nat) (j : Nat) : Nat := 0xC00300 + 0x30 * i + 0x4 * j
@[reducible] def SEC_MEASi_w_bytes (i : Nat) (j : Nat) : Fld := ⟨SEC_MEASi_w i j, 31, 0⟩
/-- SEC_ID_PUBw: Identity public key X‖Y. -/
@[reducible] def SEC_ID_PUBw (i : Nat) : Nat := 0xC00500 + 0x4 * i
@[reducible] def SEC_ID_PUBw_bytes (i : Nat) : Fld := ⟨SEC_ID_PUBw i, 31, 0⟩

/-! ### Campaign registers (13_node_campaigns.md R388) -/

/-- CMP_CTRL: Sending, counter clear. -/
@[reducible] def CMP_CTRL : Nat := 0xD00000
@[reducible] def CMP_CTRL_cnt_clear : Fld := ⟨CMP_CTRL, 1, 1⟩
@[reducible] def CMP_CTRL_send_en : Fld := ⟨CMP_CTRL, 0, 0⟩
/-- CMP_STATUS: Held campaigns, free spool. -/
@[reducible] def CMP_STATUS : Nat := 0xD00004
@[reducible] def CMP_STATUS_spool_free : Fld := ⟨CMP_STATUS, 31, 16⟩
@[reducible] def CMP_STATUS_held : Fld := ⟨CMP_STATUS, 4, 0⟩
/-- CMP_OUI: IE identifier. -/
@[reducible] def CMP_OUI : Nat := 0xD00008
@[reducible] def CMP_OUI_oui : Fld := ⟨CMP_OUI, 23, 0⟩
/-- CMP_SRC_LO: Image source, low half. -/
@[reducible] def CMP_SRC_LO : Nat := 0xD00010
@[reducible] def CMP_SRC_LO_addr : Fld := ⟨CMP_SRC_LO, 31, 0⟩
/-- CMP_SRC_HI: Image source, high half. -/
@[reducible] def CMP_SRC_HI : Nat := 0xD00014
@[reducible] def CMP_SRC_HI_addr : Fld := ⟨CMP_SRC_HI, 31, 0⟩
/-- CMP_CMD: Command. -/
@[reducible] def CMP_CMD : Nat := 0xD00018
@[reducible] def CMP_CMD_cnum : Fld := ⟨CMP_CMD, 15, 8⟩
@[reducible] def CMP_CMD_src_kind : Fld := ⟨CMP_CMD, 4, 4⟩
@[reducible] def CMP_CMD_op : Fld := ⟨CMP_CMD, 3, 0⟩
/-- CMP_CMD_STATUS: Busy, result. -/
@[reducible] def CMP_CMD_STATUS : Nat := 0xD0001C
@[reducible] def CMP_CMD_STATUS_busy : Fld := ⟨CMP_CMD_STATUS, 8, 8⟩
@[reducible] def CMP_CMD_STATUS_result : Fld := ⟨CMP_CMD_STATUS, 7, 0⟩
/-- CMP_DESCm: Descriptor. -/
@[reducible] def CMP_DESCm (i : Nat) : Nat := 0xD00020 + 0x4 * i
@[reducible] def CMP_DESCm_bytes (i : Nat) : Fld := ⟨CMP_DESCm i, 31, 0⟩
/-- CMP_SEL: Campaign select. -/
@[reducible] def CMP_SEL : Nat := 0xD00040
@[reducible] def CMP_SEL_cnum : Fld := ⟨CMP_SEL, 7, 0⟩
/-- CMP_CAMP_STATE: Selected state and K. -/
@[reducible] def CMP_CAMP_STATE : Nat := 0xD00044
@[reducible] def CMP_CAMP_STATE_state : Fld := ⟨CMP_CAMP_STATE, 26, 24⟩
@[reducible] def CMP_CAMP_STATE_k : Fld := ⟨CMP_CAMP_STATE, 11, 0⟩
/-- CMP_CAMP_ESI: Selected next ESI. -/
@[reducible] def CMP_CAMP_ESI : Nat := 0xD00048
@[reducible] def CMP_CAMP_ESI_esi : Fld := ⟨CMP_CAMP_ESI, 31, 0⟩
/-- CMP_CAMP_NODES: Selected node counts. -/
@[reducible] def CMP_CAMP_NODES : Nat := 0xD0004C
@[reducible] def CMP_CAMP_NODES_done : Fld := ⟨CMP_CAMP_NODES, 31, 16⟩
@[reducible] def CMP_CAMP_NODES_enrolled : Fld := ⟨CMP_CAMP_NODES, 15, 0⟩
/-- CMP_CNT_SENT: Segments sent. -/
@[reducible] def CMP_CNT_SENT : Nat := 0xD00050
@[reducible] def CMP_CNT_SENT_segments : Fld := ⟨CMP_CNT_SENT, 31, 0⟩
/-- CMP_CNT_ERR: Late cells, stale reports. -/
@[reducible] def CMP_CNT_ERR : Nat := 0xD00054
@[reducible] def CMP_CNT_ERR_late : Fld := ⟨CMP_CNT_ERR, 31, 16⟩
@[reducible] def CMP_CNT_ERR_stale : Fld := ⟨CMP_CNT_ERR, 15, 0⟩

/-! ### Start and update registers (14_start_and_self_update.md R417) -/

/-- BOOT_STATUS: Stage, area, trial, fuse count. -/
@[reducible] def BOOT_STATUS : Nat := 0x1000
@[reducible] def BOOT_STATUS_rb_count : Fld := ⟨BOOT_STATUS, 30, 24⟩
@[reducible] def BOOT_STATUS_trial_starts : Fld := ⟨BOOT_STATUS, 17, 16⟩
@[reducible] def BOOT_STATUS_conf : Fld := ⟨BOOT_STATUS, 15, 14⟩
@[reducible] def BOOT_STATUS_area : Fld := ⟨BOOT_STATUS, 13, 13⟩
@[reducible] def BOOT_STATUS_prev_bad : Fld := ⟨BOOT_STATUS, 12, 12⟩
@[reducible] def BOOT_STATUS_staged_ok : Fld := ⟨BOOT_STATUS, 11, 11⟩
@[reducible] def BOOT_STATUS_long_outage : Fld := ⟨BOOT_STATUS, 10, 10⟩
@[reducible] def BOOT_STATUS_asn_restored : Fld := ⟨BOOT_STATUS, 9, 9⟩
@[reducible] def BOOT_STATUS_summary_ok : Fld := ⟨BOOT_STATUS, 8, 8⟩
@[reducible] def BOOT_STATUS_halt : Fld := ⟨BOOT_STATUS, 4, 2⟩
@[reducible] def BOOT_STATUS_stage : Fld := ⟨BOOT_STATUS, 1, 0⟩
/-- BOOT_CMD: Command code. -/
@[reducible] def BOOT_CMD : Nat := 0x1004
@[reducible] def BOOT_CMD_code : Fld := ⟨BOOT_CMD, 7, 0⟩
/-- BOOT_CMD_STATUS: Busy, result, detail. -/
@[reducible] def BOOT_CMD_STATUS : Nat := 0x1008
@[reducible] def BOOT_CMD_STATUS_detail : Fld := ⟨BOOT_CMD_STATUS, 31, 24⟩
@[reducible] def BOOT_CMD_STATUS_busy : Fld := ⟨BOOT_CMD_STATUS, 8, 8⟩
@[reducible] def BOOT_CMD_STATUS_result : Fld := ⟨BOOT_CMD_STATUS, 7, 0⟩
/-- BOOT_ARGm: Arguments. -/
@[reducible] def BOOT_ARGm (i : Nat) : Nat := 0x1010 + 0x4 * i
@[reducible] def BOOT_ARGm_arg (i : Nat) : Fld := ⟨BOOT_ARGm i, 31, 0⟩
/-- BOOT_T_FIRST: Time to First Steep. -/
@[reducible] def BOOT_T_FIRST : Nat := 0x1030
@[reducible] def BOOT_T_FIRST_ms : Fld := ⟨BOOT_T_FIRST, 31, 0⟩
/-- BOOT_T_SECOND: Time to Second Steep. -/
@[reducible] def BOOT_T_SECOND : Nat := 0x1034
@[reducible] def BOOT_T_SECOND_ms : Fld := ⟨BOOT_T_SECOND, 31, 0⟩
/-- BOOT_T_FULL: Time to Full Brew. -/
@[reducible] def BOOT_T_FULL : Nat := 0x1038
@[reducible] def BOOT_T_FULL_ms : Fld := ⟨BOOT_T_FULL, 31, 0⟩
/-- BOOT_STAGED_OFS: Committed download offset. -/
@[reducible] def BOOT_STAGED_OFS : Nat := 0x1040
@[reducible] def BOOT_STAGED_OFS_offset : Fld := ⟨BOOT_STAGED_OFS, 31, 0⟩
/-- BOOT_TRIAL_LEFT: Trial time left. -/
@[reducible] def BOOT_TRIAL_LEFT : Nat := 0x1044
@[reducible] def BOOT_TRIAL_LEFT_seconds : Fld := ⟨BOOT_TRIAL_LEFT, 31, 0⟩
/-- BOOT_SVN_FW: fw_svn_min. -/
@[reducible] def BOOT_SVN_FW : Nat := 0x1048
@[reducible] def BOOT_SVN_FW_svn : Fld := ⟨BOOT_SVN_FW, 31, 0⟩
/-- BOOT_SNAP_CFG: Snapshot intervals. -/
@[reducible] def BOOT_SNAP_CFG : Nat := 0x1050
@[reducible] def BOOT_SNAP_CFG_base_s : Fld := ⟨BOOT_SNAP_CFG, 31, 16⟩
@[reducible] def BOOT_SNAP_CFG_interval_s : Fld := ⟨BOOT_SNAP_CFG, 9, 0⟩
/-- BOOT_SNAP_STATUS: Snapshot age and skips. -/
@[reducible] def BOOT_SNAP_STATUS : Nat := 0x1054
@[reducible] def BOOT_SNAP_STATUS_counter_age_s : Fld := ⟨BOOT_SNAP_STATUS, 31, 16⟩
@[reducible] def BOOT_SNAP_STATUS_counter_skipped : Fld := ⟨BOOT_SNAP_STATUS, 2, 2⟩
@[reducible] def BOOT_SNAP_STATUS_base_skipped : Fld := ⟨BOOT_SNAP_STATUS, 1, 1⟩
@[reducible] def BOOT_SNAP_STATUS_writing : Fld := ⟨BOOT_SNAP_STATUS, 0, 0⟩
/-- BOOT_SNAP_CNT: Images written. -/
@[reducible] def BOOT_SNAP_CNT : Nat := 0x1058
@[reducible] def BOOT_SNAP_CNT_base : Fld := ⟨BOOT_SNAP_CNT, 31, 16⟩
@[reducible] def BOOT_SNAP_CNT_counter : Fld := ⟨BOOT_SNAP_CNT, 15, 0⟩

/-! ### Resilience registers (15_resilience.md R445) -/

/-- RES_CTRL: Swaps, take-back, BIST, counter clear. -/
@[reducible] def RES_CTRL : Nat := 0xE00000
@[reducible] def RES_CTRL_cnt_clear : Fld := ⟨RES_CTRL, 3, 3⟩
@[reducible] def RES_CTRL_bist_run : Fld := ⟨RES_CTRL, 2, 2⟩
@[reducible] def RES_CTRL_revert_en : Fld := ⟨RES_CTRL, 1, 1⟩
@[reducible] def RES_CTRL_swap_en : Fld := ⟨RES_CTRL, 0, 0⟩
/-- RES_STATUS: Active complex, coverage. -/
@[reducible] def RES_STATUS : Nat := 0xE00004
@[reducible] def RES_STATUS_active : Fld := ⟨RES_STATUS, 8, 8⟩
@[reducible] def RES_STATUS_uncovered : Fld := ⟨RES_STATUS, 1, 1⟩
@[reducible] def RES_STATUS_bist_running : Fld := ⟨RES_STATUS, 0, 0⟩
/-- RES_CC_STATE: States of both complexes. -/
@[reducible] def RES_CC_STATE : Nat := 0xE00008
@[reducible] def RES_CC_STATE_b_tests : Fld := ⟨RES_CC_STATE, 31, 24⟩
@[reducible] def RES_CC_STATE_b_ready : Fld := ⟨RES_CC_STATE, 20, 20⟩
@[reducible] def RES_CC_STATE_b_state : Fld := ⟨RES_CC_STATE, 19, 16⟩
@[reducible] def RES_CC_STATE_a_tests : Fld := ⟨RES_CC_STATE, 15, 8⟩
@[reducible] def RES_CC_STATE_a_ready : Fld := ⟨RES_CC_STATE, 4, 4⟩
@[reducible] def RES_CC_STATE_a_state : Fld := ⟨RES_CC_STATE, 3, 0⟩
/-- RES_CC_CTRL: Isolate, retest. -/
@[reducible] def RES_CC_CTRL : Nat := 0xE0000C
@[reducible] def RES_CC_CTRL_retest : Fld := ⟨RES_CC_CTRL, 8, 8⟩
@[reducible] def RES_CC_CTRL_isolate : Fld := ⟨RES_CC_CTRL, 4, 4⟩
@[reducible] def RES_CC_CTRL_cc : Fld := ⟨RES_CC_CTRL, 0, 0⟩
/-- RES_GATE_CNT: Mismatches, uncompared windows. -/
@[reducible] def RES_GATE_CNT : Nat := 0xE00010
@[reducible] def RES_GATE_CNT_mismatch : Fld := ⟨RES_GATE_CNT, 31, 16⟩
@[reducible] def RES_GATE_CNT_uncompared : Fld := ⟨RES_GATE_CNT, 15, 0⟩
/-- RES_GATE_LAST: Last mismatch. -/
@[reducible] def RES_GATE_LAST : Nat := 0xE00014
@[reducible] def RES_GATE_LAST_outcome : Fld := ⟨RES_GATE_LAST, 15, 8⟩
@[reducible] def RES_GATE_LAST_cause : Fld := ⟨RES_GATE_LAST, 7, 0⟩
/-- RES_GATE_LAT: Maximum added latency. -/
@[reducible] def RES_GATE_LAT : Nat := 0xE00018
@[reducible] def RES_GATE_LAT_max_us : Fld := ⟨RES_GATE_LAT, 7, 0⟩
/-- RES_SWAP_LEFT: Time to swap or take-back. -/
@[reducible] def RES_SWAP_LEFT : Nat := 0xE0001C
@[reducible] def RES_SWAP_LEFT_seconds : Fld := ⟨RES_SWAP_LEFT, 31, 0⟩
/-- RES_BIST_CFG: Period, fence limit. -/
@[reducible] def RES_BIST_CFG : Nat := 0xE00020
@[reducible] def RES_BIST_CFG_fence_ms : Fld := ⟨RES_BIST_CFG, 25, 16⟩
@[reducible] def RES_BIST_CFG_period_ms : Fld := ⟨RES_BIST_CFG, 9, 0⟩
/-- RES_BIST_STATUS: Current Caddy and slice. -/
@[reducible] def RES_BIST_STATUS : Nat := 0xE00024
@[reducible] def RES_BIST_STATUS_slice : Fld := ⟨RES_BIST_STATUS, 29, 24⟩
@[reducible] def RES_BIST_STATUS_caddy : Fld := ⟨RES_BIST_STATUS, 21, 16⟩
@[reducible] def RES_BIST_STATUS_in_slice : Fld := ⟨RES_BIST_STATUS, 1, 1⟩
@[reducible] def RES_BIST_STATUS_fenced : Fld := ⟨RES_BIST_STATUS, 0, 0⟩
/-- RES_BIST_CNT: Deferred and failed slices. -/
@[reducible] def RES_BIST_CNT : Nat := 0xE00028
@[reducible] def RES_BIST_CNT_deferred : Fld := ⟨RES_BIST_CNT, 31, 16⟩
@[reducible] def RES_BIST_CNT_failed : Fld := ⟨RES_BIST_CNT, 15, 0⟩
/-- RES_SRAM_CNT: ECC events. -/
@[reducible] def RES_SRAM_CNT : Nat := 0xE0002C
@[reducible] def RES_SRAM_CNT_corrected : Fld := ⟨RES_SRAM_CNT, 31, 16⟩
@[reducible] def RES_SRAM_CNT_repaired : Fld := ⟨RES_SRAM_CNT, 15, 8⟩
@[reducible] def RES_SRAM_CNT_uncorrectable : Fld := ⟨RES_SRAM_CNT, 7, 0⟩
/-- RES_SPARE_STATUS: Spares and fuses. -/
@[reducible] def RES_SPARE_STATUS : Nat := 0xE00030
@[reducible] def RES_SPARE_STATUS_fuses_used : Fld := ⟨RES_SPARE_STATUS, 24, 16⟩
@[reducible] def RES_SPARE_STATUS_tb_free : Fld := ⟨RES_SPARE_STATUS, 14, 12⟩
@[reducible] def RES_SPARE_STATUS_banks_free : Fld := ⟨RES_SPARE_STATUS, 10, 8⟩
@[reducible] def RES_SPARE_STATUS_caddies_free : Fld := ⟨RES_SPARE_STATUS, 1, 0⟩
/-- RES_FUNC_CMD: Disable or enable. -/
@[reducible] def RES_FUNC_CMD : Nat := 0xE00040
@[reducible] def RES_FUNC_CMD_op : Fld := ⟨RES_FUNC_CMD, 31, 31⟩
@[reducible] def RES_FUNC_CMD_class : Fld := ⟨RES_FUNC_CMD, 27, 24⟩
@[reducible] def RES_FUNC_CMD_index : Fld := ⟨RES_FUNC_CMD, 15, 0⟩
/-- RES_FUNC_STATUS: Function state, result. -/
@[reducible] def RES_FUNC_STATUS : Nat := 0xE00044
@[reducible] def RES_FUNC_STATUS_state : Fld := ⟨RES_FUNC_STATUS, 17, 16⟩
@[reducible] def RES_FUNC_STATUS_busy : Fld := ⟨RES_FUNC_STATUS, 8, 8⟩
@[reducible] def RES_FUNC_STATUS_result : Fld := ⟨RES_FUNC_STATUS, 7, 0⟩
/-- RES_REPAIR_CMD: Burn. -/
@[reducible] def RES_REPAIR_CMD : Nat := 0xE00050
@[reducible] def RES_REPAIR_CMD_op : Fld := ⟨RES_REPAIR_CMD, 3, 0⟩
/-- RES_REPAIR_ARG: Log seq. -/
@[reducible] def RES_REPAIR_ARG : Nat := 0xE00054
@[reducible] def RES_REPAIR_ARG_seq : Fld := ⟨RES_REPAIR_ARG, 31, 0⟩
/-- RES_REPAIR_STATUS: Busy, result. -/
@[reducible] def RES_REPAIR_STATUS : Nat := 0xE00058
@[reducible] def RES_REPAIR_STATUS_busy : Fld := ⟨RES_REPAIR_STATUS, 8, 8⟩
@[reducible] def RES_REPAIR_STATUS_result : Fld := ⟨RES_REPAIR_STATUS, 7, 0⟩
/-- RES_JRNL_NEWEST: Newest seq. -/
@[reducible] def RES_JRNL_NEWEST : Nat := 0xE00060
@[reducible] def RES_JRNL_NEWEST_seq : Fld := ⟨RES_JRNL_NEWEST, 31, 0⟩
/-- RES_JRNL_STATUS: Ring and fetch state. -/
@[reducible] def RES_JRNL_STATUS : Nat := 0xE00064
@[reducible] def RES_JRNL_STATUS_fw_open : Fld := ⟨RES_JRNL_STATUS, 31, 24⟩
@[reducible] def RES_JRNL_STATUS_refused : Fld := ⟨RES_JRNL_STATUS, 23, 16⟩
@[reducible] def RES_JRNL_STATUS_rebuilt : Fld := ⟨RES_JRNL_STATUS, 15, 15⟩
@[reducible] def RES_JRNL_STATUS_busy : Fld := ⟨RES_JRNL_STATUS, 14, 14⟩
@[reducible] def RES_JRNL_STATUS_found : Fld := ⟨RES_JRNL_STATUS, 13, 13⟩
@[reducible] def RES_JRNL_STATUS_kettle : Fld := ⟨RES_JRNL_STATUS, 9, 0⟩
/-- RES_JRNL_SEL: seq to read. -/
@[reducible] def RES_JRNL_SEL : Nat := 0xE00068
@[reducible] def RES_JRNL_SEL_seq : Fld := ⟨RES_JRNL_SEL, 31, 0⟩
/-- RES_JRNL_RECm: Selected record. -/
@[reducible] def RES_JRNL_RECm (i : Nat) : Nat := 0xE00080 + 0x4 * i
@[reducible] def RES_JRNL_RECm_bytes (i : Nat) : Fld := ⟨RES_JRNL_RECm i, 31, 0⟩
/-- RES_GATE_TAG: Firmware: step tag. -/
@[reducible] def RES_GATE_TAG : Nat := 0xE00100
@[reducible] def RES_GATE_TAG_tag : Fld := ⟨RES_GATE_TAG, 15, 0⟩
/-- RES_JRNL_OPENm: Firmware: open. -/
@[reducible] def RES_JRNL_OPENm (i : Nat) : Nat := 0xE00110 + 0x4 * i
@[reducible] def RES_JRNL_OPENm_bytes (i : Nat) : Fld := ⟨RES_JRNL_OPENm i, 31, 0⟩
/-- RES_JRNL_STEP: Firmware: end of step. -/
@[reducible] def RES_JRNL_STEP : Nat := 0xE00120
@[reducible] def RES_JRNL_STEP_tag : Fld := ⟨RES_JRNL_STEP, 15, 0⟩
/-- RES_JRNL_CLOSE: Firmware: close. -/
@[reducible] def RES_JRNL_CLOSE : Nat := 0xE00124
@[reducible] def RES_JRNL_CLOSE_cause : Fld := ⟨RES_JRNL_CLOSE, 31, 24⟩
@[reducible] def RES_JRNL_CLOSE_outcome : Fld := ⟨RES_JRNL_CLOSE, 23, 16⟩
@[reducible] def RES_JRNL_CLOSE_tag : Fld := ⟨RES_JRNL_CLOSE, 15, 0⟩

/-! ### Telemetry registers (16_telemetry.md R460) -/

/-- TEL_CTRL: Trace, storm, counter clear. -/
@[reducible] def TEL_CTRL : Nat := 0xF80000
@[reducible] def TEL_CTRL_cnt_clear : Fld := ⟨TEL_CTRL, 2, 2⟩
@[reducible] def TEL_CTRL_storm_en : Fld := ⟨TEL_CTRL, 1, 1⟩
@[reducible] def TEL_CTRL_trace_en : Fld := ⟨TEL_CTRL, 0, 0⟩
/-- TEL_STATUS: Alarm entries, storm. -/
@[reducible] def TEL_STATUS : Nat := 0xF80004
@[reducible] def TEL_STATUS_alarms : Fld := ⟨TEL_STATUS, 25, 16⟩
@[reducible] def TEL_STATUS_storm : Fld := ⟨TEL_STATUS, 0, 0⟩
/-- TEL_STORM_CFG: N. -/
@[reducible] def TEL_STORM_CFG : Nat := 0xF80008
@[reducible] def TEL_STORM_CFG_n : Fld := ⟨TEL_STORM_CFG, 15, 0⟩
/-- TEL_PATH_CFG: Kinds per path, counter period. -/
@[reducible] def TEL_PATH_CFG : Nat := 0xF8000C
@[reducible] def TEL_PATH_CFG_cnt_period_s : Fld := ⟨TEL_PATH_CFG, 31, 16⟩
@[reducible] def TEL_PATH_CFG_eth_kinds : Fld := ⟨TEL_PATH_CFG, 12, 8⟩
@[reducible] def TEL_PATH_CFG_ring_kinds : Fld := ⟨TEL_PATH_CFG, 4, 0⟩
/-- TEL_PENDm: Host pending. -/
@[reducible] def TEL_PENDm (i : Nat) : Nat := 0xF80010 + 0x4 * i
@[reducible] def TEL_PENDm_bits (i : Nat) : Fld := ⟨TEL_PENDm i, 31, 0⟩
/-- TEL_MASKm: Host masks. -/
@[reducible] def TEL_MASKm (i : Nat) : Nat := 0xF80030 + 0x4 * i
@[reducible] def TEL_MASKm_bits (i : Nat) : Fld := ⟨TEL_MASKm i, 31, 0⟩
/-- TEL_CCPENDm: Firmware pending. -/
@[reducible] def TEL_CCPENDm (i : Nat) : Nat := 0xF80050 + 0x4 * i
@[reducible] def TEL_CCPENDm_bits (i : Nat) : Fld := ⟨TEL_CCPENDm i, 31, 0⟩
/-- TEL_ALM_SEL: Alarm entry select. -/
@[reducible] def TEL_ALM_SEL : Nat := 0xF80070
@[reducible] def TEL_ALM_SEL_entry : Fld := ⟨TEL_ALM_SEL, 8, 0⟩
/-- TEL_ALM_ENTm: Selected entry. -/
@[reducible] def TEL_ALM_ENTm (i : Nat) : Nat := 0xF80074 + 0x4 * i
@[reducible] def TEL_ALM_ENTm_bytes (i : Nat) : Fld := ⟨TEL_ALM_ENTm i, 31, 0⟩
/-- TEL_ALM_ACK: Acknowledgment. -/
@[reducible] def TEL_ALM_ACK : Nat := 0xF80084
@[reducible] def TEL_ALM_ACK_seen : Fld := ⟨TEL_ALM_ACK, 31, 16⟩
@[reducible] def TEL_ALM_ACK_entry : Fld := ⟨TEL_ALM_ACK, 8, 0⟩
/-- TEL_FW_RAISE: Firmware source raise. -/
@[reducible] def TEL_FW_RAISE : Nat := 0xF80088
@[reducible] def TEL_FW_RAISE_fw : Fld := ⟨TEL_FW_RAISE, 18, 16⟩
@[reducible] def TEL_FW_RAISE_unit : Fld := ⟨TEL_FW_RAISE, 15, 0⟩
/-- TEL_LOG_SEQ: Newest log seq. -/
@[reducible] def TEL_LOG_SEQ : Nat := 0xF80090
@[reducible] def TEL_LOG_SEQ_seq : Fld := ⟨TEL_LOG_SEQ, 31, 0⟩
/-- TEL_TRACE_POS: Next trace record. -/
@[reducible] def TEL_TRACE_POS : Nat := 0xF80094
@[reducible] def TEL_TRACE_POS_pos : Fld := ⟨TEL_TRACE_POS, 14, 0⟩
/-- TEL_CNT_LOCAL: Sampled-out records. -/
@[reducible] def TEL_CNT_LOCAL : Nat := 0xF80098
@[reducible] def TEL_CNT_LOCAL_sampled_out : Fld := ⟨TEL_CNT_LOCAL, 31, 0⟩
/-- TEL_RING_BASE_LO: Ring base, low half. -/
@[reducible] def TEL_RING_BASE_LO : Nat := 0xF800A0
@[reducible] def TEL_RING_BASE_LO_addr : Fld := ⟨TEL_RING_BASE_LO, 31, 0⟩
/-- TEL_RING_BASE_HI: Ring base, high half. -/
@[reducible] def TEL_RING_BASE_HI : Nat := 0xF800A4
@[reducible] def TEL_RING_BASE_HI_addr : Fld := ⟨TEL_RING_BASE_HI, 31, 0⟩
/-- TEL_RING_CFG: Ring size, vector, enable. -/
@[reducible] def TEL_RING_CFG : Nat := 0xF800A8
@[reducible] def TEL_RING_CFG_size_log2 : Fld := ⟨TEL_RING_CFG, 20, 16⟩
@[reducible] def TEL_RING_CFG_vector : Fld := ⟨TEL_RING_CFG, 12, 8⟩
@[reducible] def TEL_RING_CFG_en : Fld := ⟨TEL_RING_CFG, 0, 0⟩
/-- TEL_RING_PROD: Producer index. -/
@[reducible] def TEL_RING_PROD : Nat := 0xF800AC
@[reducible] def TEL_RING_PROD_index : Fld := ⟨TEL_RING_PROD, 15, 0⟩
/-- TEL_RING_CONS: Consumer index. -/
@[reducible] def TEL_RING_CONS : Nat := 0xF800B0
@[reducible] def TEL_RING_CONS_index : Fld := ⟨TEL_RING_CONS, 15, 0⟩
/-- TEL_ETH_CFG: Ethernet path. -/
@[reducible] def TEL_ETH_CFG : Nat := 0xF800C0
@[reducible] def TEL_ETH_CFG_en : Fld := ⟨TEL_ETH_CFG, 31, 31⟩
@[reducible] def TEL_ETH_CFG_dscp : Fld := ⟨TEL_ETH_CFG, 29, 24⟩
@[reducible] def TEL_ETH_CFG_eth_mask : Fld := ⟨TEL_ETH_CFG, 19, 16⟩
@[reducible] def TEL_ETH_CFG_dst_port : Fld := ⟨TEL_ETH_CFG, 15, 0⟩
/-- TEL_ETH_RATE: Ethernet rate. -/
@[reducible] def TEL_ETH_RATE : Nat := 0xF800C4
@[reducible] def TEL_ETH_RATE_rate : Fld := ⟨TEL_ETH_RATE, 13, 0⟩
/-- TEL_ETH_DSTm: Collector address. -/
@[reducible] def TEL_ETH_DSTm (i : Nat) : Nat := 0xF800D0 + 0x4 * i
@[reducible] def TEL_ETH_DSTm_addr (i : Nat) : Fld := ⟨TEL_ETH_DSTm i, 31, 0⟩
/-- TEL_LOSSp_A: Journal and counter drops. -/
@[reducible] def TEL_LOSSp_A (i : Nat) : Nat := 0xF80100 + 0x8 * i
@[reducible] def TEL_LOSSp_A_journal (i : Nat) : Fld := ⟨TEL_LOSSp_A i, 31, 16⟩
@[reducible] def TEL_LOSSp_A_counters (i : Nat) : Fld := ⟨TEL_LOSSp_A i, 15, 0⟩
/-- TEL_LOSSp_B: Event and trace drops. -/
@[reducible] def TEL_LOSSp_B (i : Nat) : Nat := 0xF80104 + 0x8 * i
@[reducible] def TEL_LOSSp_B_event (i : Nat) : Fld := ⟨TEL_LOSSp_B i, 31, 16⟩
@[reducible] def TEL_LOSSp_B_trace (i : Nat) : Fld := ⟨TEL_LOSSp_B i, 15, 0⟩
/-- TEL_CNT_LISTm: Counter export list. -/
@[reducible] def TEL_CNT_LISTm (i : Nat) : Nat := 0xF80200 + 0x4 * i
@[reducible] def TEL_CNT_LISTm_valid (i : Nat) : Fld := ⟨TEL_CNT_LISTm i, 31, 31⟩
@[reducible] def TEL_CNT_LISTm_offset (i : Nat) : Fld := ⟨TEL_CNT_LISTm i, 23, 0⟩

/-! ### Identity and host interface registers (17_host_interface.md R482) -/

/-- HIF_ID: Device and vendor identifiers. -/
@[reducible] def HIF_ID : Nat := 0x0
@[reducible] def HIF_ID_device : Fld := ⟨HIF_ID, 31, 16⟩
@[reducible] def HIF_ID_vendor : Fld := ⟨HIF_ID, 15, 0⟩
/-- HIF_REV: Die and ROM revisions. -/
@[reducible] def HIF_REV : Nat := 0x4
@[reducible] def HIF_REV_die : Fld := ⟨HIF_REV, 15, 8⟩
@[reducible] def HIF_REV_rom : Fld := ⟨HIF_REV, 7, 0⟩
/-- HIF_SCRATCH: Scratch. -/
@[reducible] def HIF_SCRATCH : Nat := 0x8
@[reducible] def HIF_SCRATCH_value : Fld := ⟨HIF_SCRATCH, 31, 0⟩
/-- HIF_CTRL: Counter clear. -/
@[reducible] def HIF_CTRL : Nat := 0xF00000
@[reducible] def HIF_CTRL_cnt_clear : Fld := ⟨HIF_CTRL, 0, 0⟩
/-- HIF_STATUS: Link. -/
@[reducible] def HIF_STATUS : Nat := 0xF00004
@[reducible] def HIF_STATUS_width : Fld := ⟨HIF_STATUS, 18, 16⟩
@[reducible] def HIF_STATUS_speed : Fld := ⟨HIF_STATUS, 11, 8⟩
@[reducible] def HIF_STATUS_link_up : Fld := ⟨HIF_STATUS, 0, 0⟩
/-- HIF_ERR: Access errors. -/
@[reducible] def HIF_ERR : Nat := 0xF00008
@[reducible] def HIF_ERR_stopped : Fld := ⟨HIF_ERR, 31, 24⟩
@[reducible] def HIF_ERR_bar0_bad : Fld := ⟨HIF_ERR, 23, 16⟩
@[reducible] def HIF_ERR_bar2_err : Fld := ⟨HIF_ERR, 15, 8⟩
@[reducible] def HIF_ERR_poisoned : Fld := ⟨HIF_ERR, 7, 0⟩
/-- HIF_ERR_LAST: Last error offset. -/
@[reducible] def HIF_ERR_LAST : Nat := 0xF0000C
@[reducible] def HIF_ERR_LAST_bar : Fld := ⟨HIF_ERR_LAST, 31, 31⟩
@[reducible] def HIF_ERR_LAST_offset : Fld := ⟨HIF_ERR_LAST, 27, 0⟩
/-- HIF_HCQ_BASE_LO: Submission base, low half. -/
@[reducible] def HIF_HCQ_BASE_LO : Nat := 0xF00010
@[reducible] def HIF_HCQ_BASE_LO_addr : Fld := ⟨HIF_HCQ_BASE_LO, 31, 0⟩
/-- HIF_HCQ_BASE_HI: Submission base, high half. -/
@[reducible] def HIF_HCQ_BASE_HI : Nat := 0xF00014
@[reducible] def HIF_HCQ_BASE_HI_addr : Fld := ⟨HIF_HCQ_BASE_HI, 31, 0⟩
/-- HIF_CQ_BASE_LO: Completion base, low half. -/
@[reducible] def HIF_CQ_BASE_LO : Nat := 0xF00018
@[reducible] def HIF_CQ_BASE_LO_addr : Fld := ⟨HIF_CQ_BASE_LO, 31, 0⟩
/-- HIF_CQ_BASE_HI: Completion base, high half. -/
@[reducible] def HIF_CQ_BASE_HI : Nat := 0xF0001C
@[reducible] def HIF_CQ_BASE_HI_addr : Fld := ⟨HIF_CQ_BASE_HI, 31, 0⟩
/-- HIF_HCQ_CFG: Size, vector, enable. -/
@[reducible] def HIF_HCQ_CFG : Nat := 0xF00020
@[reducible] def HIF_HCQ_CFG_en : Fld := ⟨HIF_HCQ_CFG, 16, 16⟩
@[reducible] def HIF_HCQ_CFG_vector : Fld := ⟨HIF_HCQ_CFG, 12, 8⟩
@[reducible] def HIF_HCQ_CFG_size_log2 : Fld := ⟨HIF_HCQ_CFG, 3, 0⟩
/-- HIF_HCQ_TAIL: Submission tail. -/
@[reducible] def HIF_HCQ_TAIL : Nat := 0xF00024
@[reducible] def HIF_HCQ_TAIL_index : Fld := ⟨HIF_HCQ_TAIL, 11, 0⟩
/-- HIF_HCQ_HEAD: Submission head. -/
@[reducible] def HIF_HCQ_HEAD : Nat := 0xF00028
@[reducible] def HIF_HCQ_HEAD_index : Fld := ⟨HIF_HCQ_HEAD, 11, 0⟩
/-- HIF_CQ_HEAD: Completion head. -/
@[reducible] def HIF_CQ_HEAD : Nat := 0xF0002C
@[reducible] def HIF_CQ_HEAD_index : Fld := ⟨HIF_CQ_HEAD, 11, 0⟩
/-- HIF_CQ_TAIL: Completion tail and phase. -/
@[reducible] def HIF_CQ_TAIL : Nat := 0xF00030
@[reducible] def HIF_CQ_TAIL_phase : Fld := ⟨HIF_CQ_TAIL, 16, 16⟩
@[reducible] def HIF_CQ_TAIL_index : Fld := ⟨HIF_CQ_TAIL, 11, 0⟩
/-- HIF_HCQ_STATUS: Queue state. -/
@[reducible] def HIF_HCQ_STATUS : Nat := 0xF00034
@[reducible] def HIF_HCQ_STATUS_bad_doorbell : Fld := ⟨HIF_HCQ_STATUS, 31, 24⟩
@[reducible] def HIF_HCQ_STATUS_running : Fld := ⟨HIF_HCQ_STATUS, 23, 16⟩
@[reducible] def HIF_HCQ_STATUS_cq_stall : Fld := ⟨HIF_HCQ_STATUS, 2, 2⟩
@[reducible] def HIF_HCQ_STATUS_state : Fld := ⟨HIF_HCQ_STATUS, 1, 0⟩
/-- HIF_MGMT_CFG: Management channel. -/
@[reducible] def HIF_MGMT_CFG : Nat := 0xF00080
@[reducible] def HIF_MGMT_CFG_en : Fld := ⟨HIF_MGMT_CFG, 31, 31⟩
@[reducible] def HIF_MGMT_CFG_vid : Fld := ⟨HIF_MGMT_CFG, 27, 16⟩
@[reducible] def HIF_MGMT_CFG_eth_mask : Fld := ⟨HIF_MGMT_CFG, 3, 0⟩
/-- HIF_MGMT_PORT: UDP port. -/
@[reducible] def HIF_MGMT_PORT : Nat := 0xF00084
@[reducible] def HIF_MGMT_PORT_udp_port : Fld := ⟨HIF_MGMT_PORT, 15, 0⟩
/-- HIF_MGMT_WQ: Word queue. -/
@[reducible] def HIF_MGMT_WQ : Nat := 0xF00088
@[reducible] def HIF_MGMT_WQ_wq : Fld := ⟨HIF_MGMT_WQ, 7, 0⟩
/-- HIF_MQ_SUBMIT: Management command. -/
@[reducible] def HIF_MQ_SUBMIT : Nat := 0xF0008C
@[reducible] def HIF_MQ_SUBMIT_handle : Fld := ⟨HIF_MQ_SUBMIT, 31, 0⟩
/-- HIF_MGMT_TX_CTL: Frame port and length. -/
@[reducible] def HIF_MGMT_TX_CTL : Nat := 0xF00090
@[reducible] def HIF_MGMT_TX_CTL_port : Fld := ⟨HIF_MGMT_TX_CTL, 17, 16⟩
@[reducible] def HIF_MGMT_TX_CTL_length : Fld := ⟨HIF_MGMT_TX_CTL, 10, 0⟩
/-- HIF_MGMT_TX: Frame handle; sends. -/
@[reducible] def HIF_MGMT_TX : Nat := 0xF00094
@[reducible] def HIF_MGMT_TX_handle : Fld := ⟨HIF_MGMT_TX, 31, 0⟩
/-- HIF_MGMT_CNT: Drops and refusals. -/
@[reducible] def HIF_MGMT_CNT : Nat := 0xF00098
@[reducible] def HIF_MGMT_CNT_rx_dropped : Fld := ⟨HIF_MGMT_CNT, 31, 16⟩
@[reducible] def HIF_MGMT_CNT_mq_refused : Fld := ⟨HIF_MGMT_CNT, 15, 0⟩
/-- HIF_MGMT_ADDRm: Management address. -/
@[reducible] def HIF_MGMT_ADDRm (i : Nat) : Nat := 0xF000A0 + 0x4 * i
@[reducible] def HIF_MGMT_ADDRm_addr (i : Nat) : Fld := ⟨HIF_MGMT_ADDRm i, 31, 0⟩
/-- HIF_CCA_TICK: CC-A clock count; CC-A domain. -/
@[reducible] def HIF_CCA_TICK : Nat := 0xF00100
@[reducible] def HIF_CCA_TICK_ticks : Fld := ⟨HIF_CCA_TICK, 31, 0⟩
/-- HIF_CCB_TICK: CC-B clock count; CC-B domain. -/
@[reducible] def HIF_CCB_TICK : Nat := 0xF00104
@[reducible] def HIF_CCB_TICK_ticks : Fld := ⟨HIF_CCB_TICK, 31, 0⟩
/-- HIF_FRr_UP_BASE_LO: Up ring base, low half. -/
@[reducible] def HIF_FRr_UP_BASE_LO (i : Nat) : Nat := 0xF01000 + 0x40 * i
@[reducible] def HIF_FRr_UP_BASE_LO_addr (i : Nat) : Fld := ⟨HIF_FRr_UP_BASE_LO i, 31, 0⟩
/-- HIF_FRr_UP_BASE_HI: Up ring base, high half. -/
@[reducible] def HIF_FRr_UP_BASE_HI (i : Nat) : Nat := 0xF01004 + 0x40 * i
@[reducible] def HIF_FRr_UP_BASE_HI_addr (i : Nat) : Fld := ⟨HIF_FRr_UP_BASE_HI i, 31, 0⟩
/-- HIF_FRr_UP_CFG: Up ring size, vector, enable. -/
@[reducible] def HIF_FRr_UP_CFG (i : Nat) : Nat := 0xF01008 + 0x40 * i
@[reducible] def HIF_FRr_UP_CFG_en (i : Nat) : Fld := ⟨HIF_FRr_UP_CFG i, 16, 16⟩
@[reducible] def HIF_FRr_UP_CFG_vector (i : Nat) : Fld := ⟨HIF_FRr_UP_CFG i, 12, 8⟩
@[reducible] def HIF_FRr_UP_CFG_size_log2 (i : Nat) : Fld := ⟨HIF_FRr_UP_CFG i, 3, 0⟩
/-- HIF_FRr_UP_TAIL: Buffers posted. -/
@[reducible] def HIF_FRr_UP_TAIL (i : Nat) : Nat := 0xF0100C + 0x40 * i
@[reducible] def HIF_FRr_UP_TAIL_index (i : Nat) : Fld := ⟨HIF_FRr_UP_TAIL i, 11, 0⟩
/-- HIF_FRr_UP_HEAD: Descriptors filled. -/
@[reducible] def HIF_FRr_UP_HEAD (i : Nat) : Nat := 0xF01010 + 0x40 * i
@[reducible] def HIF_FRr_UP_HEAD_index (i : Nat) : Fld := ⟨HIF_FRr_UP_HEAD i, 11, 0⟩
/-- HIF_FRr_DN_BASE_LO: Down ring base, low half. -/
@[reducible] def HIF_FRr_DN_BASE_LO (i : Nat) : Nat := 0xF01014 + 0x40 * i
@[reducible] def HIF_FRr_DN_BASE_LO_addr (i : Nat) : Fld := ⟨HIF_FRr_DN_BASE_LO i, 31, 0⟩
/-- HIF_FRr_DN_BASE_HI: Down ring base, high half. -/
@[reducible] def HIF_FRr_DN_BASE_HI (i : Nat) : Nat := 0xF01018 + 0x40 * i
@[reducible] def HIF_FRr_DN_BASE_HI_addr (i : Nat) : Fld := ⟨HIF_FRr_DN_BASE_HI i, 31, 0⟩
/-- HIF_FRr_DN_CFG: Down ring size, vector, enable. -/
@[reducible] def HIF_FRr_DN_CFG (i : Nat) : Nat := 0xF0101C + 0x40 * i
@[reducible] def HIF_FRr_DN_CFG_en (i : Nat) : Fld := ⟨HIF_FRr_DN_CFG i, 16, 16⟩
@[reducible] def HIF_FRr_DN_CFG_vector (i : Nat) : Fld := ⟨HIF_FRr_DN_CFG i, 12, 8⟩
@[reducible] def HIF_FRr_DN_CFG_size_log2 (i : Nat) : Fld := ⟨HIF_FRr_DN_CFG i, 3, 0⟩
/-- HIF_FRr_DN_TAIL: Descriptors posted. -/
@[reducible] def HIF_FRr_DN_TAIL (i : Nat) : Nat := 0xF01020 + 0x40 * i
@[reducible] def HIF_FRr_DN_TAIL_index (i : Nat) : Fld := ⟨HIF_FRr_DN_TAIL i, 11, 0⟩
/-- HIF_FRr_DN_HEAD: Descriptors processed. -/
@[reducible] def HIF_FRr_DN_HEAD (i : Nat) : Nat := 0xF01024 + 0x40 * i
@[reducible] def HIF_FRr_DN_HEAD_index (i : Nat) : Fld := ⟨HIF_FRr_DN_HEAD i, 11, 0⟩
/-- HIF_FRr_CNT: Ring counts. -/
@[reducible] def HIF_FRr_CNT (i : Nat) : Nat := 0xF01028 + 0x40 * i
@[reducible] def HIF_FRr_CNT_no_buf (i : Nat) : Fld := ⟨HIF_FRr_CNT i, 31, 16⟩
@[reducible] def HIF_FRr_CNT_truncated (i : Nat) : Fld := ⟨HIF_FRr_CNT i, 15, 8⟩
@[reducible] def HIF_FRr_CNT_dn_err (i : Nat) : Fld := ⟨HIF_FRr_CNT i, 7, 0⟩
/-- MSIX_TABLE: MSI-X vectors. -/
@[reducible] def MSIX_TABLE (i : Nat) (j : Nat) : Nat := 0xF08000 + 0x10 * i + 0x4 * j
@[reducible] def MSIX_TABLE_word (i : Nat) (j : Nat) : Fld := ⟨MSIX_TABLE i j, 31, 0⟩
/-- MSIX_PBA: Pending bits. -/
@[reducible] def MSIX_PBA : Nat := 0xF09000
@[reducible] def MSIX_PBA_pending : Fld := ⟨MSIX_PBA, 31, 0⟩

/-! ### The description table (R3 to R7) -/

/-- Descriptions, Blend loader registers, Table BLEND-11 (02_blend.md R55). -/
def regsBld : List RegDesc := [
  ⟨0x200000, [], 0x0, [⟨5, 4, .rw, [(3, 3)]⟩, ⟨1, 1, .w1s, []⟩, ⟨0, 0, .w1s, []⟩]⟩,
  ⟨0x200004, [], 0x0, [⟨31, 24, .ro, []⟩, ⟨23, 16, .ro, []⟩, ⟨15, 8, .ro, []⟩, ⟨3, 0, .ro, []⟩]⟩,
  ⟨0x200008, [], 0x0, [⟨31, 0, .ro, []⟩]⟩,
  ⟨0x20000C, [], 0x0, [⟨31, 0, .wo, []⟩]⟩,
  ⟨0x200010, [], 0x0, [⟨31, 0, .rw, []⟩]⟩,
  ⟨0x200014, [], 0x0, [⟨31, 0, .rw, []⟩]⟩,
  ⟨0x200018, [], 0x0, [⟨31, 0, .rw, []⟩]⟩,
  ⟨0x200020, [], 0x0, [⟨31, 0, .ro, []⟩]⟩,
  ⟨0x200024, [], 0x0, [⟨31, 0, .ro, []⟩]⟩,
  ⟨0x200028, [], 0x0, [⟨31, 0, .ro, []⟩]⟩,
  ⟨0x20002C, [], 0x0, [⟨7, 0, .ro, []⟩]⟩,
  ⟨0x200030, [], 0x0, [⟨31, 0, .ro, []⟩]⟩,
  ⟨0x200034, [], 0x0, [⟨31, 0, .ro, []⟩]⟩]

/-- Descriptions, Dispatcher registers, Table CADDY-10 (03_caddies_and_dispatch.md R91), part 1. -/
def regsDsp0 : List RegDesc := [
  ⟨0x300000, [], 0x2, [⟨3, 3, .w1s, []⟩, ⟨2, 2, .w1s, []⟩, ⟨1, 1, .rw, []⟩, ⟨0, 0, .rw, []⟩]⟩,
  ⟨0x300004, [], 0x0, [⟨25, 16, .ro, []⟩, ⟨13, 8, .ro, []⟩, ⟨7, 7, .ro, []⟩, ⟨6, 6, .ro, []⟩, ⟨5, 0, .ro, []⟩]⟩,
  ⟨0x300008, [], 0x0, [⟨31, 0, .ro, []⟩]⟩,
  ⟨0x30000C, [], 0x0, [⟨1, 0, .ro, []⟩]⟩,
  ⟨0x300010, [], 0x0, [⟨15, 0, .ro, []⟩]⟩,
  ⟨0x300014, [], 0x0, [⟨31, 24, .ro, []⟩, ⟨23, 16, .ro, []⟩, ⟨15, 8, .ro, []⟩, ⟨7, 0, .ro, []⟩]⟩,
  ⟨0x300020, [], 0x0, [⟨13, 8, .rw, [(34, 63)]⟩, ⟨4, 0, .rw, [(17, 31)]⟩]⟩,
  ⟨0x300024, [], 0x0, [⟨9, 0, .ro, []⟩]⟩,
  ⟨0x300028, [], 0x0, [⟨31, 0, .ro, []⟩]⟩,
  ⟨0x30002C, [], 0x0, [⟨31, 16, .ro, []⟩, ⟨15, 0, .ro, []⟩]⟩,
  ⟨0x300030, [], 0x0, [⟨31, 16, .ro, []⟩, ⟨15, 0, .ro, []⟩]⟩,
  ⟨0x300034, [], 0x0, [⟨31, 16, .ro, []⟩, ⟨15, 0, .ro, []⟩]⟩,
  ⟨0x300040, [(0x4, 8)], 0x0, [⟨31, 0, .wo, []⟩]⟩,
  ⟨0x300060, [], 0x0, [⟨7, 0, .ro, []⟩]⟩,
  ⟨0x300080, [(0x4, 8)], 0x0, [⟨31, 0, .wo, []⟩]⟩,
  ⟨0x3000A0, [], 0x0, [⟨7, 0, .ro, []⟩]⟩,
  ⟨0x300100, [(0x4, 34)], 0x3F0005, [⟨21, 16, .ro, []⟩, ⟨3, 0, .ro, []⟩]⟩,
  ⟨0x300200, [], 0x0, [⟨7, 0, .wo, []⟩]⟩,
  ⟨0x301000, [(0x10, 256)], 0x0, [⟨31, 0, .wo, []⟩]⟩,
  ⟨0x301004, [(0x10, 256)], 0x0, [⟨31, 0, .wo, []⟩]⟩]

/-- Descriptions, Dispatcher registers, Table CADDY-10 (03_caddies_and_dispatch.md R91), part 2. -/
def regsDsp1 : List RegDesc := [
  ⟨0x301008, [(0x10, 256)], 0x0, [⟨31, 0, .ro, []⟩]⟩,
  ⟨0x30100C, [(0x10, 256)], 0x0, [⟨31, 0, .ro, []⟩]⟩,
  ⟨0x302000, [(0x4, 256)], 0x0, [⟨16, 16, .rw, []⟩, ⟨15, 8, .rw, []⟩, ⟨7, 0, .rw, []⟩]⟩,
  ⟨0x302400, [(0x4, 256)], 0x0, [⟨5, 0, .ro, []⟩]⟩,
  ⟨0x302800, [(0x4, 256)], 0x0, [⟨31, 16, .ro, []⟩, ⟨15, 8, .ro, []⟩, ⟨7, 0, .ro, []⟩]⟩]

/-- Descriptions, Dispatcher registers, Table CADDY-10 (03_caddies_and_dispatch.md R91). -/
def regsDsp : List RegDesc := regsDsp0 ++ regsDsp1

/-- Descriptions, Yarlink port registers (04_yarlink.md R124), port n at stride 0x1000 (R467). -/
def regsYl : List RegDesc := [
  ⟨0x400000, [(0x1000, 64)], 0x0, [⟨8, 8, .w1s, []⟩, ⟨0, 0, .rw, []⟩]⟩,
  ⟨0x400004, [(0x1000, 64)], 0x0, [⟨31, 24, .ro, []⟩, ⟨23, 16, .ro, []⟩, ⟨8, 8, .ro, []⟩, ⟨3, 0, .ro, []⟩]⟩,
  ⟨0x400008, [(0x1000, 64)], 0x0, [⟨31, 16, .ro, []⟩, ⟨15, 0, .ro, []⟩]⟩,
  ⟨0x40000C, [(0x1000, 64)], 0x0, [⟨31, 24, .ro, []⟩, ⟨23, 16, .ro, []⟩, ⟨15, 8, .ro, []⟩, ⟨7, 0, .ro, []⟩]⟩,
  ⟨0x400010, [(0x1000, 64)], 0x0, [⟨31, 16, .ro, []⟩, ⟨15, 8, .ro, []⟩, ⟨7, 0, .ro, []⟩]⟩,
  ⟨0x400014, [(0x1000, 64)], 0x0, [⟨0, 0, .wo, []⟩]⟩,
  ⟨0x400018, [(0x1000, 64)], 0x0, [⟨23, 0, .ro, []⟩]⟩,
  ⟨0x40001C, [(0x1000, 64)], 0x0, [⟨23, 0, .ro, []⟩]⟩,
  ⟨0x400020, [(0x1000, 64)], 0x0, [⟨23, 0, .ro, []⟩]⟩,
  ⟨0x400024, [(0x1000, 64)], 0x0, [⟨15, 0, .rw, []⟩]⟩,
  ⟨0x400028, [(0x1000, 64)], 0x0, [⟨31, 0, .ro, []⟩]⟩,
  ⟨0x40002C, [(0x1000, 64)], 0x0, [⟨4, 4, .rw, []⟩, ⟨1, 0, .rw, [(3, 3)]⟩]⟩,
  ⟨0x400030, [(0x1000, 64)], 0x0, [⟨31, 0, .ro, []⟩]⟩,
  ⟨0x400400, [(0x1000, 64), (0x4, 64)], 0x0, [⟨31, 0, .rw, []⟩]⟩,
  ⟨0x400500, [(0x1000, 64), (0x4, 8)], 0x0, [⟨31, 0, .rw, []⟩]⟩]

/-- Descriptions, Head-control and Kettle wake registers (05_head_control.md R152, R153). -/
def regsHc : List RegDesc := [
  ⟨0x100200, [], 0x20, [⟨24, 24, .rw, []⟩, ⟨15, 8, .rw, []⟩, ⟨6, 4, .rw, [(5, 7)]⟩, ⟨0, 0, .rw, []⟩]⟩,
  ⟨0x100204, [], 0x0, [⟨31, 0, .rw, []⟩]⟩,
  ⟨0x100208, [], 0x0, [⟨2, 2, .w1c, []⟩, ⟨1, 1, .w1c, []⟩, ⟨0, 0, .w1c, []⟩]⟩,
  ⟨0x10020C, [], 0x0, [⟨31, 16, .ro, []⟩, ⟨15, 0, .ro, []⟩]⟩,
  ⟨0x100210, [], 0x0, [⟨31, 0, .ro, []⟩]⟩,
  ⟨0x500000, [], 0x0, [⟨8, 8, .w1s, []⟩, ⟨0, 0, .rw, []⟩]⟩,
  ⟨0x500004, [], 0x0, [⟨12, 8, .rw, []⟩, ⟨5, 0, .rw, []⟩]⟩,
  ⟨0x500008, [], 0x0, [⟨31, 24, .ro, []⟩, ⟨12, 12, .ro, []⟩, ⟨11, 11, .ro, []⟩, ⟨10, 10, .ro, []⟩, ⟨9, 9, .ro, []⟩, ⟨8, 8, .ro, []⟩, ⟨4, 0, .ro, []⟩]⟩,
  ⟨0x50000C, [], 0x0, [⟨31, 16, .ro, []⟩, ⟨15, 0, .ro, []⟩]⟩,
  ⟨0x500010, [], 0x0, [⟨31, 16, .ro, []⟩, ⟨15, 0, .ro, []⟩]⟩,
  ⟨0x500014, [], 0x0, [⟨31, 16, .ro, []⟩, ⟨15, 0, .ro, []⟩]⟩,
  ⟨0x500018, [], 0x0, [⟨31, 0, .ro, []⟩]⟩,
  ⟨0x50001C, [], 0x0, [⟨31, 0, .ro, []⟩]⟩,
  ⟨0x500020, [], 0x0, [⟨31, 16, .ro, []⟩, ⟨15, 0, .ro, []⟩]⟩,
  ⟨0x500024, [], 0x0, [⟨31, 16, .ro, []⟩, ⟨15, 0, .ro, []⟩]⟩,
  ⟨0x500028, [], 0x0, [⟨31, 16, .ro, []⟩, ⟨15, 0, .ro, []⟩]⟩,
  ⟨0x50002C, [], 0x0, [⟨0, 0, .wo, []⟩]⟩,
  ⟨0x500030, [], 0, [⟨31, 16, .ro, []⟩, ⟨13, 8, .ro, []⟩, ⟨1, 1, .ro, []⟩, ⟨0, 0, .ro, []⟩]⟩,
  ⟨0x501000, [(0x4, 512)], 0, [⟨31, 0, .ro, []⟩]⟩]

/-- Descriptions, Receive registers (06_receive.md R181). -/
def regsRx : List RegDesc := [
  ⟨0x600000, [], 0x3, [⟨2, 2, .w1s, []⟩, ⟨1, 1, .rw, []⟩, ⟨0, 0, .rw, []⟩]⟩,
  ⟨0x600004, [], 0x0, [⟨28, 16, .ro, []⟩, ⟨9, 0, .ro, []⟩]⟩,
  ⟨0x600008, [], 0x0, [⟨13, 8, .rw, []⟩, ⟨7, 0, .rw, []⟩]⟩,
  ⟨0x60000C, [], 0x0, [⟨27, 16, .ro, []⟩, ⟨8, 8, .ro, []⟩, ⟨7, 0, .ro, []⟩]⟩,
  ⟨0x600010, [], 0x0, [⟨15, 0, .ro, []⟩]⟩,
  ⟨0x600014, [], 0x0, [⟨31, 16, .ro, []⟩, ⟨15, 0, .ro, []⟩]⟩,
  ⟨0x600018, [], 0x0, [⟨31, 20, .ro, []⟩, ⟨19, 8, .ro, []⟩, ⟨7, 0, .ro, []⟩]⟩,
  ⟨0x60001C, [], 0x0, [⟨31, 16, .ro, []⟩, ⟨15, 0, .ro, []⟩]⟩,
  ⟨0x600020, [], 0x0, [⟨31, 22, .ro, []⟩, ⟨21, 11, .ro, []⟩, ⟨10, 0, .ro, []⟩]⟩,
  ⟨0x600024, [], 0x0, [⟨31, 0, .ro, []⟩]⟩,
  ⟨0x600028, [], 0x0, [⟨31, 16, .ro, []⟩, ⟨15, 0, .ro, []⟩]⟩,
  ⟨0x60002C, [], 0x0, [⟨31, 16, .ro, []⟩, ⟨15, 0, .ro, []⟩]⟩,
  ⟨0x600030, [], 0x0, [⟨31, 16, .ro, []⟩, ⟨15, 0, .ro, []⟩]⟩,
  ⟨0x600034, [], 0x0, [⟨31, 16, .ro, []⟩, ⟨15, 0, .ro, []⟩]⟩,
  ⟨0x600100, [(0x4, 64)], 0x0, [⟨15, 0, .rw, []⟩]⟩]

/-- Descriptions, Transmit registers (07_transmit.md R200). -/
def regsTx : List RegDesc := [
  ⟨0x700000, [], 0x0, [⟨0, 0, .w1s, []⟩]⟩,
  ⟨0x700004, [], 0x0, [⟨26, 16, .ro, []⟩, ⟨10, 0, .ro, []⟩]⟩,
  ⟨0x700008, [], 0x0, [⟨31, 0, .ro, []⟩]⟩,
  ⟨0x70000C, [], 0x0, [⟨31, 24, .ro, []⟩, ⟨23, 16, .ro, []⟩, ⟨15, 8, .ro, []⟩, ⟨7, 0, .ro, []⟩]⟩,
  ⟨0x700010, [], 0x0, [⟨31, 16, .ro, []⟩, ⟨15, 0, .ro, []⟩]⟩,
  ⟨0x700014, [], 0x0, [⟨31, 16, .ro, []⟩, ⟨15, 0, .ro, []⟩]⟩,
  ⟨0x700018, [], 0x21233, [⟨18, 16, .rw, []⟩, ⟨14, 12, .rw, []⟩, ⟨10, 8, .rw, []⟩, ⟨6, 4, .rw, []⟩, ⟨2, 0, .rw, []⟩]⟩,
  ⟨0x700100, [(0x4, 8)], 0, [⟨9, 0, .rw, [(0, 0)]⟩]⟩,
  ⟨0x700400, [(0x80, 8), (0x4, 32)], 0, [⟨31, 16, .rw, []⟩, ⟨15, 0, .rw, []⟩]⟩,
  ⟨0x700800, [(0x4, 64)], 0x0, [⟨15, 8, .rw, [(61, 255)]⟩, ⟨0, 0, .rw, []⟩]⟩]

/-- Descriptions, TSCH registers (08_tsch.md R235), part 1. -/
def regsTs0 : List RegDesc := [
  ⟨0x800000, [], 0x0, [⟨8, 8, .w1s, []⟩, ⟨7, 0, .rw, []⟩]⟩,
  ⟨0x800004, [], 0x0, [⟨15, 8, .ro, []⟩, ⟨7, 0, .ro, []⟩]⟩,
  ⟨0x800008, [], 0x3, [⟨2, 0, .rw, []⟩]⟩,
  ⟨0x800010, [], 0, [⟨31, 0, .ro, []⟩]⟩,
  ⟨0x800014, [], 0, [⟨31, 0, .ro, []⟩]⟩,
  ⟨0x800018, [], 0x0, [⟨2, 0, .rw, []⟩]⟩,
  ⟨0x80001C, [], 0x0, [⟨31, 0, .ro, []⟩]⟩,
  ⟨0x800020, [], 0x0, [⟨7, 0, .ro, []⟩]⟩,
  ⟨0x800030, [], 0x0, [⟨19, 0, .rw, []⟩]⟩,
  ⟨0x800034, [], 0x0, [⟨31, 0, .rw, []⟩]⟩,
  ⟨0x800038, [], 0x0, [⟨31, 0, .rw, []⟩]⟩,
  ⟨0x80003C, [], 0x0, [⟨1, 0, .wo, []⟩]⟩,
  ⟨0x800040, [], 0x0, [⟨8, 8, .ro, []⟩, ⟨7, 0, .ro, []⟩]⟩,
  ⟨0x800050, [], 0x0, [⟨31, 31, .wo, []⟩, ⟨18, 16, .wo, []⟩, ⟨15, 0, .wo, []⟩]⟩,
  ⟨0x800054, [], 0x0, [⟨31, 24, .ro, []⟩, ⟨16, 16, .ro, []⟩, ⟨15, 0, .ro, []⟩]⟩,
  ⟨0x800060, [], 0x0, [⟨3, 0, .rw, []⟩]⟩,
  ⟨0x800064, [], 0x0, [⟨31, 24, .ro, []⟩, ⟨23, 16, .ro, []⟩, ⟨8, 8, .ro, []⟩, ⟨1, 0, .ro, []⟩]⟩,
  ⟨0x800068, [], 0x0, [⟨31, 0, .ro, []⟩]⟩,
  ⟨0x80006C, [], 0x0, [⟨31, 16, .ro, []⟩, ⟨8, 8, .ro, []⟩, ⟨4, 4, .ro, []⟩, ⟨3, 0, .ro, []⟩]⟩,
  ⟨0x800080, [], 0x0, [⟨31, 16, .ro, []⟩, ⟨15, 0, .ro, []⟩]⟩]

/-- Descriptions, TSCH registers (08_tsch.md R235), part 2. -/
def regsTs1 : List RegDesc := [
  ⟨0x800084, [], 0x0, [⟨31, 0, .ro, []⟩]⟩,
  ⟨0x800088, [], 0x0, [⟨31, 16, .ro, []⟩, ⟨15, 0, .ro, []⟩]⟩,
  ⟨0x80008C, [], 0x0, [⟨31, 16, .ro, []⟩, ⟨15, 0, .ro, []⟩]⟩,
  ⟨0x800090, [], 0x0, [⟨31, 16, .ro, []⟩, ⟨15, 0, .ro, []⟩]⟩,
  ⟨0x800094, [], 0x0, [⟨31, 16, .ro, []⟩, ⟨15, 0, .ro, []⟩]⟩,
  ⟨0x800098, [], 0x0, [⟨31, 16, .ro, []⟩, ⟨15, 0, .ro, []⟩]⟩,
  ⟨0x80009C, [], 0x0, [⟨31, 0, .ro, []⟩]⟩,
  ⟨0x800100, [(0x4, 32)], 0x0, [⟨31, 0, .ro, []⟩]⟩,
  ⟨0x800180, [(0x4, 8)], 0x0, [⟨31, 16, .ro, []⟩, ⟨15, 0, .ro, []⟩]⟩]

/-- Descriptions, TSCH registers (08_tsch.md R235). -/
def regsTs : List RegDesc := regsTs0 ++ regsTs1

/-- Descriptions, Table registers (09_tables.md R261). -/
def regsTbl : List RegDesc := [
  ⟨0x900000, [], 0x5, [⟨2, 2, .rw, []⟩, ⟨1, 1, .w1s, []⟩, ⟨0, 0, .rw, []⟩]⟩,
  ⟨0x900004, [], 0x0, [⟨8, 8, .ro, []⟩, ⟨2, 0, .ro, []⟩]⟩,
  ⟨0x900008, [], 0x258, [⟨15, 0, .rw, [(0, 0)]⟩]⟩,
  ⟨0x90000C, [], 0xA0000, [⟨23, 16, .rw, [(0, 0)]⟩, ⟨7, 0, .rw, []⟩]⟩,
  ⟨0x900010, [], 0x0, [⟨31, 0, .ro, []⟩]⟩,
  ⟨0x900014, [], 0x0, [⟨31, 16, .ro, []⟩, ⟨15, 0, .ro, []⟩]⟩,
  ⟨0x900018, [], 0x0, [⟨31, 16, .ro, []⟩, ⟨15, 0, .ro, []⟩]⟩,
  ⟨0x90001C, [], 0x0, [⟨31, 16, .ro, []⟩, ⟨15, 0, .ro, []⟩]⟩,
  ⟨0x900020, [], 0x0, [⟨31, 16, .ro, []⟩, ⟨15, 0, .ro, []⟩]⟩,
  ⟨0x900024, [], 0x0, [⟨31, 16, .ro, []⟩, ⟨15, 0, .ro, []⟩]⟩,
  ⟨0x900030, [], 0x0, [⟨18, 0, .ro, []⟩]⟩,
  ⟨0x900040, [(0x4, 8)], 0x0, [⟨15, 0, .ro, []⟩]⟩]

/-- Descriptions, Forwarding registers (10_forwarding.md R292), part 1. -/
def regsFwd0 : List RegDesc := [
  ⟨0xA00000, [], 0x2, [⟨2, 2, .w1s, []⟩, ⟨1, 1, .rw, []⟩, ⟨0, 0, .rw, []⟩]⟩,
  ⟨0xA00004, [], 0x0, [⟨31, 16, .ro, []⟩, ⟨10, 8, .ro, []⟩, ⟨3, 0, .ro, []⟩]⟩,
  ⟨0xA00008, [], 0x3C10, [⟨13, 8, .rw, [(0, 0), (61, 63)]⟩, ⟨5, 0, .rw, [(0, 0), (33, 63)]⟩]⟩,
  ⟨0xA00100, [(0x20, 8)], 0x0, [⟨19, 16, .rw, []⟩, ⟨11, 0, .rw, [(0, 0), (4095, 4095)]⟩]⟩,
  ⟨0xA00104, [(0x20, 8)], 0x0, [⟨31, 0, .rw, []⟩]⟩,
  ⟨0xA00108, [(0x20, 8)], 0x0, [⟨31, 0, .rw, []⟩]⟩,
  ⟨0xA0010C, [(0x20, 8)], 0x0, [⟨23, 16, .rw, []⟩, ⟨15, 8, .rw, []⟩, ⟨7, 0, .rw, []⟩]⟩,
  ⟨0xA00110, [(0x20, 8)], 0x0, [⟨31, 0, .rw, []⟩]⟩,
  ⟨0xA00114, [(0x20, 8)], 0x0, [⟨31, 0, .rw, []⟩]⟩,
  ⟨0xA00200, [(0x10, 4)], 0x0, [⟨31, 31, .rw, []⟩, ⟨27, 16, .rw, [(0, 0), (4095, 4095)]⟩, ⟨8, 8, .rw, []⟩, ⟨2, 0, .rw, []⟩]⟩,
  ⟨0xA00204, [(0x10, 4)], 0x0, [⟨31, 0, .rw, []⟩]⟩,
  ⟨0xA00208, [(0x10, 4)], 0x0, [⟨31, 0, .rw, []⟩]⟩,
  ⟨0xA0020C, [(0x10, 4)], 0x0, [⟨31, 16, .rw, []⟩, ⟨15, 0, .rw, []⟩]⟩,
  ⟨0xA00300, [(0x4, 8)], 0x0, [⟨3, 3, .rw, []⟩, ⟨2, 0, .rw, []⟩, ⟨7, 7, .rw, []⟩, ⟨6, 4, .rw, []⟩, ⟨11, 11, .rw, []⟩, ⟨10, 8, .rw, []⟩, ⟨15, 15, .rw, []⟩, ⟨14, 12, .rw, []⟩, ⟨19, 19, .rw, []⟩, ⟨18, 16, .rw, []⟩, ⟨23, 23, .rw, []⟩, ⟨22, 20, .rw, []⟩, ⟨27, 27, .rw, []⟩, ⟨26, 24, .rw, []⟩, ⟨31, 31, .rw, []⟩, ⟨30, 28, .rw, []⟩]⟩,
  ⟨0xA00320, [], 0xFAC688, [⟨2, 0, .rw, []⟩, ⟨5, 3, .rw, []⟩, ⟨8, 6, .rw, []⟩, ⟨11, 9, .rw, []⟩, ⟨14, 12, .rw, []⟩, ⟨17, 15, .rw, []⟩, ⟨20, 18, .rw, []⟩, ⟨23, 21, .rw, []⟩]⟩,
  ⟨0xA00324, [], 0x88189000, [⟨3, 0, .rw, [(10, 15)]⟩, ⟨7, 4, .rw, [(10, 15)]⟩, ⟨11, 8, .rw, [(10, 15)]⟩, ⟨15, 12, .rw, [(10, 15)]⟩, ⟨19, 16, .rw, [(10, 15)]⟩, ⟨23, 20, .rw, [(10, 15)]⟩, ⟨27, 24, .rw, [(10, 15)]⟩, ⟨31, 28, .rw, [(10, 15)]⟩]⟩,
  ⟨0xA00328, [], 0x992, [⟨3, 0, .rw, [(10, 15)]⟩, ⟨7, 4, .rw, [(10, 15)]⟩, ⟨11, 8, .rw, [(10, 15)]⟩]⟩,
  ⟨0xA0032C, [], 0x0, [⟨7, 0, .rw, []⟩]⟩,
  ⟨0xA00400, [], 0xC00007D0, [⟨31, 24, .rw, []⟩, ⟨11, 0, .rw, [(0, 0), (2001, 4095)]⟩]⟩,
  ⟨0xA00404, [], 0x0, [⟨31, 16, .ro, []⟩, ⟨13, 8, .ro, []⟩, ⟨3, 0, .ro, []⟩]⟩]

/-- Descriptions, Forwarding registers (10_forwarding.md R292), part 2. -/
def regsFwd1 : List RegDesc := [
  ⟨0xA00410, [(0x4, 4)], 0x0, [⟨31, 0, .rw, []⟩]⟩,
  ⟨0xA00420, [(0x4, 4)], 0x0, [⟨31, 0, .rw, []⟩]⟩,
  ⟨0xA00500, [], 0x0, [⟨8, 8, .rw, []⟩, ⟨7, 4, .rw, []⟩, ⟨2, 0, .rw, []⟩]⟩,
  ⟨0xA00504, [], 0x0, [⟨24, 0, .ro, []⟩]⟩,
  ⟨0xA00508, [], 0x0, [⟨16, 0, .ro, []⟩]⟩,
  ⟨0xA0050C, [], 0x0, [⟨31, 16, .ro, []⟩, ⟨15, 0, .ro, []⟩]⟩,
  ⟨0xA00600, [], 0x0, [⟨31, 0, .ro, []⟩]⟩,
  ⟨0xA00604, [], 0x0, [⟨31, 0, .ro, []⟩]⟩,
  ⟨0xA00608, [], 0x0, [⟨31, 0, .ro, []⟩]⟩,
  ⟨0xA0060C, [], 0x0, [⟨31, 16, .ro, []⟩, ⟨15, 0, .ro, []⟩]⟩,
  ⟨0xA00610, [], 0x0, [⟨31, 16, .ro, []⟩, ⟨15, 0, .ro, []⟩]⟩,
  ⟨0xA00614, [], 0x0, [⟨31, 24, .ro, []⟩, ⟨23, 16, .ro, []⟩, ⟨15, 8, .ro, []⟩, ⟨7, 0, .ro, []⟩]⟩,
  ⟨0xA00618, [], 0x0, [⟨31, 16, .ro, []⟩, ⟨15, 0, .ro, []⟩]⟩]

/-- Descriptions, Forwarding registers (10_forwarding.md R292). -/
def regsFwd : List RegDesc := regsFwd0 ++ regsFwd1

/-- Descriptions, Time registers (11_time.md R325, R326), part 1. -/
def regsTim0 : List RegDesc := [
  ⟨0xB00000, [], 0x1, [⟨1, 1, .w1s, []⟩, ⟨0, 0, .rw, []⟩]⟩,
  ⟨0xB00004, [], 0x70000, [⟨18, 16, .ro, []⟩, ⟨12, 12, .ro, []⟩, ⟨11, 11, .ro, []⟩, ⟨10, 10, .ro, []⟩, ⟨9, 9, .ro, []⟩, ⟨8, 8, .ro, []⟩, ⟨7, 0, .ro, []⟩]⟩,
  ⟨0xB00008, [], 0x0, [⟨1, 1, .rw, []⟩, ⟨0, 0, .rw, []⟩]⟩,
  ⟨0xB0000C, [], 0x33C001F, [⟨27, 24, .rw, [(0, 0)]⟩, ⟨23, 16, .rw, [(0, 15)]⟩, ⟨4, 0, .rw, []⟩]⟩,
  ⟨0xB00010, [], 0x0, [⟨31, 0, .rw, []⟩]⟩,
  ⟨0xB00014, [], 0x0, [⟨31, 0, .rw, []⟩]⟩,
  ⟨0xB00018, [], 0x0, [⟨31, 0, .ro, []⟩]⟩,
  ⟨0xB00020, [], 0x0, [⟨2, 0, .rw, []⟩]⟩,
  ⟨0xB00024, [], 0x60212, [⟨20, 16, .rw, []⟩, ⟨12, 8, .rw, []⟩, ⟨4, 4, .rw, []⟩, ⟨2, 2, .w1s, []⟩, ⟨1, 1, .rw, []⟩]⟩,
  ⟨0xB00028, [], 0x5000000, [⟨31, 24, .ro, []⟩, ⟨23, 16, .ro, []⟩, ⟨15, 8, .ro, []⟩, ⟨2, 2, .ro, []⟩, ⟨1, 1, .ro, []⟩, ⟨0, 0, .ro, []⟩]⟩,
  ⟨0xB0002C, [], 0x0, [⟨31, 0, .rw, []⟩]⟩,
  ⟨0xB00030, [], 0x0, [⟨31, 0, .rw, []⟩]⟩,
  ⟨0xB00034, [], 0x0, [⟨31, 0, .rw, []⟩]⟩,
  ⟨0xB00038, [], 0x0, [⟨31, 0, .wo, []⟩]⟩,
  ⟨0xB0003C, [], 0x0, [⟨31, 0, .ro, []⟩]⟩,
  ⟨0xB00040, [], 0x3E8, [⟨23, 0, .rw, [(0, 0)]⟩]⟩,
  ⟨0xB00044, [], 0x0, [⟨31, 0, .wo, []⟩]⟩,
  ⟨0xB00048, [], 0x0, [⟨31, 0, .wo, []⟩]⟩,
  ⟨0xB00050, [], 0x641400, [⟨31, 31, .rw, []⟩, ⟨30, 28, .rw, []⟩, ⟨25, 16, .rw, [(0, 0), (501, 1023)]⟩, ⟨15, 8, .rw, [(0, 0)]⟩]⟩,
  ⟨0xB00054, [], 0x0, [⟨31, 24, .ro, []⟩, ⟨23, 16, .ro, []⟩, ⟨15, 8, .ro, []⟩, ⟨1, 1, .ro, []⟩, ⟨0, 0, .ro, []⟩]⟩]

/-- Descriptions, Time registers (11_time.md R325, R326), part 2. -/
def regsTim1 : List RegDesc := [
  ⟨0xB00058, [], 0x25, [⟨17, 16, .rw, [(3, 3)]⟩, ⟨7, 0, .rw, []⟩]⟩,
  ⟨0xB00060, [(0x8, 8)], 0x0, [⟨31, 0, .rw, []⟩]⟩,
  ⟨0xB00064, [(0x8, 8)], 0x0, [⟨31, 0, .rw, []⟩]⟩,
  ⟨0xB000A0, [(0x4, 4)], 0x0, [⟨31, 16, .rw, []⟩, ⟨15, 0, .rw, []⟩]⟩,
  ⟨0xB000B0, [], 0x0, [⟨31, 16, .ro, []⟩, ⟨15, 0, .ro, []⟩]⟩,
  ⟨0xB000B4, [], 0x0, [⟨31, 16, .ro, []⟩, ⟨15, 0, .ro, []⟩]⟩,
  ⟨0xB00200, [(0x20, 8)], 0x0, [⟨31, 0, .ro, []⟩]⟩,
  ⟨0xB00204, [(0x20, 8)], 0x0, [⟨31, 0, .ro, []⟩]⟩,
  ⟨0xB00208, [(0x20, 8)], 0x0, [⟨31, 0, .ro, []⟩]⟩,
  ⟨0xB0020C, [(0x20, 8)], 0x0, [⟨31, 16, .ro, []⟩, ⟨15, 0, .ro, []⟩]⟩,
  ⟨0xB00210, [(0x20, 8)], 0x0, [⟨31, 0, .ro, []⟩]⟩,
  ⟨0x100100, [], 0x0, [⟨31, 0, .ro, []⟩]⟩,
  ⟨0x100104, [], 0x0, [⟨30, 16, .ro, []⟩, ⟨15, 0, .ro, []⟩]⟩,
  ⟨0x100108, [], 0x0, [⟨31, 0, .rw, []⟩]⟩,
  ⟨0x10010C, [], 0x1, [⟨2, 2, .ro, []⟩, ⟨1, 1, .w1c, []⟩, ⟨0, 0, .w1c, []⟩]⟩,
  ⟨0x100110, [], 0x0, [⟨31, 0, .ro, []⟩]⟩,
  ⟨0x100114, [], 0x0, [⟨31, 0, .ro, []⟩]⟩,
  ⟨0x100118, [], 0x0, [⟨31, 0, .ro, []⟩]⟩]

/-- Descriptions, Time registers (11_time.md R325, R326). -/
def regsTim : List RegDesc := regsTim0 ++ regsTim1

/-- Descriptions, Security registers (12_keys_and_frame_security.md R373), part 1. -/
def regsSec0 : List RegDesc := [
  ⟨0xC00000, [], 0x0, [⟨0, 0, .w1s, []⟩]⟩,
  ⟨0xC00004, [], 0x0, [⟨31, 24, .ro, []⟩, ⟨23, 20, .ro, []⟩, ⟨10, 10, .ro, []⟩, ⟨9, 9, .ro, []⟩, ⟨8, 8, .ro, []⟩, ⟨2, 0, .ro, []⟩]⟩,
  ⟨0xC00010, [(0x4, 4)], 0, [⟨31, 0, .ro, []⟩]⟩,
  ⟨0xC00020, [], 0x0, [⟨31, 0, .ro, []⟩]⟩,
  ⟨0xC00024, [], 0x0, [⟨31, 0, .ro, []⟩]⟩,
  ⟨0xC00030, [], 0x0, [⟨7, 0, .wo, []⟩]⟩,
  ⟨0xC00034, [], 0x0, [⟨8, 8, .ro, []⟩, ⟨7, 0, .ro, []⟩]⟩,
  ⟨0xC00040, [(0x4, 16)], 0x0, [⟨31, 0, .rw, []⟩]⟩,
  ⟨0xC00080, [(0x4, 32)], 0x0, [⟨31, 0, .ro, []⟩]⟩,
  ⟨0xC00100, [], 0x0, [⟨6, 0, .rw, []⟩]⟩,
  ⟨0xC00104, [], 0x0, [⟨11, 8, .ro, []⟩, ⟨4, 4, .ro, []⟩, ⟨2, 0, .ro, []⟩]⟩,
  ⟨0xC00108, [], 0x0, [⟨31, 0, .ro, []⟩]⟩,
  ⟨0xC0010C, [], 0x0, [⟨31, 0, .ro, []⟩]⟩,
  ⟨0xC00180, [(0x10, 8)], 0xE000507F, [⟨31, 24, .rw, []⟩, ⟨23, 16, .rw, []⟩, ⟨14, 12, .rw, [(0, 0), (4, 4)]⟩, ⟨6, 0, .rw, []⟩]⟩,
  ⟨0xC00184, [(0x10, 8)], 0x7F7F, [⟨31, 31, .ro, []⟩, ⟨30, 30, .ro, []⟩, ⟨14, 8, .ro, []⟩, ⟨6, 0, .ro, []⟩]⟩,
  ⟨0xC00188, [(0x10, 8)], 0x0, [⟨19, 0, .ro, []⟩]⟩,
  ⟨0xC0018C, [(0x10, 8)], 0x0, [⟨31, 0, .ro, []⟩]⟩,
  ⟨0xC00200, [], 0x0, [⟨31, 16, .ro, []⟩, ⟨15, 0, .ro, []⟩]⟩,
  ⟨0xC00204, [], 0x0, [⟨31, 16, .ro, []⟩, ⟨15, 0, .ro, []⟩]⟩,
  ⟨0xC00208, [], 0x0, [⟨31, 0, .ro, []⟩]⟩]

/-- Descriptions, Security registers (12_keys_and_frame_security.md R373), part 2. -/
def regsSec1 : List RegDesc := [
  ⟨0xC0020C, [], 0x0, [⟨31, 16, .ro, []⟩, ⟨15, 0, .ro, []⟩]⟩,
  ⟨0xC00210, [], 0x0, [⟨23, 16, .ro, []⟩, ⟨7, 0, .w1c, []⟩]⟩,
  ⟨0xC00214, [], 0, [⟨15, 8, .ro, []⟩, ⟨7, 0, .ro, []⟩]⟩,
  ⟨0xC00220, [], 0x0, [⟨5, 0, .rw, []⟩]⟩,
  ⟨0xC00224, [], 0x0, [⟨31, 0, .ro, []⟩]⟩,
  ⟨0xC00228, [], 0x0, [⟨31, 16, .ro, []⟩, ⟨15, 8, .ro, []⟩, ⟨7, 4, .ro, []⟩, ⟨3, 0, .ro, []⟩]⟩,
  ⟨0xC00300, [(0x30, 8), (0x4, 12)], 0x0, [⟨31, 0, .ro, []⟩]⟩,
  ⟨0xC00500, [(0x4, 24)], 0, [⟨31, 0, .ro, []⟩]⟩]

/-- Descriptions, Security registers (12_keys_and_frame_security.md R373). -/
def regsSec : List RegDesc := regsSec0 ++ regsSec1

/-- Descriptions, Campaign registers (13_node_campaigns.md R388). -/
def regsCmp : List RegDesc := [
  ⟨0xD00000, [], 0x1, [⟨1, 1, .w1s, []⟩, ⟨0, 0, .rw, []⟩]⟩,
  ⟨0xD00004, [], 0x0, [⟨31, 16, .ro, []⟩, ⟨4, 0, .ro, []⟩]⟩,
  ⟨0xD00008, [], 0x0, [⟨23, 0, .rw, []⟩]⟩,
  ⟨0xD00010, [], 0x0, [⟨31, 0, .rw, []⟩]⟩,
  ⟨0xD00014, [], 0x0, [⟨31, 0, .rw, []⟩]⟩,
  ⟨0xD00018, [], 0x0, [⟨15, 8, .wo, []⟩, ⟨4, 4, .wo, []⟩, ⟨3, 0, .wo, []⟩]⟩,
  ⟨0xD0001C, [], 0x0, [⟨8, 8, .ro, []⟩, ⟨7, 0, .ro, []⟩]⟩,
  ⟨0xD00020, [(0x4, 8)], 0x0, [⟨31, 0, .rw, []⟩]⟩,
  ⟨0xD00040, [], 0x0, [⟨7, 0, .rw, []⟩]⟩,
  ⟨0xD00044, [], 0x0, [⟨26, 24, .ro, []⟩, ⟨11, 0, .ro, []⟩]⟩,
  ⟨0xD00048, [], 0x0, [⟨31, 0, .ro, []⟩]⟩,
  ⟨0xD0004C, [], 0x0, [⟨31, 16, .ro, []⟩, ⟨15, 0, .ro, []⟩]⟩,
  ⟨0xD00050, [], 0x0, [⟨31, 0, .ro, []⟩]⟩,
  ⟨0xD00054, [], 0x0, [⟨31, 16, .ro, []⟩, ⟨15, 0, .ro, []⟩]⟩]

/-- Descriptions, Start and update registers (14_start_and_self_update.md R417). -/
def regsBoot : List RegDesc := [
  ⟨0x1000, [], 0x0, [⟨30, 24, .ro, []⟩, ⟨17, 16, .ro, []⟩, ⟨15, 14, .ro, []⟩, ⟨13, 13, .ro, []⟩, ⟨12, 12, .ro, []⟩, ⟨11, 11, .ro, []⟩, ⟨10, 10, .ro, []⟩, ⟨9, 9, .ro, []⟩, ⟨8, 8, .ro, []⟩, ⟨4, 2, .ro, []⟩, ⟨1, 0, .ro, []⟩]⟩,
  ⟨0x1004, [], 0x0, [⟨7, 0, .wo, []⟩]⟩,
  ⟨0x1008, [], 0x0, [⟨31, 24, .ro, []⟩, ⟨8, 8, .ro, []⟩, ⟨7, 0, .ro, []⟩]⟩,
  ⟨0x1010, [(0x4, 8)], 0x0, [⟨31, 0, .rw, []⟩]⟩,
  ⟨0x1030, [], 0x0, [⟨31, 0, .ro, []⟩]⟩,
  ⟨0x1034, [], 0x0, [⟨31, 0, .ro, []⟩]⟩,
  ⟨0x1038, [], 0x0, [⟨31, 0, .ro, []⟩]⟩,
  ⟨0x1040, [], 0x0, [⟨31, 0, .ro, []⟩]⟩,
  ⟨0x1044, [], 0x0, [⟨31, 0, .ro, []⟩]⟩,
  ⟨0x1048, [], 0x0, [⟨31, 0, .ro, []⟩]⟩,
  ⟨0x1050, [], 0xE100258, [⟨31, 16, .rw, [(0, 599)]⟩, ⟨9, 0, .rw, [(0, 59), (601, 1023)]⟩]⟩,
  ⟨0x1054, [], 0x0, [⟨31, 16, .ro, []⟩, ⟨2, 2, .ro, []⟩, ⟨1, 1, .ro, []⟩, ⟨0, 0, .ro, []⟩]⟩,
  ⟨0x1058, [], 0x0, [⟨31, 16, .ro, []⟩, ⟨15, 0, .ro, []⟩]⟩]

/-- Descriptions, Resilience registers (15_resilience.md R445), part 1. -/
def regsRes0 : List RegDesc := [
  ⟨0xE00000, [], 0x7, [⟨3, 3, .w1s, []⟩, ⟨2, 2, .rw, []⟩, ⟨1, 1, .rw, []⟩, ⟨0, 0, .rw, []⟩]⟩,
  ⟨0xE00004, [], 0x0, [⟨8, 8, .ro, []⟩, ⟨1, 1, .ro, []⟩, ⟨0, 0, .ro, []⟩]⟩,
  ⟨0xE00008, [], 0x0, [⟨31, 24, .ro, []⟩, ⟨20, 20, .ro, []⟩, ⟨19, 16, .ro, []⟩, ⟨15, 8, .ro, []⟩, ⟨4, 4, .ro, []⟩, ⟨3, 0, .ro, []⟩]⟩,
  ⟨0xE0000C, [], 0x0, [⟨8, 8, .w1s, []⟩, ⟨4, 4, .w1s, []⟩, ⟨0, 0, .rw, []⟩]⟩,
  ⟨0xE00010, [], 0x0, [⟨31, 16, .ro, []⟩, ⟨15, 0, .ro, []⟩]⟩,
  ⟨0xE00014, [], 0x0, [⟨15, 8, .ro, []⟩, ⟨7, 0, .ro, []⟩]⟩,
  ⟨0xE00018, [], 0x0, [⟨7, 0, .ro, []⟩]⟩,
  ⟨0xE0001C, [], 0x0, [⟨31, 0, .ro, []⟩]⟩,
  ⟨0xE00020, [], 0x1F40032, [⟨25, 16, .rw, [(0, 9), (1001, 1023)]⟩, ⟨9, 0, .rw, [(0, 9), (1001, 1023)]⟩]⟩,
  ⟨0xE00024, [], 0x0, [⟨29, 24, .ro, []⟩, ⟨21, 16, .ro, []⟩, ⟨1, 1, .ro, []⟩, ⟨0, 0, .ro, []⟩]⟩,
  ⟨0xE00028, [], 0x0, [⟨31, 16, .ro, []⟩, ⟨15, 0, .ro, []⟩]⟩,
  ⟨0xE0002C, [], 0x0, [⟨31, 16, .ro, []⟩, ⟨15, 8, .ro, []⟩, ⟨7, 0, .ro, []⟩]⟩,
  ⟨0xE00030, [], 0x0, [⟨24, 16, .ro, []⟩, ⟨14, 12, .ro, []⟩, ⟨10, 8, .ro, []⟩, ⟨1, 0, .ro, []⟩]⟩,
  ⟨0xE00040, [], 0x0, [⟨31, 31, .wo, []⟩, ⟨27, 24, .wo, []⟩, ⟨15, 0, .wo, []⟩]⟩,
  ⟨0xE00044, [], 0x0, [⟨17, 16, .ro, []⟩, ⟨8, 8, .ro, []⟩, ⟨7, 0, .ro, []⟩]⟩,
  ⟨0xE00050, [], 0x0, [⟨3, 0, .wo, []⟩]⟩,
  ⟨0xE00054, [], 0x0, [⟨31, 0, .rw, []⟩]⟩,
  ⟨0xE00058, [], 0x0, [⟨8, 8, .ro, []⟩, ⟨7, 0, .ro, []⟩]⟩,
  ⟨0xE00060, [], 0x0, [⟨31, 0, .ro, []⟩]⟩,
  ⟨0xE00064, [], 0x0, [⟨31, 24, .ro, []⟩, ⟨23, 16, .ro, []⟩, ⟨15, 15, .ro, []⟩, ⟨14, 14, .ro, []⟩, ⟨13, 13, .ro, []⟩, ⟨9, 0, .ro, []⟩]⟩]

/-- Descriptions, Resilience registers (15_resilience.md R445), part 2. -/
def regsRes1 : List RegDesc := [
  ⟨0xE00068, [], 0x0, [⟨31, 0, .rw, []⟩]⟩,
  ⟨0xE00080, [(0x4, 8)], 0x0, [⟨31, 0, .ro, []⟩]⟩,
  ⟨0xE00100, [], 0x0, [⟨15, 0, .rw, []⟩]⟩,
  ⟨0xE00110, [(0x4, 4)], 0x0, [⟨31, 0, .wo, []⟩]⟩,
  ⟨0xE00120, [], 0x0, [⟨15, 0, .wo, []⟩]⟩,
  ⟨0xE00124, [], 0x0, [⟨31, 24, .wo, []⟩, ⟨23, 16, .wo, []⟩, ⟨15, 0, .wo, []⟩]⟩]

/-- Descriptions, Resilience registers (15_resilience.md R445). -/
def regsRes : List RegDesc := regsRes0 ++ regsRes1

/-- Descriptions, Telemetry registers (16_telemetry.md R460), part 1. -/
def regsTel0 : List RegDesc := [
  ⟨0xF80000, [], 0x3, [⟨2, 2, .w1s, []⟩, ⟨1, 1, .rw, []⟩, ⟨0, 0, .rw, []⟩]⟩,
  ⟨0xF80004, [], 0x0, [⟨25, 16, .ro, []⟩, ⟨0, 0, .ro, []⟩]⟩,
  ⟨0xF80008, [], 0x10, [⟨15, 0, .rw, [(0, 1)]⟩]⟩,
  ⟨0xF8000C, [], 0x3C001F, [⟨31, 16, .rw, [(3601, 65535)]⟩, ⟨12, 8, .rw, []⟩, ⟨4, 0, .rw, []⟩]⟩,
  ⟨0xF80010, [(0x4, 8)], 0x0, [⟨31, 0, .w1c, []⟩]⟩,
  ⟨0xF80030, [(0x4, 8)], 0xFFFFFFFF, [⟨31, 0, .rw, []⟩]⟩,
  ⟨0xF80050, [(0x4, 8)], 0x0, [⟨31, 0, .w1c, []⟩]⟩,
  ⟨0xF80070, [], 0x0, [⟨8, 0, .rw, []⟩]⟩,
  ⟨0xF80074, [(0x4, 4)], 0x0, [⟨31, 0, .ro, []⟩]⟩,
  ⟨0xF80084, [], 0x0, [⟨31, 16, .wo, []⟩, ⟨8, 0, .wo, []⟩]⟩,
  ⟨0xF80088, [], 0x0, [⟨18, 16, .wo, []⟩, ⟨15, 0, .wo, []⟩]⟩,
  ⟨0xF80090, [], 0x0, [⟨31, 0, .ro, []⟩]⟩,
  ⟨0xF80094, [], 0x0, [⟨14, 0, .ro, []⟩]⟩,
  ⟨0xF80098, [], 0x0, [⟨31, 0, .ro, []⟩]⟩,
  ⟨0xF800A0, [], 0x0, [⟨31, 0, .rw, []⟩]⟩,
  ⟨0xF800A4, [], 0x0, [⟨31, 0, .rw, []⟩]⟩,
  ⟨0xF800A8, [], 0x60000, [⟨20, 16, .rw, [(0, 5), (17, 31)]⟩, ⟨12, 8, .rw, []⟩, ⟨0, 0, .rw, []⟩]⟩,
  ⟨0xF800AC, [], 0x0, [⟨15, 0, .ro, []⟩]⟩,
  ⟨0xF800B0, [], 0x0, [⟨15, 0, .rw, []⟩]⟩,
  ⟨0xF800C0, [], 0x0, [⟨31, 31, .rw, []⟩, ⟨29, 24, .rw, []⟩, ⟨19, 16, .rw, []⟩, ⟨15, 0, .rw, []⟩]⟩]

/-- Descriptions, Telemetry registers (16_telemetry.md R460), part 2. -/
def regsTel1 : List RegDesc := [
  ⟨0xF800C4, [], 0x3E8, [⟨13, 0, .rw, [(0, 0), (10001, 16383)]⟩]⟩,
  ⟨0xF800D0, [(0x4, 4)], 0x0, [⟨31, 0, .rw, []⟩]⟩,
  ⟨0xF80100, [(0x8, 2)], 0x0, [⟨31, 16, .ro, []⟩, ⟨15, 0, .ro, []⟩]⟩,
  ⟨0xF80104, [(0x8, 2)], 0x0, [⟨31, 16, .ro, []⟩, ⟨15, 0, .ro, []⟩]⟩,
  ⟨0xF80200, [(0x4, 64)], 0x0, [⟨31, 31, .rw, []⟩, ⟨23, 0, .rw, []⟩]⟩]

/-- Descriptions, Telemetry registers (16_telemetry.md R460). -/
def regsTel : List RegDesc := regsTel0 ++ regsTel1

/-- Descriptions, Identity and host interface registers (17_host_interface.md R482), part 1. -/
def regsHif0 : List RegDesc := [
  ⟨0x0, [], 0x72601F3C, [⟨31, 16, .ro, []⟩, ⟨15, 0, .ro, []⟩]⟩,
  ⟨0x4, [], 0, [⟨15, 8, .ro, []⟩, ⟨7, 0, .ro, []⟩]⟩,
  ⟨0x8, [], 0x0, [⟨31, 0, .rw, []⟩]⟩,
  ⟨0xF00000, [], 0x0, [⟨0, 0, .w1s, []⟩]⟩,
  ⟨0xF00004, [], 0x0, [⟨18, 16, .ro, []⟩, ⟨11, 8, .ro, []⟩, ⟨0, 0, .ro, []⟩]⟩,
  ⟨0xF00008, [], 0x0, [⟨31, 24, .ro, []⟩, ⟨23, 16, .ro, []⟩, ⟨15, 8, .ro, []⟩, ⟨7, 0, .ro, []⟩]⟩,
  ⟨0xF0000C, [], 0x0, [⟨31, 31, .ro, []⟩, ⟨27, 0, .ro, []⟩]⟩,
  ⟨0xF00010, [], 0x0, [⟨31, 0, .rw, []⟩]⟩,
  ⟨0xF00014, [], 0x0, [⟨31, 0, .rw, []⟩]⟩,
  ⟨0xF00018, [], 0x0, [⟨31, 0, .rw, []⟩]⟩,
  ⟨0xF0001C, [], 0x0, [⟨31, 0, .rw, []⟩]⟩,
  ⟨0xF00020, [], 0xC, [⟨16, 16, .rw, []⟩, ⟨12, 8, .rw, []⟩, ⟨3, 0, .rw, [(0, 5), (13, 15)]⟩]⟩,
  ⟨0xF00024, [], 0x0, [⟨11, 0, .rw, []⟩]⟩,
  ⟨0xF00028, [], 0x0, [⟨11, 0, .ro, []⟩]⟩,
  ⟨0xF0002C, [], 0x0, [⟨11, 0, .rw, []⟩]⟩,
  ⟨0xF00030, [], 0x10000, [⟨16, 16, .ro, []⟩, ⟨11, 0, .ro, []⟩]⟩,
  ⟨0xF00034, [], 0x0, [⟨31, 24, .ro, []⟩, ⟨23, 16, .ro, []⟩, ⟨2, 2, .ro, []⟩, ⟨1, 0, .ro, []⟩]⟩,
  ⟨0xF00080, [], 0x0, [⟨31, 31, .rw, []⟩, ⟨27, 16, .rw, [(4095, 4095)]⟩, ⟨3, 0, .rw, []⟩]⟩,
  ⟨0xF00084, [], 0x0, [⟨15, 0, .rw, []⟩]⟩,
  ⟨0xF00088, [], 0x0, [⟨7, 0, .rw, []⟩]⟩]

/-- Descriptions, Identity and host interface registers (17_host_interface.md R482), part 2. -/
def regsHif1 : List RegDesc := [
  ⟨0xF0008C, [], 0x0, [⟨31, 0, .wo, []⟩]⟩,
  ⟨0xF00090, [], 0x0, [⟨17, 16, .rw, []⟩, ⟨10, 0, .rw, [(0, 59), (1519, 2047)]⟩]⟩,
  ⟨0xF00094, [], 0x0, [⟨31, 0, .wo, []⟩]⟩,
  ⟨0xF00098, [], 0x0, [⟨31, 16, .ro, []⟩, ⟨15, 0, .ro, []⟩]⟩,
  ⟨0xF000A0, [(0x4, 4)], 0x0, [⟨31, 0, .rw, []⟩]⟩,
  ⟨0xF00100, [], 0x0, [⟨31, 0, .ro, []⟩]⟩,
  ⟨0xF00104, [], 0x0, [⟨31, 0, .ro, []⟩]⟩,
  ⟨0xF01000, [(0x40, 8)], 0x0, [⟨31, 0, .rw, []⟩]⟩,
  ⟨0xF01004, [(0x40, 8)], 0x0, [⟨31, 0, .rw, []⟩]⟩,
  ⟨0xF01008, [(0x40, 8)], 0, [⟨16, 16, .rw, []⟩, ⟨12, 8, .rw, []⟩, ⟨3, 0, .rw, [(0, 3), (13, 15)]⟩]⟩,
  ⟨0xF0100C, [(0x40, 8)], 0x0, [⟨11, 0, .rw, []⟩]⟩,
  ⟨0xF01010, [(0x40, 8)], 0x0, [⟨11, 0, .ro, []⟩]⟩,
  ⟨0xF01014, [(0x40, 8)], 0x0, [⟨31, 0, .rw, []⟩]⟩,
  ⟨0xF01018, [(0x40, 8)], 0x0, [⟨31, 0, .rw, []⟩]⟩,
  ⟨0xF0101C, [(0x40, 8)], 0, [⟨16, 16, .rw, []⟩, ⟨12, 8, .rw, []⟩, ⟨3, 0, .rw, [(0, 3), (13, 15)]⟩]⟩,
  ⟨0xF01020, [(0x40, 8)], 0x0, [⟨11, 0, .rw, []⟩]⟩,
  ⟨0xF01024, [(0x40, 8)], 0x0, [⟨11, 0, .ro, []⟩]⟩,
  ⟨0xF01028, [(0x40, 8)], 0x0, [⟨31, 16, .ro, []⟩, ⟨15, 8, .ro, []⟩, ⟨7, 0, .ro, []⟩]⟩,
  ⟨0xF08000, [(0x10, 32), (0x4, 4)], 0, [⟨31, 0, .rw, []⟩]⟩,
  ⟨0xF09000, [], 0x0, [⟨31, 0, .ro, []⟩]⟩]

/-- Descriptions, Identity and host interface registers (17_host_interface.md R482). -/
def regsHif : List RegDesc := regsHif0 ++ regsHif1

/-- The descriptions of the 1 MiB window an address lies in (Table HOST-3). -/
def regsOfWindow (w : Nat) : List RegDesc :=
  match w with
  | 0 => regsHif ++ regsBoot
  | 1 => regsHc ++ regsTim
  | 2 => regsBld
  | 3 => regsDsp
  | 4 => regsYl
  | 5 => regsHc
  | 6 => regsRx
  | 7 => regsTx
  | 8 => regsTs
  | 9 => regsTbl
  | 10 => regsFwd
  | 11 => regsTim
  | 12 => regsSec
  | 13 => regsCmp
  | 14 => regsRes
  | 15 => regsHif ++ regsTel
  | _ => []

/-- Index of `off` in an array of `count` places `stride` apart, and what is left. -/
def RegDesc.place : List (Nat × Nat) → Nat → Option (List Nat)
  | [], off => if off = 0 then some [] else none
  | (stride, count) :: ds, off =>
    if off / stride < count then (RegDesc.place ds (off % stride)).map (off / stride :: ·) else none

/-- The array indices under which a description covers an address; `none` when it does not. -/
def RegDesc.covers (d : RegDesc) (a : Nat) : Option (List Nat) :=
  if d.base ≤ a then RegDesc.place d.dims (a - d.base) else none

/-- The description of the register at an address and its array indices; `none` for an unassigned offset (R7). -/
def findReg (a : Nat) : Option (RegDesc × List Nat) :=
  (regsOfWindow (a / 0x100000)).findSome? fun d => (d.covers a).map fun ix => (d, ix)

/-- The 64 points of the reset ramp: point k is round(32,768 × (1 − cos(π × (k + 1) / 64)) / 2) (R191), evaluated. -/
def rampTable : List Nat :=
  [20, 79, 177, 315, 491, 705, 958, 1247, 1573, 1935, 2331, 2761, 3224, 3719, 4244, 4799] ++
  [5381, 5990, 6624, 7282, 7961, 8661, 9379, 10114, 10864, 11628, 12403, 13188, 13980, 14778, 15580, 16384] ++
  [17188, 17990, 18788, 19580, 20365, 21140, 21904, 22654, 23389, 24107, 24807, 25486, 26144, 26778, 27387, 27969] ++
  [28524, 29049, 29544, 30007, 30437, 30833, 31195, 31521, 31810, 32063, 32277, 32453, 32591, 32689, 32748, 32768]

/-- Point k of a reset ramp profile (R191). -/
def rampPoint (k : Nat) : Nat := rampTable.getD k 0x8000

/-- The value of a register after reset, for the tables' regular and irregular entries
(TX_RAMP_LENp 4 × 2^p; TX_RAMP_PTp_m under R191; HIF_FRr CFG r + 1 and 4; the MSI-X mask bit PCI Express gives). -/
def regReset (a : Nat) : Word :=
  match findReg a with
  | none => 0
  | some (d, ix) =>
    if d.base = TX_RAMP_LENp 0 then BitVec.ofNat 32 (4 * 2 ^ (ix.getD 0 0))
    else if d.base = TX_RAMP_PTp_m 0 0 then
      BitVec.ofNat 32 (rampPoint (2 * ix.getD 1 0) + 65536 * rampPoint (2 * ix.getD 1 0 + 1))
    else if d.base = HIF_FRr_UP_CFG 0 ∨ d.base = HIF_FRr_DN_CFG 0 then
      BitVec.ofNat 32 ((ix.getD 0 0 + 1) * 256 + 4)
    else if d.base = MSIX_TABLE 0 0 then (if ix.getD 1 0 = 3 then 1 else 0)
    else BitVec.ofNat 32 d.reset

end Sys2Proof.Machine
end

