-- ==== Sys2Proof/Machine/Bytes.lean ====
section
/-! DEFINITION. Bit fields, little-endian byte strings, cyclic redundancy checks, sparse tables and byte memory:
the plain-data helpers every block's rules are written with. -/

namespace Sys2Proof.Machine

/-- Bits hi..lo of a word as a number (Notation: "a field is written [high:low]"). -/
def getBits (w : Word) (hi lo : Nat) : Nat := (w.toNat >>> lo) % 2 ^ (hi + 1 - lo)

/-- The word with ones at bits hi..lo. -/
def bitMask (hi lo : Nat) : Word := BitVec.ofNat 32 ((2 ^ (hi + 1 - lo) - 1) <<< lo)

/-- A word with bits hi..lo replaced by the low bits of `v`, its other bits kept. -/
def setBits (w : Word) (hi lo v : Nat) : Word :=
  (w &&& ~~~ bitMask hi lo) ||| BitVec.ofNat 32 ((v % 2 ^ (hi + 1 - lo)) <<< lo)

/-- Bit `k` of a number. -/
def nbit (n k : Nat) : Bool := n.testBit k

/-- Bits hi..lo of a number. -/
def nbits (n hi lo : Nat) : Nat := (n >>> lo) % 2 ^ (hi + 1 - lo)

/-- A flag as a number: 1 for true. -/
def b2n (b : Bool) : Nat := if b then 1 else 0

/-- The `n` low bytes of `v`, lowest first (R3: little-endian). -/
def le : Nat → Nat → List Byte
  | 0, _ => []
  | n + 1, v => BitVec.ofNat 8 v :: le n (v / 256)

/-- The number that bytes spell, lowest first. -/
def unle : List Byte → Nat
  | [] => 0
  | b :: bs => b.toNat + 256 * unle bs

/-- The number that bytes spell, highest first (network order). -/
def unbe (bs : List Byte) : Nat := bs.foldl (fun a b => a * 256 + b.toNat) 0

/-- The `n` low bytes of `v`, highest first (network order). -/
def be (n v : Nat) : List Byte := (le n v).reverse

/-- `len` bytes of a byte string from offset `off`. -/
def slice (bs : List Byte) (off len : Nat) : List Byte := (bs.drop off).take len

/-- Little-endian field of a byte string: `len` bytes at offset `off`. -/
def field (bs : List Byte) (off len : Nat) : Nat := unle (slice bs off len)

/-- `n` zero bytes. -/
def zeros (n : Nat) : List Byte := List.replicate n 0

/-- A byte string cut or zero-filled to `n` bytes. -/
def fit (n : Nat) (bs : List Byte) : List Byte := (bs ++ zeros n).take n

/-- One bit step of a CRC whose register shifts left, over `width` bits. -/
def crcStep (width poly reg : Nat) : Nat :=
  if reg.testBit (width - 1) then (reg * 2 % 2 ^ width) ^^^ poly else reg * 2 % 2 ^ width

/-- `n` bit steps of `crcStep`. -/
def crcSteps (width poly : Nat) : Nat → Nat → Nat
  | 0, reg => reg
  | n + 1, reg => crcSteps width poly n (crcStep width poly reg)

/-- CRC over bytes, each byte entered at the top of the register, most significant bit first, no reflection and no
final exclusive-or; `width` at least 8. -/
def crcMsb (width poly init : Nat) (bs : List Byte) : Nat :=
  bs.foldl (fun reg b => crcSteps width poly 8 (reg ^^^ (b.toNat <<< (width - 8)))) init

/-- One bit step of a reflected CRC, its register shifting right. -/
def crcStepR (poly reg : Nat) : Nat := if reg.testBit 0 then (reg / 2) ^^^ poly else reg / 2

/-- `n` bit steps of `crcStepR`. -/
def crcStepsR (poly : Nat) : Nat → Nat → Nat
  | 0, reg => reg
  | n + 1, reg => crcStepsR poly n (crcStepR poly reg)

/-- CRC-32 of IEEE 802.3, the one the spec names by its polynomial 0x04C1_1DB7 where it names it: reflected, initial value and final
exclusive-or all ones. -/
def crc32 (bs : List Byte) : Nat :=
  (bs.foldl (fun reg b => crcStepsR 0xEDB88320 8 (reg ^^^ b.toNat)) 0xFFFFFFFF) ^^^ 0xFFFFFFFF

/-- CRC-16 with polynomial 0x1021 and initial value 0xFFFF, unreflected (R441, R437, R439). -/
def crc16 (bs : List Byte) : Nat := crcMsb 16 0x1021 0xFFFF bs

/-! ### Sparse tables: a list of (key, value), at most one entry per key, keys rising -/

/-- A sparse table by number. -/
abbrev Tab (α : Type) := List (Nat × α)

/-- The entry under a key. -/
def Tab.find {α : Type} (t : Tab α) (k : Nat) : Option α :=
  match t with
  | [] => none
  | (j, v) :: rest => if j = k then some v else Tab.find rest k

/-- The table without the entry under a key. -/
def Tab.del {α : Type} (t : Tab α) (k : Nat) : Tab α := t.filter (fun e => e.1 != k)

/-- Put an entry into a table that holds none under its key, keeping keys rising. -/
def Tab.ins {α : Type} (t : Tab α) (k : Nat) (v : α) : Tab α :=
  match t with
  | [] => [(k, v)]
  | (j, w) :: rest => if k < j then (k, v) :: (j, w) :: rest else (j, w) :: Tab.ins rest k v

/-- Set the entry under a key. -/
def Tab.put {α : Type} (t : Tab α) (k : Nat) (v : α) : Tab α := Tab.ins (Tab.del t k) k v

/-- Change the entry under a key, if there is one. -/
def Tab.upd {α : Type} (t : Tab α) (k : Nat) (f : α → α) : Tab α :=
  t.map (fun e => if e.1 = k then (e.1, f e.2) else e)

/-- The entry under a key, or a default. -/
def Tab.getD {α : Type} (t : Tab α) (k : Nat) (v : α) : α := (Tab.find t k).getD v

/-- The values of a table in key order. -/
def Tab.vals {α : Type} (t : Tab α) : List α := t.map (·.2)

/-- The lowest of `n` keys from `lo` that a table does not hold. -/
def Tab.freeKey {α : Type} (t : Tab α) (lo : Nat) : Nat → Option Nat
  | 0 => none
  | n + 1 => if (Tab.find t lo).isNone then some lo else Tab.freeKey t (lo + 1) n

/-! ### Byte memory -/

/-- A byte memory: (address, byte) pairs, addresses strictly rising, no entry equal to what an unlisted address reads as. (DESIGN CHOICE: log entry 6) -/
abbrev Memory := List Host.Cell

/-- One byte of a memory whose unlisted addresses read as `blank`. -/
def Memory.read (blank : Byte) (m : Memory) (a : Nat) : Byte := Tab.getD m a blank

/-- Write one byte; writing what an unlisted address reads as removes the entry. -/
def Memory.write (blank : Byte) (m : Memory) (a : Nat) (b : Byte) : Memory :=
  if b = blank then Tab.del m a else Tab.put m a b

/-- `n` bytes from an address. -/
def Memory.readN (blank : Byte) (m : Memory) (a n : Nat) : List Byte :=
  (List.range n).map (fun k => Memory.read blank m (a + k))

/-- Write a byte string at an address. -/
def Memory.writeN (blank : Byte) (m : Memory) (a : Nat) : List Byte → Memory
  | [] => m
  | b :: bs => Memory.writeN blank (Memory.write blank m a b) (a + 1) bs

/-- Erase `n` bytes from an address: they read as unlisted addresses do. -/
def Memory.erase (m : Memory) (a n : Nat) : Memory := m.filter (fun c => c.1 < a || a + n ≤ c.1)

/-- Copy `n` bytes from `src` to `dst` of one memory, the areas apart. -/
def Memory.copy (m : Memory) (src dst n : Nat) : Memory :=
  (m.filter (fun c => src ≤ c.1 && c.1 < src + n)).foldl
    (fun acc c => Tab.put acc (c.1 - src + dst) c.2) (Memory.erase m dst n)

/-- Keys strictly rising from above `lo`. -/
def risingFrom {α : Type} (lo : Nat) : Tab α → Bool
  | [] => true
  | (k, _) :: rest => decide (lo < k) && risingFrom k rest

/-- Keys strictly rising. -/
def rising {α : Type} : Tab α → Bool
  | [] => true
  | (k, _) :: rest => risingFrom k rest

/-- The canonical form of a memory. -/
def Memory.wf (blank : Byte) (m : Memory) : Bool := rising m && m.all (fun c => c.2 != blank)

end Sys2Proof.Machine
end

