-- ==== Sys2Proof/Machine/BlendCheck.lean ====
section
/-! DEFINITION. The binary format of the Blend (02_blend.md R33 to R47, R506): reading its fields and the checks of
Table BLEND-9 in their order. -/

namespace Sys2Proof.Machine

/-- A section of a configuration: type, instance, body (R31), and where the Blend under check carries it: the index
of its directory entry and its offset in the file. -/
structure Section where
  type : Nat
  inst : Nat
  body : List Byte
  src : Option (Nat × Nat)
deriving DecidableEq, Repr

/-- The outcome of a load (R46): code, directory entry (0xFF none), byte offset. -/
structure Verdict where
  code : Nat
  entry : Nat
  offset : Nat
deriving DecidableEq, Repr

/-- Codes of Table BLEND-9. -/
@[reducible] def blOk : Nat := 0x00
@[reducible] def blBadCrc : Nat := 0x01
@[reducible] def blBadMagic : Nat := 0x02
@[reducible] def blBadVersion : Nat := 0x03
@[reducible] def blBadLength : Nat := 0x04
@[reducible] def blWrongDevice : Nat := 0x05
@[reducible] def blBadDirectory : Nat := 0x06
@[reducible] def blBadSignature : Nat := 0x07
@[reducible] def blSvnTooLow : Nat := 0x08
@[reducible] def blSectionDigest : Nat := 0x09
@[reducible] def blFieldRange : Nat := 0x0A
@[reducible] def blConsistency : Nat := 0x0B
@[reducible] def blDeltaBase : Nat := 0x0C
@[reducible] def blDeltaSeq : Nat := 0x0D
@[reducible] def blDeltaStructural : Nat := 0x0E
@[reducible] def blBusy : Nat := 0x0F
@[reducible] def blNotReady : Nat := 0x10
@[reducible] def blTimeout : Nat := 0x11
@[reducible] def blAborted : Nat := 0x12
@[reducible] def blLogFull : Nat := 0x13
@[reducible] def blUnknownSection : Nat := 0x14
@[reducible] def blMissingSection : Nat := 0x15

/-- Header fields of Table BLEND-1. -/
def blKind (bs : List Byte) : Nat := field bs 0x08 1
def blSectionCount (bs : List Byte) : Nat := field bs 0x0A 2
def blTotalLength (bs : List Byte) : Nat := field bs 0x0C 4
def blId (bs : List Byte) : Nat := field bs 0x10 8
def blBaseId (bs : List Byte) : Nat := field bs 0x18 8
def blDeltaSeqOf (bs : List Byte) : Nat := field bs 0x20 4
def blSvn (bs : List Byte) : Nat := field bs 0x24 4

/-- Directory fields of entry `i` (Table BLEND-2). -/
def deOff (i : Nat) : Nat := 64 + 32 * i
def deType (bs : List Byte) (i : Nat) : Nat := field bs (deOff i) 2
def deFlags (bs : List Byte) (i : Nat) : Nat := field bs (deOff i + 2) 2
def deBodyOff (bs : List Byte) (i : Nat) : Nat := field bs (deOff i + 4) 4
def deLength (bs : List Byte) (i : Nat) : Nat := field bs (deOff i + 8) 4
def deInst (bs : List Byte) (i : Nat) : Nat := field bs (deOff i + 12) 2

/-- Section kinds of Table BLEND-4: structural types. -/
def secStructural (t : Nat) : Bool := [1, 2, 3, 6, 7, 8, 9, 10, 13].contains t

/-- A type that Table BLEND-4 lists. -/
def secKnown (t : Nat) : Bool := decide (1 ≤ t ∧ t ≤ 0x12)

/-- The instances Table BLEND-4 allows a type. -/
def secInstOk (t i : Nat) : Bool :=
  if t = 4 ∨ t = 5 then decide (i ≤ 7) else if t = 0x11 then decide (i ≤ 15) else decide (i = 0xFFFF)

/-- The sections a Blend carries, unknown types left out (R36), with their places. -/
def blSections (bs : List Byte) : List Section :=
  (List.range (blSectionCount bs)).filterMap fun i =>
    if secKnown (deType bs i) then
      some ⟨deType bs i, deInst bs i, slice bs (deBodyOff bs i) (deLength bs i), some (i, deBodyOff bs i)⟩
    else none

/-- The section of a type and instance in a configuration. -/
def findSec (cfg : List Section) (t i : Nat) : Option Section := cfg.find? fun s => s.type == t && s.inst == i

/-- The body of a section, or nothing. -/
def secBody (cfg : List Section) (t i : Nat) : List Byte := ((findSec cfg t i).map (·.body)).getD []

/-- Insert a section by type and instance, the directory's order (R35). -/
def secIns (x : Section) : List Section → List Section
  | [] => [x]
  | y :: ys => if x.type * 65536 + x.inst ≤ y.type * 65536 + y.inst then x :: y :: ys else y :: secIns x ys

/-- A configuration with sections replaced whole by those of a delta (R31), in directory order. -/
def applyDelta (cfg delta : List Section) : List Section :=
  let kept := (cfg.filter fun s => (findSec delta s.type s.inst).isNone).map fun s => { s with src := none }
  (kept ++ delta).foldr secIns []

/-- The first entry of a list of (condition, offset) whose condition fails. (DEDUCED: log entry 23) -/
def firstBad (l : List (Bool × Nat)) : Option Nat := (l.find? fun e => !e.1).map (·.2)

/-- Condition entries for `n` padding bytes at an offset, each of which must be zero (R33). -/
def zeroAt (b : List Byte) (off n : Nat) : List (Bool × Nat) :=
  (List.range n).map fun k => (field b (off + k) 1 == 0, off + k)

/-- Condition entry for a reserved field of `n` bytes, which is reported at its offset (R33, R46). -/
def zeroField (b : List Byte) (off n : Nat) : List (Bool × Nat) := [((slice b off n).all (· == 0), off)]

/-- A number between bounds. -/
def within (v lo hi : Nat) : Bool := decide (lo ≤ v ∧ v ≤ hi)

/-- Signed value of a 16-bit field. -/
def signed16 (v : Nat) : Int := if v < 0x8000 then (v : Int) else (v : Int) - 0x10000

/-! ### Readers of the sections, used by the blocks -/

/-- Port record of Topology (Table BLEND-5). -/
def topSector (t : List Byte) (p : Nat) : Nat := field t (8 * p) 1
def topUsed (t : List Byte) (p : Nat) : Bool := decide (8 * p < t.length) && topSector t p != 0xFF
def topPanMask (t : List Byte) (p : Nat) : Nat := field t (8 * p + 1) 1
def topRole (t : List Byte) (p : Nat) : Nat := field t (8 * p + 2) 1
def topRecovOk (t : List Byte) (p : Nat) : Bool := field t (8 * p + 3) 1 == 1
/-- PAN record of Topology. -/
def topPanId (t : List Byte) (q : Nat) : Nat := field t (512 + 16 * q) 2
def topMaxNodes (t : List Byte) (q : Nat) : Nat := field t (512 + 16 * q + 4) 4
def topNonceMode (t : List Byte) (q : Nat) : Nat := field t (512 + 16 * q + 8) 1
def topPanUsed (t : List Byte) (q : Nat) : Bool := topMaxNodes t q != 0
/-- Site and peer records of Topology. -/
def topMembers (t : List Byte) : Nat := field t 644 1
def topOwnIndex (t : List Byte) : Nat := field t 645 1
def topPeerAddr (t : List Byte) (k : Nat) : List Byte := slice t (656 + 16 * k) 8
def topPeerUsed (t : List Byte) (k : Nat) : Bool := field t (656 + 16 * k) 8 != 0
def topPeerPan (t : List Byte) (k : Nat) : Nat := field t (656 + 16 * k + 8) 2

/-- A port that serves a PAN: used, normal or beacon role, its pan_mask naming the PAN. -/
def topServes (t : List Byte) (p q : Nat) : Bool := topUsed t p && nbit (topPanMask t p) q

/-- Band plan port record (Table BLEND-6). -/
def bpCentre (b : List Byte) (p : Nat) : Nat := field b (16 * p) 4
def bpRate (b : List Byte) (p : Nat) : Nat := field b (16 * p + 4) 1
def bpWidth (b : List Byte) (p : Nat) : Nat := field b (16 * p + 5) 1
def bpCount (b : List Byte) (p : Nat) : Nat := field b (16 * p + 6) 2
def bpSpacing (b : List Byte) (p : Nat) : Nat := field b (16 * p + 8) 4
def bpPhyMask (b : List Byte) (p : Nat) : Nat := field b (16 * p + 12) 4

/-- Sample rate of a port in Hz: 12.5 MS/s × 2^rate. -/
def bpRateHz (b : List Byte) (p : Nat) : Nat := 12500000 * 2 ^ bpRate b p

/-- Twice the centre frequency of channel `i` in Hz (R154; doubled, since an even channel count puts it on a half spacing). -/
def chanFreq2 (b : List Byte) (p i : Nat) : Int :=
  2000 * (bpCentre b p : Int) + (2 * (i : Int) - ((bpCount b p : Int) - 1)) * bpSpacing b p

/-- PHY mode record (Table RECV-2) at place `k`. -/
def phyId (b : List Byte) (k : Nat) : Nat := field b (16 * k) 1
def phyFamily (b : List Byte) (k : Nat) : Nat := field b (16 * k + 1) 1
def phyRate (b : List Byte) (k : Nat) : Nat := field b (16 * k + 2) 1
def phyTxCoding (b : List Byte) (k : Nat) : Nat := field b (16 * k + 3) 1
def phyPreamble (b : List Byte) (k : Nat) : Nat := field b (16 * k + 4) 2
def phySfdSet (b : List Byte) (k : Nat) : Nat := field b (16 * k + 6) 1
def phyDetSnr (b : List Byte) (k : Nat) : Nat := field b (16 * k + 7) 1
def phyMaxPsdu (b : List Byte) (k : Nat) : Nat := field b (16 * k + 8) 2
/-- Number of PHY mode records. -/
def phyCount (b : List Byte) : Nat := b.length / 16
/-- The place of the record of a mode_id. -/
def phyFind (b : List Byte) (m : Nat) : Option Nat := (List.range (phyCount b)).find? fun k => phyId b k == m

/-- Timeslot template record at place `k` (R202, Table TSCH-1); `off` is the field's offset in the record. -/
def tplField (b : List Byte) (k off : Nat) : Nat := field b (32 * k + off) (if off = 0 then 1 else 2)
/-- Place of the template of a template_id. -/
def tplFind (b : List Byte) (t : Nat) : Option Nat := (List.range (b.length / 32)).find? fun k => tplField b k 0 == t

/-- A slotframe record (Table TSCH-2) and its offset in the section body. -/
structure SlotframeRec where
  off : Nat
  handle : Nat
  template : Nat
  length : Nat
  hopLen : Nat
  bcastMode : Nat
  flags : Nat
  hop : List Nat
deriving DecidableEq, Repr

/-- The chained records of a Slotframe templates body from an offset (R204, R506); fuel bounds their number. -/
def slotframesFrom (b : List Byte) : Nat → Nat → List SlotframeRec
  | 0, _ => []
  | n + 1, off =>
    if b.length < off + 16 then []
    else
      let hl := field b (off + 4) 2
      ⟨off, field b off 1, field b (off + 1) 1, field b (off + 2) 2, hl, field b (off + 6) 1, field b (off + 7) 1,
        (slice b (off + 16) hl).map (·.toNat)⟩ :: slotframesFrom b n (off + 16 + (hl + 15) / 16 * 16)

/-- The slotframe records of a body; one past the limit of 64 shows when there are too many. -/
def slotframes (b : List Byte) : List SlotframeRec := slotframesFrom b 65 0

/-- An image record of the Engine images section (Table BLEND-12). -/
structure ImageRec where
  off : Nat
  cls : Nat
  role : Nat
  load : Nat
  length : Nat
deriving DecidableEq, Repr

/-- The chained image records from an offset. -/
def imagesFrom (b : List Byte) : Nat → Nat → List ImageRec
  | 0, _ => []
  | n + 1, off =>
    if b.length < off + 32 then []
    else
      let len := field b (off + 8) 4
      ⟨off, field b off 1, field b (off + 1) 1, field b (off + 4) 4, len⟩ ::
        imagesFrom b n (off + 32 + (len + 15) / 16 * 16)

/-- The image records of a body. -/
def images (b : List Byte) : List ImageRec := imagesFrom b 65 0

/-- Table geometry record fields (R43). -/
def geoFirst (b : List Byte) (t : Nat) : Nat := field b (16 * t + 2) 1
def geoBanks (b : List Byte) (t : Nat) : Nat := field b (16 * t + 3) 1
def geoEntrySize (b : List Byte) (t : Nat) : Nat := field b (16 * t + 4) 2
def geoEntries (b : List Byte) (t : Nat) : Nat := field b (16 * t + 8) 4
def geoSeed (b : List Byte) (t : Nat) : Nat := field b (16 * t + 12) 4

/-! ### Field ranges and reserved zero (check 13), section by section: the offset of the first field at fault -/

def rangeTopology (b : List Byte) : Option Nat :=
  firstBad <|
    ((List.range 64).flatMap fun p =>
      [(topSector b p ≤ 15 || topSector b p == 0xFF, 8 * p),
       (!topUsed b p || topRole b p ≤ 3, 8 * p + 2),
       (!topUsed b p || field b (8 * p + 3) 1 ≤ 1, 8 * p + 3)] ++ zeroField b (8 * p + 4) 4) ++
    ((List.range 8).flatMap fun q =>
      [(!topPanUsed b q || topPanId b q ≤ 0xFFFE, 512 + 16 * q)] ++ zeroField b (512 + 16 * q + 2) 2 ++
      [(decide (topMaxNodes b q ≤ 65024), 512 + 16 * q + 4),
       (!topPanUsed b q || topNonceMode b q ≤ 1, 512 + 16 * q + 8)] ++ zeroField b (512 + 16 * q + 9) 7) ++
    [(within (topMembers b) 1 8, 644), (decide (topOwnIndex b < topMembers b), 645)] ++ zeroField b 646 10 ++
    ((List.range 16).flatMap fun k => zeroField b (656 + 16 * k + 10) 6)

def rangeBandPlan (b : List Byte) : Option Nat :=
  firstBad <| (List.range 64).flatMap fun p =>
    let on := bpCount b p != 0
    [(!on || within (bpCentre b p) 100000 6000000, 16 * p), (!on || decide (bpRate b p ≤ 3), 16 * p + 4),
     (!on || decide (bpWidth b p ≤ 1), 16 * p + 5), (decide (bpCount b p ≤ 256), 16 * p + 6),
     (!on || within (bpSpacing b p) 100000 5000000, 16 * p + 8)]

/-- rate_code within Table RECV-1 for the family. -/
def rateCodeOk (fam r : Nat) : Bool :=
  if fam = 0 ∨ fam = 1 then decide (r ≤ 3) else if fam = 2 then within r 1 4 else decide (r = 0)

/-- tx_coding bits under Table SEND-3 (R188). -/
def txCodingOk (fam rate c : Nat) : Bool :=
  let mcs := nbits c 7 4
  if fam = 0 then mcs == 0 && nbits c 1 0 == 0
  else if fam = 1 then mcs == 0
  else if fam = 2 then
    nbits c 2 0 == 0 &&
      (if rate = 1 then decide (mcs ≤ 3) else if rate = 2 then decide (mcs ≤ 5)
       else if rate = 3 then within mcs 1 6 else within mcs 2 6)
  else c == 8

def rangePhyModes (b : List Byte) : Option Nat :=
  firstBad <|
    ((List.range (phyCount b)).flatMap fun k =>
      let o := 16 * k
      let fam := phyFamily b k
      [(decide (k < 32), o), (decide (phyId b k ≤ 31), o), (decide (fam ≤ 3), o + 1),
       (rateCodeOk fam (phyRate b k), o + 2), (txCodingOk fam (phyRate b k) (phyTxCoding b k), o + 3),
       (if fam = 2 then phyPreamble b k == 6 else if fam = 3 then phyPreamble b k == 8
        else within (phyPreamble b k) 4 1000, o + 4),
       (if fam ≤ 1 then decide (phySfdSet b k ≤ 1) else phySfdSet b k == 0, o + 6),
       (within (phyDetSnr b k) 4 80, o + 7),
       (within (phyMaxPsdu b k) 16 (if fam = 3 then 127 else 2047), o + 8)] ++ zeroField b (o + 10) 6) ++
    zeroAt b (16 * phyCount b) (b.length % 16)

def rangeTemplates (b : List Byte) : Option Nat :=
  firstBad <|
    ((List.range (b.length / 32)).flatMap fun k =>
      [(decide (k < 8), 32 * k), (decide (tplField b k 0 ≤ 7), 32 * k)] ++ zeroField b (32 * k + 1) 1 ++
      [(within (tplField b k 2) 10000 40000, 32 * k + 2)] ++ zeroField b (32 * k + 0x1A) 6) ++
    (if b.length < 32 then [(false, 0)] else []) ++ zeroAt b (32 * (b.length / 32)) (b.length % 32)

def rangeSlotframes (b : List Byte) : Option Nat :=
  let rs := slotframes b
  let last := (rs.map fun r => r.off + 16 + (r.hopLen + 15) / 16 * 16).foldl max 0
  firstBad <|
    ((rs.zipIdx).flatMap fun (r, k) =>
      [(decide (k < 64), r.off), (decide (r.handle ≤ 63), r.off), (decide (r.template ≤ 7), r.off + 1),
       (within r.length 1 65535, r.off + 2), (within r.hopLen 1 256, r.off + 4), (decide (r.bcastMode ≤ 31), r.off + 6),
       (decide (r.flags ≤ 1), r.off + 7)] ++ zeroField b (r.off + 8) 8 ++
      [(decide (r.off + 16 + r.hopLen ≤ b.length), r.off + 4)] ++
      zeroAt b (r.off + 16 + r.hopLen) ((r.hopLen + 15) / 16 * 16 - r.hopLen)) ++
    zeroAt b last (b.length - last)

def rangePartition (b : List Byte) : Option Nat :=
  firstBad <| (List.range 32).flatMap fun c => [(decide (field b (4 * c) 1 ≤ 15), 4 * c)] ++ zeroField b (4 * c + 1) 3

def rangeGeometry (b : List Byte) : Option Nat :=
  firstBad <| (List.range 9).flatMap fun t =>
    [(field b (16 * t) 1 == t, 16 * t)] ++ zeroField b (16 * t + 1) 1 ++
    [(decide (geoFirst b t ≤ 63), 16 * t + 2), (within (geoBanks b t) 1 64, 16 * t + 3)] ++ zeroField b (16 * t + 6) 2

def rangeQueues (b : List Byte) : Option Nat :=
  firstBad <| (List.range 256).map fun q => (decide (field b (4 * q) 4 ≤ 16384), 4 * q)

/-- An attribute word of Table KEY-3 within its ranges, not zero (R506). -/
def attrOk (w : Nat) : Bool :=
  let t := nbits w 63 60
  let s := nbits w 59 58
  w != 0 && decide (t ≤ 4) && decide (s ≤ 2) && (s == 0 || t == 1 || t == 2 || t == 4) && nbits w 57 56 == 0 && nbits w 51 47 == 0 && nbits w 27 16 == 0

def rangeKeyTemplates (b : List Byte) : Option Nat :=
  let n := b.length / 8
  firstBad <|
    ((List.range n).map fun k =>
      (decide (k < 64) && attrOk (field b (8 * k) 8) || k + 1 == n && decide (0 < k ∧ k ≤ 64) && field b (8 * k) 8 == 0, 8 * k)) ++
    zeroAt b (8 * n) (b.length % 8)

def rangeTimeBases (b : List Byte) : Option Nat :=
  firstBad <| (List.range 8).flatMap fun t =>
    let role := field b (4 * t) 1
    [(if t = 0 then role == 0 else decide (role ≤ 5), 4 * t), (within role 1 3 || field b (4 * t + 1) 1 == 0, 4 * t + 1),
     (decide (field b (4 * t + 2) 1 ≤ if 1 ≤ role ∧ role ≤ 3 then 1 else 0), 4 * t + 2)] ++ zeroField b (4 * t + 3) 1

/-- Filter widths of Table ELEC-8: range of group `g`. -/
def filterRange (g : Nat) : Nat × Nat :=
  if g = 0 then (1, 32) else if g = 1 then (1, 64) else if g = 2 then (0, 255) else if g = 3 then (1, 16) else (1, 4)

def rangeStrainer (b : List Byte) : Option Nat :=
  firstBad <|
    [(decide (field b 0 1 ≤ 31), 0)] ++
    ((List.range 5).map fun g =>
      (!nbit (field b 0 1) g || within (field b (1 + g) 1) (filterRange g).1 (filterRange g).2, 1 + g)) ++
    zeroField b 6 2 ++ zeroField b 9 1 ++ [(decide (field b 10 2 ≤ 10000), 10)] ++ zeroField b 12 4

def rangeTelemetry (b : List Byte) : Option Nat :=
  firstBad <| (List.range 256).flatMap fun s =>
    let en := field b (4 * s) 1
    [(decide (en ≤ 1), 4 * s), (en % 2 == 0 || decide (field b (4 * s + 1) 1 ≤ 4), 4 * s + 1),
     (en % 2 == 0 || decide (field b (4 * s + 2) 1 ≤ 31), 4 * s + 2)] ++ zeroField b (4 * s + 3) 1

def rangeImages (b : List Byte) : Option Nat :=
  let rs := images b
  let last := (rs.map fun r => r.off + 32 + (r.length + 15) / 16 * 16).foldl max 0
  firstBad <|
    ((rs.zipIdx).flatMap fun (r, k) =>
      [(decide (k < 64), r.off), (decide (r.cls ≤ 1), r.off), (decide (r.role ≤ 3), r.off + 1)] ++ zeroField b (r.off + 2) 2 ++
      [(r.load % 4 == 0 && decide (r.load + r.length ≤ 40960), r.off + 4),
       (r.length % 4 == 0 && within r.length 4 40960 && decide (r.off + 32 + r.length ≤ b.length), r.off + 8)] ++
      zeroField b (r.off + 12) 4 ++ zeroAt b (r.off + 32 + r.length) ((r.length + 15) / 16 * 16 - r.length)) ++
    (if rs.isEmpty then [(false, 0)] else []) ++ zeroAt b last (b.length - last)

/-- Fused Regulatory Lock readers (Table HEAD-3), over its 1,808 bytes. -/
def lockBlank (l : List Byte) : Bool := l.all (· == 0)
def lockCount (l : List Byte) : Nat := field l 5 1
/-- Magic and CRC pass. -/
def lockIntact (l : List Byte) : Bool :=
  slice l 0 4 == [0x50, 0x52, 0x4C, 0x4B] && field l 12 4 == crc32 (slice l 0 12 ++ slice l 16 (56 * lockCount l))
def lockValid (l : List Byte) : Bool := lockIntact l && field l 4 1 == 1 && within (lockCount l) 1 32
def lockStart (l : List Byte) (k : Nat) : Nat := field l (16 + 56 * k) 4
def lockEnd (l : List Byte) (k : Nat) : Nat := field l (16 + 56 * k + 4) 4
def lockGridStart (l : List Byte) (k : Nat) : Nat := field l (16 + 56 * k + 8) 4
def lockGridSpacing (l : List Byte) (k : Nat) : Nat := field l (16 + 56 * k + 12) 4
def lockGridCount (l : List Byte) (k : Nat) : Nat := field l (16 + 56 * k + 16) 2
def lockMaxPower (l : List Byte) (k : Nat) : Int := signed16 (field l (16 + 56 * k + 18) 2)
def lockDuty (l : List Byte) (k : Nat) : Nat := field l (16 + 56 * k + 20) 4
def lockAllow (l : List Byte) (k : Nat) : Nat := field l (16 + 56 * k + 24) 32

/-- Narrowing record fields (Table HEAD-4). -/
def narBand (b : List Byte) (k : Nat) : Nat := field b (48 * k) 1
def narPower (b : List Byte) (k : Nat) : Int := signed16 (field b (48 * k + 2) 2)
def narDuty (b : List Byte) (k : Nat) : Nat := field b (48 * k + 4) 4
def narPorts (b : List Byte) (k : Nat) : Nat := field b (48 * k + 8) 8
def narMask (b : List Byte) (k : Nat) : Nat := field b (48 * k + 16) 32

def rangeNarrowing (l b : List Byte) : Option Nat :=
  firstBad <|
    ((List.range (b.length / 48)).flatMap fun k =>
      [(decide (k < 256), 48 * k), (!lockValid l || decide (narBand b k < lockCount l), 48 * k)] ++ zeroField b (48 * k + 1) 1 ++
      [(decide (1 ≤ narDuty b k), 48 * k + 4)]) ++
    (if b.length < 48 then [(false, 0)] else []) ++ zeroAt b (48 * (b.length / 48)) (b.length % 48)

def rangeRadio (b : List Byte) : Option Nat :=
  firstBad <| [(within (field b 0 1) 3 15, 0)] ++ zeroField b 1 1 ++
    [(within (field b 2 2) 1 60, 2), (within (field b 4 2) 1 600, 4)] ++ zeroField b 6 10

def rangeTuning (b : List Byte) : Option Nat :=
  firstBad <| [(within (field b 0 2) 10 1000, 0), (within (field b 2 1) 1 32, 2), (decide (field b 3 1 ≤ 1), 3)] ++ zeroField b 4 12

def rangeQos (b : List Byte) : Option Nat :=
  firstBad <|
    ((List.range 16).map fun q => (within (field b (2 * q) 2) 64 65535, 2 * q)) ++
    ((List.range 16).flatMap fun q =>
      let o := 0x20 + 16 * q
      let on := field b o 4 != 0
      [(decide (field b o 4 ≤ 25000000), o), (!on || within (field b (o + 4) 4) 64 16777216, o + 4),
       (!on || within (field b (o + 8) 4) 10 100000, o + 8)] ++ zeroField b (o + 12) 4) ++
    ((List.range 16).flatMap fun j =>
      let o := 0x120 + 16 * j
      let on := field b o 4 != 0
      [(decide (field b o 4 ≤ 3125000000), o), (!on || within (field b (o + 4) 4) 64 16777216, o + 4),
       (!on || decide (field b o 4 ≤ field b (o + 8) 4), o + 8), (!on || decide (field b (o + 12) 4 ≤ 16777216), o + 12)])

def rangeResilience (b : List Byte) : Option Nat :=
  firstBad <| [(within (field b 0 1) 1 168, 0), (decide (field b 1 1 ≤ 1), 1)] ++ zeroField b 2 14

/-- The body length a section of fixed size must have. -/
def secFixedLength (t : Nat) : Option Nat :=
  if t = 1 then some 912 else if t = 2 then some 1024 else if t = 6 then some 128 else if t = 7 then some 144
  else if t = 8 then some 1024 else if t = 10 then some 32 else if t = 11 then some 16 else if t = 12 then some 1024
  else if t = 15 ∨ t = 16 ∨ t = 18 then some 16 else if t = 17 then some 544 else none

/-- Check 13 of one section against the fused Lock: the offset in the body of the first field at fault. -/
def secRange (lock : List Byte) (s : Section) : Option Nat :=
  match secFixedLength s.type with
  | some n => if s.body.length != n then some 0 else
    (if s.type = 1 then rangeTopology s.body else if s.type = 2 then rangeBandPlan s.body
     else if s.type = 6 then rangePartition s.body else if s.type = 7 then rangeGeometry s.body
     else if s.type = 8 then rangeQueues s.body else if s.type = 10 then rangeTimeBases s.body
     else if s.type = 11 then rangeStrainer s.body else if s.type = 12 then rangeTelemetry s.body
     else if s.type = 15 then rangeRadio s.body else if s.type = 16 then rangeTuning s.body
     else if s.type = 17 then rangeQos s.body else rangeResilience s.body)
  | none =>
    if s.type = 3 then rangePhyModes s.body else if s.type = 4 then rangeTemplates s.body
    else if s.type = 5 then rangeSlotframes s.body else if s.type = 9 then rangeKeyTemplates s.body
    else if s.type = 13 then rangeImages s.body else rangeNarrowing lock s.body

/-! ### Consistency rules (check 14), section by section, in the order in which the manual states them -/

def consTopology (t : List Byte) : Option Nat :=
  firstBad <|
    [(decide (((List.range 8).map (topMaxNodes t)).sum ≤ 262144), 0)] ++
    ((List.range 64).map fun p => (!topUsed t p || topPanMask t p != 0, 8 * p)) ++
    ((List.range 8).map fun q =>
      (!topPanUsed t q || (List.range 64).any (fun p => topServes t p q && topRole t p == 1), 512 + 16 * q)) ++
    ((List.range 8).map fun q =>
      (!topPanUsed t q || (List.range q).all (fun r => !topPanUsed t r || topPanId t r != topPanId t q), 512 + 16 * q))

/-- A channel centre lies within a sub-band of the Lock (R42). -/
def inLock (l b : List Byte) (p i : Nat) : Bool :=
  (List.range (lockCount l)).any fun k =>
    decide (2000 * (lockStart l k : Int) ≤ chanFreq2 b p i ∧ chanFreq2 b p i ≤ 2000 * (lockEnd l k : Int))

def consBandPlan (lock t b : List Byte) : Option Nat :=
  firstBad <|
    ((List.range 64).map fun p => (topUsed t p || bpCount b p == 0, 16 * p)) ++
    ((List.range 64).map fun p => (decide (bpCount b p * bpSpacing b p * 10 ≤ 8 * bpRateHz b p) || bpCount b p == 0, 16 * p)) ++
    ((List.range 64).map fun p => (!lockValid lock || (List.range (bpCount b p)).all (inLock lock b p), 16 * p))

def consPhyModes (bp b : List Byte) : Option Nat :=
  firstBad <|
    ((List.range 64).all (fun p => bpCount bp p == 0 ||
        (List.range 32).all (fun m => !nbit (bpPhyMask bp p) m || (phyFind b m).isSome)), 0) ::
    (List.range (phyCount b)).map fun k => ((List.range k).all (fun j => phyId b j != phyId b k), 16 * k)

/-- R203. -/
def consTemplates (b : List Byte) : Option Nat :=
  let n := b.length / 32
  let each (f : Nat → Bool) : List (Bool × Nat) := (List.range n).map fun k => (f k, 32 * k)
  let v (k o : Nat) := tplField b k o
  firstBad <|
    each (fun k => (List.range k).all fun j => v j 0 != v k 0) ++
    each (fun k => decide (v k 8 < v k 2 ∧ v k 10 < v k 2 ∧ v k 0x10 < v k 2 ∧ v k 0x12 < v k 2)) ++
    each (fun k => decide (v k 8 + v k 0x18 + v k 0x0E + v k 0x16 ≤ v k 2)) ++
    each (fun k => decide (v k 0x0A ≤ v k 8 ∧ v k 8 ≤ v k 0x0A + v k 0x10)) ++
    each (fun k => decide (v k 0x0C ≤ v k 0x0E ∧ v k 0x0E ≤ v k 0x0C + v k 0x12)) ++
    each (fun k => decide (700 ≤ v k 0x0E))

/-- The ports that serve a PAN. -/
def panPorts (t : List Byte) (q : Nat) : List Nat := (List.range 64).filter (topServes t · q)

def consSlotframes (cfg : List Section) (q : Nat) (b : List Byte) : Option Nat :=
  let rs := slotframes b
  let top := secBody cfg 1 0xFFFF
  let bp := secBody cfg 2 0xFFFF
  let tpl := secBody cfg 4 q
  let ps := panPorts top q
  let tsl (r : SlotframeRec) := (tplFind tpl r.template).map fun k => tplField tpl k 2
  firstBad <|
    (rs.map fun r => ((rs.takeWhile (fun x => x.off != r.off)).all (fun x => x.handle != r.handle), r.off)) ++
    [(rs.any (fun r => r.handle == 0), 0)] ++
    (rs.map fun r => ((tplFind tpl r.template).isSome, r.off)) ++
    (rs.map fun r => (rs.all (fun x => tsl x == tsl r), r.off)) ++
    [(ps.all (fun p => ps.all fun p' => bpCentre bp p == bpCentre bp p' && bpCount bp p == bpCount bp p' &&
        bpSpacing bp p == bpSpacing bp p'), 0)] ++
    (rs.map fun r => (r.hop.all (fun c => ps.all fun p => decide (c < bpCount bp p)), r.off)) ++
    (rs.map fun r => (ps.all (fun p => nbit (bpPhyMask bp p) r.bcastMode), r.off))

def consPartition (b : List Byte) : Option Nat :=
  firstBad <| (List.range 4).map fun r =>
    (decide (2 ≤ ((List.range 32).filter fun c => nbit (field b (4 * c) 1) r).length), 0)

/-- entry_size of Table TABLE-1. -/
def tableEntrySize (t : Nat) : Nat := [64, 32, 16, 32, 8, 16, 64, 1024, 32].getD t 0

/-- R43. A table whose banks run past bank 63 is refused too, with the rule of the banks' sum. (DESIGN CHOICE: log entry 115) -/
def consGeometry (b : List Byte) : Option Nat :=
  let tabs := List.range 9
  firstBad <|
    (tabs.map fun t => ((List.range t).all (fun u =>
        decide (geoFirst b t + geoBanks b t ≤ geoFirst b u ∨ geoFirst b u + geoBanks b u ≤ geoFirst b t)), 16 * t)) ++
    [(decide ((tabs.map (geoBanks b)).sum ≤ 64) && tabs.all (fun t => decide (geoFirst b t + geoBanks b t ≤ 64)), 0)] ++
    (tabs.map fun t => (decide (geoEntries b t * geoEntrySize b t ≤ geoBanks b t * 0x100000), 16 * t)) ++
    [(geoEntries b 2 % 16 == 0, 32)] ++
    ([0, 3, 5].map fun t => (decide (262144 ≤ geoEntries b t), 16 * t)) ++
    (tabs.map fun t => (geoEntrySize b t == tableEntrySize t, 16 * t)) ++
    [(geoEntries b 1 % 4 == 0, 16), (geoEntries b 2 % 64 == 0, 32), (geoEntries b 4 == 1048576, 64),
     (decide (45056 ≤ geoEntries b 8), 128)]

def consQueues (b : List Byte) : Option Nat :=
  firstBad [(decide (((List.range 256).map fun q => field b (4 * q) 4).sum ≤ 16384), 0)]

def consTimeBases (b : List Byte) : Option Nat :=
  let roles := (List.range 8).map fun t => field b (4 * t) 1
  firstBad <| [(roles.getD 0 9 == 0, 0), ((List.range 5).all (fun r => roles.count r == 1), 0)]

/-- The role an engine of class `c` in a Caddy of role mask `mask` loads its images of (R506). -/
def imageRole (rs : List ImageRec) (c mask : Nat) : Option Nat :=
  (List.range 4).find? fun r => nbit mask r && rs.any fun x => x.cls == c && x.role == r

/-- R506: records of one class and role do not overlap; a set that some Caddy loads has a record at offset 0; every Caddy finds its sets. (DEDUCED: log entry 117) -/
def consImages (part b : List Byte) : Option Nat :=
  let rs := images b
  let masks := (List.range 32).map fun c => field part (4 * c) 1
  firstBad <|
    (rs.map fun r => ((rs.takeWhile (fun x => x.off != r.off)).all (fun x =>
      x.cls != r.cls || x.role != r.role || decide (r.load + r.length ≤ x.load ∨ x.load + x.length ≤ r.load)), r.off)) ++
    (rs.map fun r => (!(masks.any fun m => imageRole rs r.cls m == some r.role) ||
      rs.any (fun x => x.cls == r.cls && x.role == r.role && x.load == 0), r.off)) ++
    [(masks.all (fun m => !(nbit m 0 || nbit m 1) || (imageRole rs 0 m).isSome), 0),
     (masks.all (fun m => !(nbit m 2 || nbit m 3) || (imageRole rs 1 m).isSome), 0)]

def consNarrowing (lock b : List Byte) : Option Nat :=
  if !lockValid lock then none else
  firstBad <| (List.range (b.length / 48)).map fun k =>
    (decide (narPower b k ≤ lockMaxPower lock (narBand b k)) && decide (narDuty b k ≤ lockDuty lock (narBand b k)) &&
      (narMask b k &&& lockAllow lock (narBand b k)) == narMask b k, 48 * k)

/-- Check 14 of one section within a configuration. -/
def secCons (lock : List Byte) (cfg : List Section) (s : Section) : Option Nat :=
  if s.type = 1 then consTopology s.body
  else if s.type = 2 then consBandPlan lock (secBody cfg 1 0xFFFF) s.body
  else if s.type = 3 then consPhyModes (secBody cfg 2 0xFFFF) s.body
  else if s.type = 4 then consTemplates s.body
  else if s.type = 5 then consSlotframes cfg s.inst s.body
  else if s.type = 6 then consPartition s.body
  else if s.type = 7 then consGeometry s.body
  else if s.type = 8 then consQueues s.body
  else if s.type = 10 then consTimeBases s.body
  else if s.type = 13 then consImages (secBody cfg 6 0xFFFF) s.body
  else if s.type = 14 then consNarrowing lock s.body
  else none

/-! ### The checks of Table BLEND-9 -/

/-- What the checks need to know of the device. -/
structure BlendEnv where
  deviceId : List Byte
  lock : List Byte
  svnMin : Nat
  /-- the configuration in force, the identifier and svn of its full Blend, and the last delta_seq applied -/
  cfg : List Section
  activeId : Nat
  activeSvn : Nat
  lastSeq : Nat
  fullBrew : Bool
  /-- public keys of the vault slots whose attributes permit Blend verification (R37) -/
  keys : Tab (List Byte)
deriving DecidableEq, Repr

/-- Checks 1 to 5 (entry 0xFF). -/
def blCheckHeader (env : BlendEnv) (bs : List Byte) : Option Verdict :=
  if field bs 0x3C 4 ≠ crc32 (slice bs 0 0x3C) then some ⟨blBadCrc, 0xFF, 0x3C⟩
  else if slice bs 0 4 ≠ [0x50, 0x42, 0x4C, 0x44] then some ⟨blBadMagic, 0xFF, 0⟩
  else if field bs 4 2 ≠ 1 then some ⟨blBadVersion, 0xFF, 4⟩
  else if 15 < field bs 6 2 then some ⟨blBadVersion, 0xFF, 6⟩
  else if blKind bs ≠ 1 ∧ blKind bs ≠ 2 then some ⟨blBadVersion, 0xFF, 8⟩
  else if blTotalLength bs ≠ bs.length ∨ !within (blTotalLength bs) 4096 16777216 then some ⟨blBadLength, 0xFF, 0x0C⟩
  else if field bs 0x28 16 ≠ 0 ∧ slice bs 0x28 16 ≠ env.deviceId then some ⟨blWrongDevice, 0xFF, 0x28⟩
  else none

/-- Fault of directory entry `i`: the offset of its field, in the order of the entry's fields; a fault of the strict order is one of `type`. (DESIGN CHOICE: log entry 116) -/
def blEntryFault (bs : List Byte) (n i : Nat) : Option Nat :=
  let o := deOff i
  let key (k : Nat) := deType bs k * 65536 + deInst bs k
  let a := deBodyOff bs i
  let l := deLength bs i
  firstBad
    [(i == 0 || decide (key (i - 1) < key i), o),
     (field bs 6 2 != 0 || !nbit (deFlags bs i) 0, o + 2),
     (a % 16 == 0 && decide (deOff n ≤ a) && decide (a + 104 < bs.length) &&
       (List.range n).all (fun j => decide (i ≤ j) || decide (a + l ≤ deBodyOff bs j ∨ deBodyOff bs j + deLength bs j ≤ a)), o + 4),
     (within l 16 8388608 && decide (a + l + 104 ≤ bs.length), o + 8)]

/-- Check 6. -/
def blCheckDirectory (bs : List Byte) : Option Verdict :=
  let n := blSectionCount bs
  if !(if blKind bs = 1 then within n 13 64 else within n 1 64) then some ⟨blBadDirectory, 0xFF, 0x0A⟩
  else if field bs 0x38 4 ≠ 64 then some ⟨blBadDirectory, 0xFF, 0x38⟩
  else (List.range n).findSome? fun i => (blEntryFault bs n i).map fun o => ⟨blBadDirectory, i, o⟩

/-- Check 7 (R37). -/
def blCheckSignature (env : BlendEnv) (bs : List Byte) : Option Verdict :=
  let o := bs.length - 104
  let bad : Verdict := ⟨blBadSignature, 0xFF, o⟩
  if field bs o 2 ≠ 1 then some bad
  else match env.keys.find (field bs (o + 2) 2) with
    | none => some bad
    | some pk =>
      if Config.ecdsaVerify pk (bs.take o) (slice bs (o + 8) 48) (slice bs (o + 56) 48) then none else some bad

/-- Check 8 (R47). -/
def blCheckSvn (env : BlendEnv) (bs : List Byte) : Option Verdict :=
  if (if blKind bs = 1 then decide (env.svnMin ≤ blSvn bs) else blSvn bs == env.activeSvn) then none
  else some ⟨blSvnTooLow, 0xFF, 0x24⟩

/-- Check 9: section digests, and those of the engine images that lie whole in the body (R506). -/
def blCheckDigests (bs : List Byte) : Option Verdict :=
  (List.range (blSectionCount bs)).findSome? fun i =>
    let body := slice bs (deBodyOff bs i) (deLength bs i)
    if (Config.sha384 body).take 16 ≠ slice bs (deOff i + 16) 16 then some ⟨blSectionDigest, i, deOff i + 16⟩
    else if deType bs i ≠ 13 then none
    else (images body).findSome? fun r =>
      if body.length < r.off + 32 + r.length ∨ (Config.sha384 (slice body (r.off + 32) r.length)).take 16 = slice body (r.off + 16) 16 then none
      else some ⟨blSectionDigest, i, deBodyOff bs i + r.off + 16⟩

/-- Check 10 (R36). -/
def blCheckUnknown (bs : List Byte) : Option Verdict :=
  (List.range (blSectionCount bs)).findSome? fun i =>
    if !secKnown (deType bs i) && !nbit (deFlags bs i) 0 then some ⟨blUnknownSection, i, deOff i⟩ else none

/-- Check 11 (R38): mandatory sections of a full Blend. -/
def blCheckMandatory (bs : List Byte) : Option Verdict :=
  let ss := blSections bs
  let top := secBody ss 1 0xFFFF
  let device := [1, 2, 3, 6, 7, 8, 9, 10, 11, 12, 13].all fun t => (findSec ss t 0xFFFF).isSome
  let pans := (List.range 8).all fun q =>
    !topPanUsed top q || ((findSec ss 4 q).isSome && (findSec ss 5 q).isSome)
  if blKind bs = 2 ∨ (device && pans) then none else some ⟨blMissingSection, 0xFF, 0⟩

/-- Check 12 (R38). -/
def blCheckStructural (bs : List Byte) : Option Verdict :=
  if blKind bs = 1 then none
  else (List.range (blSectionCount bs)).findSome? fun i =>
    if secKnown (deType bs i) && secStructural (deType bs i) then some ⟨blDeltaStructural, i, deOff i⟩ else none

/-- End of the bodies that begin before offset `a`, the directory's end when there is none. -/
def bodiesEnd (bs : List Byte) (n a : Nat) : Nat :=
  ((List.range n).filterMap fun j =>
    if deBodyOff bs j < a then some (deBodyOff bs j + deLength bs j) else none).foldl max (deOff n)

/-- Reserved bits of the header, of directory entries, of gaps and of the signature block, and instances out of range (check 13, R33). (DEDUCED: log entry 23) -/
def blCheckReserved (bs : List Byte) : Option Verdict :=
  let n := blSectionCount bs
  let hdr := firstBad
    [(field bs 9 1 == 0, 9), (blId bs != 0, 0x10), (blKind bs == 2 || blBaseId bs == 0, 0x18),
     (if blKind bs = 1 then blDeltaSeqOf bs == 0 else blDeltaSeqOf bs != 0, 0x20)]
  match hdr with
  | some o => some ⟨blFieldRange, 0xFF, o⟩
  | none => ((List.range n).findSome? fun i =>
    let a := deBodyOff bs i
    let before := bodiesEnd bs n a
    let bad := firstBad <|
      [(decide (deFlags bs i ≤ 1), deOff i + 2),
       (!secKnown (deType bs i) || secInstOk (deType bs i) (deInst bs i), deOff i + 12),
       (field bs (deOff i + 14) 2 == 0, deOff i + 14)] ++ zeroAt bs before (a - before)
    bad.map fun o => ⟨blFieldRange, i, o⟩).or <|
    let sig := bs.length - 104
    let tail := bodiesEnd bs n sig
    (firstBad <| zeroAt bs tail (sig - tail) ++ [(field bs (sig + 4) 4 == 0, sig + 4)]).map fun o => ⟨blFieldRange, 0xFF, o⟩

/-- The verdict on a section at fault: its entry and offset, or 0xFF and 0 when the Blend under check does not carry it (R46). -/
def secVerdict (code : Nat) (s : Section) (rel : Nat) : Verdict :=
  match s.src with
  | some (e, off) => ⟨code, e, off + rel⟩
  | none => ⟨code, 0xFF, 0⟩

/-- The configuration a Blend would produce, in directory order. -/
def blResult (env : BlendEnv) (bs : List Byte) : List Section :=
  if blKind bs = 1 then blSections bs else applyDelta env.cfg (blSections bs)

/-- Checks 13 and 14. (DEDUCED: log entry 23) -/
def blCheckContent (env : BlendEnv) (bs : List Byte) : Option Verdict :=
  let cfg := blResult env bs
  (blCheckReserved bs).or <|
  (cfg.findSome? fun s => (secRange env.lock s).map (secVerdict blFieldRange s)).or <|
  cfg.findSome? fun s => (secCons env.lock cfg s).map (secVerdict blConsistency s)

/-- Check 15 (R32). (DEDUCED: log entry 24) -/
def blCheckDelta (env : BlendEnv) (bs : List Byte) : Option Verdict :=
  if blKind bs = 1 then none
  else if blBaseId bs ≠ env.activeId then some ⟨blDeltaBase, 0xFF, 0x18⟩
  else if blDeltaSeqOf bs ≠ env.lastSeq + 1 then some ⟨blDeltaSeq, 0xFF, 0x20⟩
  else none

/-- Validation of received bytes: checks 1 to 15 of Table BLEND-9 in order, stopping at the first that fails (R46).
A delta offered before Full Brew is refused NOT_READY (R32). -/
def validateBlend (env : BlendEnv) (bs : List Byte) : Verdict :=
  if bs.length < 64 then ⟨blBadLength, 0xFF, 0⟩
  else
    ((blCheckHeader env bs).or <| (blCheckDirectory bs).or <| (blCheckSignature env bs).or <| (blCheckSvn env bs).or <|
      (blCheckDigests bs).or <| (blCheckUnknown bs).or <| (blCheckMandatory bs).or <| (blCheckStructural bs).or <|
      (blCheckContent env bs).or <|
      (if blKind bs = 2 && !env.fullBrew then some ⟨blNotReady, 0xFF, 0⟩ else none).or <| blCheckDelta env bs).getD ⟨blOk, 0xFF, 0⟩

end Sys2Proof.Machine
end

