-- ==== Sys2Proof/Machine/StBld.lean ====
section
/-! DEFINITION. State of the Blend loader and of the active configuration (02_blend.md). -/

namespace Sys2Proof.Machine

/-- Where the bytes of a load come from (R48, BLD_CTRL.source). -/
inductive LoadSource where
  /-- the register port BLD_DATA -/
  | port
  /-- host memory by DMA, from a bus address -/
  | host (addr : Nat)
  /-- a Packet Buffer that a management command names in place of a bus address (R480) -/
  | buffer (handle : Nat)
  /-- flash, from a byte address -/
  | flash (addr : Nat)
  /-- the start sequence: the ACTIVE area (false) or the PREVIOUS area (true) -/
  | start (previous : Bool)
deriving DecidableEq, Repr

/-- A load in RECEIVING or VALIDATING. `by` is the journal seq of the host command that asked for it. -/
structure Load where
  source : LoadSource
  length : Nat
  bytes : List Byte
  cmd : Option Nat
deriving DecidableEq, Repr

/-- A delta between validation and the switch of its last PAN (R50 to R52). -/
structure PendingDelta where
  seq : Nat
  sections : List Section
  /-- by PAN slot: the ASN of the boundary chosen under R50 -/
  boundary : Tab Nat
  /-- PANs affected, and PANs switched so far, bit n for slot n -/
  affected : Nat
  switched : Nat
  jseq : Nat
  /-- the configuration before it, which an abort restores -/
  before : List Section
deriving DecidableEq, Repr

/-- An entry of the delta log in flash (R49). -/
structure DeltaEntry where
  baseId : Nat
  seq : Nat
  /-- the delta as received -/
  bytes : List Byte
  applied : Bool
deriving DecidableEq, Repr

/-- The Blend loader. Its state, codes, identifiers and counts stand in the BLD_ registers. -/
structure Bld where
  load : Option Load
  /-- configuration in force (R31) -/
  cfg : List Section
  /-- svn of the full Blend in force -/
  svn : Nat
  /-- a validated full Blend that Second Steep will apply: its bytes (R30, R48) -/
  accepted : Option (List Byte)
  pending : Option PendingDelta
  /-- delta log in flash -/
  log : List DeltaEntry
deriving DecidableEq, Repr

end Sys2Proof.Machine
end

