-- ==== Sys2Proof/Machine/StBoot.lean ====
section
/-! DEFINITION. State of start-up and update (14_start_and_self_update.md) and of node campaigns (13_node_campaigns.md). Flash records
stand as the data they hold. -/

namespace Sys2Proof.Machine

/-- A confirmation record (Table START-6). -/
structure ConfRec where
  seq : Nat
  state : Nat
  trialStarts : Nat
  rbTarget : Nat
  fwSvnMin : Nat
  blendSvnMin : Nat
  activeId : Nat
  previousId : Nat
  activeHdr : List Byte
  previousHdr : List Byte
deriving DecidableEq, Repr

/-- An activation from ACT_BEGIN to ACT_DONE (R407), as the copy log shows it: 0 copying to PREVIOUS, 1 between PREV_DONE and the TRIAL
record, 2 copying to ACTIVE; blocks of the present copy done; restart at the end; its journal seq. -/
structure Activation where
  phase : Nat
  done : Nat
  restart : Bool
  jseq : Nat
deriving DecidableEq, Repr

/-- A base image (R403): nodes with key and policer entries, Address entries, cells. -/
structure BaseImage where
  seq : Nat
  at? : Nat
  blendId : Nat
  nodes : List (Nat × List Byte)
  addrs : List (List Byte)
  cells : List (Nat × List Byte)
deriving DecidableEq, Repr

/-- A counter image (R403): rx_fc0, rx_fc1, tx_fc0, tx_fc1 of the valid NIX, and the restore records written for it. -/
structure CounterImage where
  seq : Nat
  at? : Nat
  blendId : Nat
  counters : List (Nat × List Nat)
  restores : Nat
deriving DecidableEq, Repr

/-- A settings record in force (R413). -/
structure Setting where
  ns : Nat
  key : Nat
  data : List Byte
deriving DecidableEq, Repr

/-- A start or update command whose flash or host wait is running (R416): who issued it, its code of Table START-8, arguments, data,
blocks done. -/
structure BootRun where
  who : Sys2Proof.Who
  code : Nat
  args : List Nat
  data : List Byte
  done : Nat
deriving DecidableEq, Repr

/-- Start-up and update. BOOT_ registers show stage, results and counts. -/
structure Boot where
  /-- confirmation slots A and B -/
  conf : Tab ConfRec
  /-- ACTIVE 0, STAGED 1, PREVIOUS 2 -/
  areas : Tab (List Byte)
  /-- flash density in Mib (R401) -/
  density : Nat
  /-- download log: bundle_len and committed offset; a download is open -/
  download : Option (Nat × Nat)
  open_ : Bool
  act : Option Activation
  settings : List Setting
  /-- bytes used in the settings half in use, superseded records included -/
  settingsUsed : Nat
  base : Option BaseImage
  counter : Option CounterImage
  baseWriting : Option BaseImage
  counterWriting : Option CounterImage
  imageSeq : Nat
  /-- node-key sends wait for the restore record of R403; every node held after its failure -/
  restoreWait : Bool
  restoreHeld : Bool
  brewReady : Bool
  /-- the scan of R400 is complete -/
  scanned : Bool
  /-- the start sequence of R392 has run since the last reset; the boot chain of R396 has chosen an area -/
  started : Bool
  booted : Bool
  run : Option BootRun
  /-- header of the bundle that this start booted; this start is a trial (R408) -/
  header : List Byte
  trial : Bool
  /-- TB4 ns at the release of POR_N, and of Full Brew -/
  porAt : Nat
  brewAt : Nat
  /-- certificate area (R330) -/
  cert : List Byte
deriving DecidableEq, Repr

/-- A coded block built ahead (R383): ESI, buffer, and the task that builds it while it runs. -/
structure Built where
  esi : Nat
  buf : Nat
  task : Option Nat
deriving DecidableEq, Repr

/-- A session of a campaign (R384): the ASN of its first cell and the cells left to serve. -/
structure Session where
  asn : Nat
  left : Nat
deriving DecidableEq, Repr

/-- A held campaign. -/
structure Camp where
  desc : List Byte
  state : Nat
  /-- first spool entry -/
  spool : Nat
  k : Nat
  esi : Nat
  seg : Nat
  session : Option Session
  /-- the next session is due (R384) -/
  due : Bool
  enrolled : Nat
  ended : Nat
  built : List Built
deriving DecidableEq, Repr

/-- A campaign in flash (R381, R386). -/
structure CampFlash where
  desc : List Byte
  image : List Byte
  state : Nat
  ceiling : Nat
  /-- state and ceiling before the last write, which may fail (R386) -/
  before : Nat × Nat
deriving DecidableEq, Repr

/-- Campaigns: held ones by cnum, their flash copies, the last served of each PAN. -/
structure Cmp where
  camps : Tab Camp
  flash : Tab CampFlash
  served : Tab Nat
deriving DecidableEq, Repr

end Sys2Proof.Machine
end

