-- ==== Sys2Proof/Machine/StDsp.lean ====
section
/-! DEFINITION. State of the Task Dispatcher, the Caddies, the flow locks and the word queues (03_caddies_and_dispatch.md). -/

namespace Sys2Proof.Machine

/-- A task descriptor (Table CADDY-3), its reserved bits kept as one number so that a check can see them. -/
structure Desc where
  id : Nat
  succ0 : Nat
  succ1 : Nat
  dep : Nat
  handler : Nat
  notify : Bool
  kind : Nat
  source : Nat
  flow : Nat
  notifyWq : Nat
  arg0 : Nat
  arg1 : Nat
  /-- the reserved bits of the descriptor; zero in a legal one -/
  resv : Nat
deriving DecidableEq, Repr

/-- Where a task stands between acceptance and completion (R64 to R74). -/
inductive TaskPhase where
  /-- its dependence counter is above zero -/
  | waiting
  /-- on the ready list of a physical Caddy -/
  | ready (caddy : Nat)
  /-- in the dispatcher's holding list -/
  | holding
  /-- in the prefetch slot of an engine (physical Caddy × 16 + engine) -/
  | prefetched (engine : Nat)
  /-- in service on an engine -/
  | service (engine : Nat)
deriving DecidableEq, Repr

/-- An outstanding task. Times are TB4 nanoseconds. -/
structure Task where
  d : Desc
  dep : Nat
  phase : TaskPhase
  ticket : Option Nat
  predAborted : Bool
  submitted : Nat
  readyAt : Nat
  startAt : Nat
  /-- R90: the FLOW_WAIT record of the task has been written -/
  flowWaited : Bool
  /-- R73: ROLE_WAIT has been raised for this wait -/
  roleWaited : Bool
  /-- receive slots taken on an SE by a receive context (R161) -/
  slots : Nat
deriving DecidableEq, Repr

/-- A physical Caddy (Table CADDY-2 codes in `state`). -/
structure Caddy where
  state : Nat
  logical : Option Nat
  /-- ready list, oldest first -/
  ready : List Nat
  /-- TB4 ns since which the ready list has been empty -/
  emptySince : Nat
  /-- fenced under R435 -/
  fenced : Bool
  /-- Table CADDY-2 state it leaves DRAINING for (R79) -/
  target : Nat
  /-- the partition's role mask in its logical place -/
  roles : Nat
  stolenIn : Nat
  stolenOut : Nat
  depthMax : Nat
  /-- maximum wait of its tasks since its last clear, 100 ns (R89) -/
  waitMax : Nat
  /-- role of the Engine images set that its SEs and its PEs loaded (R59, R506) -/
  seImage : Option Nat
  peImage : Option Nat
deriving DecidableEq, Repr

/-- An engine with work or statistics, by physical Caddy × 16 + engine (0 to 7 SE, 8 to 15 PE). -/
structure Engine where
  /-- tasks in service: one on a PE, contexts on an SE -/
  tasks : List Nat
  prefetch : Option Nat
  /-- DRAINING of this engine alone -/
  draining : Bool
  /-- disabled under R440 -/
  disabled : Bool
  /-- DSP_SLOT_STEP of the task in service -/
  step : Nat
  /-- DSP_SLOT_WQ_SEL, DSP_SLOT_SUB_STATUS -/
  wqSel : Nat
  subStatus : Nat
  /-- DSP_SLOT_SUB0 to 6 as written -/
  sub : List Word
  done : Nat
  waitMax : Nat
  prefetchMax : Nat
  /-- service intervals and waits of the last windows, TB4 ns: (start, end), and (entry, wait) -/
  spans : List (Nat × Nat)
  waits : List (Nat × Nat)
  /-- local memory above the engine image, 0xA000 to 0xFFFF (R56, R86): data and stack, kept between tasks -/
  mem : Memory
  /-- pc and x1 to x31 of a PE as its task entered service (R87) -/
  pc : Word
  xregs : List Word
deriving DecidableEq, Repr

/-- A flow-lock entry (R70, R71). -/
structure FlowLock where
  busy : Bool
  next : Nat
  serve : Nat
  void : List Nat
deriving DecidableEq, Repr

/-- A completion word waiting for credit (R69). -/
structure HeldWord where
  wq : Nat
  word : Word64
  since : Nat
deriving DecidableEq, Repr

/-- The dispatcher. DSP_ERR, configuration and queue error counts stand in the registers; counts of tasks, words
and running Caddies are views. -/
structure Dsp where
  tasks : Tab Task
  caddies : Tab Caddy
  engines : Tab Engine
  locks : Tab FlowLock
  holding : List Nat
  held : List HeldWord
  /-- stored words of the queues that hold any, oldest first -/
  wq : Tab (List Word64)
  /-- submissions are accepted (R65, R389) -/
  accepting : Bool
deriving DecidableEq, Repr

end Sys2Proof.Machine
end

