-- ==== Sys2Proof/Machine/StHc.lean ====
section
/-! DEFINITION. State of head control: heads, duty meters (05_head_control.md). -/

namespace Sys2Proof.Machine

/-- The latest accepted value of a sensor and the TB4 ns of its arrival (R136). -/
structure Sensor where
  value : Int
  at? : Nat
deriving DecidableEq, Repr

/-- The last run of a calibration kind: TB4 ms and the temperature then, 0.1 °C (R129). -/
structure CalRun where
  at? : Nat
  temp : Option Int
deriving DecidableEq, Repr

/-- A receive gain change sent and not yet answered (R132, R133): the new code, the code and compensation before it, and whether its
at instant has passed. -/
structure GainChange where
  code : Nat
  prevCode : Nat
  prevComp : Int
  applied : Bool
deriving DecidableEq, Repr

/-- One radio head. Holds LINK, INHIBIT and NO_LOCK of Table HEAD-2 are read from their causes; the others stand here. -/
structure Head where
  holds : List Nat
  rxReady : Bool
  txReady : Bool
  paOn : Bool
  trTx : Bool
  rxGain : Nat
  txCode : Nat
  /-- digital compensation in force at the channeliser, 0.25 dB, and a change waiting (R133) -/
  gainComp : Int
  gainPending : Option GainChange
  /-- paths with a tune outstanding, kind of the calibration running (R126, R128) -/
  tuning : List Nat
  calRunning : Option Nat
  /-- latest sensor values, by sensor index -/
  sensors : Tab Sensor
  /-- consecutive polls with excess forward power, and the excess added to every p(c), 0.25 dB (R139) -/
  excessPolls : Nat
  excess : Int
  /-- failures in READY (R131), by what failed: calibration kind 0 to 5, or 16 + path for a tune; the first failure waits for its
  repeat, which is marked by + 32; + 64 marks what holds the transmit state with CAL -/
  failed : List Nat
  lastRun : Tab CalRun
  /-- kinds scheduled in service (R129) -/
  due : List Nat
  /-- TB4 ns since when a kind is due, by kind -/
  dueAt : Tab Nat
  /-- TB4 ns of the last receive gain change, consecutive windows above −15 and below −35 dBFS (R132) -/
  gainAt : Option Nat
  loud : Nat
  quiet : Nat
  /-- detectors blanked by the switch (R140) -/
  blanked : Bool
  /-- what a path awaits before it is ready (R128): 2 × path a SYNTH_STATUS OK, 2 × path + 1 a CAL_DONE OK -/
  needs : List Nat
  /-- paths whose tune waits for the one outstanding on them (R126, R127) -/
  wanted : List Nat
  /-- what the head held before a timed command whose at instant has passed, by tag, until it is answered (R108) -/
  undo : Tab Nat
  /-- PA and switch are commanded to transmit, and not yet back (R140) -/
  onCmd : Bool
  /-- the latest on-air interval of the head (R137): its start and the latest end of its bursts, TB4 ns -/
  onFrom : Nat
  onTo : Nat
deriving DecidableEq, Repr

/-- Head control. -/
structure Hc where
  /-- the Regulatory Lock as read at power-good (R145) -/
  lock : List Byte
  heads : Tab Head
  /-- duty meters by head × 32 + sub-band: bins in µs, the current bin first, at most 61 (R147) -/
  duty : Tab (List Nat)
  /-- the bins of every meter not listed in `duty`: what R148 gave it at the start -/
  dutyRest : List Nat
  /-- heads for which HC_CTRL.recal_req waits until they are READY (R153) -/
  recals : List Nat
deriving DecidableEq, Repr

end Sys2Proof.Machine
end

