-- ==== Sys2Proof/Machine/StKey.lean ====
section
/-! DEFINITION. The fuses (what no reset clears) and the state of the security block (12_keys_and_frame_security.md). -/

namespace Sys2Proof.Machine

/-- A burn begun and not complete when power was lost (R331, R340, R349, R392, R411, R439). -/
inductive Burn where
  /-- the life-cycle state to reach -/
  | lifecycle (code : Nat)
  /-- the next owner record: a digest -/
  | owner (digest : List Byte)
  /-- the next seal-epoch bit -/
  | epoch
  /-- rollback bits up to a count -/
  | rollback (count : Nat)
  /-- a repair fuse record -/
  | repair (bits : Nat)
deriving DecidableEq, Repr

/-- The fuses: life-cycle code (R331), device root (R327), Regulatory Lock (R145), extended address (R220), tamper policy (R367), PCI subsystem
identifiers once burnt (R461), die and ROM revision, seal epoch count (R339), owner records (R333), rollback count (R411), repair records (R439), burns to complete. -/
structure Fuses where
  lc : Nat
  root : Option (List Byte)
  lock : List Byte
  eui : List Byte
  tamper : Nat
  subsys : Option (Nat × Nat)
  rev : Nat
  sealEpoch : Nat
  owners : List (List Byte)
  rollback : Nat
  repairs : List Nat
  pend : List Burn
deriving DecidableEq, Repr

/-- A vault slot (Table KEY-2), with the marks of R335 and R358. -/
structure Slot where
  material : List Byte
  attr : Nat
  tag : List Byte
  bad : Bool
  kekInvalid : Bool
deriving DecidableEq, Repr

/-- A sealed vault copy (R339): what it holds, and the seal epoch it is readable under. (DEDUCED: log entry 66) -/
structure Seal where
  epoch : Nat
  slots : Tab Slot
  counter : Nat
  owner : Nat
  ceilings : List Nat
deriving DecidableEq, Repr

/-- A register set of SEC_CMD_STATUS, SEC_ARG and SEC_OUT (Table KEY-15), or what a queue's command left. -/
structure CmdSet where
  arg : Tab Word
  out : List Byte
  result : Nat
deriving DecidableEq, Repr

/-- A key-cache entry (R354). -/
structure CacheEntry where
  nix : Nat
  j : Nat
  pan : Nat
  gen : Nat
  key : List Byte
deriving DecidableEq, Repr

/-- A Frame Security Unit port (Table KEY-10). -/
structure Fsu where
  buf : Nat
  node : Nat
  fc : Nat
  level : Nat
  keyFound : Bool
  result : Nat
deriving DecidableEq, Repr

/-- The recovery link key (R361): key, key index, outgoing counter. -/
structure RecovKey where
  key : List Byte
  index : Nat
  counter : Nat
deriving DecidableEq, Repr

/-- A tamper log record (R368). -/
structure TamperRec where
  seconds : Nat
  seq : Nat
  source : Nat
  state : Nat
  action : Nat
deriving DecidableEq, Repr

/-- The security block. The vault, its marks, the envelope counter, the ceilings, the tamper log and TAMPER_HOLD lie in Kettle
retained memory, the sealed copy in flash; the rest is volatile. -/
structure Sec where
  slots : Tab Slot
  /-- by slot: the spare S0 to S7 in use -/
  remap : Tab Nat
  envCtr : Nat
  /-- pending area of R349: the new owner key and the envelope counter -/
  ownerPending : Option (List Byte × Nat)
  /-- by PAN slot: broadcast counter ceilings in the Kettle and in flash (R360) -/
  ceilings : Tab (Nat × Nat)
  tlog : List TamperRec
  tseq : Nat
  hold : Bool
  /-- an alarm that a tamper event of Kettle-only sleep owes once in service -/
  alarmDue : Bool
  sealCopy : Option Seal
  sealing : Option Seal
  /-- the vault changed while a sealed copy was being written -/
  sealAgain : Bool
  /-- recipe shadows by slot: derived, or UNAVAILABLE (R338) -/
  shadow : Tab (Option (List Byte))
  meas : List (List Byte)
  /-- lineage of M0 and M1: signer hash and svn (R341) -/
  lineage : Tab (List Byte × Nat)
  /-- register sets by master: 0 CC secure, 1 CC normal, 2 debug -/
  sets : Tab CmdSet
  /-- PAN generations (R354), and by PAN the next NIX of a running walk with the journal seq of its command (R357) -/
  gens : Tab Nat
  walks : Tab Nat
  recov : Option RecovKey
  /-- key caches by Caddy × 256 + set, most recently used first, at most 8 -/
  cache : Tab (List CacheEntry)
  /-- ports by engine -/
  fsu : Tab Fsu
  /-- consecutive passes of the entropy retest (R371) -/
  passes : Nat
deriving DecidableEq, Repr

end Sys2Proof.Machine
end

