-- ==== Sys2Proof/Machine/StRes.lean ====
section
/-! DEFINITION. State of the Control Complex pair, its Commit Gate, spares, self-test and repairs (15_resilience.md). -/

namespace Sys2Proof.Machine

/-- A commit item (R419): target address, data, tag, type, the world it was posted from, and whether its step has ended (R420). -/
structure Item where
  addr : Nat
  data : Nat
  tag : Nat
  type : Nat
  secure : Bool
  free : Bool
  /-- TB4 ns at which it was posted, or its step ended -/
  since : Nat
deriving DecidableEq, Repr

/-- A Control Complex: unreleased items oldest first, the tag of RES_GATE_TAG, full tests done in this isolation. States stand in
RES_CC_STATE. (DESIGN CHOICE: log entry 107) -/
structure Complex where
  /-- its memory of 8 MiB (R21) -/
  mem : Memory
  items : List Item
  tag : Nat
  retests : Nat
deriving DecidableEq, Repr

/-- A mismatch in handling (R422): its cause, and the number of items of the window. -/
structure Mismatch where
  cause : Nat
  n : Nat
deriving DecidableEq, Repr

/-- The Commit Gate and the roles of the complexes. -/
structure Gate where
  a : Complex
  b : Complex
  mismatch : Option Mismatch
  /-- waiting for the other complex to reach n -/
  lag : Option Nat
  swapDue : Bool
  /-- a failover from CC-A awaits its take-back (R427); its hold-off has ended -/
  failover : Bool
  holdoffDone : Bool
  /-- TB4 ns at which a complex last stopped waiting: the swap interval's and the hold-off's start -/
  swapFrom : Nat
  holdFrom : Nat
  /-- TB4 ns of the slotframe-0 boundary from which the take-back may take place -/
  boundary : Nat
  /-- an isolation requested for the next close -/
  isolate : Option Nat
  /-- tamper sources seen while a mismatch is handled, oldest first, whose response waits for the surviving complex to resume (R428) -/
  tampers : List Nat
deriving DecidableEq, Repr

/-- An error of an SRAM word: memory × 65,536 + array, row, column, time in TB4 s, uncorrectable, logical bank when it is a table word. -/
structure SramErr where
  array : Nat
  row : Nat
  col : Nat
  time : Nat
  uncorrectable : Bool
  bank : Option Nat
deriving DecidableEq, Repr

/-- A repair-log record (Table RES-4). -/
structure Repair where
  seq : Nat
  kind : Nat
  fused : Bool
  unit : Nat
  location : Nat
  replacement : Nat
  time : Nat
deriving DecidableEq, Repr

/-- A row or column copy (R432) and a bank copy (R433) in progress. -/
structure RowCopy where
  array : Nat
  column : Bool
  index : Nat
  spare : Nat
deriving DecidableEq, Repr

/-- The rotation (R435, R436): position, the fenced or tested Caddy with its slice, a rerun, STOPPED before its slice. -/
structure Bist where
  /-- next position of the rotation: 0 to 31 logical Caddies, then the spares -/
  pos : Nat
  current : Option Nat
  inSlice : Bool
  rerun : Bool
  wasStopped : Bool
  spare : Bool
  /-- next slice by physical Caddy -/
  slices : Tab Nat
deriving DecidableEq, Repr

/-- A function passing through DRAINING (R440), by class × 65,536 + index. -/
structure Func where
  draining : List Nat
  disabled : List Nat
  /-- enables written during DRAINING -/
  enabling : List Nat
  /-- the last named function, by class × 65,536 + index -/
  last : Option Nat
deriving DecidableEq, Repr

/-- A spare Caddy under test (R430): the spare, the logical number it is to take, and the failing part of the Caddy it replaces. -/
structure SpareTest where
  spare : Nat
  logical : Nat
  part : Nat
deriving DecidableEq, Repr

/-- Redundancy, self-test and repair. -/
structure Res where
  gate : Gate
  errors : List SramErr
  rowCopies : List RowCopy
  /-- logical banks being copied to a physical spare -/
  bankCopies : Tab Nat
  bankMap : Tab Nat
  spareTests : List SpareTest
  bist : Bist
  log : List Repair
  nextSeq : Nat
  /-- a repair-log write has not completed -/
  logLate : Bool
  func : Func
  /-- Trellis Units off: Caddy × 2 + unit -/
  trellisOff : List Nat
  /-- words the scrubber has read in this cycle (R432) -/
  scrub : Nat
  /-- a fetch of RES_JRNL_SEL from flash in progress -/
  fetching : Option Nat
deriving DecidableEq, Repr

end Sys2Proof.Machine
end

