-- ==== Sys2Proof/Machine/StRx.lean ====
section
/-! DEFINITION. State of the receive chain (06_receive.md) and of the transmit chain (07_transmit.md). -/

namespace Sys2Proof.Machine

/-- A channel of a port, by port × 256 + channel: the last 16 idle powers (antenna, 10^-20 mW, newest first), its counters, and the
refire times by mode (R159, R181). -/
structure RxChannel where
  powers : List Nat
  det : Nat
  false_ : Nat
  opened : Nat
  replaced : Nat
  ignored : Nat
  /-- a context has run on the channel in the present millisecond (R159) -/
  ran : Bool
  refire : Tab Nat
deriving DecidableEq, Repr

/-- States of a running receive context (Table RECV-3). -/
inductive CtxState where
  | preamble | header | payload | decode
deriving DecidableEq, Repr

/-- A running receive context, by task_id (R161 to R166). Powers are antenna powers in units of 10^-20 mW; times TB4 ns, t_s TB0 ns. -/
structure RxCtx where
  port : Nat
  channel : Nat
  mode : Nat
  cls : Nat
  st : CtxState
  pRun : Nat
  pWin : Nat
  det : Nat
  second : Bool
  exp : Option Nat
  tS : Nat
  group : Option Nat
  phrLen : Nat
  fcs4 : Bool
  fec : Bool
  /-- TB4 ns at which the last PSDU symbol was reached -/
  lastAt : Nat
  /-- d + g of R174 in force since PAYLOAD began, newest first, and ofs then, 0.25 dB (R174, R181) -/
  gains : List Int
  ofs : Int
deriving DecidableEq, Repr

/-- An ended copy that a group holds until it resolves: DONE or FCS_FAIL (R172), with its quality figures (R174 to R177). -/
structure Copy where
  port : Nat
  channel : Nat
  cls : Nat
  exp : Option Nat
  second : Bool
  passed : Bool
  pWin : Nat
  tS : Nat
  phrLen : Nat
  psdu : List Byte
  /-- soft decisions of the coded bits, signed bytes (R168) -/
  soft : List Byte
  rssi : Int
  evm : Int
  lqi : Nat
  cfo : Int
  mcs : Nat
  fcs4 : Bool
  fec : Bool
  /-- antenna instant of the last symbol (R226), TB4 ns -/
  lastAt : Nat
  /-- detection instant less W (R214), TB4 ns -/
  start : Nat
deriving DecidableEq, Repr

/-- A combining group (R171, R172): twice the channel frequency, mode, t_s of the first member, running members by
task_id, ended copies, members that ended otherwise. -/
structure RxGroup where
  freq2 : Int
  mode : Nat
  firstTs : Nat
  /-- heads that have a copy in the group -/
  ports : List Nat
  running : List Nat
  ended : List Copy
  /-- port and P_win -/
  others : List (Nat × Nat)
deriving DecidableEq, Repr

/-- A delivered frame on the recent list (R173). -/
structure Recent where
  freq2 : Int
  mode : Nat
  tS : Nat
  psdu : List Byte
deriving DecidableEq, Repr

/-- A frame delivered and not yet posted (R178, R180). -/
structure RxFrame where
  freq2 : Int
  mode : Nat
  best : Copy
  copies : List Copy
  combined : Bool
deriving DecidableEq, Repr

/-- The receive chain. -/
structure Rx where
  channels : Tab RxChannel
  ctx : Tab RxCtx
  groups : Tab RxGroup
  nextGroup : Nat
  recent : List Recent
  /-- frames waiting to be posted, oldest first -/
  frames : List RxFrame
  /-- MAC headers of the records posted, by the record's Packet Buffer handle (R179) -/
  hdrs : Tab Sys2Proof.MacHdr
  /-- antenna instants of the last symbols of the frames posted, same key (R226) -/
  ends : Tab Nat
  /-- detection instants less W of their copies, same key (R214, R232) -/
  starts : Tab (List Nat)
  /-- detections that wait in the 64-sample buffer for an identifier (R160): detection time and the context they would open -/
  late : List RxCtx
  /-- TB4 s of the last CTX_FULL event, by port (Table TELE-2) -/
  ctxFullAt : Tab Nat
deriving DecidableEq, Repr

/-- A transmit request (Table SEND-1). -/
structure TxReq where
  pReq : Int
  kind : Nat
  mode : Nat
  channel : Nat
  port : Nat
  buf : Nat
  cell : Option Nat
  /-- kind 3: copies minus 1, Whistle type, low 16 bits of the target ASN -/
  copies : Nat
  wtype : Nat
  target : Nat
  t0 : Nat
  resv : Nat
deriving DecidableEq, Repr

/-- A ramp: its duration r in ns and its 64 points (R190, R191). -/
structure Ramp where
  ns : Nat
  pts : List Nat
deriving DecidableEq, Repr

/-- A burst or Whistle copy admitted to a lane (R186, R196). Times TB4 ns. -/
structure Burst where
  task : Nat
  req : TxReq
  t0 : Nat
  t1 : Nat
  pEff : Int
  pReg : Int
  /-- digital scaling d in 0.25 dB, once on air (R138) -/
  scale : Int
  onAir : Bool
  /-- Whistle copies: number of the copy, and its delay field (R197) -/
  copy : Nat
  delay : Nat
  /-- the profile in force at admission, and the shortest one (R191) -/
  ramp : Ramp
  short : Ramp
  /-- cause with which a burst on air ends early (R143, R144, R192), 0 for none -/
  cut : Nat
deriving DecidableEq, Repr

/-- A Whistle train whose request was taken (R187, R196): copies sent, and the cause its context completes with. -/
structure Train where
  req : TxReq
  sent : Nat
  cause : Nat
  /-- its copies are being placed -/
  placing : Bool
deriving DecidableEq, Repr

/-- The transmit chain. -/
structure Tx where
  /-- bursts admitted, by task_id + 131,072 × (0 for a burst, n + 1 for copy n of a Whistle), + 65,536 for one whose context ended while it
  was on air (R192) -/
  bursts : Tab Burst
  /-- Whistle trains, by task_id -/
  trains : Tab Train
deriving DecidableEq, Repr

/-- Packet Buffer Memory: buffers by handle, and the next handle (R21, R178). (DESIGN CHOICE: log entry 6) -/
structure Pbm where
  bufs : Tab (List Byte)
  next : Nat
deriving DecidableEq, Repr

end Sys2Proof.Machine
end

