-- ==== Sys2Proof/Machine/StTel.lean ====
section
/-! DEFINITION. State of telemetry (16_telemetry.md), of the fault journal (15_resilience.md R441 to R444), of the host interface
(17_host_interface.md), and the record of what the device has sent outward. -/

namespace Sys2Proof.Machine

/-- One record of the Telemetry section of the Blend (R446). -/
structure TelSource where
  enable : Bool
  cls : Nat
  vector : Nat
deriving DecidableEq, Repr

/-- A valid entry of the alarm table (Table TELE-3), with the send-pending bit and the last sending time (ms) of each path (R458). -/
structure Alarm where
  source : Nat
  unit : Nat
  overrun : Bool
  count : Nat
  detail : Nat
  first : Nat
  last : Nat
  pendRing : Bool
  pendEth : Bool
  sentRing : Option Nat
  sentEth : Option Nat
deriving DecidableEq, Repr

/-- Storm mode in force (R459): N at the begin record, records seen per trace type, records left out. -/
structure Storm where
  n : Nat
  seen : Tab Nat
  out : Nat
deriving DecidableEq, Repr

/-- A unit waiting in a path's staging area (R458): kind 2 to 5 and its 32-byte body. -/
structure TelUnit where
  kind : Nat
  body : List Byte
deriving DecidableEq, Repr

/-- A delivery path (R455, R458): staged units oldest first, class_seq and lost by kind. -/
structure TelPath where
  staged : List TelUnit
  seq : Tab Nat
  lost : Tab Nat
deriving DecidableEq, Repr

/-- Telemetry. The pending, mask and status registers stand in the register file. -/
structure Tel where
  /-- records of the Blend's Telemetry section, EV000 first; empty before Second Steep (R446) -/
  sources : List TelSource
  /-- valid alarm entries by index 0 to 511 (R450) -/
  alarms : Tab Alarm
  /-- event log, newest first, at most 2,048 records of 32 bytes (R452) -/
  log : List (List Byte)
  /-- by source × 65,536 + unit: TB4 ns of the last log record and repeats folded since (R452) -/
  logged : Tab (Nat × Nat)
  /-- log sequence number of the next record -/
  logNext : Nat
  /-- trace ring, newest first, at most 32,768 records of 32 bytes (R453) -/
  trace : List (List Byte)
  storm : Option Storm
  ring : TelPath
  eth : TelPath
  /-- sequence number of the next datagram (R457) -/
  dgramSeq : Nat
  /-- TB4 ns before which the rate of R457 lets no further datagram go -/
  dgramFrom : Nat
deriving DecidableEq, Repr

/-- A journal record (Table RES-6); the CRC is a view (R441). `tag` is firmware's tag while OPEN. -/
structure JRec where
  seq : Nat
  kind : Nat
  origin : Nat
  outcome : Nat
  cause : Nat
  opId : Nat
  total : Nat
  done : Nat
  tOpen : Nat
  tUpd : Nat
  detail : Nat
  tag : Option Nat
deriving DecidableEq, Repr

/-- The fault journal: the Kettle ring oldest first (at most 512), the next sequence number, the flash mirror by seq (R444). -/
structure Journal where
  ring : List JRec
  next : Nat
  mirror : Tab JRec
deriving DecidableEq, Repr

/-- A host or management command in a queue (Table HOST-4). `handle` is the management buffer, for origin 5 (R480). -/
structure HostCmd where
  bytes : List Byte
  sqIndex : Nat
  handle : Option Nat
deriving DecidableEq, Repr

/-- A command that has started and not ended: its journal seq. -/
structure RunCmd where
  cmd : HostCmd
  jseq : Nat
  /-- result and data of its effect, once it has had it -/
  result : Option Nat
  data : List Byte
deriving DecidableEq, Repr

/-- A frame-ring pair (R477, R478): the buffers posted on its up ring and not yet used, in order, as (address, length). Its states and
indices stand in its registers. -/
structure FrameRing where
  posted : List (Nat × Nat)
deriving DecidableEq, Repr

/-- An access of `len` bytes at a BAR0 address that waits at the crossing of a stopped Control Complex (R24, R466). -/
structure Crossing where
  m : Sys2Proof.Master
  read : Bool
  addr : Nat
  len : Nat
deriving DecidableEq, Repr

/-- The access reaches the register at an address. -/
def Crossing.touches (x : Crossing) (reg : Nat) : Bool := decide (x.addr < reg + 4 ∧ reg < x.addr + x.len)

/-- The host interface. -/
structure Hif where
  /-- fetched and not started, in queue order (R471) -/
  waiting : List HostCmd
  /-- started and not ended -/
  running : List RunCmd
  /-- management commands submitted and not started (R480) -/
  mqWaiting : List HostCmd
  mqRunning : List RunCmd
  /-- completion entries reserved for commands fetched and not ended (R469) -/
  reserved : Nat
  rings : Tab FrameRing
  /-- vectors whose at-most-once interval runs, and whether a message was deferred in it (R468) -/
  intervals : Tab Bool
  /-- accesses that wait at the crossing of a stopped complex, oldest first (R24, R466) -/
  crossing : List Crossing
  /-- firmware's reads that wait for an unreleased item, oldest first (R256, R419) -/
  itemReads : List Crossing
  /-- the reset of R462 ran while a started command was in service: its completion is not written -/
  orphaned : List RunCmd
  /-- management frames in transmission (R480) -/
  mgmtTx : List Nat
deriving DecidableEq, Repr

/-- A base address register pair of the endpoint: its number, its size in bytes, prefetchable. -/
structure PcieBar where
  number : Nat
  bytes : Nat
  prefetch : Bool
deriving DecidableEq, Repr

/-- The PCI Express configuration (Table HOST-1). Link speeds are in MT/s; the BARs are 64 bits wide and those not listed, like the expansion
ROM, read 0; MSI and INTx are absent. -/
structure PcieConfig where
  vendor : Nat
  device : Nat
  revision : Nat
  classCode : Nat
  subVendor : Nat
  subDevice : Nat
  functions : Nat
  widths : List Nat
  speeds : List Nat
  /-- trained width and speed code, as HIF_STATUS -/
  width : Nat
  speed : Nat
  bars : List PcieBar
  interruptPin : Nat
  msixVectors : Nat
  msixTable : Nat
  msixPba : Nat
  maxPayload : Nat
  tagBits : Nat
  aer : Bool
  aspmL1 : Bool
  aspmL0s : Bool
  functionReset : Bool
deriving DecidableEq, Repr

/-- What the device sends outward. The newest stands first in the record of the state. (DESIGN CHOICE: log entry 9) -/
inductive Output where
  /-- a write to host memory: completion entries, ring descriptors, buffers, telemetry units -/
  | hostWrite (addr : Nat) (bytes : List Byte)
  /-- a read request to host memory -/
  | hostRead (addr len : Nat)
  /-- the MSI-X message of a vector (R448, R468) -/
  | msix (vector : Nat)
  /-- a completion with an error status of the endpoint: 1 Completer Abort, 2 Poisoned (R463, R465, R466) -/
  | pcieError (kind offset : Nat)
  /-- bytes returned to a BAR2 read (R465) -/
  | bar2Data (offset : Nat) (bytes : List Byte)
  /-- a telemetry datagram of UDP over IPv6 on an Ethernet port: addresses, destination port, dscp, UDP payload (R457) -/
  | datagram (port : Nat) (source dest : List Byte) (dstPort dscp : Nat) (payload : List Byte)
  /-- an Ethernet frame or packet put into the transmit FIFO of a port -/
  | ethernet (port : Nat) (bytes : List Byte)
  /-- a control message to a radio head: port, id, tag, payload (Table YLINK-3) -/
  | control (port id tag : Nat) (payload : List Byte)
  /-- a control message answered by an emulated head -/
  | emulated (port id tag : Nat) (payload : List Byte)
  /-- a key or random bytes handed to a requester outside registers -/
  | reply (bytes : List Byte)
deriving DecidableEq, Repr

end Sys2Proof.Machine
end

