-- ==== Sys2Proof/Machine/StTim.lean ====
section
/-! DEFINITION. State of the time unit and of the Kettle's clock (11_time.md). -/

namespace Sys2Proof.Machine

/-- A Strainer filter of an input (R493): its output level, how long the input has held the other level, and the width that this count
completes with. -/
structure PinFilter where
  level : Bool
  run : Nat
  width : Nat
deriving DecidableEq, Repr

/-- A time base (R293, R295): seconds, nanoseconds below 10^9, fraction in 2^-48 ns; its rate word and servo integral, and
the registers that TIM_TB_SEL selects. -/
structure TimeBase where
  sec : Nat
  ns : Nat
  frac : Nat
  rate : Int
  /-- servo integral of R301, 2^-40 -/
  integral : Int
  /-- TB4 ns of the last offset sample (τ of R301) -/
  lastSample : Option Nat
  /-- consecutive samples with |θ| ≤ 100 ns (R302) -/
  good : Nat
  /-- last θ, 2^-16 ns -/
  theta : Int
  refused : Nat
  epochs : Nat
  /-- the epoch's step has been used (R297) -/
  stepped : Bool
  locked : Bool
  clamped : Bool
  /-- role, domain and transport of Table TIME-2 -/
  role : Nat
  domain : Nat
  transport : Nat
  /-- TIM_TB_CTRL: i_sh, p_sh, servo_en, step_en -/
  iSh : Nat
  pSh : Nat
  servoEn : Bool
  stepEn : Bool
  /-- physical counter that serves this base; none for a base that has given its counter to another (R434) -/
  counter : Option Nat
deriving DecidableEq, Repr

/-- A mesh source (R303, R304): validity, since when (TB4 ns), its last θ (2^-16 ns) and the TB4 ns of it, and the differences
θ_Y − θ_X of the last 16 s against the selected source as (TB4 ns, 2^-16 ns). -/
structure MeshSource where
  valid : Bool
  since : Nat
  theta : Int
  at? : Option Nat
  diffs : List (Nat × Int)
deriving DecidableEq, Repr

/-- PPS and time of day (R316 to R320). -/
structure Pps where
  /-- TB4 ns of the last edge, the reference of R317 -/
  lastEdge : Option Nat
  good : Nat
  /-- accepted ToD sentences in a row and the TAI second of the last -/
  todCount : Nat
  todSec : Option Nat
  /-- edges since the one that sentence labels (R318) -/
  edges : Nat
  /-- |θ| ≥ 0.5 s at the last good edge with no step allowed (R319) -/
  far : Bool
  /-- PPS_OUT ball level (R320) -/
  out : Bool
deriving DecidableEq, Repr

/-- The time unit. The held offset stands in TIM_MESH_HOLD, the selected source in TIM_STATUS. -/
structure Tim where
  bases : List TimeBase
  sources : Tab MeshSource
  /-- the neighbour that source 4 follows in recovery node mode (R303) -/
  neighbour : Option Nat
  pps : Pps
  /-- the retained integral about which TB0's rate stays within ±20 ppm until TB0 first locks (R395) -/
  converge : Option Int
  /-- counters taken out of use (R434) -/
  deadCounters : List Nat
deriving DecidableEq, Repr

/-- The Kettle: real-time clock, retained offsets and other retained memory that no KTL_ register shows. -/
structure Kettle where
  sec : Nat
  tick : Nat
  /-- RTC − TB0 offset O and TB4 − RTC offset, ns, and the TB4 recorded (R322) -/
  ofsTb0 : Option Int
  ofsTb4 : Int
  tb4 : Nat
  /-- TB4 and its offset have been recorded -/
  tb4Valid : Bool
  integral : Int
  /-- RTC ns at which O was recorded; whether the trim has been measured -/
  ofsAt : Nat
  trimmed : Bool
  /-- duty copy, by head × 32 + sub-band, µs (R148) -/
  duty : Tab Nat
  /-- the copy for every meter not listed -/
  dutyRest : Nat
  /-- descriptor CRC per port (R116) -/
  descCrc : Tab Nat
  /-- wakes accepted: RTC seconds, newest first (R150) -/
  wakes : List Nat
  /-- schedule summary copies A and B, by 0 and 1 (R391): sequence, valid, bytes -/
  summaries : Tab (Nat × Bool × List Byte)
  /-- retained minimum svn of the Blend (R47, R409) -/
  svnBlend : Nat
deriving DecidableEq, Repr

end Sys2Proof.Machine
end

