-- ==== Sys2Proof/Machine/StTs.lean ====
section
/-! DEFINITION. State of the slotted MAC (08_tsch.md), of the tables (09_tables.md) and of forwarding (10_forwarding.md). -/

namespace Sys2Proof.Machine

/-- An expectation (R214, R215): the ring entry of Table TSCH-6, the head it covers and its window in TB4 ns. -/
structure Expect where
  cell : Nat
  target : Nat
  asn : Nat
  cls : Nat
  channel : Nat
  pan : Nat
  port : Nat
  from_ : Nat
  until_ : Nat
  /-- slotframe of the cell as it stood at its evaluation (R209) -/
  handle : Nat
deriving DecidableEq, Repr

/-- A burst the scheduler or a handler has requested, by the task_id of its context while it runs: a frame to a node, an ack, a
beacon, a broadcast frame or campaign block, or a Whistle (R213, R218, R226). -/
structure Attempt where
  task : Option Nat
  /-- burst_kind of Table SEND-1 -/
  kind : Nat
  cell : Nat
  target : Nat
  pan : Nat
  asn : Nat
  port : Nat
  channel : Nat
  /-- queue entry of the frame sent, for kind 0 to a node or a Whistle's bound frame -/
  entry : Option Nat
  /-- deficit charged at selection (R275), to be refunded at a skip (R276) -/
  charged : Nat
  /-- class 0 expectation placed after the burst (R214), waiting for the ack -/
  exp : Option Nat
  t0 : Nat
  /-- buffer made for the burst, released with the last attempt that carries it -/
  buf : Option Nat
  /-- slotframe of the cell as it stood at its evaluation (R209) -/
  handle : Nat
deriving DecidableEq, Repr

/-- An expected beacon of a peer (R232): an occurrence of a quiet cell, its class 1 window in TB4 ns, and whether a beacon fell inside. -/
structure OpenBeacon where
  cell : Nat
  asn : Nat
  pan : Nat
  channel : Nat
  from_ : Nat
  until_ : Nat
  heard : Bool
deriving DecidableEq, Repr

/-- A peer (R232 to R234): 0 ABSENT, 1 TRACKING, 2 LOST. -/
structure Peer where
  state : Nat
  misses : Nat
  released : Bool
  joinMetric : Nat
  /-- last 8 offsets, ns, newest first -/
  offsets : List Int
  holding : Bool
  bestPort : Nat
  /-- expected beacons whose miss decision is open (R232) -/
  open_ : List OpenBeacon
deriving DecidableEq, Repr

/-- An allocator of short addresses (R230). -/
structure Alloc where
  used : List Nat
  quarantine : List Nat
deriving DecidableEq, Repr

/-- An Enhanced Beacon as built (R220): its payload IEs, the ASN at bytes 4 to 8, and whether anything was left out. -/
structure Beacon where
  ies : List Byte
  trunc : Bool
deriving DecidableEq, Repr

/-- The scheduler. TS_ registers hold its counters; cells lie in Shared Table Memory. -/
structure Ts where
  exps : Tab Expect
  nextExp : Nat
  /-- expectations placed for a slot that is not over (R215), by PAN slot × 2^40 + ASN -/
  placed : Tab Nat
  attempts : List Attempt
  peers : Tab Peer
  alloc : Tab Alloc
  beacons : Tab Beacon
  /-- First Steep (R392), by PAN slot: p_req of the beacons and the advertising cells (slot offset, channel offset) of the summary -/
  minimal : Tab (Int × List (Nat × Nat))
  /-- the time source of recovery node mode has been heard since it was selected (R234) -/
  srcHeard : Bool
  /-- node (NIX) and ASN of the last Enhanced Ack (R222) -/
  acked : Tab Nat
  /-- quiet channels of slots in evaluation: (PAN, ASN, channel) -/
  quiet : List (Nat × Nat × Nat)
  /-- nodes and keys whose exhaustion has been raised (R224), NIX × 2 + key -/
  exhausted : List Nat
deriving DecidableEq, Repr

/-- A table request port (Table TABLE-7), by requester: an engine, or firmware. -/
structure ReqPort where
  op : Nat
  index : Nat
  key : List Byte
  result : Nat
  found : Nat
  arg : Nat
  new : Nat
  data : List Byte
deriving DecidableEq, Repr

/-- The tables. -/
structure Tbl where
  /-- Shared Table Memory by logical byte address (R238), tables 0 to 5 and 7; an unlisted byte reads 0 -/
  mem : Memory
  /-- bucket versions (R236), by table × 2^20 + bucket -/
  versions : Tab Nat
  /-- serial-path holds on buckets, same key -/
  held : List Nat
  /-- by unit, the last 256 sector and NIX pairs posted (R249), newest first: sector × 2^20 + NIX and TB4 ms -/
  learned : Tab (List (Nat × Nat))
  /-- request ports: 0 firmware, 1 + engine -/
  ports : Tab ReqPort
  /-- next Hearing entry of the sweep (R252) -/
  sweep : Nat
  /-- poisoned words (R432): logical byte addresses, multiples of 8 -/
  poison : List Nat
deriving DecidableEq, Repr

/-- A queue entry (Table FWD-3); the links next_q and next_n are read from the queues. `src` is the best port of an uplink frame. -/
structure QEntry where
  up : Bool
  cls : Nat
  yellow : Bool
  fragment : Bool
  last : Bool
  nix : Nat
  buf : Nat
  length : Nat
  sector : Nat
  retries : Nat
  txFc : Nat
  key : Nat
  pan : Nat
  tag : Nat
  enq : Nat
  cell : Option Nat
  /-- ASN of the occurrence the frame is bound to -/
  boundAsn : Nat
  port : Option Nat
  /-- in service: taken from its queue for an attempt and not yet done -/
  out : Bool
  /-- a downlink frame before its sealing, for nonce_mode 1 (R224, R272); the inner packet of a recovery frame (R290) -/
  plain : List Byte
  /-- place in the order of admission (R273, R19) -/
  ord : Nat
deriving DecidableEq, Repr

/-- A shaper in force (R279): tokens in 1/8,000 octet; rate kb/s, burst, refill_us in force since the last refill. -/
structure Shaper where
  tokens : Int
  rate : Nat
  burst : Nat
  refill : Nat
deriving DecidableEq, Repr

/-- A policer's buckets and last update (R283). -/
structure Policer where
  tokC : Nat
  tokX : Nat
  tLast : Nat
deriving DecidableEq, Repr

/-- A datagram in reassembly (R264): NIX, tag, size, fragments by offset. -/
structure Reasm where
  nix : Nat
  tag : Nat
  size : Nat
  frags : Tab (List Byte)
  /-- buffer handles of the fragments' frames -/
  bufs : List Nat
deriving DecidableEq, Repr

/-- Forwarding. FWD_STATUS holds link and recovery states. -/
structure Fwd where
  entries : Tab QEntry
  /-- entry indices of a class queue, front first; queue number is direction (0 up) × 128 + sector × 8 + class -/
  queues : Tab (List Nat)
  deficit : Tab Nat
  /-- DRR pointer of a sector downlink (R275) -/
  ptrDown : Tab Nat
  /-- DRR pointer of the uplink ring, 0 to 127 (R278) -/
  ptrUp : Nat
  shapers : Tab Shaper
  panPol : Tab Policer
  reasm : List Reasm
  /-- datagrams of which a fragment was dropped: NIX × 65,536 + tag (R273) -/
  lost : List Nat
  /-- broadcast queues by PAN slot × 2^20 + target: buffer handles -/
  bcast : Tab (List Nat)
  drops : Tab (Nat × Nat)
  /-- recovery queue (R290): queue numbers and entries, and its octets -/
  recovQ : List (Nat × Nat)
  /-- candidates tried in this round of JOINING -/
  tried : List Nat
  /-- TB4 ns from which the tunnel's pace admits the next packet (R290) -/
  recovNext : Nat
  /-- order of admission of the next entry -/
  nextOrd : Nat
deriving DecidableEq, Repr

end Sys2Proof.Machine
end

