-- ==== Sys2Proof/Machine/StYl.lean ====
section
/-! DEFINITION. State of the Yarlink ports (04_yarlink.md). -/

namespace Sys2Proof.Machine

/-- An outstanding control request (R106): tag, id, payload, whether it is the second sending (R110), and the at instant of a timed one, TB4 ns. -/
structure CtrlReq where
  tag : Nat
  id : Nat
  payload : List Byte
  resent : Bool
  at? : Option Nat
deriving DecidableEq, Repr

/-- An answer an emulated head owes (R123): SYNTH_STATUS after synth_settle_us, CAL_DONE after 1 ms. -/
structure EmuAnswer where
  id : Nat
  tag : Nat
  payload : List Byte
deriving DecidableEq, Repr

/-- One Yarlink port. Port state, cause, error counts, latency figures and descriptor CRC stand in its YL_ registers. -/
structure Port where
  /-- outstanding requests, oldest first, at most 16 -/
  reqs : List CtrlReq
  /-- requests that wait for one of the 16 places, oldest first -/
  queued : List CtrlReq
  /-- tag of the next request, 1 to 255 -/
  nextTag : Nat
  /-- consecutive failures of any request, and of TELEM_POLL (R110) -/
  fails : Nat
  telFails : Nat
  /-- kept measurements of the run of R102: RTT and turnaround T, in 100 ps, newest first -/
  run : List (Nat × Nat)
  /-- d_down averaged and waiting for the hyperframe boundary, 100 ps -/
  dPending : Option Nat
  /-- upstream STAMPs seen 4,096 blocks apart in ALIGN -/
  stamps : Nat
  /-- consecutive superframes with the STAMP absent, and with a sample-count mismatch (R118) -/
  absent : Nat
  mismatched : Nat
  /-- sync errors of the last 64 blocks, newest first -/
  syncWin : List Bool
  locked : Bool
  /-- descriptor parts received, by offset, and the descriptor accepted -/
  descParts : Tab (List Byte)
  desc : List Byte
  /-- cal_valid of the last upstream STAMP (R116) -/
  calValid : Bool
  /-- progress of CALIBRATE: latency run, tunes by path, calibration kinds left, initial gain -/
  latencyDone : Bool
  tuned : List Nat
  calLeft : List Nat
  gainDone : Bool
  /-- hold-off of DOWN in ms (R119), and whether the port was enabled before -/
  holdoff : Nat
  everEnabled : Bool
  /-- an enable written during DRAINING (R121) -/
  enablePending : Bool
  /-- sample streams run (R100) -/
  streams : Bool
  emu : List EmuAnswer
  /-- the downstream hyperframe last begun: its number and the departure of its STAMP (h, 0), TB4 in 100 ps (R102, R125) -/
  hyperNum : Nat
  hyperAt : Nat
  /-- far-end loopback of the head in force: `on` of the last LOOP_SET answered OK, or obeyed by an emulated head (R122, R123) -/
  loopApplied : Nat
  /-- loopback change waiting for a hyperframe boundary (R199): the TX_LOOP word -/
  loopPending : Option Word
  /-- the device's own count of upstream samples since the stream began (R117) -/
  upCount : Nat
  /-- the state its STAMP showed when the state last changed, and the TB4 instant of that change, 100 ps (R100) -/
  shown : Nat
  stateAt : Nat
deriving DecidableEq, Repr

end Sys2Proof.Machine
end

