-- ==== Sys2Proof/Machine/State.lean ====
section
/-! DEFINITION. The state of the block: the register file, the state of every unit, the fuses, the queue of commands. -/

namespace Sys2Proof.Machine

/-- A master as a key of the tables of R9. -/
def Master.key : Sys2Proof.Master → Nat
  | .host => 0
  | .hcq => 1
  | .mgmt => 2
  | .cc _ => 3
  | .debug => 4
  | .engine e => 16 + e

/-- Everything but the fuses and the queue. -/
structure Dev where
  /-- registers whose value differs from reset, by BAR0 address (R3); a register not listed holds its reset value -/
  regs : Tab Word
  /-- by master: captured upper words (address and value) and the held low word of R9, by master key × 2^32 + address -/
  shadows : Tab Word
  held : Tab Word
  /-- the bytes the last read access returned (R3), lowest first, zero above, by master key -/
  rdata : Tab Word64
  /-- start stage (Table ARCH-8): 0 before First Steep, 1, 2, 3 Full Brew -/
  stage : Nat
  /-- isolated power domains (R27): 0 to 33 Caddies, 64 and 65 CC-A and CC-B, 128 + g Yarlink SerDes, 192 Ethernet, 200 PCI Express -/
  isolated : List Nat
  /-- POR_N low: the core is in reset -/
  inReset : Bool
  /-- number of the next draw of a free value: the MODEL's own counter -/
  draws : Nat
  /-- what the device has sent outward, newest first: the MODEL's own record -/
  outs : List Output
  tel : Tel
  jrnl : Journal
  hif : Hif
  bld : Bld
  dsp : Dsp
  ports : Tab Port
  hc : Hc
  rx : Rx
  tx : Tx
  pbm : Pbm
  tim : Tim
  ktl : Kettle
  ts : Ts
  tbl : Tbl
  fwd : Fwd
  vault : Sec
  boot : Boot
  cmp : Cmp
  res : Res
deriving DecidableEq, Repr

/-- Faults: none. The spec gives every command an effect, so no command ends in a fault. -/
inductive Fault where
deriving DecidableEq, Repr

/-- Refusals. -/
inductive Refusal where
  /-- raised by an arm of `exec` whose command has no meaning yet; safe -/
  | notModelled (mnemonic : String)
deriving DecidableEq, Repr

/-- The machine: the device, its fuses, and the commands that wait, first in first out. -/
structure State where
  dev : Dev
  fuses : Fuses
  pending : List Sys2Proof.Instr
deriving DecidableEq, Repr

/-! ### Reset -/

/-- The core and the Kettle before anything happened to them: every register at its reset value (R11), nothing listed, nothing kept. (DESIGN CHOICE: log entry 4) (DESIGN CHOICE: log entry 5) (DESIGN CHOICE: log entry 6) -/
def Dev.blank : Dev where
  regs := []
  shadows := []
  held := []
  rdata := []
  stage := 0
  isolated := []
  inReset := false
  draws := 0
  outs := []
  tel := { sources := [], alarms := [], log := [], logged := [], logNext := 0, trace := [], storm := none, ring := ⟨[], [], []⟩,
           eth := ⟨[], [], []⟩, dgramSeq := 0, dgramFrom := 0 }
  jrnl := { ring := [], mirror := [], next := 0 }
  hif := { waiting := [], running := [], mqWaiting := [], mqRunning := [], reserved := 0, rings := [], intervals := [], crossing := [], itemReads := [],
           orphaned := [], mgmtTx := [] }
  bld := { load := none, cfg := [], svn := 0, accepted := none, pending := none, log := [] }
  dsp := { tasks := [], caddies := [], engines := [], locks := [], holding := [], held := [], wq := [], accepting := false }
  ports := []
  hc := { lock := [], heads := [], duty := [], dutyRest := [], recals := [] }
  rx := { channels := [], ctx := [], groups := [], nextGroup := 0, recent := [], frames := [], hdrs := [], ends := [], starts := [], late := [], ctxFullAt := [] }
  tx := { bursts := [], trains := [] }
  pbm := { bufs := [], next := 0 }
  tim := { bases := (List.range 8).map fun n =>
             ⟨0, 0, 0, 0, 0, none, 0, 0, 0, 0, false, false, false, 5, 0, 0, 6, 2, true, true, some n⟩,
           sources := [], neighbour := none, pps := ⟨none, 0, 0, none, 0, false, false⟩, converge := none, deadCounters := [] }
  ktl := { sec := 0, tick := 0, ofsTb0 := none, ofsTb4 := 0, tb4 := 0, tb4Valid := false, integral := 0, ofsAt := 0, trimmed := false,
           duty := [], dutyRest := 0, descCrc := [], wakes := [], summaries := [], svnBlend := 0 }
  ts := { exps := [], nextExp := 0, placed := [], attempts := [], peers := [], alloc := [], beacons := [], minimal := [], srcHeard := false,
          acked := [], quiet := [], exhausted := [] }
  tbl := { mem := [], versions := [], held := [], learned := [], ports := [], sweep := 0, poison := [] }
  fwd := { entries := [], queues := [], deficit := [], ptrDown := [], ptrUp := 0, shapers := [], panPol := [], reasm := [], lost := [],
           bcast := [], drops := [], recovQ := [], tried := [], recovNext := 0, nextOrd := 0 }
  vault := { slots := [], remap := [], envCtr := 0, ownerPending := none, ceilings := [], tlog := [], tseq := 0, hold := false,
             alarmDue := false, sealCopy := none, sealing := none, sealAgain := false, shadow := [], meas := [], lineage := [], sets := [],
             gens := [], walks := [], recov := none, cache := [], fsu := [], passes := 0 }
  boot := { conf := [], areas := [], density := 2048, download := none, open_ := false, act := none, settings := [], settingsUsed := 0,
            base := none, counter := none, baseWriting := none, counterWriting := none, imageSeq := 0, restoreWait := false,
            restoreHeld := false, brewReady := false, scanned := false, started := false, booted := false, run := none, header := [],
            trial := false, porAt := 0, brewAt := 0, cert := [] }
  cmp := { camps := [], flash := [], served := [] }
  res := { gate := { a := ⟨[], [], 0, 0⟩, b := ⟨[], [], 0, 0⟩, mismatch := none, lag := none, swapDue := false, failover := false,
                     holdoffDone := false, swapFrom := 0, holdFrom := 0, boundary := 0, isolate := none, tampers := [] },
           errors := [], rowCopies := [], bankCopies := [], bankMap := [], spareTests := [],
           bist := { pos := 0, current := none, inSlice := false, rerun := false, wasStopped := false, spare := false, slices := [] },
           log := [], nextSeq := 0, logLate := false, func := ⟨[], [], [], none⟩, trellisOff := [], scrub := 0, fetching := none }

/-- Fuses as made: life cycle BLANK, nothing burnt. (DESIGN CHOICE: log entry 5) -/
def Fuses.blank : Fuses := ⟨0, none, [], [], 0, none, 0, 0, [], 0, [], []⟩

/-- The machine right after reset: power good, POR_N high, the start sequence (POR_RELEASE) not yet run, no command waiting. (DESIGN CHOICE: log entry 4) -/
def State.reset : State := ⟨Dev.blank, Fuses.blank, []⟩

end Sys2Proof.Machine
end

