-- ==== Sys2Proof/Machine/Ops.lean ====
section
/-! DEFINITION. Named operations over the register file, the fields, the time views and the record of outputs. -/

namespace Sys2Proof.Machine

/-! ### Registers and fields -/

/-- The word a register holds (R3, R11): its listed value, or its reset value. -/
def Dev.reg (d : Dev) (a : Nat) : Word := Tab.getD d.regs a (regReset a)

/-- Hold a word in a register; a register back at its reset value is not listed. -/
def Dev.setReg (d : Dev) (a : Nat) (w : Word) : Dev :=
  { d with regs := if w = regReset a then Tab.del d.regs a else Tab.put d.regs a w }

/-- A field of a register as a number. -/
def Dev.fld (d : Dev) (f : Fld) : Nat := getBits (d.reg f.reg) f.hi f.lo

/-- A one-bit field as a truth value. -/
def Dev.bit (d : Dev) (f : Fld) : Bool := d.fld f != 0

/-- Set a field, its register's other bits kept. -/
def Dev.setFld (d : Dev) (f : Fld) (v : Nat) : Dev := d.setReg f.reg (setBits (d.reg f.reg) f.hi f.lo v)

/-- Set a one-bit field. -/
def Dev.setBit (d : Dev) (f : Fld) (b : Bool) : Dev := d.setFld f (b2n b)

/-- The largest value of a field. -/
def Fld.max (f : Fld) : Nat := 2 ^ (f.hi + 1 - f.lo) - 1

/-- Add to a counter field, saturating at all ones (R10). -/
def Dev.addFld (d : Dev) (f : Fld) (n : Nat) : Dev := d.setFld f (min (d.fld f + n) f.max)

/-- Count one in a saturating counter (R10). -/
def Dev.inc (d : Dev) (f : Fld) : Dev := d.addFld f 1

/-- Clear a register to zero. -/
def Dev.clearReg (d : Dev) (a : Nat) : Dev := d.setReg a 0

/-- Clear registers to zero. -/
def Dev.clearRegs (d : Dev) (as : List Nat) : Dev := as.foldl Dev.clearReg d

/-- A 64-bit register pair as one number (R9). -/
def Dev.reg64 (d : Dev) (lo : Nat) : Nat := (d.reg lo).toNat + 2 ^ 32 * (d.reg (lo + 4)).toNat

/-- Set a 64-bit register pair. -/
def Dev.setReg64 (d : Dev) (lo v : Nat) : Dev :=
  (d.setReg lo (BitVec.ofNat 32 v)).setReg (lo + 4) (BitVec.ofNat 32 (v / 2 ^ 32))

/-- The signed value of an n-bit number. -/
def toSigned (n v : Nat) : Int := if v < 2 ^ (n - 1) then (v : Int) else (v : Int) - 2 ^ n

/-- The n-bit two's-complement encoding of an integer. -/
def ofSigned (n : Nat) (v : Int) : Nat := (v % (2 ^ n : Int)).toNat

/-- Clamp an integer. -/
def clampInt (v lo hi : Int) : Int := if v < lo then lo else if hi < v then hi else v

/-! ### Time views (Table TIME-1) -/

/-- A time base; TB4's number is 4. -/
def Dev.tb (d : Dev) (n : Nat) : TimeBase :=
  (d.tim.bases[n]?).getD ⟨0, 0, 0, 0, 0, none, 0, 0, 0, 0, false, false, false, 5, 0, 0, 6, 2, true, true, some n⟩

/-- Nanoseconds view of a base, 64 bits (R294). -/
def TimeBase.nanos (t : TimeBase) : Nat := (t.sec * 1000000000 + t.ns) % 2 ^ 64

/-- TB4 nanoseconds: the time that records and timers of every block carry. -/
def Dev.ns (d : Dev) : Nat := (d.tb 4).nanos

/-- TB4 in 100 ps, the resolution of link timestamps (R102). -/
def Dev.ts100 (d : Dev) : Nat := 10 * d.ns + (d.tb 4).frac * 10 / 2 ^ 48

/-- TB4 milliseconds and seconds views. -/
def Dev.ms (d : Dev) : Nat := d.ns / 1000000
def Dev.secs (d : Dev) : Nat := (d.tb 4).sec

/-! ### Outputs and free values -/

/-- Record something sent outward. (DESIGN CHOICE: log entry 9) -/
def Dev.emit (d : Dev) (o : Output) : Dev := { d with outs := o :: d.outs }

/-- Draw a free value of the model: the value, and the state with the draw counted. (DESIGN CHOICE: log entry 7) -/
def Dev.draw (d : Dev) : Nat × Dev := (Config.freeValue d.draws, { d with draws := d.draws + 1 })

/-- Draw bytes of the DRBG (R371). (DESIGN CHOICE: log entry 7) -/
def Dev.drawBytes (d : Dev) (n : Nat) : List Byte × Dev := (Config.random d.draws n, { d with draws := d.draws + 1 })

/-- Answer a read access of a master: the addressed bytes, lowest first, zero above (R3). -/
def Dev.answer (d : Dev) (m : Sys2Proof.Master) (v : Nat) : Dev :=
  { d with rdata := Tab.put d.rdata (Master.key m) (BitVec.ofNat 64 v) }

/-! ### Shadows and held values of register pairs (R9) -/

/-- Key of a master's shadow or held value for an address. -/
def pairKey (m : Sys2Proof.Master) (a : Nat) : Nat := Master.key m * 2 ^ 32 + a

/-- Capture a word into a master's shadow of an address. -/
def Dev.capture (d : Dev) (m : Sys2Proof.Master) (a : Nat) (w : Word) : Dev :=
  { d with shadows := Tab.put d.shadows (pairKey m a) w }

/-- A read of an _HI register: the master's shadow, consumed, or the live upper half. -/
def Dev.takeShadow (d : Dev) (m : Sys2Proof.Master) (a : Nat) (live : Word) : Word × Dev :=
  match Tab.find d.shadows (pairKey m a) with
  | some w => (w, { d with shadows := Tab.del d.shadows (pairKey m a) })
  | none => (live, d)

/-- A write of an _LO register is held for that master; a second write replaces it. -/
def Dev.hold (d : Dev) (m : Sys2Proof.Master) (lo : Nat) (w : Word) : Dev :=
  { d with held := Tab.put d.held (pairKey m lo) w }

/-- The held low half of a pair, consumed; zero when the master holds none. -/
def Dev.takeHeld (d : Dev) (m : Sys2Proof.Master) (lo : Nat) : Word × Dev :=
  ((Tab.find d.held (pairKey m lo)).getD 0, { d with held := Tab.del d.held (pairKey m lo) })

/-! ### Results of host commands -/

/-- Note a result and data on the started command of a journal seq (R472). -/
def RunCmd.note (j code : Nat) (data : List Byte) (r : RunCmd) : RunCmd :=
  if r.jseq = j then { r with result := some code, data := data } else r

/-- Hand a result to who asked: a started command of the HCQ or of the management channel keeps it for its completion; a master reads the
registers that the command's own rule fills. -/
def Dev.toCmd (d : Dev) (w : Sys2Proof.Who) (code : Nat) (data : List Byte) : Dev :=
  match w with
  | .cmd j => { d with hif := { d.hif with running := d.hif.running.map (RunCmd.note j code data),
                                           orphaned := d.hif.orphaned.map (RunCmd.note j code data),
                                           mqRunning := d.hif.mqRunning.map (RunCmd.note j code data) } }
  | .master _ => d

/-- Whether a command speaks for a master's registers. -/
def isMaster : Sys2Proof.Who → Bool
  | .cmd _ => false
  | .master _ => true

/-! ### Typed records with a default -/

/-- A Yarlink port before anything happened to it. -/
def Port.init : Port :=
  ⟨[], [], 1, 0, 0, [], none, 0, 0, 0, [], false, [], [], false, false, [], [], false, 0, false, false, false, [], 0, 0, 0, none, 0, 0, 0⟩

/-- The state of port `p`. -/
def Dev.port (d : Dev) (p : Nat) : Port := Tab.getD d.ports p Port.init

/-- Replace the state of port `p`. -/
def Dev.setPort (d : Dev) (p : Nat) (x : Port) : Dev := { d with ports := Tab.put d.ports p x }

/-- A head before anything happened to it. -/
def Head.init : Head :=
  ⟨[], false, false, false, false, 0, 0, 0, none, [], none, [], 0, 0, [], [], [], [], none, 0, 0, false, [], [], [], false, 0, 0⟩

/-- The state of the head on port `p`. -/
def Dev.head (d : Dev) (p : Nat) : Head := Tab.getD d.hc.heads p Head.init

/-- Replace the state of the head on port `p`. -/
def Dev.setHead (d : Dev) (p : Nat) (h : Head) : Dev := { d with hc := { d.hc with heads := Tab.put d.hc.heads p h } }

/-- Sections of the active configuration. -/
def Dev.sec (d : Dev) (t i : Nat) : List Byte := secBody d.bld.cfg t i

/-- Topology, band plan and PHY modes of the active configuration. -/
def Dev.topo (d : Dev) : List Byte := d.sec 1 0xFFFF
def Dev.band (d : Dev) : List Byte := d.sec 2 0xFFFF
def Dev.phy (d : Dev) : List Byte := d.sec 3 0xFFFF

/-- Field of the Radio and recovery parameters with its default of Table BLEND-8: capture threshold in dB, backhaul-loss time
and peer cell hold in s. -/
def Dev.captureDb (d : Dev) : Nat := if d.sec 15 0xFFFF = [] then 6 else field (d.sec 15 0xFFFF) 0 1
def Dev.backhaulS (d : Dev) : Nat := if d.sec 15 0xFFFF = [] then 5 else field (d.sec 15 0xFFFF) 2 2
def Dev.peerHoldS (d : Dev) : Nat := if d.sec 15 0xFFFF = [] then 30 else field (d.sec 15 0xFFFF) 4 2

/-- Dispatcher tuning with its defaults: idle time in µs, warm minimum, decision trace. -/
def Dev.idleUs (d : Dev) : Nat := if d.sec 16 0xFFFF = [] then 50 else field (d.sec 16 0xFFFF) 0 2
def Dev.warmMin (d : Dev) : Nat := if d.sec 16 0xFFFF = [] then 2 else field (d.sec 16 0xFFFF) 2 1

/-- Resilience parameters with their defaults: role-swap interval in h, BIST rotation. -/
def Dev.swapHours (d : Dev) : Nat := if d.sec 18 0xFFFF = [] then 6 else field (d.sec 18 0xFFFF) 0 1
def Dev.bistOn (d : Dev) : Bool := d.sec 18 0xFFFF = [] || field (d.sec 18 0xFFFF) 1 1 == 1

/-- Entry count of a table under the geometry in force; Table BLEND-7's default before one is (R43). -/
def Dev.tableEntries (d : Dev) (t : Nat) : Nat :=
  if d.sec 7 0xFFFF = [] then [262144, 393216, 524288, 262144, 1048576, 262144, 65536, 2048, 65536].getD t 0
  else geoEntries (d.sec 7 0xFFFF) t

/-! ### What a command changes -/

/-- What a command answers. -/
abbrev Out : Type := Host.Outcome State Fault Refusal

/-- The next state of a command that changes the device alone: fuses and queue stay. While POR_N is low the core is in reset and does
nothing (R485, R486). (DESIGN CHOICE: log entry 20) -/
def State.onDev (s : State) (f : Dev → Dev) : Out := .next (if s.dev.inReset then s else { s with dev := f s.dev })

/-- The next state of an access of the host's bus: while the PCI Express domain is isolated nothing reaches the device (R27). (DESIGN CHOICE: log entry 114) -/
def State.onHost (s : State) (f : Dev → Dev) : Out := s.onDev fun d => if d.isolated.contains 200 then d else f d

/-- The next state of a command that reads the fuses and changes the device alone. -/
def State.onDevF (s : State) (f : Fuses → Dev → Dev) : Out := .next (if s.dev.inReset then s else { s with dev := f s.fuses s.dev })

/-- The next state of a command that reads or burns fuses too. -/
def State.onFuses (s : State) (f : Fuses → Dev → Fuses × Dev) : Out :=
  .next (if s.dev.inReset then s else { s with dev := (f s.fuses s.dev).2, fuses := (f s.fuses s.dev).1 })

/-- The next state of a command that the Kettle or the monitors answer, whatever POR_N is. (DESIGN CHOICE: log entry 20) -/
def State.onKettle (s : State) (f : Dev → Dev) : Out := .next { s with dev := f s.dev }

/-- The same for one that reads or burns fuses. -/
def State.onKettleF (s : State) (f : Fuses → Dev → Fuses × Dev) : Out :=
  .next { s with dev := (f s.fuses s.dev).2, fuses := (f s.fuses s.dev).1 }

/-! ### What a reset leaves -/

/-- The core is reset: what lies in the Kettle and in flash stays (R11). (DESIGN CHOICE: log entry 21) -/
def coreReset (d : Dev) : Dev :=
  let b := Dev.blank
  let v := d.vault
  { b with
    regs := d.regs.filter fun e => within e.1 0x100000 0x1FFFFF
    inReset := d.inReset
    draws := d.draws
    outs := d.outs
    jrnl := d.jrnl
    ktl := d.ktl
    bld := { b.bld with log := d.bld.log }
    vault := { b.vault with slots := v.slots, remap := v.remap, envCtr := v.envCtr, ownerPending := v.ownerPending, ceilings := v.ceilings,
                            tlog := v.tlog, tseq := v.tseq, hold := v.hold, alarmDue := v.alarmDue, sealCopy := v.sealCopy }
    boot := { b.boot with conf := d.boot.conf, areas := d.boot.areas, density := d.boot.density, download := d.boot.download,
                          act := d.boot.act, settings := d.boot.settings, settingsUsed := d.boot.settingsUsed, base := d.boot.base,
                          counter := d.boot.counter, imageSeq := d.boot.imageSeq, cert := d.boot.cert }
    cmp := { b.cmp with flash := d.cmp.flash }
    res := { b.res with log := if d.res.logLate then d.res.log.dropLast else d.res.log, nextSeq := d.res.nextSeq } }

/-- POR_N falls (R485). (DESIGN CHOICE: log entry 13) (DESIGN CHOICE: log entry 21) -/
def porAssert (d : Dev) : Dev := if d.inReset then d else { coreReset d with inReset := true }

/-- Burn the next owner record, of the four there are (R333, R349). -/
def Fuses.addOwner (f : Fuses) (digest : List Byte) : Fuses :=
  if f.owners.length < 4 then { f with owners := f.owners ++ [digest] } else f

/-- Burn the next repair record, of the 256 there are (R439). (DESIGN CHOICE: log entry 22) -/
def Fuses.addRepair (f : Fuses) (bits : Nat) : Fuses :=
  if f.repairs.length < 256 then { f with repairs := f.repairs ++ [bits] } else f

/-- Burn the next seal-epoch bit, of the 32 there are (R339). -/
def Fuses.addEpoch (f : Fuses) : Fuses := { f with sealEpoch := min (f.sealEpoch + 1) 32 }

/-- Burn rollback bits until a count is reached, of the 64 there are (R411). -/
def Fuses.addRollback (f : Fuses) (count : Nat) : Fuses := { f with rollback := max f.rollback (min count 64) }

/-- Power fails in a fuse burn that a command began (R331, R340, R349, R439): the burn is pending and the core goes down. (DESIGN CHOICE: log entry 22) -/
def powerCut (f : Fuses) (r : Fuses × Dev) : Fuses × Dev := if f.pend.length < r.1.pend.length then (r.1, porAssert r.2) else r

end Sys2Proof.Machine
end

