-- ==== Sys2Proof/Machine/Events.lean ====
section
/-! DEFINITION. Raising events, the alarm table, the event log and trace ring, staging of telemetry units, MSI-X messages
(16_telemetry.md R446 to R459, 17_host_interface.md R468), and the fault journal (15_resilience.md R441 to R444). -/

namespace Sys2Proof.Machine

/-! ### MSI-X -/

/-- Send the message of a vector, or set its PBA bit while the vector is masked (R468). -/
def sendVector (d : Dev) (v : Nat) : Dev :=
  if nbit (d.reg (MSIX_TABLE v 3)).toNat 0 then d.setFld ⟨MSIX_PBA, v, v⟩ 1 else d.emit (.msix v)

/-- Send a ring or completion vector, at most once in its interval (R468, R456): while the interval runs the message is deferred. -/
def sendLimited (d : Dev) (v : Nat) : Dev :=
  match Tab.find d.hif.intervals v with
  | none => { sendVector d v with hif := { (sendVector d v).hif with intervals := Tab.put d.hif.intervals v false } }
  | some _ => { d with hif := { d.hif with intervals := Tab.put d.hif.intervals v true } }

/-! ### Sources -/

/-- The sources that Table TELE-2 marks alarm. -/
def alarmSources : List Nat := [16, 20, 22, 64, 162, 179, 180, 209, 210, 225]

/-- A source's enable, class and vector in force (R446, R447). -/
def sourceOf (d : Dev) (s : Nat) : TelSource :=
  let c := (d.tel.sources[s]?).getD ⟨true, 1, 0⟩
  if alarmSources.contains s then { c with cls := 0 } else c

/-- The pending bit of a source for the host, its mask bit, and its pending bit for firmware. -/
def pendFld (s : Nat) : Fld := ⟨TEL_PENDm (s / 32), s % 32, s % 32⟩
def maskFld (s : Nat) : Fld := ⟨TEL_MASKm (s / 32), s % 32, s % 32⟩
def ccPendFld (s : Nat) : Fld := ⟨TEL_CCPENDm (s / 32), s % 32, s % 32⟩

/-- A source whose class sends interrupts is pending and unmasked. -/
def livePending (d : Dev) (s : Nat) : Bool := d.bit (pendFld s) && !d.bit (maskFld s) && decide ((sourceOf d s).cls ≤ 1)

/-- Some unmasked bit of vector `v` is pending (R448). -/
def vectorPending (d : Dev) (v : Nat) : Bool :=
  (List.range 256).any fun s => (sourceOf d s).vector == v && livePending d s

/-- Control Complex interrupt line `g` (R449). -/
def ccLine (d : Dev) (g : Nat) : Bool :=
  (List.range 16).any fun k => d.bit (ccPendFld (16 * g + k)) && decide ((sourceOf d (16 * g + k)).cls ≤ 1)

/-- Set the pending bits of a source; the message of its vector when no other unmasked bit of the vector was pending. -/
def setPending (d : Dev) (s : Nat) : Dev :=
  let v := (sourceOf d s).vector
  let was := d.bit (pendFld s)
  let others := vectorPending d v
  let d1 := (d.setBit (pendFld s) true).setBit (ccPendFld s) true
  if !was && !others && livePending d1 s then sendVector d1 v else d1

/-! ### Delivery paths (R455, R458) -/

/-- Units of staging a path has: half of table 8 beyond its rings (R454). -/
def pathCap (d : Dev) : Nat := (d.tableEntries 8 - 34816) * 32 / 48 / 2

/-- Occupancy threshold of a kind in percent. -/
def kindPercent (k : Nat) : Nat := if k = 2 then 100 else if k = 3 then 90 else if k = 4 then 75 else 50

/-- The loss counter of a kind on a path (0 ring, 1 Ethernet). -/
def lossFld (p k : Nat) : Fld :=
  if k = 2 then TEL_LOSSp_A_journal p else if k = 3 then TEL_LOSSp_A_counters p
  else if k = 4 then TEL_LOSSp_B_event p else TEL_LOSSp_B_trace p

/-- A path (0 ring, 1 Ethernet), and whether it is on and takes a kind. -/
def pathOf (d : Dev) (p : Nat) : TelPath := if p = 0 then d.tel.ring else d.tel.eth
def setPath (d : Dev) (p : Nat) (x : TelPath) : Dev :=
  { d with tel := if p = 0 then { d.tel with ring := x } else { d.tel with eth := x } }
def pathTakes (d : Dev) (p k : Nat) : Bool :=
  if p = 0 then d.bit TEL_RING_CFG_en && nbit (d.fld TEL_PATH_CFG_ring_kinds) (k - 1)
  else d.bit TEL_ETH_CFG_en && nbit (d.fld TEL_PATH_CFG_eth_kinds) (k - 1)

/-- Offer a unit to one path: staged, or dropped and counted (R458). The flag tells a drop. -/
def offerPath (d : Dev) (p : Nat) (u : TelUnit) : Dev × Bool :=
  let x := pathOf d p
  if !pathTakes d p u.kind then (d, false)
  else if x.staged.length * 100 < pathCap d * kindPercent u.kind then (setPath d p { x with staged := x.staged ++ [u] }, false)
  else ((setPath d p { x with lost := Tab.put x.lost u.kind (min (Tab.getD x.lost u.kind 0 + 1) 0xFFFFFFFF) }).inc (lossFld p u.kind), true)

/-- Offer a unit to both paths. -/
def offer (d : Dev) (u : TelUnit) : Dev × Bool :=
  let (d1, a) := offerPath d 0 u
  let (d2, b) := offerPath d1 1 u
  (d2, a || b)

/-! ### Trace ring and storm mode (R453, R459) -/

/-- A trace record of 32 bytes: type, bytes 1 to 3, and bytes 0x0C to 0x1F, with the time. -/
def traceRec (d : Dev) (type b1 b2 b3 : Nat) (rest : List Byte) : List Byte :=
  fit 32 (le 1 type ++ le 1 b1 ++ le 1 b2 ++ le 1 b3 ++ le 8 d.ns ++ rest)

/-- Write a trace record to the ring and offer it to the paths. -/
def traceRaw (d : Dev) (r : List Byte) : Dev × Bool :=
  if !d.bit TEL_CTRL_trace_en then (d, false)
  else
    let d1 := { d with tel := { d.tel with trace := (r :: d.tel.trace).take 32768 } }
    offer (d1.setFld TEL_TRACE_POS_pos (d.fld TEL_TRACE_POS_pos + 1)) ⟨5, r⟩

/-- An event log record (Table TELE-4). -/
def logRec (d : Dev) (s cls unit detail repeats : Nat) (alarm : Bool) : List Byte :=
  fit 32 (le 1 1 ++ le 1 s ++ le 1 cls ++ le 1 (b2n alarm) ++ le 8 d.ns ++ le 4 d.tel.logNext ++ le 2 unit ++ le 2 repeats ++ le 12 detail)

/-- Log an event of class 0, 1 or 2, folding raises within 1 ms of the pair's last record (R452). -/
def logEvent (d : Dev) (s cls unit detail : Nat) (alarm : Bool) : Dev :=
  let key := s * 65536 + unit
  let (last, reps) := (Tab.find d.tel.logged key).getD (0, 0)
  if (Tab.find d.tel.logged key).isSome && decide (d.ns ≤ last + 1000000) then
    { d with tel := { d.tel with logged := Tab.put d.tel.logged key (last, min (reps + 1) 0xFFFF) } }
  else
    let r := logRec d s cls unit detail reps alarm
    let d1 := { d with tel := { d.tel with
      log := (r :: d.tel.log).take 2048, logged := Tab.put d.tel.logged key (d.ns, 0), logNext := (d.tel.logNext + 1) % 2 ^ 32 } }
    (offer (d1.setReg TEL_LOG_SEQ (BitVec.ofNat 32 d.tel.logNext)) ⟨4, r⟩).1

/-- Record an event of an enabled source under its class, the alarm table apart (Table TELE-1). -/
def recordEvent (d : Dev) (s unit detail : Nat) (alarm : Bool) : Dev :=
  let c := sourceOf d s
  if !c.enable then d
  else if c.cls = 3 then (traceRaw d (traceRec d 0x61 s 3 0 (le 2 unit ++ le 12 detail))).1
  else
    let d1 := setPending d s
    if c.cls = 4 then d1 else logEvent d1 s c.cls unit detail alarm

/-! ### The alarm table (R450) -/

/-- A raise on a valid entry: coalesce. -/
def Alarm.coalesce (a : Alarm) (detail ms : Nat) : Alarm :=
  { a with count := min (a.count + 1) 0xFFFF, overrun := a.overrun || a.count == 0xFFFF, detail := detail % 65536,
           last := ms % 2 ^ 32, pendRing := true, pendEth := true }

/-- Put an alarm into the table: the entry it lands in, and whether a catch-all entry is newly used. -/
def alarmPlace (d : Dev) (s unit detail : Nat) : Dev × Bool :=
  let t := d.tel.alarms
  let fresh (u : Nat) : Alarm := ⟨s, u, false, 1, detail % 65536, d.secs % 2 ^ 32, d.ms % 2 ^ 32, true, true, none, none⟩
  let put (k : Nat) (a : Alarm) : Dev := { d with tel := { d.tel with alarms := Tab.put t k a } }
  match t.find? (fun e => decide (256 ≤ e.1) && e.2.source == s && e.2.unit == unit) with
  | some (k, a) => (put k (a.coalesce detail d.ms), false)
  | none =>
    match Tab.freeKey t 256 256 with
    | some k => (put k (fresh unit), false)
    | none =>
      match Tab.find t s with
      | some a => (put s (a.coalesce detail d.ms), false)
      | none => (put s (fresh 0xFFFF), true)

/-- Keep TEL_STATUS.alarms at the number of valid entries. -/
def alarmCount (d : Dev) : Dev := d.setFld TEL_STATUS_alarms d.tel.alarms.length

/-- Raise an event of an enabled source under its class, trace records unsampled: the alarm table, and ALARM_CATCHALL for a newly used
catch-all entry; the number bounds such raises, one of which can at most need another. -/
def raiseRaw : Nat → Dev → Nat → Nat → Nat → Dev
  | m, d, s, unit, detail =>
    if (sourceOf d s).enable && (sourceOf d s).cls == 0 then
      let (d1, catchall) := alarmPlace d s unit detail
      let d2 := recordEvent (alarmCount d1) s unit detail true
      match m, catchall with
      | n + 1, true => raiseRaw n d2 241 s 0
      | _, _ => d2
    else recordEvent d s unit detail false

/-- Begin storm mode (R459): the STORM record and source, never sampled out. -/
def stormBegin (d : Dev) : Dev :=
  let n := d.fld TEL_STORM_CFG_n
  let d1 := ({ d with tel := { d.tel with storm := some ⟨n, [], 0⟩ } }).setBit TEL_STATUS_storm true
  raiseRaw 2 (traceRaw d1 (traceRec d1 0x60 0 0 0 (le 4 n ++ le 4 0))).1 240 0 0

/-- Write a trace record: sampled in storm mode, starting it when a trace unit is dropped (R459). -/
def trace (d : Dev) (r : List Byte) : Dev :=
  match d.tel.storm with
  | some st =>
    let ty := field r 0 1
    let k := Tab.getD st.seen ty 0 + 1
    let keep := decide (k % st.n = 0)
    let d1 := { d with tel := { d.tel with storm := some { st with seen := Tab.put st.seen ty k, out := st.out + b2n !keep } } }
    if keep then (traceRaw d1 r).1 else d1.inc ⟨TEL_CNT_LOCAL, 31, 0⟩
  | none =>
    let (d1, dropped) := traceRaw d r
    if dropped && d.bit TEL_CTRL_storm_en then stormBegin d1 else d1

/-- Raise an event: source, unit and detail (R446, R447, R450, R452). While POR_N is low the core records nothing. -/
def raise (d : Dev) (s unit detail : Nat) : Dev :=
  let c := sourceOf d s
  if d.inReset || !c.enable then d
  else if c.cls = 3 then trace d (traceRec d 0x61 s 3 0 (le 2 unit ++ le 12 detail))
  else raiseRaw 2 d s unit detail

/-- Acknowledge an alarm entry (R451). (DEDUCED: log entry 97) -/
def alarmAck (d : Dev) (k seen : Nat) : Dev :=
  match Tab.find d.tel.alarms k with
  | none => d
  | some a =>
    if a.count < seen ∨ (seen = 0 ∧ !a.overrun) then d
    else
      let put (a' : Alarm) := { d with tel := { d.tel with alarms := Tab.put d.tel.alarms k { a' with pendRing := true, pendEth := true } } }
      if a.overrun then put { a with count := 1, overrun := false }
      else if a.count = seen then alarmCount { d with tel := { d.tel with alarms := Tab.del d.tel.alarms k } }
      else put { a with count := a.count - seen }

/-- Bytes of an alarm entry (Table TELE-3); zero when it is not valid. -/
def alarmBytes (d : Dev) (k : Nat) : List Byte :=
  match Tab.find d.tel.alarms k with
  | none => zeros 16
  | some a => le 1 a.source ++ le 1 (1 + 2 * b2n a.overrun) ++ le 2 a.unit ++ le 2 a.count ++ le 2 a.detail ++ le 4 a.first ++ le 4 a.last

/-! ### The fault journal -/

/-- Outcomes of Table RES-6. -/
@[reducible] def jOPEN : Nat := 0
@[reducible] def jCOMPLETE : Nat := 1
@[reducible] def jFAILED : Nat := 2
@[reducible] def jABORTED : Nat := 3
@[reducible] def jABORTED_TAMPER : Nat := 4
@[reducible] def jINTERRUPTED : Nat := 5
@[reducible] def jNOTE : Nat := 6

/-- The 32 bytes of a record, its CRC-16 last (Table RES-6). (DEDUCED: log entry 94) -/
def JRec.bytes (r : JRec) : List Byte :=
  let b := le 4 r.seq ++ le 1 r.kind ++ le 1 r.origin ++ le 1 r.outcome ++ le 1 r.cause ++ le 8 r.opId ++ le 2 r.total ++
    le 2 r.done ++ le 4 r.tOpen ++ le 4 r.tUpd ++ le 2 r.detail
  b ++ le 2 (crc16 b)

/-- Mirror a changed record to flash and offer it to telemetry (R444, R455). -/
def jMirror (d : Dev) (r : JRec) : Dev :=
  (offer { d with jrnl := { d.jrnl with mirror := Tab.put d.jrnl.mirror r.seq r } } ⟨2, r.bytes⟩).1

/-- Make room in the ring: at 512 records the oldest that is not OPEN goes (R441). -/
def jRoom (ring : List JRec) : List JRec :=
  if ring.length < 512 then ring
  else match ring.find? (fun r => r.outcome != jOPEN) with
    | none => ring
    | some o => ring.filter (fun r => r.seq != o.seq)

/-- Write a new record: its seq, and the state with it. -/
def jWrite (d : Dev) (r : JRec) : Nat × Dev :=
  let s := d.jrnl.next
  let r1 := { r with seq := s, tOpen := d.ms % 2 ^ 32, tUpd := d.ms % 2 ^ 32 }
  let d1 := { d with jrnl := { d.jrnl with ring := jRoom d.jrnl.ring ++ [r1], next := (s + 1) % 2 ^ 32 } }
  (s, jMirror (d1.setReg RES_JRNL_NEWEST (BitVec.ofNat 32 s)) r1)

/-- Open a record of a kind, origin, operation and step total (R442). -/
def jOpen (d : Dev) (kind origin opId total : Nat) (tag : Option Nat) : Nat × Dev :=
  jWrite d ⟨0, kind, origin, jOPEN, 0, opId, total, 0, 0, 0, 0, tag⟩

/-- Write a record whose outcome is known at once: a NOTE or an abort. -/
def jNote (d : Dev) (kind origin outcome cause opId total done detail : Nat) : Dev :=
  (jWrite d ⟨0, kind, origin, outcome, cause, opId, total, done, 0, 0, detail, none⟩).2

/-- Change the OPEN record of a seq. -/
def jUpdate (d : Dev) (s : Nat) (f : JRec → JRec) : Dev :=
  match d.jrnl.ring.find? (fun r => r.seq == s && r.outcome == jOPEN) with
  | none => d
  | some r =>
    let r1 := { f r with tUpd := d.ms % 2 ^ 32 }
    jMirror { d with jrnl := { d.jrnl with ring := d.jrnl.ring.map fun x => if x.seq = s then r1 else x } } r1

/-- Close the record of a seq with an outcome and cause. -/
def jClose (d : Dev) (s outcome cause : Nat) : Dev :=
  jUpdate d s fun r => { r with outcome := outcome, cause := cause, tag := none }

/-- A step of a record is committed. -/
def jStepDone (d : Dev) (s : Nat) : Dev := jUpdate d s fun r => { r with done := r.done + 1 }

/-- OPEN records of an origin. -/
def jOpenCount (d : Dev) (p : JRec → Bool) : Nat := (d.jrnl.ring.filter fun r => r.outcome == jOPEN && p r).length

end Sys2Proof.Machine
end

