-- ==== Sys2Proof/Machine/Queue.lean ====
section
/-! DEFINITION. Word queues (03_caddies_and_dispatch.md R81 to R85). -/

namespace Sys2Proof.Machine

/-- The idle word (R83). -/
def idleWord : Word64 := 0

/-- Endpoint encodings of R81. -/
def endpointOk (e : Nat) : Bool := decide (e ≤ 0x1F ∨ e = 0x40 ∨ e = 0x41 ∨ e = 0x80)

/-- The dispatcher's endpoint. -/
@[reducible] def epDispatcher : Nat := 0x41

/-- The logical Caddy of an engine (R57), 0xFF when it has none. -/
def engineLogical (d : Dev) (e : Nat) : Nat := (((Tab.find d.dsp.caddies (e / 16)).bind (·.logical))).getD 0xFF

/-- The endpoint a master pushes and pops as (R81): the host for BAR0 and for commands with host rights, 0x40 the Control
Complex pair, an engine its logical Caddy; the debug master is none of them. -/
def endpointOf (d : Dev) : Sys2Proof.Master → Nat
  | .host | .hcq | .mgmt => 0x80
  | .cc _ => 0x40
  | .debug => 0xFF
  | .engine e => engineLogical d e

/-- The words a queue stores, oldest first. -/
def wqWords (d : Dev) (q : Nat) : List Word64 := Tab.getD d.dsp.wq q []

/-- Replace the words of a queue; an empty queue is not listed. -/
def setWords (d : Dev) (q : Nat) (ws : List Word64) : Dev :=
  { d with dsp := { d.dsp with wq := if ws.isEmpty then Tab.del d.dsp.wq q else Tab.put d.dsp.wq q ws } }

/-- Push a word from a producer (R81 to R84); the flag tells that it was stored. -/
def wqPush (d : Dev) (q ep : Nat) (w : Word64) : Dev × Bool :=
  if !d.bit (DSP_WQ_CFGn_enable q) || d.fld (DSP_WQ_CFGn_producer q) != ep then (d.inc (DSP_WQ_ERRn_foreign q), false)
  else if w = idleWord then (d.inc (DSP_WQ_ERRn_zero_push q), false)
  else if 32 ≤ (wqWords d q).length then (d.inc (DSP_WQ_ERRn_overrun q), false)
  else (setWords d q (wqWords d q ++ [w]), true)

/-- A producer's credit for a queue: 32 minus its count (R69, R82). -/
def wqCredit (d : Dev) (q : Nat) : Bool := decide ((wqWords d q).length < 32)

/-- Pop a word for a consumer (R81, R83). -/
def wqPop (d : Dev) (q ep : Nat) : Word64 × Dev :=
  if !d.bit (DSP_WQ_CFGn_enable q) then (idleWord, d)
  else if d.fld (DSP_WQ_CFGn_consumer q) ≠ ep then (idleWord, d.inc (DSP_WQ_ERRn_foreign q))
  else match wqWords d q with
    | [] => (idleWord, d)
    | w :: ws => (w, setWords d q ws)

/-- A write to DSP_WQ_CFGn (R81): judged by enable before the write. -/
def wqCfgWrite (d : Dev) (q : Nat) (w : Word) : Dev :=
  let en := nbit w.toNat 16
  if d.bit (DSP_WQ_CFGn_enable q) then
    if en then d else setWords (d.setBit (DSP_WQ_CFGn_enable q) false) q []
  else
    let c := getBits w 15 8
    let p := getBits w 7 0
    let d1 := if endpointOk c then d.setFld (DSP_WQ_CFGn_consumer q) c else d
    let d2 := if endpointOk p then d1.setFld (DSP_WQ_CFGn_producer q) p else d1
    d2.setBit (DSP_WQ_CFGn_enable q) en

/-- The _HI register whose shadow a pop of a master fills (R9, R85): of the queue, or of the slot pair of an engine (R88). -/
def popHiAddr (m : Sys2Proof.Master) (q : Nat) : Nat := match m with
  | .engine _ => 0x1008C
  | _ => DSP_WQ_POPn_HI q

/-- A read of a _POP_LO register by a master (R85): pops, returns the low half, captures the upper half. -/
def wqPopLo (d : Dev) (m : Sys2Proof.Master) (q : Nat) : Word × Dev :=
  let (w, d1) := wqPop d q (endpointOf d m)
  (w.lo, d1.capture m (popHiAddr m q) w.hi)

/-- A read of a _POP_HI register (R85): the captured half, or the upper half of the word at the head; pops nothing. -/
def wqPopHi (d : Dev) (m : Sys2Proof.Master) (q : Nat) : Word × Dev :=
  d.takeShadow m (popHiAddr m q) ((wqWords d q).headD idleWord).hi

end Sys2Proof.Machine
end

