-- ==== Sys2Proof/Machine/Tasks.lean ====
section
/-! DEFINITION. Tasks, flows, placement and Caddies (03_caddies_and_dispatch.md R56 to R80): the shared operations. -/

namespace Sys2Proof.Machine

/-- Caddy states of Table CADDY-2. -/
@[reducible] def cdSTOPPED : Nat := 0
@[reducible] def cdSTARTING : Nat := 1
@[reducible] def cdRUNNING : Nat := 2
@[reducible] def cdDRAINING : Nat := 3
@[reducible] def cdBIST : Nat := 4
@[reducible] def cdSPARE : Nat := 5
@[reducible] def cdDISABLED : Nat := 6

/-- Abort results of Table CADDY-6. -/
@[reducible] def rsWATCHDOG : Nat := 0xF0
@[reducible] def rsDRAIN : Nat := 0xF1
@[reducible] def rsFAULT : Nat := 0xF2
@[reducible] def rsDEP_TIMEOUT : Nat := 0xF3
@[reducible] def rsISOLATED : Nat := 0xF4

/-- "No flow", "no successor". -/
@[reducible] def noFlow : Nat := 0xFFFFF
@[reducible] def noTask : Nat := 0xFFFF

/-- A descriptor from its 32 bytes (Table CADDY-3). -/
def descOf (b : List Byte) : Desc :=
  let w := field b 8 4
  { id := field b 0 2, succ0 := field b 2 2, succ1 := field b 4 2, dep := field b 6 1, handler := field b 7 1,
    notify := nbit w 30, kind := nbits w 27 24, source := nbits w 23 21, flow := nbits w 19 0,
    notifyWq := field b 12 1, arg0 := field b 16 8, arg1 := field b 24 8,
    resv := b2n (nbit w 31) + 2 * nbits w 29 28 + 8 * b2n (nbit w 20) + 16 * field b 13 3 }

/-- Descriptor bytes 0x08 to 0x0B. -/
def Desc.flowWord (x : Desc) : Nat := x.flow + x.source * 2 ^ 21 + x.kind * 2 ^ 24 + b2n x.notify * 2 ^ 30

/-- The 32 bytes of a descriptor. -/
def Desc.bytes (x : Desc) : List Byte :=
  le 2 x.id ++ le 2 x.succ0 ++ le 2 x.succ1 ++ le 1 x.dep ++ le 1 x.handler ++ le 4 x.flowWord ++ le 1 x.notifyWq ++ zeros 3 ++
  le 8 x.arg0 ++ le 8 x.arg1

/-! ### Caddies and engines -/

/-- A Caddy nothing has happened to: SPARE (the reset of DSP_CADDY_STATEn). -/
def Caddy.init : Caddy := ⟨cdSPARE, none, [], 0, false, cdSTOPPED, 0, 0, 0, 0, 0, none, none⟩

/-- Physical Caddy `c`. -/
def Dev.caddy (d : Dev) (c : Nat) : Caddy := Tab.getD d.dsp.caddies c Caddy.init

/-- Replace physical Caddy `c`. -/
def Dev.setCaddy (d : Dev) (c : Nat) (x : Caddy) : Dev := { d with dsp := { d.dsp with caddies := Tab.put d.dsp.caddies c x } }

/-- An idle engine. -/
def Engine.init : Engine := ⟨[], none, false, false, 0, 0, 0, [], 0, 0, 0, [], [], [], 0, []⟩

/-- Engine `e`, physical Caddy × 16 + index. -/
def Dev.engine (d : Dev) (e : Nat) : Engine := Tab.getD d.dsp.engines e Engine.init

/-- Replace engine `e`. -/
def Dev.setEngine (d : Dev) (e : Nat) (x : Engine) : Dev := { d with dsp := { d.dsp with engines := Tab.put d.dsp.engines e x } }

/-- The task of an identifier. -/
def Dev.task (d : Dev) (i : Nat) : Option Task := Tab.find d.dsp.tasks i

/-- Replace a task. -/
def Dev.setTask (d : Dev) (i : Nat) (t : Task) : Dev := { d with dsp := { d.dsp with tasks := Tab.put d.dsp.tasks i t } }

/-- Physical Caddies that carry a logical number, in logical order. -/
def logicalOrder (d : Dev) : List Nat :=
  (List.range 32).filterMap fun n => (List.range 34).find? fun c => (d.caddy c).logical == some n

/-- The physical Caddy of a logical number. -/
def physOf (d : Dev) (n : Nat) : Option Nat := (List.range 34).find? fun c => (d.caddy c).logical == some n

/-- The role mask bit that accepts a kind (R63). -/
def kindRole (k : Nat) : Nat := if k = 0 then 0 else if k = 1 then 1 else if k = 3 then 3 else 2

/-- A Caddy's role mask accepts a kind. -/
def accepts (x : Caddy) (kind : Nat) : Bool := nbit x.roles (kindRole kind)

/-! ### Engine local memory (R56, R86, R506) -/

/-- The engines of a Caddy load the images of its role mask (R59, R506). -/
def loadImages (d : Dev) (c : Nat) : Dev :=
  let rs := images (d.sec 13 0xFFFF)
  let x := d.caddy c
  d.setCaddy c { x with seImage := imageRole rs 0 x.roles, peImage := imageRole rs 1 x.roles }

/-- A byte of the lowest 40 KiB of an engine: of the records it loaded; a byte that no record covers is zero. (DESIGN CHOICE: log entry 107) -/
def imageByte (d : Dev) (e a : Nat) : Byte :=
  let b := d.sec 13 0xFFFF
  let x := d.caddy (e / 16)
  let cls := if e % 16 < 8 then 0 else 1
  match (if cls = 0 then x.seImage else x.peImage).bind fun r =>
      (images b).find? fun y => y.cls == cls && y.role == r && decide (y.load ≤ a ∧ a < y.load + y.length) with
  | some y => BitVec.ofNat 8 (field b (y.off + 32 + (a - y.load)) 1)
  | none => 0

/-- A byte of an engine's local memory: the image below 0xA000, data and stack above. (DESIGN CHOICE: log entry 107) -/
def localByte (d : Dev) (e a : Nat) : Byte := if a < 0xA000 then imageByte d e a else Memory.read 0 (d.engine e).mem a

/-- `n` bytes of local memory, as the number they spell. -/
def localRead (d : Dev) (e a n : Nat) : Nat := unle ((List.range n).map fun k => localByte d e (a + k))

/-- Write bytes into the data and stack of an engine. -/
def localWrite (d : Dev) (e a : Nat) (bs : List Byte) : Dev :=
  d.setEngine e { d.engine e with mem := Memory.writeN 0 (d.engine e).mem a bs }

/-- x1 to x31 of a PE at entry to a task (R87): ra the built-in exit, sp and a0 0x0001_0000, the others zero. -/
def entryRegs : List Word := [Config.peExit, 0x10000] ++ List.replicate 7 0 ++ [0x10000] ++ List.replicate 21 0

/-- pc of a PE at entry to a task (R87): the vector entry of its handler. -/
def entryPc (d : Dev) (e handler : Nat) : Word := BitVec.ofNat 32 (localRead d e (4 * handler) 4)

/-- Kinds 0 and 1 run on Signal Engines, the others on Protocol Engines. -/
def seKind (kind : Nat) : Bool := decide (kind ≤ 1)

/-- Engine indices of the class of a kind, within a Caddy. -/
def classEngines (kind : Nat) : List Nat := if seKind kind then List.range 8 else (List.range 8).map (· + 8)

/-- Receive slots in use on an SE. -/
def rxSlots (d : Dev) (e : Nat) : Nat :=
  (((d.engine e).tasks.filterMap d.task).map fun t => if t.d.kind = 0 then t.slots else 0).sum

/-- Transmit slots in use on an SE (R182). -/
def txSlots (d : Dev) (e : Nat) : Nat := (((d.engine e).tasks.filterMap d.task).filter fun t => t.d.kind == 1).length

/-- An engine is free for a task of a kind that needs `slots` receive slots (R60, R161, R182). -/
def engineFree (d : Dev) (e kind slots : Nat) : Bool :=
  let x := d.engine e
  !x.disabled && !x.draining &&
    (if kind = 0 then decide (rxSlots d e + slots ≤ 16) else if kind = 1 then decide (txSlots d e < 4) else x.tasks.isEmpty)

/-- What a task claims of an engine of a STARTING Caddy (R60): its receive slots of the 16, or the whole engine. -/
def claimNeed (kind slots : Nat) : Nat := if kind = 0 then slots else 16

/-- A claim falls on the first engine with room for it. (DESIGN CHOICE: log entry 29) -/
def claim : List Nat → Nat → List Nat
  | [], _ => []
  | u :: r, n => if u + n ≤ 16 then (u + n) :: r else u :: claim r n

/-- What the tasks placed on a STARTING Caddy claim of each engine of a kind's class; 17 for an engine that takes no task (R60). (DESIGN CHOICE: log entry 29) -/
def claims (d : Dev) (c kind : Nat) : List Nat :=
  (((d.caddy c).ready.filterMap d.task).filter fun t => seKind t.d.kind == seKind kind).foldl (fun l t => claim l (claimNeed t.d.kind t.slots))
    ((classEngines kind).map fun i => if (d.engine (16 * c + i)).disabled || (d.engine (16 * c + i)).draining then 17 else 0)

/-- Engines of a Caddy that are free for a kind; on a STARTING Caddy, those not claimed by tasks placed on it (R60, R73). (DESIGN CHOICE: log entry 29) -/
def idleEngines (d : Dev) (c kind slots : Nat) : Nat :=
  if (d.caddy c).state = cdSTARTING then ((claims d c kind).filter fun u => decide (u + claimNeed kind slots ≤ 16)).length
  else ((classEngines kind).filter fun i => engineFree d (16 * c + i) kind slots).length

/-- Start a STOPPED Caddy (R60). -/
def startCaddy (d : Dev) (c : Nat) : Dev :=
  let d1 := d.setCaddy c { d.caddy c with state := cdSTARTING }
  if d.bit DSP_CTRL_trace_en then trace d1 (traceRec d 0x45 c 0xFF 0 (le 2 noTask)) else d1

/-- A PHY mode of family 1 or 2, whose frames a Trellis Unit decodes; a task that receives one; a Caddy with neither unit in service (R169). -/
def trellisMode (d : Dev) (m : Nat) : Bool := match phyFind d.phy m with
  | some k => phyFamily d.phy k == 1 || phyFamily d.phy k == 2
  | none => false
def needsTrellis (d : Dev) (t : Task) : Bool := t.d.kind == 0 && trellisMode d t.d.arg1
def noTrellis (d : Dev) (c : Nat) : Bool := d.res.trellisOff.contains (2 * c) && d.res.trellisOff.contains (2 * c + 1)

/-- The lowest-numbered STOPPED logical Caddy whose role mask accepts a kind; `tr`: it needs a Trellis Unit. -/
def startable (d : Dev) (kind : Nat) (tr : Bool) : Option Nat :=
  (logicalOrder d).find? fun c =>
    (d.caddy c).state == cdSTOPPED && accepts (d.caddy c) kind && !(d.caddy c).fenced && !(tr && noTrellis d c)

/-- The Caddies a ready task of a kind may be placed on (R73), in logical order. -/
def placeable (d : Dev) (kind : Nat) (tr : Bool) : List Nat :=
  (logicalOrder d).filter fun c =>
    let x := d.caddy c
    (x.state == cdRUNNING || x.state == cdSTARTING) && !x.fenced && accepts x kind && !(tr && noTrellis d c)

/-- Start a Caddy when no RUNNING or STARTING one that accepts the kind has an unclaimed free engine (R60). -/
def startIfNeeded (d : Dev) (kind slots : Nat) (tr : Bool) : Dev :=
  if (placeable d kind tr).any (fun c => decide (0 < idleEngines d c kind slots)) then d
  else match startable d kind tr with
    | some c => startCaddy d c
    | none => d

/-- The Caddy R73 chooses among candidates: by flow, or the most idle engines and the lowest logical number on a tie. -/
def rankPlace (d : Dev) (t : Task) (cs : List Nat) : Option Nat :=
  if t.d.flow ≠ noFlow then cs[t.d.flow % cs.length]?
  else cs.foldl (fun best c => match best with
    | none => some c
    | some b => if idleEngines d b t.d.kind t.slots < idleEngines d c t.d.kind t.slots then some c else some b) none

/-- The Caddy of a ready task (R73). Where R73 chooses one whose PLL still starts while a RUNNING one has a free engine for the task, R26
forbids the wait: the choice is made anew among those. (DESIGN CHOICE: log entry 29) (DESIGN CHOICE: log entry 108) -/
def choosePlace (d : Dev) (t : Task) (cs : List Nat) : Option Nat :=
  let first := rankPlace d t cs
  let free := cs.filter fun c => (d.caddy c).state == cdRUNNING && decide (0 < idleEngines d c t.d.kind t.slots)
  if (first.map fun c => (d.caddy c).state == cdSTARTING).getD false && !free.isEmpty then rankPlace d t free else first

/-- A receive context that finds no Caddy of its role is dropped, never held (R73, R163). (DEDUCED: log entry 109) -/
def dropContext (d : Dev) (i : Nat) : Dev :=
  ({ d with dsp := { d.dsp with tasks := Tab.del d.dsp.tasks i }, rx := { d.rx with ctx := Tab.del d.rx.ctx i } }).inc RX_CNT_CTX_ctx_full

/-- Put a task at the end of the ready list of a Caddy. -/
def putReady (d : Dev) (i c : Nat) (t : Task) : Dev :=
  let x := d.caddy c
  (d.setCaddy c { x with ready := x.ready ++ [i], depthMax := max x.depthMax (x.ready.length + 1) }).setTask i { t with phase := .ready c }

/-- Place a ready task (R73): on a ready list, or in the holding list when no Caddy of its role can take it. -/
def place (d : Dev) (i : Nat) : Dev :=
  match d.task i with
  | none => d
  | some t =>
    let tr := needsTrellis d t
    let d1 := startIfNeeded d t.d.kind t.slots tr
    match choosePlace d1 t (placeable d1 t.d.kind tr) with
    | some c => putReady d1 i c t
    | none => if t.d.kind = 0 then dropContext d1 i else { d1.setTask i { t with phase := .holding } with
        dsp := { (d1.setTask i { t with phase := .holding }).dsp with holding := d1.dsp.holding ++ [i] } }

/-- Place the holding list in order once a Caddy has entered STARTING or RUNNING (R73); role_wait clears when it empties. -/
def placeHolding (d : Dev) : Dev :=
  let h := d.dsp.holding
  let d1 := h.foldl place { d with dsp := { d.dsp with holding := [] } }
  if d1.dsp.holding.isEmpty then d1.setBit DSP_STATUS_role_wait false else d1

/-- Caddies that run or start and count toward the warm minimum (R26, R435). -/
def warmHeld (d : Dev) : Nat :=
  ((logicalOrder d).filter fun c => ((d.caddy c).state == cdRUNNING || (d.caddy c).state == cdSTARTING) && !(d.caddy c).fenced).length

/-- Start the lowest-numbered STOPPED logical Caddies until the warm minimum runs or starts; fuel bounds the starts. -/
def warmStart : Nat → Dev → Dev
  | 0, d => d
  | n + 1, d =>
    if d.warmMin ≤ warmHeld d then d
    else match (logicalOrder d).find? fun c => (d.caddy c).state == cdSTOPPED && !(d.caddy c).fenced with
      | none => d
      | some c => warmStart n (startCaddy d c)

/-- The dispatcher in service keeps at least the warm minimum of Caddies running (R26). (DEDUCED: log entry 30) -/
def keepWarm (d : Dev) : Dev :=
  if d.dsp.accepting && decide (warmHeld d < d.warmMin) then placeHolding (warmStart 32 d) else d

/-! ### Flow locks (R17, R18, R70 to R72) -/

/-- The lock entry of a flow. -/
def Dev.lock (d : Dev) (flow : Nat) : FlowLock := Tab.getD d.dsp.locks (flow % 65536) ⟨false, 0, 0, []⟩

/-- Replace the lock entry of a flow. -/
def Dev.setLock (d : Dev) (flow : Nat) (l : FlowLock) : Dev :=
  { d with dsp := { d.dsp with locks := Tab.put d.dsp.locks (flow % 65536) l } }

/-- Move the serve ticket past void tickets; fuel bounds the void ones. -/
def FlowLock.skip (l : FlowLock) : Nat → FlowLock
  | 0 => l
  | n + 1 =>
    if l.void.contains l.serve then FlowLock.skip { l with serve := (l.serve + 1) % 65536, void := l.void.erase l.serve } n else l

/-- Skip every void ticket at the front. -/
def FlowLock.skipVoid (l : FlowLock) : FlowLock := l.skip l.void.length

/-- The task may enter service (R71): it has no flow, or its entry is not busy and serves its ticket. -/
def mayEnter (d : Dev) (t : Task) : Bool :=
  match t.ticket with
  | none => true
  | some k => !(d.lock t.d.flow).busy && (d.lock t.d.flow).serve == k

/-- Some task of the flow's entry is in service: flows of one entry are one flow here (R70). (DEDUCED: log entry 110) -/
def flowBusy (d : Dev) (t : Task) : Bool := t.ticket.isSome && (d.lock t.d.flow).busy

/-- A task becomes ready: it takes its ticket and is placed (R66, R70, R73). -/
def makeReady (d : Dev) (i : Nat) : Dev :=
  match d.task i with
  | none => d
  | some t =>
    if t.d.flow = noFlow then place (d.setTask i { t with readyAt := d.ns }) i
    else
      let l := d.lock t.d.flow
      let d1 := d.setLock t.d.flow { l with next := (l.next + 1) % 65536 }
      place (d1.setTask i { t with ticket := some l.next, readyAt := d.ns }) i

/-- Enter a task into the task table; with dep_count 0 it is ready at once (R66). -/
def enterTask (d : Dev) (x : Desc) (slots : Nat) : Dev :=
  let d1 := d.setTask x.id ⟨x, x.dep, .waiting, none, false, d.ns, 0, 0, false, false, slots⟩
  if x.dep = 0 then makeReady d1 x.id else d1

/-! ### Submission (R64, R65) -/

/-- Result codes of R65. -/
@[reducible] def sbOK : Nat := 0x00
@[reducible] def sbID_BUSY : Nat := 0x01
@[reducible] def sbID_RANGE : Nat := 0x02
@[reducible] def sbFIELD_RANGE : Nat := 0x03
@[reducible] def sbNOT_READY : Nat := 0x04

/-- Check a submission of identifier range lo..hi and source `src` (R65): the result code. -/
def submitCheck (d : Dev) (x : Desc) (lo hi src : Nat) : Nat :=
  if !d.dsp.accepting then sbNOT_READY
  else if !within x.id lo hi then sbID_RANGE
  else if x.resv ≠ 0 ∨ 5 ≤ x.kind ∨ x.kind = 0 ∨ (x.kind = 1 ∧ x.flow ≠ noFlow) ∨ 6 ≤ x.source ∨ x.source ≠ src ∨
      (x.notify ∧ d.fld (DSP_WQ_CFGn_producer x.notifyWq) ≠ epDispatcher) then sbFIELD_RANGE
  else if (d.task x.id).isSome then sbID_BUSY
  else sbOK

/-- Submit a descriptor: the result and the state (R65). -/
def submit (d : Dev) (x : Desc) (lo hi src : Nat) : Nat × Dev :=
  let r := submitCheck d x lo hi src
  if r = sbOK then (r, enterTask d x 0)
  else if r = sbID_BUSY then (r, d.inc DSP_ERR_id_busy)
  else (r, d)

/-- The lowest free identifier of a hardware submitter's range (Table CADDY-4). -/
def freeTask (d : Dev) (lo n : Nat) : Option Nat := Tab.freeKey d.dsp.tasks lo n

/-- A hardware source submits a task in its range (R64); without a free identifier nothing is entered. -/
def hwSubmit (d : Dev) (lo n kind source flow handler arg0 arg1 slots : Nat) : Option (Nat × Dev) :=
  (freeTask d lo n).map fun i =>
    (i, enterTask d ⟨i, noTask, noTask, 0, handler, false, kind, source, flow, 0, arg0, arg1, 0⟩ slots)

/-! ### Entry into service, completion, abort -/

/-- A decision trace record of a task (Table CADDY-9). -/
def taskTrace (d : Dev) (type c e aux count : Nat) (t : Task) : Dev :=
  let wait := if t.phase = .waiting then 0 else min (d.ns - t.readyAt) 0xFFFFFFFF
  if d.bit DSP_CTRL_trace_en then trace d (traceRec d type c e aux (le 2 t.d.id ++ le 2 count ++ le 4 t.d.flowWord ++ le 4 wait)) else d

/-- Statistics kept for the last windows (R89). -/
def keepRecent (now : Nat) (l : List (Nat × Nat)) : List (Nat × Nat) := l.filter fun x => decide (now ≤ x.1 + 3000000)
def keepSpans (now : Nat) (l : List (Nat × Nat)) : List (Nat × Nat) := l.filter fun x => decide (now ≤ x.2 + 3000000)

/-- A task enters service on an engine (R71): its lock becomes busy; a PE takes the registers of R87. -/
def enterService (d : Dev) (i e : Nat) : Dev :=
  match d.task i with
  | none => d
  | some t =>
    let w := d.ns - t.readyAt
    let x := d.engine e
    let d1 := if t.ticket.isSome then d.setLock t.d.flow { d.lock t.d.flow with busy := true } else d
    let d2 := d1.setEngine e { x with tasks := x.tasks ++ [i], step := 0, waitMax := max x.waitMax (w / 100), waits := (d.ns, w) :: keepRecent d.ns x.waits,
                                      pc := if seKind t.d.kind then x.pc else entryPc d e t.d.handler,
                                      xregs := if seKind t.d.kind then x.xregs else entryRegs }
    let d3 := d2.setCaddy (e / 16) { d2.caddy (e / 16) with waitMax := max (d2.caddy (e / 16)).waitMax (w / 100) }
    taskTrace (d3.setTask i { t with phase := .service e, startAt := d.ns }) 0x40 (e / 16) (e % 16) 0 0 t

/-- Take a task off the ready list of a Caddy. -/
def unready (d : Dev) (i c : Nat) : Dev :=
  let x := d.caddy c
  let r := x.ready.filter (· != i)
  d.setCaddy c { x with ready := r, emptySince := if r.isEmpty && !x.ready.isEmpty then d.ns else x.emptySince }

/-- Fill the prefetch slot of an engine with a task (R74). -/
def prefetch (d : Dev) (i e : Nat) : Dev :=
  match d.task i with
  | none => d
  | some t =>
    let x := d.engine e
    taskTrace ((d.setEngine e { x with prefetch := some i, prefetchMax := 1 }).setTask i { t with phase := .prefetched e })
      0x41 (e / 16) (e % 16) 0 0 t

/-- The oldest item of a Caddy's ready list that an engine may run and that may enter service (R74). -/
def prefetchPick (d : Dev) (e : Nat) : Option Nat :=
  (d.caddy (e / 16)).ready.find? fun i => match d.task i with
    | none => false
    | some t => (seKind t.d.kind == decide (e % 16 < 8)) && mayEnter d t

/-- Dispatch a ready task to an engine of its Caddy: into service when the engine is free for it, into an empty prefetch
slot when the engine is in service; passed over with a FLOW_WAIT record while its lock is busy (R71, R74, R90). -/
def dispatchTask (d : Dev) (i e : Nat) : Dev :=
  match d.task i with
  | none => d
  | some t =>
    if t.phase ≠ .ready (e / 16) ∨ (d.caddy (e / 16)).state ≠ cdRUNNING ∨ seKind t.d.kind ≠ decide (e % 16 < 8) ∨
       (needsTrellis d t && noTrellis d (e / 16)) then d
    else if !mayEnter d t then
      if t.flowWaited || !flowBusy d t then d else taskTrace (d.setTask i { t with flowWaited := true }) 0x47 (e / 16) 0xFF 0 0 t
    else if engineFree d e t.d.kind t.slots then enterService (unready d i (e / 16)) i e
    else if !(d.engine e).tasks.isEmpty && (d.engine e).prefetch.isNone && !(d.engine e).draining && !(d.engine e).disabled &&
        prefetchPick d e == some i then
      prefetch (unready d i (e / 16)) i e
    else d

/-- Release a lock at completion or abort of a task in service (R71). -/
def releaseLock (d : Dev) (t : Task) : Dev :=
  match t.ticket with
  | none => d
  | some _ =>
    let l := d.lock t.d.flow
    d.setLock t.d.flow ({ l with busy := false, serve := (l.serve + 1) % 65536 }).skipVoid

/-- Void the ticket of a task aborted before it enters service (R71). -/
def voidTicket (d : Dev) (t : Task) : Dev :=
  match t.ticket with
  | none => d
  | some k =>
    let l := d.lock t.d.flow
    d.setLock t.d.flow ({ l with void := l.void ++ [k] }).skipVoid

/-- Decrement the dependence counter of a successor (R66, R67). -/
def decrement (d : Dev) (aborted : Bool) (i : Nat) : Dev :=
  if i = noTask then d
  else match d.task i with
    | none => d.inc DSP_ERR_dep_unknown
    | some t =>
      if t.dep = 0 then d.inc DSP_ERR_dep_underflow
      else d.setTask i { t with dep := t.dep - 1, predAborted := t.predAborted || aborted }

/-- A task whose counter has just reached zero. -/
def nowReady (d : Dev) (i : Nat) : Bool := ((d.task i).map fun t => t.dep == 0 && t.phase == .waiting).getD false

/-- Both successors of an ended task are decremented in one cycle; those that reach zero become ready in source order (R18, R66, R71). -/
def decrementBoth (d : Dev) (aborted : Bool) (a b : Nat) : Dev :=
  let d1 := decrement (decrement d aborted a) aborted b
  let src (i : Nat) : Nat := ((d1.task i).map (·.d.source)).getD 0
  let l := (if src b < src a then [b, a] else [a, b]).eraseDups.filter (nowReady d1)
  l.foldl makeReady d1

/-- The completion word of a task (R69). -/
def completionWord (d : Dev) (t : Task) (result : Nat) : Word64 :=
  BitVec.ofNat 64 (2 ^ 63 + result * 2 ^ 48 + t.d.id * 2 ^ 32 + d.ns % 2 ^ 32)

/-- Push a completion word, or hold it while there is no credit (R69). -/
def pushCompletion (d : Dev) (t : Task) (result : Nat) : Dev :=
  if !t.d.notify then d
  else if wqCredit d t.d.notifyWq then (wqPush d t.d.notifyWq epDispatcher (completionWord d t result)).1
  else { d with dsp := { d.dsp with held := d.dsp.held ++ [⟨t.d.notifyWq, completionWord d t result, d.ns⟩] } }

/-- The prefetched item of an engine enters service when the engine becomes free for it (R74). -/
def usePrefetch (d : Dev) (e : Nat) : Dev :=
  match (d.engine e).prefetch with
  | none => d
  | some i =>
    match d.task i with
    | none => d
    | some t =>
      if engineFree d e t.d.kind t.slots && mayEnter d t && !(needsTrellis d t && noTrellis d (e / 16)) then
        enterService (d.setEngine e { d.engine e with prefetch := none }) i e
      else d

/-- Where a task stands leaves it: its engine, slot or list. -/
def detach (d : Dev) (t : Task) : Dev :=
  match t.phase with
  | .service e =>
    let x := d.engine e
    d.setEngine e { x with tasks := x.tasks.filter (· != t.d.id), done := (x.done + 1) % 2 ^ 32,
                           spans := (t.startAt, d.ns) :: keepSpans d.ns x.spans }
  | .prefetched e => d.setEngine e { d.engine e with prefetch := none }
  | .ready c => unready d t.d.id c
  | .holding => { d with dsp := { d.dsp with holding := d.dsp.holding.filter (· != t.d.id) } }
  | .waiting => d

/-- A Trellis Unit (Caddy × 2 + unit) goes out of service. With neither in service the Caddy takes no context of family 1 or 2: those that wait on it
are placed anew (R169). -/
def trellisOut (d : Dev) (u : Nat) : Dev :=
  let c := u / 2
  let d1 := { d with res := { d.res with trellisOff := u :: d.res.trellisOff } }
  if !noTrellis d1 c then d1
  else
    let waits := (Tab.vals d1.dsp.tasks).filter fun t => needsTrellis d1 t &&
      match t.phase with
      | .ready k => k == c
      | .prefetched e => e / 16 == c
      | _ => false
    (waits.map (·.d.id)).foldl place (waits.foldl detach d1)

/-- The engine of a task in service, as physical Caddy × 16 + index. -/
def taskEngine (t : Task) : Option Nat := match t.phase with
  | .service e => some e
  | _ => none

/-- A task ends with a result (R66, R69, R71, R77): it leaves its engine or list, its lock is released or its ticket void,
its successors are decremented, its completion word pushed, a prefetched item enters service. -/
def endTask (d : Dev) (i result : Nat) (aborted : Bool) : Dev :=
  match d.task i with
  | none => d
  | some t =>
    let d1 := detach d t
    let d2 := { d1 with dsp := { d1.dsp with tasks := Tab.del d1.dsp.tasks i } }
    let d3 := if (taskEngine t).isSome then releaseLock d2 t else voidTicket d2 t
    let d4 := decrementBoth d3 aborted t.d.succ0 t.d.succ1
    let d5 := pushCompletion d4 t result
    let d6 := match t.phase with
      | .service e => usePrefetch (taskTrace d5 (if aborted then 0x44 else 0x43) (e / 16) (e % 16) result 0 t) e
      | .prefetched e => if aborted then taskTrace d5 0x44 (e / 16) (e % 16) result 0 t else d5
      | .ready c => if aborted then taskTrace d5 0x44 c 0xFF result 0 t else d5
      | _ => if aborted then taskTrace d5 0x44 0xFF 0xFF result 0 t else d5
    if d6.dsp.holding.isEmpty then d6.setBit DSP_STATUS_role_wait false else d6

/-- A task completes with a result of its handler or context; 0xF0 to 0xFF of a handler is recorded as 0x01 (R87). -/
def completeTask (d : Dev) (i result : Nat) : Dev := endTask d i result false

/-- The result a handler's return value is recorded as (R87). -/
def handlerResult (r : Nat) : Nat := if 0xF0 ≤ r % 256 then 1 else r % 256

/-- A task is aborted (R77): recorded in the fault journal with its step count. -/
def abortTask (d : Dev) (i result : Nat) : Dev :=
  match d.task i with
  | none => d
  | some t =>
    let e := (taskEngine t).getD 0
    let d1 := jNote d 0x03 2 jABORTED result (t.d.id + t.d.flow * 2 ^ 16 + (e / 16) * 2 ^ 40 + (e % 16) * 2 ^ 48) 0
      (if (taskEngine t).isSome then (d.engine e).step else 0) 0
    endTask d1 i result true

/-- Reset an engine before its next task (R78, R80). (DESIGN CHOICE: log entry 107) -/
def resetEngine (d : Dev) (e : Nat) : Dev := d.setEngine e { d.engine e with step := 0, wqSel := 0, subStatus := 0, sub := [] }

/-- Tasks that stand on a Caddy: in service, prefetched, ready. -/
def caddyTasks (d : Dev) (c : Nat) : List Nat :=
  ((List.range 16).flatMap fun k => (d.engine (16 * c + k)).tasks ++ ((d.engine (16 * c + k)).prefetch).toList) ++ (d.caddy c).ready

/-- All engines of a Caddy are idle, its prefetch slots empty. -/
def caddyIdle (d : Dev) (c : Nat) : Bool :=
  (List.range 16).all fun k => (d.engine (16 * c + k)).tasks.isEmpty && (d.engine (16 * c + k)).prefetch.isNone

/-- Caddies in RUNNING. -/
def runningCount (d : Dev) : Nat := ((List.range 34).filter fun c => (d.caddy c).state == cdRUNNING).length

/-- Take the items off a Caddy's prefetch slots and ready list, in order: prefetched items return to the head of the list (R74). -/
def emptyCaddy (d : Dev) (c : Nat) : List Nat × Dev :=
  let pre := (List.range 16).filterMap fun k => (d.engine (16 * c + k)).prefetch
  let d1 := (List.range 16).foldl (fun a k => a.setEngine (16 * c + k) { a.engine (16 * c + k) with prefetch := none }) d
  (pre ++ (d.caddy c).ready, d1.setCaddy c { d.caddy c with ready := [], emptySince := d.ns })

/-- The rotation's fence or slice on a Caddy ends (R435). -/
def bistLeave (d : Dev) (c : Nat) : Dev :=
  if d.res.bist.current ≠ some c then d
  else
    let b := d.res.bist
    let d1 := { d with res := { d.res with bist := { b with current := none, inSlice := false, rerun := false, wasStopped := false, spare := false } } }
    let d2 := d1.setCaddy c { d1.caddy c with fenced := false }
    ((d2.setBit RES_STATUS_bist_running false).setBit RES_BIST_STATUS_in_slice false).setBit RES_BIST_STATUS_fenced false

/-- A Caddy enters DRAINING for a state (R79): its ready list moves to other Caddies; a fence ends, its slice abandoned (R435). -/
def drainCaddy (d : Dev) (c target : Nat) : Dev :=
  let (moved, d1) := emptyCaddy (bistLeave d c) c
  keepWarm (moved.foldl place (d1.setCaddy c { d1.caddy c with state := cdDRAINING, target := target }))

/-- One victim of a steal (R75): the items moved, at most 16, half of the eligible ones rounded up. -/
def stealFrom (d : Dev) (thief victim : Nat) : List Nat :=
  if (d.caddy victim).state ≠ cdRUNNING then []
  else
    let el := (d.caddy victim).ready.filter fun i => match d.task i with
      | none => false
      | some t => accepts (d.caddy thief) t.d.kind && !flowBusy d t && !(needsTrellis d t && noTrellis d thief)
    el.take (min ((el.length + 1) / 2) 16)

/-- Victims in the order of R75 for a thief of logical number `t`. (DESIGN CHOICE: log entry 29) -/
def stealOrder (t : Nat) : List Nat :=
  (List.range 16).flatMap fun k => [(t + (k + 1)) % 32, (t + 32 - (k + 1)) % 32]

end Sys2Proof.Machine
end

