-- ==== Sys2Proof/Machine/TblMem.lean ====
section
/-! DEFINITION. Shared Table Memory (09_tables.md R236 to R240): where an entry lies, entries as bytes, the fields of Node entries
(Table TABLE-3), cells (Table TSCH-3) and the hash functions. -/

namespace Sys2Proof.Machine

/-- first_bank of a table under the geometry in force, or of Table BLEND-7. -/
def Dev.tableBank (d : Dev) (t : Nat) : Nat :=
  if d.sec 7 0xFFFF = [] then [0, 16, 28, 36, 44, 52, 56, 60, 62].getD t 0 else geoFirst (d.sec 7 0xFFFF) t

/-- hash_seed of a table. -/
def Dev.tableSeed (d : Dev) (t : Nat) : Nat := if d.sec 7 0xFFFF = [] then 0 else geoSeed (d.sec 7 0xFFFF) t

/-- Byte address of an entry in Shared Table Memory (R238). -/
def entryAddr (d : Dev) (t i : Nat) : Nat := d.tableBank t * 0x100000 + i * tableEntrySize t

/-- The bytes of an entry. -/
def entryBytes (d : Dev) (t i : Nat) : List Byte := Memory.readN 0 d.tbl.mem (entryAddr d t i) (tableEntrySize t)

/-- Write bytes at an offset of an entry; a word that a write touches is no longer poisoned (R432). -/
def setEntryAt (d : Dev) (t i off : Nat) (bs : List Byte) : Dev :=
  let a := entryAddr d t i + off
  { d with tbl := { d.tbl with mem := Memory.writeN 0 d.tbl.mem a bs,
                               poison := d.tbl.poison.filter fun x => decide (x + 8 ≤ a ∨ a + bs.length ≤ x) } }

/-- Write a whole entry. -/
def setEntry (d : Dev) (t i : Nat) (bs : List Byte) : Dev := setEntryAt d t i 0 (fit (tableEntrySize t) bs)

/-- A little-endian field of an entry, and setting one. -/
def entryField (d : Dev) (t i off len : Nat) : Nat := unle (Memory.readN 0 d.tbl.mem (entryAddr d t i + off) len)
def setEntryField (d : Dev) (t i off len v : Nat) : Dev := setEntryAt d t i off (le len v)

/-! ### Node Table fields (R241, Table TABLE-3) -/

def nodeCtrl (d : Dev) (n : Nat) : Nat := entryField d 0 n 0 4
def nodeValid (d : Dev) (n : Nat) : Bool := decide (n < d.tableEntries 0) && nbit (nodeCtrl d n) 31
def nodePan (d : Dev) (n : Nat) : Nat := nbits (nodeCtrl d n) 30 28
def nodeSleepy (d : Dev) (n : Nat) : Bool := nbit (nodeCtrl d n) 27
def nodeSeen (d : Dev) (n k : Nat) : Bool := nbit (nodeCtrl d n) (26 - k)
def nodeTxKey (d : Dev) (n : Nat) : Nat := nbits (nodeCtrl d n) 24 24
def nodeRefs (d : Dev) (n : Nat) : Nat := nbits (nodeCtrl d n) 23 22
def nodeMode (d : Dev) (n : Nat) : Nat := nbits (nodeCtrl d n) 21 17
def nodeParent (d : Dev) (n : Nat) : Nat := entryField d 0 n 4 4 % 2 ^ 20
def nodeExt (d : Dev) (n : Nat) : List Byte := Memory.readN 0 d.tbl.mem (entryAddr d 0 n + 8) 8
def nodeShort (d : Dev) (n : Nat) : Nat := entryField d 0 n 0x10 2
def nodePReq (d : Dev) (n : Nat) : Int := toSigned 10 (entryField d 0 n 0x12 2 % 1024)
def nodeWakeCode (d : Dev) (n : Nat) : Nat := entryField d 0 n 0x14 4
def nodeWhistleCh (d : Dev) (n : Nat) : Nat := entryField d 0 n 0x18 1
def nodeWakeLead (d : Dev) (n : Nat) : Nat := entryField d 0 n 0x19 1
def nodeCopies (d : Dev) (n : Nat) : Nat := entryField d 0 n 0x1A 1 % 64
def nodeSector (d : Dev) (n : Nat) : Nat := entryField d 0 n 0x1B 1 % 16
def nodeKeyIndex (d : Dev) (n k : Nat) : Nat := entryField d 0 n (0x1C + k) 1
def nodeRxFc (d : Dev) (n k : Nat) : Nat := entryField d 0 n (0x20 + 4 * k) 4
def nodeTxFc (d : Dev) (n k : Nat) : Nat := entryField d 0 n (0x28 + 4 * k) 4
def nodeCmpSlot (d : Dev) (n : Nat) : Nat := entryField d 0 n 0x35 1
def nodeCmpBlocks (d : Dev) (n : Nat) : Nat := entryField d 0 n 0x36 2
def nodeCmpState (d : Dev) (n : Nat) : Nat := entryField d 0 n 0x38 1
def nodeCap (d : Dev) (n k : Nat) : Nat := entryField d 0 n (0x39 + 2 * k) 2

/-- Set bits of a Node entry's ctrl. -/
def setNodeCtrl (d : Dev) (n hi lo v : Nat) : Dev :=
  setEntryField d 0 n 0 4 (setBits (BitVec.ofNat 32 (nodeCtrl d n)) hi lo v).toNat

/-- max_nodes of a PAN slot, its pan_id and nonce_mode (Table BLEND-5); a PAN in use. -/
def Dev.panUsed (d : Dev) (p : Nat) : Bool := decide (p < 8) && topPanUsed d.topo p
def Dev.panId (d : Dev) (p : Nat) : Nat := topPanId d.topo p

/-! ### Cells (Table TSCH-3) -/

def cellWord (d : Dev) (c : Nat) : Nat := entryField d 4 c 0 8
def setCell (d : Dev) (c w : Nat) : Dev := setEntryField d 4 c 0 8 w
def clValid (w : Nat) : Bool := nbit w 63
def clPan (w : Nat) : Nat := nbits w 62 60
def clHandle (w : Nat) : Nat := nbits w 59 54
def clSlot (w : Nat) : Nat := nbits w 53 38
def clChan (w : Nat) : Nat := nbits w 37 30
def clTx (w : Nat) : Bool := nbit w 29
def clRx (w : Nat) : Bool := nbit w 28
def clShared (w : Nat) : Bool := nbit w 27
def clTime (w : Nat) : Bool := nbit w 26
def clAdv (w : Nat) : Bool := nbit w 24
def clCampaign (w : Nat) : Bool := nbit w 20
def clTarget (w : Nat) : Nat := nbits w 19 0

/-- Indices of the valid cells of the Cell Table, ascending: those of its listed bytes, since an unlisted entry is not valid. -/
def validCells (d : Dev) : List Nat :=
  let b := d.tableBank 4 * 0x100000
  (d.tbl.mem.filterMap fun c =>
    if b ≤ c.1 ∧ c.1 < b + 8 * d.tableEntries 4 ∧ (c.1 - b) % 8 = 7 ∧ nbit c.2.toNat 7 then some ((c.1 - b) / 8) else none)

/-- Indices of the listed valid entries of a table whose entry holds its valid bit at bit 7 of byte `off`. -/
def validEntries (d : Dev) (t off : Nat) : List Nat :=
  let b := d.tableBank t * 0x100000
  let z := tableEntrySize t
  d.tbl.mem.filterMap fun c =>
    if b ≤ c.1 ∧ c.1 < b + z * d.tableEntries t ∧ (c.1 - b) % z = off ∧ nbit c.2.toNat 7 then some ((c.1 - b) / z) else none

/-- Valid Node entries, of all PANs and of one. -/
def validNodes (d : Dev) : List Nat := validEntries d 0 3
def panNodes (d : Dev) (p : Nat) : List Nat := (validNodes d).filter fun n => nodePan d n == p

/-! ### Keyed tables (R239, R240) -/

/-- The slotframes of a PAN's configuration in force, and one by handle. -/
def panFrames (cfg : List Section) (p : Nat) : List SlotframeRec := slotframes (secBody cfg 5 p)
def panFrame (cfg : List Section) (p h : Nat) : Option SlotframeRec := (panFrames cfg p).find? fun r => r.handle == h

/-- h(s, K) of R240. -/
def hashKey (s : Nat) (k : List Byte) : Nat := crc32 (le 4 s ++ k)

/-- The two candidate buckets of a key among `n` buckets. -/
def bucketsOf (seed n : Nat) (k : List Byte) : Nat × Nat :=
  let b1 := hashKey seed k * n / 2 ^ 32
  let b2 := hashKey (seed ^^^ 0x9E3779B9) k * n / 2 ^ 32
  (b1, if b2 = b1 then (b1 + 1) % n else b2)

/-- Bucket count of a region: Address Table, or a sector of the Hearing Tables. -/
def bucketCount (d : Dev) (t : Nat) : Nat := if t = 1 then d.tableEntries 1 / 4 else d.tableEntries 2 / 64

/-- First entry of bucket `b` of a table (and sector). -/
def bucketEntry (d : Dev) (t sector b : Nat) : Nat := (if t = 1 then 0 else sector * (d.tableEntries 2 / 16)) + 4 * b

/-- The Hearing key of a sector and NIX. -/
def hearKey (sector nix : Nat) : List Byte := le 1 3 ++ le 1 sector ++ zeros 6 ++ le 4 nix ++ zeros 4

/-- The candidate buckets of a key of a table. -/
def candidates (d : Dev) (t : Nat) (k : List Byte) : Nat × Nat := bucketsOf (d.tableSeed t) (bucketCount d t) k

/-- An Address or Hearing entry is valid, and holds a key. -/
def slotValid (d : Dev) (t e : Nat) : Bool := nbit (entryField d t e (if t = 1 then 0x10 else 0) 4) 31
def slotHolds (d : Dev) (t e : Nat) (k : List Byte) : Bool :=
  slotValid d t e &&
    (if t = 1 then slice (entryBytes d 1 e) 0 16 == k else entryField d 2 e 0 4 % 2 ^ 20 == field k 8 4)

/-- The entries of a bucket, in slot order. -/
def bucketSlots (d : Dev) (t sector b : Nat) : List Nat := (List.range 4).map (bucketEntry d t sector b + ·)

/-- The entry that holds a key, in its candidate buckets. -/
def keyFind (d : Dev) (t : Nat) (k : List Byte) : Option Nat :=
  let c := candidates d t k
  let s := field k 1 1
  (bucketSlots d t s c.1 ++ bucketSlots d t s c.2).find? fun e => slotHolds d t e k

/-- The NIX an Address key names. -/
def addrFind (d : Dev) (k : List Byte) : Option Nat := (keyFind d 1 k).map fun e => entryField d 1 e 0x10 4 % 2 ^ 20

/-- Keys of buckets of a region, as versions and holds use them. -/
def bucketKey (t sector b : Nat) : Nat := t * 2 ^ 24 + sector * 2 ^ 20 + b

/-- Holds on the two candidate buckets of a key (R246), set and released. -/
def holdBuckets (d : Dev) (t : Nat) (k : List Byte) : Dev :=
  let c := candidates d t k
  { d with tbl := { d.tbl with held := bucketKey t (field k 1 1) c.1 :: bucketKey t (field k 1 1) c.2 :: d.tbl.held } }
def releaseBuckets (d : Dev) : Dev := { d with tbl := { d.tbl with held := d.tbl.held.drop 2 } }

/-- A keyed lookup whose first `changed` attempts met a changed version: counted, the fifth read under a hold on both buckets (R246). The entry
found, and the state. (DESIGN CHOICE: log entry 48) -/
def keyedLookup (d : Dev) (t : Nat) (k : List Byte) (changed : Nat) : Option Nat × Dev :=
  let d1 := (d.setReg TBL_CNT_LOOKUP (d.reg TBL_CNT_LOOKUP + 1)).addFld TBL_CNT_RETRY_retries (min changed 4)
  if changed < 4 then (keyFind d1 t k, d1)
  else
    let d2 := holdBuckets (d1.inc TBL_CNT_RETRY_serial) t k
    (keyFind d2 t k, releaseBuckets d2)

/-- The first hit of Address keys looked up in order (R269): the NIX, and the state; `changed` for each lookup. -/
def addrLookup (d : Dev) : List (List Byte) → List Nat → Option Nat × Dev
  | [], _ => (none, d)
  | k :: ks, changed =>
    let (e, d1) := keyedLookup d 1 k (changed.headD 0)
    match e with
    | some i => (some (entryField d1 1 i 0x10 4 % 2 ^ 20), d1)
    | none => addrLookup d1 ks changed.tail

/-- Address keys: short address, extended address (MAC order), interface identifier. -/
def shortKey (pan a : Nat) : List Byte := le 1 0 ++ le 1 pan ++ zeros 6 ++ le 2 a ++ zeros 6
def extKey (pan : Nat) (a : List Byte) : List Byte := le 1 1 ++ le 1 pan ++ zeros 6 ++ fit 8 a
def iidKey (pan : Nat) (a : List Byte) : List Byte := le 1 2 ++ le 1 pan ++ zeros 6 ++ fit 8 a

/-- Ports of a Hearing entry, best first. -/
def hearPorts (d : Dev) (sector nix : Nat) : List Nat :=
  match keyFind d 2 (hearKey sector nix) with
  | none => []
  | some e => ((entryBytes d 2 e).drop 8).take 3 |>.map (·.toNat) |>.filter (· != 0xFF)

/-- Bump the version of a bucket (R236). -/
def bumpVersion (d : Dev) (t sector b : Nat) : Dev :=
  let k := bucketKey t sector b
  { d with tbl := { d.tbl with versions := Tab.put d.tbl.versions k ((Tab.getD d.tbl.versions k 0 + 1) % 65536) } }

end Sys2Proof.Machine
end

