-- ==== Sys2Proof/Machine/Descriptor.lean ====
section
/-! DEFINITION. The accepted head descriptor and the telemetry values that the power prediction uses (04_yarlink.md Table YLINK-8,
05_head_control.md R135, R136). -/

namespace Sys2Proof.Machine

/-! ### Fields of the accepted head descriptor (Table YLINK-8) -/

def dsc (d : Dev) (p off len : Nat) : Nat := field (d.port p).desc off len
def dscS (d : Dev) (p off : Nat) : Int := signed16 (dsc d p off 2)
def dscFlag (d : Dev) (p k : Nat) : Bool := nbit (dsc d p 5 1) k
def dscTxPmax (d : Dev) (p : Nat) : Int := dscS d p 0x50
def dscTxPmin (d : Dev) (p : Nat) : Int := dscS d p 0x52
def dscPaLead (d : Dev) (p : Nat) : Nat := dsc d p 0x4A 2
def dscTrSwitch (d : Dev) (p : Nat) : Nat := dsc d p 0x4C 2
def dscCalMask (d : Dev) (p : Nat) : Nat := dsc d p 0x54 1
def dscSensors (d : Dev) (p : Nat) : Nat := dsc d p 0x55 1
def dscSensorType (d : Dev) (p k : Nat) : Nat := dsc d p (0xE0 + k) 1
/-- Receive gain curve, 0.25 dB. -/
def dscRxGain (d : Dev) (p k : Nat) : Int := dscS d p (0x58 + 2 * k)
/-- Listed points of the transmit curve: (code, power in 0.25 dBm). -/
def dscCurve (d : Dev) (p : Nat) : List (Nat × Int) :=
  ((List.range 16).map fun k => (dsc d p (0x98 + 4 * k) 2, dscS d p (0x9A + 4 * k))).filter fun x => x.1 != 0xFFFF

/-- Index of the first sensor of a type. -/
def sensorOf (d : Dev) (p ty : Nat) : Option Nat := (List.range (dscSensors d p)).find? fun k => dscSensorType d p k == ty

/-- The temperature sensor R135 uses, and its supply sensor. (DEDUCED: log entry 35) -/
def tempSensor (d : Dev) (p : Nat) : Option Nat := (sensorOf d p 1).or (sensorOf d p 2)
def powerSensors (d : Dev) (p : Nat) : List Nat := (tempSensor d p).toList ++ (sensorOf d p 3).toList

/-- Latest value of a sensor, or a reference value. -/
def sensorValue (d : Dev) (p : Nat) (k : Option Nat) (ref : Int) : Int :=
  match k.bind fun i => Tab.find (d.head p).sensors i with
  | some s => s.value
  | none => ref
def tPa (d : Dev) (p : Nat) : Int := sensorValue d p (tempSensor d p) (dscS d p 0xDC)
def vSupply (d : Dev) (p : Nat) : Int := sensorValue d p (sensorOf d p 3) (dsc d p 0xDE 2)

/-- Age of a sensor's value in ns; none when no valid value has come since CALIBRATE (R136). -/
def sensorAge (d : Dev) (p k : Nat) : Option Nat := (Tab.find (d.head p).sensors k).map fun s => d.ns - s.at?

/-- Some value R135 uses is older than a bound. -/
def telemOlder (d : Dev) (p ns : Nat) : Bool :=
  (powerSensors d p).any fun k => match sensorAge d p k with
    | none => true
    | some a => decide (ns < a)

end Sys2Proof.Machine
end

