-- ==== Sys2Proof/Machine/FwdOps.lean ====
section
/-! DEFINITION. Heads' holds as others see them (05_head_control.md R142), and the class queues (10_forwarding.md R273 to R280):
admission, selection, head choice, moves and releases. -/

namespace Sys2Proof.Machine

/-! ### Ports and holds -/

/-- Port state codes of Table YLINK-9. -/
@[reducible] def ylDISABLED : Nat := 0
@[reducible] def ylDOWN : Nat := 1
@[reducible] def ylALIGN : Nat := 2
@[reducible] def ylDESCRIBE : Nat := 3
@[reducible] def ylCALIBRATE : Nat := 4
@[reducible] def ylREADY : Nat := 5
@[reducible] def ylDRAINING : Nat := 6

/-- An Ethernet port that RES_FUNC_CMD disables (Table RES-5), or that is isolated (R27). -/
def ethOff (d : Dev) (e : Nat) : Bool :=
  d.res.func.disabled.contains (3 * 65536 + e) || d.res.func.draining.contains (3 * 65536 + e) || d.isolated.contains 192

/-- Causes of Tables HEAD-2 and SEND-2 and of R217. -/
@[reducible] def csSYNTH : Nat := 0x01
@[reducible] def csDUTY : Nat := 0x02
@[reducible] def csREG : Nat := 0x03
@[reducible] def csTHERMAL : Nat := 0x04
@[reducible] def csFAULT : Nat := 0x05
@[reducible] def csCAL : Nat := 0x06
@[reducible] def csTELEM : Nat := 0x07
@[reducible] def csLINK : Nat := 0x08
@[reducible] def csINHIBIT : Nat := 0x09
@[reducible] def csNO_LOCK : Nat := 0x0A
@[reducible] def csCONTEXT : Nat := 0x0B
@[reducible] def csOVERLAP : Nat := 0x0C
@[reducible] def csLATE : Nat := 0x0D
@[reducible] def csENGINE : Nat := 0x0E
@[reducible] def csRANGE : Nat := 0x0F
@[reducible] def csNO_HEAD : Nat := 0x10
@[reducible] def csQUIET : Nat := 0x11
@[reducible] def csCOUNTER : Nat := 0x12

/-- State of a port. -/
def Dev.portState (d : Dev) (p : Nat) : Nat := d.fld (YL_STATUS_state p)

/-- Ports in CALIBRATE or READY: their heads are reached and their streams run. -/
def portLive (d : Dev) (p : Nat) : Bool := d.portState p == ylCALIBRATE || d.portState p == ylREADY

/-- Every hold cause of the head on port `p` (Table HEAD-2); a value that R135 uses older than 1 s holds with TELEM at once (R136). A role 3
port has no head and emits no RF. -/
def headHolds (d : Dev) (p : Nat) : List Nat :=
  (d.head p).holds ++ (if telemOlder d p 1000000000 && !(d.head p).holds.contains csTELEM then [csTELEM] else []) ++ (if d.portState p = ylREADY then [] else [csLINK]) ++
  (if d.bit HC_CTRL_tx_inhibit then [csINHIBIT] else []) ++
  (if topRole d.topo p ≠ 3 && !lockValid d.hc.lock then [csNO_LOCK] else [])

/-- Lowest cause of a list; 0 for none. -/
def lowest (l : List Nat) : Nat := match l with
  | [] => 0
  | c :: cs => cs.foldl min c

/-- The hold cause shown for a head, lowest code, 0 none. (DEDUCED: log entry 35) -/
def headHold (d : Dev) (p : Nat) : Nat := lowest (headHolds d p)

/-! ### Queue numbers, shares, quanta, shapers -/

/-- Number of queue (sector, direction 0 up or 1 down, class), as Table BLEND-12 numbers the shares. (DESIGN CHOICE: log entry 50) -/
def qNum (s dir k : Nat) : Nat := 16 * s + 8 * dir + k

/-- Entries of a queue, front first. -/
def qList (d : Dev) (q : Nat) : List Nat := Tab.getD d.fwd.queues q []
def setQ (d : Dev) (q : Nat) (l : List Nat) : Dev := { d with fwd := { d.fwd with queues := Tab.put d.fwd.queues q l } }

/-- The entry of an index. -/
def qEntry (d : Dev) (i : Nat) : Option QEntry := Tab.find d.fwd.entries i
def setQE (d : Dev) (i : Nat) (e : QEntry) : Dev := { d with fwd := { d.fwd with entries := Tab.put d.fwd.entries i e } }

/-- The queue an entry stands in. -/
def QEntry.queue (e : QEntry) : Nat := qNum e.sector (if e.up then 0 else 1) e.cls

/-- Occupancy in octets, and the buffer share (KiB in the Queue topology section). -/
def qOcc (d : Dev) (q : Nat) : Nat := ((qList d q).filterMap (qEntry d)).map (·.length) |>.sum
/-- DESIGN CHOICE: log entry 50. -/
def qShare (d : Dev) (q : Nat) : Nat := 1024 * field (d.sec 8 0xFFFF) (4 * q) 4

/-- QoS parameters of a sector (Table FWD-4); defaults when no section is present. -/
def qQuantum (d : Dev) (q : Nat) : Nat :=
  let b := d.sec 0x11 (q / 16)
  if b = [] then 1536 else field b (2 * (q % 16)) 2
def qShaperCfg (d : Dev) (q : Nat) : Nat × Nat × Nat :=
  let b := d.sec 0x11 (q / 16)
  let o := 0x20 + 16 * (q % 16)
  if b = [] then (0, 0, 0) else (field b o 4, field b (o + 4) 4, field b (o + 8) 4)

/-- A shaper in force; off until its first refill sets one. -/
def qShaper (d : Dev) (q : Nat) : Shaper := Tab.getD d.fwd.shapers q ⟨0, 0, 0, 0⟩

/-- The shaper allows service (R279): off, or at least one token. -/
def shaperAllows (d : Dev) (q : Nat) : Bool :=
  (qShaper d q).rate == 0 || decide (8000 ≤ (qShaper d q).tokens)

/-- A served frame subtracts its length. -/
def shaperCharge (d : Dev) (q len : Nat) : Dev :=
  let x := qShaper d q
  if x.rate = 0 then d
  else { d with fwd := { d.fwd with shapers := Tab.put d.fwd.shapers q { x with tokens := x.tokens - 8000 * len } } }

def qDeficit (d : Dev) (q : Nat) : Nat := Tab.getD d.fwd.deficit q 0
def setDeficit (d : Dev) (q v : Nat) : Dev := { d with fwd := { d.fwd with deficit := Tab.put d.fwd.deficit q v } }

/-! ### Packet Buffer Memory (R21) -/

/-- Room of Packet Buffer Memory in bytes: the architecture places it in 16 MiB (Table ARCH-5). (DESIGN CHOICE: log entry 101) -/
def pbmCap : Nat := 0x1000000

/-- Bytes held. -/
def pbmUsed (d : Dev) : Nat := (d.pbm.bufs.map fun b => b.2.length).sum

/-- Put bytes into a buffer: its handle, or none when there is no room. -/
def bufPut (d : Dev) (bs : List Byte) : Option (Nat × Dev) :=
  if pbmUsed d + bs.length ≤ pbmCap then
    some (d.pbm.next, { d with pbm := { bufs := Tab.put d.pbm.bufs d.pbm.next bs, next := d.pbm.next + 1 } })
  else none

/-- Bytes of a buffer, and replacing and releasing them. -/
def bufGet (d : Dev) (h : Nat) : List Byte := Tab.getD d.pbm.bufs h []
def bufSet (d : Dev) (h : Nat) (bs : List Byte) : Dev := { d with pbm := { d.pbm with bufs := Tab.put d.pbm.bufs h bs } }
def bufFree (d : Dev) (h : Nat) : Dev := { d with pbm := { d.pbm with bufs := Tab.del d.pbm.bufs h } }

/-! ### Admission and release (R273, R276) -/

/-- The datagram of an entry lost a fragment. -/
def fragLost (d : Dev) (e : QEntry) : Bool := e.fragment && d.fwd.lost.contains (e.nix * 65536 + e.tag)

/-- Note a lost fragment. -/
def noteLost (d : Dev) (e : QEntry) : Dev :=
  if e.fragment && !e.up then { d with fwd := { d.fwd with lost := (e.nix * 65536 + e.tag) :: d.fwd.lost } } else d

/-- Drops of a queue: tail and yellow (FWD_Q_DROP). -/
def qDrop (d : Dev) (q : Nat) (yellow : Bool) : Dev :=
  let (t, y) := Tab.getD d.fwd.drops q (0, 0)
  let v : Nat × Nat := if yellow then (t, min (y + 1) 0xFFFF) else (min (t + 1) 0xFFFF, y)
  { d with fwd := { d.fwd with drops := Tab.put d.fwd.drops q v } }

/-- Admit a frame or packet to the tail of its queue (R273): admitted, or dropped with its buffer released. (DEDUCED: log entry 52) -/
def enqueue (d : Dev) (e : QEntry) : Dev × Bool :=
  let q := e.queue
  if fragLost d e then ((bufFree d e.buf).inc FWD_CNT_DROP_frag_drop, false)
  else match Tab.freeKey d.fwd.entries 0 65535 with
    | none => (noteLost ((bufFree d e.buf).inc FWD_CNT_DROP_desc_full) e, false)
    | some i =>
      if qShare d q < qOcc d q + e.length then (noteLost (qDrop (bufFree d e.buf) q false) e, false)
      else if e.yellow && decide (3 * qShare d q < 4 * (qOcc d q + e.length)) then (noteLost (qDrop (bufFree d e.buf) q true) e, false)
      else (setQ { setQE d i { e with ord := d.fwd.nextOrd } with fwd := { (setQE d i { e with ord := d.fwd.nextOrd }).fwd with nextOrd := d.fwd.nextOrd + 1 } } q (qList d q ++ [i]), true)

/-- Take an entry out of its queue and free it; the buffer stays. -/
def unqueue (d : Dev) (i : Nat) : Dev :=
  match qEntry d i with
  | none => d
  | some e =>
    let d1 := setQ d e.queue ((qList d e.queue).filter (· != i))
    { d1 with fwd := { d1.fwd with entries := Tab.del d1.fwd.entries i } }

/-- Release an entry and its buffer. -/
def dropEntry (d : Dev) (i : Nat) : Dev :=
  match qEntry d i with
  | none => d
  | some e => bufFree (unqueue d i) e.buf

/-- Drop an entry for a cause that loses its datagram's later fragments, those already queued among them (R273). -/
def loseEntry (d : Dev) (i : Nat) : Dev :=
  match qEntry d i with
  | none => d
  | some e =>
    let later := d.fwd.entries.filter fun x => e.fragment && !e.up && x.2.fragment && !x.2.up && x.2.nix == e.nix && x.2.tag == e.tag &&
      decide (e.ord < x.2.ord)
    (later.map (·.1)).foldl (fun a k => (dropEntry a k).inc FWD_CNT_DROP_frag_drop) (noteLost (dropEntry d i) e)

/-- Drop every queued frame of a node that is no longer valid, counted stale (R276). -/
def dropStale (d : Dev) (nix : Nat) : Dev :=
  ((d.fwd.entries.filter fun e => e.2.nix == nix && !e.2.up).map (·.1)).foldl
    (fun a i => (dropEntry a i).inc FWD_CNT_DROP_stale) d

/-- Entries of a node queued downlink in a queue, in chain order; none while the first of them is in flight or bound: the later ones leave
after it (R19, R273, R229). (DEDUCED: log entry 52) -/
def chain (d : Dev) (q nix : Nat) : List Nat :=
  let l := (qList d q).filter fun i => ((qEntry d i).map fun e => e.nix == nix).getD false
  match l.head?.bind (qEntry d) with
  | none => []
  | some e => if e.out || e.cell.isSome then [] else l

/-- Move a node's queued downlink frames to the queues of a new sector (R274). -/
def moveSector (d : Dev) (nix new : Nat) : Dev :=
  (List.range 8).foldl (fun a k =>
    let order := ((List.range 16).filter (· != new)).flatMap fun s => (qList a (qNum s 1 k)).filter fun i =>
      ((qEntry a i).map fun e => e.nix == nix).getD false
    order.foldl (fun b i => match qEntry b i with
      | none => b
      | some e =>
        let b1 := setQ b e.queue ((qList b e.queue).filter (· != i))
        let e1 : QEntry := { e with sector := new }
        setQ (setQE b1 i e1) e1.queue (qList b1 e1.queue ++ [i])) a) d

/-! ### Selection (R275) -/

/-- One pass of the DRR loop; fuel bounds the passes (R275: 32 rounds of 8 classes). -/
def drr (nix s : Nat) (e : List Nat) : Nat → Dev → Option (Nat × Nat) × Dev
  | 0, d => (none, d)
  | n + 1, d =>
    let k := Tab.getD d.fwd.ptrDown s 0
    let q := qNum s 1 k
    let first := (chain d q nix).head?
    let len := ((first.bind (qEntry d)).map (·.length)).getD 0
    if e.contains k && first.isSome && decide (len ≤ qDeficit d q) then
      (first.map fun i => (i, len), setDeficit d q (qDeficit d q - len))
    else
      let k1 := (k + 1) % 8
      let q1 := qNum s 1 k1
      let d1 := { d with fwd := { d.fwd with ptrDown := Tab.put d.fwd.ptrDown s k1 } }
      let v := if (qList d1 q1).isEmpty then 0 else min (qDeficit d1 q1 + qQuantum d1 q1) (qQuantum d1 q1 + 2047)
      drr nix s e n (setDeficit d1 q1 v)

/-- Select a frame for a node: entry and deficit charged (R275). A frame that has consumed a retry goes first and charges nothing. -/
def selectFrame (d : Dev) (nix : Nat) : Option (Nat × Nat) × Dev :=
  let s := nodeSector d nix
  let retried := (List.range 8).findSome? fun k =>
    (chain d (qNum s 1 k) nix).find? fun i => ((qEntry d i).map fun e => decide (0 < e.retries)).getD false
  match retried with
  | some i => (some (i, 0), d)
  | none =>
    let e := (List.range 8).filter fun k => !(chain d (qNum s 1 k) nix).isEmpty && shaperAllows d (qNum s 1 k)
    if e.isEmpty then (none, d) else drr nix s e 300 d

/-- Take a selected frame into flight: its queue's shaper is charged. -/
def takeFrame (d : Dev) (i port : Nat) : Dev :=
  match qEntry d i with
  | none => d
  | some e => shaperCharge (setQE d i { e with out := true, port := some port }) e.queue (if 0 < e.retries then 0 else e.length)

/-- A frame whose cell was skipped returns to the head of its node's chain; its deficit charge is refunded (R276). -/
def returnFrame (d : Dev) (i charged : Nat) : Dev :=
  match qEntry d i with
  | none => d
  | some e => setDeficit (setQE d i { e with out := false, cell := none }) e.queue (qDeficit d e.queue + charged)

/-! ### Head choice (R277, R20) -/

/-- A port may carry a frame of a PAN: READY, without hold, its pan_mask naming the PAN. -/
def headFit (d : Dev) (pan p : Nat) : Bool :=
  d.portState p == ylREADY && headHold d p == 0 && nbit (topPanMask d.topo p) pan

/-- The head for a node: best_sector first, then the other sectors in ascending order. -/
def chooseHead (d : Dev) (nix : Nat) : Option Nat :=
  let s := nodeSector d nix
  (s :: (List.range 16).filter (· != s)).findSome? fun x => (hearPorts d x nix).find? (headFit d (nodePan d nix))

/-- The head for a node with the Hearing lookups it takes (R277, TBL_CNT_LOOKUP). -/
def headFor (d : Dev) (nix : Nat) : Option Nat × Dev :=
  let s := nodeSector d nix
  let fits (x : Nat) : Bool := ((hearPorts d x nix).find? (headFit d (nodePan d nix))).isSome
  let l := s :: (List.range 16).filter (· != s)
  (chooseHead d nix, ((l.take ((l.takeWhile fun x => !fits x).length + 1)).foldl (fun a x => (keyedLookup a 2 (hearKey x nix) 0).2) d))

/-- Re-target the queued frames of a port that leaves service (R20, R120); each keeps its place. -/
def retarget (d : Dev) (p : Nat) : Dev :=
  (d.fwd.entries.filter fun e => e.2.port == some p && !e.2.up).foldl (fun a e =>
    let (q, b) := headFor a e.2.nix
    setQE b e.1 { e.2 with port := q }) d

/-! ### Recovery states (R288) -/

@[reducible] def rvNORMAL : Nat := 0
@[reducible] def rvWAITING : Nat := 1
@[reducible] def rvJOINING : Nat := 2
@[reducible] def rvTUNNEL : Nat := 3
@[reducible] def rvRETURNING : Nat := 4

end Sys2Proof.Machine
end

