-- ==== Sys2Proof/Machine/TsOps.lean ====
section
/-! DEFINITION. Slot times and ASNs (11_time.md R309, R311), skipped cells (08_tsch.md R217), expectations (R214, R215) and what becomes of
a burst that the scheduler or a handler requested (R226 to R229, R276). -/

namespace Sys2Proof.Machine

/-! ### Time conversion and slots -/

/-- An instant of TBa on TBb (R311), ns. -/
def convert (d : Dev) (a b : Nat) (x : Int) : Int :=
  ((d.tb b).nanos : Int) + (x - ((d.tb a).nanos : Int)) * (2 ^ 40 + (d.tb b).rate) / (2 ^ 40 + (d.tb a).rate)

/-- The timeslot length of a PAN in ns: the common ts_length of its slotframes' templates (R205). -/
def panTpl (d : Dev) (p : Nat) (h : Nat) : Option Nat :=
  (panFrame d.bld.cfg p h).bind fun r => tplFind (d.sec 4 p) r.template
def tplUs (d : Dev) (p h off : Nat) : Nat := ((panTpl d p h).map fun k => tplField (d.sec 4 p) k off).getD 0
def panSlotNs (d : Dev) (p : Nat) : Nat := 1000 * tplUs d p 0 2

/-- The epoch of a PAN slot (TIM_PANp_EPOCH). -/
def panEpoch (d : Dev) (p : Nat) : Nat := d.reg64 (TIM_PANp_EPOCH_LO p)

/-- The ASN of a TB0 instant (R309); 0 while the PAN has no timeslot. -/
def asnOf (d : Dev) (p : Nat) (t : Int) : Nat :=
  if panSlotNs d p = 0 then 0 else ((t - panEpoch d p) / (panSlotNs d p : Int) % 2 ^ 40).toNat

/-- The ASN of the slot in progress. -/
def panAsn (d : Dev) (p : Nat) : Nat := asnOf d p (d.tb 0).nanos

/-- Start of slot `a` of a PAN nearest to the present ASN, TB0 ns. -/
def slotStart0 (d : Dev) (p a : Nat) : Int :=
  let cur := ((d.tb 0).nanos - panEpoch d p : Int) / (max (panSlotNs d p) 1 : Nat)
  let diff := toSigned 40 (ofSigned 40 ((a : Int) - cur))
  panEpoch d p + (cur + diff) * panSlotNs d p

/-- Start of a slot on TB4, ns (R216). -/
def slotStart (d : Dev) (p a : Nat) : Nat := (convert d 0 4 (slotStart0 d p a)).toNat

/-- TB4 ns of an offset (µs) from the start of slot `a`. -/
def cellInstant (d : Dev) (p a us : Nat) : Nat := (convert d 0 4 (slotStart0 d p a + 1000 * us)).toNat

/-- A quiet cell keeps a port and channel free at some instant of [t0, t1) (R213). -/
def isQuiet (d : Dev) (port ch t0 t1 : Nat) : Bool :=
  d.ts.quiet.any fun q => q.2.2 == ch && topServes d.topo port q.1 &&
    decide (cellInstant d q.1 q.2.1 0 < t1 ∧ t0 < cellInstant d q.1 (q.2.1 + 1) 0)

/-! ### Skips -/

/-- Record a skipped cell: TS_SKIP_CNTm and the SKIP record of Table TSCH-7 (R217). -/
def skip (d : Dev) (cause port pan t0 asn cell target : Nat) : Dev :=
  let r := fit 32 (le 1 0x50 ++ le 1 cause ++ le 1 port ++ le 1 pan ++ le 8 t0 ++ le 5 asn ++ zeros 3 ++ le 4 cell ++ le 4 target)
  trace (d.inc ⟨TS_SKIP_CNTm cause, 31, 0⟩) r

/-- "None" of a cell field. -/
@[reducible] def noCell : Nat := 0xFFFFF

/-- Record the skip of an attempt. -/
def skipAttempt (d : Dev) (a : Attempt) (cause : Nat) : Dev :=
  skip d cause a.port a.pan a.t0 a.asn a.cell a.target

/-! ### Attempts -/

/-- The attempt of a task, and the list without it. -/
def attemptOf (d : Dev) (task : Nat) : Option Attempt := d.ts.attempts.find? fun a => a.task == some task
def setAttempts (d : Dev) (l : List Attempt) : Dev := { d with ts := { d.ts with attempts := l } }
def dropAttempt (d : Dev) (task : Nat) : Dev :=
  let l := d.ts.attempts.filter fun a => a.task != some task
  let d1 := setAttempts d l
  match (attemptOf d task).bind (·.buf) with
  | none => d1
  | some h => if l.any fun a => a.buf == some h then d1 else bufFree d1 h

def slotKey (p a : Nat) : Nat := p * 2 ^ 40 + a

/-- Expectations placed for a slot across all PANs: those of the slot, and of each other PAN's slot at its start (R215). -/
def placedCount (d : Dev) (p a : Nat) : Nat :=
  ((List.range 8).map fun q => Tab.getD d.ts.placed (slotKey q (if q = p then a else asnOf d q (slotStart0 d p a))) 0).sum

/-- The evaluation of a slot begins: nothing is placed for it yet; slots that are over no longer count. -/
def openSlot (d : Dev) (p a : Nat) : Dev :=
  let open_ (k : Nat) : Bool := k != slotKey p a && decide (d.ns < cellInstant d (k / 2 ^ 40) (k % 2 ^ 40 + 1) 0)
  { d with ts := { d.ts with placed := d.ts.placed.filter fun e => open_ e.1 } }

/-- Write an expectation to the ring (R215): its handle, or none beyond 16,384 a slot. -/
def placeExp (d : Dev) (e : Expect) : Option Nat × Dev :=
  if 16384 ≤ placedCount d e.pan e.asn then (none, d.inc TS_CNT_EXP_dropped)
  else
    let h := d.ts.nextExp
    let k := slotKey e.pan e.asn
    (some h, { d with ts := { d.ts with
      exps := Tab.put d.ts.exps h e, nextExp := (h + 1) % 65535, placed := Tab.put d.ts.placed k (Tab.getD d.ts.placed k 0 + 1) } })

/-- Broadcast queue of a PAN and target. -/
def bcastKey (pan target : Nat) : Nat := pan * 2 ^ 20 + target

/-- Another attempt of the same broadcast buffer is open. -/
def bcastOpen (d : Dev) (buf task : Nat) : Bool :=
  d.ts.attempts.any fun a => a.entry == some buf && decide (0x40000 ≤ a.target) && a.task != some task && a.task.isSome

/-- A broadcast burst ends: the buffer is released once no other head still carries it; a frame that no head sent returns to
the head of its queue (R276). `charged` 1 marks that some head has sent it. -/
def bcastEnded (d : Dev) (a : Attempt) (task : Nat) (sent : Bool) : Dev :=
  match a.entry with
  | none => dropAttempt d task
  | some buf =>
    let any := sent || a.charged == 1
    let mark (x : Attempt) : Attempt := if x.entry = some buf ∧ 0x40000 ≤ x.target then { x with charged := b2n any } else x
    let d1 := setAttempts (dropAttempt d task) ((dropAttempt d task).ts.attempts.map mark)
    if bcastOpen d buf task then d1
    else if any then bufFree d1 buf
    else
      let k := bcastKey a.pan a.target
      { d1 with fwd := { d1.fwd with bcast := Tab.put d1.fwd.bcast k (buf :: Tab.getD d1.fwd.bcast k []) } }

/-- A burst was refused or ended early with a cause (R142, R187, R217, R226): the cell is recorded as skipped, an ack is counted, the
frame stays queued and no retry is consumed. -/
def attemptSkipped (d : Dev) (task cause : Nat) : Dev :=
  match attemptOf d task with
  | none => d
  | some a =>
    let d1 := skipAttempt d a cause
    if a.kind = 1 then
      dropAttempt (if cause = csLATE then d1.inc TS_CNT_ACK_ERR_late else d1.inc TS_CNT_ACK_ERR_refused) task
    else if a.kind = 0 ∧ a.target < 0x40000 then
      match a.entry with
      | some i => returnFrame (dropAttempt d1 task) i a.charged
      | none => dropAttempt d1 task
    else if a.kind = 0 then bcastEnded d1 a task false
    else match a.entry with
      | some i => returnFrame (dropAttempt d1 task) i a.charged
      | none => dropAttempt d1 task

/-- The acknowledgment-request bit of a frame, and its sequence number when one is present. -/
def asksAck (b : List Byte) : Bool := nbit (field b 0 2) 5
def frameSeq (b : List Byte) : Option Nat := if nbit (field b 0 2) 8 then none else some (field b 2 1)

/-- The bytes of the frame whose queue entry is `i`. -/
def entryFrame (d : Dev) (i : Nat) : List Byte := ((qEntry d i).map fun e => bufGet d e.buf).getD []

/-- Forget the attempts of a queue entry. -/
def forgetEntry (d : Dev) (i : Nat) : Dev :=
  setAttempts d (d.ts.attempts.filter fun a => !(a.entry == some i && decide (a.target < 0x40000)))

/-- A valid Enhanced Ack completes the frame (R228): its entry and buffer are released. -/
def frameAcked (d : Dev) (i : Nat) : Dev := dropEntry (forgetEntry d i) i

/-- A burst ended normally. A frame to a node that requests an ack opens its class 0 expectation from its last symbol (R214), one that requests none
is complete; an ack and a beacon are counted. -/
def attemptSent (d : Dev) (task lastSym : Nat) : Dev :=
  match attemptOf d task with
  | none => d
  | some a =>
    if a.kind = 1 then (dropAttempt d task).setReg TS_CNT_ACK (d.reg TS_CNT_ACK + 1)
    else if a.kind = 2 then (dropAttempt d task).inc TS_CNT_EB_sent
    else if a.kind = 0 ∧ a.target < 0x40000 then
      match a.entry.filter fun i => !asksAck (entryFrame d i) with
      | some i => frameAcked d i
      | none =>
        let open_ := lastSym + 1000 * tplUs d a.pan a.handle 0x0C
        let (x, d1) := placeExp d
          ⟨noCell, a.target, a.asn, 0, a.channel, a.pan, a.port, open_, open_ + 1000 * tplUs d a.pan a.handle 0x12, a.handle⟩
        setAttempts d1 (d1.ts.attempts.map fun b => if b.task = some task then { b with task := none, exp := x } else b)
    else if a.kind = 0 then bcastEnded d a task true
    else dropAttempt d task

/-- The attempt whose frame's queue entry is `i` and whose burst has ended. -/
def attemptWaiting (d : Dev) (i : Nat) : Option Attempt :=
  d.ts.attempts.find? fun a => a.entry == some i && a.task.isNone && decide (a.target < 0x40000)

/-- An attempt has failed (R229): a retry is consumed, or the frame is dropped after max_retries. -/
def attemptFailed (d : Dev) (i : Nat) : Dev :=
  match qEntry d i with
  | none => forgetEntry d i
  | some e =>
    let d1 := forgetEntry d i
    if e.retries < d.fld TS_CFG_max_retries then
      (setQE d1 i { e with retries := e.retries + 1, out := false, cell := none }).inc TS_CNT_RETRY_retries
    else (loseEntry d1 i).inc TS_CNT_RETRY_dropped

end Sys2Proof.Machine
end

