-- ==== Sys2Proof/Machine/SecOps.lean ====
section
/-! DEFINITION. The security block's shared operations (12_keys_and_frame_security.md): derivation, identity, vault slots, zeroising,
sealed copies, node keys, nonces and CCM* framing. -/

namespace Sys2Proof.Machine

/-! ### Results of Table KEY-14 -/

@[reducible] def scOK : Nat := 0x00
@[reducible] def scNOT_PERMITTED : Nat := 0x01
@[reducible] def scSLOT_BAD : Nat := 0x02
@[reducible] def scSLOT_EMPTY : Nat := 0x03
@[reducible] def scBUSY : Nat := 0x04
@[reducible] def scRANGE : Nat := 0x05
@[reducible] def scNO_KEK : Nat := 0x06
@[reducible] def scKEY_PARENT_INVALID : Nat := 0x07
@[reducible] def scUNWRAP_FAIL : Nat := 0x08
@[reducible] def scBIND_FAIL : Nat := 0x09
@[reducible] def scIN_USE : Nat := 0x0A
@[reducible] def scTRNG_FAIL : Nat := 0x0B
@[reducible] def scSVN_ABOVE : Nat := 0x0C
@[reducible] def scABORTED_TAMPER : Nat := 0x0D
@[reducible] def scTAMPER_HOLD : Nat := 0x0E
@[reducible] def scNO_SPARE : Nat := 0x0F
@[reducible] def scNOT_READY : Nat := 0x10
@[reducible] def scMIC_FAIL : Nat := 0x11
@[reducible] def scKEY_UNKNOWN : Nat := 0x12
@[reducible] def scLEVEL_REFUSED : Nat := 0x13
@[reducible] def scNO_COUNTER : Nat := 0x14
@[reducible] def scBAD_FORMAT : Nat := 0x20
@[reducible] def scWRONG_DEVICE : Nat := 0x21
@[reducible] def scBAD_SIGNATURE : Nat := 0x22
@[reducible] def scCOUNTER_LOW : Nat := 0x23
@[reducible] def scBAD_DECRYPT : Nat := 0x24
@[reducible] def scBAD_SLOT : Nat := 0x25
@[reducible] def scATTR_TEMPLATE : Nat := 0x26
@[reducible] def scLC_REFUSED : Nat := 0x27
@[reducible] def scNO_RECORD : Nat := 0x28

/-! ### Derivation and identity (R327 to R329, R342) -/

/-- ASCII bytes of a label. -/
def ascii (s : String) : List Byte := s.toList.map fun c => BitVec.ofNat 8 c.toNat

/-- The info of Table KEY-5. -/
def kdfInfo (mode lc mask len : Nat) (label : List Byte) : List Byte :=
  [0x54, 0x4D, 0x4B, 0x44, 0x01] ++ le 1 mode ++ le 1 lc ++ le 1 mask ++ be 2 len ++ le 1 label.length ++ label

/-- Fixed-mode derivation from the device root (R342); refused without a root and in SCRAPPED (R327). -/
def fixedKey (f : Fuses) (label : List Byte) (len : Nat) : Option (List Byte) :=
  if f.lc = 5 then none else f.root.map fun r => Config.hkdf r (zeros 48) (kdfInfo 0 0xFF 0 len label) len

/-- The order of P-384. -/
def p384Order : Nat := 0xFFFFFFFFFFFFFFFFFFFFFFFFFFFFFFFFFFFFFFFFFFFFFFFFC7634D81F4372DDF581A0DB248B0A77AECEC196ACCC52973

/-- The private identity key d (R328). -/
def identity (f : Fuses) : Option Nat := (fixedKey f (ascii "tm.identity") 64).map fun k => unbe k % (p384Order - 1) + 1

/-- X‖Y of the identity key, zero before it exists, and the device ID (R329). -/
def idPub (f : Fuses) : List Byte := ((identity f).map Config.publicKey).getD (zeros 96)
def deviceId (f : Fuses) : List Byte :=
  match identity f with
  | none => zeros 16
  | some d => (Config.sha256 (4 :: Config.publicKey d)).take 16

/-- Show life-cycle state and identity in their registers. -/
def showIdentity (f : Fuses) (d : Dev) : Dev :=
  let d1 := d.setFld SEC_STATUS_lc f.lc
  let d2 := (List.range 4).foldl (fun a m => a.setReg (SEC_DEVICE_IDm m) (BitVec.ofNat 32 (field (deviceId f) (4 * m) 4))) d1
  (List.range 24).foldl (fun a m => a.setReg (SEC_ID_PUBw m) (BitVec.ofNat 32 (field (idPub f) (4 * m) 4))) d2

/-- Debug access to device internals is open (R332). -/
def debugOpen (lc : Nat) : Bool := lc == 0 || lc == 1 || lc == 4

/-! ### Measurements (R341) -/

/-- The value of a measurement register. -/
def measureReg (d : Dev) (i : Nat) : List Byte := fit 48 ((d.vault.meas[i]?).getD [])

/-- Extend a measurement register by the digest of an item. -/
def extend (d : Dev) (i : Nat) (item : List Byte) : Dev :=
  { d with vault := { d.vault with
      meas := (List.range 8).map fun k => if k = i then Config.sha384 (measureReg d i ++ Config.sha384 item) else measureReg d k } }

/-! ### The vault (R334 to R340) -/

/-- A slot, if it is not EMPTY. -/
def Dev.slot (d : Dev) (i : Nat) : Option Slot := Tab.find d.vault.slots i

/-- Fields of an attribute word (Table KEY-3). -/
def atType (a : Nat) : Nat := nbits a 63 60
def atSource (a : Nat) : Nat := nbits a 59 58

/-- The tag of a slot (R334). -/
def slotTag (f : Fuses) (i attr : Nat) (m : List Byte) : List Byte :=
  match fixedKey f (ascii "tm.vault-tag") 32 with
  | none => []
  | some k => (Config.cmac k (le 1 i ++ le 8 attr ++ m)).take 8

/-- The attributes of slot 0 (R333): type 3, VERIFY_BLEND, VERIFY_IMAGE, VERIFY_ENVELOPE, masters CC secure, CC normal and host,
life-cycle states 2 to 4. -/
def slot0Attr : Nat := 3 * 2 ^ 60 + 7 * 2 ^ 41 + 7 * 2 ^ 35 + 2 ^ 31 + 2 ^ 29 + 2 ^ 28

/-- The owner key of slot 0 matches the latest owner record (R333). -/
def ownerOk (f : Fuses) (m : List Byte) : Bool := f.owners.getLast? == some (Config.sha384 (m.take 49))

/-- A slot passes its tag, and slot 0 its owner record too. -/
def slotSound (f : Fuses) (i : Nat) (x : Slot) : Bool :=
  !x.bad && x.tag == slotTag f i x.attr x.material && fixedKey f (ascii "tm.vault-tag") 32 != none && (i != 0 || ownerOk f x.material)

/-- The state of a slot that SEC_SLOT_STATUS shows: 0 EMPTY, 1 STORED, 2 DERIVED, 3 UNAVAILABLE, 4 BAD. -/
def slotState (f : Fuses) (d : Dev) (i : Nat) : Nat :=
  match d.slot i with
  | none => 0
  | some x =>
    if !slotSound f i x then 4
    else if atSource x.attr = 0 then 1
    else match Tab.find d.vault.shadow i with
      | some (some _) => 2
      | _ => 3

/-- Mark a slot SLOT_BAD (R335). -/
def markBad (d : Dev) (i : Nat) : Dev :=
  raise { d with vault := { d.vault with slots := Tab.upd d.vault.slots i fun x => { x with bad := true } } } 176 i 0

/-- Use a slot for an operation: its bit, type, the master's bit where it counts, the PAN it concerns (R337). The result, the key
material, and the state with a slot found bad marked. (DEDUCED: log entry 68) -/
def useSlot (f : Fuses) (d : Dev) (i op typ : Nat) (master pan : Option Nat) : Nat × List Byte × Dev :=
  match d.slot i with
  | none => (scSLOT_EMPTY, [], d)
  | some x =>
    if !slotSound f i x then (scSLOT_BAD, [], if x.bad then d else markBad d i)
    else if atType x.attr ≠ typ ∨ !nbit x.attr op ∨ !nbit x.attr (33 + f.lc) ∨ (master.any fun m => !nbit x.attr m) ∨
      (nbit x.attr 55 ∧ pan ≠ some (nbits x.attr 54 52)) then (scNOT_PERMITTED, [], d)
    else if atSource x.attr = 0 then
      (scOK, x.material.take (if typ = 1 then 16 else if typ = 3 then 49 else 32), d)
    else match Tab.find d.vault.shadow i with
      | some (some k) => (scOK, k, d)
      | _ => (scNOT_PERMITTED, [], d)

/-- Start writing a sealed copy of the stored slots, or owe one while a copy is being written (R339). (DEDUCED: log entry 66) -/
def sealVault (f : Fuses) (d : Dev) : Dev :=
  let c : Seal := ⟨f.sealEpoch, d.vault.slots, d.vault.envCtr, f.owners.length,
    (List.range 8).map fun p => (Tab.getD d.vault.ceilings p (0, 0)).1⟩
  match d.vault.sealing with
  | none => { d with vault := { d.vault with sealing := some c } }
  | some _ => { d with vault := { d.vault with sealAgain := true } }

/-- Put a slot, its tag made under the tag key; an erased slot is not listed. -/
def putSlot (f : Fuses) (d : Dev) (i attr : Nat) (m : List Byte) : Dev :=
  { d with vault := { d.vault with slots := Tab.put d.vault.slots i ⟨fit 64 m, attr, slotTag f i attr (fit 64 m), false, false⟩ } }

/-- Zeroise the session keys (R340). -/
def zeroiseKeys (d : Dev) : Dev :=
  let sets := d.vault.sets.map fun e => (e.1, { e.2 with arg := [], out := [] })
  { d with vault := { d.vault with shadow := [], cache := [], recov := none, sets := sets } }

/-- Zeroise the vault (R340): slots but slot 0, session keys, the next seal-epoch bit; after 32 epochs the flash copy too. Powered
tells whether the bit is burnt now or first at the next release of POR_N. -/
def zeroiseVault (powered : Bool) (f : Fuses) (d : Dev) : Fuses × Dev :=
  let d1 := zeroiseKeys { d with vault := { d.vault with slots := d.vault.slots.filter (·.1 == 0) } }
  let d2 := if 32 ≤ f.sealEpoch then { d1 with vault := { d1.vault with sealCopy := none, sealing := none } } else d1
  if powered then
    (f.addEpoch, sealVault f.addEpoch d2)
  else ({ f with pend := f.pend ++ [.epoch] }, d2)

/-- Slots in SLOT_BAD. -/
def slotsBad (f : Fuses) (d : Dev) : Nat := ((List.range 128).filter fun i => slotState f d i == 4).length
/-- Spares S0 to S7 that no remap has taken (R335). -/
def freeSpares (d : Dev) : List Nat :=
  (List.range 8).filter fun k => !(d.vault.remap.any fun e => e.2 == k) && !(d.res.log.any fun r => r.kind == 8 && r.replacement == k)
def sparesFree (d : Dev) : Nat := (freeSpares d).length

/-- The repairs in force of a log: those without a later record of the same kind, unit and location. -/
def repairsInForce (l : List Repair) : List Repair :=
  l.filter fun r => !(l.any fun x => x.kind == r.kind && x.unit == r.unit && x.location == r.location && decide (r.seq < x.seq))

/-- Append a repair-log record (R437): its seq, and the state with it; a full half gives way to the other one. -/
def repairLog (d : Dev) (kind unit location replacement : Nat) (fused : Bool) : Nat × Dev :=
  let s := d.res.nextSeq
  let l := if d.res.log.length < 8192 then d.res.log else repairsInForce d.res.log
  (s, { d with res := { d.res with log := l ++ [⟨s, kind, fused, unit, location, replacement, d.secs % 2 ^ 32⟩],
                                   nextSeq := (s + 1) % 2 ^ 32, logLate := false } })

/-- A replacement of Table RES-3: repair-log record, REPAIR journal record, event (R429). -/
def replaced (d : Dev) (kind unit location replacement : Nat) : Dev :=
  let (s, d1) := repairLog d kind unit location replacement false
  raise (jNote d1 0x0C 3 jNOTE kind s 0 0 0) 224 kind unit

/-- Derive a recipe slot (R338, R342, R343): none when its svn requirement is above the recorded one, or its mask is not one R343 allows. (DEDUCED: log entry 68) -/
def deriveRecipe (f : Fuses) (d : Dev) (ikm m : List Byte) (source len : Nat) : Option (List Byte) :=
  let mask := field m 0 1
  let svn := field m 1 4
  let label := slice m 6 (field m 5 1)
  if mask = 0 ∨ (source ≠ 1 ∧ mask ≠ 1 ∧ mask ≠ 2) then none
  else if source = 1 then
    let regs := (List.range 8).flatMap fun i => if nbit mask i then measureReg d i else []
    some (Config.hkdf ikm (Config.sha384 regs) (kdfInfo 1 f.lc mask len label) len)
  else
    let r := if mask = 1 then 0 else 1
    match Tab.find d.vault.lineage r with
    | none => none
    | some (signer, have_) =>
      if have_ < svn then none
      else some (Config.hkdf ikm (Config.sha384 (signer ++ le 4 svn ++ le 1 r)) (kdfInfo 2 f.lc mask len label) len)

/-- Derive every recipe slot once (R338). -/
def deriveAll (f : Fuses) (d : Dev) : Dev :=
  let rs := d.vault.slots.filter fun e => atSource e.2.attr != 0 && slotSound f e.1 e.2
  { d with vault := { d.vault with shadow := rs.map fun e =>
      (e.1, if f.lc = 5 then none else f.root.bind fun r =>
        deriveRecipe f d r e.2.material (atSource e.2.attr) (if atType e.2.attr = 1 then 16 else 32)) } }

/-! ### Node keys (R350 to R356) -/

/-- Generation of a PAN. -/
def panGen (d : Dev) (p : Nat) : Nat := Tab.getD d.vault.gens p 0

/-- The plaintext of Table KEY-8, and its bind word. -/
def bindWord (p n : Nat) : Nat := 2 ^ 28 + p * 2 ^ 20 + n
def keyPlain (root : List Byte) (p n g0 g1 : Nat) : List Byte := fit 16 root ++ le 4 (bindWord p n) ++ le 1 g0 ++ le 1 g1 ++ zeros 2

/-- Link key j (R352). -/
def linkKey (pt : List Byte) (j p n : Nat) : List Byte :=
  Config.aes128 (pt.take 16) ([0x4C] ++ le 1 j ++ slice pt (0x14 + j) 1 ++ le 1 p ++ le 4 n ++ zeros 8)

/-- Count an unwrap. -/
def countUnwrap (d : Dev) : Dev := d.setReg SEC_CNT_UNWRAP (d.reg SEC_CNT_UNWRAP + 1)

/-- KEK slots of a PAN: ACTIVE and RETIRING, where it has them (SEC_PANp_KEK). -/
def kekActive (d : Dev) (p : Nat) : Option Nat := if d.fld (SEC_PANp_KEK_active p) = 0x7F then none else some (d.fld (SEC_PANp_KEK_active p))
def kekRetiring (d : Dev) (p : Nat) : Option Nat :=
  if d.fld (SEC_PANp_KEK_retiring p) = 0x7F then none else some (d.fld (SEC_PANp_KEK_retiring p))

/-- Use a KEK slot of a PAN (R350). -/
def useKek (f : Fuses) (d : Dev) (master p s : Nat) : Nat × List Byte × Dev := useSlot f d s 44 2 (some master) (some p)

/-- Unwrap an entry under one KEK slot: the plaintext, or the result that stops (a slot that may not be used). -/
def unwrapUnder (f : Fuses) (d : Dev) (master p s : Nat) (w : List Byte) : Nat × Option (List Byte) × Dev :=
  let (r, k, d1) := useKek f d master p s
  if r ≠ scOK then (r, none, d1) else (scOK, Config.keyUnwrap k w, countUnwrap d1)

/-- The failure of R353 when no KEK passes. -/
def noUnwrap (d : Dev) (p : Nat) : Nat :=
  if (kekActive d p).isNone && (kekRetiring d p).isNone then scNO_KEK
  else if d.bit (SEC_PANp_KEK_invalid_pending p) then scKEY_PARENT_INVALID
  else scUNWRAP_FAIL

/-- Unwrap entry n of PAN p under its ACTIVE and then its RETIRING KEK, and check the binding (R353). -/
def unwrapNode (f : Fuses) (d : Dev) (master p n : Nat) : Nat × List Byte × Dev :=
  let w := entryBytes d 3 n
  let judge (pt : List Byte) (a : Dev) : Nat × List Byte × Dev :=
    if field pt 0x10 4 % 2 ^ 23 = bindWord p n % 2 ^ 23 ∧ field pt 0x10 4 / 2 ^ 28 = 1 then (scOK, pt, a) else (scBIND_FAIL, [], a)
  let second (a : Dev) : Nat × List Byte × Dev :=
    match kekRetiring a p with
    | none => (noUnwrap a p, [], a)
    | some s => match unwrapUnder f a master p s w with
      | (r, some pt, b) => if r = scOK then judge pt b else (r, [], b)
      | (r, none, b) => (if r = scOK then noUnwrap b p else r, [], b)
  match kekActive d p with
  | none => second d
  | some s => match unwrapUnder f d master p s w with
    | (r, some pt, b) => if r = scOK then judge pt b else (r, [], b)
    | (r, none, b) => if r = scOK then second b else (r, [], b)

/-- Count a key-obtaining failure of R353 (R365). -/
def countObtain (d : Dev) (r : Nat) : Dev := if r = scOK then d else d.inc SEC_CNT_KEY_unwrap_fail

/-- Key of a cache set: Caddy × 256 + NIX[12:5]. -/
def cacheSet (caddy n : Nat) : Nat := caddy * 256 + nbits n 12 5

/-- A Frame Security Unit obtains link key j of node n in PAN p through its Caddy's cache (R353, R354); none while TAMPER_HOLD holds (R369). -/
def obtainKey (f : Fuses) (d : Dev) (caddy j n p : Nat) : Nat × List Byte × Dev :=
  let set := cacheSet caddy n
  let l := Tab.getD d.vault.cache set []
  let store (a : Dev) (x : List CacheEntry) : Dev := { a with vault := { a.vault with cache := Tab.put a.vault.cache set x } }
  if d.vault.hold then (scTAMPER_HOLD, [], d)
  else match l.find? fun c => c.nix == n && c.j == j && c.pan == p && c.gen == panGen d p with
  | some c => (scOK, c.key, store d (c :: l.filter (· != c)))
  | none =>
    match unwrapNode f d 30 p n with
    | (r, pt, d1) =>
      if r ≠ scOK then (r, [], countObtain d1 r)
      else
        let k := linkKey pt j p n
        (scOK, k, store d1 ((⟨n, j, p, panGen d1 p, k⟩ :: l.filter fun c => !(c.nix == n && c.j == j)).take 8))

/-- Every unit drops a node's cached keys (R355), or a PAN's (R354). -/
def dropCached (d : Dev) (p : CacheEntry → Bool) : Dev :=
  { d with vault := { d.vault with cache := d.vault.cache.map fun e => (e.1, e.2.filter fun c => !p c) } }

/-- Write entry n under the ACTIVE KEK of PAN p: the result. -/
def wrapNode (f : Fuses) (d : Dev) (master p n : Nat) (pt : List Byte) : Nat × Dev :=
  match kekActive d p with
  | none => (scNO_KEK, d)
  | some s =>
    let (r, k, d1) := useKek f d master p s
    if r ≠ scOK then (r, d1) else (scOK, setEntry d1 3 n (Config.keyWrap k pt))

/-- Reset the Node Table fields of key j in the commit of a new or rolled key (R355). -/
def resetKeyFields (d : Dev) (n j index : Nat) : Dev :=
  let d1 := setNodeCtrl d n (26 - j) (26 - j) 0
  let d2 := setEntryField (setEntryField d1 0 n (0x20 + 4 * j) 4 0) 0 n (0x28 + 4 * j) 4 0
  let d3 := setEntryField (setEntryField d2 0 n (0x39 + 2 * j) 2 0) 0 n (0x1C + j) 1 index
  { d3 with ts := { d3.ts with exhausted := d3.ts.exhausted.filter (· != n * 2 + j) } }

/-! ### Frames (R362 to R364) -/

/-- The level of a PAN's received frames is accepted (R362). -/
def levelOk (d : Dev) (p level : Nat) : Bool := nbit (d.fld (SEC_PANp_CFG_rx_levels p)) level && level != 0 && level != 4

/-- Key number of a node whose key_index byte equals a frame's key index (R362). -/
def keyNumber (d : Dev) (n index : Nat) : Option Nat :=
  if nodeKeyIndex d n 0 = index then some 0 else if nodeKeyIndex d n 1 = index then some 1 else none

/-- The nonce of Table KEY-9; the extended address most significant octet first. -/
def nonce (d : Dev) (p : Nat) (ext : List Byte) (fc level asn : Nat) : List Byte :=
  if topNonceMode d.topo p = 0 then fit 8 ext ++ be 4 fc ++ le 1 level else fit 8 ext ++ be 4 (asn / 256) ++ le 1 asn

/-- Octets of the MIC of a level. (PRESUMED: log entry 73) -/
def micLen (level : Nat) : Nat := [0, 4, 8, 16].getD (level % 4) 0

/-- Octets of an address of a mode. -/
def addrLen (mode : Nat) : Nat := if mode = 2 then 2 else if mode = 3 then 8 else 0

/-- Octets of a MAC header before the auxiliary security header (IEEE 802.15.4-2020: frame control, sequence number, addressing). (PRESUMED: log entry 73) -/
def addressingLen (b : List Byte) : Nat :=
  let fc := field b 0 2
  let dm := nbits fc 11 10
  let sm := nbits fc 15 14
  let comp := nbit fc 6
  let pans :=
    if nbits fc 13 12 ≠ 2 then (if dm = 0 then 0 else 2) + (if sm = 0 ∨ comp then 0 else 2)
    else if dm = 0 ∧ sm = 0 then (if comp then 2 else 0)
    else if dm = 0 ∨ sm = 0 ∨ (dm = 3 ∧ sm = 3) then (if comp then 0 else 2)
    else if comp then 2 else 4
  2 + (if nbit fc 8 ∧ nbits fc 13 12 = 2 then 0 else 1) + pans + addrLen dm + addrLen sm

/-- End of the header IEs that start at an offset: after a termination IE, or at the first that does not fit. (PRESUMED: log entry 73) -/
def headerIesEnd (b : List Byte) : Nat → Nat → Nat
  | 0, o => o
  | n + 1, o =>
    if b.length < o + 2 then o
    else
      let w := field b o 2
      let next := o + 2 + nbits w 6 0
      if nbit w 15 then o else if nbits w 14 7 = 0x7E ∨ nbits w 14 7 = 0x7F then next else headerIesEnd b n next

/-- The auxiliary security header of key identifier mode 1: security control, frame counter, key index. (PRESUMED: log entry 73) -/
def auxHeader (level fc index : Nat) : List Byte := le 1 (level + 8) ++ le 4 fc ++ le 1 index

/-- Write the auxiliary header into a frame without one: the frame, and the length of its MAC header with header IEs. -/
def withAux (b : List Byte) (level fc index : Nat) : List Byte × Nat :=
  let a := addressingLen b
  let x := auxHeader level fc index
  let ctl := le 2 (field b 0 2 ||| 8)
  let w := ctl ++ (b.take a).drop 2 ++ x ++ b.drop a
  (w, if nbit (field b 0 2) 9 then headerIesEnd w 64 (a + x.length) else a + x.length)

/-- Secure a frame: auxiliary header, then CCM* over header and payload, MIC appended (R364). -/
def secureFrame (d : Dev) (p : Nat) (key ext b : List Byte) (level fc index asn : Nat) : List Byte :=
  let (w, h) := withAux b level fc index
  w.take h ++ Config.ccmSeal key (nonce d p ext fc level asn) level (w.take h) (w.drop h)

/-- The extended address of a node, and the device's own, most significant octet first. -/
def nodeExtBe (d : Dev) (n : Nat) : List Byte := (nodeExt d n).reverse
def ownExtBe (d : Dev) : List Byte := be 8 (d.reg64 TS_EUI_LO)

/-- Next broadcast counter of a PAN: taken when it lies below the ceiling whose flash write is complete (R360); the ceiling rises by
65,536 when fewer than 32,768 values remain. (DESIGN CHOICE: log entry 70) -/
def bcastReady (d : Dev) (p : Nat) : Bool := decide ((d.reg (SEC_PANp_BCAST_FC p)).toNat < (Tab.getD d.vault.ceilings p (0, 0)).2)

/-- Raise the ceiling of a PAN in the Kettle and start writing it to flash. (DESIGN CHOICE: log entry 70) -/
def raiseCeiling (f : Fuses) (d : Dev) (p : Nat) : Dev :=
  let (k, c) := Tab.getD d.vault.ceilings p (0, 0)
  if (d.reg (SEC_PANp_BCAST_FC p)).toNat + 32768 < k then d
  else sealVault f { d with vault := { d.vault with ceilings := Tab.put d.vault.ceilings p (k + 65536, c) } }

/-- Take the next broadcast counter. (DESIGN CHOICE: log entry 70) -/
def takeBcast (f : Fuses) (d : Dev) (p : Nat) : Nat × Dev :=
  let c := (d.reg (SEC_PANp_BCAST_FC p)).toNat
  (c, raiseCeiling f (d.setReg (SEC_PANp_BCAST_FC p) (BitVec.ofNat 32 (c + 1))) p)

end Sys2Proof.Machine
end

