-- ==== Sys2Proof/Machine/HostOps.lean ====
section
/-! DEFINITION. Frame rings, the management channel and exceptions (17_host_interface.md R477 to R480, 10_forwarding.md R286, R287). -/

namespace Sys2Proof.Machine

/-- Entries of a ring or queue of a size_log2 field. -/
def ringSize (d : Dev) (f : Fld) : Nat := 2 ^ d.fld f

/-- The buffers posted on an up ring. -/
def upPosted (d : Dev) (r : Nat) : List (Nat × Nat) := (Tab.getD d.hif.rings r ⟨[]⟩).posted
def setPosted (d : Dev) (r : Nat) (l : List (Nat × Nat)) : Dev := { d with hif := { d.hif with rings := Tab.put d.hif.rings r ⟨l⟩ } }

/-- Advance an index register of a ring. -/
def advance (d : Dev) (f size : Fld) : Dev := d.setFld f ((d.fld f + 1) % ringSize d size)

/-- The fields of an up-ring descriptor that the device writes (Table HOST-8), from offset 0x0A. -/
def upFields (len cause flags pan cls nix now : Nat) : List Byte :=
  le 2 len ++ le 1 cause ++ le 1 flags ++ le 1 pan ++ le 1 cls ++ le 4 nix ++ zeros 4 ++ le 8 now

/-- Write a packet into the next posted buffer of an up ring (R477); without one it is discarded and counted. -/
def ringUp (d : Dev) (r cause nix pan : Nat) (down : Bool) (cls : Nat) (bs : List Byte) : Dev :=
  let head := d.fld (HIF_FRr_UP_HEAD_index r)
  if !d.bit (HIF_FRr_UP_CFG_en r) ∨ head = d.fld (HIF_FRr_UP_TAIL_index r) then d.inc (HIF_FRr_CNT_no_buf r)
  else
    let (a, n) := (upPosted d r).headD (0, 0)
    let cut := decide (n < bs.length)
    let d1 := (setPosted d r (upPosted d r).tail).emit (.hostWrite a (bs.take n))
    let d2 := d1.emit (.hostWrite (d.reg64 (HIF_FRr_UP_BASE_LO r) + 32 * head + 0x0A)
      (upFields bs.length cause (b2n down + 2 * b2n cut) pan cls nix d.ns))
    let d3 := advance (if cut then d2.inc (HIF_FRr_CNT_truncated r) else d2) (HIF_FRr_UP_HEAD_index r) (HIF_FRr_UP_CFG_size_log2 r)
    sendLimited d3 (d.fld (HIF_FRr_UP_CFG_vector r))

/-- Destination of an exception cause (FWD_EXC_MAP): 0 to 7 a ring, 8 firmware, else discard. -/
def excDest (d : Dev) (cause : Nat) : Nat :=
  if cause ≤ 8 then getBits (d.reg FWD_EXC_MAP0) (4 * (cause - 1) + 3) (4 * (cause - 1))
  else getBits (d.reg FWD_EXC_MAP1) (4 * (cause - 9) + 3) (4 * (cause - 9))

/-- The firmware exception word (R287). -/
def excWord (cause nix buf : Nat) : Word64 := BitVec.ofNat 64 (2 ^ 63 + 2 * 2 ^ 60 + cause * 2 ^ 56 + nix * 2 ^ 32 + buf)

/-- Send the packet in a buffer to the place of its exception cause (R286); no room discards and counts it. (DEDUCED: log entry 56) -/
def exception (d : Dev) (cause nix pan : Nat) (down : Bool) (cls buf : Nat) : Dev :=
  let dest := excDest d cause
  if dest ≤ 7 then
    let full := !d.bit (HIF_FRr_UP_CFG_en dest) || d.fld (HIF_FRr_UP_HEAD_index dest) == d.fld (HIF_FRr_UP_TAIL_index dest)
    let d1 := bufFree (ringUp d dest cause nix pan down cls (bufGet d buf)) buf
    if full then d1.inc FWD_CNT_DROP_frag_drop else d1.inc FWD_CNT_EXC_host
  else if dest = 8 then
    let q := d.fld FWD_EXC_WQ_wq
    match if wqCredit d q then wqPush d q epDispatcher (excWord cause nix buf) else (d, false) with
    | (d1, true) => d1.inc FWD_CNT_EXC_fw
    | (d1, false) => (bufFree d1 buf).inc FWD_CNT_DROP_frag_drop
  else bufFree d buf

/-- Hand a frame received on an Ethernet port to firmware (R479): kind 0 neighbour discovery, 1 PTP, 2 management UDP, 3 other. -/
def mgmtFrame (d : Dev) (kind port : Nat) (bs : List Byte) : Dev :=
  let q := d.fld HIF_MGMT_WQ_wq
  if !wqCredit d q then d.inc HIF_MGMT_CNT_rx_dropped
  else match bufPut d bs with
    | none => d.inc HIF_MGMT_CNT_rx_dropped
    | some (h, d1) =>
      match wqPush d1 q epDispatcher (BitVec.ofNat 64 (2 ^ 63 + 3 * 2 ^ 60 + kind * 2 ^ 56 + port * 2 ^ 52 + h)) with
      | (d2, true) => d2
      | (d2, false) => (bufFree d2 h).inc HIF_MGMT_CNT_rx_dropped

/-- The management address (R479). -/
def mgmtAddr (d : Dev) : List Byte := (List.range 4).flatMap fun m => le 4 (d.reg (HIF_MGMT_ADDRm m)).toNat

end Sys2Proof.Machine
end

