-- ==== Sys2Proof/Machine/MacFrame.lean ====
section
/-! DEFINITION. MAC frames of IEEE 802.15.4-2020 as the device builds them and as the receive chain reads them (06_receive.md R179; 08_tsch.md R219, R225,
R231, R234; 12_keys_and_frame_security.md R362). -/

namespace Sys2Proof.Machine

/-! ### Building -/

/-- Frame control of a frame of version 2 (0b10). -/
def frameCtl (ftype : Nat) (ack comp seqSup ie : Bool) (dm sm : Nat) : List Byte :=
  le 2 (ftype + 32 * b2n ack + 64 * b2n comp + 256 * b2n seqSup + 512 * b2n ie + 1024 * dm + 8192 + 16384 * sm)

/-- MAC header of a frame the device sends into a PAN ID: sequence number suppressed, destination PAN ID present, the device's extended
address as source. Destination mode 2 short, 3 extended. (PRESUMED: log entry 73) -/
def headerTo (d : Dev) (panId ftype : Nat) (ack ie : Bool) (dm : Nat) (dst : List Byte) : List Byte :=
  frameCtl ftype ack (dm == 2) true ie dm 3 ++ le 2 panId ++ dst ++ (ownExtBe d).reverse

/-- Header Termination IE 1: payload IEs follow. -/
def ht1 : List Byte := le 2 (0x7E * 128)

/-- The payload IE header: group, content length. -/
def payloadIe (group : Nat) (content : List Byte) : List Byte := le 2 (0x8000 + 2048 * group + content.length) ++ content

/-! ### Reading -/

/-- Offset of the header IEs of a frame: behind the addressing fields and the auxiliary security header. -/
def headerIesAt (b : List Byte) : Nat :=
  let a := addressingLen b
  let s := field b a 1
  if nbit (field b 0 2) 3 then a + 1 + (if nbit s 5 then 0 else 4) + [0, 1, 5, 9].getD (nbits s 4 3) 0 else a

/-- Length of the MAC header of a frame, header IEs with their termination included. (DESIGN CHOICE: log entry 54) -/
def macHdrLen (b : List Byte) : Nat := if nbit (field b 0 2) 9 then headerIesEnd b 64 (headerIesAt b) else headerIesAt b

/-- Header IEs (identifier, content) from the front of bytes; fuel bounds them. -/
def headerIes : Nat → List Byte → List (Nat × List Byte)
  | 0, _ => []
  | n + 1, b =>
    let w := field b 0 2
    if b.length < 2 ∨ nbit w 15 ∨ 0x7E ≤ nbits w 14 7 then [] else (nbits w 14 7, slice b 2 (nbits w 6 0)) :: headerIes n (b.drop (2 + nbits w 6 0))

/-- Payload IEs at the front of a payload: (group, content) of each, and what follows the termination; fuel bounds the walk. -/
def payloadIes : Nat → List Byte → List (Nat × List Byte) × List Byte
  | 0, b => ([], b)
  | n + 1, b =>
    let w := field b 0 2
    if b.length < 2 ∨ !nbit w 15 then ([], b)
    else if nbits w 14 11 = 0xF then ([], b.drop (2 + nbits w 10 0))
    else
      let (l, rest) := payloadIes n (b.drop (2 + nbits w 10 0))
      ((nbits w 14 11, slice b 2 (nbits w 10 0)) :: l, rest)

/-- Payload IEs of a frame whose header ends with Header Termination IE 1, and the rest of its payload. -/
def iesOf (hdr pay : List Byte) : List (Nat × List Byte) × List Byte :=
  if hdr.drop (hdr.length - 2) = ht1 ∧ nbit (field hdr 0 2) 9 then payloadIes 64 pay else ([], pay)

/-- The nested IEs (short form) of an MLME IE's content; those of long form are passed over. (PRESUMED: log entry 73) -/
def nestedIes : Nat → List Byte → List (Nat × List Byte)
  | 0, _ => []
  | n + 1, b =>
    let w := field b 0 2
    if b.length < 2 then []
    else if nbit w 15 then nestedIes n (b.drop (2 + nbits w 10 0))
    else (nbits w 14 8, slice b 2 (nbits w 7 0)) :: nestedIes n (b.drop (2 + nbits w 7 0))

/-- The MAC header of a frame without FCS, read in clear (R179), with what the rules read of its IEs: join metric and tx_offset of a beacon whose payload
is not encrypted (2,120 µs where the Timeslot IE names the default template), time correction of an ack. (PRESUMED: log entry 73) -/
def macHdr (b : List Byte) : Sys2Proof.MacHdr :=
  let fc := field b 0 2
  let a := addressingLen b
  let dm := nbits fc 11 10
  let sm := nbits fc 15 14
  let hasSeq := !(nbit fc 8 && nbits fc 13 12 == 2)
  let s := 2 + b2n hasSeq
  let pans := a - (s + addrLen dm + addrLen sm)
  let sec := nbit fc 3
  let sc := if sec then field b a 1 else 0
  let mode := nbits sc 4 3
  let hlen := macHdrLen b
  let nested := (((iesOf (b.take hlen) (b.drop hlen)).1.find? fun x => x.1 == 1).map fun x => nestedIes 64 x.2).getD []
  let ie (k : Nat) : List Byte := if sc % 8 < 4 then ((nested.find? fun x => x.1 == k).map (·.2)).getD [] else []
  { version := nbits fc 13 12, ftype := nbits fc 2 0, ackReq := nbit fc 5, seq := if hasSeq then some (field b 2 1) else none,
    panId := if pans = 0 then none else some (field b s 2),
    dstMode := dm, dst := field b (s + if dm = 0 then 0 else min 2 pans) (addrLen dm), srcMode := sm, src := field b (a - addrLen sm) (addrLen sm),
    level := sc % 8, keyMode := mode,
    keyIndex := if mode = 0 then 0 else field b (a + 1 + (if nbit sc 5 then 0 else 4) + [0, 0, 4, 8].getD mode 0) 1,
    counter := if sec && !nbit sc 5 then some (field b (a + 1) 4) else none, hdrLen := hlen,
    joinMetric := field (ie 0x1A) 5 1, txOffset := if (ie 0x1C).length < 7 then 2120 else field (ie 0x1C) 5 2,
    correction := if nbit fc 9 then ((headerIes 64 ((b.take hlen).drop (headerIesAt b))).find? fun x => x.1 == 0x1E).map fun x => toSigned 12 (field x.2 0 2 % 4096)
      else none }

end Sys2Proof.Machine
end

