-- ==== Sys2Proof/Machine/Lowpan.lean ====
section
/-! DEFINITION. 6LoWPAN (10_forwarding.md R263, R271): IPHC and next-header compression of RFC 6282 with context 0 alone, and the source route
of RFC 6554. The formats are those RFCs'. -/

namespace Sys2Proof.Machine

/-! ### Interface identifiers -/

/-- An extended address, most significant octet first, with its universal/local bit inverted (R269). -/
def flipUl : List Byte → List Byte
  | [] => []
  | b :: bs => (b ^^^ 2) :: bs

/-- The interface identifiers that the header around a packet gives its source and destination; empty where it gives none. -/
structure Iids where
  src : List Byte
  dst : List Byte
deriving DecidableEq, Repr

/-- The identifier of a short address. -/
def shortIid (a : Nat) : List Byte := [0, 0, 0, 0xFF, 0xFE, 0] ++ be 2 a

/-- The identifier of an address field of a MAC header. -/
def iidOf (mode : Nat) (a : List Byte) : List Byte := if mode = 2 then shortIid (unle a) else if mode = 3 then flipUl a.reverse else []

/-- The identifiers that a MAC header gives (IEEE 802.15.4-2020 addressing fields). -/
def macIids (h : List Byte) : Iids :=
  let fc := field h 0 2
  let dm := nbits fc 11 10
  let sm := nbits fc 15 14
  let seqLen := if nbit fc 8 ∧ nbits fc 13 12 = 2 then 0 else 1
  let pans := addressingLen h - (2 + seqLen + addrLen dm + addrLen sm)
  ⟨iidOf sm (slice h (addressingLen h - addrLen sm) (addrLen sm)), iidOf dm (slice h (2 + seqLen + min 2 pans) (addrLen dm))⟩

/-- The identifiers that an IPv6 header gives a packet inside it. -/
def ipIids (src dst : List Byte) : Iids := ⟨src.drop 8, dst.drop 8⟩

def linkLocal : List Byte := [0xFE, 0x80, 0, 0, 0, 0, 0, 0]

/-- The first n octets and the rest; none when there are fewer. -/
def cut (n : Nat) (b : List Byte) : Option (List Byte × List Byte) := if n ≤ b.length then some (b.take n, b.drop n) else none

/-! ### Decompression (R263) -/

/-- A unicast address of a mode, against the context or link-local. -/
def unicastIn (ctx : List Byte) (stateful : Bool) (mode : Nat) (iid b : List Byte) : Option (List Byte × List Byte) :=
  let pre := if stateful then ctx else linkLocal
  if mode = 0 then (if stateful then none else cut 16 b)
  else if mode = 1 then (cut 8 b).map fun x => (pre ++ x.1, x.2)
  else if mode = 2 then (cut 2 b).map fun x => (pre ++ shortIid (unbe x.1), x.2)
  else if iid = [] then none else some (pre ++ iid, b)

/-- A multicast address of a mode. -/
def multicastIn (ctx : List Byte) (stateful : Bool) (mode : Nat) (b : List Byte) : Option (List Byte × List Byte) :=
  if stateful then
    if mode = 0 then (cut 6 b).map fun x => ([0xFF] ++ x.1.take 2 ++ [64] ++ ctx ++ x.1.drop 2, x.2) else none
  else if mode = 0 then cut 16 b
  else if mode = 3 then (cut 1 b).map fun x => ([0xFF, 0x02] ++ zeros 13 ++ x.1, x.2)
  else
    let n := if mode = 1 then 6 else 4
    (cut n b).map fun x => ([0xFF] ++ x.1.take 1 ++ zeros (15 - n) ++ x.1.drop 1, x.2)

/-- Traffic class and flow label of a form: ECN and DSCP are carried in that order. -/
def classIn (form : Nat) (b : List Byte) : Option ((Nat × Nat) × List Byte) :=
  let tc (x : Nat) : Nat := x % 64 * 4 + x / 64
  if form = 0 then (cut 4 b).map fun x => ((tc (field x.1 0 1), unbe (x.1.drop 1) % 2 ^ 20), x.2)
  else if form = 1 then (cut 3 b).map fun x => ((unbe x.1 / 2 ^ 22, unbe x.1 % 2 ^ 20), x.2)
  else if form = 2 then (cut 1 b).map fun x => ((tc (unbe x.1), 0), x.2)
  else some ((0, 0), b)

/-- Source and destination port of a UDP form. -/
def portsIn (form : Nat) (b : List Byte) : Option (List Byte × List Byte) :=
  if form = 0 then cut 4 b
  else if form = 1 then (cut 3 b).map fun x => (x.1.take 2 ++ [0xF0] ++ x.1.drop 2, x.2)
  else if form = 2 then (cut 3 b).map fun x => ([0xF0] ++ x.1, x.2)
  else (cut 1 b).map fun x => (be 2 (0xF0B0 + unbe x.1 / 16) ++ be 2 (0xF0B0 + unbe x.1 % 16), x.2)

/-- Padding that brings a Hop-by-Hop header to a multiple of 8 octets: Pad1 or PadN. -/
def optionPad (n : Nat) : List Byte := if n = 0 then [] else if n = 1 then [0] else [1] ++ le 1 (n - 2) ++ zeros (n - 2)

/-- Decompression. With `ip` the bytes start with an IPHC dispatch, else with a next-header encoding: the header's number and its bytes with all that
follows. `extra` octets of the datagram come in later fragments; `ids` are of the header around; fuel bounds the headers. An elided UDP checksum reads as 0. -/
def expandAt (ctx : List Byte) (extra : Nat) : Nat → Bool → Iids → List Byte → Option (Nat × List Byte)
  | 0, _, _, _ => none
  | fuel + 1, true, ids, b => do
    let (w0, b1) ← cut 2 b
    let w := unbe w0
    if w / 2 ^ 13 ≠ 3 then none
    else
      let (cid, b2) ← cut (b2n (nbit w 7)) b1
      let (tf, b3) ← classIn (nbits w 12 11) b2
      let (nh, b4) ← cut (b2n (!nbit w 10)) b3
      let (hl, b5) ← cut (b2n (nbits w 9 8 == 0)) b4
      let (src, b6) ← if nbit w 6 ∧ nbits w 5 4 = 0 then some (zeros 16, b5) else unicastIn ctx (nbit w 6) (nbits w 5 4) ids.src b5
      let (dst, b7) ← if nbit w 3 then multicastIn ctx (nbit w 2) (nbits w 1 0) b6 else unicastIn ctx (nbit w 2) (nbits w 1 0) ids.dst b6
      let (next, body) ← if nbit w 10 then expandAt ctx extra fuel false (ipIids src dst) b7 else some (unbe nh, b7)
      if unbe cid ≠ 0 then none
      else some (41, be 4 (6 * 2 ^ 28 + tf.1 * 2 ^ 20 + tf.2) ++ be 2 (body.length + extra) ++ le 1 next ++
        le 1 (if nbits w 9 8 = 0 then unbe hl else [0, 1, 64, 255].getD (nbits w 9 8) 0) ++ src ++ dst ++ body)
  | fuel + 1, false, ids, b => do
    let (v0, b1) ← cut 1 b
    let v := unbe v0
    if v / 8 = 0x1E then
      let (ports, b2) ← portsIn (v % 4) b1
      let (sum, b3) ← if nbit v 2 then some (zeros 2, b2) else cut 2 b2
      some (17, ports ++ be 2 (8 + b3.length + extra) ++ sum ++ b3)
    else if v = 0xEE then expandAt ctx extra fuel true ids b1
    else if v / 4 = 0x38 then
      let (nh, b2) ← cut (b2n (!nbit v 0)) b1
      let (len, b3) ← cut 1 b2
      let (body, b4) ← cut (unbe len) b3
      let pad := (8 - (2 + body.length) % 8) % 8
      let (next, rest) ← if nbit v 0 then expandAt ctx extra fuel false ids b4 else some (unbe nh, b4)
      if nbit v 1 ∧ pad ≠ 0 then none
      else some (if nbit v 1 then 43 else 0, le 1 next ++ le 1 ((2 + body.length + pad) / 8 - 1) ++ body ++ optionPad pad ++ rest)
    else none

/-- The IPv6 datagram of bytes from their dispatch on (R263): uncompressed, or IPHC against context 0, the PAN's prefix. `size` is the datagram's
where later fragments follow, else 0. (DESIGN CHOICE: log entry 54) -/
def toIpv6 (ctx hdr : List Byte) (size : Nat) (b : List Byte) : Option (List Byte) :=
  if field b 0 1 = 0x41 ∧ b ≠ [] then some (b.drop 1)
  else
    let go (extra : Nat) : Option (List Byte) := (expandAt ctx extra (b.length + 1) true (macIids hdr) b).map (·.2)
    (go 0).bind fun x => if size ≤ x.length then some x else go (size - x.length)

/-! ### UDP checksum -/

/-- One's-complement sum of 16-bit words. -/
def sum16 : List Byte → Nat
  | a :: b :: r => a.toNat * 256 + b.toNat + sum16 r
  | [a] => a.toNat * 256
  | [] => 0
def fold16 (v : Nat) : Nat := let a := v % 65536 + v / 65536; a % 65536 + a / 65536

/-- Checksum of a UDP datagram between two addresses (RFC 8200). -/
def udpSum (addrs udp : List Byte) : Nat :=
  let s := 65535 - fold16 (sum16 addrs + udp.length + 17 + sum16 (udp.take 6 ++ [0, 0] ++ udp.drop 8))
  if s = 0 then 65535 else s

/-- Replace bytes of a byte string. -/
def splice (b : List Byte) (off : Nat) (x : List Byte) : List Byte := b.take off ++ x ++ b.drop (off + x.length)

/-- Recompute the checksum of a UDP datagram that carries none, under the headers R263 decompresses: IPv6 at `base`, the header numbered `next` at `o`.
Fuel bounds the headers. -/
def fillUdp (b : List Byte) : Nat → Nat → Nat → Nat → List Byte
  | 0, _, _, _ => b
  | fuel + 1, base, next, o =>
    if next = 17 then (if field b (o + 6) 2 = 0 then splice b (o + 6) (be 2 (udpSum (slice b (base + 8) 32) (slice b o (unbe (slice b (o + 4) 2))))) else b)
    else if next = 0 ∨ next = 43 then fillUdp b fuel base (field b o 1) (o + 8 * (field b (o + 1) 1 + 1))
    else if next = 41 then fillUdp b fuel o (field b (o + 6) 1) (o + 40)
    else b

/-- An elided UDP checksum is recomputed (R263): IPv6 knows none of 0. (DESIGN CHOICE: log entry 54) -/
def fixUdp (b : List Byte) : List Byte := fillUdp b b.length 0 (field b 6 1) 40

/-! ### Compression (R271) -/

/-- Form and carried octets of a unicast address: against the context, link-local or whole; its identifier elided where the header around gives it. -/
def unicastOut (ctx iid a : List Byte) : Bool × Nat × List Byte :=
  let pre := a.take 8
  let low := a.drop 8
  if pre ≠ ctx ∧ pre ≠ linkLocal then (false, 0, a)
  else if low = iid then (pre == ctx, 3, [])
  else if low = shortIid (unbe (low.drop 6)) then (pre == ctx, 2, low.drop 6)
  else (pre == ctx, 1, low)

/-- Form and carried octets of a multicast address. -/
def multicastOut (ctx a : List Byte) : Bool × Nat × List Byte :=
  if a.take 15 = [0xFF, 0x02] ++ zeros 13 then (false, 3, a.drop 15)
  else if slice a 2 11 = zeros 11 then (false, 2, slice a 1 1 ++ a.drop 13)
  else if slice a 2 9 = zeros 9 then (false, 1, slice a 1 1 ++ a.drop 11)
  else if slice a 3 9 = [64] ++ ctx then (true, 0, slice a 1 2 ++ a.drop 12)
  else (false, 0, a)

/-- Form and carried octets of traffic class and flow label. -/
def classOut (tc flow : Nat) : Nat × List Byte :=
  let x := tc % 4 * 64 + tc / 4
  if flow = 0 then (if tc = 0 then (3, []) else (2, le 1 x))
  else if tc / 4 = 0 then (1, be 3 (tc * 2 ^ 22 + flow)) else (0, be 4 (x * 2 ^ 24 + flow))

/-- Form and carried octets of the ports. -/
def portsOut (s t : Nat) : Nat × List Byte :=
  if s / 16 = 0xF0B ∧ t / 16 = 0xF0B then (3, le 1 (s % 16 * 16 + t % 16))
  else if t / 256 = 0xF0 then (1, be 2 s ++ le 1 t)
  else if s / 256 = 0xF0 then (2, le 1 s ++ be 2 t)
  else (0, be 2 s ++ be 2 t)

/-- A header that next-header compression carries: its lengths are those of the bytes. -/
def nhcFits (next : Nat) (b : List Byte) : Bool :=
  if next = 17 then decide (8 ≤ b.length) && unbe (slice b 4 2) == b.length
  else if next = 41 then decide (40 ≤ b.length) && field b 0 1 / 16 == 6 && 40 + unbe (slice b 4 2) == b.length
  else (next == 0 || next == 43) && decide (8 * (field b 1 1 + 1) ≤ min b.length 256)

/-- Compression of an IPv6 packet with IPHC (`next` 41 and `ip`), or of the header numbered `next` that `nhcFits` admits; fuel bounds the headers. UDP
checksums are carried. -/
def compressAt (ctx : List Byte) : Nat → Bool → Iids → Nat → List Byte → List Byte
  | 0, _, _, _, b => b
  | fuel + 1, true, ids, _, b =>
    let w := unbe (b.take 4)
    let next := field b 6 1
    let hl := field b 7 1
    let src := slice b 8 16
    let dst := slice b 24 16
    let more := nhcFits next (b.drop 40)
    let (tf, t) := classOut (nbits w 27 20) (w % 2 ^ 20)
    let hlim := if hl = 1 then 1 else if hl = 64 then 2 else if hl = 255 then 3 else 0
    let (sac, sam, s) := if src = zeros 16 then (true, 0, []) else unicastOut ctx ids.src src
    let (dac, dam, e) := if dst.headD 0 = 0xFF then multicastOut ctx dst else unicastOut ctx ids.dst dst
    be 2 (3 * 2 ^ 13 + tf * 2 ^ 11 + b2n more * 2 ^ 10 + hlim * 2 ^ 8 + b2n sac * 64 + sam * 16 + b2n (dst.headD 0 == 0xFF) * 8 + b2n dac * 4 + dam) ++
      t ++ (if more then [] else le 1 next) ++ (if hlim = 0 then le 1 hl else []) ++ s ++ e ++
      (if more then compressAt ctx fuel false (ipIids src dst) next (b.drop 40) else b.drop 40)
  | fuel + 1, false, ids, next, b =>
    if next = 17 then
      let (p, x) := portsOut (unbe (b.take 2)) (unbe (slice b 2 2))
      le 1 (0xF0 + p) ++ x ++ slice b 6 2 ++ b.drop 8
    else if next = 41 then [0xEE] ++ compressAt ctx fuel true ids 41 b
    else
      let n := 8 * (field b 1 1 + 1)
      let more := nhcFits (field b 0 1) (b.drop n)
      le 1 (0xE0 + (if next = 43 then 2 else 0) + b2n more) ++ (if more then [] else b.take 1) ++ le 1 (n - 2) ++ slice b 2 (n - 2) ++
        (if more then compressAt ctx fuel false ids (field b 0 1) (b.drop n) else b.drop n)

/-- An IPv6 packet as the payload of a frame with a MAC header (R271): IPHC, or whole when its own lengths do not fit it. (DESIGN CHOICE: log entry 54) -/
def toLowpan (ctx hdr b : List Byte) : List Byte :=
  if nhcFits 41 b then compressAt ctx (b.length + 1) true (macIids hdr) 41 b else 0x41 :: b

/-- The outer header of R271 with its Routing header (RFC 6554), in the form in which it leaves the device: to the first hop, the addresses of the later hops and the
destination in order, all but their low 8 octets elided. `x` gives its traffic class, flow label and hop limit, which are open. (DESIGN CHOICE: log entry 54) -/
def srcRoute (own : List Byte) (x : Nat) (hops : List (List Byte)) (packet : List Byte) : List Byte :=
  let rest := hops.drop 1
  be 4 (6 * 2 ^ 28 + x % 2 ^ 28) ++ be 2 (8 + 8 * rest.length + packet.length) ++ [43] ++ le 1 (x / 2 ^ 28) ++ own ++ hops.headD [] ++
    ([41] ++ le 1 rest.length ++ [3] ++ le 1 rest.length ++ [0x88, 0, 0, 0]) ++ rest.flatMap (·.drop 8) ++ packet

end Sys2Proof.Machine
end

