-- ==== Sys2Proof/Machine/Tsch.lean ====
section
/-! DEFINITION. The cell port, the short-address allocators, missed acks and peers (08_tsch.md R207 to R211, R229 to R235). -/

namespace Sys2Proof.Machine

/-- Results of Table TSCH-12. -/
@[reducible] def tsOK : Nat := 0
@[reducible] def tsFULL : Nat := 1
@[reducible] def tsRANGE : Nat := 2
@[reducible] def tsNOT_ALLOCATED : Nat := 3
@[reducible] def tsNOT_READY : Nat := 4
@[reducible] def tsSLOT_FULL : Nat := 5
@[reducible] def tsNO_SLOTFRAME : Nat := 6

/-! ### Cells -/

/-- Target and options are a row of Table TSCH-4. -/
def cellTargetOk (w : Nat) : Bool :=
  let t := clTarget w
  let only (tx rx shared adv : Bool) := clTx w == tx && clRx w == rx && clShared w == shared && clAdv w == adv
  if t < 0x40000 then (clTx w || clRx w) && !clShared w && !clAdv w && !clCampaign w
  else if t ≤ 0x4000F ∨ t = 0x400FF then only true false false false
  else if 0x40200 ≤ t ∧ t ≤ 0x4020F then only false true false false && !clCampaign w
  else if t = 0xFFFFF then (only false true true false || only true false false true) && !clCampaign w
  else false

/-- Valid cells of a slot offset of a slotframe, an index apart. -/
def cellsAt (d : Dev) (p h off except : Nat) : Nat :=
  ((validCells d).filter fun c => c != except && clPan (cellWord d c) == p && clHandle (cellWord d c) == h && clSlot (cellWord d c) == off).length

/-- Judge a write of a valid cell (R210): its result. -/
def cellCheck (d : Dev) (idx w : Nat) : Nat :=
  if d.stage < 2 then tsNOT_READY
  else if 1048576 ≤ idx ∨ nbits w 23 21 ≠ 0 ∨ !d.panUsed (clPan w) ∨ !cellTargetOk w then tsRANGE
  else match panFrame d.bld.cfg (clPan w) (clHandle w) with
    | none => tsNO_SLOTFRAME
    | some r =>
      if r.length ≤ clSlot w then tsRANGE
      else if clValid w && decide (8192 ≤ cellsAt d (clPan w) (clHandle w) (clSlot w) idx) then tsSLOT_FULL
      else tsOK

/-- The result of a cell operation: TS_CELL_STATUS for a master, the completion for a command. -/
def cellResult (d : Dev) (who : Sys2Proof.Who) (code : Nat) (data : List Byte) : Dev :=
  if isMaster who then d.setFld TS_CELL_STATUS_result code else d.toCmd who code data

/-- A write operation (R209, R210). -/
def cellWrite (d : Dev) (who : Sys2Proof.Who) (idx w : Nat) : Dev :=
  let r := cellCheck d idx w
  cellResult (if r = tsOK then setCell d idx w else d) who r []

def execCellWrite (who : Sys2Proof.Who) (idx w : Nat) (s : State) : Out := s.onDev fun d => cellWrite d who idx (w % 2 ^ 64)

/-- Result of a read or invalidate. -/
def cellIndexCheck (d : Dev) (idx : Nat) : Nat := if d.stage < 2 then tsNOT_READY else if 1048576 ≤ idx then tsRANGE else tsOK

/-- An invalidate operation: the valid bit clears. -/
def cellInvalidate (d : Dev) (who : Sys2Proof.Who) (idx : Nat) : Dev :=
  let r := cellIndexCheck d idx
  cellResult (if r = tsOK then setCell d idx (cellWord d idx % 2 ^ 63) else d) who r []

def execCellInvalidate (who : Sys2Proof.Who) (idx : Nat) (s : State) : Out := s.onDev fun d => cellInvalidate d who idx

/-- A read operation: the entry goes to TS_CELL_DATA, or to the command's data. -/
def cellRead (d : Dev) (who : Sys2Proof.Who) (idx : Nat) : Dev :=
  let r := cellIndexCheck d idx
  let d1 := if r = tsOK ∧ isMaster who then d.setReg64 TS_CELL_DATA_LO (cellWord d idx) else d
  cellResult d1 who r (if r = tsOK then le 8 (cellWord d idx) else [])

def execCellRead (who : Sys2Proof.Who) (idx : Nat) (s : State) : Out := s.onDev fun d => cellRead d who idx

/-! ### Allocators -/

def Dev.alloc (d : Dev) (p : Nat) : Alloc := Tab.getD d.ts.alloc p ⟨[], []⟩
def Dev.setAlloc (d : Dev) (p : Nat) (a : Alloc) : Dev := { d with ts := { d.ts with alloc := Tab.put d.ts.alloc p a } }

/-- The lowest number from `a` on that a list does not hold; fuel bounds the search. -/
def lowestFree (l : List Nat) : Nat → Nat → Option Nat
  | 0, _ => none
  | n + 1, a => if l.contains a then lowestFree l n (a + 1) else some a

/-- The result of an allocator request: TS_ALLOC_RESULT or the completion. -/
def allocResult (d : Dev) (who : Sys2Proof.Who) (code addr : Nat) : Dev :=
  if isMaster who then (d.setFld TS_ALLOC_RESULT_result code).setFld TS_ALLOC_RESULT_address addr else d.toCmd who code (le 2 addr)

/-- Allocate the lowest free short address of a PAN (R230). -/
def addrAlloc (d : Dev) (who : Sys2Proof.Who) (p : Nat) : Dev :=
  let a := d.alloc p
  if 8 ≤ p then allocResult d who tsRANGE 0
  else if d.stage < 3 ∨ !d.panUsed p then allocResult d who tsNOT_READY 0
  else if topMaxNodes d.topo p ≤ a.used.length then allocResult d who tsFULL 0
  else match lowestFree (a.used ++ a.quarantine) 0xFE00 0 with
    | none => allocResult d who tsFULL 0
    | some x => allocResult (d.setAlloc p { a with used := x :: a.used }) who tsOK x

def execAddrAlloc (who : Sys2Proof.Who) (pan : Nat) (s : State) : Out := s.onDev fun d => addrAlloc d who pan

/-- Free a short address into quarantine (R230). -/
def addrFree (d : Dev) (who : Sys2Proof.Who) (p x : Nat) : Dev :=
  let a := d.alloc p
  if 8 ≤ p ∨ 0xFDFF < x then allocResult d who tsRANGE x
  else if d.stage < 3 ∨ !d.panUsed p then allocResult d who tsNOT_READY x
  else if !a.used.contains x then allocResult d who tsNOT_ALLOCATED x
  else allocResult (d.setAlloc p { used := a.used.erase x, quarantine := a.quarantine ++ [x] }) who tsOK x

def execAddrFree (who : Sys2Proof.Who) (pan addr : Nat) (s : State) : Out := s.onDev fun d => addrFree d who pan addr

/-- A freed address leaves quarantine after 600 s of TB4. -/
def quarantineExpiry (d : Dev) (p x : Nat) : Dev := d.setAlloc p { d.alloc p with quarantine := (d.alloc p).quarantine.erase x }

def execQuarantineExpiry (pan addr : Nat) (s : State) : Out := s.onDev fun d => quarantineExpiry d pan addr

/-! ### Missed acks and peers -/

/-- The ack decision time of a frame passes without a valid ack (R229); `i` is its queue entry. -/
def ackWindowExpiry (d : Dev) (i : Nat) : Dev := if (attemptWaiting d i).isSome then attemptFailed d i else d

def execAckWindowExpiry (entry : Nat) (s : State) : Out := s.onDev fun d => ackWindowExpiry d entry

/-- Peer `k`. -/
def Dev.peer (d : Dev) (k : Nat) : Peer := Tab.getD d.ts.peers k ⟨0, 0, false, 0, [], false, 0xFF, []⟩
def Dev.setPeer (d : Dev) (k : Nat) (x : Peer) : Dev := { d with ts := { d.ts with peers := Tab.put d.ts.peers k x } }

/-- Time-source candidates of recovery node mode: TRACKING peers by join metric, then index (R234). -/
def candidatesOf (d : Dev) : List Nat :=
  let tr := (List.range 16).filter fun k => topPeerUsed d.topo k && (d.peer k).state == 1
  (List.range 256).flatMap fun m => tr.filter fun k => (d.peer k).joinMetric == m

/-- Recovery node mode begins or ends: its time source is the first candidate (R234). (DESIGN CHOICE: log entry 130) -/
def recovMode (d : Dev) (on : Bool) : Dev :=
  if on = d.bit TS_RECOV_active then d
  else
    let src := if on then (candidatesOf d).head? else none
    let d1 := (d.setBit TS_RECOV_active on).setBit TS_RECOV_none (on && src.isNone)
    let d2 := { d1 with ts := { d1.ts with srcHeard := src.isSome } }
    match src with
    | none => d2
    | some k => d2.setFld TS_RECOV_source k

/-- Enter a recovery state (R288); the event carries it. Recovery node mode is in force in TUNNEL and RETURNING. (DESIGN CHOICE: log entry 130) -/
def setRecov (d : Dev) (st : Nat) : Dev :=
  recovMode (raise (d.setFld FWD_STATUS_recov st) 145 (d.fld FWD_RECOV_STATUS_peer) st) (st == rvTUNNEL || st == rvRETURNING)

/-- Three misses of the time source's beacons in recovery node mode switch the source (R234). (DESIGN CHOICE: log entry 47) -/
def switchSource (d : Dev) (k : Nat) : Dev :=
  if !d.bit TS_RECOV_active || d.fld TS_RECOV_source != k then d
  else match (candidatesOf d).filter (· != k) with
    | c :: _ =>
    let d1 := ((d.setFld TS_RECOV_source c).inc TS_RECOV_switches).setBit TS_RECOV_none false
    { d1 with ts := { d1.ts with srcHeard := false } }
    | [] => d.setBit TS_RECOV_none true

/-- 5 ms after the window of an expected beacon closes, a miss is decided: an occurrence of a quiet cell (R232, R233). -/
def peerMissCheck (d : Dev) (k cell asn : Nat) : Dev :=
  let x := d.peer k
  let this (o : OpenBeacon) : Bool := o.cell == cell && o.asn == asn
  let heard := ((x.open_.find? this).map (·.heard)).getD true
  let x1 := { x with open_ := x.open_.filter fun o => !this o }
  if heard ∨ x.state ≠ 1 then d.setPeer k x1
  else if x.misses + 1 < 3 then d.setPeer k { x1 with misses := x.misses + 1 }
  else switchSource (raise (d.setPeer k { x1 with misses := x.misses + 1, state := 2, holding := true }) 113 k 0) k

def execPeerMissCheck (peer cell asn : Nat) (s : State) : Out := s.onDev fun d => peerMissCheck d peer cell asn

/-- The peer cell hold expires with the peer still LOST (R233): its quiet cells are released. -/
def peerHoldExpiry (d : Dev) (k : Nat) : Dev :=
  let x := d.peer k
  if x.state ≠ 2 ∨ !x.holding then d
  else
    let cells := (validCells d).filter fun c => clTarget (cellWord d c) == 0x40200 + k
    let d1 := cells.foldl (fun a c => setCell a c (cellWord a c % 2 ^ 63)) d
    raise (d1.setPeer k { x with released := true, holding := false }) 114 k 0

def execPeerHoldExpiry (peer : Nat) (s : State) : Out := s.onDev fun d => peerHoldExpiry d peer

/-- TS_CTRL.cnt_clear: every TS_CNT_ and TS_SKIP_CNT register. -/
def tsCntClear (d : Dev) : Dev :=
  d.clearRegs ([TS_CNT_EB, TS_CNT_ACK, TS_CNT_ACK_ERR, TS_CNT_FC, TS_CNT_FC_ERR, TS_CNT_RETRY, TS_CNT_EXP, TS_CNT_ORPHAN] ++
    (List.range 32).map TS_SKIP_CNTm)

def execTsCntClear (s : State) : Out := s.onDev tsCntClear

end Sys2Proof.Machine
end

