-- ==== Sys2Proof/Machine/FwdPath.lean ====
section
/-! DEFINITION. The per-packet work of forwarding (10_forwarding.md): policers, uplink steps, downlink lookup, uplink service, recovery. -/

namespace Sys2Proof.Machine

/-! ### Classes and policers (R281 to R284) -/

/-- FWD_DSCP_MAP: class and yellow pre-colour of a DSCP. -/
def dscpClass (d : Dev) (x : Nat) : Nat := getBits (d.reg (FWD_DSCP_MAPm (x / 8))) (4 * (x % 8) + 2) (4 * (x % 8))
def dscpYellow (d : Dev) (x : Nat) : Bool := getBits (d.reg (FWD_DSCP_MAPm (x / 8))) (4 * (x % 8) + 3) (4 * (x % 8) + 3) == 1

/-- DSCP of an IPv6 packet. -/
def dscpOf (b : List Byte) : Nat := nbits (unbe (slice b 0 2)) 11 6

/-- A policer profile of the QoS sections: CIR, CBS, EIR or PIR, EBS or PBS; none when unused. -/
def profileOf (d : Dev) (i : Nat) : Option (Nat × Nat × Nat × Nat) :=
  let b := d.sec 0x11 (i / 16)
  let o := 0x120 + 16 * (i % 16)
  if b = [] ∨ field b o 4 = 0 then none else some (field b o 4, field b (o + 4) 4, field b (o + 8) 4, field b (o + 12) 4)

/-- Colours. -/
@[reducible] def clGREEN : Nat := 0
@[reducible] def clYELLOW : Nat := 1
@[reducible] def clRED : Nat := 2

/-- Credit the buckets of a policer for elapsed µs (R283): committed and excess or peak tokens, in 1/256 octet. -/
def credit (pr : Nat × Nat × Nat × Nat) (two : Bool) (c x elapsed : Nat) : Nat × Nat :=
  let (cir, cbs, pir, ebs) := pr
  let add := elapsed * cir * 256 / 1000000
  if two then (min (c + add) (256 * cbs), min (x + elapsed * pir * 256 / 1000000) (256 * ebs))
  else (min (c + add) (256 * cbs), min (x + (c + add - 256 * cbs)) (max x (256 * ebs)))

/-- Colour a packet of B octets and debit the buckets (RFC 2697, RFC 2698): colour, committed, excess or peak. -/
def meter (two aware : Bool) (pre c x len : Nat) : Nat × Nat × Nat :=
  let b := 256 * len
  let p := if aware then pre else clGREEN
  if two then
    if x < b then (clRED, c, x)
    else if p = clYELLOW ∨ c < b then (clYELLOW, c, x - b)
    else (clGREEN, c - b, x - b)
  else if p = clGREEN ∧ b ≤ c then (clGREEN, c - b, x)
  else if b ≤ x then (clYELLOW, c, x - b)
  else (clRED, c, x)

/-- TB4 µs, 32 bits. -/
def Dev.us32 (d : Dev) : Nat := d.ns / 1000 % 2 ^ 32

/-- Count a colour. -/
def countColour (d : Dev) (col : Nat) : Dev :=
  if col = clRED then d.inc FWD_CNT_POL_red else if col = clYELLOW then d.inc FWD_CNT_POL_yellow else d

/-- Police an uplink packet of a node (R281): colour. (DEDUCED: log entry 52) -/
def policeNode (d : Dev) (n pre len : Nat) : Nat × Dev :=
  let e := entryBytes d 5 n
  let i := field e 12 2
  if i = 0xFFFF then (pre, d)
  else if 0x100 ≤ i then (pre, d.inc FWD_CNT_DROP_bad_profile)
  else match profileOf d i with
    | none => (pre, d)
    | some pr =>
      let two := nbit (field e 14 1) 0
      let (c, x) := credit pr two (field e 0 4) (field e 4 4) ((d.us32 + 2 ^ 32 - field e 8 4) % 2 ^ 32)
      let (col, c1, x1) := meter two (nbit (field e 14 1) 1) pre c x len
      (col, countColour (setEntryAt d 5 n 0 (le 4 c1 ++ le 4 x1 ++ le 4 d.us32)) col)

/-- Police a downlink packet of a class into a PAN (R281): colour. -/
def policePan (d : Dev) (p k pre len : Nat) : Nat × Dev :=
  if !nbit (d.fld (FWD_PANp_POL_MODE_en p)) k then (pre, d)
  else
    let i := getBits (d.reg (if k < 4 then FWD_PANp_POL_A p else FWD_PANp_POL_B p)) (8 * (k % 4) + 7) (8 * (k % 4))
    match profileOf d i with
    | none => (pre, d)
    | some pr =>
      let two := nbit (d.fld (FWD_PANp_POL_MODE_two_rate p)) k
      let s := Tab.getD d.fwd.panPol (8 * p + k) ⟨0, 0, 0⟩
      let (c, x) := credit pr two s.tokC s.tokX ((d.us32 + 2 ^ 32 - s.tLast % 2 ^ 32) % 2 ^ 32)
      let (col, c1, x1) := meter two (nbit (d.fld (FWD_PANp_POL_MODE_aware p)) k) pre c x len
      (col, countColour { d with fwd := { d.fwd with panPol := Tab.put d.fwd.panPol (8 * p + k) ⟨c1, x1, d.us32⟩ } } col)

/-! ### Addresses -/

/-- The /64 prefix of a PAN, and the device's own address in it: its interface identifier is its extended address with the
universal/local bit inverted. -/
def panPrefix (d : Dev) (p : Nat) : List Byte := le 4 (d.reg (FWD_PANp_PFX_LO p)).toNat ++ le 4 (d.reg (FWD_PANp_PFX_HI p)).toNat
/-- DEDUCED: log entry 53. -/
def ownAddr (d : Dev) (p : Nat) : List Byte := panPrefix d p ++ flipUl (ownExtBe d)

/-- Fields of an IPv6 packet: next header, hop limit, source, destination. -/
def ipNext (b : List Byte) : Nat := field b 6 1
def ipHops (b : List Byte) : Nat := field b 7 1
def ipDst (b : List Byte) : List Byte := slice b 24 16

/-- The PAN in use whose prefix holds an address. -/
def panOfAddr (d : Dev) (a : List Byte) : Option Nat := (List.range 8).find? fun p => d.panUsed p && a.take 8 == panPrefix d p

/-- The Address keys of an interface identifier, in the order of R269. -/
def iidKeys (p : Nat) (iid : List Byte) : List (List Byte) :=
  (if iid.take 6 = [0, 0, 0, 0xFF, 0xFE, 0] then [shortKey p (unbe (iid.drop 6))] else []) ++ [extKey p (flipUl iid).reverse, iidKey p iid]

/-! ### Downlink (R268, R269) -/

/-- A packet in a buffer enters the downlink path at the lookup of R269 for a PAN, with its class and colour before the PAN policer.
`frame` is the Ethernet frame it came in, empty when in none: cause 1 reports the frame (R477); `changed` as in R246, for each lookup. -/
def downlinkAt (d : Dev) (p buf k pre : Nat) (frame : List Byte) (changed : List Nat) : Dev :=
  let b := bufGet d buf
  let (node, d0) := addrLookup d (if (ipDst b).take 8 = panPrefix d p then iidKeys p ((ipDst b).drop 8) else []) changed
  match node with
  | none => exception (if frame.isEmpty then d0 else bufSet d0 buf frame) 1 0xFFFFF p true (k + 8 * pre) buf
  | some n =>
    let (col, d1) := policePan d0 p k pre b.length
    if col = clRED then bufFree d1 buf
    else match hwSubmit d1 0x4000 0x2000 2 1 n 6 buf (k + 8 * col) 0 with
      | none => (bufFree d1 buf).inc FWD_CNT_DROP_desc_full
      | some (_, d2) => d2

/-! ### Uplink (Table FWD-2) -/

/-- Step 4: remove a Hop-by-Hop header that holds only the RPL Option, and an outer header to the device (R265). -/
def rplOnly (b : List Byte) : Bool :=
  let n := 8 * (field b 41 1 + 1)
  let opts := slice b 42 (n - 2)
  (opts.headD 0 == 0x63 || opts.headD 0 == 0x23) &&
    (let rest := opts.drop (2 + field opts 1 1)
     rest.all (· == 0) || (rest.headD 0 == 1 && (rest.drop 2).all (· == 0)))

def dropHopByHop (b : List Byte) : List Byte :=
  if ipNext b = 0 ∧ rplOnly b then
    let n := 8 * (field b 41 1 + 1)
    b.take 4 ++ be 2 (unbe (slice b 4 2) - n) ++ slice b 40 1 ++ (b.take 40).drop 7 ++ b.drop (40 + n)
  else b

def dropOuter (d : Dev) (p : Nat) (b : List Byte) : List Byte :=
  if ipNext b = 41 ∧ ipDst b = ownAddr d p then b.drop 40 else b

/-- An Ethernet port that carries packets: its link up, not disabled (Table RES-5) nor isolated (R27). -/
def ethUp (d : Dev) (e : Nat) : Bool := nbit (d.fld FWD_STATUS_link_up) e && !ethOff d e

/-- The port an uplink packet of a PAN leaves on: lowest of its eth_mask whose link is up. -/
def ethPort (d : Dev) (p : Nat) : Option Nat :=
  (List.range 4).find? fun e => nbit (d.fld (FWD_PANp_CFG_eth_mask p)) e && ethUp d e

/-- Length of the Ethernet frame an uplink packet of `n` octets makes (Table FWD-3): header, C-tag, and the S-tag of the port it would leave on
now, or with no link up of the lowest of its eth_mask. (DEDUCED: log entry 52) -/
def upOctets (d : Dev) (p n : Nat) : Nat :=
  let s := ((ethPort d p).or ((List.range 4).find? fun e => nbit (d.fld (FWD_PANp_CFG_eth_mask p)) e)).map fun e => d.bit (FWD_ETHn_CFG_stag_en e)
  n + 18 + (if s = some true then 4 else 0)

/-- An uplink packet in a buffer after steps 4 and 5 goes to its uplink queue (steps 6 and 7), or, hairpinned, downlink. -/
def upAdmit (d : Dev) (n p sector buf : Nat) (hairpin : Option Nat) : Dev :=
  let b := bufGet d buf
  let x := dscpOf b
  let (col, d1) := policeNode d n (if dscpYellow d x then clYELLOW else clGREEN) b.length
  if col = clRED then bufFree d1 buf
  else match hairpin with
    | some p2 => downlinkAt (d1.setReg FWD_CNT_HAIRPIN (d1.reg FWD_CNT_HAIRPIN + 1)) p2 buf (dscpClass d x) col [] []
    | none =>
      (enqueue d1 ⟨true, dscpClass d x, col == clYELLOW, false, false, n, buf, upOctets d1 p b.length, sector, 0, 0, 0, p, 0, d1.ns, none, 0,
        none, false, [], 0⟩).1

/-- FWD_RECOV_ADDR as an address (Table FWD-6). -/
def recovAddr (d : Dev) : List Byte := (List.range 4).flatMap fun m => le 4 (d.reg (FWD_RECOV_ADDRm m)).toNat
/-- FWD_RECOV_TUN as an address (Table FWD-6). -/
def recovTun (d : Dev) : List Byte := (List.range 4).flatMap fun m => le 4 (d.reg (FWD_RECOV_TUNm m)).toNat

/-- A packet in the outer header of the recovery tunnel (R290). `x` gives its traffic class, flow label and hop limit, which are open. (DEDUCED: log entry 53) -/
def recovEncap (d : Dev) (x : Nat) (b : List Byte) : List Byte :=
  be 4 (6 * 2 ^ 28 + x % 2 ^ 28) ++ be 2 b.length ++ [41] ++ le 1 (x / 2 ^ 28) ++ recovAddr d ++ recovTun d ++ b

/-- The peer of recovery node mode (R289). -/
@[reducible] def recovPeer (d : Dev) : Nat := d.fld FWD_RECOV_STATUS_peer

/-- A tunnelled packet of the peer, a node of the tables, for FWD_RECOV_ADDR (R290). (DEDUCED: log entry 53) -/
def tunnelled (d : Dev) (n : Nat) (b : List Byte) : Bool :=
  d.bit TS_RECOV_active && nodeExt d n == topPeerAddr d.topo (recovPeer d) && ipNext b == 41 && ipDst b == recovAddr d && slice b 8 16 == recovTun d

/-- The frame of a packet in its outer header to the peer (R290): compressed, secured under the recovery key with its next counter; none without the key. Context 0
is the prefix of FWD_RECOV_ADDR, the level that of the packet's PAN. (DEDUCED: log entry 53) -/
def recovFrame (d : Dev) (p : Nat) (packet : List Byte) : Option (List Byte × Dev) :=
  d.vault.recov.map fun k =>
    let hdr := headerTo d (topPeerPan d.topo (recovPeer d)) 1 true false 3 (topPeerAddr d.topo (recovPeer d))
    let level := d.fld (SEC_PANp_CFG_tx_level p)
    let (w, h) := withAux (hdr ++ toLowpan ((recovAddr d).take 8) hdr packet) level k.counter k.index
    let n := fit 8 (ownExtBe d) ++ be 4 k.counter ++ le 1 level
    (w.take h ++ Config.ccmSeal k.key n level (w.take h) (w.drop h), { d with vault := { d.vault with recov := some { k with counter := k.counter + 1 } } })

/-- The inner packet of a tunnelled one enters the downlink path with the PAN of its destination prefix (R290, R268). (DEDUCED: log entry 53) -/
def tunnelIn (d : Dev) (buf : Nat) (inner : List Byte) : Dev :=
  let x := dscpOf inner
  let pre := if dscpYellow d x then clYELLOW else clGREEN
  let d1 := bufSet d buf inner
  match panOfAddr d (ipDst inner) with
  | none => exception d1 1 0xFFFFF 0xFF true (dscpClass d x + 8 * pre) buf
  | some p =>
    if 1280 < inner.length then exception d1 2 0xFFFFF p true (dscpClass d x + 8 * pre) buf
    else downlinkAt d1 p buf (dscpClass d x) pre [] []

/-- Steps 4 to 7 on an IPv6 packet in a buffer (R265, R266). -/
def upPacket (d : Dev) (n p sector buf : Nat) : Dev :=
  let b := dropOuter d p (dropHopByHop (bufGet d buf))
  if tunnelled d n b then tunnelIn d buf (b.drop 40)
  else if ipHops b ≤ 1 then exception (bufSet d buf b) 3 n p false 0 buf
  else
    let b1 := b.take 7 ++ le 1 (ipHops b - 1) ++ b.drop 8
    let d1 := bufSet d buf b1
    let dst := ipDst b1
    let own := (List.range 8).any fun q => d.panUsed q && dst == ownAddr d q
    if own then
      if ipNext b1 = 58 ∧ field b1 40 1 = 155 then exception d1 7 n p false 0 buf else exception d1 6 n p false 0 buf
    else if dst.headD 0 = 0xFF then exception d1 9 n p false 0 buf
    else upAdmit d1 n p sector buf (if d.bit FWD_CTRL_hairpin_en then panOfAddr d dst else none)

/-- A datagram in reassembly, and replacing it. -/
def reasmOf (d : Dev) (n tag : Nat) : Option Reasm := d.fwd.reasm.find? fun r => r.nix == n && r.tag == tag
def dropReasm (d : Dev) (n tag : Nat) : Dev :=
  { d with fwd := { d.fwd with reasm := d.fwd.reasm.filter fun r => !(r.nix == n && r.tag == tag) } }

/-- Bytes of a reassembled datagram; none while some are missing. -/
def reasmBytes (r : Reasm) : Option (List Byte) :=
  let b := r.frags.foldl (fun acc f => if f.1 ≤ acc.length then acc ++ f.2.drop (acc.length - f.1) else acc) []
  if r.size ≤ b.length then some (b.take r.size) else none

/-- A fragment overlaps one held with different bytes. -/
def overlaps (r : Reasm) (off : Nat) (bs : List Byte) : Bool :=
  r.frags.any fun f =>
    let lo := max off f.1
    let hi := min (off + bs.length) (f.1 + f.2.length)
    decide (lo < hi) && slice bs (lo - off) (hi - lo) != slice f.2 (lo - f.1) (hi - lo)

/-- Discard a datagram under a cause; the buffer of the frame at hand goes with it. -/
def reasmFail (d : Dev) (n p tag cause buf : Nat) : Dev := exception ((dropReasm d n tag).inc FWD_CNT_FRAG_reasm_fail) cause n p false 0 buf

/-- A fragment joins its datagram, which goes on once complete (R264); of two at one offset the longer is held. (DESIGN CHOICE: log entry 54) -/
def addFrag (d : Dev) (n p sector buf size tag off : Nat) (bs : List Byte) : Dev :=
  let held := reasmOf d n tag
  let r := held.getD ⟨n, tag, size, [], []⟩
  if (held.isNone && decide (4096 ≤ d.fwd.reasm.length)) || r.size != size || overlaps r off bs then reasmFail d n p tag 10 buf
  else
    let r1 := { r with frags := if (Tab.getD r.frags off []).length < bs.length then Tab.put r.frags off bs else r.frags }
    let d1 := dropReasm d n tag
    match reasmBytes r1 with
    | some b => upPacket ((bufSet d1 buf (fixUdp b)).inc FWD_CNT_FRAG_reassembled) n p sector buf
    | none => bufFree { d1 with fwd := { d1.fwd with reasm := d1.fwd.reasm ++ [r1] } } buf

/-- Steps 1 to 3 on a frame in a buffer: its MAC header and payload are known (R263, R264); then steps 4 to 7. (DESIGN CHOICE: log entry 54) -/
def upForward (d : Dev) (n p sector buf : Nat) (hdr payload : List Byte) : Dev :=
  let a := field payload 0 1
  let expand (size : Nat) (b : List Byte) : Option (List Byte) := toIpv6 (panPrefix d p) hdr size b
  if a / 8 = 0x18 then
    let size := unbe (payload.take 2) % 2048
    if 1280 < size then reasmFail d n p (unbe (slice payload 2 2)) 4 buf
    else match expand size (payload.drop 4) with
      | none => exception d 4 n p false 0 buf
      | some b => addFrag d n p sector buf size (unbe (slice payload 2 2)) 0 b
  else if a / 8 = 0x1C then
    let size := unbe (payload.take 2) % 2048
    if 1280 < size then reasmFail d n p (unbe (slice payload 2 2)) 4 buf
    else addFrag d n p sector buf size (unbe (slice payload 2 2)) (8 * field payload 4 1) (payload.drop 5)
  else match expand 0 payload with
    | none => exception d 4 n p false 0 buf
    | some b => if 1280 < b.length then exception d 4 n p false 0 buf else upPacket (bufSet d buf (fixUdp b)) n p sector buf

/-! ### Uplink service (R267, R278, R290) -/

/-- MAC addresses of a port. -/
def ethGw (d : Dev) (e : Nat) : List Byte := le 4 (d.reg (FWD_ETHn_GW_LO e)).toNat ++ le 2 (getBits (d.reg (FWD_ETHn_MAC_HI e)) 15 0)
def ethMac (d : Dev) (e : Nat) : List Byte := le 4 (d.reg (FWD_ETHn_SMAC_LO e)).toNat ++ le 2 (getBits (d.reg (FWD_ETHn_MAC_HI e)) 31 16)

/-- The Ethernet frame of an uplink packet (R267). (DESIGN CHOICE: log entry 54) -/
def ethFrame (d : Dev) (e p k : Nat) (yellow : Bool) (packet : List Byte) : List Byte :=
  let pcp := getBits (d.reg FWD_PCP_MAP) (3 * k + 2) (3 * k)
  let tci (vid : Nat) : List Byte := be 2 (pcp * 8192 + b2n yellow * 4096 + vid)
  ethGw d e ++ ethMac d e ++ (if d.bit (FWD_ETHn_CFG_stag_en e) then [0x88, 0xA8] ++ tci (d.fld (FWD_ETHn_CFG_s_vid e)) else []) ++
    [0x81, 0x00] ++ tci (d.fld (FWD_PANp_CFG_vid p)) ++ [0x86, 0xDD] ++ packet

/-- The states in which uplink packets go to the tunnel. -/
def tunnelling (d : Dev) : Bool := d.fld FWD_STATUS_recov == rvTUNNEL || d.fld FWD_STATUS_recov == rvRETURNING

/-- Octets of the recovery queue, each packet in its outer header. -/
def recovOctets (d : Dev) : Nat := ((d.fwd.recovQ.filterMap fun x => qEntry d x.2).map fun e => e.plain.length + 40).sum

/-- A packet of the node and class admitted earlier still waits in another sector's queue: this one leaves after it (R19, R273). (DEDUCED: log entry 52) -/
def upBehind (d : Dev) (e : QEntry) : Bool :=
  e.nix != 0xFFFFF && d.fwd.entries.any fun x => x.2.up && !x.2.out && x.2.nix == e.nix && x.2.cls == e.cls && decide (x.2.ord < e.ord)

/-- A queue of the ring may be served: a head packet, its shaper, and room where the packet goes. `full` lists the Ethernet ports whose
transmit FIFO is full. -/
def upEligible (d : Dev) (full : List Nat) (q : Nat) : Bool :=
  match ((qList d q).head?).bind (qEntry d) with
  | none => false
  | some e => shaperAllows d q && !upBehind d e &&
      (if tunnelling d then
        nbit (d.fld FWD_RECOV_CFG_class_mask) e.cls && d.vault.recov.isSome && decide (recovOctets d + (bufGet d e.buf).length + 40 ≤ 65536) && decide (d.fwd.recovNext ≤ d.ns)
       else match ethPort d e.pan with
        | none => false
        | some x => !full.contains x)

/-- The DRR of the uplink ring (R278): the queue served, and the state with pointer and deficits. Fuel bounds the rounds. -/
def upDrr (full : List Nat) : Nat → Dev → Option Nat × Dev
  | 0, d => (none, d)
  | n + 1, d =>
    let q (r : Nat) : Nat := qNum (r / 8) 0 (r % 8)
    let k := d.fwd.ptrUp
    let len := ((((qList d (q k)).head?).bind (qEntry d)).map (·.length)).getD 0
    if upEligible d full (q k) && decide (len ≤ qDeficit d (q k)) then (some (q k), setDeficit d (q k) (qDeficit d (q k) - len))
    else
      let k1 := (k + 1) % 128
      let d1 := { d with fwd := { d.fwd with ptrUp := k1 } }
      let d2 := if (qList d1 (q k1)).isEmpty then setDeficit d1 (q k1) 0
        else if upEligible d1 full (q k1) then
          setDeficit d1 (q k1) (min (qDeficit d1 (q k1) + qQuantum d1 (q k1)) (qQuantum d1 (q k1) + 2047))
        else d1
      upDrr full n d2

/-- The uplink DRR serves one packet, if some queue may be served. (DESIGN CHOICE: log entry 51) (DEDUCED: log entry 52) -/
def uplinkServe (d : Dev) (full : List Nat) : Dev :=
  if !((List.range 128).any fun r => upEligible d full (qNum (r / 8) 0 (r % 8))) then d
  else match upDrr full 4300 d with
    | (none, _) => d
    | (some q, d1) =>
      let emptied (b : Dev) : Dev := if (qList b q).isEmpty then setDeficit b q 0 else b
      match (qList d1 q).head? with
      | none => d1
      | some i => match qEntry d1 i with
        | none => d1
        | some e =>
          let d2 := shaperCharge d1 q e.length
          if tunnelling d then
            let inner := bufGet d e.buf
            let (x, d0) := d2.draw
            match recovFrame d0 e.pan (recovEncap d x inner) with
            | none => d
            | some (fr, d3) =>
              let d4 := bufSet (emptied (setQ (setQE d3 i { e with out := true, plain := inner }) q ((qList d3 q).filter (· != i)))) e.buf fr
              { d4 with fwd := { d4.fwd with recovQ := d4.fwd.recovQ ++ [(q, i)],
                                             recovNext := max d.ns d.fwd.recovNext + inner.length * 8000000 / max 1 (d.fld FWD_RECOV_CFG_rate_kbps) } }
          else
            let x := (ethPort d e.pan).getD 0
            (emptied (dropEntry (d2.emit (.ethernet x (ethFrame d x e.pan e.cls e.yellow (bufGet d e.buf)))) i)).setReg FWD_CNT_UP (d.reg FWD_CNT_UP + 1)

/-! ### Recovery (R288 to R291) -/

/-- The backhaul is lost (R288): every port named by a PAN in use is down, or bh_down. (DEDUCED: log entry 53) -/
def backhaulLost (d : Dev) : Bool :=
  let named := (List.range 4).filter fun e => (List.range 8).any fun p => d.panUsed p && nbit (d.fld (FWD_PANp_CFG_eth_mask p)) e
  d.bit FWD_CTRL_bh_down || (!named.isEmpty && named.all fun e => !ethUp d e)

/-- React to a change of the backhaul (R288, R291). (DEDUCED: log entry 53) -/
def backhaulChanged (d : Dev) : Dev :=
  let st := d.fld FWD_STATUS_recov
  if backhaulLost d then
    if st = rvNORMAL then setRecov d rvWAITING else if st = rvRETURNING then setRecov d rvTUNNEL else d
  else if st = rvWAITING ∨ st = rvJOINING then setRecov d rvNORMAL
  else if st = rvTUNNEL then setRecov d rvRETURNING
  else d

/-- The port for a recovery peer (R289). -/
def recovPort (d : Dev) (k : Nat) : Option Nat :=
  let ok (p : Nat) : Bool := topUsed d.topo p && topRecovOk d.topo p && d.portState p == ylREADY
  if ok (d.peer k).bestPort then some (d.peer k).bestPort else (List.range 64).find? ok

/-- Try the first candidate not yet tried; with none left, raise the event and wait (R289). -/
def recovTry (d : Dev) : Dev :=
  match (candidatesOf d).find? fun k => !d.fwd.tried.contains k with
  | none => raise d 144 (d.fld FWD_RECOV_STATUS_peer) 0
  | some k => match recovPort d k with
    | none => raise d 144 k 0
    | some p => (d.setFld FWD_RECOV_STATUS_peer k).setFld FWD_RECOV_STATUS_port p

end Sys2Proof.Machine
end

