-- ==== Sys2Proof/Machine/Forwarding.lean ====
section
/-! DEFINITION. The commands of forwarding (10_forwarding.md R264, R278 to R292), Ethernet ingress apart. -/

namespace Sys2Proof.Machine

/-- A datagram in reassembly reaches FWD_CFG.reasm_s (R264): discarded with cause 10; its first fragment's bytes go with the exception. -/
def reasmTimeout (d : Dev) (nix tag : Nat) : Dev :=
  match reasmOf d nix tag with
  | none => d
  | some r =>
    match bufPut d ((r.frags.headD (0, [])).2) with
    | none => (dropReasm d nix tag).inc FWD_CNT_FRAG_reasm_fail
    | some (h, d1) => reasmFail d1 nix (nodePan d nix) tag 10 h

def execReasmTimeout (nix tag : Nat) (s : State) : Out := s.onDev fun d => reasmTimeout d nix tag

def execUplinkServe (full : List Nat) (s : State) : Out := s.onDev fun d => uplinkServe d full

/-- A shaper's refill (R279): the section's rate, burst and refill_us take effect; tokens are clamped to the burst. (DEDUCED: log entry 52) -/
def shaperRefill (d : Dev) (q : Nat) : Dev :=
  let (rate, burst, refill) := qShaperCfg d q
  let t := min ((8000 * burst : Nat) : Int) ((qShaper d q).tokens + ((rate * refill : Nat) : Int))
  let x : Shaper := if rate = 0 then ⟨0, 0, 0, 0⟩ else ⟨t, rate, burst, refill⟩
  if q < 256 then { d with fwd := { d.fwd with shapers := Tab.put d.fwd.shapers q x } } else d

def execShaperRefill (q : Nat) (s : State) : Out := s.onDev fun d => shaperRefill d q

/-- The background pass of R283 over every node policer: an update with B = 0. -/
def policerRefresh (d : Dev) : Dev :=
  ((validNodes d).filter fun n => decide (entryField d 5 n 12 2 < 0x100)).foldl (fun a n => (policeNode a n clGREEN 0).2) d

def execPolicerRefresh (s : State) : Out := s.onDev policerRefresh

/-- The link of an Ethernet port comes up or goes down (R288, R291); the event carries the port. -/
def ethLinkChange (d : Dev) (port : Nat) (up : Bool) : Dev :=
  if 4 ≤ port then d
  else
    let d1 := d.setFld FWD_STATUS_link_up (setBits (BitVec.ofNat 32 (d.fld FWD_STATUS_link_up)) port port (b2n up)).toNat
    backhaulChanged d1

def execEthLinkChange (port : Nat) (up : Bool) (s : State) : Out := s.onDev fun d => ethLinkChange d port up

/-- A write to FWD_CTRL.bh_down (R288). -/
def bhDownWrite (d : Dev) (on : Bool) : Dev := backhaulChanged (d.setBit FWD_CTRL_bh_down on)

def execBhDownWrite (on : Bool) (s : State) : Out := s.onDev fun d => bhDownWrite d on

/-- The backhaul has stayed lost for the backhaul-loss time (R288): JOINING begins at the first candidate. -/
def backhaulLossExpiry (d : Dev) : Dev :=
  if d.fld FWD_STATUS_recov = rvWAITING ∧ backhaulLost d then
    let d1 := (setRecov d rvJOINING).inc FWD_RECOV_STATUS_entries
    recovTry { d1 with fwd := { d1.fwd with tried := [] } }
  else d

def execBackhaulLossExpiry (s : State) : Out := s.onDev backhaulLossExpiry

/-- A join attempt is not complete in 30 s (R289): the next candidate. -/
def recoveryJoinTimeout (d : Dev) : Dev :=
  if d.fld FWD_STATUS_recov = rvJOINING then
    recovTry { d with fwd := { d.fwd with tried := d.fwd.tried ++ [d.fld FWD_RECOV_STATUS_peer] } }
  else d

def execRecoveryJoinTimeout (s : State) : Out := s.onDev recoveryJoinTimeout

/-- The 60 s wait ends (R289): joining starts again at the first candidate. -/
def recoveryRetryExpiry (d : Dev) : Dev :=
  if d.fld FWD_STATUS_recov = rvJOINING then recovTry { d with fwd := { d.fwd with tried := [] } } else d

def execRecoveryRetryExpiry (s : State) : Out := s.onDev recoveryRetryExpiry

/-- Packets of the recovery queue return, in order and out of their outer header, to the heads of their class queues (R291). (DEDUCED: log entry 53) -/
def recovReturn (d : Dev) : Dev :=
  d.fwd.recovQ.reverse.foldl (fun a x => match qEntry a x.2 with
    | none => a
    | some e => setQ (setQE (bufSet a e.buf e.plain) x.2 { e with out := false, plain := [] }) x.1 (x.2 :: qList a x.1)) { d with fwd := { d.fwd with recovQ := [] } }

/-- The port has stayed up for 10 s in RETURNING (R291). -/
def returnExpiry (d : Dev) : Dev :=
  if d.fld FWD_STATUS_recov = rvRETURNING then recovReturn (setRecov d rvNORMAL) else d

def execReturnExpiry (s : State) : Out := s.onDev returnExpiry

/-- FWD_CTRL.cnt_clear: every forwarding and queue drop counter (R292). -/
def fwdCntClear (d : Dev) : Dev :=
  let d1 := d.clearRegs [FWD_CNT_UP, FWD_CNT_DOWN, FWD_CNT_HAIRPIN, FWD_CNT_EXC, FWD_CNT_POL, FWD_CNT_DROP, FWD_CNT_FRAG]
  { d1 with fwd := { d1.fwd with drops := [] } }

def execFwdCntClear (s : State) : Out := s.onDev fwdCntClear

end Sys2Proof.Machine
end

