-- ==== Sys2Proof/Machine/Time.lean ====
section
/-! DEFINITION. Time bases, mesh time, PPS, time of day and the Kettle clock (11_time.md R293 to R324, 15_resilience.md R434). -/

namespace Sys2Proof.Machine

/-! ### Counters (R293 to R298) -/

/-- The limit of rate and integral: ±200 ppm. -/
@[reducible] def rateLimit : Int := 219902325

/-- Roles of Table TIME-2. -/
@[reducible] def trMESH : Nat := 0
@[reducible] def trMONOTONIC : Nat := 4
@[reducible] def trFREE : Nat := 5

/-- The role in force (R299): until Second Steep TB0 acts as mesh, TB4 as monotonic, the others as free. -/
def roleOf (d : Dev) (n : Nat) : Nat :=
  if d.stage < 2 then (if n = 0 then trMESH else if n = 4 then trMONOTONIC else trFREE) else (d.tb n).role

/-- Replace a base. (DEDUCED: log entry 60) -/
def Dev.setTb (d : Dev) (n : Nat) (t : TimeBase) : Dev := { d with tim := { d.tim with bases := d.tim.bases.set n t } }

/-- The whole counter in 2^-48 ns, and a base with it. -/
def TimeBase.raw (t : TimeBase) : Nat := (t.sec * 1000000000 + t.ns) * 2 ^ 48 + t.frac
def TimeBase.setRaw (t : TimeBase) (v : Int) : TimeBase :=
  let w := (v % ((2 ^ 48 * 1000000000 * 2 ^ 48 : Nat) : Int)).toNat
  { t with sec := w / 2 ^ 48 / 1000000000, ns := w / 2 ^ 48 % 1000000000, frac := w % 2 ^ 48 }

/-- One SYSCLK cycle of a base (R295): (10^9 / 38,400,000) × (1 + rate × 2^-40) ns, 48 bits of fraction kept. (DESIGN CHOICE: log entry 58) -/
def TimeBase.tick (t : TimeBase) : TimeBase :=
  if t.counter.isNone then t else t.setRaw (t.raw + 625 * 2 ^ 8 * (2 ^ 40 + t.rate) / 24)

/-- One SYSCLK cycle of every base. (DESIGN CHOICE: log entry 3) (DESIGN CHOICE: log entry 12) -/
def tickTime (d : Dev) : Dev :=
  if d.inReset then d else { d with tim := { d.tim with bases := d.tim.bases.map TimeBase.tick } }

/-- A difference of two bases in 2^-16 ns. -/
def tbDiff (a b : TimeBase) : Int := ((a.raw : Int) - b.raw) / 2 ^ 32

/-- A step is allowed (R297). (DESIGN CHOICE: log entry 59) -/
def stepAllowed (d : Dev) (n : Nat) : Bool :=
  (d.tb n).stepEn && !(d.tb n).stepped && roleOf d n != trMONOTONIC && (roleOf d n != trMESH || d.fld TS_CTRL_pan_run == 0)

/-- Count a refusal of a base. -/
def tbRefuse (d : Dev) (n : Nat) : Dev := d.setTb n { d.tb n with refused := min ((d.tb n).refused + 1) 255 }

/-- Step a base by an offset in 2^-16 ns (R297): stepped is set, step_en clears, the lock opens (R302). -/
def tbStep (d : Dev) (n : Nat) (ofs : Int) : Dev :=
  d.setTb n { (d.tb n).setRaw ((d.tb n).raw + ofs * 2 ^ 32) with stepped := true, stepEn := false, locked := false, good := 0 }

/-- A write of 1 to epoch_open for the selected base (R296). -/
def epochOpen (d : Dev) : Dev :=
  let n := d.fld TIM_TB_SEL_tb
  let r := roleOf d n
  if r = trMONOTONIC ∨ (r = trMESH ∧ d.fld TS_CTRL_pan_run ≠ 0) then tbRefuse d n
  else d.setTb n { d.tb n with epochs := min ((d.tb n).epochs + 1) 255, stepped := false }

def execEpochOpen (s : State) : Out := s.onDev epochOpen

/-- A write of TIM_TB_STEP (R297): the selected base steps, or the request is refused. `w` is the pair's value. -/
def timeStep (d : Dev) (w : Nat) : Dev :=
  let n := d.fld TIM_TB_SEL_tb
  let d1 := d.setReg64 TIM_TB_STEP_LO w
  if stepAllowed d n then tbStep d1 n (toSigned 64 (w % 2 ^ 64)) else tbRefuse d1 n

def execTimeStep (ofs : Word64) (s : State) : Out := s.onDev fun d => timeStep d ofs.toNat

/-- Set a base's rate word within its limit, TB0's within that of R395 while it holds. -/
def setRate (d : Dev) (n : Nat) (r : Int) : Dev :=
  let c0 := clampInt r (-rateLimit) rateLimit
  let c := match d.tim.converge with
    | some i => if n = 0 then clampInt c0 (i - 21990233) (i + 21990233) else c0
    | none => c0
  d.setTb n { d.tb n with rate := c, clamped := c == rateLimit || c == -rateLimit }

/-- A write of TIM_TB_RATE (R295, R301). -/
def rateWrite (d : Dev) (w : Word) : Dev :=
  let n := d.fld TIM_TB_SEL_tb
  if (d.tb n).servoEn then d else setRate d n w.toInt

def execRateWrite (w : Word) (s : State) : Out := s.onDev fun d => rateWrite d w

/-! ### Servo (R301, R302) -/

/-- An offset sample θ (2^-16 ns) for a base: a step, or one turn of the servo, and the lock rule. With no previous sample, τ is open. (DESIGN CHOICE: log entry 58) (DESIGN CHOICE: log entry 59) -/
def offsetSample (d : Dev) (n : Nat) (theta : Int) : Dev :=
  let t := d.tb n
  if !t.servoEn then d
  else if decide (((d.fld TIM_TB_STEP_THR_thr_us * 1000 * 65536 : Nat) : Int) ≤ theta.natAbs) && stepAllowed d n then
    let d1 := tbStep d n theta
    d1.setTb n { d1.tb n with theta := theta, lastSample := some d.ns }
  else
    let (tau, d1) := match t.lastSample with
      | some l => (min (d.ns - l) 16000000000, d)
      | none => (d.draw.1 % 16000000001, d.draw.2)
    let den : Int := (65536 * 1000000000 : Nat)
    let i := clampInt (t.integral + theta * 2 ^ 40 * tau / (den * 1000000000 * 2 ^ t.iSh)) (-rateLimit) rateLimit
    let good := if theta.natAbs ≤ 100 * 65536 then t.good + 1 else 0
    let lock := if 1000 * 65536 < theta.natAbs then false else t.locked || decide (16 ≤ good)
    let d2 := setRate (d1.setTb n { t with integral := i, theta := theta, lastSample := some d.ns, good := good, locked := lock }) n
      (i + theta * 2 ^ 40 / (den * 2 ^ t.pSh))
    if n = 0 ∧ lock then { d2 with tim := { d2.tim with converge := none } } else d2

/-- Firmware delivers a sample in 1/256 ns to the selected base: 32 bits of TIM_TB_SAMPLE, or the 64 bits of the pair. -/
def sampleWrite (d : Dev) (theta : Int) : Dev := offsetSample d (d.fld TIM_TB_SEL_tb) (theta * 256)

def execOffsetSample (wide : Bool) (theta : Word64) (s : State) : Out :=
  s.onDev fun d => sampleWrite d (if wide then theta.toInt else (Word64.lo theta).toInt)

/-- The site master's TB3 follows TB0 (R300). -/
def siteSample (d : Dev) : Dev :=
  if topOwnIndex d.topo = 0 then offsetSample d 3 (tbDiff (d.tb 0) (d.tb 3)) else d

def execSiteSample (s : State) : Out := s.onDev siteSample

/-! ### Mesh sources (R303 to R308) -/

/-- Recovery node mode is in force. -/
def recoveryNode (d : Dev) : Bool := d.bit TS_RECOV_active

/-- Peers in TRACKING, and the mean of the last 8 offsets of a peer, 2^-16 ns. -/
def trackingPeers (d : Dev) : List Nat := (List.range 16).filter fun k => (d.peer k).state == 1
/-- DESIGN CHOICE: log entry 58. -/
def peerMean (d : Dev) (k : Nat) : Int :=
  let l := (d.peer k).offsets
  if l.isEmpty then 0 else l.foldl (· + ·) 0 * 65536 / l.length

/-- Validity of a source now (Table TIME-3). -/
def sourceValid (d : Dev) (k : Nat) : Bool :=
  if k = 0 then d.bit TIM_DOMAIN_VALID_a_ok && (d.tb 1).locked
  else if k = 1 then d.bit TIM_DOMAIN_VALID_b_ok && (d.tb 2).locked
  else if k = 2 then (d.tb 3).locked && decide (0 < topOwnIndex d.topo)
  else if k = 3 then d.bit TIM_STATUS_pps_valid && d.bit TIM_STATUS_tod_valid && !d.tim.pps.far
  else if recoveryNode d then
    (d.peer (d.fld TS_RECOV_source)).state == 1 && (d.peer (d.fld TS_RECOV_source)).misses == 0 && d.ts.srcHeard
  else !(trackingPeers d).isEmpty

/-- θ of a source other than PPS now, 2^-16 ns. -/
def sourceTheta (d : Dev) (k : Nat) : Int :=
  if k ≤ 2 then tbDiff (d.tb (k + 1)) (d.tb 0)
  else if recoveryNode d then -(peerMean d (d.fld TS_RECOV_source))
  else
    let t := trackingPeers d
    Int.neg ((t.map (peerMean d)).foldl (· + ·) 0 / (2 * t.length))

def Dev.source (d : Dev) (k : Nat) : MeshSource := Tab.getD d.tim.sources k ⟨false, 0, 0, none, []⟩
def Dev.setSource (d : Dev) (k : Nat) (x : MeshSource) : Dev := { d with tim := { d.tim with sources := Tab.put d.tim.sources k x } }

/-- The order number of the selected source; 7 holdover. -/
def meshSel (d : Dev) : Nat := if d.fld TIM_STATUS_mesh_src = 5 then 4 else d.fld TIM_STATUS_mesh_src

/-- Show the selected source: 5 for the recovery neighbour. -/
def showSel (d : Dev) (k : Nat) : Dev := d.setFld TIM_STATUS_mesh_src (if k = 4 ∧ recoveryNode d then 5 else k)

/-- A source may be selected: valid and enabled. -/
def sourceOk (d : Dev) (k : Nat) : Bool := (d.source k).valid && nbit (d.fld TIM_MESH_CFG_src_en) k

/-- The held offset h, 2^-16 ns. -/
def meshHold (d : Dev) : Int := toSigned 64 (d.reg64 TIM_MESH_HOLD_LO)

/-- D_Y: the mean of the differences kept for a source; none without samples. (DESIGN CHOICE: log entry 58) -/
def meshD (d : Dev) (k : Nat) : Option Int :=
  let l := (d.source k).diffs.filter fun x => decide (d.ns ≤ x.1 + 16000000000)
  if l.isEmpty then none else some ((l.map (·.2)).foldl (· + ·) 0 / l.length)

/-- Every D is rebuilt. -/
def clearDiffs (d : Dev) : Dev :=
  { d with tim := { d.tim with sources := d.tim.sources.map fun x => (x.1, { x.2 with diffs := [] }) } }

/-- The selection changes to a source, or to holdover (R304): h moves by −D, the change is counted and raised. (DEDUCED: log entry 61) -/
def switchTo (d : Dev) (k : Nat) : Dev :=
  let d1 := raise ((showSel d k).inc TIM_CNT_SWITCH_switches) 160 0 0
  if k = 7 ∨ meshSel d = 7 then clearDiffs d1
  else match meshD d k with
    | some x => clearDiffs (d1.setReg64 TIM_MESH_HOLD_LO (ofSigned 64 (meshHold d - x)))
    | none => clearDiffs (raise d1 161 0 0)

/-- Bring validity of every source up to date. -/
def updateSources (d : Dev) : Dev :=
  let d1 := (List.range 5).foldl (fun a k =>
    let v := sourceValid d k
    let x := a.source k
    a.setSource k { x with valid := v, since := if v && !x.valid then d.ns else x.since, diffs := if v then x.diffs else [] }) d
  ((d1.setBit TIM_STATUS_a_valid (sourceValid d 0)).setBit TIM_STATUS_b_valid (sourceValid d 1)).setBit TIM_STATUS_site_valid (sourceValid d 2)

/-- A source is sampled: its θ, and its difference against the selected source. -/
def sampleSource (d : Dev) (k : Nat) (theta : Int) : Dev :=
  let x := d.source k
  let sel := meshSel d
  let x1 := { x with theta := theta, at? := some d.ns }
  d.setSource k (if x.valid && k != sel && (d.source sel).valid && (d.source sel).at?.isSome then
    { x1 with diffs := (d.ns, theta - (d.source sel).theta) :: x.diffs.filter fun y => decide (d.ns ≤ y.1 + 16000000000) } else x1)

/-- Source 4 is sampled once per second. -/
def peersDue (d : Dev) : Bool := match (d.source 4).at? with
  | none => true
  | some t => decide (t + 1000000000 ≤ d.ns)

/-- The neighbour of recovery node mode has changed (R303): a switch under R304 without samples of the new one. (DEDUCED: log entry 61) -/
def neighbourChanged (d : Dev) : Dev :=
  let n := if recoveryNode d then some (d.fld TS_RECOV_source) else none
  if n = d.tim.neighbour then d
  else
    let d1 := { d with tim := { d.tim with neighbour := n } }
    if d.tim.neighbour.isSome && n.isSome && meshSel d == 4 then
      clearDiffs (raise (raise (d1.inc TIM_CNT_SWITCH_switches) 160 0 0) 161 0 0)
    else d1

/-- The selected source after R303: the present one while it may be selected, else the first that may; 7 for none. (DEDUCED: log entry 61) -/
def selectSource (d : Dev) : Nat :=
  if meshSel d ≤ 4 ∧ sourceOk d (meshSel d) then meshSel d else ((List.range 5).find? (sourceOk d)).getD 7

/-- Every 1 ms (R303): validity, samples, selection, and TB0's sample θ + h or, in holdover, its integral as rate. -/
def meshSample (d : Dev) : Dev :=
  let d1 := neighbourChanged (updateSources d)
  let peers := peersDue d1
  let due := (List.range 5).filter fun k => (d1.source k).valid && k != 3 && (k != 4 || peers)
  let sel0 := meshSel d1
  let order := due.filter (· == sel0) ++ due.filter (· != sel0)
  let d2 := order.foldl (fun a k => sampleSource a k (sourceTheta a k)) d1
  let k := selectSource d2
  let d3 := if k = meshSel d2 then showSel d2 k else switchTo d2 k
  if k = 7 then (if (d3.tb 0).servoEn then setRate d3 0 (d3.tb 0).integral else d3)
  else if k != 3 && due.contains k then offsetSample d3 0 ((d3.source k).theta + meshHold d3)
  else d3

def execMeshSample (s : State) : Out := s.onDev meshSample

/-- The revert time of an earlier source expires (R306): it is selected when it has been valid so long and still is. -/
def revertExpiry (d : Dev) (k : Nat) : Dev :=
  let d1 := updateSources d
  if d1.bit TIM_CTRL_revert_en && decide (k < meshSel d1) && decide (meshSel d1 ≤ 4) && sourceOk d1 k &&
    decide ((d1.source k).since + d1.fld TIM_MESH_CFG_revert_s * 1000000000 ≤ d1.ns) then switchTo d1 k else d1

def execRevertExpiry (src : Nat) (s : State) : Out := s.onDev fun d => revertExpiry d src

/-- A write of TIM_MESH_HOLD (R307). (DEDUCED: log entry 61) -/
def holdWrite (d : Dev) (h : Nat) : Dev := d.setReg64 TIM_MESH_HOLD_LO h

def execHoldWrite (h : Word64) (s : State) : Out := s.onDev fun d => holdWrite d h.toNat

/-- No sample has reached TB1 (domain A) or TB2 (domain B) for sample_to_s (R308). -/
def domainTimeout (d : Dev) (b : Bool) : Dev :=
  let f := if b then TIM_DOMAIN_VALID_b_ok else TIM_DOMAIN_VALID_a_ok
  if d.bit f then updateSources ((d.setBit f false).inc TIM_CNT_SWITCH_timeouts) else d

def execDomainSampleTimeout (b : Bool) (s : State) : Out := s.onDev fun d => domainTimeout d b

/-! ### ASN epochs (R310) -/

/-- A write of TIM_PANp_EPOCH. -/
def panEpochWrite (d : Dev) (p e : Nat) : Dev :=
  if 8 ≤ p then d else if nbit (d.fld TS_CTRL_pan_run) p then tbRefuse d 0 else d.setReg64 (TIM_PANp_EPOCH_LO p) e

def execPanEpochWrite (pan : Nat) (e : Word64) (s : State) : Out := s.onDev fun d => panEpochWrite d pan e.toNat

/-! ### PPS and time of day (R316 to R320) -/

def Dev.setPps (d : Dev) (x : Pps) : Dev := { d with tim := { d.tim with pps := x } }

/-- Show PPS and time-of-day validity in both registers. -/
def ppsValid (d : Dev) (v : Bool) : Dev := (d.setBit TIM_STATUS_pps_valid v).setBit TIM_PPS_STATUS_pps_valid v
def todValid (d : Dev) (v : Bool) : Dev := (d.setBit TIM_STATUS_tod_valid v).setBit TIM_PPS_STATUS_tod_valid v

/-- The label of the edge now: the second of the last accepted sentence, which labels the edge before it, and one more for each edge since
(R318, R319). -/
def ppsTheta (d : Dev) : Int :=
  (((d.tim.pps.todSec.getD 0 + d.tim.pps.edges) * 1000000000 * 2 ^ 48 : Nat) - ((d.tb 0).raw : Int)) / 2 ^ 32

/-- A good edge with time of day valid yields a sample, or makes the source invalid (R319). -/
def ppsSource (d : Dev) : Dev :=
  let th := ppsTheta d
  if 500000000 * 65536 ≤ th.natAbs ∧ !stepAllowed d 0 then
    let d1 := d.setPps { d.tim.pps with far := true }
    if d.tim.pps.far then d1 else raise d1 162 0 0
  else
    let d1 := sampleSource (updateSources (d.setPps { d.tim.pps with far := false })) 3 th
    if meshSel d1 = 3 then offsetSample d1 0 (th + meshHold d1) else d1

/-- The width in force of a filter group of Table ELEC-8 (R493, R505). (DESIGN CHOICE: log entry 13) -/
def filterWidth (d : Dev) (g : Nat) : Nat :=
  let st := d.sec 11 0xFFFF
  if nbit (field st 0 1) g then field st (1 + g) 1 else [4, 8, 0, 2, 2].getD g 0

/-- One cycle or sample of a filtered input under a width (R493): a level held for the width passes, a shorter pulse is removed, and a count
that runs keeps the width it began with. The commands of filtered inputs are what has passed. (DESIGN CHOICE: log entry 13) -/
def PinFilter.sample (x : PinFilter) (w : Nat) (v : Bool) : PinFilter :=
  if v = x.level then { x with run := 0 }
  else
    let k := if x.run = 0 then w else x.width
    if k ≤ x.run + 1 then ⟨v, 0, k⟩ else ⟨x.level, x.run + 1, k⟩

/-- A filtered rising edge of PPS_IN (R317). (DEDUCED: log entry 62) -/
def ppsEdge (d : Dev) : Dev :=
  let x := { d.tim.pps with edges := d.tim.pps.edges + 1 }
  let tol := 100 * d.fld TIM_PPS_CFG_tol
  let good := match x.lastEdge with
    | none => false
    | some l => decide (l + 1000000000 ≤ d.ns + tol) && decide (d.ns ≤ l + 1000000000 + tol)
  if good then
    let d1 := d.setPps { x with lastEdge := some d.ns, good := x.good + 1 }
    let d2 := if 4 ≤ x.good + 1 then ppsValid d1 true else d1
    if d2.bit TIM_STATUS_tod_valid then ppsSource d2 else d2
  else ppsValid ((d.setPps { x with lastEdge := some d.ns, good := 0 }).inc TIM_PPS_STATUS_pps_bad) false

def execPpsEdge (s : State) : Out := s.onDev ppsEdge

/-- No edge within 1 s + tol (R317). (DEDUCED: log entry 62) -/
def ppsTimeout (d : Dev) : Dev :=
  ppsValid ((d.setPps { d.tim.pps with good := 0 }).inc TIM_PPS_STATUS_pps_missing) false

def execPpsTimeout (s : State) : Out := s.onDev ppsTimeout

/-! ### ZDA sentences (R318; NMEA 0183: `$--ZDA,hhmmss.ss,dd,mm,yyyy,zz,zz*hh`) -/

/-- The fields between commas. -/
def csv (b : List Byte) : List (List Byte) :=
  b.foldr (fun x acc => if x = 0x2C then [] :: acc else (x :: acc.headD []) :: acc.tail) [[]]

/-- A decimal number; none when some character is no digit. -/
def decimal (b : List Byte) : Option Nat :=
  if b ≠ [] ∧ b.all (fun x => decide (0x30 ≤ x ∧ x ≤ 0x39)) then some (b.foldl (fun a x => 10 * a + (x.toNat - 0x30)) 0) else none

/-- A hexadecimal digit. -/
def hexDigit (x : Byte) : Nat := if x ≤ 0x39 then x.toNat - 0x30 else if x ≤ 0x46 then x.toNat - 0x37 else x.toNat - 0x57

/-- Days since 1970-01-01 of a date of the Gregorian calendar. -/
def daysOf (y m d : Nat) : Nat :=
  let k := if m ≤ 2 then y - 1 else y
  365 * k + k / 4 - k / 100 + k / 400 + (153 * ((m + 9) % 12) + 2) / 5 + d - 1 - 719468

/-- Days of a month. -/
def monthDays (y m : Nat) : Nat := daysOf (if m = 12 then y + 1 else y) (m % 12 + 1) 1 - daysOf y m 1

/-- The sentence is a ZDA sentence. -/
def isZda (b : List Byte) : Bool := b.headD 0 == 0x24 && slice b 3 4 == [0x5A, 0x44, 0x41, 0x2C]

/-- The UTC second since 1970 of a ZDA sentence; none when its checksum fails or a field is out of range. -/
def zdaUtc (b : List Byte) : Option Nat := do
  let body := (b.drop 1).takeWhile (· != 0x2A)
  let sum := slice b (body.length + 2) 2
  let f := csv (body.drop 6)
  let time := f.headD []
  let h ← decimal (time.take 2)
  let mi ← decimal (slice time 2 2)
  let s ← decimal (slice time 4 2)
  let day ← decimal ((f[1]?).getD [])
  let mon ← decimal ((f[2]?).getD [])
  let year ← decimal ((f[3]?).getD [])
  let zone (k hi : Nat) : Bool := match (f[k]?).getD [] with
    | [] => true
    | z => (decimal (if z.headD 0 = 0x2D then z.tail else z)).any (· ≤ hi)
  if sum.length = 2 ∧ (body.foldl (· ^^^ ·) 0).toNat = 16 * hexDigit (sum.headD 0) + hexDigit ((sum.drop 1).headD 0) ∧ h < 24 ∧ mi < 60 ∧ s < 60 ∧
    within year 1970 9999 ∧ within mon 1 12 ∧ within day 1 (monthDays year mon) ∧ zone 4 13 ∧ zone 5 59 then
    some (daysOf year mon day * 86400 + h * 3600 + mi * 60 + s)
  else none

/-- A sentence ends on the time-of-day UART (R318); one that is no ZDA sentence says nothing. -/
def todSentence (d : Dev) (b : List Byte) : Dev :=
  let x := d.tim.pps
  let tai := (zdaUtc b).map (· + d.fld TIM_TOD_CFG_utc_ofs)
  let timely := match x.lastEdge with
    | none => false
    | some l => decide (l + 100000000 ≤ d.ns) && decide (d.ns ≤ l + 900000000)
  if !isZda b then d
  else if tai.isSome && timely && (match x.todSec with | none => true | some s => tai == some (s + 1)) then
    let d1 := d.setPps { x with todCount := x.todCount + 1, todSec := tai, edges := 0 }
    if 2 ≤ x.todCount + 1 then todValid d1 true else d1
  else (d.setPps { x with todCount := 0 }).inc TIM_PPS_STATUS_tod_bad

def execTodSentence (sentence : List Byte) (s : State) : Out := s.onDev fun d => todSentence d sentence

/-- 3 s after the last accepted sentence (R318): time of day becomes invalid, and the sequence starts anew. (DEDUCED: log entry 62) -/
def todTimeout (d : Dev) : Dev := todValid (d.setPps { d.tim.pps with todCount := 0, todSec := none }) false

def execTodTimeout (s : State) : Out := s.onDev todTimeout

/-- PPS_OUT rises at a whole second of out_tb while out_en is 1, and falls after out_ms (R320). -/
def ppsOutEdge (d : Dev) (rise : Bool) : Dev := d.setPps { d.tim.pps with out := rise && d.bit TIM_PPS_CFG_out_en }

def execPpsOutEdge (rise : Bool) (s : State) : Out := s.onDev fun d => ppsOutEdge d rise

/-! ### Kettle RTC (R322 to R324) -/

/-- The RTC in ns. (DESIGN CHOICE: log entry 63) -/
def Kettle.rtcNs (k : Kettle) : Nat := k.sec * 1000000000 + k.tick * 1000000000 / 32768

/-- Some source of TB0 is valid and enabled. -/
def meshValid (d : Dev) : Bool := decide (meshSel d ≤ 4)

/-- A second of the RTC begins (R322): TB4 and its offset, and with a valid source TB0's offset and integral, are recorded. (DESIGN CHOICE: log entry 63) -/
def rtcSecond (d : Dev) : Dev :=
  let k := { d.ktl with sec := (d.ktl.sec + 1) % 2 ^ 48, tick := 0 }
  if d.inReset then { d with ktl := k }
  else
    let r : Int := k.rtcNs
    let k1 := { k with tb4 := d.ns, ofsTb4 := (d.ns : Int) - r, tb4Valid := true }
    if !meshValid d then { d with ktl := k1 }
    else
      let o : Int := ((d.tb 0).nanos : Int) - r
      let d1 := { d with ktl := { k1 with ofsTb0 := some o, ofsAt := k.rtcNs, integral := (d.tb 0).integral } }
      (d1.setReg64 KTL_RTC_OFS_LO (ofSigned 64 o)).setBit KTL_RTC_STATUS_ofs_valid k.trimmed

def execRtcSecond (s : State) : Out := s.onKettle rtcSecond

/-- Every 64 s (R322): the error of XTAL32 against TB0, in ppb, moves the trim by 1/16 of the difference. (DESIGN CHOICE: log entry 63) -/
def rtcTrim (d : Dev) (ppb : Int) : Dev :=
  if d.inReset || !meshValid d then d
  else
    let t := (d.reg KTL_RTC_TRIM).toInt
    let d1 := { d with ktl := { d.ktl with trimmed := true } }
    (d1.setReg KTL_RTC_TRIM (BitVec.ofInt 32 (t + (ppb - t) / 16))).setBit KTL_RTC_STATUS_ofs_valid d.ktl.ofsTb0.isSome

def execRtcTrim (ppb : Int) (s : State) : Out := s.onDev fun d => rtcTrim d ppb

/-- The RTC reaches the alarm (R324): it fires once. -/
def rtcAlarm (d : Dev) : Dev :=
  if d.fld KTL_RTC_ALARM_sec ≠ 0 ∧ d.ktl.sec % 2 ^ 32 = d.fld KTL_RTC_ALARM_sec then
    raise (((d.clearReg KTL_RTC_ALARM).setBit KTL_RTC_STATUS_alarm true).setBit KTL_WAKE_CTRL_pwr_req true) 3 0 0
  else d

def execRtcAlarm (s : State) : Out := s.onKettle rtcAlarm

/-! ### A failed counter (R434) -/

/-- Main and check adder of a base disagree; `main` and `check` are their values in 2^-48 ns. (DESIGN CHOICE: log entry 64) -/
def tbCheckFail (d : Dev) (n main check : Nat) : Dev :=
  let t := d.tb n
  let ref : Int := convert d (if n = 4 then 0 else 4) n (d.tb (if n = 4 then 0 else 4)).nanos * 2 ^ 48
  let best := if ((main : Int) - ref).natAbs ≤ ((check : Int) - ref).natAbs then main else check
  match (List.range 8).reverse.find? fun k => k != n && roleOf d k == trFREE && (d.tb k).counter.isSome with
  | none => raise (d.setTb n (t.setRaw best)) 225 7 0
  | some k =>
    let donor := d.tb k
    let d1 := d.setTb n { t.setRaw best with counter := donor.counter }
    let d2 := d1.setTb k { donor with sec := 0, ns := 0, frac := 0, counter := none }
    replaced { d2 with tim := { d2.tim with deadCounters := t.counter.toList ++ d2.tim.deadCounters } } 7 n (t.counter.getD n) (donor.counter.getD k)

def execTbCheckFail (tb main check : Nat) (s : State) : Out := s.onDev fun d => tbCheckFail d tb main check

/-- TIM_CTRL.cnt_clear (R325). (DEDUCED: log entry 60) -/
def timCntClear (d : Dev) : Dev :=
  let d1 := d.clearRegs [TIM_CNT_PTP, TIM_CNT_SWITCH]
  let d2 := ((d1.setFld TIM_PPS_STATUS_pps_bad 0).setFld TIM_PPS_STATUS_pps_missing 0).setFld TIM_PPS_STATUS_tod_bad 0
  { d2 with tim := { d2.tim with bases := d2.tim.bases.map fun t => { t with refused := 0, epochs := 0 } } }

def execTimCntClear (s : State) : Out := s.onDev timCntClear

end Sys2Proof.Machine
end

