-- ==== Sys2Proof/Machine/Ingress.lean ====
section
/-! DEFINITION. Ethernet ingress (10_forwarding.md R268, R269, R282), the management channel's frames (17_host_interface.md R479) and
IEEE 1588 timestamps (11_time.md R313, R314). -/

namespace Sys2Proof.Machine

/-- An Ethernet frame without FCS: its tags as (TPID, TCI), outermost first, EtherType and payload. -/
structure EthParsed where
  tags : List (Nat × Nat)
  etype : Nat
  payload : List Byte
  /-- offset of the payload -/
  off : Nat

/-- Parse a frame: at most two tags. -/
def ethParse (f : List Byte) : EthParsed :=
  let t1 := unbe (slice f 12 2)
  if t1 = 0x88A8 ∨ t1 = 0x8100 then
    let t2 := unbe (slice f 16 2)
    if t2 = 0x8100 then ⟨[(t1, unbe (slice f 14 2)), (t2, unbe (slice f 18 2))], unbe (slice f 20 2), f.drop 22, 22⟩
    else ⟨[(t1, unbe (slice f 14 2))], t2, f.drop 18, 18⟩
  else ⟨[], t1, f.drop 14, 14⟩

/-- The PAN whose vid a C-tag carries, with the port in its eth_mask. -/
def panOfVid (d : Dev) (port vid : Nat) : Option Nat :=
  (List.range 8).find? fun p => d.panUsed p && nbit (d.fld (FWD_PANp_CFG_eth_mask p)) port && d.fld (FWD_PANp_CFG_vid p) == vid

/-- The PAN slot a frame's tags bring it to (R268); none when no form fits. -/
def ethPan (d : Dev) (port : Nat) (tags : List (Nat × Nat)) : Option Nat :=
  let c (tci : Nat) : Option Nat :=
    if tci % 4096 = 0 then (if d.bit (FWD_ETHn_CFG_untag_en port) then some (d.fld (FWD_ETHn_CFG_untag_pan port)) else none)
    else if d.bit (FWD_ETHn_CFG_stag_en port) then none
    else panOfVid d port (tci % 4096)
  match tags with
  | [] => if d.bit (FWD_ETHn_CFG_untag_en port) then some (d.fld (FWD_ETHn_CFG_untag_pan port)) else none
  | [(0x8100, tci)] => c tci
  | [(0x88A8, s), (0x8100, tci)] =>
    if d.bit (FWD_ETHn_CFG_stag_en port) ∧ s % 4096 = d.fld (FWD_ETHn_CFG_s_vid port) then panOfVid d port (tci % 4096) else none
  | _ => none

/-! ### Timestamps -/

/-- The base whose role and domain match a PTP domainNumber; TB4 when none does (R313). -/
def ptpBase (d : Dev) (domain : Nat) : Nat :=
  ((List.range 8).find? fun n => within (roleOf d n) 1 3 && (d.tb n).domain == domain).getD 4

/-- A base displaced by a latency in 0.1 ns, as (seconds, nanoseconds, 2^-16 ns). -/
def stampAt (d : Dev) (n : Nat) (tenths : Int) : Nat × Nat × Nat :=
  let t := (d.tb n).setRaw ((d.tb n).raw + tenths * 2 ^ 48 / 10)
  (t.sec, t.ns, t.frac / 2 ^ 32)

/-- The timestamp record of Table TIME-4. -/
def stampRec (t : Nat × Nat × Nat) (base port : Nat) : List Byte := le 6 t.1 ++ le 4 t.2.1 ++ le 2 t.2.2 ++ le 1 base ++ le 1 port ++ zeros 2

/-- Offset of the PTP message of a frame: EtherType 0x88F7, or UDP over IPv6 to port 319 or 320. -/
def ptpOffset (f : List Byte) : Option Nat :=
  let e := ethParse f
  if e.etype = 0x88F7 then some e.off
  else if e.etype = 0x86DD ∧ ipNext e.payload = 17 ∧ (unbe (slice e.payload 42 2) = 319 ∨ unbe (slice e.payload 42 2) = 320) then some (e.off + 48)
  else none

/-- Sync and Delay_Req are timestamped. -/
def ptpStamped (f : List Byte) (o : Nat) : Bool := decide (field f o 1 % 16 ≤ 1)

/-- The record before a received PTP frame: present for Sync and Delay_Req. -/
def ptpIngress (d : Dev) (port : Nat) (f : List Byte) (o : Nat) : List Byte × Dev :=
  if ptpStamped f o then
    let n := ptpBase d (field f (o + 4) 1)
    (stampRec (stampAt d n (-(d.fld (TIM_ETHn_LAT_ingress port) : Int))) n port ++ f, d.inc TIM_CNT_PTP_rx_ts)
  else (f, d)

/-- UDP checksum of an IPv6 packet. -/
def udpChecksum (ip : List Byte) : Nat := udpSum (slice ip 8 32) (slice ip 40 (unbe (slice ip 4 2)))

/-- A PTP frame departs (R314): originTimestamp and correctionField of Sync and Delay_Req are written, the UDP checksum recomputed;
the frame as sent, and the record written into its buffer. -/
def ptpEgress (d : Dev) (port : Nat) (f : List Byte) : List Byte × List Byte × Dev :=
  match ptpOffset f with
  | none => (f, [], d)
  | some o =>
    if !ptpStamped f o then (f, [], d)
    else
      let n := ptpBase d (field f (o + 4) 1)
      let t := stampAt d n (d.fld (TIM_ETHn_LAT_egress port))
      let f1 := splice f (o + 34) (be 6 t.1 ++ be 4 t.2.1)
      let f2 := splice f1 (o + 8) (be 8 ((unbe (slice f (o + 8) 8) + t.2.2) % 2 ^ 64))
      let e := ethParse f2
      let f3 := if e.etype = 0x88F7 then f2 else splice f2 (e.off + 46) (be 2 (udpChecksum e.payload))
      (f3, stampRec t n port, d.inc TIM_CNT_PTP_tx_ins)

/-! ### Frames from Ethernet -/

/-- The management address is held on a port for frames with these tags (R479). -/
def mgmtTags (d : Dev) (port : Nat) (tags : List (Nat × Nat)) : Bool :=
  d.bit HIF_MGMT_CFG_en && nbit (d.fld HIF_MGMT_CFG_eth_mask) port &&
    (match tags with
     | [] => d.fld HIF_MGMT_CFG_vid == 0
     | [(0x8100, tci)] => d.fld HIF_MGMT_CFG_vid != 0 && tci % 4096 == d.fld HIF_MGMT_CFG_vid
     | _ => false)

/-- The solicited-node group of an address. -/
def solicited (a : List Byte) : List Byte := [0xFF, 0x02, 0, 0, 0, 0, 0, 0, 0, 0, 0, 1, 0xFF] ++ a.drop 13

/-- An address of the device: the management address, or its address in the prefix of a PAN in use. -/
def deviceAddr (d : Dev) (a : List Byte) : Bool :=
  a == mgmtAddr d || (List.range 8).any fun p => d.panUsed p && a == ownAddr d p

/-- The management kind of an IPv6 packet on a port: 0 neighbour discovery, 2 management UDP. (DESIGN CHOICE: log entry 57) -/
def mgmtKind (d : Dev) (port : Nat) (e : EthParsed) : Option Nat :=
  let dst := ipDst e.payload
  if !mgmtTags d port e.tags then none
  else if ipNext e.payload = 58 ∧ within (field e.payload 40 1) 133 137 ∧ (dst = mgmtAddr d ∨ dst = solicited (mgmtAddr d)) then some 0
  else if ipNext e.payload = 17 ∧ dst = mgmtAddr d ∧ unbe (slice e.payload 42 2) = d.fld HIF_MGMT_PORT_udp_port then some 2
  else none

/-- A frame without a place (R268, R286): cause 11 with the frame. -/
def ethRefuse (d : Dev) (k : Nat) (f : List Byte) : Dev :=
  match bufPut d f with
  | none => d
  | some (h, d1) => exception d1 11 0xFFFFF 0xFF true k h

/-- An IPv6 frame for a PAN: too long under cause 2, else downlink. (DESIGN CHOICE: log entry 54) -/
def ethDownlink (d : Dev) (p : Nat) (e : EthParsed) (f : List Byte) (changed : List Nat) : Dev :=
  let b := e.payload.take (40 + unbe (slice e.payload 4 2))
  let x := dscpOf b
  let dei := e.tags.any fun t => t.1 == 0x8100 && nbit t.2 12
  let pre := if dei || dscpYellow d x then clYELLOW else clGREEN
  match bufPut d (if 1280 < b.length then f else b) with
  | none => d
  | some (h, d1) =>
    if 1280 < b.length then exception d1 2 0xFFFFF p true (dscpClass d x + 8 * pre) h
    else downlinkAt d1 p h (dscpClass d x) pre f changed

/-- A frame is received on an Ethernet port, without FCS. (DESIGN CHOICE: log entry 14) (DESIGN CHOICE: log entry 57) -/
def ethFrameReceived (d : Dev) (port : Nat) (f : List Byte) (changed : List Nat) : Dev :=
  let e := ethParse f
  if 4 ≤ port ∨ ethOff d port then d
  else match (ptpOffset f).filter fun _ => d.bit HIF_MGMT_CFG_en && (e.etype == 0x88F7 || deviceAddr d (ipDst e.payload)) with
    | some o => mgmtFrame (ptpIngress d port f o).2 1 port (ptpIngress d port f o).1
    | none =>
      if e.etype = 0x86DD then
        match mgmtKind d port e with
        | some k => mgmtFrame d k port f
        | none => match ethPan d port e.tags with
          | some p => ethDownlink d p e f changed
          | none => ethRefuse d (dscpClass d (dscpOf e.payload)) f
      else if d.bit HIF_MGMT_CFG_en then mgmtFrame d 3 port f
      else ethRefuse d 0 f

def execEthFrameReceived (port : Nat) (frame : List Byte) (changed : List Nat) (s : State) : Out :=
  s.onDev fun d => ethFrameReceived d port frame changed

end Sys2Proof.Machine
end

