-- ==== Sys2Proof/Machine/TxOps.lean ====
section
/-! DEFINITION. Powers, the Regulatory Lock and the duty meters (05_head_control.md R134 to R148), and bursts on their lanes
(07_transmit.md R182 to R197, R504): the shared operations. -/

namespace Sys2Proof.Machine

/-- Largest r below 2^n·2 with r^k ≤ x, bit by bit. -/
def rootBits (k x : Nat) : Nat → Nat → Nat
  | 0, r => if (r + 1) ^ k ≤ x then r + 1 else r
  | n + 1, r => rootBits k x n (if (r + 2 ^ (n + 1)) ^ k ≤ x then r + 2 ^ (n + 1) else r)

/-- Power of a level in 0.25 dBm, in units of 10^-20 mW, rounded down. (DESIGN CHOICE: log entry 36) -/
def antilog (q : Int) : Nat := rootBits 40 (10 ^ (q + 800).toNat) 110 0

/-- Ceiling division of integers. -/
def ceilDiv (a b : Int) : Int := -((-a) / b)

/-- Compensation of R135 and R136 in use, 0.25 dB: the terms rounded upward, the margin for old telemetry. -/
def compShown (d : Dev) (p : Nat) : Int :=
  ceilDiv (4 * (dscS d p 0xD8 * (tPa d p - dscS d p 0xDC) + dscS d p 0xDA * (vSupply d p - (dsc d p 0xDE 2 : Int)))) 10000 +
    (if telemOlder d p 20000000 then 4 else 0)

/-- With the excess of R139, which is added to every p(c). -/
def compOf (d : Dev) (p : Nat) : Int := compShown d p + (d.head p).excess

/-- p(c) of each listed point (R135); no prediction is made from a value older than 1 s (R136). -/
def predicted (d : Dev) (p : Nat) : List (Nat × Int) :=
  if telemOlder d p 1000000000 then [] else (dscCurve d p).map fun x => (x.1, x.2 + compOf d p)

/-- p(c) of a code. -/
def predictedOf (d : Dev) (p code : Nat) : Int := (((predicted d p).find? fun x => x.1 == code).map (·.2)).getD 0

/-- The code R137 chooses for p_need: the listed code with the smallest p(c) at or above it, else the largest. -/
def chooseCode (d : Dev) (p : Nat) (need : Int) : Option Nat :=
  let l := predicted d p
  let ok := l.filter fun x => decide (need ≤ x.2)
  let best (le : Int → Int → Bool) (xs : List (Nat × Int)) : Option (Nat × Int) :=
    xs.foldl (fun b x => match b with
      | none => some x
      | some y => if le x.2 y.2 && x.2 != y.2 then some x else some y) none
  (if ok.isEmpty then best (fun a b => decide (b ≤ a)) l else best (fun a b => decide (a ≤ b)) ok).map (·.1)

/-! ### Regulatory Lock and narrowing (R145, R146) -/

/-- Narrowing records that name a port and sub-band. -/
def narrowings (d : Dev) (p k : Nat) : List Nat :=
  let b := d.sec 14 0xFFFF
  (List.range (b.length / 48)).filter fun r => narBand b r == k && nbit (narPorts b r) p

/-- Effective max_power (0.25 dBm), duty_ppm and allow_mask of a head and sub-band. -/
def effPower (d : Dev) (p k : Nat) : Int :=
  (narrowings d p k).foldl (fun v r => min v (narPower (d.sec 14 0xFFFF) r)) (lockMaxPower d.hc.lock k)
def effDuty (d : Dev) (p k : Nat) : Nat :=
  (narrowings d p k).foldl (fun v r => min v (narDuty (d.sec 14 0xFFFF) r)) (lockDuty d.hc.lock k)
def effMask (d : Dev) (p k : Nat) : Nat :=
  (narrowings d p k).foldl (fun v r => v &&& narMask (d.sec 14 0xFFFF) r) (lockAllow d.hc.lock k)

/-- Occupied bandwidth in Hz (Table SEND-7). -/
def occupied (d : Dev) (kind mode : Nat) : Nat :=
  if kind = 3 then 32000
  else match phyFind d.phy mode with
    | none => 0
    | some k =>
      let r := phyRate d.phy k
      if phyFamily d.phy k ≤ 1 then [100000, 200000, 225000, 300000].getD r 0
      else if phyFamily d.phy k = 2 then [0, 1094000, 552000, 281000, 156000].getD r 0
      else 2000000

/-- Twice the centre frequency in Hz of a channel of a port. -/
def freq2 (d : Dev) (p c : Nat) : Int := chanFreq2 d.band p c

/-- A burst is on an allowed channel of sub-band `k` (R146). (DEDUCED: log entry 37) -/
def allowedIn (d : Dev) (p k : Nat) (f2 : Int) (bw : Nat) : Bool :=
  let l := d.hc.lock
  decide (2000 * (lockStart l k : Int) ≤ f2 - bw) && decide (f2 + bw ≤ 2000 * (lockEnd l k : Int)) &&
    (List.range (lockGridCount l k)).any fun j =>
      decide (f2 = 200 * (lockGridStart l k : Int) + 2 * j * lockGridSpacing l k) && nbit (effMask d p k) j

/-- The sub-band on whose allowed channel a burst lies, lowest first. -/
def allowedBand (d : Dev) (p : Nat) (f2 : Int) (bw : Nat) : Option Nat :=
  if lockValid d.hc.lock then (List.range (lockCount d.hc.lock)).find? fun k => allowedIn d p k f2 bw else none

/-! ### Duty meters (R147) -/

def dutyKey (p k : Nat) : Nat := p * 32 + k
def dutyBins (d : Dev) (p k : Nat) : List Nat := Tab.getD d.hc.duty (dutyKey p k) d.hc.dutyRest
/-- The account: the current bin and the 60 before it, µs. -/
def dutyAccount (d : Dev) (p k : Nat) : Nat := ((dutyBins d p k).take 61).sum
/-- The effective limit of a meter in µs; none when there is no duty limit. -/
def dutyLimit (d : Dev) (p k : Nat) : Option Nat := if effDuty d p k = 1000000 then none else some (effDuty d p k * 3600)
/-- Charge the current bin. (DEDUCED: log entry 37) -/
def dutyCharge (d : Dev) (p k us : Nat) : Dev :=
  let bins := match dutyBins d p k with
    | [] => [us]
    | b :: bs => (b + us) :: bs
  { d with hc := { d.hc with duty := Tab.put d.hc.duty (dutyKey p k) bins } }

/-- What is left of intervals after one is taken out. -/
def cutOut (segs : List (Nat × Nat)) (a b : Nat) : List (Nat × Nat) :=
  (segs.flatMap fun s => [(s.1, min s.2 a), (max s.1 b, s.2)]).filter fun s => decide (s.1 < s.2)

/-- Airtime in µs of an interval that bursts do not already cover, rounded up (R147). -/
def uncovered (t0 t1 : Nat) (others : List Burst) : Nat :=
  (((others.foldl (fun segs b => cutOut segs b.t0 b.t1) [(t0, t1)]).map fun s => s.2 - s.1).sum + 999) / 1000

/-! ### Requests (Table SEND-1) -/

/-- The instant with low 40 bits `t` nearest to the present TB4 (R183). -/
def nearest40 (now t : Nat) : Nat := ((now : Int) + toSigned 40 (ofSigned 40 ((t : Int) - now))).toNat

/-- A transmit request from arg0 and arg1. -/
def txReqOf (now : Nat) (x : Desc) : TxReq :=
  let kind := nbits x.arg0 53 51
  { pReq := toSigned 10 (nbits x.arg0 63 54), kind := kind, mode := nbits x.arg0 50 46, channel := nbits x.arg0 45 38,
    port := nbits x.arg0 37 32, buf := nbits x.arg0 31 0,
    cell := if kind = 3 ∨ nbits x.arg1 59 40 = noCell then none else some (nbits x.arg1 59 40),
    copies := nbits x.arg1 63 58, wtype := nbits x.arg1 57 56, target := nbits x.arg1 55 40,
    t0 := nearest40 now (nbits x.arg1 39 0), resv := if kind = 3 then nbits x.arg0 50 49 else nbits x.arg1 63 60 }

/-- arg0 and arg1 of a request of the scheduler or a handler. -/
def txArgs (pReq : Int) (kind mode channel port buf hi t0 : Nat) : Nat × Nat :=
  (ofSigned 10 pReq * 2 ^ 54 + kind * 2 ^ 51 + mode * 2 ^ 46 + channel * 2 ^ 38 + port * 2 ^ 32 + buf % 2 ^ 32, hi * 2 ^ 40 + t0 % 2 ^ 40)

/-- FCS octets a mode sends: fcs2 of tx_coding. -/
def fcsLen (d : Dev) (mode : Nat) : Nat := match phyFind d.phy mode with
  | none => 4
  | some k => if nbit (phyTxCoding d.phy k) 3 then 2 else 4

/-- Loopback of R199 is enabled on a port. -/
def looped (d : Dev) (p : Nat) : Bool := topRole d.topo p == 2 && d.bit (TX_LOOPn_enable p)

/-- R184: the request is out of range. -/
def txRangeBad (d : Dev) (r : TxReq) : Bool :=
  5 ≤ r.kind || r.resv != 0 || !topUsed d.topo r.port || decide (bpCount d.band r.port ≤ r.channel) ||
  (topRole d.topo r.port != 3 && !dscFlag d r.port 1) || (r.kind == 4 && !looped d r.port) ||
  (if r.kind = 3 then !(d.panUsed (r.mode % 8) && topServes d.topo r.port (r.mode % 8))
   else match phyFind d.phy r.mode with
    | none => true
    | some k => (Tab.find d.pbm.bufs r.buf).isNone || decide (phyMaxPsdu d.phy k < (bufGet d r.buf).length + fcsLen d r.mode))

/-- Two preamble symbols of a mode in ns (R190); 16 µs for a Whistle (R196). -/
def rampCap (d : Dev) (kind mode : Nat) : Nat :=
  if kind = 3 then 16000
  else match phyFind d.phy mode with
    | none => 0
    | some k =>
      if phyFamily d.phy k ≤ 1 then [40000, 20000, 13333, 10000].getD (phyRate d.phy k) 0
      else if phyFamily d.phy k = 2 then 240000 else 32000

/-- The ramp profile of a mode or Whistle, its duration in ns bounded as R190 says (R191). -/
def rampProfile (d : Dev) (kind mode : Nat) : Nat :=
  if kind = 3 then d.fld TX_RAMP_SEL_whistle
  else match phyFind d.phy mode with
    | none => 0
    | some k => [d.fld TX_RAMP_SEL_fam0, d.fld TX_RAMP_SEL_fam1, d.fld TX_RAMP_SEL_fam2, d.fld TX_RAMP_SEL_fam3].getD (phyFamily d.phy k) 0
/-- The 64 points of a profile. -/
def rampPoints (d : Dev) (p : Nat) : List Nat :=
  (List.range 32).flatMap fun m => [d.fld (TX_RAMP_PTp_m_pt_lo p m), d.fld (TX_RAMP_PTp_m_pt_hi p m)]
def rampOf (d : Dev) (kind mode p : Nat) : Ramp := ⟨min (500 * d.fld (TX_RAMP_LENp_len p)) (rampCap d kind mode), rampPoints d p⟩

/-- p_reg of a burst and its p_eff (R134). A role 3 port has no head: the request alone. -/
def pReg (d : Dev) (r : TxReq) : Int :=
  match allowedBand d r.port (freq2 d r.port r.channel) (occupied d r.kind r.mode) with
  | some k => effPower d r.port k
  | none => -512
def pEff (d : Dev) (r : TxReq) : Int :=
  if topRole d.topo r.port = 3 then r.pReq else min r.pReq (min (pReg d r) (dscTxPmax d r.port))

/-- The shortest profile: the smallest duration, the lowest number on a tie (R191). -/
def shortProfile (d : Dev) : Nat :=
  (List.range 8).foldl (fun b p => if d.fld (TX_RAMP_LENp_len p) < d.fld (TX_RAMP_LENp_len b) then p else b) 0

/-! ### Duration of a PPDU (R188) -/

/-- Data bits of an OFDM symbol of 120 µs, by option and MCS, and symbols of the PHR. (PRESUMED: log entry 127) -/
def ofdmBits (option mcs : Nat) : Nat :=
  if option = 1 then [12, 24, 48, 96].getD mcs 12
  else if option = 2 then [6, 12, 24, 48, 72, 96].getD mcs 6
  else if option = 3 then [0, 6, 12, 24, 36, 48, 72].getD mcs 6
  else [0, 0, 6, 12, 18, 24, 36].getD mcs 6
/-- PRESUMED: log entry 127. -/
def ofdmPhr (option : Nat) : Nat := if option = 1 then 3 else 6

/-- Symbols from the first preamble symbol to the last PSDU symbol of a mode, for `n` octets with FCS, as IEEE 802.15.4-2020 defines: 16
symbols of SFD and 16 of PHR, the rate ½ code with 3 tail bits and the pad that fills the interleaver; of OFDM the PHR symbols, 16 service bits
and 6 tail bits; of O-QPSK 2 symbols of SFD and of PHR. (PRESUMED: log entry 127) -/
def ppduSymbols (d : Dev) (k n : Nat) : Nat :=
  let pre := phyPreamble d.phy k
  if phyFamily d.phy k = 0 then pre + 32 + 8 * n
  else if phyFamily d.phy k = 1 then pre + 16 + 2 * (16 + 8 * n + 3 + if n % 2 = 1 then 5 else 13)
  else if phyFamily d.phy k = 2 then
    let b := ofdmBits (phyRate d.phy k) (phyTxCoding d.phy k / 16)
    pre + ofdmPhr (phyRate d.phy k) + (16 + 8 * n + 6 + b - 1) / b
  else pre + 4 + 2 * n

/-- Duration of n symbols of a mode, ns. -/
def symbolsNs (d : Dev) (m n : Nat) : Nat := match phyFind d.phy m with
  | none => 0
  | some k =>
    if phyFamily d.phy k ≤ 1 then n * ([60000, 30000, 20000, 15000].getD (phyRate d.phy k) 0) / 3
    else if phyFamily d.phy k = 2 then n * 120000 else n * 16000

/-- Duration of the PPDU of a mode for n octets with FCS, ns. -/
def ppduNs (d : Dev) (m n : Nat) : Nat := match phyFind d.phy m with
  | none => 0
  | some k => symbolsNs d m (ppduSymbols d k n)

/-- Duration of a request's PPDU, or of a Whistle copy (R195), ns. -/
def durationNs (d : Dev) (r : TxReq) : Nat :=
  if r.kind = 3 then 11000000 else ppduNs d r.mode ((bufGet d r.buf).length + fcsLen d r.mode)

/-! ### Lanes (R186) -/

/-- Bursts of a head. -/
def headBursts (d : Dev) (p : Nat) : List Burst := (d.tx.bursts.filter fun b => b.2.req.port == p).map (·.2)

/-- Intervals overlap in time; occupied bands overlap in frequency (edges that touch do not). -/
def timeOverlap (a b : Burst) : Bool := decide (a.t0 < b.t1) && decide (b.t0 < a.t1)
def bandOverlap (d : Dev) (a b : Burst) : Bool :=
  let f (x : Burst) := freq2 d x.req.port x.req.channel
  let w (x : Burst) := occupied d x.req.kind x.req.mode
  decide (f a - w a < f b + w b) && decide (f b - w b < f a + w a)

/-- Priority of a burst kind: ack, beacon, data and test, Whistle. -/
def burstPrio (k : Nat) : Nat := if k = 1 then 0 else if k = 2 then 1 else if k = 3 then 3 else 2

/-- `a` is refused before `b`: lower priority, later t0, higher cell. -/
def refusedFirst (a b : Burst) : Bool :=
  let c (x : Burst) := x.req.cell.getD noCell
  if burstPrio a.req.kind ≠ burstPrio b.req.kind then decide (burstPrio b.req.kind < burstPrio a.req.kind)
  else if a.t0 ≠ b.t0 then decide (b.t0 < a.t0) else decide (c b < c a)

/-- The end of a burst's lane: a train keeps its lane up to its next copy (R196). -/
def laneEnd (l : List Burst) (b : Burst) : Nat :=
  match l.find? fun x => x.task == b.task && x.copy == b.copy + 1 with
  | some x => max b.t1 x.t0
  | none => b.t1

/-- Some instant of `x` has 16 lanes of the list taken. -/
def lanesFull (l : List Burst) (x : Burst) : Bool :=
  let o := l.filter fun b => !(b.task == x.task && b.copy + 1 == x.copy)
  (x.t0 :: (o.map (·.t0)).filter fun t => decide (x.t0 ≤ t ∧ t < x.t1)).any fun t =>
    decide (16 ≤ (o.filter fun b => decide (b.t0 ≤ t) && decide (t < laneEnd l b)).length)

/-- The bursts of a head that give way to `b` (R186): while a 17th would be on air, the one of lowest priority among `b` and the admitted ones not yet
on air that overlap it; none when that is `b` itself. Fuel bounds the list. -/
def givingWay : Nat → List Burst → Burst → Option (List Burst)
  | 0, _, _ => none
  | n + 1, l, b =>
    if !lanesFull l b then some []
    else
      let cand := l.filter fun x => !x.onAir && timeOverlap b x
      let worst := cand.foldl (fun w x => if refusedFirst x w then x else w) b
      if worst = b then none
      else (givingWay n (l.filter fun x => x != worst) b).map (worst :: ·)

/-! ### Refusals and ends -/

/-- Key of a burst whose context stands. -/
def burstKey (b : Burst) : Nat := if b.req.kind = 3 then 131072 * (b.copy + 1) + b.task else b.task

/-- Replace or remove a burst; note a train. -/
def setBurst (d : Dev) (t : Nat) (b : Burst) : Dev := { d with tx := { d.tx with bursts := Tab.put d.tx.bursts t b } }
def delBurst (d : Dev) (t : Nat) : Dev := { d with tx := { d.tx with bursts := Tab.del d.tx.bursts t } }
def setTrain (d : Dev) (t : Nat) (x : Train) : Dev := { d with tx := { d.tx with trains := Tab.put d.tx.trains t x } }

/-- Bursts of a task whose context stands, by key: the copies of a train in their order. -/
def taskBursts (d : Dev) (task : Nat) : List (Nat × Burst) := d.tx.bursts.filter fun e => e.1 % 131072 == task

/-- Count a refusal or early end by cause (HC_SKIP_A, HC_SKIP_B, TX_CNT_SKIP). -/
def countCause (d : Dev) (c : Nat) : Dev :=
  if c = csSYNTH then d.inc HC_SKIP_A_synth
  else if c = csDUTY then d.inc HC_SKIP_A_duty
  else if c = csREG ∨ c = csNO_LOCK then d.inc HC_SKIP_B_reg
  else if within c csTHERMAL csINHIBIT then d.inc HC_SKIP_B_held
  else if c = csCONTEXT then d.inc TX_CNT_SKIP_context
  else if c = csOVERLAP then d.inc TX_CNT_SKIP_overlap
  else if c = csLATE then d.inc TX_CNT_SKIP_late
  else if c = csENGINE then d.inc TX_CNT_SKIP_engine
  else d

/-- The head on a port is used to send: no role 3 port, no loopback. -/
def needsHead (d : Dev) (p : Nat) : Bool := topRole d.topo p != 3 && topUsed d.topo p && !looped d p

/-- The causes for which a request cannot be admitted now, a path not ready from t0 − 100 µs on among them (R143), as R187 lists them, before lanes and duty. -/
def txCauses (d : Dev) (r : TxReq) : List Nat :=
  (if topRole d.topo r.port = 3 || !topUsed d.topo r.port then [] else headHolds d r.port) ++
  (if needsHead d r.port && !(d.head r.port).txReady && decide (r.t0 ≤ d.ns + 100000) then [csSYNTH] else []) ++
  (if d.ns + 30000 ≤ r.t0 then [] else [csLATE]) ++
  (if txRangeBad d r then [csRANGE]
   else if topRole d.topo r.port = 3 || looped d r.port then []
   else if (allowedBand d r.port (freq2 d r.port r.channel) (occupied d r.kind r.mode)).isNone then [csREG] else [])

/-- The burst of a request (R190): t1 is the end of its falling ramp; the ramp of a Whistle lies inside its chips (R196). -/
def burstOf (d : Dev) (task : Nat) (r : TxReq) (t0 : Nat) : Burst :=
  let ramp := rampOf d r.kind r.mode (rampProfile d r.kind r.mode)
  ⟨task, r, t0, t0 + durationNs d r + (if r.kind = 3 then 0 else ramp.ns), pEff d r, pReg d r, 0, false, 0, 0, ramp,
    rampOf d r.kind r.mode (shortProfile d), 0⟩

/-- The sub-band a burst is charged to; none where no RF leaves a head. -/
def chargeBand (d : Dev) (r : TxReq) : Option Nat :=
  if topRole d.topo r.port = 3 || looped d r.port then none
  else allowedBand d r.port (freq2 d r.port r.channel) (occupied d r.kind r.mode)

/-- What a burst would be charged. -/
def chargeOf (d : Dev) (b : Burst) : Nat :=
  uncovered b.t0 b.t1 ((headBursts d b.req.port).filter fun x => chargeBand d x.req == chargeBand d b.req)

/-- The account plus the charge would exceed the limit (R147). -/
def overDuty (d : Dev) (b : Burst) : Bool :=
  match chargeBand d b.req with
  | none => false
  | some k => match dutyLimit d b.req.port k with
    | none => false
    | some lim => decide (lim < dutyAccount d b.req.port k + chargeOf d b)

/-- Cause for which burst `b` is refused at once, the lowest of those that apply (R187), 0 when it is admitted; a quiet cell is one of them (R213). (DEDUCED: log entry 37) -/
def refusal (d : Dev) (b : Burst) : Nat :=
  let pre := txCauses d { b.req with t0 := b.t0 }
  let l := headBursts d b.req.port
  if pre.contains csRANGE then lowest pre
  else lowest (pre ++ (if overDuty d b then [csDUTY] else []) ++ (if (givingWay 18 l b).isNone then [csCONTEXT] else []) ++
    (if l.any fun x => timeOverlap b x && bandOverlap d b x then [csOVERLAP] else []) ++
    (if needsHead d b.req.port && isQuiet d b.req.port b.req.channel b.t0 b.t1 then [csQUIET] else []))

/-- Admit a burst: lane, duty charge. -/
def txAdmit (d : Dev) (b : Burst) : Dev :=
  let d1 := match chargeBand d b.req with
    | none => d
    | some k => dutyCharge d b.req.port k (chargeOf d b)
  setBurst d1 (burstKey b) b

/-- A copy of a train was sent, or could not be: what the train records (R187). -/
def Train.note (x : Train) (sentIt : Bool) (cause : Nat) : Train :=
  if sentIt then { x with sent := x.sent + 1, cause := if cause ≠ 0 then cause else if x.sent = 0 then 0 else x.cause }
  else if x.sent = 0 then { x with cause := cause } else x
/-- DEDUCED: log entry 39. -/
def noteTrain (d : Dev) (task : Nat) (sentIt : Bool) (cause : Nat) : Dev :=
  { d with tx := { d.tx with trains := Tab.upd d.tx.trains task fun x => x.note sentIt cause } }

/-- ASN of the slot nearest target bits at or after t0's slot (R183). -/
def targetAsn (d : Dev) (r : TxReq) (t0 : Nat) : Nat :=
  let a := asnOf d (r.mode % 8) (convert d 4 0 t0)
  a + (r.target + 65536 - a % 65536) % 65536

/-- delay of copy `k` of a train (R197): none when it would be negative. -/
def copyDelay (d : Dev) (r : TxReq) (t0k : Nat) : Option Nat :=
  let e := asnOf d (r.mode % 8) (convert d 4 0 (t0k + 11000000))
  if targetAsn d r r.t0 < e then none else some (min (targetAsn d r r.t0 - e) 255)

/-- Bits of a Whistle copy (Table SEND-5) as one number, preamble first. -/
def whistleBits (d : Dev) (r : TxReq) (left delay : Nat) : Nat :=
  let code := if r.wtype = 2 then 0xFFFF0000 + d.panId (r.mode % 8) else r.buf
  let body := (r.wtype * 64 + min left 63) * 2 ^ 40 + code * 256 + delay
  0xAAAA * 2 ^ 72 + 0x3A9D * 2 ^ 56 + body * 256 + crcMsb 8 7 0 (be 6 body)

/-- The cell of a request is recorded as skipped (R142, R187, R192): by the scheduler's attempt, or by the request's own cell. A Whistle's
skip is its attempt's. -/
def cellSkipped (d : Dev) (task : Nat) (r : TxReq) (cause : Nat) : Dev :=
  let c := r.cell.getD noCell
  let w := if c = noCell then 0 else cellWord d c
  if (attemptOf d task).isSome then attemptSkipped d task cause
  else if r.kind = 3 then d
  else skip d cause r.port (clPan w) r.t0 (asnOf d (clPan w) (convert d 4 0 r.t0)) c (if c = noCell then noCell else clTarget w)

/-- The context of a burst completes with a result; the scheduler's attempt is told (R187). -/
def txFinish (d : Dev) (task : Nat) (r : TxReq) (result lastSym : Nat) : Dev :=
  let d1 := delBurst d task
  completeTask (if result = 0 then attemptSent d1 task lastSym else cellSkipped d1 task r result) task result

/-- A Whistle train has ended when none of its copies is left: the bound cell is skipped when no copy was sent (R218). (DEDUCED: log entry 39) -/
def trainOver (d : Dev) (task : Nat) : Dev :=
  match Tab.find d.tx.trains task with
  | none => d
  | some x =>
    if x.placing || !(taskBursts d task).isEmpty then d
    else
      let d1 := { d with tx := { d.tx with trains := Tab.del d.tx.trains task } }
      let d2 := match attemptOf d1 task with
        | none => d1
        | some a =>
          if x.sent ≠ 0 then dropAttempt d1 task
          else match a.entry with
            | some i => returnFrame (skipAttempt (dropAttempt d1 task) a x.cause) i a.charged
            | none => dropAttempt d1 task
      completeTask d2 task x.cause

/-- A burst on air ends with the shortest ramp from now on; its end follows with BURST_END (R143, R144, R192). (DEDUCED: log entry 39) -/
def cutBurst (d : Dev) (key : Nat) (b : Burst) (cause : Nat) : Dev :=
  let d1 := setBurst d key { b with cut := cause, t1 := min b.t1 (d.ns + b.short.ns), ramp := b.short }
  let h := d1.head b.req.port
  d1.setHead b.req.port { h with onTo := (((headBursts d1 b.req.port).filter (·.onAir)).map (·.t1)).foldl max (min h.onTo d.ns) }

/-- A burst is refused or ends early with a cause, counted (R142 to R144, R187, R197): on air it ends with the shortest ramp; before that its
cell is skipped and its context ended, or its train loses this copy alone. -/
def burstLost (d : Dev) (b : Burst) (cause : Nat) : Dev :=
  if b.onAir then (if b.cut = 0 then cutBurst (countCause d cause) (burstKey b) b cause else d)
  else if b.req.kind = 3 then trainOver (noteTrain (delBurst (countCause d cause) (burstKey b)) b.task false cause) b.task
  else txFinish (countCause d cause) b.task b.req cause 0

/-- Admit a burst or copy, or refuse it with its cause (R186, R187); those that give way to it are refused CONTEXT. -/
def placeBurst (d : Dev) (b : Burst) : Dev :=
  let c := refusal d b
  if c ≠ 0 then burstLost d b c
  else txAdmit (((givingWay 18 (headBursts d b.req.port) b).getD []).foldl (fun a x => burstLost a x csCONTEXT) d) b

/-- Whistle copies on the air of a channel in a sector, on other heads than `p` (R198). -/
def sectorCopies (d : Dev) (p c : Nat) : List Burst :=
  (d.tx.bursts.map (·.2)).filter fun b => b.req.kind == 3 && b.req.port != p && topSector d.topo b.req.port == topSector d.topo p &&
    freq2 d b.req.port b.req.channel == freq2 d p c

/-- The start of a train of `len` ns that no train of another head of the sector on its channel overlaps: 250 µs after the one it would overlap (R198). (DESIGN CHOICE: log entry 128) -/
def trainStart (l : List Burst) (len : Nat) : Nat → Nat → Nat
  | 0, t => t
  | n + 1, t =>
    let o := l.filter fun b => decide (b.t0 < t + len) && decide (t < b.t1 + 250000)
    if o.isEmpty then t else trainStart l len n ((o.map fun b => b.t1 + 250000).foldl max t)

/-- A Whistle request is taken (R186, R195 to R198): every copy is admitted or refused at once, 250 µs after the end of the one before; a copy whose
delay would be negative is not sent. (DEDUCED: log entry 39) -/
def placeTrain (d : Dev) (task : Nat) (r : TxReq) : Dev :=
  let len := (r.copies + 1) * 11250000 - 250000
  let t0 := trainStart (sectorCopies d r.port r.channel) len 65 r.t0
  let d1 := (List.range (r.copies + 1)).foldl (fun a k =>
    let t := t0 + k * 11250000
    match copyDelay a r t with
    | none => noteTrain (a.inc TX_CNT_WHISTLE_not_sent) task false csLATE
    | some y => placeBurst a { burstOf a task r t with copy := k, delay := y }) (setTrain d task ⟨r, 0, 0, true⟩)
  trainOver { d1 with tx := { d1.tx with trains := Tab.upd d1.tx.trains task fun x => { x with placing := false } } } task

/-- Every burst of a head ends or is refused with a hold's cause (R144). -/
def headHeld (d : Dev) (p cause : Nat) : Dev :=
  ((d.tx.bursts.filter fun e => e.2.req.port == p).map (·.1)).foldl (fun a k => match Tab.find a.tx.bursts k with
    | none => a
    | some x => burstLost a x cause) d

/-- The transmit context of a burst ends by the dispatcher (R192): its burst is lost with ENGINE, on air with the shortest ramp, and its cell is
recorded; the context's own result stands. Of a train the copies to come are lost; its bound cell is skipped when no copy was sent (R218). (DEDUCED: log entry 39) -/
def txEngineLost (d : Dev) (task : Nat) : Dev :=
  let l := taskBursts d task
  let sent := ((Tab.find d.tx.trains task).map (·.sent)).getD 0
  match l with
  | [] => if (attemptOf d task).isSome then attemptSkipped (countCause d csENGINE) task csENGINE else d
  | e :: _ =>
    let lose (a : Dev) (x : Nat × Burst) : Dev :=
      let a1 := countCause (delBurst a x.1) csENGINE
      if !x.2.onAir then a1
      else if x.2.cut = 0 then cutBurst a1 (x.1 + 65536) x.2 csENGINE
      else setBurst a1 (x.1 + 65536) { x.2 with cut := csENGINE }
    let d1 := l.foldl lose { d with tx := { d.tx with trains := Tab.del d.tx.trains task } }
    if e.2.req.kind = 3 ∧ (l.any (·.2.onAir) ∨ sent ≠ 0) then dropAttempt d1 task else cellSkipped d1 task e.2.req csENGINE

/-- The burst or copy of a task that starts next, and the one a BURST_END names: its own, or the one its ended context left on air; with the key. -/
def startingBurst (d : Dev) (task : Nat) : Option (Nat × Burst) := (taskBursts d task).find? fun e => !e.2.onAir
def endingBurst (d : Dev) (task : Nat) : Option (Nat × Burst) :=
  ((taskBursts d task).find? fun e => e.2.onAir).or (d.tx.bursts.find? fun e => e.1 % 131072 == task + 65536)

end Sys2Proof.Machine
end

