-- ==== Sys2Proof/Machine/FrameOps.lean ====
section
/-! DEFINITION. The device's own MAC frames (IEEE 802.15.4-2020 layouts; 08_tsch.md R219, R225, R231; 12_keys_and_frame_security.md R360). -/

namespace Sys2Proof.Machine

/-- MAC header of a frame the device sends to one of its PANs. -/
def ownHeader (d : Dev) (p ftype : Nat) (ack ie : Bool) (dm : Nat) (dst : List Byte) : List Byte := headerTo d (d.panId p) ftype ack ie dm dst

/-- Longest PSDU of a PHY mode without FCS. -/
def psduRoom (d : Dev) (mode : Nat) : Nat := match phyFind d.phy mode with
  | none => 0
  | some k => phyMaxPsdu d.phy k - fcsLen d mode

/-- Security of a PAN's broadcast frames (R360): slot, level, key index. -/
def bcastSecured (d : Dev) (p : Nat) : Bool := d.fld (SEC_PANp_CFG_bcast_slot p) != 0x7F

/-- Secure a broadcast frame of a PAN under its broadcast key and next counter: the frame, or none when the slot cannot be used
or TAMPER_HOLD holds (R369). -/
def secureBcast (f : Fuses) (d : Dev) (p asn : Nat) (b : List Byte) : Option (List Byte) × Dev :=
  if !bcastSecured d p then (some b, d)
  else if d.vault.hold then (none, d)
  else
    let (r, k, d1) := useSlot f d (d.fld (SEC_PANp_CFG_bcast_slot p)) 45 1 (some 30) (some p)
    if r ≠ scOK then (none, d1)
    else
      let (c, d2) := takeBcast f d1 p
      (some (secureFrame d2 p k (ownExtBe d2) b (d2.fld (SEC_PANp_CFG_tx_level p)) c (d2.fld (SEC_PANp_CFG_bcast_kidx p)) asn), d2)

end Sys2Proof.Machine
end

