-- ==== Sys2Proof/Machine/Campaigns.lean ====
section
/-! DEFINITION. Node campaigns (13_node_campaigns.md R374 to R388): the code, descriptors, states, blocks built ahead, and the
commands. -/

namespace Sys2Proof.Machine

/-! ### The code (R374 to R376) -/

/-- Multiplication by x in GF(2^8) under 0x11D, and multiplication. -/
def gfDouble (a : Nat) : Nat := if 128 ≤ a then (2 * a) ^^^ 0x11D else 2 * a
def gfMulBits (a : Nat) : Nat → Nat → Nat
  | 0, _ => 0
  | n + 1, b => (if b % 2 = 1 then a else 0) ^^^ gfDouble (gfMulBits a n (b / 2))
def gfMul (a b : Nat) : Nat := gfMulBits a 8 b

/-- One round of the generator of R375. -/
def xorShift (x : Nat) : Nat :=
  let a := x ^^^ (x <<< 13 % 2 ^ 32)
  let b := a ^^^ (a >>> 17)
  b ^^^ (b <<< 5 % 2 ^ 32)

/-- The coefficients from a generator state. -/
def coefRun : Nat → Nat → List Nat
  | 0, _ => []
  | n + 1, x => (xorShift x) >>> 24 :: coefRun n (xorShift x)

/-- Coefficients of ESI e (R375). -/
def coefs (g e k : Nat) : List Nat :=
  if e < k then (List.range k).map fun i => b2n (i == e)
  else
    let x := g ^^^ (e * 0x9E3779B9 % 2 ^ 32)
    coefRun k (if x = 0 then 0x6D2B79F5 else x)

/-- Sum of byte-wise products. -/
def codedBlock (cs : List Nat) (blocks : List (List Byte)) : List Byte :=
  (cs.zip blocks).foldl (fun acc cb => (acc.zip cb.2).map fun ab => BitVec.ofNat 8 (ab.1.toNat ^^^ gfMul cb.1 ab.2.toNat)) (zeros 1024)

/-- The first ESI from `e` on that is sent: an all-zero vector is passed over. Fuel bounds the search. -/
def esiFrom (g k : Nat) : Nat → Nat → Nat
  | 0, e => e
  | n + 1, e => if k ≤ e ∧ (coefs g e k).all (· == 0) then esiFrom g k n (e + 1) else e

/-! ### Descriptors (Table CAMP-2) -/

@[reducible] def cdCnum (b : List Byte) : Nat := field b 0 1
@[reducible] def cdPan (b : List Byte) : Nat := field b 1 1
@[reducible] def cdSegLog (b : List Byte) : Nat := field b 2 1
@[reducible] def cdWhistle (b : List Byte) : Nat := field b 3 1
@[reducible] def cdImage (b : List Byte) : Nat := field b 4 4
@[reducible] def cdLen (b : List Byte) : Nat := field b 8 4
@[reducible] def cdSectors (b : List Byte) : Nat := field b 12 2
@[reducible] def cdCells (b : List Byte) : Nat := field b 14 2
@[reducible] def cdGroup (b : List Byte) : Nat := field b 16 4
@[reducible] def cdGap (b : List Byte) : Nat := field b 20 2
@[reducible] def cdCopies (b : List Byte) : Nat := field b 22 1
@[reducible] def cdLead (b : List Byte) : Nat := field b 23 1
@[reducible] def cdLimit (b : List Byte) : Nat := field b 24 4

/-- Source blocks of an image length. -/
def blocksOf (len : Nat) : Nat := (len + 1023) / 1024

/-- A descriptor's fields are in range. -/
def descOk (d : Dev) (b : List Byte) : Bool :=
  decide (cdCnum b ≤ 254) && d.panUsed (cdPan b) && decide (cdSegLog b ≤ 4) && decide (cdWhistle b ≤ 2) && cdImage b != 0 &&
  within (cdLen b) 1 2097152 && cdSectors b != 0 && cdCells b != 0 && (cdWhistle b != 1 || cdGroup b != 0) && cdGap b != 0 &&
  decide (cdCopies b ≤ 63) && cdLead b != 0 && field b 28 4 == 0

/-! ### Campaigns held -/

@[reducible] def cpLOADING : Nat := 1
@[reducible] def cpREADY : Nat := 2
@[reducible] def cpRUNNING : Nat := 3
@[reducible] def cpPAUSED : Nat := 4
@[reducible] def cpDONE : Nat := 5
@[reducible] def cpCANCELLED : Nat := 6
@[reducible] def cpEXHAUSTED : Nat := 7

/-- Results of CMP_CMD_STATUS. -/
@[reducible] def cmOK : Nat := 0
@[reducible] def cmRANGE : Nat := 1
@[reducible] def cmEXISTS : Nat := 2
@[reducible] def cmNO_SLOT : Nat := 3
@[reducible] def cmNO_SPOOL : Nat := 4
@[reducible] def cmTOO_LONG : Nat := 5
@[reducible] def cmTIMEOUT : Nat := 6
@[reducible] def cmFLASH : Nat := 7
@[reducible] def cmSTATE : Nat := 8
@[reducible] def cmUNKNOWN : Nat := 9
@[reducible] def cmNOT_READY : Nat := 10

/-- The held campaign of a number; replacing it. -/
def Dev.camp (d : Dev) (n : Nat) : Option Camp := Tab.find d.cmp.camps n
def Dev.setCamp (d : Dev) (n : Nat) (c : Camp) : Dev := { d with cmp := { d.cmp with camps := Tab.put d.cmp.camps n c } }

/-- Write a campaign's state, and for a RUNNING one its ceiling, to flash (R386). -/
def campStore (d : Dev) (n : Nat) : Dev :=
  match d.camp n with
  | none => d
  | some c =>
    let up (x : CampFlash) : CampFlash :=
      { x with state := c.state, before := (x.state, x.ceiling), ceiling := if c.state = cpRUNNING then c.esi + 1024 else x.ceiling }
    { d with cmp := { d.cmp with flash := Tab.upd d.cmp.flash n up } }

/-- The campaign unit's result to who asked. -/
def campResult (d : Dev) (w : Sys2Proof.Who) (code : Nat) : Dev :=
  if isMaster w then (d.setFld CMP_CMD_STATUS_result code).setBit CMP_CMD_STATUS_busy false else d.toCmd w code []

/-- Entry i of the spool is used by some campaign. -/
def spoolUsed (d : Dev) (i : Nat) : Bool := d.cmp.camps.any fun x => decide (x.2.spool ≤ i ∧ i < x.2.spool + x.2.k)

/-- First fit of K contiguous free spool entries: candidate starts are 0 and the end of each held campaign's entries. -/
def spoolFit (d : Dev) (k : Nat) : Option Nat :=
  let n := d.tableEntries 7
  let starts := 0 :: (d.cmp.camps.map fun x => x.2.spool + x.2.k)
  let ok := starts.filter fun s => decide (s + k ≤ n) && d.cmp.camps.all fun x => decide (s + k ≤ x.2.spool ∨ x.2.spool + x.2.k ≤ s)
  match ok with
  | [] => none
  | a :: l => some (l.foldl min a)

/-- Copy an image into the spool (R374: bytes past its end are zero). -/
def spoolLoad (d : Dev) (s k : Nat) (image : List Byte) : Dev :=
  (List.range k).foldl (fun a i => setEntry a 7 (s + i) (slice image (1024 * i) 1024)) d

/-! ### Frames (R377) -/

/-- The IE content of segment j of a coded block. (PRESUMED: log entry 76) -/
def campIe (d : Dev) (b : List Byte) (esi j : Nat) (block : List Byte) : List Byte :=
  let s := 1024 / 2 ^ cdSegLog b
  le 3 (d.fld CMP_OUI_oui) ++ [1] ++ le 1 (cdCnum b) ++ le 1 (cdSegLog b) ++ le 1 j ++ le 4 (cdImage b) ++ le 4 (cdLen b) ++ le 4 esi ++
    fit s (block.drop (j * s))

/-- The frame of a segment before security. (PRESUMED: log entry 76) -/
def campFrame (d : Dev) (b : List Byte) (esi j : Nat) (block : List Byte) : List Byte :=
  ownHeader d (cdPan b) 1 false true 2 [0xFF, 0xFF] ++ ht1 ++ payloadIe 2 (campIe d b esi j block)

/-- Octets a frame of a PAN's broadcast gains when secured. -/
def bcastGrowth (d : Dev) (p : Nat) : Nat := if bcastSecured d p then 6 + micLen (d.fld (SEC_PANp_CFG_tx_level p)) else 0

/-- A segment frame exceeds max_psdu of the bcast_mode of some slotframe of the PAN, or its airtime that slotframe's max_tx (R381). (DESIGN CHOICE: log entry 75) -/
def campTooLong (d : Dev) (b : List Byte) : Bool :=
  let p := cdPan b
  let n := (campFrame d b 0 0 []).length + bcastGrowth d p
  (panFrames d.bld.cfg p).any fun r => decide (psduRoom d r.bcastMode < n) ||
    (tplFind (d.sec 4 p) r.template).any fun k => decide (1000 * tplField (d.sec 4 p) k 0x18 < ppduNs d r.bcastMode (n + fcsLen d r.bcastMode))

/-! ### Blocks built ahead (R383) -/

/-- Keep up to 4 blocks built ahead of a RUNNING campaign; fuel bounds the submissions. (DESIGN CHOICE: log entry 77) -/
def buildAhead (n : Nat) : Nat → Dev → Dev
  | 0, d => d
  | m + 1, d =>
    match d.camp n with
    | none => d
    | some c =>
      if c.state ≠ cpRUNNING ∨ 4 ≤ c.built.length ∨ (c.built.getLast?.any fun x => x.esi == 0xFFFFFFFF) then d
      else
        let e := match c.built.getLast? with
          | none => c.esi
          | some x => esiFrom (cdImage c.desc) c.k 64 (x.esi + 1)
        match bufPut d (zeros 1024) with
        | none => d
        | some (h, d1) =>
          match hwSubmit d1 0x7C00 0x400 3 5 noFlow 8 (n * 2 ^ 32 + e) h 0 with
          | none => bufFree d1 h
          | some (t, d2) => buildAhead n m (d2.setCamp n { c with built := c.built ++ [⟨e, h, some t⟩] })

/-- Forget the blocks built: finished ones release their buffers now, those in a task when it completes. (DESIGN CHOICE: log entry 77) -/
def dropBuilt (d : Dev) (l : List Built) : Dev := (l.filter (·.task.isNone)).foldl (fun a x => bufFree a x.buf) d

/-- A task of handler 0x08 has completed: its block is ready, or its buffer is released unused (R387). -/
def blockBuilt (d : Dev) (task buf n : Nat) : Dev :=
  match d.camp n with
  | none => bufFree d buf
  | some c =>
    match c.built.find? fun x => x.task == some task with
    | none => bufFree d buf
    | some x =>
      let blocks := (List.range c.k).map fun i => entryBytes d 7 (c.spool + i)
      let d1 := bufSet d buf (codedBlock (coefs (cdImage c.desc) x.esi c.k) blocks)
      d1.setCamp n { c with built := c.built.map fun y => if y.task = some task then { y with task := none } else y }

/-- Enter a state: recorded in flash; leaving RUNNING drops the blocks built and the session. -/
def campEnter (d : Dev) (n st : Nat) : Dev :=
  match d.camp n with
  | none => d
  | some c =>
    if st = cpRUNNING then
      buildAhead n 4 (campStore (d.setCamp n { c with state := st, due := decide (cdWhistle c.desc ≠ 0) }) n)
    else campStore ((dropBuilt d c.built).setCamp n { c with state := st, built := [], session := none, due := false }) n

/-! ### Commands -/

/-- The descriptor of a CREATE: CMP_DESC0 to 7 for a master, the command's own otherwise. (DESIGN CHOICE: log entry 75) -/
def createDesc (d : Dev) (w : Sys2Proof.Who) (desc : List Byte) : List Byte :=
  if isMaster w then (List.range 8).flatMap fun m => le 4 (d.reg (CMP_DESCm m)).toNat else fit 32 desc

/-- CREATE (R381). `buf` names a Packet Buffer source; otherwise `image` holds the bytes read from host memory, none when the read took longer
than 10 ms. `flashOk` tells that flash was complete within 50 ms, `cut` that power was
lost while the campaign stood in LOADING: the core goes down. (DESIGN CHOICE: log entry 75) -/
def create (d : Dev) (w : Sys2Proof.Who) (desc : List Byte) (buf : Option Nat) (image : Option (List Byte)) (flashOk cut : Bool) : Dev :=
  let b := createDesc d w desc
  let src := match buf with
    | some h => some (bufGet d h)
    | none => image
  if d.stage < 3 then campResult d w cmNOT_READY
  else if !descOk d b then campResult d w cmRANGE
  else if (d.camp (cdCnum b)).isSome then campResult d w cmEXISTS
  else if 16 ≤ d.cmp.camps.length then campResult d w cmNO_SLOT
  else match spoolFit d (blocksOf (cdLen b)) with
    | none => campResult d w cmNO_SPOOL
    | some s =>
      if campTooLong d b then campResult d w cmTOO_LONG
      else match src with
        | none => campResult d w cmTIMEOUT
        | some img =>
          if !flashOk then campResult d w cmFLASH
          else
            let n := cdCnum b
            let st := if cut then cpLOADING else cpREADY
            let c : Camp := ⟨b, st, s, blocksOf (cdLen b), 0, 0, none, false, 0, 0, []⟩
            let d1 := spoolLoad d s c.k (fit (cdLen b) img)
            let d2 := { d1 with cmp := { d1.cmp with
              camps := Tab.put d1.cmp.camps n c, flash := Tab.put d1.cmp.flash n ⟨b, fit (cdLen b) img, st, 0, (st, 0)⟩ } }
            if cut then porAssert d2 else campResult d2 w cmOK

def execCreate (who : Sys2Proof.Who) (desc : List Byte) (buf : Option Nat) (image : Option (List Byte)) (flashOk cut : Bool)
    (s : State) : Out := s.onDev fun d => create d who desc buf image flashOk cut

/-- A command on a held campaign: permitted in some states, taking it to another (Table CAMP-3). (DESIGN CHOICE: log entry 77) -/
def campCmd (d : Dev) (w : Sys2Proof.Who) (n : Nat) (states : List Nat) (st : Nat) : Dev :=
  if d.stage < 3 then campResult d w cmNOT_READY
  else match d.camp n with
    | none => campResult d w cmUNKNOWN
    | some c => if states.contains c.state then campResult (campEnter d n st) w cmOK else campResult d w cmSTATE

def execStart (who : Sys2Proof.Who) (cnum : Nat) (s : State) : Out := s.onDev fun d => campCmd d who cnum [cpREADY] cpRUNNING
def execPause (who : Sys2Proof.Who) (cnum : Nat) (s : State) : Out := s.onDev fun d => campCmd d who cnum [cpRUNNING] cpPAUSED
def execResume (who : Sys2Proof.Who) (cnum : Nat) (s : State) : Out := s.onDev fun d => campCmd d who cnum [cpPAUSED] cpRUNNING
def execCancel (who : Sys2Proof.Who) (cnum : Nat) (s : State) : Out :=
  s.onDev fun d => campCmd d who cnum [cpREADY, cpRUNNING, cpPAUSED] cpCANCELLED

/-- DELETE (R381): spool entries and flash copy are freed. -/
def campDelete (d : Dev) (w : Sys2Proof.Who) (n : Nat) : Dev :=
  if d.stage < 3 then campResult d w cmNOT_READY
  else match d.camp n with
    | none => campResult d w cmUNKNOWN
    | some c =>
      if [cpREADY, cpDONE, cpCANCELLED, cpEXHAUSTED].contains c.state then
        let d1 := dropBuilt d c.built
        campResult { d1 with cmp := { d1.cmp with camps := Tab.del d1.cmp.camps n, flash := Tab.del d1.cmp.flash n } } w cmOK
      else campResult d w cmSTATE

def execDelete (who : Sys2Proof.Who) (cnum : Nat) (s : State) : Out := s.onDev fun d => campDelete d who cnum

/-- session_gap_s after a session closed (R384): the next is due. -/
def sessionGap (d : Dev) (n : Nat) : Dev :=
  match d.camp n with
  | none => d
  | some c => if c.state = cpRUNNING ∧ cdWhistle c.desc ≠ 0 ∧ c.session.isNone then d.setCamp n { c with due := true } else d

def execSessionGapExpiry (cnum : Nat) (s : State) : Out := s.onDev fun d => sessionGap d cnum

/-- Nodes of a campaign in some states. -/
def campNodes (d : Dev) (n : Nat) (states : List Nat) : Nat :=
  ((validNodes d).filter fun x => nodeCmpSlot d x == n && states.contains (nodeCmpState d x)).length

/-- The scan of one campaign (R385). -/
def campScanOne (d : Dev) (n : Nat) : Dev :=
  match d.camp n with
  | none => d
  | some c =>
    let enrolled := campNodes d n [1, 2, 3, 4, 5]
    let ended := campNodes d n [3, 4, 5]
    let d1 := d.setCamp n { c with enrolled := enrolled, ended := ended }
    if (c.state = cpRUNNING ∨ c.state = cpPAUSED) ∧ enrolled ≠ 0 ∧ ended = enrolled then campEnter d1 n cpDONE else d1

/-- Every 10 s while any campaign is held (R385). -/
def campScan (d : Dev) : Dev := (d.cmp.camps.map (·.1)).foldl campScanOne d

def execCampaignScan (s : State) : Out := s.onDev campScan

/-- A state write to flash has failed after 50 ms (R386): flash keeps what it held; the state stands. -/
def campWriteTimeout (d : Dev) (n : Nat) : Dev :=
  match Tab.find d.cmp.flash n with
  | none => d
  | some x =>
    let d1 := { d with cmp := { d.cmp with flash := Tab.put d.cmp.flash n { x with state := x.before.1, ceiling := x.before.2 } } }
    raise d1 192 n 0

def execCampaignStateWriteTimeout (cnum : Nat) (s : State) : Out := s.onDev fun d => campWriteTimeout d cnum

/-- CMP_CTRL.cnt_clear. -/
def cmpCntClear (d : Dev) : Dev := d.clearRegs [CMP_CNT_SENT, CMP_CNT_ERR]

def execCmpCntClear (s : State) : Out := s.onDev cmpCntClear

/-! ### Sending (R382, R384) -/

/-- A cell's target names a campaign's sectors. -/
def campTarget (c : Camp) (target : Nat) : Bool := target == 0x400FF || (within target 0x40000 0x4000F && nbit (cdSectors c.desc) (target - 0x40000))

/-- RUNNING campaigns of a PAN eligible for a cell of slot `a`, in the round robin's order. -/
def campOrder (d : Dev) (p target a : Nat) : List Nat :=
  let el := (d.cmp.camps.filter fun x => x.2.state == cpRUNNING && cdPan x.2.desc == p && campTarget x.2 target &&
    (cdWhistle x.2.desc == 0 || (x.2.session.map fun y => decide (y.asn ≤ a)).getD false)).map (·.1)
  match Tab.find d.cmp.served p with
  | none => el
  | some l => el.filter (fun n => decide (l < n)) ++ el.filter (fun n => decide (n ≤ l))

/-- A campaign has been served a cell: its session counts down (R384). -/
def sessionServed (c : Camp) : Camp := match c.session with
  | none => c
  | some x => if x.left ≤ 1 then { c with session := none } else { c with session := some { x with left := x.left - 1 } }

/-- Take the next segment of campaign n: its frame before security, and the campaign moved on. (DESIGN CHOICE: log entry 75) -/
def takeSegment (d : Dev) (n : Nat) : Option (List Byte) × Dev :=
  match d.camp n with
  | none => (none, d)
  | some c =>
    match c.built with
    | [] => (none, (buildAhead n 4 d).inc CMP_CNT_ERR_late)
    | x :: rest =>
      if x.task.isSome then (none, d.inc CMP_CNT_ERR_late)
      else
        let fr := campFrame d c.desc x.esi c.seg (bufGet d x.buf)
        let d1 := { d.setReg CMP_CNT_SENT (d.reg CMP_CNT_SENT + 1) with
          cmp := { d.cmp with served := Tab.put d.cmp.served (cdPan c.desc) n } }
        let c1 := sessionServed c
        if c.seg + 1 < 2 ^ cdSegLog c.desc then (some fr, d1.setCamp n { c1 with seg := c.seg + 1 })
        else
          let e := if x.esi = 0xFFFFFFFF then x.esi else esiFrom (cdImage c.desc) c.k 64 (x.esi + 1)
          let d2 := (bufFree d1 x.buf).setCamp n { c1 with seg := 0, esi := e, built := rest }
          if x.esi = 0xFFFFFFFF ∨ (cdLimit c.desc ≠ 0 ∧ c.k + cdLimit c.desc ≤ e) then (some fr, campEnter d2 n cpEXHAUSTED)
          else
            let near := match Tab.find d.cmp.flash n with
              | none => false
              | some fl => decide (fl.ceiling ≤ e + 1)
            (some fr, buildAhead n 4 (if near then campStore d2 n else d2))

/-! ### Restart (R386) -/

/-- Restore one campaign from flash: it resumes at its ceiling, one in LOADING is discarded and noted. (DESIGN CHOICE: log entry 77) -/
def campRestore (d : Dev) (n : Nat) (x : CampFlash) : Dev :=
  if x.state = cpLOADING then
    jNote { d with cmp := { d.cmp with flash := Tab.del d.cmp.flash n } } 0x09 4 jNOTE 1 n 0 0 1
  else match spoolFit d (blocksOf (cdLen x.desc)) with
    | none => d
    | some s =>
      let e := x.ceiling
      let c : Camp := ⟨x.desc, x.state, s, blocksOf (cdLen x.desc), esiFrom (cdImage x.desc) (blocksOf (cdLen x.desc)) 64 e, 0, none, false, 0, 0, []⟩
      let d1 := (spoolLoad d s c.k x.image).setCamp n c
      if x.state = cpRUNNING then campEnter d1 n cpRUNNING else d1

/-- At Full Brew every campaign of flash is restored. -/
def campRestoreAll (d : Dev) : Dev := d.cmp.flash.foldl (fun a x => campRestore a x.1 x.2) d

end Sys2Proof.Machine
end

