-- ==== Sys2Proof/Machine/Schedule.lean ====
section
/-! DEFINITION. Slot evaluation (08_tsch.md R206, R211 to R224), Enhanced Beacons (R219, R220) and the schedule summary
(14_start_and_self_update.md R391). -/

namespace Sys2Proof.Machine

/-! ### Enhanced Beacons -/

/-- Nested MLME IEs: short (sub-ID, content) and long. (DESIGN CHOICE: log entry 40) -/
def shortIe (id : Nat) (c : List Byte) : List Byte := le 2 (id * 256 + c.length) ++ c
/-- DESIGN CHOICE: log entry 40. -/
def longIe (id : Nat) (c : List Byte) : List Byte := le 2 (0x8000 + id * 2048 + c.length) ++ c

/-- The fields of a template in the order of the Timeslot IE; the standard's default template. -/
def tplFields (b : List Byte) (k : Nat) : List Nat := [4, 6, 8, 0x0A, 0x0C, 0x0E, 0x10, 0x12, 0x14, 0x16, 0x18, 2].map (tplField b k)
def tplDefault : List Nat := [1800, 128, 2120, 1020, 800, 1000, 2200, 400, 192, 2400, 4256, 10000]

/-- TSCH Timeslot IE of slotframe 0's template: template_id 0 alone when every field equals the default. -/
def timeslotIe (d : Dev) (p : Nat) : List Byte :=
  match panTpl d p 0 with
  | none => shortIe 0x1C [0]
  | some k =>
    let l := tplFields (d.sec 4 p) k
    shortIe 0x1C (if l = tplDefault then [0] else le 1 (tplField (d.sec 4 p) k 0) ++ l.flatMap (le 2))

/-- Channel Hopping IE of slotframe 0. (DESIGN CHOICE: log entry 40) -/
def hoppingIe (d : Dev) (p : Nat) : List Byte :=
  let hop := ((panFrame d.bld.cfg p 0).map (·.hop)).getD []
  longIe 9 ([1] ++ fit 7 (Config.hopHeader p) ++ le 2 hop.length ++ hop.flatMap (le 2) ++ le 2 0)

/-- Link options as a node reads them: mirrored tx and rx, shared, timekeeping, priority. -/
def linkOptions (w : Nat) : Nat :=
  b2n (clRx w) + 2 * b2n (clTx w) + 4 * b2n (clShared w) + 8 * b2n (clTime w) + 16 * b2n (nbit w 25)

/-- The cells of a slotframe that its beacon lists: of target 0xF_FFFF or broadcast. -/
def beaconCells (d : Dev) (p h : Nat) : List Nat :=
  ((validCells d).map (cellWord d)).filter fun w => clPan w == p && clHandle w == h && (clTarget w == 0xFFFFF || within (clTarget w) 0x40000 0x400FF)

/-- One slotframe of the Slotframe and Link IE with its first `n` links. -/
def frameIe (r : SlotframeRec) (cells : List Nat) : List Byte :=
  le 1 r.handle ++ le 2 r.length ++ le 1 cells.length ++ cells.flatMap fun w => le 2 (clSlot w) ++ le 2 (clChan w) ++ le 1 (linkOptions w)

/-- Advertised slotframes in handle order with as many links as fit in `room` octets, the highest handles left out first; the
flag tells that something was left out. -/
def fitFrames (d : Dev) (p : Nat) : List SlotframeRec → Nat → List (SlotframeRec × List Nat) × Bool
  | [], _ => ([], false)
  | r :: rs, room =>
    if room < 4 then ([], true)
    else
      let all := beaconCells d p r.handle
      let n := min (min all.length 255) ((room - 4) / 5)
      if n < all.length then ([(r, all.take n)], true)
      else
        let (l, t) := fitFrames d p rs (room - 4 - 5 * n)
        ((r, all) :: l, t)

/-- Slotframes of a PAN with advertise set, ascending by handle. -/
def advFrames (d : Dev) (p : Nat) : List SlotframeRec :=
  (List.range 64).filterMap fun h => (panFrame d.bld.cfg p h).bind fun r => if nbit r.flags 0 then some r else none

/-- The payload IEs of a PAN's beacon in at most `room` octets (Table TSCH-8). -/
def buildIes (d : Dev) (p room : Nat) : Beacon :=
  let fixed := shortIe 0x1A (zeros 6) ++ timeslotIe d p ++ hoppingIe d p
  let (fs, t) := fitFrames d p (advFrames d p) (room - (fixed.length + 5))
  ⟨payloadIe 1 (fixed ++ shortIe 0x1B (le 1 fs.length ++ fs.flatMap fun x => frameIe x.1 x.2)), t⟩

/-- Insert the ASN (R315). -/
def insertAsn (ies : List Byte) (a : Nat) : List Byte := ies.take 4 ++ le 5 a ++ ies.drop 9

/-- MAC header of a beacon with its termination IE. -/
def beaconHeader (d : Dev) (p : Nat) : List Byte := ownHeader d p 0 false true 0 [] ++ ht1

/-- PHY mode of a PAN's beacons: bcast_mode of slotframe 0. -/
def beaconMode (d : Dev) (p : Nat) : Nat := ((panFrame d.bld.cfg p 0).map (·.bcastMode)).getD 0

/-- Build the beacon of a PAN from the cells as they stand (R220); eb_trunc follows. In First Steep it is the summary's. (DESIGN CHOICE: log entry 40) -/
def buildBeacon (d : Dev) (p : Nat) : Dev :=
  if d.stage < 2 then d
  else
    let b := buildIes d p (psduRoom d (beaconMode d p) - (beaconHeader d p).length)
    let t := (setBits (BitVec.ofNat 32 (d.fld TS_STATUS_eb_trunc)) p p (b2n b.trunc)).toNat
    { d.setFld TS_STATUS_eb_trunc t with ts := { d.ts with beacons := Tab.put d.ts.beacons p b } }

/-! ### Schedule summary (R391) -/

/-- The summary copy in force: the valid one of the higher seq. -/
def summaryInForce (d : Dev) : Option (List Byte) :=
  let ok := d.ktl.summaries.filter fun e => e.2.2.1
  (ok.foldl (fun b e => match b with
    | none => some e
    | some x => if x.2.1 < e.2.1 then some e else some x) none).map fun e => e.2.2.2

/-- Ports of role 1 that serve a PAN. -/
def beaconPorts (d : Dev) (p : Nat) : List Nat := (panPorts d.topo p).filter fun n => topRole d.topo n == 1
def maskOf (l : List Nat) : Nat := (l.map fun n => 2 ^ n).sum

/-- Advertising cells of slotframe 0: slot and channel offsets. -/
def advCells (d : Dev) (p : Nat) : List (Nat × Nat) :=
  if d.stage < 2 then ((Tab.find d.ts.minimal p).map (·.2)).getD []
  else (((validCells d).map (cellWord d)).filter fun w => clPan w == p && clHandle w == 0 && clAdv w).map fun w => (clSlot w, clChan w)

/-- One PAN record. The p_req of a beacon is open from Second Steep on: `q`. -/
def panRecord (d : Dev) (p q : Nat) : List Byte :=
  match panFrame d.bld.cfg p 0 with
  | none => zeros 1024
  | some r =>
    let adv := (advCells d p).take 4
    let ies := if d.stage < 2 then ((Tab.find d.ts.beacons p).map (·.ies)).getD [] else (buildIes d p 672).ies
    let pr := if d.stage < 2 then ofSigned 16 (((Tab.find d.ts.minimal p).map (·.1)).getD 0) else ofSigned 16 (toSigned 10 (q % 1024))
    let body := le 1 1 ++ le 1 adv.length ++ le 2 (d.panId p) ++ le 2 r.length ++ le 2 r.hopLen ++ le 8 (panEpoch d p) ++
      le 8 (maskOf (beaconPorts d p)) ++ le 2 pr ++ le 2 ies.length ++ zeros 4 ++
      fit 16 (adv.flatMap fun c => le 2 c.1 ++ le 1 c.2 ++ [0]) ++
      fit 16 (((phyFind d.phy r.bcastMode).map fun k => slice d.phy (16 * k) 16).getD []) ++
      fit 32 (((tplFind (d.sec 4 p) r.template).map fun k => slice (d.sec 4 p) (32 * k) 32).getD []) ++
      fit 256 (r.hop.map (BitVec.ofNat 8)) ++ fit 672 ies
    fit 1024 body

/-- PAN slots whose schedule runs. -/
def runningPans (d : Dev) : List Nat := (List.range 8).filter fun p => nbit (d.fld TS_CTRL_pan_run) p && d.panUsed p

/-- blend_id a summary names: of the full Blend in force, in First Steep that of the summary in force. -/
def summaryBlendId (d : Dev) : Nat :=
  if d.stage < 2 then field ((summaryInForce d).getD []) 0x0C 8 else d.reg64 BLD_ACTIVE_ID_LO

/-- The bytes of a summary (Table START-2). -/
def summaryBytes (d : Dev) (seq q : Nat) : List Byte :=
  let run := runningPans d
  let carries (n : Nat) : Bool := run.any fun p => (beaconPorts d p).contains n
  let body := le 8 (summaryBlendId d) ++ zeros 44 ++
    ((List.range 64).flatMap fun n => if carries n then slice d.band (16 * n) 16 else zeros 16) ++
    (List.range 8).flatMap fun p => if run.contains p then panRecord d p q else zeros 1024
  let head := [0x50, 0x53, 0x55, 0x4D] ++ le 4 seq
  head ++ le 4 (crc32 (head ++ zeros 4 ++ body)) ++ body

/-- Write the summary to the copy of the lower seq (R391). (DEDUCED: log entry 41) (DESIGN CHOICE: log entry 80) -/
def buildSummary (d : Dev) : Dev :=
  let seqOf (k : Nat) : Nat := ((Tab.find d.ktl.summaries k).map (·.1)).getD 0
  let k := if seqOf 1 < seqOf 0 then 1 else 0
  let n := max (seqOf 0) (seqOf 1) + 1
  let (q, d1) := d.draw
  { d1 with ktl := { d1.ktl with summaries := Tab.put d1.ktl.summaries k (n, true, summaryBytes d n q) } }

/-- A change of TS_CTRL.pan_run. (DESIGN CHOICE: log entry 80) -/
def setPanRun (d : Dev) (v : Nat) : Dev :=
  if v = d.fld TS_CTRL_pan_run then d else buildSummary (d.setFld TS_CTRL_pan_run v)

/-! ### Due cells -/

/-- A due cell: index, entry, slotframe. -/
structure Due where
  cell : Nat
  w : Nat
  r : SlotframeRec
deriving DecidableEq, Repr

def Due.chan (x : Due) (a : Nat) : Nat := x.r.hop.getD ((a + clChan x.w) % max x.r.hopLen 1) 0

/-- Cells of a PAN due in slot `a` (R206), by handle and then index. (DESIGN CHOICE: log entry 42) -/
def dueCells (d : Dev) (p a : Nat) : List Due :=
  let l := (validCells d).filterMap fun c =>
    let w := cellWord d c
    if clPan w = p then
      (panFrame d.bld.cfg p (clHandle w)).bind fun r => if r.length ≠ 0 ∧ a % r.length = clSlot w then some ⟨c, w, r⟩ else none
    else none
  (List.range 64).flatMap fun h => l.filter fun x => clHandle x.w == h

/-- t0 of a transmission in slot `a` of a slotframe (R216). -/
def cellT0 (d : Dev) (p a h : Nat) : Nat := cellInstant d p a (tplUs d p h 8)

/-- Place the class 1 expectation of a cell on every head that serves the PAN (R214, R215). -/
def placeAll (d : Dev) (p a : Nat) (x : Due) : Dev :=
  let h := clHandle x.w
  let o := tplUs d p h 0x0A
  (panPorts d.topo p).foldl (fun b n =>
    (placeExp b ⟨x.cell, clTarget x.w, a, 1, x.chan a, p, n, cellInstant d p a o, cellInstant d p a (o + tplUs d p h 0x10), h⟩).2) d

/-- Request a burst for a cell: the attempt stands under its task's identifier; without one the cell is skipped with CONTEXT. (DESIGN CHOICE: log entry 44) -/
def requestCell (d : Dev) (kind mode cell h target p a port ch buf t0 : Nat) (pReq : Int) (entry : Option Nat) (charged : Nat)
    (own : Option Nat) : Dev × Bool :=
  let (g0, g1) := txArgs pReq kind mode ch port buf cell t0
  match hwSubmit d 0x6000 0x1C00 1 4 noFlow 0 g0 g1 0 with
  | none => (skip d csCONTEXT port p t0 a cell target, false)
  | some (i, d1) =>
    (setAttempts d1 (⟨some i, kind, cell, target, p, a, port, ch, entry, charged, none, t0, own, h⟩ :: d1.ts.attempts), true)

/-! ### Counters held (R224, R366, R403) -/

/-- Node-key sends under key j of a node are held: the counter is used up, its reservation is, or the restore record is not written. (DEDUCED: log entry 45) -/
def counterHeld (d : Dev) (n j : Nat) : Bool :=
  nodeTxFc d n j == 0xFFFFFFFF || (nodeTxFc d n j + 0x10000 - nodeCap d n j) % 0x10000 == 0xFFFF || d.boot.restoreWait || d.boot.restoreHeld

/-- Count a hold; the first for want of counter values raises FC_EXHAUSTED. -/
def noteHold (d : Dev) (n j : Nat) : Dev :=
  let d1 := d.inc TS_CNT_FC_ERR_exhausted
  if nodeTxFc d n j = 0xFFFFFFFF ∧ !d.ts.exhausted.contains (n * 2 + j) then
    raise { d1 with ts := { d1.ts with exhausted := (n * 2 + j) :: d1.ts.exhausted } } 112 (nodePan d n) n
  else d1

/-! ### Frames to nodes -/

/-- The entry bound to a cell in slot `a` (R218). -/
def boundTo (d : Dev) (cell a : Nat) : Option Nat :=
  (d.fwd.entries.find? fun e => e.2.cell == some cell && e.2.boundAsn == a && !e.2.up).map (·.1)

/-- What an entry was charged at its selection (R275). -/
def chargedOf (e : QEntry) : Nat := if 0 < e.retries then 0 else e.length

/-- Send a selected or bound frame in a due cell of slot `a`, or skip the cell (R213, R217, R224, R277). (DESIGN CHOICE: log entry 42) -/
def sendFrame (d : Dev) (p a : Nat) (x : Due) (i charged : Nat) (port : Option Nat) : Dev :=
  match qEntry d i with
  | none => d
  | some e =>
    let ch := x.chan a
    let t0 := cellT0 d p a (clHandle x.w)
    let back (b : Dev) (cause q : Nat) : Dev := returnFrame (skip b cause q p t0 a x.cell e.nix) i charged
    if counterHeld d e.nix e.key then back (noteHold d e.nix e.key) csCOUNTER (port.getD 0xFF)
    else match port with
      | none => back d csNO_HEAD 0xFF
      | some q =>
        if isQuiet d q ch t0 (t0 + 1) then back d csQUIET q
        else
          let d1 := if e.out then d else takeFrame d i q
          let (d2, ok) := requestCell d1 0 (nodeMode d e.nix) x.cell (clHandle x.w) e.nix p a q ch e.buf t0 (nodePReq d e.nix) (some i) charged none
          if ok then d2 else returnFrame d2 i charged

/-- The cell a node uses in slot `a` (R212): a tx cell of the lowest handle with a frame ready, else its first rx cell. -/
def nodeCell (d : Dev) (p a n : Nat) (cells : List Due) : Dev :=
  if !nodeValid d n then dropStale d n
  else
    let h := (cells.head?.map fun x => clHandle x.w).getD 0
    let mine := cells.filter fun x => clHandle x.w == h
    let rx (b : Dev) : Dev := match mine.find? fun x => clRx x.w with
      | some x => placeAll b p a x
      | none => b
    let tx := mine.filter fun x => clTx x.w
    if nodeSleepy d n then
      match tx.findSome? fun x => (boundTo d x.cell a).map fun i => (x, i) with
      | none => rx d
      | some (x, i) => match qEntry d i with
        | none => rx d
        | some e => sendFrame d p a x i (chargedOf e) e.port
    else match tx with
      | [] => rx d
      | x :: _ => match selectFrame d n with
        | (none, d1) => rx d1
        | (some (i, c), d1) => sendFrame (headFor d1 n).2 p a x i c (headFor d1 n).1

/-! ### Binding ahead (R218, R198) -/

/-- Length of a train in ns. -/
def trainNs (copies : Nat) : Nat := copies * 11000000 + (copies - 1) * 250000

/-- The first slot at or after a TB0 instant in which cell `x` falls due. -/
def occurrence (d : Dev) (p : Nat) (x : Nat × SlotframeRec) (t : Int) : Nat :=
  let n := panSlotNs d p
  let b := ((t - panEpoch d p + (n : Int) - 1) / (max n 1 : Nat)).toNat
  b + (clSlot x.1 + x.2.length - b % x.2.length) % x.2.length

/-- The earliest occurrence of a list of cells at least `need` ns from now: cell index, ASN, entry. Lower handles first on a tie. -/
def firstOccurrence (d : Dev) (p need : Nat) (sel : Nat → Bool) : Option (Nat × Nat × Nat) :=
  let l := (validCells d).filterMap fun c =>
    let w := cellWord d c
    if clPan w = p ∧ sel w then
      (panFrame d.bld.cfg p (clHandle w)).bind fun r =>
        if r.length = 0 ∨ r.length ≤ clSlot w then none else some (c, occurrence d p (w, r) ((d.tb 0).nanos + need), w)
    else none
  l.foldl (fun b y => match b with
    | none => some y
    | some z => if y.2.1 < z.2.1 ∨ (y.2.1 = z.2.1 ∧ clHandle y.2.2 < clHandle z.2.2) then some y else some z) none

/-- Arguments of a Whistle request (Table SEND-1). -/
def whistleArgs (pReq : Int) (pan ch port code copies wtype asn t0 : Nat) : Nat × Nat :=
  txArgs pReq 3 pan ch port code ((copies - 1) * 2 ^ 18 + wtype * 2 ^ 16 + asn % 65536) t0

/-- Bind the next frame of a sleepy node to its next tx cell far enough ahead, and request the train. (DESIGN CHOICE: log entry 43) -/
def bindNode (d : Dev) (p n : Nat) : Dev :=
  let copies := nodeCopies d n + 1
  let lead := 1000000 * nodeWakeLead d n
  match firstOccurrence d p (trainNs copies + lead + 2000000) fun w => clTarget w == n && clTx w with
  | none => d
  | some (c, b, w) => match selectFrame d n with
    | (none, d1) => d1
    | (some (i, charged), d1) => match qEntry d1 i with
      | none => d1
      | some e =>
        let (head, d1) := if counterHeld d n e.key then (none, d1) else headFor d1 n
        let start := cellInstant d p b 0
        let t0 := start - lead - trainNs copies
        let d2 := setQE (takeFrame d1 i (head.getD 0)) i { e with cell := some c, boundAsn := b, port := head, out := true }
        match head with
        | none => d2
        | some q =>
          let (g0, g1) := whistleArgs (nodePReq d n) p (nodeWhistleCh d n) q (nodeWakeCode d n) copies 0 b t0
          match hwSubmit d2 0x6000 0x1C00 1 4 noFlow 0 g0 g1 0 with
          | none => returnFrame (skip d2 csCONTEXT q p (cellT0 d p b (clHandle w)) b c n) i charged
          | some (k, d3) =>
            setAttempts d3 (⟨some k, 3, c, n, p, b, q, nodeWhistleCh d n, some i, charged, none, cellT0 d p b (clHandle w), none, clHandle w⟩ ::
              d3.ts.attempts)

/-- Sleepy nodes of a PAN with a frame queued and none bound. -/
def bindable (d : Dev) (p : Nat) : List Nat :=
  let down := (d.fwd.entries.map (·.2)).filter fun e => !e.up
  ((down.filter fun e => !e.out && e.cell.isNone).map (·.nix)).eraseDups.filter fun n =>
    nodeValid d n && nodeSleepy d n && nodePan d n == p && !down.any fun e => e.nix == n && e.cell.isSome

/-! ### Campaign sessions (R384) -/

/-- Ports of the request set of a campaign, ascending. -/
def sessionPorts (d : Dev) (b : List Byte) : List Nat :=
  (panPorts d.topo (cdPan b)).filter fun q => d.portState q == ylREADY && topRole d.topo q ≤ 1 && nbit (cdSectors b) (topSector d.topo q)

/-- Request the trains of a session on its ports: those of one sector one after another. -/
def sessionTrains (p : Int) (ch first asn : Nat) (b : List Byte) : List Nat → List Nat → Dev → Dev
  | [], _, d => d
  | q :: qs, sectors, d =>
    let s := topSector d.topo q
    let t0 := first + sectors.count s * (trainNs (cdCopies b + 1) + 250000)
    let (g0, g1) := whistleArgs p (cdPan b) ch q (cdGroup b) (cdCopies b + 1) (cdWhistle b) asn t0
    sessionTrains p ch first asn b qs (s :: sectors) (((hwSubmit d 0x6000 0x1C00 1 4 noFlow 0 g0 g1 0).map (·.2)).getD d)

/-- Open the session of a campaign that is due. The channel and power of a group Whistle are open. (DEDUCED: log entry 41) -/
def openSession (d : Dev) (n : Nat) : Dev :=
  match d.camp n with
  | none => d
  | some c =>
    let need := trainNs (cdCopies c.desc + 1) + 1000000 * cdLead c.desc
    match firstOccurrence d (cdPan c.desc) (need + 2000000) fun w => clCampaign w && campTarget c (clTarget w) with
    | none => d
    | some (_, b, _) =>
      let (ch, d1) := d.draw
      let (pr, d2) := d1.draw
      let ports := sessionPorts d c.desc
      let chans := max 1 (bpCount d.band (ports.headD 0))
      let d3 := d2.setCamp n { c with session := some ⟨b, cdCells c.desc⟩, due := false }
      sessionTrains (toSigned 10 (pr % 1024)) (ch % chans) (cellInstant d (cdPan c.desc) b 0 - need) b c.desc ports [] d3

/-- Campaigns of a PAN whose session is due. -/
def sessionsDue (d : Dev) (p : Nat) : List Nat :=
  (d.cmp.camps.filter fun x => x.2.state == cpRUNNING && x.2.due && cdPan x.2.desc == p).map (·.1)

/-! ### Broadcast and advertising cells -/

/-- READY heads of a broadcast scope. -/
def scopeHeads (d : Dev) (p target : Nat) : List Nat :=
  (panPorts d.topo p).filter fun q => d.portState q == ylREADY && (target == 0x400FF || topSector d.topo q == target - 0x40000)

/-- A due cell is skipped on no head in particular. -/
def skipDue (d : Dev) (cause p a : Nat) (x : Due) : Dev := skip d cause 0xFF p (cellT0 d p a (clHandle x.w)) a x.cell (clTarget x.w)

/-- Send one frame on several heads in a cell, with the same t0 on all; none without room in the Packet Buffer. The last holder of its buffer
releases it. (DESIGN CHOICE: log entry 44) -/
def sendAll (d : Dev) (kind mode p a : Nat) (x : Due) (heads : List Nat) (fr : List Byte) (pReq : Int) (entry : Option Nat) : Option Dev :=
  let t0 := cellT0 d p a (clHandle x.w)
  (bufPut d fr).map fun (h, d1) =>
    let d2 := heads.foldl (fun b q =>
      if isQuiet b q (x.chan a) t0 (t0 + 1) then skip b csQUIET q p t0 a x.cell (clTarget x.w)
      else (requestCell b kind mode x.cell (clHandle x.w) (clTarget x.w) p a q (x.chan a) h t0 pReq entry 0 (some h)).1) d1
    let d3 := if d2.ts.attempts.any fun y => y.buf == some h then d2 else bufFree d2 h
    match entry with
    | none => d3
    | some e =>
      if d3.ts.attempts.any fun y => y.entry == some e && decide (0x40000 ≤ y.target) then d3
      else { d3 with fwd := { d3.fwd with bcast := Tab.put d3.fwd.bcast (bcastKey p (clTarget x.w))
                                            (e :: Tab.getD d3.fwd.bcast (bcastKey p (clTarget x.w)) []) } }

/-- Secure and send a broadcast frame or a campaign segment that `taken` no longer holds. Under a key that cannot be used, or without room, the cell
is skipped and `d` keeps the frame (R217). (DESIGN CHOICE: log entry 44) -/
def sendBroadcast (f : Fuses) (d taken : Dev) (p a : Nat) (x : Due) (heads : List Nat) (fr : List Byte) (entry : Option Nat) : Dev :=
  match secureBcast f taken p a fr with
  | (none, _) => skipDue (secureBcast f d p a fr).2 csCOUNTER p a x
  | (some b, d1) =>
    let (q, d2) := d1.draw
    (sendAll d2 0 x.r.bcastMode p a x heads b (toSigned 10 (q % 1024)) entry).getD (skipDue d csCONTEXT p a x)

/-- A broadcast tx cell (Table TSCH-5, R360, R382). (DEDUCED: log entry 41) (DESIGN CHOICE: log entry 51) -/
def broadcastCell (f : Fuses) (d : Dev) (p a : Nat) (x : Due) : Dev :=
  let t := clTarget x.w
  let key := bcastKey p t
  let heads := scopeHeads d p t
  let camp := campOrder d p t a
  let queue := Tab.getD d.fwd.bcast key []
  let due := if clCampaign x.w then d.bit CMP_CTRL_send_en && !camp.isEmpty else !queue.isEmpty
  if !due then d
  else if bcastSecured d p && !bcastReady d p then skipDue d csCOUNTER p a x
  else if heads.isEmpty then skipDue d csNO_HEAD p a x
  else if clCampaign x.w then
    match takeSegment d (camp.headD 0) with
    | (none, d1) => d1
    | (some fr, d1) => sendBroadcast f d d1 p a x heads fr none
  else match queue with
    | [] => d
    | h :: rest =>
      sendBroadcast f d { d with fwd := { d.fwd with bcast := Tab.put d.fwd.bcast key rest } } p a x heads (bufGet d h) (some h)

/-- Send the beacon of a PAN in a cell on its beacon heads (R219, R220); its power is open from Second Steep on. (DEDUCED: log entry 41) -/
def beaconCell (d : Dev) (p a : Nat) (x : Due) : Dev :=
  let d1 := buildBeacon d p
  let ies := ((Tab.find d1.ts.beacons p).map (·.ies)).getD []
  let (q, d2) := if d.stage < 2 then (0, d1) else d1.draw
  let pr := if d.stage < 2 then ((Tab.find d.ts.minimal p).map (·.1)).getD 0 else toSigned 10 (q % 1024)
  (sendAll d2 2 (beaconMode d p) p a x (beaconPorts d p) (beaconHeader d p ++ insertAsn ies a) pr none).getD (skipDue d2 csCONTEXT p a x)

/-! ### Evaluation (R213) -/

/-- Bursts that lie in a slot on a channel of the heads that serve a PAN and are not on air yet are skipped (R213). -/
def quietBursts (d : Dev) (p a c : Nat) : Dev :=
  let t0 := cellInstant d p a 0
  let t1 := cellInstant d p (a + 1) 0
  let hit_ (b : Burst) : Bool := !b.onAir && b.req.channel == c && needsHead d b.req.port && topServes d.topo b.req.port p && decide (b.t0 < t1 ∧ t0 < b.t1)
  ((d.tx.bursts.filter fun e => hit_ e.2).map (·.1)).foldl (fun b k => match Tab.find b.tx.bursts k with
    | some x => burstLost b x csQUIET
    | none => b) d

/-- A quiet cell: the peer's beacon is expected, the channel kept free of every transmission of the device (R213, R232). (DESIGN CHOICE: log entry 42) -/
def quietCell (p a : Nat) (d : Dev) (x : Due) : Dev :=
  let k := clTarget x.w - 0x40200
  let d1 := if clTime x.w || clRx x.w then placeAll d p a x else d
  let pr := d1.peer k
  let o := tplUs d p (clHandle x.w) 0x0A
  let e : OpenBeacon := ⟨x.cell, a, p, x.chan a, cellInstant d p a o, cellInstant d p a (o + tplUs d p (clHandle x.w) 0x10), false⟩
  let d2 := if pr.state = 1 ∧ clRx x.w then d1.setPeer k { pr with open_ := pr.open_ ++ [e] } else d1
  quietBursts { d2 with ts := { d2.ts with quiet := (p, a, x.chan a) :: d2.ts.quiet } } p a (x.chan a)

/-- Forget quiet cells whose slot is over, and give back frames bound to a slot that has passed without an attempt. -/
def purgeSlots (d : Dev) (p a : Nat) : Dev :=
  let d1 := { d with ts := { d.ts with quiet := d.ts.quiet.filter fun q => decide (d.ns < cellInstant d q.1 (q.2.1 + 1) 0) } }
  let old := (d1.fwd.entries.filter fun e => e.2.cell.isSome && e.2.pan == p && decide (e.2.boundAsn < a) &&
    !d1.ts.attempts.any fun x => x.entry == some e.1 && decide (x.target < 0x40000)).map fun e => (e.1, chargedOf e.2)
  old.foldl (fun b e => returnFrame b e.1 e.2) d1

/-- The minimal schedule of First Steep: the advertising cells of the summary. -/
def minimalSlot (d : Dev) (p a : Nat) : Dev :=
  match panFrame d.bld.cfg p 0 with
  | none => d
  | some r => (advCells d p).foldl (fun b c =>
      if r.length ≠ 0 ∧ a % r.length = c.1 then
        -- a cell word that holds the slotframe handle 0, the offsets and target 0xF_FFFF
        beaconCell b p a ⟨noCell, c.1 * 2 ^ 38 + c.2 * 2 ^ 30 + 2 ^ 24 + 0xFFFFF, r⟩
      else b) d

/-- The full schedule. -/
def fullSlot (f : Fuses) (d : Dev) (p a : Nat) : Dev :=
  let d0 := (sessionsDue d p).foldl openSession ((bindable d p).foldl (fun b n => bindNode b p n) (purgeSlots d p a))
  let due := dueCells d0 p a
  let isQ (x : Due) : Bool := within (clTarget x.w) 0x40200 0x4020F
  let isNode (x : Due) : Bool := decide (clTarget x.w < 0x40000)
  let d1 := (due.filter isQ).foldl (quietCell p a) d0
  let d2 := ((due.filter isNode).map fun x => clTarget x.w).eraseDups.foldl (fun b n =>
    nodeCell b p a n (due.filter fun x => clTarget x.w == n)) d1
  (due.filter fun x => !isQ x && !isNode x).foldl (fun b x =>
    if clAdv x.w then beaconCell b p a x
    else if clTarget x.w = 0xFFFFF then placeAll b p a x
    else broadcastCell f b p a x) d2

/-- The configuration under which slot `a` of a PAN is evaluated (R50, R213). -/
def inForce (d : Dev) (p a : Nat) : List Section :=
  match d.bld.pending with
  | none => d.bld.cfg
  | some x => match Tab.find x.boundary p with
    | none => d.bld.cfg
    | some b => if b ≤ a ∧ !nbit x.switched p then applyDelta d.bld.cfg (x.sections.filter fun s => (s.type == 4 || s.type == 5) && s.inst == p)
                else d.bld.cfg

/-- The scheduler evaluates slot `a` of PAN slot `p` (R213): the minimal schedule before Second Steep, then the full one; a running PAN that
the Blend does not carry clears its pan_run bit (R398). (DESIGN CHOICE: log entry 43) -/
def slotEvaluation (p a : Nat) (f : Fuses) (d : Dev) : Dev :=
  let running (b : Dev) (on : Bool) : Dev := b.setFld TS_STATUS_running (setBits (BitVec.ofNat 32 (b.fld TS_STATUS_running)) p p (b2n on)).toNat
  if 8 ≤ p then d
  else if !nbit (d.fld TS_CTRL_pan_run) p then running d false
  else if !d.panUsed p then
    if d.stage < 2 then d else running (setPanRun d (d.fld TS_CTRL_pan_run &&& (255 - 2 ^ p))) false
  else
    let cfg := d.bld.cfg
    let d1 := openSlot { d with bld := { d.bld with cfg := inForce d p a } } p a
    let d2 := if d.stage < 2 then minimalSlot d1 p a else fullSlot f d1 p a
    running { d2 with bld := { d2.bld with cfg := cfg } } true

def execSlotEvaluation (pan asn : Nat) (s : State) : Out := s.onDevF (slotEvaluation pan asn)

end Sys2Proof.Machine
end

