-- ==== Sys2Proof/Machine/Tables.lean ====
section
/-! DEFINITION. The table units (09_tables.md R242 to R261): operations of the request port, learning and ageing. -/

namespace Sys2Proof.Machine

/-- Results of Table TABLE-9. -/
@[reducible] def tbOK : Nat := 0x00
@[reducible] def tbMISS : Nat := 0x01
@[reducible] def tbFULL : Nat := 0x02
@[reducible] def tbEXISTS : Nat := 0x03
@[reducible] def tbRANGE : Nat := 0x04
@[reducible] def tbCAS_FAIL : Nat := 0x05
@[reducible] def tbNOT_PERMITTED : Nat := 0x06
@[reducible] def tbPAN_FULL : Nat := 0x07
@[reducible] def tbIN_USE : Nat := 0x08
@[reducible] def tbTIMEOUT : Nat := 0x09
@[reducible] def tbMEM_ERR : Nat := 0x0A
@[reducible] def tbNOT_READY : Nat := 0x0B

/-! ### Request ports -/

/-- Number of a requester's port: 0 firmware, 1 + engine. -/
def portKey : Sys2Proof.Master → Nat
  | .engine e => 1 + e
  | _ => 0

/-- Handlers and firmware have a request port; nobody else (Table TABLE-8). -/
def hasPort : Sys2Proof.Master → Bool
  | .engine _ | .cc _ => true
  | _ => false
def isFirmware : Sys2Proof.Master → Bool
  | .cc _ => true
  | _ => false

def Dev.reqPort (d : Dev) (m : Sys2Proof.Master) : ReqPort := Tab.getD d.tbl.ports (portKey m) ⟨0, 0, zeros 16, 0, 0, 0, 0, zeros 64⟩
def Dev.setReqPort (d : Dev) (m : Sys2Proof.Master) (x : ReqPort) : Dev :=
  if !hasPort m then d else { d with tbl := { d.tbl with ports := Tab.put d.tbl.ports (portKey m) x } }

/-- End a request: result, FOUND and DATA. -/
def reqEnd (d : Dev) (m : Sys2Proof.Master) (r found : Nat) (data : List Byte) : Dev :=
  d.setReqPort m { d.reqPort m with result := r, found := found, data := fit 64 data }

/-- End a request that changes nothing but its status. -/
def reqFail (d : Dev) (m : Sys2Proof.Master) (r : Nat) : Dev := d.setReqPort m { d.reqPort m with result := r }

/-- End a request with its result and, in FOUND, the index written (Table TABLE-7). (DEDUCED: log entry 48) -/
def reqFound (d : Dev) (m : Sys2Proof.Master) (r found : Nat) : Dev := d.setReqPort m { d.reqPort m with result := r, found := found }

/-- A poisoned word lies in an entry (R432). -/
def poisoned (d : Dev) (t i : Nat) : Bool :=
  let a := entryAddr d t i
  d.tbl.poison.any fun x => decide (x < a + tableEntrySize t ∧ a < x + 8)

/-- The first poisoned entry among those of a table that an operation reads. -/
def poisonIn (d : Dev) (t : Nat) (es : List Nat) : Option Nat := es.find? (poisoned d t)

/-- The entries of the candidate buckets of a key. -/
def bucketsRead (d : Dev) (t : Nat) (k : List Byte) : List Nat :=
  let c := candidates d t k
  bucketSlots d t (field k 1 1) c.1 ++ bucketSlots d t (field k 1 1) c.2

/-- MEM_ERR: counted, event raised for the logical bank (Table TABLE-9). -/
def noteMemErr (d : Dev) (t i : Nat) : Dev := raise (d.inc TBL_CNT_ERR_mem_err) 128 (entryAddr d t i / 0x100000) 0
def memErr (d : Dev) (m : Sys2Proof.Master) (t i : Nat) : Dev := noteMemErr (reqFail d m tbMEM_ERR) t i

/-- The queue chain bytes next_q and next_n of an entry (Table FWD-3). -/
def nextIn (l : List Nat) (i : Nat) : Nat := (((l.dropWhile (· != i)).drop 1).head?).getD 0xFFFF

/-- The 64 bytes of a queue entry; zero when it is not in use. -/
def qEntryBytes (d : Dev) (i : Nat) : List Byte :=
  match qEntry d i with
  | none => zeros 64
  | some e =>
    let q := qList d e.queue
    let same := q.filter fun j => ((qEntry d j).map fun x => x.nix == e.nix).getD false
    let ctrl := 2 ^ 31 + (if e.up then 0 else 2 ^ 30) + e.cls * 2 ^ 27 + b2n e.yellow * 2 ^ 26 + b2n e.fragment * 2 ^ 25 + b2n e.last * 2 ^ 24 + e.nix
    fit 64 (le 2 (nextIn q i) ++ le 2 (nextIn same i) ++ le 4 ctrl ++ le 4 e.buf ++ le 2 e.length ++ le 1 e.sector ++ le 1 e.retries ++
      le 4 e.txFc ++ le 1 e.key ++ le 1 e.pan ++ le 2 e.tag ++ le 8 e.enq ++ le 4 (e.cell.getD noCell) ++ le 1 (e.port.getD 0xFF))

/-- The 16 bytes of an expectation (Table TSCH-6). -/
def expBytes (d : Dev) (h : Nat) : List Byte :=
  match Tab.find d.ts.exps h with
  | none => zeros 16
  | some e => le 4 e.cell ++ le 4 e.target ++ le 5 e.asn ++ le 1 e.cls ++ le 1 e.channel ++ le 1 e.pan

/-- Table 8 (R454): event log in entries 0 to 2,047, trace ring in 2,048 to 34,815, by ring position. How the staging area after them holds
its units the spec does not say: free values. -/
def traceEntry (d : Dev) (i : Nat) : List Byte :=
  if i < 2048 then (d.tel.log[(d.tel.logNext + 2048 * 2097152 - 1 - i) % 2048]?).getD (zeros 32)
  else if i < 34816 then (d.tel.trace[(d.fld TEL_TRACE_POS_pos + 32768 - 1 - (i - 2048)) % 32768]?).getD (zeros 32)
  else (List.range 32).map fun k => BitVec.ofNat 8 (Config.freeValue (32 * i + k))

/-- The bytes a READ of a table's entry sees. (DESIGN CHOICE: log entry 19) -/
def tableBytes (d : Dev) (t i : Nat) : List Byte :=
  if t = 6 then qEntryBytes d i else if t = 8 then traceEntry d i else if t = 9 then expBytes d i else entryBytes d t i

/-- Entry count of a table, the expectation ring included. -/
def entriesOf (d : Dev) (t : Nat) : Nat := if t = 9 then 65535 else d.tableEntries t

/-- READ (Table TABLE-8): the entry, or 64 bytes of a source block of table 7. -/
def tableRead (d : Dev) (m : Sys2Proof.Master) (t i part : Nat) : Dev :=
  if !d.bit TBL_STATUS_accepting then reqFail d m tbNOT_READY
  else if !hasPort m || decide (9 < t) then reqFail d m tbNOT_PERMITTED
  else if entriesOf d t ≤ i then reqFail d m tbRANGE
  else if t ≤ 8 ∧ poisoned d t i then memErr d m t i
  else reqEnd d m tbOK i (if t = 7 then slice (tableBytes d t i) (64 * (part % 16)) 64 else tableBytes d t i)

def execTableRead (m : Sys2Proof.Master) (table index part : Nat) (s : State) : Out := s.onDev fun d => tableRead d m table index part

/-- A write that changes a node's best_sector moves its queued frames (R274). -/
def sectorMoved (d : Dev) (n old : Nat) : Dev := if nodeSector d n = old then d else moveSector d n (nodeSector d n)

/-- WRITE to a Node entry: valid, pan_slot and addr_refs keep their stored values (Table TABLE-8). -/
def writeNode (d : Dev) (n : Nat) (bs : List Byte) : Dev :=
  let keep : Word := bitMask 31 28 ||| bitMask 23 22
  let ctrl := (BitVec.ofNat 32 (nodeCtrl d n) &&& keep) ||| (BitVec.ofNat 32 (field bs 0 4) &&& ~~~ keep)
  sectorMoved (setEntry d 0 n (le 4 ctrl.toNat ++ (fit 64 bs).drop 4)) n (nodeSector d n)

/-- WRITE (Table TABLE-8). -/
def tableWrite (d : Dev) (m : Sys2Proof.Master) (t i : Nat) (bs : List Byte) : Dev :=
  if !d.bit TBL_STATUS_accepting then reqFail d m tbNOT_READY
  else if !hasPort m || (t != 0 && t != 5) then reqFail d m tbNOT_PERMITTED
  else if entriesOf d t ≤ i then reqFail d m tbRANGE
  else if poisoned d t i then memErr d m t i
  else reqFound (if t = 0 then writeNode d i bs else setEntry d 5 i bs) m tbOK i

def execTableWrite (m : Sys2Proof.Master) (table index : Nat) (data : List Byte) (s : State) : Out :=
  s.onDev fun d => tableWrite d m table index data

/-! ### Keyed tables -/

/-- A key string is well formed (Table TABLE-2). -/
def keyOk (t : Nat) (k : List Byte) : Bool :=
  k.length == 16 && field k 2 6 == 0 &&
  (if t = 1 then decide (field k 0 1 ≤ 2) && decide (field k 1 1 ≤ 7) && (field k 0 1 != 0 || field k 10 6 == 0)
   else field k 0 1 == 3 && decide (field k 1 1 ≤ 15) && field k 12 4 == 0)

/-- LOOKUP (R246): FOUND and the entry, or MISS. -/
def tableLookup (d : Dev) (m : Sys2Proof.Master) (t : Nat) (k : List Byte) (changed : Nat) : Dev :=
  if !d.bit TBL_STATUS_accepting then reqFail d m tbNOT_READY
  else if !hasPort m || (t != 1 && t != 2) then reqFail d m tbNOT_PERMITTED
  else if !keyOk t k then reqFail d m tbRANGE
  else
    let (found, d1) := keyedLookup d t k changed
    match poisonIn d1 t (bucketsRead d1 t k), found with
    | some e, _ => memErr d1 m t e
    | none, none => reqFail d1 m tbMISS
    | none, some e => reqEnd d1 m tbOK (entryField d1 t e (if t = 1 then 0x10 else 0) 4 % 2 ^ 20) (entryBytes d1 t e)

def execTableLookup (m : Sys2Proof.Master) (table : Nat) (key : List Byte) (changed : Nat) (s : State) : Out :=
  s.onDev fun d => tableLookup d m table key changed

/-- The lowest free slot of a bucket. -/
def freeSlot (d : Dev) (t sector b : Nat) : Option Nat := (bucketSlots d t sector b).find? fun e => !slotValid d t e

/-- The other candidate bucket of the occupant of an Address entry, seen from bucket `x`. -/
def otherBucket (d : Dev) (e x : Nat) : Nat :=
  let c := candidates d 1 (slice (entryBytes d 1 e) 0 16)
  if c.1 = x then c.2 else c.1

/-- Breadth-first search of R244: a queue of buckets with the moves that lead to them, latest first; `reads` bounds the bucket reads. A bucket
already found is not taken again. The answer is the path of moves (entry, bucket it goes to), the last move first, and the buckets read. -/
def searchPath (d : Dev) : Nat → List (Nat × List (Nat × Nat)) → List (Nat × Nat × List (Nat × Nat)) → List Nat → Option (List (Nat × Nat)) × List Nat
  | 0, _, _, seen => (none, seen)
  | _ + 1, [], [], seen => (none, seen)
  | n + 1, (x, path) :: rest, [], seen =>
    -- open the next bucket: its occupants in slot order
    if 4 ≤ path.length then searchPath d n rest [] seen
    else searchPath d n rest ((bucketSlots d 1 0 x).map fun e => (e, otherBucket d e x, path)) seen
  | n + 1, q, (e, y, path) :: todo, seen =>
    if seen.contains y then searchPath d n q todo seen
    else if 256 ≤ seen.length then (none, seen)
    else if (freeSlot d 1 0 y).isSome then (some ((e, y) :: path), y :: seen)
    else searchPath d n (q ++ [(y, (e, y) :: path)]) todo (y :: seen)

/-- Relocate an occupant (R245): copied to the lowest free slot of its other bucket, then cleared at its source; both versions bumped. -/
def relocate (d : Dev) (e y : Nat) : Dev :=
  match freeSlot d 1 0 y with
  | none => d
  | some f =>
    let d1 := bumpVersion (setEntry d 1 f (entryBytes d 1 e)) 1 0 y
    bumpVersion (setEntry d1 1 e (zeros 32)) 1 0 (e / 4)

/-- Bytes of a new Address entry (Table TABLE-4). -/
def addrEntry (d : Dev) (k : List Byte) (nix : Nat) : List Byte := k ++ le 4 (2 ^ 31 + nix) ++ le 4 d.secs ++ zeros 8

/-- Place an entry in bucket `b` when it has a free slot. -/
def placeIn (d : Dev) (t sector b : Nat) (bs : List Byte) : Option (Nat × Dev) :=
  (freeSlot d t sector b).map fun f => (f, bumpVersion (setEntry d t f bs) t sector b)

/-- Change addr_refs of a node. -/
def refs (d : Dev) (n : Nat) (up : Bool) : Dev := setNodeCtrl d n 23 22 (if up then nodeRefs d n + 1 else nodeRefs d n - 1)

/-- An operation meets a poisoned word: MEM_ERR, nothing written (Table TABLE-9). -/
def memFail (d : Dev) (t i : Nat) : Nat × Nat × Dev := (tbMEM_ERR, 0, noteMemErr d t i)

/-- Address INSERT (R243, R244): the result, the index written and the state. (DEDUCED: log entry 48) -/
def insertAddr (d : Dev) (k : List Byte) (nix : Nat) : Nat × Nat × Dev :=
  let c := candidates d 1 k
  let e := addrEntry d k nix
  if poisoned d 0 nix then memFail d 0 nix
  else if !nodeValid d nix || nodePan d nix != field k 1 1 || decide (3 ≤ nodeRefs d nix) then (tbRANGE, 0, d)
  else match poisonIn d 1 (bucketsRead d 1 k) with
  | some i => memFail d 1 i
  | none =>
  if (keyFind d 1 k).isSome then (tbEXISTS, 0, d)
  else match (placeIn d 1 0 c.1 e).or (placeIn d 1 0 c.2 e) with
    | some (i, d1) => (tbOK, i, refs d1 nix true)
    | none =>
      let (way, seen) := searchPath d 2000 [(c.1, []), (c.2, [])] [] [c.1, c.2]
      match poisonIn d 1 (seen.flatMap (bucketSlots d 1 0)), way with
      | some i, _ => memFail d 1 i
      | none, none => (tbFULL, 0, d.inc TBL_CNT_INSERT_full)
      | none, some path =>
        let d1 := path.foldl (fun a mv => relocate a mv.1 mv.2) d
        match (placeIn d1 1 0 c.1 e).or (placeIn d1 1 0 c.2 e) with
        | some (i, d2) => (tbOK, i, refs d2 nix true)
        | none => (tbFULL, 0, d1)

/-- Hearing INSERT (R250): the entry goes to a free slot, or evicts the oldest of the eight. -/
def insertHear (d : Dev) (sector nix : Nat) (bs : List Byte) : Nat × Nat × Dev :=
  let k := hearKey sector nix
  let c := candidates d 2 k
  let e := le 4 (field bs 0 4 &&& 0x60000000 ||| 0x80000000 ||| nix) ++ (fit 16 bs).drop 4
  match poisonIn d 2 (bucketsRead d 2 k) with
  | some i => memFail d 2 i
  | none =>
  if (keyFind d 2 k).isSome then (tbEXISTS, 0, d)
  else match (placeIn d 2 sector c.1 e).or (placeIn d 2 sector c.2 e) with
    | some (i, d1) => (tbOK, i, d1)
    | none =>
      let age (x : Nat) := (d.ms + 2 ^ 32 - entryField d 2 x 4 4) % 2 ^ 32
      let slots := bucketSlots d 2 sector c.1 ++ bucketSlots d 2 sector c.2
      let old := slots.foldl (fun b x => if age b < age x then x else b) (slots.headD 0)
      let b := if (bucketSlots d 2 sector c.1).contains old then c.1 else c.2
      (tbOK, old, bumpVersion ((setEntry d 2 old e).inc TBL_CNT_INSERT_evicted) 2 sector b)

/-- Node INSERT (R242). -/
def insertNode (d : Dev) (n : Nat) (bs : List Byte) : Nat × Nat × Dev :=
  let ctrl := field bs 0 4
  let p := nbits ctrl 30 28
  if d.tableEntries 0 ≤ n then (tbRANGE, 0, d)
  else if poisoned d 0 n then memFail d 0 n
  else if nodeValid d n then (tbEXISTS, 0, d)
  else if !nbit ctrl 31 || !d.panUsed p then (tbRANGE, 0, d)
  else if topMaxNodes d.topo p ≤ (panNodes d p).length then (tbPAN_FULL, 0, d)
  else (tbOK, n, setNodeCtrl (setEntry d 0 n bs) n 23 22 0)

/-- INSERT (Table TABLE-8): firmware only. `index` is the NIX, `sector` that of a Hearing entry. -/
def tableInsert (d : Dev) (m : Sys2Proof.Master) (t index sector : Nat) (k data : List Byte) : Dev :=
  if !d.bit TBL_STATUS_accepting then reqFail d m tbNOT_READY
  else if !isFirmware m || decide (2 < t) then reqFail d m tbNOT_PERMITTED
  else
    let (r, i, d1) := if t = 0 then insertNode d index data
      else if t = 1 then (if keyOk 1 k then insertAddr d k index else (tbRANGE, 0, d))
      else if 16 ≤ sector ∨ d.tableEntries 0 ≤ index then (tbRANGE, 0, d) else insertHear d sector index data
    if r = tbOK then reqFound d1 m r i else reqFail d1 m r

def execTableInsert (m : Sys2Proof.Master) (table index sector : Nat) (key data : List Byte) (s : State) : Out :=
  s.onDev fun d => tableInsert d m table index sector key data

/-- Clear a Hearing entry. -/
def clearHear (d : Dev) (sector nix : Nat) : Dev :=
  match keyFind d 2 (hearKey sector nix) with
  | none => d
  | some e => setEntry d 2 e (zeros 16)

/-- A poisoned entry among those that a REMOVE reads: table and index. -/
def removePoison (d : Dev) (t index sector : Nat) (k : List Byte) : Option (Nat × Nat) :=
  let hear (s : Nat) : List Nat := bucketsRead d 2 (hearKey s index)
  if t = 0 then
    if d.tableEntries 0 ≤ index then none
    else if poisoned d 0 index then some (0, index)
    else (poisonIn d 2 ((List.range 16).flatMap hear)).map fun i => (2, i)
  else if t = 1 then (if keyOk 1 k then (poisonIn d 1 (bucketsRead d 1 k)).map fun i => (1, i) else none)
  else if 16 ≤ sector then none else (poisonIn d 2 (hear sector)).map fun i => (2, i)

/-- REMOVE of each table (R242, R243): the result and the state. -/
def removeEntry (d : Dev) (t index sector : Nat) (k : List Byte) : Nat × Dev :=
  match removePoison d t index sector k with
  | some x => (tbMEM_ERR, noteMemErr d x.1 x.2)
  | none =>
  if t = 0 then
    if d.tableEntries 0 ≤ index then (tbRANGE, d)
    else if !nodeValid d index then (tbMISS, d)
    else if 0 < nodeRefs d index then (tbIN_USE, d)
    else (tbOK, (List.range 16).foldl (fun a s => clearHear a s index) (setNodeCtrl d index 31 31 0))
  else if t = 1 then
    if !keyOk 1 k then (tbRANGE, d)
    else match keyFind d 1 k with
      | none => (tbMISS, d)
      | some e =>
        let nix := entryField d 1 e 0x10 4 % 2 ^ 20
        (tbOK, refs (bumpVersion (setEntry d 1 e (zeros 32)) 1 0 (e / 4)) nix false)
  else if 16 ≤ sector then (tbRANGE, d)
  else if (keyFind d 2 (hearKey sector index)).isNone then (tbMISS, d) else (tbOK, clearHear d sector index)

/-- REMOVE (Table TABLE-8). -/
def tableRemove (d : Dev) (m : Sys2Proof.Master) (t index sector : Nat) (k : List Byte) : Dev :=
  if !d.bit TBL_STATUS_accepting then reqFail d m tbNOT_READY
  else if !isFirmware m || decide (2 < t) then reqFail d m tbNOT_PERMITTED
  else reqFail (removeEntry d t index sector k).2 m (removeEntry d t index sector k).1

def execTableRemove (m : Sys2Proof.Master) (table index sector : Nat) (key : List Byte) (s : State) : Out :=
  s.onDev fun d => tableRemove d m table index sector key

/-! ### Field operations -/

/-- Check of CAS, ADD and MAX (R257): 0 when the field may be operated on. -/
def fieldCheck (d : Dev) (m : Sys2Proof.Master) (t i off : Nat) (wide : Bool) : Nat :=
  if !d.bit TBL_STATUS_accepting then tbNOT_READY
  else if !hasPort m || (t != 0 && t != 5) then tbNOT_PERMITTED
  else if entriesOf d t ≤ i ∨ off % 4 ≠ 0 ∨ tableEntrySize t < off + (if wide then 8 else 4) ∨ (t = 0 ∧ off = 0) then tbRANGE
  else if poisoned d t i then tbMEM_ERR
  else tbOK

/-- A field operation: `f` gives from the field the result, the new value and what DATA shows. -/
def fieldOp (d : Dev) (m : Sys2Proof.Master) (t i off : Nat) (wide : Bool) (f : Nat → Nat × Nat × List Byte) : Dev :=
  let r := fieldCheck d m t i off wide
  let len := if wide then 8 else 4
  let v := entryField d t i off len
  if r = tbMEM_ERR then memErr d m t i
  else if r ≠ tbOK then reqFail d m r
  else
    let d1 := setEntryField d t i off len (f v).2.1
    reqEnd (if t = 0 then sectorMoved d1 i (nodeSector d i) else d1) m (f v).1 i (f v).2.2

/-- An operand as wide as the field. -/
def fieldCut (wide : Bool) (v : Nat) : Nat := v % 2 ^ (if wide then 64 else 32)

/-- CAS, ADD and MAX (Table TABLE-8). -/
def casField (d : Dev) (m : Sys2Proof.Master) (t i off : Nat) (wide : Bool) (arg new : Nat) : Dev :=
  fieldOp d m t i off wide fun v => if v = fieldCut wide arg then (tbOK, fieldCut wide new, []) else (tbCAS_FAIL, v, le 8 v)
def addField (d : Dev) (m : Sys2Proof.Master) (t i off : Nat) (wide : Bool) (arg : Nat) : Dev :=
  fieldOp d m t i off wide fun v => (tbOK, min (v + fieldCut wide arg) (2 ^ (if wide then 64 else 32) - 1), [])
def maxField (d : Dev) (m : Sys2Proof.Master) (t i off : Nat) (wide : Bool) (arg : Nat) : Dev :=
  fieldOp d m t i off wide fun v => (tbOK, max v (fieldCut wide arg), [])

def execTableCas (m : Sys2Proof.Master) (table index off : Nat) (wide : Bool) (arg new : Nat) (s : State) : Out :=
  s.onDev fun d => casField d m table index off wide arg new

def execTableAdd (m : Sys2Proof.Master) (table index off : Nat) (wide : Bool) (arg : Nat) (s : State) : Out :=
  s.onDev fun d => addField d m table index off wide arg

def execTableMax (m : Sys2Proof.Master) (table index off : Nat) (wide : Bool) (arg : Nat) (s : State) : Out :=
  s.onDev fun d => maxField d m table index off wide arg

/-! ### Merges, learning, ageing -/

/-- RSSI byte of a value in 0.25 dBm (R247). -/
def rssiByte (r : Int) : Nat := (clampInt ((r + 561) / 2) 1 255).toNat

/-- Insert a (port, RSSI byte) by RSSI byte, descending, lower port first on a tie. -/
def hearIns (x : Nat × Nat) : List (Nat × Nat) → List (Nat × Nat)
  | [] => [x]
  | y :: ys => if y.2 < x.2 ∨ (x.2 = y.2 ∧ x.1 < y.1) then x :: y :: ys else y :: hearIns x ys

/-- The ports of a frame that take part in a sector, with their RSSI bytes, best first (R248). -/
def takingPart (d : Dev) (sector : Nat) (ports rssis : List Byte) : List (Nat × Nat) :=
  ((List.range 4).filterMap fun k =>
    let p := field ports k 1
    if p < 64 ∧ topUsed d.topo p ∧ topSector d.topo p = sector then some (p, rssiByte (signed16 (field rssis (2 * k) 2))) else none).foldr hearIns []

/-- The unit that runs the requests of a Hearing key: that of its first candidate bucket (R238, R240). -/
def hearUnit (d : Dev) (sector nix : Nat) : Nat :=
  entryAddr d 2 (bucketEntry d 2 sector (candidates d 2 (hearKey sector nix)).1) / 0x100000

/-- A learn notice (R249); each unit keeps its own last 256 pairs. (DESIGN CHOICE: log entry 105) -/
def learnNotice (d : Dev) (sector nix lqi : Nat) (best : Nat × Nat) : Dev :=
  let key := sector * 2 ^ 20 + nix
  let q := d.fld TBL_LEARN_CFG_wq
  let u := hearUnit d sector nix
  let l := Tab.getD d.tbl.learned u []
  if !d.bit TBL_CTRL_learn_en || (l.any fun x => x.1 == key && decide (d.ms < x.2 + d.fld TBL_LEARN_CFG_suppress_ms)) then d
  else if !wqCredit d q then d.inc TBL_CNT_LEARN_dropped
  else
    let w : Word64 := BitVec.ofNat 64 (2 ^ 63 + 2 ^ 60 + sector * 2 ^ 56 + best.1 * 2 ^ 48 + best.2 * 2 ^ 40 + lqi * 2 ^ 32 + nix)
    let d1 := ((wqPush d q epDispatcher w).1).inc TBL_CNT_LEARN_posted
    { d1 with tbl := { d1.tbl with learned := Tab.put d1.tbl.learned u (((key, d.ms) :: l.filter fun x => x.1 != key).take 256) } }

/-- Merge a frame's ports into a Hearing entry, or post a learn notice: the result and the state (R248). -/
def hearMerge (d : Dev) (sector nix : Nat) (ports rssis : List Byte) (lqi : Nat) : Nat × Dev :=
  let new := takingPart d sector ports rssis
  match poisonIn d 2 (bucketsRead d 2 (hearKey sector nix)) with
  | some i => (tbMEM_ERR, noteMemErr d 2 i)
  | none =>
  match keyFind d 2 (hearKey sector nix) with
  | none => (tbMISS, match new with
      | [] => d
      | b :: _ => learnNotice d sector nix lqi b)
  | some e =>
    let b := entryBytes d 2 e
    let stored := (List.range 3).filterMap fun k =>
      let p := field b (8 + k) 1
      if p = 0xFF ∨ new.any (fun x => x.1 == p) then none else some (p, field b (12 + k) 1)
    let l := ((new ++ stored).foldr hearIns []).take 3
    let ps := (l.map fun x => BitVec.ofNat 8 x.1) ++ List.replicate (3 - l.length) 0xFF
    let rs := (l.map fun x => BitVec.ofNat 8 x.2) ++ List.replicate (3 - l.length) 0
    let ctrl := (field b 0 4 ||| 2 ^ 30) &&& (2 ^ 32 - 1 - 2 ^ 29)
    (tbOK, setEntry d 2 e (le 4 ctrl ++ le 4 d.ms ++ ps ++ le 1 lqi ++ rs ++ zeros 1))

/-- HEAR_MERGE (Table TABLE-8). -/
def hearMergeOp (d : Dev) (m : Sys2Proof.Master) (sector nix : Nat) (ports rssis : List Byte) (lqi : Nat) : Dev :=
  if !d.bit TBL_STATUS_accepting then reqFail d m tbNOT_READY
  else if !hasPort m then reqFail d m tbNOT_PERMITTED
  else if 16 ≤ sector ∨ d.tableEntries 0 ≤ nix then reqFail d m tbRANGE
  else reqFail (hearMerge d sector nix ports rssis lqi).2 m (hearMerge d sector nix ports rssis lqi).1

def execHearMerge (m : Sys2Proof.Master) (sector nix : Nat) (ports rssis : List Byte) (lqi : Nat) (s : State) : Out :=
  s.onDev fun d => hearMergeOp d m sector nix ports rssis lqi

/-- A request that has waited 5 µs to begin ends with no effect (R260). (DEDUCED: log entry 48) -/
def tableTimeout (d : Dev) (m : Sys2Proof.Master) : Dev := (reqFail d m tbTIMEOUT).inc TBL_CNT_ERR_timeout

def execTableRequestTimeout (m : Sys2Proof.Master) (s : State) : Out := s.onDev fun d => tableTimeout d m

/-- The sweeper visits the next Hearing entry (R252); `hitNow` tells that a merge sets hit in the cycle of a removal's commit (R253). -/
def sweepVisit (d : Dev) (hitNow : Bool) : Dev :=
  if !d.bit TBL_CTRL_sweep_en then d
  else
    let e := d.tbl.sweep
    let c := entryField d 2 e 0 4
    let d1 := { d with tbl := { d.tbl with sweep := (e + 1) % d.tableEntries 2 } }
    let set (v : Nat) := setEntryField d1 2 e 0 4 v
    if !nbit c 31 then d1
    else if nbit c 30 then set (c % 2 ^ 29 + 2 ^ 31)
    else if !nbit c 29 then set (c + 2 ^ 29)
    else if hitNow then (set (c % 2 ^ 29 + 2 ^ 31 + 2 ^ 30)).inc TBL_CNT_AGE_saved
    else (setEntry d1 2 e (zeros 16)).inc TBL_CNT_AGE_aged

def execSweepVisit (hitNow : Bool) (s : State) : Out := s.onDev fun d => sweepVisit d hitNow

/-- TBL_CTRL.cnt_clear: every TBL_CNT_ register. -/
def tblCntClear (d : Dev) : Dev :=
  d.clearRegs [TBL_CNT_LOOKUP, TBL_CNT_RETRY, TBL_CNT_INSERT, TBL_CNT_AGE, TBL_CNT_LEARN, TBL_CNT_ERR]

def execTblCntClear (s : State) : Out := s.onDev tblCntClear

end Sys2Proof.Machine
end

