-- ==== Sys2Proof/Machine/BootOps.lean ====
section
/-! DEFINITION. Flash areas, bundles, confirmation records, activation and the boot chain (14_start_and_self_update.md R396, R397, R401,
R402, R405 to R411), snapshots (R403, R404), and what the Blend's sections set when they take effect (02_blend.md R31, R48, R49). -/

namespace Sys2Proof.Machine

/-! ### Flash (R401) -/

/-- Area sizes of Table START-3 in MiB for the fitted density: mirror, delta log, settings, each bundle area, campaigns, base ring, counter ring. -/
def flashMiB (d : Dev) : List Nat :=
  if d.boot.density = 512 then [3, 2, 2, 8, 8, 16, 8] else if d.boot.density = 1024 then [7, 4, 4, 12, 16, 44, 16] else [7, 4, 4, 20, 36, 112, 32]
def areaSize (d : Dev) (k : Nat) : Nat := 1048576 * (flashMiB d).getD k 0

/-- Bundle areas: 0 ACTIVE, 1 STAGED, 2 PREVIOUS. -/
def bundleArea (d : Dev) (k : Nat) : List Byte := Tab.getD d.boot.areas k []
def setArea (d : Dev) (k : Nat) (bs : List Byte) : Dev := { d with boot := { d.boot with areas := Tab.put d.boot.areas k bs } }

/-- Byte address of a bundle area. -/
def areaBase (d : Dev) (k : Nat) : Nat := 1048576 + areaSize d 0 + areaSize d 1 + areaSize d 2 + k * areaSize d 3

/-- Put bytes at an offset of an area; what lies between reads as erased flash. -/
def spliceAt (a : List Byte) (off : Nat) (bs : List Byte) : List Byte :=
  (a ++ List.replicate (off - a.length) 0xFF).take off ++ bs ++ a.drop (off + bs.length)

/-- Bytes of flash at an address: of the bundle areas; of records, free. -/
def flashBytes (d : Dev) (addr len : Nat) : List Byte × Dev :=
  match (List.range 3).find? fun k => areaBase d k ≤ addr && addr + len ≤ areaBase d k + areaSize d 3 with
  | some k => (((bundleArea d k).drop (addr - areaBase d k) ++ List.replicate len 0xFF).take len, d)
  | none => let (b, d1) := d.drawBytes len; (fit len b, d1)

/-! ### Bundles (R402) -/

def bnLen (b : List Byte) : Nat := field b 8 4
def bnNs (b : List Byte) : Nat := field b 6 2
def bnSvn (b : List Byte) : Nat := field b 0x0C 4
def bnRb (b : List Byte) : Nat := field b 0x10 1
def bnKey (b : List Byte) : Nat := field b 0x11 1
def bnTrial (b : List Byte) : Nat := field b 0x14 4
def bnId (b : List Byte) : Nat := field b 0x18 8
def bnOff (b : List Byte) (c : Nat) : Nat := field b (0x30 + 64 * c + 4) 4
def bnSize (b : List Byte) (c : Nat) : Nat := field b (0x30 + 64 * c + 8) 4
def bnDigest (b : List Byte) (c : Nat) : List Byte := slice b (0x30 + 64 * c + 16) 48
def bnPart (b : List Byte) (c : Nat) : List Byte := slice b (bnOff b c) (bnSize b c)
/-- SHA-384 of the header. -/
def bnHeaderHash (b : List Byte) : List Byte := Config.sha384 (b.take 352)

/-- The header's fields are as Table START-4 and R402 say. -/
def bnOk (d : Dev) (b : List Byte) : Bool :=
  decide (352 ≤ b.length) && slice b 0 4 == [0x50, 0x42, 0x4E, 0x44] && field b 4 2 == 1 && within (bnNs b) 1 0xFFFE &&
  within (bnLen b) 352 (areaSize d 3) && decide (bnRb b ≤ 64) && decide (bnKey b ≤ 127) && field b 0x12 2 == 0 &&
  within (bnTrial b) 60 86400 && bnId b != 0 && field b 0xF0 16 == 0 &&
  (List.range 3).all fun c =>
    field b (0x30 + 64 * c) 4 == c + 1 && field b (0x30 + 64 * c + 12) 4 == 0 && bnOff b c % 4096 == 0 && decide (352 ≤ bnOff b c) &&
    decide (bnOff b c + bnSize b c ≤ bnLen b) &&
    (List.range c).all fun e => decide (bnOff b c + bnSize b c ≤ bnOff b e ∨ bnOff b e + bnSize b e ≤ bnOff b c)

/-! ### Confirmation records (R409, R410) -/

@[reducible] def cfCONFIRMED : Nat := 1
@[reducible] def cfTRIAL : Nat := 2
@[reducible] def cfFALLEN_BACK : Nat := 3

/-- The record in force: the higher seq. -/
def confRec (d : Dev) : Option ConfRec :=
  d.boot.conf.foldl (fun b e => match b with
    | none => some e.2
    | some x => if x.seq < e.2.seq then some e.2 else some x) none

/-- Without a record the device acts as CONFIRMED on ACTIVE with every minimum 0. -/
def confNow (d : Dev) : ConfRec := (confRec d).getD ⟨0, cfCONFIRMED, 0, 0, 0, 0, 0, 0, zeros 48, zeros 48⟩

/-- Show the record in force. -/
def showConf (d : Dev) : Dev :=
  let r := confNow d
  ((d.setFld BOOT_STATUS_conf (if (confRec d).isSome then r.state else 0)).setFld BOOT_STATUS_trial_starts r.trialStarts).setFld
    BOOT_SVN_FW_svn r.fwSvnMin

/-- Write a record to the slot that does not hold the newest. -/
def writeConf (d : Dev) (r : ConfRec) : Dev :=
  let seqOf (k : Nat) : Nat := ((Tab.find d.boot.conf k).map (·.seq)).getD 0
  let k := if seqOf 1 < seqOf 0 then 1 else 0
  showConf { d with boot := { d.boot with conf := Tab.put d.boot.conf k { r with seq := max (seqOf 0) (seqOf 1) + 1 } } }

/-! ### Results of Table START-9 -/

@[reducible] def upOK : Nat := 0
@[reducible] def upBUSY : Nat := 1
@[reducible] def upRANGE : Nat := 2
@[reducible] def upSTATE : Nat := 3
@[reducible] def upOFFSET : Nat := 4
@[reducible] def upBAD_HEADER : Nat := 5
@[reducible] def upBAD_SIGNATURE : Nat := 6
@[reducible] def upWRONG_DEVICE : Nat := 7
@[reducible] def upSVN_TOO_LOW : Nat := 8
@[reducible] def upROLLBACK : Nat := 9
@[reducible] def upDIGEST : Nat := 0x0A
@[reducible] def upBLEND : Nat := 0x0B
@[reducible] def upFLASH : Nat := 0x0C
@[reducible] def upTIMEOUT : Nat := 0x0D
@[reducible] def upNS_LOCKED : Nat := 0x0E
/-- R390. -/
@[reducible] def upNOT_READY : Nat := 0x0F
@[reducible] def upNO_ROOM : Nat := 0x10
@[reducible] def upNOT_PERMITTED : Nat := 0x11
@[reducible] def upTAMPER_HOLD : Nat := 0x12

/-- A flash part of a density that Table START-3 gives; another holds no bootable area (R497). -/
def densityOk (d : Dev) : Bool := [512, 1024, 2048].contains d.boot.density

/-- The checks of R396 on a bundle: the result, and the state with a slot found bad marked. -/
def bundleVerdict (f : Fuses) (d : Dev) (b : List Byte) : Nat × Dev :=
  if !densityOk d || !bnOk d b then (upBAD_HEADER, d)
  else
    let (r, k, d1) := useSlot f d (bnKey b) 42 3 none none
    if r ≠ scOK ∨ !Config.ecdsaVerify k (b.take 0x100) (slice b 0x100 48) (slice b 0x130 48) then (upBAD_SIGNATURE, d1)
    else if field b 0x20 16 ≠ 0 ∧ slice b 0x20 16 ≠ deviceId f then (upWRONG_DEVICE, d1)
    else if bnSvn b < (confNow d1).fwSvnMin then (upSVN_TOO_LOW, d1)
    else if bnRb b < f.rollback then (upROLLBACK, d1)
    else if (List.range 3).any fun c => Config.sha384 (bnPart b c) != bnDigest b c then (upDIGEST, d1)
    else (upOK, d1)

/-! ### Activation (R407) -/

/-- 64 KiB blocks of a bundle, and the order of a copy: block 0 last. -/
def blocksIn (b : List Byte) : Nat := (bnLen b + 65535) / 65536
def blockOrder (n : Nat) : List Nat := ((List.range n).drop 1) ++ (if n = 0 then [] else [0])

/-- Copy one block between areas. -/
def copyBlock (src dst : Nat) (d : Dev) (i : Nat) : Dev :=
  setArea d dst (spliceAt (bundleArea d dst) (65536 * i) (slice (bundleArea d src) (65536 * i) 65536))

/-- Copy the next blocks, at most `b`: the state, blocks done, all done. -/
def advanceCopy (d : Dev) (a : Activation) (src dst : Nat) (b : Option Nat) : Dev × Nat × Bool :=
  let n := blocksIn (bundleArea d src)
  let k := match b with
    | none => n - a.done
    | some x => min x (n - a.done)
  let d1 := (((blockOrder n).drop a.done).take k).foldl (copyBlock src dst) d
  (jUpdate d1 a.jseq fun r => { r with done := r.done + k }, a.done + k, decide (n ≤ a.done + k))

def setAct (d : Dev) (a : Option Activation) : Dev := { d with boot := { d.boot with act := a } }

/-- The TRIAL record of step 4. -/
def trialRecord (d : Dev) : ConfRec :=
  let s := bundleArea d 1
  let p := bundleArea d 2
  { confNow d with state := cfTRIAL, trialStarts := 0, activeId := bnId s, previousId := bnId p,
                   activeHdr := bnHeaderHash s, previousHdr := bnHeaderHash p }

/-- Steps 4 to 6, with at most `b` blocks: all done, or the activation where it stands. -/
def activateLast (d : Dev) (a : Activation) (b : Option Nat) : Dev × Bool :=
  let d1 := if a.phase ≤ 1 then writeConf d (trialRecord d) else d
  let a1 := if a.phase ≤ 1 then { a with phase := 2, done := 0 } else a
  let (d2, n, all) := advanceCopy d1 a1 1 0 b
  if all then (setAct d2 none, true) else (setAct d2 (some { a1 with done := n }), false)

/-- Go on with an activation, with at most `b` blocks. -/
def activateOn (d : Dev) (b : Option Nat) : Dev × Bool :=
  match d.boot.act with
  | none => (d, true)
  | some a =>
    if a.phase = 0 then
      let (d1, n, all) := advanceCopy d a 0 2 b
      if all then activateLast d1 { a with phase := 1, done := 0 } (b.map fun x => x - (n - a.done))
      else (setAct d1 (some { a with done := n }), false)
    else activateLast d a b

/-! ### Starting a load of the Blend (R48, R52) -/

@[reducible] def bsIDLE : Nat := 0
@[reducible] def bsRECEIVING : Nat := 1
@[reducible] def bsVALIDATING : Nat := 2
@[reducible] def bsPENDING : Nat := 3
@[reducible] def bsAPPLYING : Nat := 4
@[reducible] def bsDONE : Nat := 5
@[reducible] def bsFAILED : Nat := 6

def bldState (d : Dev) : Nat := d.fld BLD_STATUS_state
def setLoad (d : Dev) (l : Option Load) : Dev := { d with bld := { d.bld with load := l } }

/-- A load begins: RECEIVING, its reads issued. -/
def loadBegin (d : Dev) (src : LoadSource) (len : Nat) (cmd : Option Nat) : Dev :=
  let d1 := (setLoad d (some ⟨src, len, [], cmd⟩)).setFld BLD_STATUS_state bsRECEIVING
  let d2 := d1.setFld BLD_STATUS_refusal 0
  match src with
  | .host a => d2.emit (.hostRead a len)
  | _ => d2

/-- A load ends FAILED with a code. -/
def loadFail (d : Dev) (code entry off : Nat) : Dev :=
  let d1 := (((d.setFld BLD_STATUS_state bsFAILED).setFld BLD_STATUS_code code).setFld BLD_STATUS_entry entry).setFld BLD_ERR_OFFSET_offset off
  let d2 := match d.bld.load.bind (·.cmd) with
    | some j => d1.toCmd (.cmd j) code (le 4 entry ++ le 4 off)
    | none => d1
  setLoad d2 none

/-- The start sequence reads the Blend of an area. -/
def loadStart (d : Dev) (previous : Bool) : Dev := loadBegin d (.start previous) (bnSize (bundleArea d (if previous then 2 else 0)) 2) none

/-! ### The boot chain (R396, R397) -/

/-- Flash areas as an event's unit names them: rows of Table START-3, from 0. (DESIGN CHOICE: log entry 82) -/
@[reducible] def unitActive : Nat := 4
/-- DESIGN CHOICE: log entry 82. -/
@[reducible] def unitBase : Nat := 8
/-- DESIGN CHOICE: log entry 82. -/
@[reducible] def unitCounter : Nat := 9

/-- Boot an area whose bundle passed: M0 and M1 with lineage, then the Blend loader. -/
def bootArea (f : Fuses) (d : Dev) (k : Nat) : Dev :=
  let b := bundleArea d k
  let (_, key, _) := useSlot f d (bnKey b) 42 3 none none
  let lin := (Config.sha384 (key.take 49), bnSvn b)
  let d1 := extend (extend d 0 (bnPart b 0)) 1 (bnPart b 1)
  let d2 := { d1 with vault := { d1.vault with lineage := Tab.put (Tab.put d1.vault.lineage 0 lin) 1 lin } }
  loadStart ({ d2.setFld BOOT_STATUS_area (k / 2) with boot := { d2.boot with booted := true, header := b.take 352 } }.setFld BOOT_STATUS_halt 0) (k == 2)

/-- Try PREVIOUS, or stay in First Steep with halt 1. -/
def bootPrevious (f : Fuses) (d : Dev) : Dev :=
  let (r, d1) := bundleVerdict f d (bundleArea d 2)
  if r = upOK then bootArea f d1 2 else d1.setFld BOOT_STATUS_halt 1

/-- Complete a pending copy, choose an area, boot it. TAMPER_HOLD stops it (R368, R369). -/
def bootChoose (f : Fuses) (d : Dev) : Dev :=
  if d.vault.hold then d.setFld BOOT_STATUS_halt 2
  else
    let d1 := showConf (activateOn d none).1
    let r := confNow d1
    let d2 := if r.state = cfTRIAL then
      (if 3 ≤ r.trialStarts then writeConf d1 { r with state := cfFALLEN_BACK } else writeConf d1 { r with trialStarts := r.trialStarts + 1 })
      else d1
    if (confNow d2).state = cfFALLEN_BACK then bootPrevious f d2
    else
      let (v, d3) := bundleVerdict f d2 (bundleArea d2 0)
      if v = upOK then bootArea f d3 0
      else if (confNow d3).state = cfTRIAL then bootPrevious f (writeConf d3 { confNow d3 with state := cfFALLEN_BACK })
      else bootPrevious f (raise d3 18 unitActive 0)

/-- The boot chain; a start in TRIAL is a trial (R408). (DEDUCED: log entry 28) (DEDUCED: log entry 83) -/
def bootChain (f : Fuses) (d : Dev) : Dev :=
  let d1 := bootChoose f d
  { d1 with boot := { d1.boot with trial := (confNow d1).state == cfTRIAL } }

/-! ### What sections set as they take effect -/

/-- Records of the Telemetry section (R446). -/
def telSources (b : List Byte) : List TelSource :=
  (List.range (b.length / 4)).map fun i => ⟨nbit (field b (4 * i) 1) 0, field b (4 * i + 1) 1, field b (4 * i + 2) 1⟩

/-- Live sections have changed: Strainer limits (R505), decision trace, BIST rotation, telemetry sources, dispatcher parameters. -/
def liveApply (d : Dev) : Dev :=
  let st := d.sec 11 0xFFFF
  let tol := if field st 8 1 = 0 then 255 else field st 8 1
  let rate := if field st 10 2 = 0 then 10000 else field st 10 2
  let d1 := if tol < d.fld TIM_PPS_CFG_tol then d.setFld TIM_PPS_CFG_tol tol else d
  let d2 := if rate < d1.fld TEL_ETH_RATE_rate then d1.setFld TEL_ETH_RATE_rate rate else d1
  let d3 := d2.setFld DSP_CTRL_trace_en (field (d.sec 16 0xFFFF) 3 1)
  let d4 := (d3.setFld DSP_STATUS_idle_time d.idleUs).setFld DSP_STATUS_warm_min d.warmMin
  let d5 := d4.setBit RES_CTRL_bist_run d.bistOn
  backhaulChanged (keepWarm { d5 with tel := { d5.tel with sources := telSources (d.sec 12 0xFFFF) } })

/-- Clear the cells of a PAN that its configuration no longer holds (R211). -/
def clearOrphans (d : Dev) (p : Nat) : Dev :=
  let gone := (validCells d).filter fun c =>
    let w := cellWord d c
    clPan w == p && match panFrame d.bld.cfg p (clHandle w) with
      | none => true
      | some r => decide (r.length ≤ clSlot w)
  let d1 := gone.foldl (fun a c => setCell a c (cellWord a c % 2 ^ 63)) d
  if gone.isEmpty then d1 else raise (d1.addFld TS_CNT_ORPHAN_cleared gone.length) 117 p gone.length

/-- Sections of a list that concern one PAN. -/
def ofPan (l : List Section) (p : Nat) : List Section := l.filter fun s => (s.type == 4 || s.type == 5) && s.inst == p

/-- The sections of one PAN take effect (R50, R211, R220). -/
def panApply (d : Dev) (l : List Section) (p : Nat) : Dev :=
  let d1 := clearOrphans { d with bld := { d.bld with cfg := applyDelta d.bld.cfg (ofPan l p) } } p
  buildSummary (buildBeacon d1 p)

/-! ### Snapshots (R403, R404, R366) -/

/-- The content of a base image now. -/
def baseNow (d : Dev) (seq : Nat) : BaseImage :=
  ⟨seq, d.ns, d.reg64 BLD_ACTIVE_ID_LO,
    (validNodes d).map fun n => (n, entryBytes d 0 n ++ entryBytes d 3 n ++ entryBytes d 5 n),
    (validEntries d 1 0x13).map (entryBytes d 1),
    (validCells d).map fun c => (c, entryBytes d 4 c)⟩

def baseLength (b : BaseImage) : Nat := 64 + 32768 + 112 * b.nodes.length + 32 * b.addrs.length + 12 * b.cells.length

/-- The content of a counter image now. -/
def counterNow (d : Dev) (seq : Nat) : CounterImage :=
  ⟨seq, d.ns, d.reg64 BLD_ACTIVE_ID_LO,
    (validNodes d).map fun n => (n, [nodeRxFc d n 0, nodeRxFc d n 1, nodeTxFc d n 0, nodeTxFc d n 1]), 0⟩

def counterLength (c : CounterImage) : Nat := 64 + 16 * ((c.counters.map fun x => x.1 + 1).foldl max 0)

/-- Restore one node's counters from captured values, with the reservation window of `n` restores before (R366). -/
def restoreCounters (d : Dev) (n : Nat) (cs : List Nat) (k : Nat) : Dev :=
  let rx (b : Dev) (j : Nat) : Dev := setEntryField b 0 n (0x20 + 4 * j) 4 (cs.getD j 0)
  let tx (b : Dev) (j : Nat) : Dev :=
    setEntryField (setEntryField b 0 n (0x28 + 4 * j) 4 (min (cs.getD (2 + j) 0 + 65536 * (k + 1)) 0xFFFFFFFF)) 0 n (0x39 + 2 * j) 2
      (cs.getD (2 + j) 0 % 65536)
  tx (tx (rx (rx d 0) 1) 0) 1

/-- Take the captured counters as the nodes' reservations (R366). -/
def moveCaps (d : Dev) (c : CounterImage) : Dev :=
  c.counters.foldl (fun b x =>
    if nodeValid b x.1 then
      setEntryField (setEntryField b 0 x.1 0x39 2 (x.2.getD 2 0 % 65536)) 0 x.1 0x3B 2 (x.2.getD 3 0 % 65536)
    else b) d

/-- Restore one node of a base image. -/
def restoreNode (d : Dev) (x : Nat × List Byte) : Dev :=
  if d.tableEntries 0 ≤ x.1 then d
  else setEntry (setEntry (setNodeCtrl (setEntry d 0 x.1 (x.2.take 64)) x.1 23 22 0) 3 x.1 (slice x.2 64 32)) 5 x.1 (slice x.2 96 16)

/-- Insert one Address entry (R244); a failure raises RESTORE_INSERT. -/
def restoreAddr (d : Dev) (b : List Byte) : Dev :=
  let (r, _, d1) := insertAddr d (b.take 16) (field b 0x10 4 % 2 ^ 20)
  if r = tbOK then d1 else raise d1 21 unitBase 0

/-- Restore the tables at start: the newest base image, then the counters captured after it; node-key sends wait for the restore record,
or with no counter image are held until one completes. -/
def restoreTables (d : Dev) : Dev :=
  match d.boot.base with
  | none => d
  | some b =>
    let d1 := b.addrs.foldl restoreAddr (b.nodes.foldl restoreNode d)
    let d2 := b.cells.foldl (fun a c => if c.1 < 1048576 then setEntry a 4 c.1 c.2 else a) d1
    let d3 := (List.range 8).foldl (fun a p =>
      a.setAlloc p { a.alloc p with used := ((panNodes a p).map (nodeShort a)).filter fun x => decide (x < 0xFE00) }) d2
    match d.boot.counter with
    | some c =>
      if b.at? < c.at? then
        let d4 := c.counters.foldl (fun a x => if nodeValid a x.1 then restoreCounters a x.1 x.2 c.restores else a) d3
        { d4 with boot := { d4.boot with restoreWait := !b.nodes.isEmpty } }
      else { d3 with boot := { d3.boot with restoreHeld := !b.nodes.isEmpty } }
    | none => { d3 with boot := { d3.boot with restoreHeld := !b.nodes.isEmpty } }

end Sys2Proof.Machine
end

