-- ==== Sys2Proof/Machine/Line.lean ====
section
/-! DEFINITION. What a Yarlink lane carries (04_yarlink.md R94 to R101, R105, R122): scrambler and blocks, the roles of blocks, sample
containers and slots, STAMP payloads, control-channel bytes, PRBS31, and the instants of samples. -/

namespace Sys2Proof.Machine

/-! ### Blocks (R94) -/

/-- The self-synchronising scrambler x^58 + x^39 + 1 over `n` bits, lowest bit first. The register holds the last 58 line bits, the latest
lowest. Answers the line bits and the register. -/
def scramble : Nat → Nat → Nat → Nat × Nat
  | 0, reg, _ => (0, reg)
  | n + 1, reg, v =>
    let b := (v % 2) ^^^ (b2n (nbit reg 38)) ^^^ (b2n (nbit reg 57))
    let r := scramble n ((2 * reg + b) % 2 ^ 58) (v / 2)
    (b + 2 * r.1, r.2)

/-- Its inverse: line bits to payload bits. -/
def descramble : Nat → Nat → Nat → Nat × Nat
  | 0, reg, _ => (0, reg)
  | n + 1, reg, v =>
    let b := (v % 2) ^^^ (b2n (nbit reg 38)) ^^^ (b2n (nbit reg 57))
    let r := descramble n ((2 * reg + v % 2) % 2 ^ 58) (v / 2)
    (b + 2 * r.1, r.2)

/-- What a block is (R94, Table YLINK-2), with its payload or payload bytes 1 to 7. -/
inductive Block where
  | sample (payload : Nat)
  | fill
  | ctrl (bytes : List Byte)
  | stamp (bytes : List Byte)
  | syncError
  | typeError
deriving DecidableEq, Repr

/-- The block of a sync header and a descrambled payload, payload bit 0 the lowest. -/
def blockOf (sync payload : Nat) : Block :=
  let bs := le 8 payload
  if sync = 1 then .sample payload
  else if sync ≠ 2 then .syncError
  else if payload % 256 = 0x1E then .fill
  else if payload % 256 = 0x4B then .ctrl (bs.drop 1)
  else if payload % 256 = 0x78 then .stamp (bs.drop 1)
  else .typeError

/-- Sync header and payload of a block the device sends. An error is never sent. -/
def Block.word : Block → Nat × Nat
  | .sample p => (1, p)
  | .fill => (2, 0x1E)
  | .ctrl bs => (2, unle (0x4B :: fit 7 bs))
  | .stamp bs => (2, unle (0x78 :: fit 7 bs))
  | .syncError => (0, 0)
  | .typeError => (2, 0)

/-! ### Superframes and hyperframes (R95) -/

/-- The fixed role of a block of a superframe. -/
inductive BlockRole where
  | stamp | ctrl | slot
deriving DecidableEq, Repr

/-- Role of block `b`, 0 to 4,095. -/
def roleAt (b : Nat) : BlockRole := if b % 4096 = 0 then .stamp else if b % 32 = 0 then .ctrl else .slot

/-- Number of the sample slot that block `b` of superframe `sf` is, in its hyperframe: 3,968 a superframe. -/
def slotNumber (sf b : Nat) : Nat := 3968 * sf + (b - 1 - b / 32)

/-- Duration of a superframe, in 10 ps (43,253.76 ns), and of a hyperframe, in 100 ps. -/
@[reducible] def sfTen : Nat := 4325376
@[reducible] def hyper100 : Nat := 54067200

/-! ### Containers and slots (R96, R97) -/

/-- A sample: I and Q. -/
abbrev Sample : Type := Int × Int

/-- I and Q of `w` bits each, I below. -/
def packSample (w : Nat) (s : Sample) : Nat := ofSigned w s.1 + 2 ^ w * ofSigned w s.2
def unpackSample (w n : Nat) : Sample := (toSigned w (n % 2 ^ w), toSigned w (n / 2 ^ w % 2 ^ w))

/-- Samples one after the other, the earliest in the lowest bits. -/
def packSamples (w : Nat) : List Sample → Nat
  | [] => 0
  | s :: ss => packSample w s + 2 ^ (2 * w) * packSamples w ss
def unpackSamples (w : Nat) : Nat → Nat → List Sample
  | 0, _ => []
  | k + 1, n => unpackSample w n :: unpackSamples w k (n / 2 ^ (2 * w))

/-- Samples of a container, and blocks it takes: two 16-bit samples in one block, eight 12-bit samples in three. -/
def containerSamples (wide : Bool) : Nat := if wide then 2 else 8
def containerBlocks (wide : Bool) : Nat := if wide then 1 else 3

/-- The payloads of a container: the 64-bit parts of its word, lowest first. -/
def packContainer (wide : Bool) (ss : List Sample) : List Nat :=
  let n := packSamples (if wide then 16 else 12) ss
  (List.range (containerBlocks wide)).map fun k => n / 2 ^ (64 * k) % 2 ^ 64
def unpackContainer (wide : Bool) (ps : List Nat) : List Sample :=
  unpackSamples (if wide then 16 else 12) (containerSamples wide) (ps.foldr (fun p a => p + 2 ^ 64 * a) 0)

/-- One direction's way into its sample slots: the blocks left of a container begun, and samples that are ready, oldest first. -/
structure Filler where
  left : List Nat
  ready : List Sample
deriving DecidableEq, Repr

/-- The next sample slot (R96): the next block of a container begun, a new container when a whole one is ready, FILL otherwise. -/
def Filler.next (wide : Bool) (f : Filler) : Block × Filler :=
  match f.left with
  | p :: ps => (.sample p, { f with left := ps })
  | [] =>
    if f.ready.length < containerSamples wide then (.fill, f)
    else match packContainer wide (f.ready.take (containerSamples wide)) with
      | p :: ps => (.sample p, ⟨ps, f.ready.drop (containerSamples wide)⟩)
      | [] => (.fill, f)

/-- A hyperframe begins: its first sample begins a container (R97), so nothing of an earlier one is left. Whole hyperframes of Table
YLINK-3 leave nothing. -/
def Filler.align (f : Filler) : Filler := { f with left := [] }

/-- Containers of a hyperframe, and blocks of them (Table YLINK-3). -/
def samplesPerHyper (rate : Nat) : Nat := 67584 * 2 ^ rate
def blocksPerHyper (wide : Bool) (rate : Nat) : Nat := samplesPerHyper rate / containerSamples wide * containerBlocks wide

/-! ### Instants of samples (R98, R99), in 100 ps -/

/-- s / fs of a rate code: a sample lasts 80 ns at code 0. -/
def sampleTime (rate s : Nat) : Nat := s * (800 / 2 ^ rate)

/-- Antenna instant of receive sample `s` and of transmit sample `s` of the hyperframe whose A(h) is `a`. -/
def rxInstant (a : Int) (rate latency s : Nat) : Int := a + sampleTime rate s - latency
def txInstant (a : Int) (rate latency s : Nat) : Int := a + sampleTime rate s + 20000 + latency

/-- Number of the transmit sample that leaves the antenna at `t` or next after it. -/
def txSampleAt (a : Int) (rate latency : Nat) (t : Int) : Int := -((a + 20000 + latency - t) / (800 / 2 ^ rate : Nat))

/-- The latest instant at which a block reaches the head, and at which the head sends one (R99): of the downstream block whose first sample
is `s`, and of the upstream block whose last sample has the antenna instant `t`. -/
def downDeadline (a : Int) (rate s : Nat) : Int := a + sampleTime rate s + 20000 - 5000
def upDeadline (t : Int) : Int := t + 10000

/-! ### STAMP payloads (Table YLINK-4), bytes 1 to 7 -/

/-- Downstream: sf_index, hyperframe number, port state. -/
def downStamp (sf h st : Nat) : List Byte := le 1 sf ++ le 3 h ++ le 1 (st % 16) ++ zeros 2

/-- What an upstream STAMP says. -/
structure UpStamp where
  echoSf : Nat
  echoHyper : Nat
  calValid : Bool
  state : Nat
  turn : Nat
  count : Nat
deriving DecidableEq, Repr

def upStampOf (bs : List Byte) : UpStamp :=
  ⟨field bs 0 1, field bs 1 2, nbit (field bs 3 1) 5, field bs 3 1 % 16, field bs 4 2, field bs 6 1⟩

/-- The STAMP a head sends: an emulated head builds it. -/
def UpStamp.bytes (u : UpStamp) : List Byte :=
  le 1 u.echoSf ++ le 2 u.echoHyper ++ le 1 (32 * b2n u.calValid + u.state % 16) ++ le 2 u.turn ++ le 1 u.count

/-! ### Control channel (R105) -/

/-- The bytes of a message: id, tag, length, payload, CRC-16 most significant byte first. -/
def msgBytes (id tag : Nat) (payload : List Byte) : List Byte :=
  let b := le 1 id ++ le 1 tag ++ le 1 payload.length ++ payload
  b ++ be 2 (crc16 b)

/-- Cut a byte string into pieces of seven, the last one zero-filled. -/
def sevens : Nat → List Byte → List (List Byte)
  | 0, _ => []
  | n + 1, bs => if bs.isEmpty then [] else fit 7 bs :: sevens n (bs.drop 7)

/-- The CTRL blocks of a message: it begins at byte 1 of a block; the bytes after its end are zero. -/
def ctrlBlocks (id tag : Nat) (payload : List Byte) : List Block := (sevens 36 (msgBytes id tag payload)).map .ctrl

/-- A CTRL block that carries no message, when none is in progress. -/
def ctrlEmpty (bs : List Byte) : Bool := bs.headD 0 == 0

/-- The message that control-channel bytes from its start spell: id, tag, payload; none when its CRC fails or bytes lack. -/
def ctrlParse (bs : List Byte) : Option (Nat × Nat × List Byte) :=
  let n := field bs 2 1
  if bs.length < n + 5 ∨ unbe (slice bs (n + 3) 2) ≠ crc16 (bs.take (n + 3)) then none
  else some (field bs 0 1, field bs 1 1, slice bs 3 n)

/-! ### PRBS31 (R122) -/

/-- The next `n` bits of x^31 + x^28 + 1, first bit lowest, after the 31 bits `reg`, the latest lowest. -/
def prbs31 : Nat → Nat → Nat × Nat
  | 0, reg => (0, reg)
  | n + 1, reg =>
    let b := b2n (nbit reg 30) ^^^ b2n (nbit reg 27)
    let r := prbs31 n ((2 * reg + b) % 2 ^ 31)
    (b + 2 * r.1, r.2)

/-- Bits in which two numbers of 64 bits differ. -/
def bitErrors (a b : Nat) : Nat := ((List.range 64).filter fun k => nbit (a ^^^ b) k).length

/-! ### What the device sends and takes -/

/-- The state field of the downstream STAMP now (R100): it changes only in superframes of sf_index 1. The state before the last change stands
until the first such superframe after it. -/
def shownState (d : Dev) (p : Nat) : Nat :=
  let x := d.port p
  let first := x.hyperAt + sfTen / 10 + 1
  if x.stateAt ≤ d.ts100 ∧ x.stateAt ≤ first + (d.ts100 - first) / hyper100 * hyper100 ∧ first ≤ d.ts100 then d.portState p else x.shown

/-- The superframe the device sends now, counted from the hyperframe last begun (R95, R102). -/
def superframeNow (d : Dev) (p : Nat) : Nat := (d.ts100 - (d.port p).hyperAt) * 10 / sfTen

/-- The STAMP of that superframe. -/
def stampNow (d : Dev) (p : Nat) : List Byte :=
  let k := superframeNow d p
  downStamp (k % 125) ((d.port p).hyperNum + k / 125) (shownState d p)

/-- What fills the sample slots of the direction a port sends (R100, R122, R123, R199): FILL while its stream does not run, PRBS31, zero samples
under the loopback of R199, the samples it received under far-end loopback of an emulated head, else its transmit chain's composite. A
role 3 port sends upstream. -/
inductive SlotSource where
  | fill | prbs | zero | returned | composite
deriving DecidableEq, Repr

def slotSource (d : Dev) (p : Nat) : SlotSource :=
  if !(d.port p).streams then .fill
  else if d.bit (YL_TEST_prbs p) then .prbs
  else if topRole d.topo p = 3 ∧ (d.port p).loopApplied = 1 then .returned
  else if topRole d.topo p = 2 ∧ d.bit (TX_LOOPn_enable p) then .zero
  else .composite

/-- What the port's channeliser takes: its own composite under R199, else what arrives on the lane, which for a role 3 port is the far
end's downstream stream (R123) and in near-end loopback the port's own stream (R122). -/
inductive RxSource where
  | lane | ownStream | ownComposite
deriving DecidableEq, Repr

def rxSource (d : Dev) (p : Nat) : RxSource :=
  if topRole d.topo p = 2 ∧ d.bit (TX_LOOPn_enable p) then .ownComposite
  else if d.fld (YL_TEST_mode p) = 1 then .ownStream
  else .lane

/-- The block the device sends at block `b` of the superframe now (R95, R115): none in DISABLED, where the lane is stopped; else the STAMP,
the next control-channel bytes, or the slot's block. -/
def downBlock (d : Dev) (p b : Nat) (ctrl : List Byte) (slot : Block) : Option Block :=
  if d.portState p = ylDISABLED then none
  else some (match roleAt b with
    | .stamp => .stamp (stampNow d p)
    | .ctrl => .ctrl ctrl
    | .slot => if slotSource d p = .fill then .fill else slot)

end Sys2Proof.Machine
end

