-- ==== Sys2Proof/Machine/RxOps.lean ====
section
/-! DEFINITION. Receive contexts, combining groups and delivery (06_receive.md R156 to R178): the shared operations; and the abort of a
task of any kind. -/

namespace Sys2Proof.Machine

/-! ### Decibels by exact powers -/

/-- x ≥ y × 10^(q/40): powers compared at a step of q quarter decibels. -/
def atLeastDb (x y q : Nat) : Bool := decide (y ^ 40 * 10 ^ q ≤ x ^ 40)

/-- round(s × log10(num / den)) for s steps a decade: the largest n from `lo` on with num^(2s) ≥ den^(2s) × 10^(2n - 1). -/
def logSteps (s num den : Nat) : Nat → Int → Int
  | 0, n => n
  | k + 1, n =>
    let m := 2 * (n + 1) - 1
    let ok := if 0 ≤ m then decide (den ^ (2 * s) * 10 ^ m.toNat ≤ num ^ (2 * s)) else decide (den ^ (2 * s) ≤ num ^ (2 * s) * 10 ^ (-m).toNat)
    if ok then logSteps s num den k (n + 1) else n

/-- Quarter-decibel value of a power ratio, from -1000 to 1000 steps. (DESIGN CHOICE: log entry 38) -/
def quarterDb (num den : Nat) : Int := if num = 0 then -1000 else logSteps 40 num den 2000 (-1000)

/-- Antenna power in 0.25 dBm of a power in units of 10^-20 mW. -/
def dbm (n : Nat) : Int := quarterDb n 1 - 800

/-! ### Modes -/

/-- Context rates of Table RECV-1 in 10 kS/s, and receive slots, of a PHY mode record. -/
def modeRate (d : Dev) (k : Nat) : Nat :=
  let r := phyRate d.phy k
  if phyFamily d.phy k ≤ 1 then [40, 80, 120, 160].getD r 0
  else if phyFamily d.phy k = 2 then [0, 133, 66, 33, 16].getD r 0 else 400
def modeSlots (d : Dev) (m : Nat) : Nat := match phyFind d.phy m with
  | some k => if phyFamily d.phy k = 3 then 3 else 1
  | none => 1

/-- Modes a port detects: the 4 lowest mode_ids of its phy_mask (R158). -/
def portModes (d : Dev) (p : Nat) : List Nat := ((List.range 32).filter fun m => nbit (bpPhyMask d.band p) m).take 4

/-- W of R159 in symbols. -/
def winSymbols (d : Dev) (m : Nat) : Nat := match phyFind d.phy m with
  | some k => min 8 (phyPreamble d.phy k / 2)
  | none => 0

/-! ### Channels -/

def chKey (p c : Nat) : Nat := p * 256 + c
def Dev.chan (d : Dev) (p c : Nat) : RxChannel := Tab.getD d.rx.channels (chKey p c) ⟨[], 0, 0, 0, 0, 0, false, []⟩
def Dev.setChan (d : Dev) (p c : Nat) (x : RxChannel) : Dev := { d with rx := { d.rx with channels := Tab.put d.rx.channels (chKey p c) x } }

/-- N of a channel (R159); none before its first value. -/
def noise (d : Dev) (p c : Nat) : Option Nat := match (d.chan p c).powers with
  | [] => none
  | x :: xs => some (xs.foldl min x)

/-- The receive path of a port is ready and its detectors are not blanked by the switch (R128, R130, R140). -/
def detecting (d : Dev) (p : Nat) : Bool := portLive d p && (d.head p).rxReady && !(d.head p).blanked

/-- d + g of R174 for a port: the digital compensation and the receive gain in force, 0.25 dB. -/
def gainTerm (d : Dev) (p : Nat) : Int := (d.head p).gainComp + dscRxGain d p (d.head p).rxGain

/-- The gain of a port has changed: the samples of its contexts in PAYLOAD use it from here on (R133, R174). -/
def noteGain (d : Dev) (p : Nat) : Dev :=
  let g := gainTerm d p
  { d with rx := { d.rx with ctx := d.rx.ctx.map fun e =>
      if e.2.port = p ∧ e.2.st = .payload ∧ e.2.gains.head? ≠ some g then (e.1, { e.2 with gains := g :: e.2.gains }) else e } }

/-- Contexts on a channel of a head. -/
def ctxOn (d : Dev) (p c : Nat) : List (Nat × RxCtx) := d.rx.ctx.filter fun x => x.2.port == p && x.2.channel == c

/-! ### Recent list, groups, delivery -/

/-- The frame is on the recent list (R173). -/
def isRecent (d : Dev) (f : RxFrame) : Bool :=
  d.rx.recent.any fun r => r.freq2 == f.freq2 && r.mode == f.mode && r.psdu == f.best.psdu &&
    decide (r.tS ≤ f.best.tS + 2000 ∧ f.best.tS ≤ r.tS + 2000)

/-- Deliver a frame, or drop it as a duplicate (R173). -/
def deliver (d : Dev) (f : RxFrame) : Dev :=
  if isRecent d f then d.inc RX_CNT_DUP_dup_dropped
  else { d with rx := { d.rx with recent := ⟨f.freq2, f.mode, f.best.tS, f.best.psdu⟩ :: d.rx.recent, frames := d.rx.frames ++ [f] } }

/-- `a` ranks before `b` (R177): higher LQI, then higher RSSI, then lower port. -/
def ranksFirst (a b : Copy) : Bool :=
  if a.lqi ≠ b.lqi then decide (b.lqi < a.lqi)
  else if a.rssi ≠ b.rssi then decide (b.rssi < a.rssi) else decide (a.port < b.port)

/-- Copies best first. -/
def rankIns (c : Copy) : List Copy → List Copy
  | [] => [c]
  | x :: xs => if ranksFirst c x then c :: x :: xs else x :: rankIns c xs
def ranked (cs : List Copy) : List Copy := cs.foldr rankIns []

/-- Passing copies by PSDU: one frame each (R173); fuel bounds the copies. -/
def framesOf (freq2 : Int) (mode : Nat) : Nat → List Copy → List RxFrame
  | 0, _ => []
  | _ + 1, [] => []
  | n + 1, c :: cs =>
    let same := ranked (c :: cs.filter fun x => x.psdu == c.psdu)
    ⟨freq2, mode, same.headD c, same, false⟩ :: framesOf freq2 mode n (cs.filter fun x => x.psdu != c.psdu)

/-- Soft decisions added bit by bit, saturating at ±127 (R172). -/
def addSoft (a b : List Int) : List Int := (a.zip b).map fun x => clampInt (x.1 + x.2) (-127) 127
/-- DESIGN CHOICE: log entry 38. -/
def sumSoft (cs : List Copy) : List Int := match cs.map fun c => c.soft.map fun b => toSigned 8 b.toNat with
  | [] => []
  | x :: xs => xs.foldl addSoft x

/-- Resolve a group whose failed members are `fails` and none passed (R172). -/
def resolveFailed (d : Dev) (g : RxGroup) (fails : List Copy) : Dev :=
  match ranked fails with
  | [] => d
  | best :: _ =>
    let cs := ranked (fails.filter fun c => c.phrLen == best.phrLen)
    if cs.length < 2 || !d.bit RX_CTRL_combine_en then d.inc RX_CNT_FAIL_fcs_fail
    else match Config.decodeSoft g.mode best.phrLen (sumSoft cs) with
      | none => (d.inc RX_CNT_COMB_comb_fail).inc RX_CNT_FAIL_fcs_fail
      | some psdu => deliver (d.inc RX_CNT_COMB_comb_ok) ⟨g.freq2, g.mode, { best with psdu := psdu }, cs, true⟩

/-- Resolve a group (R172): running members become ungrouped, the group closes. -/
def resolveGroup (d : Dev) (g : Nat) : Dev :=
  match Tab.find d.rx.groups g with
  | none => d
  | some x =>
    let ctx := d.rx.ctx.map fun c => if c.2.group = some g then (c.1, { c.2 with group := none }) else c
    let d1 := { d with rx := { d.rx with ctx := ctx, groups := Tab.del d.rx.groups g } }
    let pass := x.ended.filter (·.passed)
    if pass.isEmpty then resolveFailed d1 x (x.ended.filter fun c => !c.passed)
    else (framesOf x.freq2 x.mode pass.length pass).foldl deliver d1

/-- A member leaves its group: with a copy (DONE or FCS_FAIL) or without; the group resolves when no member runs. -/
def leaveGroup (d : Dev) (g task port pWin : Nat) (c : Option Copy) : Dev :=
  match Tab.find d.rx.groups g with
  | none => d
  | some x =>
    let x1 := { x with running := x.running.filter (· != task), ended := x.ended ++ c.toList, others := x.others ++ (if c.isSome then [] else [(port, pWin)]) }
    let d1 := { d with rx := { d.rx with groups := Tab.put d.rx.groups g x1 } }
    if x1.running.isEmpty then resolveGroup d1 g else d1

/-- An ungrouped copy resolves as a group of one (R172). -/
def aloneCopy (d : Dev) (mode : Nat) (c : Copy) : Dev :=
  if c.passed then deliver d ⟨freq2 d c.port c.channel, mode, c, [c], false⟩ else d.inc RX_CNT_FAIL_fcs_fail

/-- End causes of Table RECV-3 as results (R164). -/
@[reducible] def rxDONE : Nat := 0x00
@[reducible] def rxFCS_FAIL : Nat := 0x10
@[reducible] def rxNO_SFD : Nat := 0x11
@[reducible] def rxPHR_BAD : Nat := 0x12
@[reducible] def rxPREEMPTED : Nat := 0x13
@[reducible] def rxREPLACED : Nat := 0x14
@[reducible] def rxLOST_LINK : Nat := 0x15
@[reducible] def rxLOST_HEAD : Nat := 0x16

/-- Count an end cause. -/
def countEnd (d : Dev) (x : RxCtx) (r : Nat) : Dev :=
  if r = rxNO_SFD then d.setChan x.port x.channel { d.chan x.port x.channel with false_ := min ((d.chan x.port x.channel).false_ + 1) 0xFFFF }
  else if r = rxPHR_BAD then d.inc RX_CNT_FAIL_phr_bad
  else if r = rxPREEMPTED then d.inc RX_CNT_CTX_ctx_preempt
  else if r = rxREPLACED then
    d.setChan x.port x.channel { d.chan x.port x.channel with replaced := min ((d.chan x.port x.channel).replaced + 1) 0xFFF }
  else if r = rxLOST_LINK then d.inc RX_CNT_LOST_lost_link
  else if r = rxLOST_HEAD then d.inc RX_CNT_LOST_lost_head
  else if r = rsDRAIN ∨ r = rsISOLATED then d.inc RX_CNT_LOST_lost_engine
  else d

/-- A context leaves the chain with an end cause, its task apart. -/
def ctxLeave (d : Dev) (i r : Nat) (c : Option Copy) : Dev :=
  match Tab.find d.rx.ctx i with
  | none => d
  | some x =>
    let d0 := d.setChan x.port x.channel { d.chan x.port x.channel with ran := true }
    let d1 := countEnd { d0 with rx := { d0.rx with ctx := Tab.del d0.rx.ctx i } } x r
    match x.group, c with
    | some g, c => leaveGroup d1 g i x.port x.pWin c
    | none, some c => aloneCopy d1 x.mode c
    | none, none => d1

/-- A receive slot can be had: on a RUNNING or STARTING Caddy of the receive role, or one can be started (R160, R163). -/
def slotAvailable (d : Dev) (mode : Nat) : Bool :=
  let tr := trellisMode d mode
  (placeable d 0 tr).any (fun c => decide (0 < idleEngines d c 0 (modeSlots d mode))) || (startable d 0 tr).isSome

/-- Open a context for a detection: it takes an identifier of the receive chain's range; a second context is counted as opened (R165, R181). -/
def openCtx (d : Dev) (x : RxCtx) : Option Dev :=
  (hwSubmit d 0 0x4000 0 0 noFlow 0 (chKey x.port x.channel) x.mode (modeSlots d x.mode)).map fun r =>
    let d1 := { r.2 with rx := { r.2.rx with ctx := Tab.put r.2.rx.ctx r.1 x } }
    if x.second then d1.setChan x.port x.channel { d1.chan x.port x.channel with opened := min ((d1.chan x.port x.channel).opened + 1) 0xFFF } else d1

/-- A waiting detection opens its context once it can have a slot and an identifier (R160). -/
def openOne (d : Dev) (x : RxCtx) : Option Dev :=
  if slotAvailable d x.mode then (openCtx d x).map fun d1 => { d1 with rx := { d1.rx with late := d1.rx.late.erase x } } else none

/-- Detections that wait take the slots and identifiers that have become free, the oldest first (R160). -/
def openLate (d : Dev) : Dev := d.rx.late.foldl (fun a x => (openOne a x).getD a) d

/-- A context ends with a cause of its own, and its task completes (R164). -/
def ctxEnd (d : Dev) (i r : Nat) (c : Option Copy) : Dev := openLate (completeTask (ctxLeave d i r c) i r)

/-- Every context that a port feeds ends with a cause (R120, R130, R140). -/
def endPort (d : Dev) (p r : Nat) : Dev :=
  ((d.rx.ctx.filter fun x => x.2.port == p).map (·.1)).foldl (fun a i => ctxEnd a i r none) d

/-! ### Frame records, and what an aborted task leaves -/

/-- A frame record as a handler reads it: its handle and bytes, the header of its frame. -/
structure Rec where
  handle : Nat
  bytes : List Byte
  h : Sys2Proof.MacHdr
deriving DecidableEq, Repr

/-- The record of a task of source 0. -/
def recOf (d : Dev) (t : Task) : Option Rec :=
  if t.d.source ≠ 0 then none
  else (Tab.find d.rx.hdrs (t.d.arg0 % 2 ^ 32)).map fun h => ⟨t.d.arg0 % 2 ^ 32, bufGet d (t.d.arg0 % 2 ^ 32), h⟩

def Rec.buf (r : Rec) : Nat := field r.bytes 0x24 4

/-- Release a record alone, and what the receive chain kept of it; and with its PSDU. -/
def dropRec (d : Dev) (r : Rec) : Dev :=
  let d1 := bufFree d r.handle
  { d1 with rx := { d1.rx with hdrs := Tab.del d1.rx.hdrs r.handle, ends := Tab.del d1.rx.ends r.handle, starts := Tab.del d1.rx.starts r.handle } }
def freeRec (d : Dev) (r : Rec) : Dev := dropRec (bufFree d r.buf) r

/-- Release what arg0 names: a record with its PSDU, or a packet. -/
def freeArg (d : Dev) (t : Task) : Dev :=
  match recOf d t with
  | some r => freeRec d r
  | none => bufFree d (t.d.arg0 % 2 ^ 32)

/-- The task that built a coded block of campaign `n` is lost (R383): the block and those after it are no longer built ahead; the ready ones
release their buffers now, those in a task when it completes. (DESIGN CHOICE: log entry 77) -/
def blockLost (d : Dev) (t : Task) : Dev :=
  let n := nbits t.d.arg0 39 32
  match Tab.find d.cmp.camps n with
  | none => bufFree d (t.d.arg1 % 2 ^ 32)
  | some c =>
    let keep := c.built.takeWhile fun x => x.task != some t.d.id
    let gone := (c.built.drop keep.length).filter fun x => x.task.isNone || x.task == some t.d.id
    gone.foldl (fun a x => bufFree a x.buf)
      (bufFree { d with cmp := { d.cmp with camps := Tab.put d.cmp.camps n { c with built := keep } } } (t.d.arg1 % 2 ^ 32))

/-- What the submitter of an aborted task does: forwarding acts on a frame task as on one with a result of no action (Table FWD-1), the
campaign unit on a block task. (DEDUCED: log entry 56) -/
def taskLost (d : Dev) (t : Task) : Dev :=
  if t.d.kind = 2 ∧ t.d.source ≤ 1 then (freeArg d t).inc FWD_CNT_DROP_stale
  else if t.d.kind = 3 ∧ t.d.source = 5 then blockLost d t
  else d

/-- Abort of a task of any kind (R77, R164, R192): what its context carried ends with it. -/
def abortAny (d : Dev) (i r : Nat) : Dev :=
  match d.task i with
  | none => d
  | some t =>
    openLate <|
      if t.d.kind = 0 then abortTask (ctxLeave d i r none) i r
      else if t.d.kind = 1 then abortTask (txEngineLost d i) i r
      else taskLost (abortTask d i r) t

end Sys2Proof.Machine
end

