-- ==== Sys2Proof/Machine/YlOps.lean ====
section
/-! DEFINITION. Control requests to heads, holds of heads and the states of a Yarlink port (04_yarlink.md R105 to R121,
05_head_control.md R125 to R144): the shared operations. -/

namespace Sys2Proof.Machine

/-! ### Causes of YL_STATUS -/
@[reducible] def yeSYNC : Nat := 0x01
@[reducible] def yeSTAMP : Nat := 0x02
@[reducible] def yeSAMPLE : Nat := 0x03
@[reducible] def yeCTRL : Nat := 0x04
@[reducible] def yeLATENCY : Nat := 0x05
@[reducible] def yeALIGN_TIMEOUT : Nat := 0x06
@[reducible] def yeDESC_TIMEOUT : Nat := 0x07
@[reducible] def yeDESC_BAD : Nat := 0x08
@[reducible] def yeCAL_TIMEOUT : Nat := 0x09
@[reducible] def yeCAL_FAILED : Nat := 0x0A
@[reducible] def yeFORCED : Nat := 0x0B
@[reducible] def yeDISABLED : Nat := 0x0C

/-! ### Timed commands (R107, R125) -/

/-- "On receipt". -/
@[reducible] def onReceipt : Nat := 0xFFFFFFFFFF

/-- The at field that names the latest downstream block arriving at the head no later than TB4 instant `t` ns (R125): a block lasts
10.56 ns, a superframe 4,096 blocks, a hyperframe 125 superframes. -/
def atField (d : Dev) (p t : Nat) : Nat :=
  let x := d.port p
  let b := (((10 * t : Nat) : Int) - x.hyperAt - d.fld (YL_DLY_DOWN_value p)) * 10 / 1056
  let h := b / 512000 + x.hyperNum
  let r := (b % 512000).toNat
  (r % 4096) * 2 ^ 28 + (r / 4096) * 2 ^ 21 + ofSigned 21 h

/-! ### Requests (R106, R110) -/

/-- The lowest tag from `t` on, 1 to 255 in turn, that no outstanding request carries. -/
def freeTag (used : List Nat) : Nat → Nat → Nat
  | 0, t => t
  | n + 1, t => if used.contains t then freeTag used n (t % 255 + 1) else t

/-- Send a request now. -/
def ctrlNow (d : Dev) (p : Nat) (r : CtrlReq) : Dev :=
  let x := d.port p
  let t := freeTag (x.reqs.map (·.tag)) 255 x.nextTag
  (d.setPort p { x with reqs := x.reqs ++ [{ r with tag := t }], nextTag := t % 255 + 1 }).emit (.control p r.id t r.payload)

/-- Queue a request: a timed one goes before those of a later at instant (R126). -/
def queueIn (r : CtrlReq) : List CtrlReq → List CtrlReq
  | [] => [r]
  | q :: qs => match r.at?, q.at? with
    | some t, some u => if t < u then r :: q :: qs else q :: queueIn r qs
    | _, _ => q :: queueIn r qs

/-- Send a request, or queue it while 16 are outstanding. (DEDUCED: log entry 33) -/
def ctrlSend (d : Dev) (p id : Nat) (payload : List Byte) (at? : Option Nat) : Dev :=
  let x := d.port p
  let r : CtrlReq := ⟨0, id, payload, false, at?⟩
  if x.reqs.length < 16 then ctrlNow d p r else d.setPort p { x with queued := queueIn r x.queued }

/-- The outstanding request of a tag. -/
def reqOf (d : Dev) (p tag : Nat) : Option CtrlReq := (d.port p).reqs.find? fun r => r.tag == tag

/-- A request ends: its tag is released and a waiting request takes the place. -/
def reqDone (d : Dev) (p tag : Nat) : Dev :=
  let x := d.port p
  let d1 := d.setPort p { x with reqs := x.reqs.filter fun r => r.tag != tag }
  match x.queued with
  | [] => d1
  | r :: rs => ctrlNow (d1.setPort p { d1.port p with queued := rs }) p r

/-- Names of Table YLINK-5. -/
@[reducible] def cmDESC_READ : Nat := 0x01
@[reducible] def cmSYNTH_TUNE : Nat := 0x02
@[reducible] def cmCAL_RUN : Nat := 0x03
@[reducible] def cmGAIN_SET : Nat := 0x04
@[reducible] def cmPA_BIAS : Nat := 0x05
@[reducible] def cmTR_SWITCH : Nat := 0x06
@[reducible] def cmTELEM_POLL : Nat := 0x07
@[reducible] def cmLOOP_SET : Nat := 0x08
@[reducible] def cmHEAD_RESET : Nat := 0x09

/-- The path a calibration kind occupies (R126): 0 to 1 receive, 2 to 4 transmit; the loopback path occupies both. -/
def calPaths (k : Nat) : List Nat := if k ≤ 1 then [0] else if k ≤ 4 then [1] else [0, 1]

/-- What paths await before they are ready (R128): a SYNTH_STATUS OK, a CAL_DONE OK. -/
def synthNeed (path : Nat) : Nat := 2 * path
def calNeeds (k : Nat) : List Nat := (calPaths k).map fun x => 2 * x + 1

/-- The paths of what is awaited are not ready. -/
def Head.await (h : Head) (ns : List Nat) : Head :=
  { h with needs := h.needs ++ ns.filter (fun n => !h.needs.contains n), rxReady := h.rxReady && !ns.any (· / 2 == 0),
           txReady := h.txReady && !ns.any (· / 2 == 1) }

/-- What was awaited has arrived: a path that awaits nothing more is ready. -/
def Head.arrived (h : Head) (ns : List Nat) : Head :=
  let l := h.needs.filter fun n => !ns.contains n
  { h with needs := l, rxReady := if ns.any (· / 2 == 0) then !l.any (· / 2 == 0) else h.rxReady,
           txReady := if ns.any (· / 2 == 1) then !l.any (· / 2 == 1) else h.txReady }

/-- The channel detectors of a port are blanked while its receive path is not ready: its contexts end LOST_HEAD (R130). -/
def pathsDown (d : Dev) (p : Nat) (ns : List Nat) : Dev :=
  let d1 := d.setHead p ((d.head p).await ns)
  if ns.any (· / 2 == 0) then endPort d1 p rxLOST_HEAD else d1

/-- A SYNTH_TUNE or CAL_RUN is outstanding on a path (R126). -/
def Head.busy (h : Head) (path : Nat) : Bool :=
  h.tuning.contains path || match h.calRunning with
    | some k => (calPaths k).contains path
    | none => false

/-- Tune a path to the Band plan centre (R127); while the path is busy the tune waits for it (R126). (DESIGN CHOICE: log entry 119) -/
def tune (d : Dev) (p path : Nat) : Dev :=
  let d1 := pathsDown d p [synthNeed path]
  let h := d1.head p
  if h.busy path then d1.setHead p { h with wanted := h.wanted ++ if h.wanted.contains path then [] else [path] }
  else ctrlSend (d1.setHead p { h with tuning := path :: h.tuning }) p cmSYNTH_TUNE (le 1 path ++ le 4 (bpCentre d.band p)) none

/-- Run a calibration kind. -/
def calRun (d : Dev) (p k : Nat) : Dev :=
  let d1 := pathsDown d p (calNeeds k)
  ctrlSend (d1.setHead p { d1.head p with calRunning := some k }) p cmCAL_RUN (le 1 k) none

/-- A tune or calibration has ended: tunes that waited for its path are sent. (DESIGN CHOICE: log entry 119) -/
def nextTune (d : Dev) (p : Nat) : Dev :=
  let h := d.head p
  match h.wanted.find? fun x => !h.busy x with
  | some x => tune (d.setHead p { h with wanted := h.wanted.filter (· != x) }) p x
  | none => d

/-! ### Holds (R142, R144) -/

/-- A hold of the head takes effect: event HOLD with its cause, its bursts end or are refused. (DEDUCED: log entry 35) -/
def setHold (d : Dev) (p c : Nat) : Dev :=
  let h := d.head p
  if h.holds.contains c then d
  else headHeld (raise (d.setHead p { h with holds := h.holds ++ [c] }) 66 p c) p c

/-- A hold clears. -/
def clearHold (d : Dev) (p c : Nat) : Dev := d.setHead p { d.head p with holds := (d.head p).holds.filter (· != c) }

/-! ### Receive gain (R132, R133) -/

/-- Change the receive gain code: one timed GAIN_SET, path 0, 20 µs ahead (R126). (DESIGN CHOICE: log entry 36) (DESIGN CHOICE: log entry 133) -/
def gainChange (d : Dev) (p : Nat) (code : Nat) : Dev :=
  let h := d.head p
  if code = h.rxGain ∨ h.gainPending.isSome then d
  else
    let t := d.ns + 20000
    let d1 := d.setHead p { h with gainPending := some ⟨code, h.rxGain, h.gainComp, false⟩, gainAt := some d.ns, loud := 0, quiet := 0 }
    ctrlSend d1 p cmGAIN_SET (le 1 0 ++ le 2 code ++ le 5 (atField d p t)) (some t)

/-- The change takes effect at its at instant: digital gain equal to the old curve value minus the new (R133). -/
def gainApply (d : Dev) (p : Nat) : Dev :=
  let h := d.head p
  match h.gainPending with
  | none => d
  | some g => noteGain (d.setHead p { h with rxGain := g.code, gainComp := dscRxGain d p g.prevCode - dscRxGain d p g.code,
                                             gainPending := some { g with applied := true } }) p

/-- A receive GAIN_SET is answered OK, or fails: then its compensation is removed (R133). -/
def gainDone (d : Dev) (p : Nat) (ok : Bool) : Dev :=
  let h := d.head p
  match h.gainPending with
  | none => d
  | some g =>
    if ok then (let d1 := if g.applied then d else gainApply d p; d1.setHead p { d1.head p with gainPending := none })
    else noteGain (d.setHead p { h with rxGain := g.prevCode, gainComp := g.prevComp, gainPending := none }) p

/-! ### Leaving service (R111, R120) -/

/-- State and cause of a port. A change of state keeps what the STAMP shows until the next superframe of sf_index 1 (R100). -/
def setState (d : Dev) (p st : Nat) : Dev :=
  (d.setPort p { d.port p with shown := shownState d p, stateAt := d.ts100 }).setFld (YL_STATUS_state p) st
def setCause (d : Dev) (p c : Nat) : Dev := d.setFld (YL_STATUS_cause p) c

/-- The port leaves READY or CALIBRATE: every outstanding request ends FAILED at once, no timeout counted (R111). -/
def endRequests (d : Dev) (p : Nat) : Dev :=
  let d1 := gainDone d p false
  let d2 := d1.setPort p { d1.port p with reqs := [], queued := [], fails := 0, telFails := 0 }
  d2.setHead p { d2.head p with tuning := [], wanted := [], calRunning := none, undo := [] }

/-- The head sees a state other than CALIBRATE and READY: it turns the PA off and the switch to receive (R112). -/
def headQuiet (d : Dev) (p : Nat) : Dev :=
  d.setHead p { d.head p with paOn := false, trTx := false, blanked := false, onCmd := false }

/-- Exit from READY (R119, R120): counted, event LINK_EXIT, bursts and later cells take cause LINK, frames are re-targeted. (DESIGN CHOICE: log entry 32) -/
def exitReady (d : Dev) (p : Nat) : Dev := retarget (headHeld (raise (d.inc (YL_ERR_LINK_relinks p)) 48 p 0) p csLINK) p

/-- The port goes to a state that is not READY: what READY or CALIBRATE carried ends with it. -/
def leaveFor (d : Dev) (p st : Nat) : Dev :=
  let was := d.portState p
  let d1 := setState d p st
  let d2 := if was = ylREADY ∨ was = ylCALIBRATE ∨ was = ylDRAINING then endRequests (endPort d1 p rxLOST_LINK) p else d1
  let d3 := if was = ylDRAINING then headHeld d2 p csLINK else d2
  let d4 := if st = ylCALIBRATE ∨ was < ylCALIBRATE then d3 else headQuiet d3 p
  if was = ylREADY then exitReady d4 p else d4

/-- Fresh counts at entry to a state. -/
def freshLink (x : Port) : Port :=
  { x with run := [], stamps := 0, absent := 0, mismatched := 0, syncWin := [], locked := false, descParts := [], streams := false, upCount := 0 }

/-- Move to DOWN with a cause (R115, R118, R119): an attempt that did not reach READY counts; the hold-off is 10 ms, and 1 s from
the eighth failed attempt on. -/
def toDown (d : Dev) (p cause : Nat) : Dev :=
  let was := d.portState p
  let d1 := setCause (leaveFor d p ylDOWN) p cause
  let d2 := if was = ylALIGN ∨ was = ylDESCRIBE ∨ was = ylCALIBRATE then d1.inc (YL_STATUS_attempts p) else d1
  let n := d2.fld (YL_STATUS_attempts p)
  let d3 := if n = 8 ∧ d1.fld (YL_STATUS_attempts p) = 7 then raise d2 49 p 0 else d2
  d3.setPort p { freshLink (d3.port p) with holdoff := if 8 ≤ n then 1000 else 10 }

/-- The hold-off of a port that is enabled (R119): none the first time, 1 s from the eighth failed attempt until READY, else 10 ms. -/
def enableHoldoff (d : Dev) (p : Nat) : Nat :=
  if !(d.port p).everEnabled then 0 else if 8 ≤ d.fld (YL_STATUS_attempts p) then 1000 else 10

/-- Enter DISABLED (R121): the lane clock stops; an enable written during DRAINING takes effect. -/
def toDisabled (d : Dev) (p : Nat) : Dev :=
  let d1 := setCause (leaveFor d p ylDISABLED) p yeDISABLED
  let x := freshLink (d1.port p)
  if x.enablePending then setState (d1.setPort p { x with enablePending := false, holdoff := enableHoldoff d1 p, everEnabled := true }) p ylDOWN
  else d1.setPort p { x with reqs := [], queued := [] }

/-- A relink rule fires (R118): the port goes to ALIGN or DOWN with its cause. A DRAINING port, below READY then and not enabled, goes on to
DISABLED (R121). (DESIGN CHOICE: log entry 120) -/
def relink (d : Dev) (p st cause : Nat) : Dev :=
  let d1 := if st = ylDOWN then toDown d p cause
    else (let e := setCause (leaveFor d p st) p cause; e.setPort p (freshLink (e.port p)))
  if d.portState p = ylDRAINING then toDisabled d1 p else d1

/-- Enter DESCRIBE: four DESC_READ of 64 bytes. -/
def toDescribe (d : Dev) (p : Nat) : Dev :=
  let d1 := setState d p ylDESCRIBE
  let d2 := d1.setPort p { d1.port p with descParts := [], absent := 0, mismatched := 0 }
  if topRole d.topo p = 3 then d2
  else [0, 64, 128, 192].foldl (fun a o => ctrlSend a p cmDESC_READ (le 1 o ++ le 1 64) none) d2

/-- The calibration kinds CALIBRATE runs: none in its short form (R116). -/
def calKinds (d : Dev) (p : Nat) : List Nat := (List.range 6).filter fun k => nbit (dscCalMask d p) k
def shortForm (d : Dev) (p : Nat) : Bool :=
  dscFlag d p 3 && (d.port p).calValid && Tab.find d.ktl.descCrc p == some (d.fld (YL_DESC_CRC_crc p))

/-- Enter CALIBRATE: latency run, tunes on each path; telemetry and noise floors start anew (R115, R136, R159). (DESIGN CHOICE: log entry 32) (DESIGN CHOICE: log entry 119) -/
def toCalibrate (d : Dev) (p : Nat) : Dev :=
  let sf := shortForm d p
  let d1 := (setState d p ylCALIBRATE).setBit (YL_STATUS_cal_short p) sf
  let d2 := d1.setPort p { d1.port p with run := [], latencyDone := false, tuned := [], calLeft := if sf then [] else calKinds d p, gainDone := false }
  let h := d2.head p
  let d3 := d2.setHead p { h with sensors := [], due := [], excessPolls := 0, needs := [], wanted := [],
                                  rxReady := h.rxReady || topRole d.topo p == 3, txReady := h.txReady || topRole d.topo p == 3 }
  let d4 := { d3 with rx := { d3.rx with channels := d3.rx.channels.map fun c => if c.1 / 256 = p then (c.1, { c.2 with powers := [] }) else c } }
  if topRole d.topo p = 3 then d4
  else
    let d5 := if telemOlder d4 p 1000000000 then setHold d4 p csTELEM else d4
    if dscFlag d p 1 then tune (tune d5 p 0) p 1 else tune d5 p 0

/-- A start stage is reached (R389). -/
def stageReached (d : Dev) (n time : Nat) : Dev :=
  let ms := (d.ns - d.boot.porAt) / 1000000
  ({ d with stage := n }.setFld BOOT_STATUS_stage n).setReg time (BitVec.ofNat 32 ms)

/-- In First Steep the pan_run bit of a PAN is set as soon as one of its beacon ports is READY (R392, step 6); with the last PAN of the
summary the stage is reached. -/
def firstSteep (d : Dev) (p : Nat) : Dev :=
  if d.stage ≠ 0 ∨ d.ts.minimal.isEmpty then d
  else
    let run (b : Dev) (q : Nat) : Bool := nbit (b.fld TS_CTRL_pan_run) q
    let qs := (d.ts.minimal.map (·.1)).filter fun q => (beaconPorts d q).contains p && !run d q
    let d1 := qs.foldl (fun b q => setPanRun b (b.fld TS_CTRL_pan_run + 2 ^ q)) d
    if d1.ts.minimal.all fun e => run d1 e.1 then stageReached (d1.setBit BOOT_STATUS_asn_restored true) 1 BOOT_T_FIRST else d1

/-- Kinds of a head become due. -/
def scheduleKinds (d : Dev) (p : Nat) (ks : List Nat) : Dev :=
  let h := d.head p
  let l := ks.filter fun k => nbit (dscCalMask d p) k && !h.due.contains k
  d.setHead p { h with due := h.due ++ l, dueAt := l.foldl (fun t k => Tab.put t k d.ns) h.dueAt }

/-- The kinds that HC_CTRL.recal_req asks for are scheduled on a READY head; with no request left the bit clears (R153). -/
def recalSchedule (d : Dev) (p : Nat) : Dev :=
  let l := d.hc.recals.filter (· != p)
  let d1 := { d with hc := { d.hc with recals := l } }
  scheduleKinds (d1.setBit HC_CTRL_recal_req (!l.isEmpty)) p [0, 1, 2, 3, 4]

/-- Enter READY (R116, R119, R142): attempts clear, the descriptor's CRC goes to the Kettle, FAULT clears, LOOP_SET of test mode 2. -/
def toReady (d : Dev) (p : Nat) : Dev :=
  let d0 := endRequests (clearHold ((setState d p ylREADY).setFld (YL_STATUS_attempts p) 0) p csFAULT) p
  let d1 := if d0.hc.recals.contains p then recalSchedule d0 p else d0
  let d2 := { d1 with ktl := { d1.ktl with descCrc := Tab.put d1.ktl.descCrc p (d1.fld (YL_DESC_CRC_crc p)) } }
  firstSteep (if d.fld (YL_TEST_mode p) = 2 then ctrlSend d2 p cmLOOP_SET (le 1 1) none else d2) p

/-- CALIBRATE goes on: the next calibration kind once both paths are tuned, the initial gain once the kinds are done, READY once the
latency run and the gain are done too. (DESIGN CHOICE: log entry 32) -/
def calStep (d : Dev) (p : Nat) : Dev :=
  if d.portState p ≠ ylCALIBRATE then d
  else
    let x := d.port p
    let allTuned := x.tuned.contains 0 && (x.tuned.contains 1 || !dscFlag d p 1)
    if topRole d.topo p = 3 ∨ !allTuned ∨ (d.head p).calRunning.isSome then d
    else match x.calLeft with
      | k :: ks => calRun (d.setPort p { x with calLeft := ks }) p k
      | [] =>
        if !x.gainDone && (x.reqs.all fun r => r.id != cmGAIN_SET) && (x.queued.all fun r => r.id != cmGAIN_SET) then
          ctrlSend d p cmGAIN_SET (le 1 0 ++ le 2 (d.head p).rxGain ++ le 5 onReceipt) none
        else if x.gainDone && x.latencyDone then toReady d p else d

/-! ### Failures of tunes and calibrations (R115, R131) -/

/-- A tune (16 + path) or calibration kind failed. In CALIBRATE the port goes DOWN. In READY the first failure waits for its repeat; the
second forces DOWN on a receive path and holds the transmit state with CAL on a transmit path. -/
def workFailed (d : Dev) (p key : Nat) (paths : List Nat) : Dev :=
  if d.portState p = ylCALIBRATE then toDown d p yeCAL_FAILED
  else if d.portState p ≠ ylREADY then d
  else
    let h := d.head p
    if h.failed.contains (key + 32) ∨ h.failed.contains (key + 64) then
      if paths.contains 0 then toDown (d.setHead p { h with failed := h.failed.filter fun k => k % 32 != key }) p yeCAL_FAILED
      else
        let d1 := d.setHead p { h with failed := (key + 64) :: h.failed.filter fun k => k % 32 != key }
        setHold (if h.failed.contains (key + 64) then d1 else raise d1 67 p key) p csCAL
    else d.setHead p { h with failed := key :: h.failed.filter fun k => k % 32 != key }

/-- It succeeded: its failure record goes; a hold CAL clears when nothing holds it any more. -/
def workOk (d : Dev) (p key : Nat) : Dev :=
  let h := d.head p
  let f := h.failed.filter fun k => k % 32 != key
  let d1 := d.setHead p { h with failed := f }
  if f.any fun k => decide (64 ≤ k) then d1 else clearHold d1 p csCAL

/-- A timed command acts at the head (R107, R133, R140): its gain code, PA bias or switch, and what it replaces in `undo`. -/
def headApply (d : Dev) (p : Nat) (r : CtrlReq) : Dev :=
  let h := d.head p
  let v := field r.payload 0 1
  if (Tab.find h.undo r.tag).isSome then d
  else if r.id = cmGAIN_SET then
    if v = 0 then gainApply d p
    else d.setHead p { h with undo := Tab.put h.undo r.tag h.txCode, txCode := field r.payload 1 2 }
  else if r.id = cmPA_BIAS then d.setHead p { h with undo := Tab.put h.undo r.tag (b2n h.paOn), paOn := v == 1 }
  else if r.id = cmTR_SWITCH then d.setHead p { h with undo := Tab.put h.undo r.tag (b2n h.trTx), trTx := v == 1 }
  else d

/-- It was refused: the head is unchanged by it (R108). -/
def headUndo (d : Dev) (p : Nat) (r : CtrlReq) : Dev :=
  let h := d.head p
  match Tab.find h.undo r.tag with
  | none => d
  | some v =>
    let h1 := { h with undo := Tab.del h.undo r.tag }
    d.setHead p (if r.id = cmGAIN_SET then { h1 with txCode := v } else if r.id = cmPA_BIAS then { h1 with paOn := v == 1 } else { h1 with trTx := v == 1 })

/-- What a failed request ends (status other than OK, or R110's FAILED). -/
def requestFailed (d : Dev) (p : Nat) (r : CtrlReq) : Dev :=
  if r.id = cmSYNTH_TUNE then
    let path := field r.payload 0 1
    nextTune (workFailed (d.setHead p { d.head p with tuning := (d.head p).tuning.filter (· != path) }) p (16 + path) [path]) p
  else if r.id = cmCAL_RUN then
    nextTune (workFailed (d.setHead p { d.head p with calRunning := none }) p (field r.payload 0 1) (calPaths (field r.payload 0 1))) p
  else if r.id = cmGAIN_SET ∧ field r.payload 0 1 = 0 then gainDone d p false
  else headUndo d p r

/-- A request has timed out for good (R110): counted; three TELEM_POLL in a row raise TELEM_FAIL, eight failures in a row move the port to ALIGN. -/
def requestTimedOut (d : Dev) (p : Nat) (r : CtrlReq) : Dev :=
  let d1 := (reqDone d p r.tag).inc (YL_ERR_CTRL_timeout p)
  let x := d1.port p
  let tel := if r.id = cmTELEM_POLL then x.telFails + 1 else x.telFails
  let d2 := requestFailed (d1.setPort p { x with fails := x.fails + 1, telFails := tel }) p r
  let d3 := if r.id = cmTELEM_POLL ∧ tel = 3 then raise d2 51 p 0 else d2
  if 8 ≤ x.fails + 1 ∧ within (d3.portState p) ylDESCRIBE ylDRAINING then relink d3 p ylALIGN yeCTRL else d3

/-- A request was answered: the run of failures ends. -/
def answered (d : Dev) (p : Nat) (r : CtrlReq) : Dev :=
  let d1 := reqDone d p r.tag
  d1.setPort p { d1.port p with fails := 0, telFails := if r.id = cmTELEM_POLL then 0 else (d1.port p).telFails }

end Sys2Proof.Machine
end

