-- ==== Sys2Proof/Machine/HeadControl.lean ====
section
/-! DEFINITION. The commands of head control (05_head_control.md R125 to R148) and of the wake receiver (R149 to R151). -/

namespace Sys2Proof.Machine

/-! ### Telemetry -/

/-- A value lies in the accepted range of its sensor type (Table YLINK-7). (DEDUCED: log entry 34) -/
def sensorRange (ty : Nat) (v : Int) : Bool :=
  if ty ≤ 2 then decide (-550 ≤ v ∧ v ≤ 1500) else if ty = 3 then decide (0 ≤ v ∧ v ≤ 60000)
  else if ty = 4 then decide (0 ≤ v ∧ v ≤ 20000) else if ty ≤ 6 then decide (-160 ≤ v ∧ v ≤ 200) else decide (0 ≤ v ∧ v ≤ 2000)

/-- Take the values of a TELEM in descriptor order: valid ones update their sensor, others count in bad_field (R109, R136). (DEDUCED: log entry 34) -/
def telemValues (d : Dev) (p : Nat) (bs : List Byte) : Dev :=
  (List.range (dscSensors d p)).foldl (fun a k =>
    let ty := dscSensorType d p k
    let v := signed16 (field bs (2 * k) 2)
    if sensorRange ty v then a.setHead p { a.head p with sensors := Tab.put (a.head p).sensors k ⟨v, d.ns⟩ }
    else a.inc (YL_ERR_CTRL_bad_field p)) d

/-- Kinds whose watched temperature differs by 15.0 °C or more from its value at their last run become due (R129). -/
def tempDue (d : Dev) (p : Nat) : List Nat :=
  (List.range 5).filter fun k => nbit (dscCalMask d p) k && !(d.head p).due.contains k &&
    match Tab.find (d.head p).lastRun k, ((sensorOf d p (if k ≤ 1 then 2 else 1)).bind fun i => Tab.find (d.head p).sensors i).map (·.value) with
    | some ⟨_, some t⟩, some v => decide (150 ≤ v - t ∨ 150 ≤ t - v)
    | _, _ => false

/-- Antenna level of a burst on air, 0.25 dBm. -/
def burstLevel (d : Dev) (b : Burst) : Int := predictedOf d b.req.port (d.head b.req.port).txCode + b.scale

/-- Forward power against the prediction, in on-air intervals longer than 2 ms (R139): ten polls in a row above by more than 3.00 dB
raise FWD_POWER, and the excess is added to every p(c). (DESIGN CHOICE: log entry 36) -/
def forwardPower (d : Dev) (p : Nat) : Dev :=
  let on := (headBursts d p).filter (·.onAir)
  let h := d.head p
  match (sensorOf d p 5).bind fun i => Tab.find (d.head p).sensors i with
  | none => d
  | some s =>
    if on.isEmpty ∨ h.onTo ≤ h.onFrom + 2000000 ∨ s.at? ≠ d.ns then d
    else
      let sum := (on.map fun b => antilog (burstLevel d b)).sum
      let n := if sum < antilog (s.value - 12) then h.excessPolls + 1 else 0
      if n < 10 then d.setHead p { h with excessPolls := n }
      else (raise d 65 p 0).setHead p { h with excessPolls := 0, excess := h.excess + (s.value - (quarterDb sum 1 - 800)) }

/-- TELEM: status, count, values (R106, R136, R139, R142, R129). (DESIGN CHOICE: log entry 11) -/
def telem (d : Dev) (p tag : Nat) (payload : List Byte) : Dev :=
  match reqOf d p tag with
  | none => d.inc (YL_ERR_CTRL_stale p)
  | some r =>
    if r.id ≠ cmTELEM_POLL ∨ payload.length ≠ 2 + 2 * dscSensors d p ∨ 5 < field payload 0 1 ∨ field payload 1 1 ≠ dscSensors d p then
      d.inc (YL_ERR_CTRL_bad_field p)
    else
      let d1 := answered d p r
      if field payload 0 1 ≠ 0 then d1
      else
        let d2 := telemValues d1 p (payload.drop 2)
        let fresh (k : Nat) := ((Tab.find (d2.head p).sensors k).map fun s => s.at? == d2.ns).getD false
        let d3 := if (powerSensors d2 p).all fresh then clearHold d2 p csTELEM else d2
        let d4 := scheduleKinds d3 p (tempDue d3 p)
        let hot := ((sensorOf d4 p 1).bind fun i => Tab.find (d4.head p).sensors i).map fun s => decide (1250 ≤ s.value)
        forwardPower (if hot = some true then setHold d4 p csTHERMAL else d4) p

def execTelem (p tag : Nat) (payload : List Byte) (s : State) : Out := s.onDev fun d => telem d p tag payload

/-- Byte 1 of an EVENT is in range for its code (R106). -/
def eventRange (d : Dev) (p code b1 : Nat) : Bool :=
  if code = 1 then decide (b1 ≤ 1) else if code = 2 then b1 == 0 else if code = 4 then b1 == 1
  else if code = 3 ∨ code = 5 then decide (b1 < dscSensors d p) else false

/-- Rule 1 of R132: lower the code by 2, at least 1 ms after any change. -/
def gainDown2 (d : Dev) (p : Nat) : Dev :=
  let h := d.head p
  match h.gainAt with
  | some t => if d.ns < t + 1000000 then d else gainChange d p (h.rxGain - 2)
  | none => gainChange d p (h.rxGain - 2)

/-- EVENT: code, path or sensor, detail (R106, R127, R132, R142, R143). -/
def headEvent (d : Dev) (p : Nat) (payload : List Byte) : Dev :=
  let code := field payload 0 1
  let b1 := field payload 1 1
  if payload.length ≠ 4 ∨ !eventRange d p code b1 then d.inc (YL_ERR_CTRL_bad_field p)
  else if code = 1 then
    let d1 := if b1 = 1 then (headBursts d p).foldl (fun a b => if b.onAir then burstLost a b csSYNTH else a) d else d
    if d1.portState p = ylREADY then tune d1 p b1 else pathsDown d1 p [synthNeed b1]
  else if code = 2 then gainDown2 d p
  else if code = 3 then setHold d p csTHERMAL
  else setHold d p csFAULT

def execEvent (p : Nat) (payload : List Byte) (s : State) : Out := s.onDev fun d => headEvent d p payload

/-- A value that R135 uses passes 20 ms or 1 s of age: beyond 1 s the head is held with TELEM (R136); the margin is part of compOf. -/
def telemAge (d : Dev) (p : Nat) : Dev := if portLive d p && telemOlder d p 1000000000 then setHold d p csTELEM else d

def execTelemAgeExpiry (p : Nat) (s : State) : Out := s.onDev fun d => telemAge d p

/-- PA temperature at or below 110.0 °C for 10 s: THERMAL clears (R142). -/
def thermalClear (d : Dev) (p : Nat) : Dev :=
  if decide (sensorValue d p (sensorOf d p 1) 0 ≤ 1100) then clearHold d p csTHERMAL else d

def execThermalClear (p : Nat) (s : State) : Out := s.onDev fun d => thermalClear d p

/-! ### Calibration in service (R129, R131) -/

/-- 24 h since the last run of a kind on a READY head. -/
def calAge (d : Dev) (p k : Nat) : Dev := if d.portState p = ylREADY ∧ k ≤ 4 then scheduleKinds d p [k] else d

def execCalAgeExpiry (p kind : Nat) (s : State) : Out := s.onDev fun d => calAge d p kind

/-- HC_CTRL.recal_req: every kind of Table HEAD-1 on the selected head; the request stands until the head is READY and they are scheduled. -/
def recalRequest (d : Dev) : Dev :=
  let p := d.fld HC_SEL_head
  let d1 := { d with hc := { d.hc with recals := p :: d.hc.recals.filter (· != p) } }
  if d.portState p = ylREADY then recalSchedule d1 p else d1.setBit HC_CTRL_recal_req true

def execRecalRequest (s : State) : Out := s.onDev recalRequest

/-- Heads with a calibration running. -/
def calibrating (d : Dev) : List Nat := (List.range 64).filter fun p => d.portState p == ylREADY && (d.head p).calRunning.isSome

/-- A calibration kind may run on a head: one on a head, four on the device, one receive calibration in a sector (R129, R126). -/
def calAllowed (d : Dev) (p k : Nat) : Bool :=
  let h := d.head p
  d.portState p == ylREADY && h.calRunning.isNone && (calPaths k).all (fun x => !h.busy x) &&
  decide ((calibrating d).length < 4) &&
  (decide (1 < k) || (calibrating d).all fun q => topSector d.topo q != topSector d.topo p || decide (1 < (d.head q).calRunning.getD 9))

/-- A slot of the first PAN slot in a port's pan_mask begins in this cycle (Table HEAD-1). A port of no PAN has no slots to wait for. -/
def atBoundary (d : Dev) (p : Nat) : Bool :=
  match (List.range 8).find? fun q => topServes d.topo p q with
  | none => true
  | some q => panSlotNs d q == 0 || decide (((d.tb 0).nanos - panEpoch d q : Int) % (panSlotNs d q : Int) ≤ 26)

/-- No transmit cell of a PAN that the port serves begins within `len` ns, and no burst of the head is admitted to start in them. -/
def txFree (d : Dev) (p len : Nat) : Bool :=
  (headBursts d p).all (fun b => decide (d.ns + len ≤ b.t0)) &&
  (List.range 8).all fun q => !topServes d.topo p q || !nbit (d.fld TS_CTRL_pan_run) q ||
    match firstOccurrence d q 0 clTx with
    | some (_, a, _) => decide (d.ns + len ≤ cellInstant d q a 0)
    | none => true

/-- When a due kind is scheduled (Table HEAD-1): a receive kind at a slot boundary; a transmit kind in a free interval of cal_time_ms + 2 ms, or after
60 s at a slot boundary. -/
def calInstant (d : Dev) (p k : Nat) : Bool :=
  if k ≤ 1 then atBoundary d p
  else txFree d p (1000000 * (dsc d p 0x48 2 + 2)) || (decide (Tab.getD (d.head p).dueAt k d.ns + 60000000000 ≤ d.ns) && atBoundary d p)

/-- A due calibration starts. -/
def calStart (d : Dev) (p k : Nat) : Dev :=
  if (d.head p).due.contains k && calAllowed d p k && calInstant d p k then
    calRun (d.setHead p { d.head p with due := (d.head p).due.filter (· != k) }) p k
  else d

def execCalStart (p kind : Nat) (s : State) : Out := s.onDev fun d => calStart d p kind

/-- Run again what failed: a tune (16 + path) or a kind. A kind that may not run now is due again (R129). -/
def runAgain (d : Dev) (p key : Nat) : Dev :=
  if 16 ≤ key then tune d p (key - 16) else if calAllowed d p key then calRun d p key else scheduleKinds d p [key]

/-- 1 s after a failure in READY it is repeated once (R131). -/
def calRetry (d : Dev) (p key : Nat) : Dev :=
  let h := d.head p
  if d.portState p = ylREADY ∧ h.failed.contains key ∧ key < 32 then
    runAgain (d.setHead p { h with failed := (key + 32) :: h.failed.filter (· != key) }) p key
  else d

def execCalRetry (p key : Nat) (s : State) : Out := s.onDev fun d => calRetry d p key

/-- Every 10 minutes what holds a head with CAL is tried again (R131): of several kinds one runs and the others are due. -/
def calHoldRetry (d : Dev) (p : Nat) : Dev :=
  if d.portState p ≠ ylREADY then d
  else ((d.head p).failed.filter fun k => decide (64 ≤ k)).foldl (fun a k => runAgain a p (k - 64)) d

def execCalHoldRetry (p : Nat) (s : State) : Out := s.onDev fun d => calHoldRetry d p

/-! ### Receive gain (R132) -/

/-- A 1 ms window closes: samples at or above 0.9 of full scale, and the mean power in units of 10^-12 of full scale squared. −15 dBFS and
−35 dBFS are compared by squares. -/
def gainWindow (d : Dev) (p peaks mean : Nat) : Dev :=
  let h := d.head p
  if d.portState p ≠ ylREADY then d
  else
    let loud := if 10 ^ 21 < mean ^ 2 then h.loud + 1 else 0
    let quiet := if mean ^ 2 < 10 ^ 17 then h.quiet + 1 else 0
    let d1 := d.setHead p { h with loud := loud, quiet := quiet }
    let apart : Bool := match h.gainAt with
      | some t => decide (t + 10000000 ≤ d.ns)
      | none => true
    if 16 < peaks then gainDown2 d1 p
    else if 10 ≤ loud ∧ apart then gainChange d1 p (h.rxGain - 1)
    else if 1000 ≤ quiet ∧ apart then gainChange d1 p (min (h.rxGain + 1) 31)
    else d1

def execGainWindow (p peaks mean : Nat) (s : State) : Out := s.onDev fun d => gainWindow d p peaks mean

/-! ### Bursts and on-air intervals -/

/-- HC_CTRL.tx_inhibit is written: while 1 every head is held with INHIBIT (R142, R144). -/
def txInhibit (d : Dev) (on : Bool) : Dev :=
  let d1 := d.setBit HC_CTRL_tx_inhibit on
  if on then (List.range 64).foldl (fun a p => headHeld a p csINHIBIT) d1 else d1

def execTxInhibitWrite (on : Bool) (s : State) : Out := s.onDev fun d => txInhibit d on

/-- At t0 − 100 µs a burst whose transmit path is not ready is refused with SYNTH (R143). -/
def synthDeadline (d : Dev) (task : Nat) : Dev :=
  match startingBurst d task with
  | some (_, b) => if needsHead d b.req.port && !(d.head b.req.port).txReady then burstLost d b csSYNTH else d
  | none => d

def execSynthDeadline (task : Nat) (s : State) : Out := s.onDev fun d => synthDeadline d task

/-- The instant up to which a chain of bursts goes on from `t`: a burst that starts no later than `gap` after it extends it. (DESIGN CHOICE: log entry 36) -/
def chainEnd (l : List Burst) (gap : Nat) : Nat → Nat → Nat
  | 0, t => t
  | n + 1, t => chainEnd l gap n (((l.filter fun b => decide (b.t0 ≤ t + gap)).map (·.t1)).foldl max t)

/-- Send a timed command of a head (R126): its at instant is at least 20 µs ahead. (DESIGN CHOICE: log entry 126) -/
def timed (d : Dev) (p id : Nat) (payload : List Byte) (t : Nat) : Dev :=
  let at_ := max t (d.ns + 20000)
  ctrlSend d p id (payload ++ le 5 (atField d p at_)) (some at_)

/-- An on-air interval of a head begins (R137, R140): the code is chosen from the bursts admitted to start within it, at an instant 2 µs clear
of every on-air interval; the switch and the PA are set ahead of it. Nothing is sent more than 256 hyperframes ahead (R126). (DESIGN CHOICE: log entry 126) -/
def onAirStart (d : Dev) (p : Nat) : Dev :=
  let l := headBursts d p
  match l with
  | [] => d
  | b :: _ =>
    let t0 := (l.map (·.t0)).foldl min b.t0
    if l.any (·.onAir) || looped d p || topRole d.topo p == 3 || decide (d.ns + 256 * 5406720 < t0) then d
    else
      let t1 := chainEnd l 0 17 t0
      let need := ((l.filter fun x => decide (x.t0 ≤ t1)).map (·.pEff)).foldl max (-1000)
      match chooseCode d p need with
      | none => d
      | some c =>
        let h := d.head p
        let lead := 1000 * dscPaLead d p
        let sw := dscTrSwitch d p
        let tg := t0 - lead - sw - 4000
        let d1 := if c = h.txCode ∨ tg < h.onTo + 2000 then d else timed d p cmGAIN_SET (le 1 1 ++ le 2 c) tg
        if h.onCmd then d1
        else
          let d2 := timed d1 p cmTR_SWITCH (le 1 1) (t0 - lead - sw - 3000)
          let d3 := timed d2 p cmPA_BIAS (le 1 1) (t0 - lead - 2000)
          d3.setHead p { d3.head p with onCmd := true }

def execOnAirStart (p : Nat) (s : State) : Out := s.onDev fun d => onAirStart d p

/-- The end t1 of the on-air intervals that the PA stays biased for: bursts go on, or start less than lead + 50 µs after the one before. -/
def biasedUntil (d : Dev) (p : Nat) : Nat := chainEnd (headBursts d p) (1000 * dscPaLead d p + 49999) 17 d.ns

/-- PA off at t1 + 1 µs and switch to receive at t1 + 2 µs (R140), sent 20 µs ahead of it (R126), also when the burst that the PA was biased for
is lost before it starts. (DESIGN CHOICE: log entry 126) -/
def offsDue (d : Dev) (p : Nat) : Dev :=
  let t1 := biasedUntil d p
  if !(d.head p).onCmd || looped d p || !within (d.portState p) ylCALIBRATE ylDRAINING || decide (d.ns + 19030 < t1) then d
  else
    let at_ := max (t1 + 1000) (d.ns + 20000)
    let d1 := timed d p cmPA_BIAS (le 1 0) at_
    let d2 := timed d1 p cmTR_SWITCH (le 1 0) (at_ + 1000)
    d2.setHead p { d2.head p with onCmd := false }

/-- The heads whose PA is biased, looked at in every cycle. (DESIGN CHOICE: log entry 3) -/
def headsDue (d : Dev) : Dev := (d.hc.heads.filter fun e => e.2.onCmd).foldl (fun a e => offsDue a e.1) d

/-- One cycle of SYSCLK (R295): every time base counts, and the timed commands of R140 that are due are sent. (DESIGN CHOICE: log entry 3) -/
def cycle (d : Dev) : Dev := if d.inReset then d else headsDue (tickTime d)

/-- The at instant of a timed GAIN_SET, PA_BIAS or TR_SWITCH arrives (R133, R137, R140): the head acts; the detectors are blanked from a
TR_SWITCH 1, and running contexts end LOST_HEAD. (DESIGN CHOICE: log entry 12) -/
def atInstant (d : Dev) (p tag : Nat) : Dev :=
  match reqOf d p tag with
  | none => d
  | some r =>
    let d1 := headApply d p r
    if r.id = cmTR_SWITCH ∧ field r.payload 0 1 = 1 then endPort (d1.setHead p { d1.head p with blanked := true }) p rxLOST_HEAD else d1

def execAtInstant (p tag : Nat) (s : State) : Out := s.onDev fun d => atInstant d p tag

/-- 2 µs plus tr_switch_ns after the TR_SWITCH 0 instant the detectors resume (R140). -/
def blankingEnd (d : Dev) (p : Nat) : Dev :=
  if (d.head p).trTx then d else d.setHead p { d.head p with blanked := false }

def execBlankingEnd (p : Nat) (s : State) : Out := s.onDev fun d => blankingEnd d p

/-! ### Duty meters -/

/-- Each meter's account is copied to the Kettle (R148). -/
def dutyCopy (d : Dev) : Dev :=
  { d with ktl := { d.ktl with duty := d.hc.duty.map fun e => (e.1, (e.2.take 61).sum), dutyRest := (d.hc.dutyRest.take 61).sum } }

def execDutyCopy (s : State) : Out := s.onDev dutyCopy

/-- A bin of every meter closes and the oldest leaves the account (R147); the accounts are copied (R148). -/
def dutyBinClose (d : Dev) : Dev :=
  let close (l : List Nat) : List Nat := (0 :: l).take 61
  dutyCopy { d with hc := { d.hc with duty := d.hc.duty.map fun e => (e.1, close e.2),
                                      dutyRest := if d.hc.dutyRest.isEmpty then [] else close d.hc.dutyRest } }

def execDutyBinClose (s : State) : Out := s.onDev dutyBinClose

/-- HC_CNT_CLR. -/
def hcCntClr (d : Dev) : Dev := d.clearRegs [HC_SKIP_A, HC_SKIP_B, HC_PWR_LIMITED]

def execHcCntClr (s : State) : Out := s.onDev hcCntClr

/-! ### The wake receiver -/

/-- Bits in which two wake codes differ. -/
def codeDiff (a b : Nat) : Nat := ((List.range 32).filter fun k => nbit (a ^^^ b) k).length

/-- A Whistle's preamble is detected on WAKE_RF, with the wake code received, if any (R149, R150, R151). -/
def whistleReceived (d : Dev) (code : Option Nat) : Dev :=
  if !d.bit KTL_WAKE_CTRL_rx_en || d.fld KTL_WAKE_CODE_code == 0 then d
  else if !((code.map fun c => decide (codeDiff c (d.fld KTL_WAKE_CODE_code) ≤ d.fld KTL_WAKE_CTRL_bit_err_max)).getD false) then
    d.inc KTL_WAKE_COUNT_false_starts
  else
    let now := d.ktl.sec
    let recent := (d.ktl.wakes.filter fun t => decide (now < t + 3600)).length
    let maxW := d.fld KTL_WAKE_CTRL_max_wakes
    let d1 := (d.inc KTL_WAKE_COUNT_wakes).setFld KTL_WAKE_TIME_seconds now
    let d2 := { d1 with ktl := { d1.ktl with wakes := now :: d1.ktl.wakes } }
    let d3 := if maxW = 0 ∨ recent < maxW then (d2.setBit KTL_WAKE_CTRL_pwr_req true).setBit KTL_WAKE_STATUS_woke true
      else raise (d2.setBit KTL_WAKE_STATUS_limited true) 1 0 0
    raise d3 0 0 0

def execWhistleReceived (code : Option Nat) (s : State) : Out := s.onKettle fun d => whistleReceived d code

/-- POR_N has not been released 2 s after pwr_req rose (R151). -/
def pwrTimeout (d : Dev) : Dev :=
  if d.bit KTL_WAKE_CTRL_pwr_req && d.inReset then
    raise ((d.setBit KTL_WAKE_CTRL_pwr_req false).setBit KTL_WAKE_STATUS_pwr_timeout true) 2 0 0
  else d

def execPwrTimeout (s : State) : Out := s.onKettle pwrTimeout

/-- Firmware writes 0 to pwr_req (R151); PWR_REQ follows. -/
def pwrRelease (d : Dev) : Dev := d.setBit KTL_WAKE_CTRL_pwr_req false

def execPwrRelease (s : State) : Out := s.onDev pwrRelease

end Sys2Proof.Machine
end

