-- ==== Sys2Proof/Machine/Yarlink.lean ====
section
/-! DEFINITION. The commands of the Yarlink ports (04_yarlink.md R100 to R124). -/

namespace Sys2Proof.Machine

/-! ### Link timestamps and errors -/

/-- Insert a measurement (RTT, T) into a list that rises by RTT − T. -/
def insertRun (m : Nat × Nat) : List (Nat × Nat) → List (Nat × Nat)
  | [] => [m]
  | y :: ys => if m.1 - m.2 ≤ y.1 - y.2 then m :: y :: ys else y :: insertRun m ys

/-- The 48 of 64 measurements left when the 8 largest and the 8 smallest are dropped (R102). -/
def middle (run : List (Nat × Nat)) : List (Nat × Nat) := ((run.foldr insertRun []).drop 8).take 48

/-- Averages of RTT and of T over them, 100 ps, rounded down. (DEDUCED: log entry 31) -/
def averageRtt (run : List (Nat × Nat)) : Nat := ((middle run).map (·.1)).sum / 48
/-- DEDUCED: log entry 31. -/
def averageTurn (run : List (Nat × Nat)) : Nat := ((middle run).map (·.2)).sum / 48

/-- d_down over them, 100 ps: the average of RTT − T + a, halved (R102). (DEDUCED: log entry 31) -/
def averageDown (d : Dev) (p : Nat) (run : List (Nat × Nat)) : Int :=
  (((middle run).map fun m => (m.1 : Int) - m.2).sum + 48 * toSigned 16 (d.fld (YL_ASYM_asym p))) / 96

/-- A full run yields a new d_down for the next hyperframe boundary, and the averages shown (R102, R104). -/
def runComplete (d : Dev) (p : Nat) (run : List (Nat × Nat)) : Dev :=
  let v := (averageDown d p run).toNat
  let old := d.fld (YL_DLY_DOWN_value p)
  let diff := (v - old) + (old - v)
  let d1 := (d.setFld (YL_RTT_value p) (averageRtt run)).setFld (YL_TURN_value p) (averageTurn run)
  let d2 := d1.setPort p { d1.port p with run := [], dPending := some v, latencyDone := true }
  let d3 := if old ≠ 0 ∧ 200 < diff then raise d2 50 p 0 else d2
  if old ≠ 0 ∧ 500 < diff ∧ d3.portState p = ylREADY then toCalibrate (setCause (leaveFor d3 p ylCALIBRATE) p yeLATENCY) p
  else calStep d3 p

/-- The superframe a STAMP echoes, counted from the downstream hyperframe last begun, and the departure of its STAMP, 100 ps. -/
def echoIndex (d : Dev) (p : Nat) (u : UpStamp) : Int :=
  toSigned 16 (ofSigned 16 ((u.echoHyper : Int) - (d.port p).hyperNum)) * 125 + u.echoSf
def echoDeparture (d : Dev) (p : Nat) (u : UpStamp) : Int := (d.port p).hyperAt + echoIndex d p u * sfTen / 10

/-- The echoed STAMP is one of the last two that the device sent (R102). -/
def echoRecent (d : Dev) (p : Nat) (u : UpStamp) : Bool :=
  decide (echoIndex d p u ≤ superframeNow d p ∧ (superframeNow d p : Int) ≤ echoIndex d p u + 1)

/-- RTT: the arrival of this STAMP minus the departure of the echoed one, 100 ps (R102). -/
def rttOf (d : Dev) (p : Nat) (u : UpStamp) : Nat := (d.ts100 - echoDeparture d p u).toNat

/-- Keep one measurement, unless R102 discards it: the echo is not of the last two STAMPs, T exceeds 43,253 ns, RTT − T is negative.
Measurements are kept in CALIBRATE and READY alone. (DESIGN CHOICE: log entry 121) -/
def measure (d : Dev) (p : Nat) (u : UpStamp) : Dev :=
  let rtt := rttOf d p u
  if !echoRecent d p u || decide (43253 < u.turn) || decide (rtt < 10 * u.turn) || !portLive d p then d
  else
    let run := (rtt, 10 * u.turn) :: (d.port p).run
    if run.length < 64 then d.setPort p { d.port p with run := run } else runComplete d p run

/-- A role 3 port reads the far end's state from the downstream STAMP (byte 5) and follows it into CALIBRATE and READY, and back
(R115, R123). (DESIGN CHOICE: log entry 122) -/
def followFar (d : Dev) (p far : Nat) : Dev :=
  let st := d.portState p
  let d1 := if st = ylDESCRIBE ∧ (far = ylCALIBRATE ∨ far = ylREADY) then toCalibrate d p
    else if st = ylREADY ∧ far = ylCALIBRATE then toCalibrate (leaveFor d p ylCALIBRATE) p else d
  if d1.portState p = ylCALIBRATE ∧ far = ylREADY then toReady d1 p else d1

/-- The device's own count of upstream samples goes on by `n`; it is compared with byte 7 while the streams run (R117, R118). -/
def sampleCount (d : Dev) (p n : Nat) (u : UpStamp) : Dev :=
  let x := d.port p
  let c := x.upCount + n
  if !x.streams || !portLive d p then d.setPort p { x with mismatched := 0 }
  else if c % 256 = u.count then d.setPort p { x with upCount := c, mismatched := 0 }
  else (d.inc (YL_ERR_LINK_sample_err p)).setPort p { x with upCount := c, mismatched := x.mismatched + 1 }

/-- A STAMP arrives (R101, R102, R115, R117, R118): `since` blocks after the one before, `samples` upstream samples after it, bytes 1 to 7. In
near-end loopback it is the device's own (R122). (DESIGN CHOICE: log entry 11) -/
def stampReceived (d : Dev) (p since samples : Nat) (lane : List Byte) : Dev :=
  let bs := if d.fld (YL_TEST_mode p) = 1 then stampNow d p else lane
  let u := upStampOf bs
  if d.portState p = ylDISABLED ∨ d.portState p = ylDOWN then d
  else if d.portState p = ylALIGN then
    let d1 := d.setPort p { d.port p with absent := 0, calValid := u.calValid }
    if !(d1.port p).locked then d1
    else if (d1.port p).stamps = 0 then d1.setPort p { d1.port p with stamps := 1 }
    else if since = 4096 then toDescribe d1 p
    else (d1.inc (YL_ERR_LINK_stamp_err p)).setPort p { d1.port p with stamps := 1 }
  else if since % 4096 ≠ 0 then d.inc (YL_ERR_LINK_stamp_err p)
  else
    let d1 := d.setPort p { d.port p with absent := 0, calValid := u.calValid }
    if topRole d.topo p = 3 then followFar d1 p (field bs 4 1 % 16)
    else
      let d2 := sampleCount d1 p samples u
      if portLive d2 p && decide (3 ≤ (d2.port p).mismatched) then relink d2 p ylALIGN yeSAMPLE
      else measure d2 p u

def execStampReceived (p since samples : Nat) (stamp : List Byte) (s : State) : Out :=
  s.onDev fun d => stampReceived d p since samples stamp

/-- The STAMP is absent from its expected block (R117, R118). (DEDUCED: log entry 31) -/
def stampAbsent (d : Dev) (p : Nat) : Dev :=
  let d1 := d.inc (YL_ERR_LINK_stamp_err p)
  let n := (d1.port p).absent + 1
  if !within (d.portState p) ylALIGN ylDRAINING then d
  else if within (d.portState p) ylDESCRIBE ylDRAINING && decide (2 ≤ n) then relink d1 p ylALIGN yeSTAMP
  else d1.setPort p { d1.port p with absent := n, stamps := 0 }

def execStampAbsent (p : Nat) (s : State) : Out := s.onDev fun d => stampAbsent d p

/-- A block arrives with sync header `sync` and 64 scrambled bits `line` after the 58 line bits `prev`, `since` blocks after the last sync
error (R94, R117, R118): a sync error or an unknown type is counted, another block is none. (DEDUCED: log entry 31) -/
def blockError (d : Dev) (p sync line prev since : Nat) : Dev :=
  if d.portState p = ylDISABLED then d
  else match blockOf sync (descramble 64 prev line).1 with
    | .typeError => d.inc (YL_ERR_SYNC_type_err p)
    | .syncError =>
      let d1 := d.inc (YL_ERR_SYNC_sync_err p)
      let w := (true :: (List.replicate (min since 64) false ++ (d.port p).syncWin)).take 64
      if within (d.portState p) ylALIGN ylDRAINING && decide (16 ≤ (w.filter id).length) then relink d1 p ylDOWN yeSYNC
      else d1.setPort p { d1.port p with syncWin := w, locked := (d1.port p).locked && d.portState p != ylALIGN }
    | _ => d

def execBlockError (p sync line prev since : Nat) (s : State) : Out := s.onDev fun d => blockError d p sync line prev since

/-- 64 consecutive valid sync headers in ALIGN (R115). -/
def blockLock (d : Dev) (p : Nat) : Dev :=
  if d.portState p = ylALIGN then d.setPort p { d.port p with locked := true, stamps := 0 } else d

def execBlockLock (p : Nat) (s : State) : Out := s.onDev fun d => blockLock d p

/-- Hyperframe `h` begins downstream (R100, R102, R199): its number and departure, the new d_down, sample streams, a loopback change
when no burst of the port is on air. (DEDUCED: log entry 31) -/
def hyperframe (d : Dev) (p h : Nat) : Dev :=
  if d.portState p = ylDISABLED then d
  else
    let x := d.port p
    let d1 := match x.dPending with
      | some v => d.setFld (YL_DLY_DOWN_value p) v
      | none => d
    let onAir := (headBursts d p).any (·.onAir)
    let d2 := match x.loopPending with
      | some w => if onAir then d1 else d1.setFld (TX_LOOPn_enable p) (getBits w 0 0)
      | none => d1
    let run := shownState d p == ylCALIBRATE || shownState d p == ylREADY
    d2.setPort p { x with dPending := none, streams := run, hyperNum := h % 2 ^ 24, hyperAt := d.ts100,
                          upCount := if run && !x.streams then 0 else x.upCount, loopPending := if onAir then x.loopPending else none }

def execHyperframeBoundary (p h : Nat) (s : State) : Out := s.onDev fun d => hyperframe d p h

/-! ### Control messages -/

/-- The Strainer's test of an answer (R109): outstanding tag, answer id of that request, length, and a status of Table YLINK-6. -/
def answerOk (d : Dev) (p tag id len : Nat) (payload : List Byte) : Bool :=
  match reqOf d p tag with
  | none => false
  | some r => (if id = 0x84 then [cmGAIN_SET, cmPA_BIAS, cmTR_SWITCH, cmLOOP_SET].contains r.id else r.id + 0x80 == id) &&
      payload.length == len && decide (field payload 0 1 ≤ 5)

/-- Drop a message: stale when its tag names no outstanding request, whether it was released or never sent, else bad_field (R109, R111). (DESIGN CHOICE: log entry 123) -/
def dropMessage (d : Dev) (p tag : Nat) : Dev :=
  if (reqOf d p tag).isNone then d.inc (YL_ERR_CTRL_stale p) else d.inc (YL_ERR_CTRL_bad_field p)

/-- R114: the descriptor is refused. `bs` its 256 bytes. -/
def descBad (d : Dev) (p : Nat) (bs : List Byte) : Bool :=
  let f (o n : Nat) := field bs o n
  let s (o : Nat) := signed16 (field bs o 2)
  let flags := f 5 1
  let txOn := nbit flags 1
  let zero (o n : Nat) := f o n == 0
  -- ASCII, zero-padded
  let text (o : Nat) := ((slice bs o 16).dropWhile fun b => b != 0 && decide (b.toNat < 128)).all (· == 0)
  let curve := ((List.range 16).map fun k => (f (0x98 + 4 * k) 2, s (0x9A + 4 * k)))
  let used := curve.takeWhile fun c => c.1 != 0xFFFF
  let rest := curve.drop used.length
  let n := f 0x55 1
  let b := d.band
  let inBand (lo hi : Nat) := (List.range (bpCount b p)).all fun i =>
    decide (2000 * (lo : Int) ≤ chanFreq2 b p i ∧ chanFreq2 b p i ≤ 2000 * (hi : Int))
  !(f 0xFC 4 == crc32 (bs.take 0xFC) && bs.take 4 == [0x59, 0x4C, 0x48, 0x44] && f 4 1 == 1 && decide (flags < 16) && nbit flags 0 &&
    zero 6 2 && f 8 4 != 0 && text 0x0C && text 0x1C && within (f 0x2C 4) 100000 6000000 && decide (f 0x2C 4 < f 0x30 4) && decide (f 0x30 4 ≤ 6000000) &&
    (if txOn then within (f 0x34 4) 100000 6000000 && decide (f 0x34 4 < f 0x38 4)
     else zero 0x34 4 && zero 0x38 4) &&
    decide (f 0x3C 1 < 16) && decide (f 0x3D 1 < 4) && zero 0x3E 2 && decide (f 0x40 2 ≤ 50000) && decide (f 0x42 2 ≤ 50000) &&
    decide (f 0x44 2 ≤ 50) && within (f 0x46 2) 10 2000 && within (f 0x48 2) 1 500 && within (f 0x4A 2) 1 500 &&
    within (f 0x4C 2) 10 10000 && zero 0x4E 2 && decide (-80 ≤ s 0x50 ∧ s 0x50 ≤ 160) && decide (-80 ≤ s 0x52 ∧ s 0x52 ≤ s 0x50) &&
    decide (f 0x54 1 < 64) && within n 1 16 && zero 0x56 2 &&
    ((List.range 31).all fun k => decide (s (0x58 + 2 * k) ≤ s (0x5A + 2 * k))) &&
    decide (2 ≤ used.length) && (used.zip (used.drop 1)).all (fun c => decide (c.1.1 < c.2.1) && decide (c.2.2 < c.1.2)) &&
    rest.all (fun c => c.1 == 0xFFFF && c.2 == 0x7FFF) &&
    ((List.range 16).all fun k => if k < n then within (f (0xE0 + k) 1) 1 7 else f (0xE0 + k) 1 == 0) && zero 0xF0 12 &&
    nbit (f 0x3C 1) (bpRate b p) && nbit (f 0x3D 1) (bpWidth b p) && inBand (f 0x2C 4) (f 0x30 4) && (!txOn || inBand (f 0x34 4) (f 0x38 4)))

/-- The byte of the descriptor at an offset, if a part received holds it. -/
def descByte (parts : Tab (List Byte)) (a : Nat) : Option Byte :=
  parts.findSome? fun e => if within a e.1 (e.1 + e.2.length - 1) then e.2[a - e.1]? else none

/-- The whole descriptor has come: it is accepted, or the port goes DOWN with DESC_BAD (R114, R115). -/
def descComplete (d : Dev) (p : Nat) : Dev :=
  let bs := (List.range 256).filterMap (descByte (d.port p).descParts)
  if bs.length ≠ 256 then d
  else if descBad d p bs then toDown d p yeDESC_BAD
  else toCalibrate ((d.setPort p { d.port p with desc := bs }).setFld (YL_DESC_CRC_crc p) (field bs 0xFC 4)) p

/-- DESC_DATA: status, offset, count, bytes (R106, R109, R114). An answer that is not OK ends its request and no more is asked: DESC_TIMEOUT
follows. (DESIGN CHOICE: log entry 14) (DESIGN CHOICE: log entry 124) -/
def descData (d : Dev) (p tag : Nat) (payload : List Byte) : Dev :=
  match reqOf d p tag with
  | none => dropMessage d p tag
  | some r =>
    if !answerOk d p tag 0x81 (3 + field payload 2 1) payload then dropMessage d p tag
    else
      let d1 := answered d p r
      if field payload 0 1 ≠ 0 ∨ d1.portState p ≠ ylDESCRIBE then d1
      else descComplete (d1.setPort p { d1.port p with descParts := Tab.put (d1.port p).descParts (field payload 1 1) (payload.drop 3) }) p

def execDescData (p tag : Nat) (payload : List Byte) (s : State) : Out := s.onDev fun d => descData d p tag payload

/-- SYNTH_STATUS: status, path, frequency (R127, R128, R131). It answers the path its request named. -/
def synthStatus (d : Dev) (p tag : Nat) (payload : List Byte) : Dev :=
  match reqOf d p tag with
  | none => dropMessage d p tag
  | some r =>
    let path := field r.payload 0 1
    if !answerOk d p tag 0x82 6 payload || decide (1 < field payload 1 1) then dropMessage d p tag
    else
      let d1 := answered d p r
      if field payload 0 1 ≠ 0 then requestFailed d1 p r
      else
        let h := d1.head p
        -- an EVENT 0x01 since then has a tune of its own waiting
        let h1 := { h with tuning := h.tuning.filter (· != path) }
        let d2 := nextTune (workOk (d1.setHead p (if h.wanted.contains path then h1 else h1.arrived [synthNeed path])) p (16 + path)) p
        if d2.portState p = ylCALIBRATE then
          calStep (d2.setPort p { d2.port p with tuned := path :: (d2.port p).tuned.filter (· != path) }) p
        else d2

def execSynthStatus (p tag : Nat) (payload : List Byte) (s : State) : Out := s.onDev fun d => synthStatus d p tag payload

/-- The temperature a calibration kind watches: board sensor for receive, PA sensor for transmit (Table HEAD-1). -/
def kindTemp (d : Dev) (p k : Nat) : Option Int :=
  ((sensorOf d p (if k ≤ 1 then 2 else 1)).bind fun i => Tab.find (d.head p).sensors i).map (·.value)

/-- CAL_DONE: status, kind, residual (R128, R129, R131, R139). It answers the kind its request named. -/
def calDone (d : Dev) (p tag : Nat) (payload : List Byte) : Dev :=
  match reqOf d p tag with
  | none => dropMessage d p tag
  | some r =>
    let k := field r.payload 0 1
    if !answerOk d p tag 0x83 4 payload || decide (5 < field payload 1 1) then dropMessage d p tag
    else
      let d1 := answered d p r
      if field payload 0 1 ≠ 0 then requestFailed d1 p r
      else
        let h := d1.head p
        let h1 := { ({ h with calRunning := none } : Head).arrived (calNeeds k) with
          lastRun := Tab.put h.lastRun k ⟨d1.ms, kindTemp d1 p k⟩, due := h.due.filter (· != k),
          excess := if within k 2 4 then 0 else h.excess, excessPolls := if within k 2 4 then 0 else h.excessPolls }
        calStep (nextTune (workOk (d1.setHead p h1) p k) p) p

def execCalDone (p tag : Nat) (payload : List Byte) (s : State) : Out := s.onDev fun d => calDone d p tag payload

/-- ACK: status, id of the request (R106, R108, R122, R132, R133). The head has acted on OK alone. -/
def ackMessage (d : Dev) (p tag : Nat) (payload : List Byte) : Dev :=
  match reqOf d p tag with
  | none => dropMessage d p tag
  | some r =>
    if !answerOk d p tag 0x84 2 payload || !([cmGAIN_SET, cmPA_BIAS, cmTR_SWITCH, cmLOOP_SET].contains (field payload 1 1)) then dropMessage d p tag
    else
      let ok := field payload 0 1 == 0
      let d1 := answered d p r
      if r.id = cmGAIN_SET ∧ field r.payload 0 1 = 0 then
        let d2 := gainDone d1 p ok
        if d2.portState p = ylCALIBRATE ∧ ok then calStep (d2.setPort p { d2.port p with gainDone := true }) p else d2
      else if !ok then requestFailed d1 p r
      else if r.id = cmLOOP_SET then d1.setPort p { d1.port p with loopApplied := field r.payload 0 1 }
      else (let d2 := headApply d1 p r; d2.setHead p { d2.head p with undo := Tab.del (d2.head p).undo r.tag })

def execAck (p tag : Nat) (payload : List Byte) (s : State) : Out := s.onDev fun d => ackMessage d p tag payload

/-- Control-channel bytes from the start of a message (R105, R109): the Strainer drops and counts it when its CRC fails or its id is unknown
or a request's; an answer goes on to its own tests, which drop and count it when its tag, length, status or index is wrong. -/
def ctrlMessage (d : Dev) (p : Nat) (bs : List Byte) : Dev :=
  match ctrlParse bs with
  | none => d.inc (YL_ERR_CTRL_crc_err p)
  | some (id, tag, payload) =>
    if id = 0x81 then descData d p tag payload
    else if id = 0x82 then synthStatus d p tag payload
    else if id = 0x83 then calDone d p tag payload
    else if id = 0x84 then ackMessage d p tag payload
    else if id = 0x87 then telem d p tag payload
    else if id = 0x88 ∧ tag = 0 then headEvent d p payload
    else d.inc (YL_ERR_CTRL_bad_field p)

def execCtrlMessageDropped (p : Nat) (msg : List Byte) (s : State) : Out := s.onDev fun d => ctrlMessage d p msg

/-- A request times out (R110): sent once more with a new tag, unless its at instant has passed; then it has failed. -/
def requestTimeout (d : Dev) (p tag : Nat) : Dev :=
  match reqOf d p tag with
  | none => d
  | some r =>
    let late := match r.at? with
      | some t => decide (t ≤ d.ns)
      | none => false
    if r.resent || late || r.id == cmHEAD_RESET then requestTimedOut d p r
    else
      let x := d.port p
      let d1 := d.setPort p { x with reqs := x.reqs.filter fun q => q.tag != tag }
      let t := freeTag (x.reqs.map (·.tag)) 255 x.nextTag
      (d1.setPort p { d1.port p with reqs := (d1.port p).reqs ++ [{ r with tag := t, resent := true }], nextTag := t % 255 + 1 }).emit
        (.control p r.id t r.payload)

def execCtrlRequestTimeout (p tag : Nat) (s : State) : Out := s.onDev fun d => requestTimeout d p tag

/-- The 1 kHz poll (R106): TELEM_POLL to each head in CALIBRATE or READY that has none outstanding or queued. (DESIGN CHOICE: log entry 125) -/
def telemPoll (d : Dev) : Dev :=
  (List.range 64).foldl (fun a p =>
    if portLive a p && topRole a.topo p != 3 && ((a.port p).reqs ++ (a.port p).queued).all (fun r => r.id != cmTELEM_POLL)
    then ctrlSend a p cmTELEM_POLL [] none else a) d

def execTelemPoll (s : State) : Out := s.onDev telemPoll

/-! ### States -/

/-- YL_CTRL.enable written 1 (R119, R121). -/
def portEnable (d : Dev) (p : Nat) : Dev :=
  let d1 := d.setBit (YL_CTRL_enable p) true
  let x := d1.port p
  if d.portState p = ylDRAINING then d1.setPort p { x with enablePending := true }
  else if d.portState p ≠ ylDISABLED then d1
  else setState (d1.setPort p { x with holdoff := enableHoldoff d1 p, everEnabled := true }) p ylDOWN

def execPortEnable (p : Nat) (s : State) : Out := s.onDev fun d => portEnable d p

/-- YL_CTRL.enable written 0 (R121): from READY to DRAINING, below READY straight to DISABLED. (DEDUCED: log entry 33) -/
def portDisable (d : Dev) (p : Nat) : Dev :=
  let d1 := d.setBit (YL_CTRL_enable p) false
  if d.portState p = ylDISABLED then d1
  else if d.portState p = ylDRAINING then d1.setPort p { d1.port p with enablePending := false }
  else if d.portState p ≠ ylREADY then toDisabled d1 p
  else
    retarget (raise ((setState (endRequests d1 p) p ylDRAINING).inc (YL_ERR_LINK_relinks p)) 48 p 0) p

def execPortDisable (p : Nat) (s : State) : Out := s.onDev fun d => portDisable d p

/-- YL_CTRL.relink written 1 (Table YLINK-10); the bit clears when taken. -/
def portRelink (d : Dev) (p : Nat) : Dev :=
  if d.portState p = ylDISABLED ∨ d.portState p = ylDRAINING then d else toDown d p yeFORCED

def execPortRelink (p : Nat) (s : State) : Out := s.onDev fun d => portRelink d p

/-- The hold-off ends: DOWN to ALIGN (R119). The ports of an isolated SerDes group stay DOWN (R27). -/
def holdoffExpiry (d : Dev) (p : Nat) : Dev :=
  if d.portState p = ylDOWN ∧ !d.isolated.contains (128 + p / 8) then (let d1 := setState d p ylALIGN; d1.setPort p (freshLink (d1.port p))) else d

def execHoldoffExpiry (p : Nat) (s : State) : Out := s.onDev fun d => holdoffExpiry d p

/-- A state's timeout (Table YLINK-9). -/
def stateTimeout (d : Dev) (p st cause : Nat) : Dev := if d.portState p = st then toDown d p cause else d

def execAlignTimeout (p : Nat) (s : State) : Out := s.onDev fun d => stateTimeout d p ylALIGN yeALIGN_TIMEOUT
def execDescTimeout (p : Nat) (s : State) : Out := s.onDev fun d => stateTimeout d p ylDESCRIBE yeDESC_TIMEOUT
def execCalTimeout (p : Nat) (s : State) : Out := s.onDev fun d => stateTimeout d p ylCALIBRATE yeCAL_TIMEOUT

/-- The current timeslot ends for a DRAINING port (R121): what still runs is aborted and journalled, the port is DISABLED. (DEDUCED: log entry 33) -/
def portDrainEnd (d : Dev) (p : Nat) : Dev :=
  if d.portState p ≠ ylDRAINING then d
  else
    let d1 := (d.rx.ctx.filter fun x => x.2.port == p).foldl (fun a _ => jNote a 0x04 3 jABORTED 0 (p + noCell * 256) 0 0 0) d
    toDisabled ((headBursts d1 p).foldl (fun a b =>
      if b.onAir then jNote a 0x04 3 jABORTED 1 (p + (b.req.cell.getD noCell) * 256) 0 0 0 else a) d1) p

def execPortDrainEnd (p : Nat) (s : State) : Out := s.onDev fun d => portDrainEnd d p

/-- YL_ERR_CLR (Table of R124). -/
def ylErrClr (d : Dev) (p : Nat) : Dev := d.clearRegs [YL_ERR_SYNC p, YL_ERR_CTRL p, YL_ERR_LINK p]

def execYlErrClr (p : Nat) (s : State) : Out := s.onDev fun d => ylErrClr d p

/-! ### Head emulation (R123) -/

/-- Bytes of an emulated descriptor; emulated sensor values. -/
def emuDesc (d : Dev) (p : Nat) : List Byte := (List.range 64).flatMap fun m => le 4 (d.reg (YL_EMU_DESCm p m)).toNat
def emuTelem (d : Dev) (p : Nat) : List Byte := (List.range 8).flatMap fun m => le 4 (d.reg (YL_EMU_TELEMm p m)).toNat

/-- A control request reaches a port of Topology role 3: answered from its registers, or an answer becomes due. -/
def emuRequest (d : Dev) (p id tag : Nat) (payload : List Byte) : Dev :=
  let later (b : List Byte) := d.setPort p { d.port p with emu := (d.port p).emu ++ [⟨id + 0x80, tag, b⟩] }
  if topRole d.topo p ≠ 3 ∨ d.portState p = ylDISABLED then d
  else if id = cmDESC_READ then
    let o := field payload 0 1
    let n := field payload 1 1
    if 64 < n ∨ n = 0 ∨ 256 < o + n then d.emit (.emulated p 0x81 tag [2, BitVec.ofNat 8 o, 0])
    else d.emit (.emulated p 0x81 tag (le 1 0 ++ le 1 o ++ le 1 n ++ slice (emuDesc d p) o n))
  else if id = cmSYNTH_TUNE then later (le 1 0 ++ slice payload 0 5)
  else if id = cmCAL_RUN then later (le 1 0 ++ slice payload 0 1 ++ le 2 0)
  else if id = cmTELEM_POLL then
    let n := field (emuDesc d p) 0x55 1
    d.emit (.emulated p 0x87 tag (le 1 0 ++ le 1 n ++ (emuTelem d p).take (2 * n)))
  else if id = cmLOOP_SET then
    (d.setPort p { d.port p with loopApplied := field payload 0 1 }).emit (.emulated p 0x84 tag (le 1 0 ++ le 1 id))
  else if id = cmGAIN_SET ∨ id = cmPA_BIAS ∨ id = cmTR_SWITCH then d.emit (.emulated p 0x84 tag (le 1 0 ++ le 1 id))
  else d

def execEmuRequest (p id tag : Nat) (payload : List Byte) (s : State) : Out := s.onDev fun d => emuRequest d p id tag payload

/-- A due answer is sent: SYNTH_STATUS after synth_settle_us, CAL_DONE after 1 ms. -/
def emuAnswerDue (d : Dev) (p tag : Nat) : Dev :=
  match (d.port p).emu.find? fun a => a.tag == tag with
  | none => d
  | some a => (d.setPort p { d.port p with emu := (d.port p).emu.filter fun x => x.tag != tag }).emit (.emulated p a.id a.tag a.payload)

def execEmuAnswerDue (p tag : Nat) (s : State) : Out := s.onDev fun d => emuAnswerDue d p tag

/-- A sample block is returned while PRBS31 fills the slots, after the 31 bits `hist` of the sequence (R122): its bits are checked one by
one. -/
def prbsCheck (d : Dev) (p hist block : Nat) : Dev :=
  if d.bit (YL_TEST_prbs p) then d.addFld (YL_PRBS_ERR_errors p) (bitErrors (prbs31 64 hist).1 block) else d

def execPrbsError (p hist block : Nat) (s : State) : Out := s.onDev fun d => prbsCheck d p hist block

end Sys2Proof.Machine
end

