-- ==== Sys2Proof/Machine/Blend.lean ====
section
/-! DEFINITION. The Blend loader's commands (02_blend.md R46 to R55) and Second Steep (14_start_and_self_update.md R397, R403). -/

namespace Sys2Proof.Machine

/-! ### Receiving -/

/-- Count a refused Blend or an ignored start. (DEDUCED: log entry 25) -/
def blRefuse (d : Dev) : Dev := d.inc BLD_REFUSED_count

/-- A load is asked for (R52): BUSY while one is in progress, BAD_LENGTH outside the length range. -/
def blendLoad (d : Dev) (src : LoadSource) (len : Nat) (cmd : Option Nat) : Dev :=
  if within (bldState d) bsRECEIVING bsAPPLYING then
    let d1 := blRefuse (d.setFld BLD_STATUS_refusal blBusy)
    match cmd with
    | some j => d1.toCmd (.cmd j) blBusy (le 4 0xFF ++ le 4 0)
    | none => d1
  else if !within len 4096 16777216 || len % 4 != 0 then
    blRefuse (loadFail (setLoad d (some ⟨src, len, [], cmd⟩)) blBadLength 0xFF 0)
  else loadBegin d src len cmd

/-- BLD_CTRL.start: source, address and length from their registers; the bit clears. The address is taken as it is, also where it is no multiple of
16. (DESIGN CHOICE: log entry 118) -/
def blendStart (d : Dev) : Dev :=
  let a := d.reg64 BLD_SRC_ADDR_LO
  let src : LoadSource := if d.fld BLD_CTRL_source = 0 then .port else if d.fld BLD_CTRL_source = 1 then .host a else .flash a
  blendLoad (d.setFld BLD_CTRL_start 0) src (d.fld BLD_LENGTH_length) none

def execBlendStart (s : State) : Out := s.onDev blendStart

/-- Bytes of a load have come; the last of them starts validation. -/
def loadBytes (d : Dev) (l : Load) (bs : List Byte) : Dev :=
  let all := (l.bytes ++ bs).take l.length
  let d1 := setLoad d (some { l with bytes := all })
  if l.length ≤ all.length then d1.setFld BLD_STATUS_state bsVALIDATING else d1

/-- The load in state RECEIVING. -/
def receiving (d : Dev) : Option Load := if bldState d = bsRECEIVING then d.bld.load else none

/-- A word at BLD_DATA (R55); ignored outside RECEIVING from the register port. -/
def bldData (d : Dev) (w : Word) : Dev :=
  match receiving d with
  | some l => if l.source = .port then loadBytes d l (le 4 w.toNat) else d
  | none => d

def execBldData (w : Word) (s : State) : Out := s.onDev fun d => bldData d w

/-- Bytes arrive: those a DMA completion carries, or the whole read of flash. (DEDUCED: log entry 27) -/
def blendRead (d : Dev) (bs : List Byte) : Dev :=
  match receiving d with
  | none => d
  | some l => match l.source with
    | .port => d
    | .host _ => loadBytes d l bs
    | .buffer h => loadBytes d l (bufGet d h)
    | .flash a => let (b, d1) := flashBytes d a l.length; loadBytes d1 l b
    | .start prev => loadBytes d l (fit l.length (bnPart (bundleArea d (if prev then 2 else 0)) 2))

def execBlendReadCompletion (bytes : List Byte) (s : State) : Out := s.onDev fun d => blendRead d bytes

/-- A load has failed. Of the start sequence's, ACTIVE's gives way to PREVIOUS; after PREVIOUS's the device waits in First Steep (R48). (DEDUCED: log entry 27) -/
def loadEnd (d : Dev) (code entry off : Nat) : Dev :=
  let d1 := loadFail d code entry off
  match d.bld.load with
  | none => d1
  | some l => match l.source with
    | .start false => loadStart d1 true
    | .start true => (raise d1 16 0 0).setFld BOOT_STATUS_halt 3
    | _ => d1

/-- A wait of Table BLEND-10 has timed out, for the sources that have it. (DEDUCED: log entry 25) -/
def loadTimeout (d : Dev) (p : LoadSource → Bool) : Dev :=
  match receiving d with
  | some l => if p l.source then blRefuse (loadEnd d blTimeout 0xFF 0) else d
  | none => d

/-- Whether a source is host memory, or what stands for it in a management command, and whether it is flash. -/
def LoadSource.isHost : LoadSource → Bool
  | .host _ => true
  | .buffer _ => true
  | _ => false
def LoadSource.isFlash : LoadSource → Bool
  | .flash _ => true
  | .start _ => true
  | _ => false

def execBlendDataTimeout (s : State) : Out := s.onDev fun d => loadTimeout d fun x => x == .port
def execBlendDmaTimeout (s : State) : Out := s.onDev fun d => loadTimeout d LoadSource.isHost
def execBlendFlashTimeout (s : State) : Out := s.onDev fun d => loadTimeout d LoadSource.isFlash

/-! ### Validation -/

/-- What the checks know of the device; the key is that of the slot the signature block names. The second part marks a slot found bad. -/
def blendEnv (f : Fuses) (d : Dev) (bs : List Byte) : BlendEnv × Dev :=
  let s := field bs (bs.length - 102) 2
  let (r, k, d1) := useSlot f d s 41 3 none none
  (⟨deviceId f, d.hc.lock, d.fld BLD_SVN_MIN_svn, d.bld.cfg, d.reg64 BLD_ACTIVE_ID_LO, d.bld.svn, d.fld BLD_DELTA_SEQ_seq,
    decide (d.stage = 3), if r = scOK then [(s, k)] else []⟩, d1)

/-- Validate received bytes: the verdict, and the state with what check 7 marked. (DEDUCED: log entry 24) -/
def blendVerdict (f : Fuses) (d : Dev) (bs : List Byte) : Verdict × Dev :=
  let (env, d1) := blendEnv f d bs
  let reached := decide (64 ≤ bs.length) && ((blCheckHeader env bs).or (blCheckDirectory bs)).isNone
  (validateBlend env bs, if reached then d1 else d)

/-- Signed bytes of a Blend (R37). -/
def blSigned (bs : List Byte) : List Byte := bs.take (bs.length - 104)

/-- A load ends DONE or PENDING, with code OK. -/
def loadOk (d : Dev) (st : Nat) : Dev :=
  let d1 := (((d.setFld BLD_STATUS_state st).setFld BLD_STATUS_code blOk).setFld BLD_STATUS_entry 0xFF).setFld BLD_ERR_OFFSET_offset 0
  let d2 := match d.bld.load.bind (·.cmd) with
    | some j => d1.toCmd (.cmd j) blOk (le 4 0xFF ++ le 4 0)
    | none => d1
  setLoad d2 none

/-! ### Deltas -/

/-- The boundary of R50 for a PAN: the first ASN that is a multiple of slotframe 0's length in force and starts 2 timeslots or more from now. -/
def deltaBoundary (d : Dev) (p : Nat) : Nat :=
  let s := panSlotNs d p
  let len := max (((panFrame d.bld.cfg p 0).map (·.length)).getD 1) 1
  if s = 0 then 0
  else
    let t : Int := (d.tb 0).nanos - panEpoch d p + 2 * s
    let a := ((t + (s - 1 : Nat)) / (s : Int) % 2 ^ 40).toNat
    (a + len - 1) / len * len % 2 ^ 40

def setPendingDelta (d : Dev) (x : Option PendingDelta) : Dev :=
  let left := match x with
    | some y => y.affected - (y.affected &&& y.switched)
    | none => 0
  { d with bld := { d.bld with pending := x } }.setFld BLD_PENDING_PANS_pans left

/-- Every affected PAN has switched (R49, R52): the log entry is marked, M3 extended, DONE. -/
def deltaDone (d : Dev) : Dev :=
  match d.bld.pending with
  | none => d
  | some x =>
    let mine (e : DeltaEntry) : Bool := e.seq == x.seq && e.baseId == d.reg64 BLD_ACTIVE_ID_LO
    let bytes := ((d.bld.log.find? mine).map (·.bytes)).getD []
    let d1 := { d with bld := { d.bld with log := d.bld.log.map fun e => if mine e then { e with applied := true } else e } }
    let d2 := extend ((setPendingDelta d1 none).setFld BLD_DELTA_SEQ_seq x.seq) 3 (blSigned bytes)
    jClose (d2.setFld BLD_STATUS_state bsDONE) x.jseq jCOMPLETE 0

/-- A validated delta (R49 to R52): logged, its device-wide and QoS sections and the PANs that count as switched applied at once. -/
def acceptDelta (d : Dev) (l : Load) (bs : List Byte) : Dev :=
  let base := d.reg64 BLD_ACTIVE_ID_LO
  let keep := d.bld.log.filter fun e => e.baseId == base
  if 64 ≤ keep.length ∨ areaSize d 1 < (keep.map fun e => e.bytes.length).sum + bs.length then blRefuse (loadEnd d blLogFull 0xFF 0)
  else
    let seq := blDeltaSeqOf bs
    let secs := blSections bs
    let aff := (List.range 8).filter fun p => !(ofPan secs p).isEmpty
    let wait := aff.filter fun p => d.panUsed p && nbit (d.fld TS_CTRL_pan_run) p
    let wide := secs.filter fun s => !(aff.any fun p => (ofPan [s] p).length == 1)
    let (j, d1) := jOpen d 5 (if l.cmd.isSome then 0 else 3) seq aff.length none
    let x : PendingDelta := ⟨seq, secs, wait.map fun p => (p, deltaBoundary d p), maskOf aff, maskOf aff - maskOf wait, j, d.bld.cfg⟩
    let d2 := { d1 with bld := { d1.bld with log := keep ++ [⟨base, seq, bs, false⟩], cfg := applyDelta d1.bld.cfg wide } }
    let d3 := (aff.filter fun p => !wait.contains p).foldl (fun b p => panApply b secs p) (liveApply d2)
    let d4 := jUpdate d3 j fun r => { r with done := aff.length - wait.length }
    let d5 := loadOk (setPendingDelta d4 (some x)) bsPENDING
    if wait.isEmpty then deltaDone d5 else d5

/-- Validation ends (R46). A full Blend in service is only judged; the one First Steep waits for is taken (R30, R48). -/
def blendValidated (f : Fuses) (d : Dev) : Dev :=
  match d.bld.load with
  | none => d
  | some l =>
    if bldState d ≠ bsVALIDATING then d
    else
      let (v, d1) := blendVerdict f d l.bytes
      if v.code ≠ blOk then blRefuse (loadEnd d1 v.code v.entry v.offset)
      else if blKind l.bytes = 2 then acceptDelta d1 l l.bytes
      else
        let takes := decide (d.stage < 2) && d.bld.accepted.isNone && (match l.source with
          | .start _ => true
          | _ => decide (d.fld BOOT_STATUS_halt = 3))
        let d2 := if takes then { d1 with bld := { d1.bld with accepted := some l.bytes } }.setFld BOOT_STATUS_halt 0 else d1
        loadOk d2 bsDONE

def execBlendValidationDone (s : State) : Out := s.onDevF blendValidated

/-- A pending delta switches one PAN at its boundary (R50, R52). -/
def deltaSwitch (d : Dev) (p : Nat) : Dev :=
  match d.bld.pending with
  | none => d
  | some x =>
    if !nbit x.affected p || nbit x.switched p then d
    else
      let y := { x with switched := x.switched + 2 ^ p }
      let d1 := jStepDone ((setPendingDelta (panApply d x.sections p) (some y)).setFld BLD_STATUS_state bsAPPLYING) x.jseq
      if y.switched = y.affected then deltaDone d1 else d1

def execDeltaPanSwitch (pan : Nat) (s : State) : Out := s.onDev fun d => deltaSwitch d pan

/-- BLD_CTRL.abort (R53): a load, or a delta that no PAN has taken, ends ABORTED; in APPLYING it is ignored. (DEDUCED: log entry 25) (DESIGN CHOICE: log entry 26) -/
def blendAbort (d : Dev) : Dev :=
  let st := bldState d
  if st = bsRECEIVING ∨ st = bsVALIDATING then blRefuse (loadEnd d blAborted 0xFF 0)
  else match d.bld.pending with
    | none => d
    | some x =>
      if st ≠ bsPENDING then d
      else
        let d1 := { d with bld := { d.bld with cfg := x.before, log := d.bld.log.filter fun e => !(e.seq == x.seq && !e.applied) } }
        let d2 := liveApply (setPendingDelta d1 none)
        jClose (blRefuse (loadFail d2 blAborted 0xFF 0)) x.jseq jFAILED blAborted

def execBlendAbort (s : State) : Out := s.onDev fun d => blendAbort (d.setFld BLD_CTRL_abort 0)

/-! ### Second Steep -/

/-- Take a full Blend: configuration, identifiers and M2. (DEDUCED: log entry 24) -/
def takeFull (d : Dev) (bs : List Byte) : Dev :=
  let d1 := { d with bld := { d.bld with cfg := blSections bs, svn := blSvn bs, accepted := none } }
  extend ((d1.setReg64 BLD_ACTIVE_ID_LO (blId bs)).setFld BLD_DELTA_SEQ_seq 0) 2 (blSigned bs)

/-- Discard the entries of the delta log that no start has applied, with a note each (R49). -/
def discardDeltas (d : Dev) : Dev :=
  let late := d.bld.log.filter fun e => !e.applied
  late.foldl (fun b e => jNote b 5 4 jNOTE 0 e.seq 0 0 0) { d with bld := { d.bld with log := d.bld.log.filter (·.applied) } }

/-- Re-apply the logged deltas of the full Blend in force, in order (R48, R49). -/
def reapplyDeltas (d : Dev) : Dev :=
  (d.bld.log.filter fun e => e.baseId == d.reg64 BLD_ACTIVE_ID_LO).foldl (fun b e =>
    extend ({ b with bld := { b.bld with cfg := applyDelta b.bld.cfg (blSections e.bytes) } }.setFld BLD_DELTA_SEQ_seq e.seq) 3
      (blSigned e.bytes)) d

/-- Roles of the time bases (R299); the servo of a free base is off (R300), that of a base that acted as free until now comes on. -/
def baseRoles (d : Dev) : Dev :=
  let role (n : Nat) : Nat := field (d.sec 10 0xFFFF) (4 * n) 1
  { d with tim := { d.tim with bases := d.tim.bases.mapIdx fun n t =>
      { t with role := role n, domain := field (d.sec 10 0xFFFF) (4 * n + 1) 1, transport := field (d.sec 10 0xFFFF) (4 * n + 2) 1,
               servoEn := role n != trFREE && (t.servoEn || (n != 0 && n != 4)) } } }

/-- A fuse record as a repair (R439). -/
def fuseRepair (w : Nat) : Repair := ⟨0, w / 2 ^ 60 % 16, true, w / 2 ^ 40 % 2 ^ 20, w / 2 ^ 24 % 65536, w / 2 ^ 8 % 65536, 0⟩

/-- The CADDY_MAP repairs, fused ones first, in seq order (R438). -/
def caddyRepairs (f : Fuses) (d : Dev) : List Repair := (f.repairs.map fuseRepair ++ d.res.log).filter fun r => r.kind == 4

/-- The Caddy partition takes effect (R57, R59): numbers, role masks and engine images; the warm minimum of Caddies run. -/
def partition (f : Fuses) (d : Dev) : Dev :=
  let rs := caddyRepairs f d
  let mapped (n : Nat) : Nat := rs.foldl (fun c r => if c = r.unit then r.replacement else c) n
  let warm := ((List.range 32).filter fun n => !d.isolated.contains (mapped n)).take d.warmMin
  let place (b : Dev) (c : Nat) : Dev :=
    let x := b.caddy c
    let failed := rs.any fun r => r.unit == c
    match (List.range 32).find? fun n => mapped n == c with
    | none => b.setCaddy c { x with logical := none, state := if failed || d.isolated.contains c then cdDISABLED else cdSPARE }
    | some n =>
      let st := if d.isolated.contains c then cdDISABLED else if warm.contains n ∨ x.state = cdRUNNING then cdRUNNING else cdSTOPPED
      b.setCaddy c { x with logical := some n, roles := field (d.sec 6 0xFFFF) (4 * n) 1, state := st }
  (List.range 34).foldl (fun b c => loadImages (place b c) c) d

/-- The scheduler's and the host's requests are accepted from now on. -/
def acceptAll (d : Dev) : Dev :=
  ({ d with dsp := { d.dsp with accepting := true } }.setBit DSP_STATUS_accepting true).setBit TBL_STATUS_accepting true

/-- An alarm of Kettle-only sleep is raised once in service (R368). -/
def oweAlarm (d : Dev) : Dev :=
  if d.vault.alarmDue then
    raise { d with vault := { d.vault with alarmDue := false } } 179 (((d.vault.tlog.find? (·.state == 2)).map (·.source)).getD 0) 0
  else d

/-- Second Steep (R397): structure, deltas, snapshot, recipes, the remaining ports; dispatcher and tables accept; beacons and the summary
are built from the Blend, the broadcast counter ceilings are raised (R360). (DESIGN CHOICE: log entry 78) -/
def secondSteep (f : Fuses) (d : Dev) : Dev :=
  match d.bld.accepted with
  | none => d
  | some bs =>
    if d.stage ≠ 1 ∨ d.vault.hold ∨ d.fld BOOT_STATUS_halt ≠ 0 then d
    else
      let d1 := liveApply (partition f (baseRoles (reapplyDeltas (takeFull (discardDeltas d) bs))))
      let d2 := deriveAll f (restoreTables d1)
      let d3 := ((List.range 64).filter fun p => topUsed d2.topo p).foldl portEnable d2
      let d4 := oweAlarm (stageReached (acceptAll d3) 2 BOOT_T_SECOND)
      let pans := (List.range 8).filter d4.panUsed
      pans.foldl (raiseCeiling f) (buildSummary (pans.foldl buildBeacon d4))

def execSecondSteepReached (s : State) : Out := s.onDevF secondSteep

/-- The restore record of R403 is programmed and verified, or fails: then every node stays held until a counter image completes. -/
def restoreRecord (d : Dev) (ok : Bool) : Dev :=
  if !d.boot.restoreWait then d
  else if ok then
    { d with boot := { d.boot with restoreWait := false, counter := d.boot.counter.map fun c => { c with restores := c.restores + 1 } } }
  else raise { d with boot := { d.boot with restoreWait := false, restoreHeld := true } } 20 unitCounter 0

def execRestoreRecordDone (ok : Bool) (s : State) : Out := s.onDev fun d => restoreRecord d ok

end Sys2Proof.Machine
end

