-- ==== Sys2Proof/Machine/Security.lean ====
section
/-! DEFINITION. Commands of the security block (12_keys_and_frame_security.md): Key Envelopes, keys, life cycle, tamper, random numbers,
Frame Security Units. -/

namespace Sys2Proof.Machine

/-! ### Tamper (R367 to R370) -/

/-- State of Table KEY-12 in force: start-up until recipes are derived, in service, Kettle-only sleep. -/
def tamperState (d : Dev) : Nat := if d.inReset then 2 else if d.stage < 2 then 0 else 1

/-- Log a tamper event. (DESIGN CHOICE: log entry 71) -/
def tamperLog (d : Dev) (source state action : Nat) : Dev :=
  let r : TamperRec := ⟨d.ktl.sec % 2 ^ 32, d.vault.tseq, source, state, action⟩
  { d with vault := { d.vault with tlog := (r :: d.vault.tlog).take 64, tseq := (d.vault.tseq + 1) % 65536 } }

/-- Halt a start (R368). (DESIGN CHOICE: log entry 71) -/
def tamperHalt (d : Dev) : Dev := if d.stage < 2 then d.setFld BOOT_STATUS_halt 2 else d

/-- SEC_OUT is cleared on tamper (Table KEY-13). (DESIGN CHOICE: log entry 71) -/
def clearOuts (d : Dev) : Dev := { d with vault := { d.vault with sets := d.vault.sets.map fun e => (e.1, { e.2 with out := [] }) } }

/-- The response to an enabled source in a state of Table KEY-12; `logged` is the state the log shows. (DESIGN CHOICE: log entry 71) -/
def tamperRespond (f : Fuses) (d : Dev) (source state logged : Nat) : Fuses × Dev :=
  let z := nbit f.tamper source
  let d0 := if state = 2 then d else d.setReg SEC_TAMPER_STATUS (d.reg SEC_TAMPER_STATUS ||| BitVec.ofNat 32 (2 ^ source))
  let d1 := clearOuts (tamperLog d0 source logged (if z then 1 else if state = 0 then 2 else 0))
  if state = 0 then
    let d2 := tamperHalt (zeroiseKeys { d1 with vault := { d1.vault with hold := true } })
    if z then zeroiseVault true f d2 else (f, d2)
  else if state = 1 then
    let d2 := raise d1 179 source 0
    if z then zeroiseVault true f { d2 with vault := { d2.vault with hold := true } } else (f, d2)
  else if z then zeroiseVault false f d1
  else (f, { d1 with vault := { d1.vault with alarmDue := true } })

/-- A source is enabled by its fuse (R367). -/
def tamperEnabled (f : Fuses) (source : Nat) : Bool := decide (source < 8) && nbit f.tamper (8 + source)

/-- A tamper source fires; `live` are the sources active now. Source 7 is sampled with core power only (Table KEY-11). -/
def tamperEvent (source live : Nat) (f : Fuses) (d : Dev) : Fuses × Dev :=
  if !tamperEnabled f source || (source == 7 && d.inReset) then (f, d)
  else
    let d1 := if d.inReset then d else d.setFld SEC_TAMPER_STATUS_live live
    tamperRespond f d1 source (tamperState d) (tamperState d)

/-- A source fires with the core powered or not: while the complexes are stopped for a test slice it latches, and its response waits (R428). (DESIGN CHOICE: log entry 88) -/
def tamperSeen (source live : Nat) (f : Fuses) (d : Dev) : Fuses × Dev :=
  if d.inReset || d.res.gate.mismatch.isNone || !tamperEnabled f source then tamperEvent source live f d
  else
    let d1 := (d.setFld SEC_TAMPER_STATUS_live live).setReg SEC_TAMPER_STATUS
      ((d.setFld SEC_TAMPER_STATUS_live live).reg SEC_TAMPER_STATUS ||| BitVec.ofNat 32 (2 ^ source))
    (f, { d1 with res := { d1.res with gate := { d1.res.gate with tampers := d1.res.gate.tampers ++ [source] } } })

/-- The responses that waited apply. (DESIGN CHOICE: log entry 88) -/
def tampersDue (f : Fuses) (d : Dev) : Fuses × Dev :=
  d.res.gate.tampers.foldl (fun s k => tamperRespond s.1 s.2 k (tamperState s.2) (tamperState s.2))
    (f, { d with res := { d.res with gate := { d.res.gate with tampers := [] } } })

def execTamperEvent (source live : Nat) (s : State) : Out := s.onKettleF (tamperSeen source live)

/-! ### Commands (R372) -/

/-- The master bit of Table KEY-3 of who asks; the host, for a queue's command. -/
def secMaster : Sys2Proof.Who → Option Nat
  | .cmd _ => some 31
  | .master (.cc true) => some 28
  | .master (.cc false) => some 29
  | .master .debug => some 32
  | .master _ => none

/-- Number of a register set: CC secure, CC normal, debug. -/
def setKey : Nat → Nat
  | 28 => 0
  | 29 => 1
  | _ => 2

/-- The set of a master bit, empty before its first use. (DESIGN CHOICE: log entry 65) -/
def Dev.cmdSet (d : Dev) (k : Nat) : CmdSet := Tab.getD d.vault.sets k ⟨[], [], 0⟩

/-- Deliver a result and its output: to the register set of the master, or to the host command. -/
def secEnd (d : Dev) (w : Sys2Proof.Who) (r : Nat) (out : List Byte) : Dev :=
  match w, secMaster w with
  | .cmd _, _ => d.toCmd w r out
  | _, some m =>
    { d with vault := { d.vault with sets := Tab.put d.vault.sets (setKey m) { d.cmdSet (setKey m) with out := out, result := r } } }
  | _, none => d

/-- Journal origin of who asks. -/
def whoOrigin : Sys2Proof.Who → Nat
  | .master (.cc _) => 1
  | _ => 0

/-- Bytes of the arguments outside the ranges a command reads are reserved: they must be zero. -/
def argsOk (arg : List Byte) (used : Nat) : Bool := (arg.drop used).all (· == 0)

/-- What a command does: result, output, fuses and state. -/
abbrev SecBody := Fuses → Dev → Nat × List Byte × Fuses × Dev

/-- A request of the debug master where debug access to device internals is closed (R332). -/
def debugClosed (f : Fuses) (w : Sys2Proof.Who) : Bool := w == .master .debug && !debugOpen f.lc

/-- Run a security command (R372): a closed debug master is refused (R332), then masters of Table KEY-13, life cycle BLANK, stage, TAMPER_HOLD, a tamper event during it (R368), reserved
argument bytes, then its body. (DESIGN CHOICE: log entry 65) -/
def secRun (w : Sys2Proof.Who) (code : Nat) (masters : List Nat) (arg : List Byte) (used : Nat) (tamper : Option Nat) (body : SecBody)
    (f : Fuses) (d : Dev) : Fuses × Dev :=
  match secMaster w with
  | none => (f, d)
  | some m =>
    if debugClosed f w then (f, raise d 177 0 0)
    else if !masters.contains m then (f, secEnd d w scNOT_PERMITTED [])
    else if f.lc = 0 ∧ code ≠ 0x04 ∧ code ≠ 0x0E then (f, secEnd d w scNOT_PERMITTED [])
    else if d.stage < 2 ∧ code ≠ 0x01 ∧ code ≠ 0x02 ∧ code ≠ 0x10 then (f, secEnd d w scNOT_READY [])
    else if d.vault.hold ∧ code ≠ 0x01 then (f, secEnd d w scTAMPER_HOLD [])
    else match tamper.filter (tamperEnabled f) with
      | some src =>
        let d1 := secEnd d w scABORTED_TAMPER []
        let d2 := { d1 with vault := { d1.vault with sets := d1.vault.sets.map fun e => (e.1, { e.2 with arg := [], out := [] }) } }
        let d3 := if isMaster w then
          jNote d2 (if code = 1 then 0x06 else 0x02) (whoOrigin w) jABORTED_TAMPER scABORTED_TAMPER (if code = 1 then d.vault.envCtr else code) 1 0 0
          else d2
        tamperRespond f d3 src (tamperState d) 3
      | none =>
        if !argsOk arg used then (f, secEnd d w scRANGE [])
        else
          let (r, out, f1, d1) := body f d
          (f1, secEnd d1 w r out)

/-- A body that touches no fuse. -/
def noFuse (g : Fuses → Dev → Nat × List Byte × Dev) : SecBody := fun f d =>
  let (r, out, d1) := g f d
  (r, out, f, d1)

/-! ### Key Envelopes (R345 to R349) -/

/-- Fields of Table KEY-6. -/
def evOp (e : List Byte) : Nat := field e 5 1
def evSlot (e : List Byte) : Nat := field e 6 1
def evCounter (e : List Byte) : Nat := field e 0x18 8
def evAttr (e : List Byte) : Nat := field e 0x20 8
def evLen (e : List Byte) : Nat := field e 0x28 2

/-- Check 1 of Table KEY-7 on type, source and payload length. -/
def evTypeOk (a n : Nat) : Bool :=
  within (atType a) 1 4 && decide (atSource a ≤ 2) && (atSource a == 0 || atType a != 3) &&
  nbits a 57 56 == 0 && nbits a 51 47 == 0 && nbits a 27 16 == 0 &&
  (if atSource a = 0 then n == (if atType a = 1 then 16 else if atType a = 3 then 49 else 32) else within n 7 38)

/-- Check 1 of Table KEY-7. -/
def evFormatOk (e : List Byte) : Bool :=
  e.length == 336 && slice e 0 4 == [0x4B, 0x45, 0x4E, 0x56] && field e 4 1 == 1 && within (evOp e) 1 6 &&
  (if evOp e ≤ 3 then within (evSlot e) 1 127 else evSlot e == 0) && field e 7 1 == 0 && field e 0x2A 6 == 0 && field e 0x91 3 == 0 &&
  (if evOp e = 1 ∨ evOp e = 2 then evTypeOk (evAttr e) (evLen e)
   else evAttr e == 0 && evLen e == (if evOp e = 4 then 49 else if evOp e = 5 then 1 else 0))

/-- Decrypt an envelope (R346): the 64-byte payload. (DESIGN CHOICE: log entry 67) -/
def evOpen (f : Fuses) (e : List Byte) : Option (List Byte) :=
  match identity f with
  | none => none
  | some d => match Config.ecdh d (slice e 0x30 97) with
    | none => none
    | some z =>
      let k := Config.hkdf z (slice e 8 16) ([0x54, 0x4D, 0x4B, 0x45] ++ slice e 0x18 8) 32
      match Config.gcmOpen k (slice e 0x94 12) (e.take 0xA0) (slice e 0xA0 64) (slice e 0xE0 16) with
      | none => none
      | some p => if (p.drop (evLen e)).all (· == 0) then some p else none

/-- The transitions of Table KEY-1 that an envelope makes. -/
def lcAllowed (cur new : Nat) : Bool := (new == 3 && cur == 2) || (new == 4 && within cur 2 3) || (new == 5 && within cur 2 4)

/-- The signature of an envelope verifies under slot 0. -/
def evSigned (f : Fuses) (d : Dev) (e : List Byte) : Bool :=
  let (r, k, _) := useSlot f d 0 43 3 none none
  r == scOK && Config.ecdsaVerify k (e.take 0xF0) (slice e 0xF0 48) (slice e 0x120 48)

/-- The templates of the full Blend in force (R44). -/
def attrTemplates (d : Dev) : List Nat :=
  let b := d.sec 9 0xFFFF
  (List.range (b.length / 8)).map fun k => field b (8 * k) 8

/-- The checks of Table KEY-7 in order: the result, and the payload. (DESIGN CHOICE: log entry 67) -/
def evCheck (f : Fuses) (d : Dev) (e : List Byte) : Nat × List Byte :=
  if !evFormatOk e then (scBAD_FORMAT, [])
  else if slice e 8 16 ≠ deviceId f then (scWRONG_DEVICE, [])
  else if !evSigned f d e then (scBAD_SIGNATURE, [])
  else if evCounter e ≤ d.vault.envCtr then (scCOUNTER_LOW, [])
  else match evOpen f e with
    | none => (scBAD_DECRYPT, [])
    | some p =>
      if d.vault.hold ∧ evOp e ≠ 6 then (scTAMPER_HOLD, [])
      else if !(if evOp e ≤ 4 then within f.lc 2 3 else if evOp e = 5 then lcAllowed f.lc (field p 0 1) else within f.lc 2 4) then
        (scLC_REFUSED, [])
      else if (evOp e = 1 ∧ slotState f d (evSlot e) ≠ 0) ∨ ((evOp e = 2 ∨ evOp e = 3) ∧ ¬ (within (slotState f d (evSlot e)) 1 3)) then
        (scBAD_SLOT, [])
      else if (evOp e = 1 ∨ evOp e = 2) ∧ d.sec 9 0xFFFF ≠ [] ∧ !((attrTemplates d).any fun t => t / 65536 == evAttr e / 65536) then
        (scATTR_TEMPLATE, [])
      else if evOp e = 4 ∧ 4 ≤ f.owners.length then (scNO_RECORD, [])
      else (scOK, p)

/-- Session keys derived from a slot are cleared (R348). -/
def clearDerived (d : Dev) (i : Nat) : Dev :=
  let ps := (List.range 8).filter fun p => kekActive d p == some i || kekRetiring d p == some i
  dropCached { d with vault := { d.vault with shadow := Tab.del d.vault.shadow i } } fun c => ps.contains c.pan

/-- Enter a life-cycle state (Table KEY-1): its fuses burnt, and what entry does. (DESIGN CHOICE: log entry 72) -/
def enterLc (code : Nat) (f : Fuses) (d : Dev) : Fuses × Dev :=
  let f1 := { f with lc := code }
  if code = 4 then
    let (f2, d1) := zeroiseVault true f1 d
    (f2, (extend d1 5 (List.replicate 48 1)).setFld SEC_STATUS_lc code)
  else (f1, d.setFld SEC_STATUS_lc code)

/-- Commit the counter and the journal record of an accepted envelope (R348). -/
def evCommit (f : Fuses) (d : Dev) (origin counter : Nat) : Dev :=
  let d1 := jNote { d with vault := { d.vault with envCtr := counter } } 0x06 origin jCOMPLETE scOK counter 1 1 0
  sealVault f (d1.inc SEC_CNT_ENV_accepted)

/-- The owner rotation of R349 from its pending area: record burnt, slot 0 rewritten, counter taken. -/
def ownerCommit (origin counter : Nat) (key : List Byte) (f : Fuses) (d : Dev) : Fuses × Dev :=
  let f1 := f.addOwner (Config.sha384 (key.take 49))
  let d1 := putSlot f1 { d with vault := { d.vault with ownerPending := none } } 0 slot0Attr (key.take 49)
  (f1, evCommit f1 d1 origin counter)

/-- A start that TAMPER_HOLD held continues (R369): the boot chain, or the load of the Blend where it stood. -/
def startAgain (f : Fuses) (d : Dev) : Dev :=
  if d.fld BOOT_STATUS_halt ≠ 2 then d
  else if !d.boot.booted then bootChain f (d.setFld BOOT_STATUS_halt 0)
  else d.setFld BOOT_STATUS_halt (if d.bld.load.isNone && d.bld.accepted.isNone then 3 else 0)

/-- Apply an accepted envelope (R348, R349); a REPLACE leaves the mark of R358, which only an ERASE ends. With `cut` power fails during the fuse burn of a rotation or a life-cycle transition. (DEDUCED: log entry 68) -/
def evApply (origin : Nat) (e p : List Byte) (cut : Bool) (f : Fuses) (d : Dev) : Fuses × Dev :=
  let i := evSlot e
  let c := evCounter e
  if evOp e ≤ 2 then
    let marked := ((d.slot i).map (·.kekInvalid)).getD false
    let d1 := putSlot f d i (evAttr e) p
    let d2 := { d1 with vault := { d1.vault with slots := Tab.upd d1.vault.slots i fun x => { x with kekInvalid := marked } } }
    (f, evCommit f (clearDerived d2 i) origin c)
  else if evOp e = 3 then
    (f, evCommit f (clearDerived { d with vault := { d.vault with slots := Tab.del d.vault.slots i } } i) origin c)
  else if evOp e = 4 then
    if cut then
      ({ f with pend := f.pend ++ [.owner (Config.sha384 (p.take 49))] },
        { d with vault := { d.vault with ownerPending := some (p.take 49, c) } })
    else ownerCommit origin c p f d
  else if evOp e = 5 then
    if cut then ({ f with pend := f.pend ++ [.lifecycle (field p 0 1)] }, evCommit f d origin c)
    else
      let (f1, d1) := enterLc (field p 0 1) f d
      (f1, evCommit f1 d1 origin c)
  else
    let d1 := { d with vault := { d.vault with hold := false } }
    (f, evCommit f (startAgain f d1) origin c)

/-- The body of ENVELOPE. -/
def evBody (w : Sys2Proof.Who) (e : List Byte) (cut : Bool) : SecBody := fun f d =>
  let (r, p) := evCheck f d e
  if r ≠ scOK then (r, [], f, d)
  else
    let (f1, d1) := evApply (whoOrigin w) e p cut f d
    (scOK, [], f1, d1)

/-- An ENVELOPE command is accepted: it gets past the gate of R372 undisturbed and passes the checks of Table KEY-7. -/
def evTaken (e : List Byte) (tamper : Option Nat) (f : Fuses) (d : Dev) : Bool :=
  f.lc != 0 && (tamper.filter (tamperEnabled f)).isNone && (evCheck f d e).1 == scOK

/-- The ENVELOPE command: its 336 bytes as read from the address in its arguments. Every end other than OK counts in refused (R347). (DESIGN CHOICE: log entry 67) -/
def envelope (w : Sys2Proof.Who) (e : List Byte) (tamper : Option Nat) (cut : Bool) (f : Fuses) (d : Dev) : Fuses × Dev :=
  let (f1, d1) := secRun w 0x01 [31, 28, 29, 32] [] 64 tamper (evBody w e cut) f d
  (f1, if (secMaster w).isSome && !debugClosed f w && !evTaken e tamper f d then d1.inc SEC_CNT_ENV_refused else d1)

def execEnvelope (who : Sys2Proof.Who) (bytes : List Byte) (tamper : Option Nat) (cut : Bool) (s : State) : Out :=
  s.onFuses fun f d => powerCut f (envelope who bytes tamper cut f d)

/-! ### QUOTE, DERIVE, MEAS_EXTEND, SLOT_REMAP -/

/-- QUOTE signs what Table KEY-13 names. -/
def quoteBody (arg : List Byte) : Fuses → Dev → Nat × List Byte × Dev := fun f d =>
  if d.bit SEC_STATUS_trng_fail then (scTRNG_FAIL, [], d)
  else match identity f with
    | none => (scNOT_PERMITTED, [], d)
    | some k =>
      let m := [0x54, 0x4D, 0x51, 0x31] ++ arg.take 32 ++ (List.range 8).flatMap (measureReg d) ++ le 1 f.lc ++ deviceId f ++ le 8 d.vault.envCtr
      (scOK, Config.ecdsaSign k m d.draws, { d with draws := d.draws + 1 })

def secQuote (w : Sys2Proof.Who) (arg : List Byte) (tamper : Option Nat) : Fuses → Dev → Fuses × Dev :=
  secRun w 0x02 [31, 28, 29] arg 32 tamper (noFuse (quoteBody arg))

def execQuote (who : Sys2Proof.Who) (arg : List Byte) (tamper : Option Nat) (s : State) : Out :=
  s.onFuses (secQuote who (fit 64 arg) tamper)

/-- DERIVE (R342 to R344): the input key, then mode, label and mask. -/
def deriveBody (arg : List Byte) : Fuses → Dev → Nat × List Byte × Dev := fun f d =>
  let mode := field arg 1 1
  let mask := field arg 2 1
  let len := field arg 3 1
  let n := field arg 8 1
  let label := slice arg 9 n
  if ¬ within len 16 64 ∨ ¬ within n 1 32 ∨ 2 < mode ∨ (field arg 0 1 ≠ 0xFF ∧ 127 < field arg 0 1) ∨ (arg.drop (9 + n)).any (· != 0) then
    (scRANGE, [], d)
  else if mode = 0 ∨ label.take 3 = ascii "tm." then (scNOT_PERMITTED, [], d)
  else if mode = 1 ∧ mask = 0 then (scRANGE, [], d)
  else
    let (r, ikm, d1) :=
      if field arg 0 1 = 0xFF then
        match f.root with
        | some k => if f.lc = 5 then (scNOT_PERMITTED, [], d) else (scOK, k, d)
        | none => (scNOT_PERMITTED, [], d)
      else useSlot f d (field arg 0 1) 40 4 (some 28) none
    if r ≠ scOK then (r, [], d1)
    else match deriveRecipe f d1 ikm (le 1 mask ++ slice arg 4 4 ++ le 1 n ++ label) mode len with
      | none => (scSVN_ABOVE, [], d1)
      | some k => (scOK, k, d1)

def secDerive (w : Sys2Proof.Who) (arg : List Byte) (tamper : Option Nat) : Fuses → Dev → Fuses × Dev :=
  secRun w 0x03 [28] arg 41 tamper (noFuse (deriveBody arg))

def execDerive (who : Sys2Proof.Who) (arg : List Byte) (tamper : Option Nat) (s : State) : Out :=
  s.onFuses (secDerive who (fit 64 arg) tamper)

/-- MEAS_EXTEND (R341). -/
def measBody (arg : List Byte) : Fuses → Dev → Nat × List Byte × Dev := fun _ d =>
  let i := field arg 0 1
  if i < 6 then (scNOT_PERMITTED, [], d)
  else if 7 < i then (scRANGE, [], d)
  else (scOK, [], { d with vault := { d.vault with
    meas := (List.range 8).map fun k => if k = i then Config.sha384 (measureReg d i ++ slice arg 1 48) else measureReg d k } })

def secMeasExtend (w : Sys2Proof.Who) (arg : List Byte) (tamper : Option Nat) : Fuses → Dev → Fuses × Dev :=
  secRun w 0x04 [28] arg 49 tamper (noFuse (measBody arg))

def execMeasExtend (who : Sys2Proof.Who) (arg : List Byte) (tamper : Option Nat) (s : State) : Out :=
  s.onFuses (secMeasExtend who (fit 64 arg) tamper)

/-- SLOT_REMAP (R335): the next free spare takes the number of a bad slot and is EMPTY. -/
def remapBody (arg : List Byte) : Fuses → Dev → Nat × List Byte × Dev := fun f d =>
  let i := field arg 0 1
  if 127 < i ∨ slotState f d i ≠ 4 then (scRANGE, [], d)
  else match (freeSpares d).head? with
    | none => (scNO_SPARE, [], d)
    | some k =>
      let d1 := { d with vault := { d.vault with remap := Tab.put d.vault.remap i k, slots := Tab.del d.vault.slots i } }
      (scOK, le 1 k, sealVault f (replaced d1 8 i ((Tab.find d.vault.remap i).getD i) k))

def secSlotRemap (w : Sys2Proof.Who) (arg : List Byte) (tamper : Option Nat) : Fuses → Dev → Fuses × Dev :=
  secRun w 0x05 [28, 31] arg 1 tamper (noFuse (remapBody arg))

def execSlotRemap (who : Sys2Proof.Who) (arg : List Byte) (tamper : Option Nat) (s : State) : Out :=
  s.onFuses (secSlotRemap who (fit 64 arg) tamper)

/-! ### KEKs (R350, R357, R358) -/

/-- Re-wrap the entry of one node in the walk of a PAN (R357). -/
def rewrapOne (f : Fuses) (p : Nat) (d : Dev) (n : Nat) : Dev :=
  match kekActive d p, kekRetiring d p with
  | some a, some r =>
    let w := entryBytes d 3 n
    match unwrapUnder f d 28 p a w with
    | (_, some _, d1) => d1
    | (_, none, d1) => match unwrapUnder f d1 28 p r w with
      | (_, some pt, d2) => (wrapNode f d2 28 p n pt).2
      | (_, none, d2) => d2.inc SEC_CNT_KEY_unwrap_fail
  | _, _ => d

/-- The walk visits the nodes of a PAN from a NIX up to below another, where it then stands. (DESIGN CHOICE: log entry 69) -/
def walkTo (f : Fuses) (d : Dev) (p upto : Nat) : Dev :=
  match Tab.find d.vault.walks p with
  | none => d
  | some from_ =>
    let d1 := ((panNodes d p).filter fun n => decide (from_ ≤ n ∧ n < upto)).foldl (rewrapOne f p) d
    { d1 with vault := { d1.vault with walks := Tab.put d1.vault.walks p upto } }

/-- A walk ends: rewrap_busy falls. (DESIGN CHOICE: log entry 69) -/
def walkStop (d : Dev) (p next : Nat) : Dev :=
  let d1 := { d with vault := { d.vault with walks := Tab.del d.vault.walks p } }
  (d1.setBit (SEC_PANp_KEK_rewrap_busy p) false).setFld (SEC_PANp_REWRAP_next p) next

/-- KEK_ROTATE (R357). -/
def rotateBody (m : Nat) (arg : List Byte) : Fuses → Dev → Nat × List Byte × Dev := fun f d =>
  let p := field arg 0 1
  let s := field arg 1 1
  if 7 < p ∨ 127 < s then (scRANGE, [], d)
  else if (Tab.find d.vault.walks p).isSome then (scBUSY, [], d)
  else
    let (r, _, d1) := useKek f d m p s
    if r ≠ scOK then (r, [], d1)
    else if ((d1.slot s).map fun x => x.kekInvalid || !nbit x.attr 55).getD true then (scNOT_PERMITTED, [], d1)
    else match kekActive d1 p with
      | none => (scOK, [], d1.setFld (SEC_PANp_KEK_active p) s)
      | some a =>
        let d2 := (d1.setFld (SEC_PANp_KEK_retiring p) a).setFld (SEC_PANp_KEK_active p) s
        let d3 := (d2.setBit (SEC_PANp_KEK_rewrap_busy p) true).setFld (SEC_PANp_REWRAP_next p) 0
        (scOK, [], { d3 with vault := { d3.vault with walks := Tab.put d3.vault.walks p 0 } })

def secKekRotate (w : Sys2Proof.Who) (arg : List Byte) (tamper : Option Nat) : Fuses → Dev → Fuses × Dev :=
  secRun w 0x06 [28] arg 2 tamper (noFuse (rotateBody 28 arg))

def execKekRotate (who : Sys2Proof.Who) (arg : List Byte) (tamper : Option Nat) (s : State) : Out :=
  s.onFuses (secKekRotate who (fit 64 arg) tamper)

/-- The walk of a PAN reaches its end (R357). (DESIGN CHOICE: log entry 69) -/
def kekWalkDone (p : Nat) (f : Fuses) (d : Dev) : Dev :=
  if (Tab.find d.vault.walks p).isNone then d
  else (walkStop (walkTo f d p (2 ^ 20)) p 0).setFld (SEC_PANp_KEK_retiring p) 0x7F

def execKekWalkDone (pan : Nat) (s : State) : Out := s.onDevF (kekWalkDone pan)

/-- Stop a running walk where it stands, a NIX that the spec leaves open (its pace is a bound), and journal it (R358). -/
def walkAbort (f : Fuses) (d : Dev) (p : Nat) : Dev :=
  match Tab.find d.vault.walks p with
  | none => d
  | some from_ =>
    let (v, d1) := d.draw
    let n := max from_ (v % 2 ^ 20)
    jNote (walkStop (walkTo f d1 p n) p n) 0x08 3 jABORTED 0 p 0 (n % 65536) (n / 65536)

/-- KEK_INVALIDATE (R358). -/
def invalidateBody (arg : List Byte) : Fuses → Dev → Nat × List Byte × Dev := fun f d =>
  let p := field arg 0 1
  let s := field arg 1 1
  if 7 < p ∨ 127 < s ∨ (kekActive d p ≠ some s ∧ kekRetiring d p ≠ some s) then (scRANGE, [], d)
  else
    let d1 := walkAbort f d p
    let d2 := if kekActive d1 p = some s then d1.setFld (SEC_PANp_KEK_active p) 0x7F else d1
    let d3 := if kekRetiring d2 p = some s then d2.setFld (SEC_PANp_KEK_retiring p) 0x7F else d2
    let d4 := { d3 with vault := { d3.vault with slots := Tab.upd d3.vault.slots s fun x => { x with kekInvalid := true },
                                                  gens := Tab.put d3.vault.gens p (panGen d3 p + 1) } }
    (scOK, [], dropCached (d4.setBit (SEC_PANp_KEK_invalid_pending p) true) fun c => c.pan == p)

def secKekInvalidate (w : Sys2Proof.Who) (arg : List Byte) (tamper : Option Nat) : Fuses → Dev → Fuses × Dev :=
  secRun w 0x07 [28, 31] arg 2 tamper (noFuse (invalidateBody arg))

def execKekInvalidate (who : Sys2Proof.Who) (arg : List Byte) (tamper : Option Nat) (s : State) : Out :=
  s.onFuses (secKekInvalidate who (fit 64 arg) tamper)

/-- KEK_CLEAR (R358). -/
def kekClearBody (arg : List Byte) : Fuses → Dev → Nat × List Byte × Dev := fun _ d =>
  let p := field arg 0 1
  if 7 < p then (scRANGE, [], d) else (scOK, [], d.setBit (SEC_PANp_KEK_invalid_pending p) false)

def secKekClear (w : Sys2Proof.Who) (arg : List Byte) (tamper : Option Nat) : Fuses → Dev → Fuses × Dev :=
  secRun w 0x08 [28] arg 1 tamper (noFuse (kekClearBody arg))

def execKekClear (who : Sys2Proof.Who) (arg : List Byte) (tamper : Option Nat) (s : State) : Out :=
  s.onFuses (secKekClear who (fit 64 arg) tamper)

/-! ### Node keys (R355, R356) -/

/-- NODE_KEY_NEW. -/
def keyNewBody (arg : List Byte) : Fuses → Dev → Nat × List Byte × Dev := fun f d =>
  let n := field arg 0 4
  if !nodeValid d n then (scRANGE, [], d)
  else if d.bit SEC_STATUS_trng_fail then (scTRNG_FAIL, [], d)
  else
    let p := nodePan d n
    let (root, d1) := d.drawBytes 16
    let pt := keyPlain root p n 0 0
    let (r, d2) := wrapNode f d1 28 p n pt
    if r ≠ scOK then (r, [], d2)
    else
      let d3 := setNodeCtrl (resetKeyFields (resetKeyFields d2 n 0 (field arg 4 1)) n 1 (field arg 5 1)) n 24 24 0
      (scOK, linkKey pt 0 p n ++ linkKey pt 1 p n, dropCached d3 fun c => c.nix == n)

def secNodeKeyNew (w : Sys2Proof.Who) (arg : List Byte) (tamper : Option Nat) : Fuses → Dev → Fuses × Dev :=
  secRun w 0x09 [28] arg 6 tamper (noFuse (keyNewBody arg))

def execNodeKeyNew (who : Sys2Proof.Who) (arg : List Byte) (tamper : Option Nat) (s : State) : Out :=
  s.onFuses (secNodeKeyNew who (fit 64 arg) tamper)

/-- NODE_KEY_ROLL. -/
def keyRollBody (arg : List Byte) : Fuses → Dev → Nat × List Byte × Dev := fun f d =>
  let n := field arg 0 4
  let j := field arg 4 1
  if !nodeValid d n ∨ 1 < j then (scRANGE, [], d)
  else if nodeTxKey d n = j then (scIN_USE, [], d)
  else
    let p := nodePan d n
    let (r, pt, d1) := unwrapNode f d 28 p n
    if r ≠ scOK then (r, [], countObtain d1 r)
    else
      let g := field pt (0x14 + j) 1 + 1
      let pt1 := pt.take (0x14 + j) ++ le 1 g ++ pt.drop (0x15 + j)
      let (r1, d2) := wrapNode f d1 28 p n pt1
      if r1 ≠ scOK then (r1, [], d2)
      else (scOK, linkKey pt1 j p n, dropCached (resetKeyFields d2 n j (field arg 5 1)) fun c => c.nix == n)

def secNodeKeyRoll (w : Sys2Proof.Who) (arg : List Byte) (tamper : Option Nat) : Fuses → Dev → Fuses × Dev :=
  secRun w 0x0A [28] arg 6 tamper (noFuse (keyRollBody arg))

def execNodeKeyRoll (who : Sys2Proof.Who) (arg : List Byte) (tamper : Option Nat) (s : State) : Out :=
  s.onFuses (secNodeKeyRoll who (fit 64 arg) tamper)

/-- NODE_KEY_GET. -/
def keyGetBody (arg : List Byte) : Fuses → Dev → Nat × List Byte × Dev := fun f d =>
  let n := field arg 0 4
  let j := field arg 4 1
  if !nodeValid d n ∨ 1 < j then (scRANGE, [], d)
  else
    let p := nodePan d n
    let (r, pt, d1) := unwrapNode f d 28 p n
    if r ≠ scOK then (r, [], countObtain d1 r) else (scOK, linkKey pt j p n, d1)

def secNodeKeyGet (w : Sys2Proof.Who) (arg : List Byte) (tamper : Option Nat) : Fuses → Dev → Fuses × Dev :=
  secRun w 0x0B [28] arg 5 tamper (noFuse (keyGetBody arg))

def execNodeKeyGet (who : Sys2Proof.Who) (arg : List Byte) (tamper : Option Nat) (s : State) : Out :=
  s.onFuses (secNodeKeyGet who (fit 64 arg) tamper)

/-- NODE_KEY_EXPORT. -/
def keyExportBody (arg : List Byte) : Fuses → Dev → Nat × List Byte × Dev := fun f d =>
  let n := field arg 0 4
  let i := field arg 4 1
  if !nodeValid d n ∨ 127 < i then (scRANGE, [], d)
  else
    let p := nodePan d n
    let (rs, k, d0) := useSlot f d i 46 2 (some 28) (some p)
    if rs ≠ scOK then (rs, [], d0)
    else
      let (r, pt, d1) := unwrapNode f d0 28 p n
      if r ≠ scOK then (r, [], countObtain d1 r) else (scOK, Config.keyWrap k pt, d1)

def secNodeKeyExport (w : Sys2Proof.Who) (arg : List Byte) (tamper : Option Nat) : Fuses → Dev → Fuses × Dev :=
  secRun w 0x0C [28] arg 5 tamper (noFuse (keyExportBody arg))

def execNodeKeyExport (who : Sys2Proof.Who) (arg : List Byte) (tamper : Option Nat) (s : State) : Out :=
  s.onFuses (secNodeKeyExport who (fit 64 arg) tamper)

/-- NODE_KEY_IMPORT. -/
def keyImportBody (arg : List Byte) : Fuses → Dev → Nat × List Byte × Dev := fun f d =>
  let n := field arg 0 4
  let i := field arg 4 1
  if !nodeValid d n ∨ 127 < i ∨ field arg 5 3 ≠ 0 then (scRANGE, [], d)
  else
    let p := nodePan d n
    let (rs, k, d0) := useSlot f d i 46 2 (some 28) (some p)
    if rs ≠ scOK then (rs, [], d0)
    else match Config.keyUnwrap k (slice arg 8 32) with
      | none => (scUNWRAP_FAIL, [], (countUnwrap d0).inc SEC_CNT_KEY_unwrap_fail)
      | some x =>
        let (r, d1) := wrapNode f (countUnwrap d0) 28 p n (keyPlain (x.take 16) p n (field x 0x14 1) (field x 0x15 1))
        if r ≠ scOK then (r, [], d1) else (scOK, [], dropCached d1 fun c => c.nix == n)

def secNodeKeyImport (w : Sys2Proof.Who) (arg : List Byte) (tamper : Option Nat) : Fuses → Dev → Fuses × Dev :=
  secRun w 0x0D [28] arg 40 tamper (noFuse (keyImportBody arg))

def execNodeKeyImport (who : Sys2Proof.Who) (arg : List Byte) (tamper : Option Nat) (s : State) : Out :=
  s.onFuses (secNodeKeyImport who (fit 64 arg) tamper)

/-! ### RANDOM, RECOV_KEY_LOAD, PROVISION, life cycle by debug -/

/-- RANDOM. -/
def randomBody (arg : List Byte) : Fuses → Dev → Nat × List Byte × Dev := fun _ d =>
  let n := field arg 0 1
  if ¬ within n 1 128 then (scRANGE, [], d)
  else if d.bit SEC_STATUS_trng_fail then (scTRNG_FAIL, [], d)
  else
    let (b, d1) := d.drawBytes n
    (scOK, b, d1)

def secRandom (w : Sys2Proof.Who) (arg : List Byte) (tamper : Option Nat) : Fuses → Dev → Fuses × Dev :=
  secRun w 0x0E [28, 29] arg 1 tamper (noFuse (randomBody arg))

def execRandom (who : Sys2Proof.Who) (arg : List Byte) (tamper : Option Nat) (s : State) : Out :=
  s.onFuses (secRandom who (fit 64 arg) tamper)

/-- RECOV_KEY_LOAD (R361). Loaded in JOINING it tells that the join has succeeded, and the device enters TUNNEL (R289). -/
def recovKeyBody (arg : List Byte) : Fuses → Dev → Nat × List Byte × Dev := fun _ d =>
  let d1 := { d with vault := { d.vault with recov := some ⟨arg.take 16, field arg 16 1, 0⟩ } }
  (scOK, [], if d.fld FWD_STATUS_recov = rvJOINING then setRecov d1 rvTUNNEL else d1)

def secRecovKeyLoad (w : Sys2Proof.Who) (arg : List Byte) (tamper : Option Nat) : Fuses → Dev → Fuses × Dev :=
  secRun w 0x0F [28] arg 17 tamper (noFuse (recovKeyBody arg))

def execRecovKeyLoad (who : Sys2Proof.Who) (arg : List Byte) (tamper : Option Nat) (s : State) : Out :=
  s.onFuses (secRecovKeyLoad who (fit 64 arg) tamper)

/-- PROVISION (R333). With `cut` power fails during the burn, which the next release of POR_N completes (R331). (DESIGN CHOICE: log entry 72) -/
def provisionBody (arg : List Byte) (cut : Bool) : SecBody := fun f d =>
  if f.lc ≠ 1 then (scLC_REFUSED, [], f, d)
  else
    let k := arg.take 49
    if cut then (scOK, [], { f with pend := f.pend ++ [.owner (Config.sha384 k), .lifecycle 2] }, putSlot f d 0 slot0Attr k)
    else
    let f1 := { f.addOwner (Config.sha384 k) with lc := 2 }
    (scOK, [], f1, (sealVault f1 (putSlot f1 d 0 slot0Attr k)).setFld SEC_STATUS_lc 2)

def secProvision (w : Sys2Proof.Who) (arg : List Byte) (tamper : Option Nat) (cut : Bool) : Fuses → Dev → Fuses × Dev :=
  secRun w 0x10 [32, 31] arg 49 tamper (provisionBody arg cut)

def execProvision (who : Sys2Proof.Who) (arg : List Byte) (tamper : Option Nat) (cut : Bool) (s : State) : Out :=
  s.onFuses fun f d => powerCut f (secProvision who (fit 64 arg) tamper cut f d)

/-- A life-cycle request of the debug master (R331): MANUFACTURE from BLANK, with the root drawn and the Lock, extended address,
tamper policy, PCI subsystem identifiers and certificate written; SCRAPPED from RETURN. With `cut` power fails during the burn. (DESIGN CHOICE: log entry 72) (DESIGN CHOICE: log entry 106) -/
def lifecycleDebug (target : Nat) (lock eui cert : List Byte) (policy : Nat) (subsys : Option (Nat × Nat)) (cut : Bool) (f : Fuses) (d : Dev) : Fuses × Dev :=
  let w : Sys2Proof.Who := .master .debug
  if !debugOpen f.lc then (f, secEnd (raise d 177 0 0) w scLC_REFUSED [])
  else if d.vault.hold then (f, secEnd d w scTAMPER_HOLD [])
  else if f.lc = 0 ∧ target = 1 then
    if d.bit SEC_STATUS_trng_fail then (f, secEnd d w scTRNG_FAIL [])
    else
      let (root, d1) := d.drawBytes 32
      let f1 := { f with root := some (fit 32 root), lock := lock, eui := fit 8 eui, tamper := policy % 65536,
                         subsys := subsys.map fun x : Nat × Nat => (x.1 % 65536, x.2 % 65536) }
      let d2 := { d1 with boot := { d1.boot with cert := cert.take 2048 } }
      if cut then ({ f1 with pend := f1.pend ++ [.lifecycle 1] }, d2)
      else
        let f2 := { f1 with lc := 1 }
        (f2, secEnd (showIdentity f2 d2) w scOK [])
  else if f.lc = 4 ∧ target = 5 then
    if cut then ({ f with pend := f.pend ++ [.lifecycle 5] }, d)
    else
      let (f1, d1) := enterLc 5 f d
      (f1, secEnd d1 w scOK [])
  else (f, secEnd d w scLC_REFUSED [])

def execLifecycleDebug (target : Nat) (lock eui cert : List Byte) (policy : Nat) (subsys : Option (Nat × Nat)) (cut : Bool) (s : State) : Out :=
  s.onFuses fun f d => powerCut f (lifecycleDebug target lock eui cert policy subsys cut f d)

/-- A request of the debug master where debug access is closed (R332). -/
def debugRefused (f : Fuses) (d : Dev) : Dev := if debugOpen f.lc then d else raise d 177 0 0

def execDebugRequestRefused (s : State) : Out := s.onDevF debugRefused

/-! ### Sealed copies and ceilings (R339, R360) -/

/-- A sealed copy's write completes; a change made meanwhile starts the next. -/
def sealDone (f : Fuses) (d : Dev) : Dev :=
  match d.vault.sealing with
  | none => d
  | some c =>
    let cs := (List.range 8).foldl (fun t p =>
      let k := (c.ceilings[p]?).getD 0
      let e := Tab.getD t p (0, 0)
      if k = 0 then t else Tab.put t p (e.1, max e.2 k)) d.vault.ceilings
    let d1 := ({ d with vault := { d.vault with sealCopy := some c, sealing := none, sealAgain := false, ceilings := cs } }).setBit SEC_STATUS_seal_ok true
    if d.vault.sealAgain then sealVault f d1 else d1

def execSealWriteDone (s : State) : Out := s.onDevF sealDone

/-- A sealed copy not complete after 50 ms is abandoned (R339). -/
def sealTimeout (d : Dev) : Dev :=
  match d.vault.sealing with
  | none => d
  | some _ => raise (({ d with vault := { d.vault with sealing := none, sealAgain := false } }).setBit SEC_STATUS_seal_ok false) 178 0 0

def execSealWriteTimeout (s : State) : Out := s.onDev sealTimeout

/-- The write that carries the raised ceiling of a PAN completes (R360). -/
def ceilingDone (p : Nat) (f : Fuses) (d : Dev) : Dev :=
  match d.vault.sealing with
  | none => d
  | some c => if (Tab.getD d.vault.ceilings p (0, 0)).2 < (c.ceilings[p]?).getD 0 then sealDone f d else d

def execBcastCeilingWriteDone (pan : Nat) (s : State) : Out := s.onDevF (ceilingDone pan)

/-! ### Frame Security Units (R364, R365) -/

/-- The port of an engine. -/
def Dev.fsu (d : Dev) (e : Nat) : Fsu := Tab.getD d.vault.fsu e ⟨0, 0, 0, 0, false, 0⟩
def Dev.setFsu (d : Dev) (e : Nat) (x : Fsu) : Dev := { d with vault := { d.vault with fsu := Tab.put d.vault.fsu e x } }

/-- End an operation. -/
def fsuEnd (d : Dev) (e r : Nat) : Dev := d.setFsu e { d.fsu e with result := r }

/-- The PSDU buffer of a record, and its FCS length. -/
def recPsdu (d : Dev) (rec : Nat) : Nat := field (bufGet d rec) 0x24 4
def recFcs (d : Dev) (rec : Nat) : Nat := if nbit (field (bufGet d rec) 1 1) 4 then 4 else 2

/-- What PARSE finds in a header for a node (R362, R364): result, counter, key, level. -/
def parseHdr (d : Dev) (n p : Nat) (h : Sys2Proof.MacHdr) : Nat × Nat :=
  if h.counter.isNone then (scNO_COUNTER, 0)
  else if h.keyMode ≠ 1 ∨ !levelOk d p h.level then (scLEVEL_REFUSED, 0)
  else match keyNumber d n h.keyIndex with
    | none => (scKEY_UNKNOWN, 0)
    | some j => (scOK, j)

/-- Count the end of a frame (R365). -/
def countFrame (d : Dev) (r : Nat) : Dev :=
  if r = scKEY_UNKNOWN then d.inc SEC_CNT_FRAME_key_unknown
  else if r = scMIC_FAIL then d.inc SEC_CNT_FRAME_mic_fail
  else if r = scLEVEL_REFUSED ∨ r = scNO_COUNTER then d.inc SEC_CNT_KEY_level_refused
  else d

/-- PARSE on a frame record (R364). A handle that names no record ends RANGE. -/
def fsuParse (d : Dev) (e buf node : Nat) : Dev :=
  let d0 := d.setFsu e { d.fsu e with buf := buf, node := node }
  let n := node % 2 ^ 20
  if d.vault.hold then fsuEnd d0 e scTAMPER_HOLD
  else match Tab.find d.rx.hdrs buf with
  | none => fsuEnd d0 e scRANGE
  | some h =>
    let (r, j) := parseHdr d0 n (nbits node 22 20) h
    countFrame (d0.setFsu e ⟨buf, node, h.counter.getD 0, h.level, r == scOK && j == 1, r⟩) r

def execFsuParse (engine buf node : Nat) (s : State) : Out := s.onDev fun d => fsuParse d engine buf node

/-- Verify the frame of a record under a node's key: the result, and the state with the PSDU decrypted in place, its MIC removed. -/
def verifyRecord (f : Fuses) (d : Dev) (caddy rec n p : Nat) (h : Sys2Proof.MacHdr) : Nat × Dev :=
  let (r0, j) := parseHdr d n p h
  if r0 ≠ scOK then (r0, d)
  else
    let (r, k, d1) := obtainKey f d caddy j n p
    if r ≠ scOK then (r, d1)
    else
      let b := bufGet d1 (recPsdu d1 rec)
      let body := b.take (b.length - recFcs d1 rec)
      match Config.ccmOpen k (nonce d1 p (nodeExtBe d1 n) (h.counter.getD 0) h.level (field (bufGet d1 rec) 0x10 5)) h.level
        (body.take h.hdrLen) (body.drop h.hdrLen) with
      | none => (scMIC_FAIL, d1)
      | some pt => (scOK, bufSet d1 (recPsdu d1 rec) (body.take h.hdrLen ++ pt ++ b.drop (b.length - recFcs d1 rec)))

/-- VERIFY (R364). -/
def fsuVerify (e buf node : Nat) (f : Fuses) (d : Dev) : Dev :=
  let d0 := d.setFsu e { d.fsu e with buf := buf, node := node }
  if d.vault.hold then fsuEnd d0 e scTAMPER_HOLD
  else match Tab.find d.rx.hdrs buf with
  | none => fsuEnd d0 e scRANGE
  | some h =>
    let (r, d1) := verifyRecord f d0 (e / 16) buf (node % 2 ^ 20) (nbits node 22 20) h
    fsuEnd (countFrame d1 r) e r

def execFsuVerify (engine buf node : Nat) (s : State) : Out := s.onDevF (fsuVerify engine buf node)

/-- Secure the PSDU of a buffer under key j of a node with a counter: the result. Under nonce_mode 1 the header alone is written, and
the transmit context seals the frame with the ASN of its cell (R363). -/
def secureFor (f : Fuses) (d : Dev) (caddy buf j n p fc : Nat) : Nat × Dev :=
  let (r, k, d1) := obtainKey f d caddy j n p
  if r ≠ scOK then (r, d1)
  else
    let level := d1.fld (SEC_PANp_CFG_tx_level p)
    let b := bufGet d1 buf
    if topNonceMode d1.topo p = 0 then
      (scOK, bufSet d1 buf (secureFrame d1 p k (ownExtBe d1) b level fc (nodeKeyIndex d1 n j) 0))
    else (scOK, bufSet d1 buf (withAux b level fc (nodeKeyIndex d1 n j)).1)

/-- SECURE (R364). -/
def fsuSecure (e buf node fc : Nat) (f : Fuses) (d : Dev) : Dev :=
  let d0 := d.setFsu e { d.fsu e with buf := buf, node := node, fc := fc }
  if d.vault.hold then fsuEnd d0 e scTAMPER_HOLD
  else
  let (r, d1) := secureFor f d0 (e / 16) buf (nbits node 24 24) (node % 2 ^ 20) (nbits node 22 20) fc
  fsuEnd d1 e r

def execFsuSecure (engine buf node fc : Nat) (s : State) : Out := s.onDevF (fsuSecure engine buf node fc)

/-! ### Random numbers, counters -/

/-- A health test fails (R371). -/
def trngFail (d : Dev) : Dev :=
  raise (({ d with vault := { d.vault with passes := 0 } }).setBit SEC_STATUS_trng_fail true) 180 0 0

def execTrngHealthFail (s : State) : Out := s.onDev trngFail

/-- The retest of R371. (DESIGN CHOICE: log entry 74) -/
def trngRetest (d : Dev) (pass : Bool) : Dev :=
  if !d.bit SEC_STATUS_trng_fail then d
  else if !pass then { d with vault := { d.vault with passes := 0 } }
  else if 2 ≤ d.vault.passes then ({ d with vault := { d.vault with passes := 0 } }).setBit SEC_STATUS_trng_fail false
  else { d with vault := { d.vault with passes := d.vault.passes + 1 } }

def execTrngRetest (pass : Bool) (s : State) : Out := s.onDev fun d => trngRetest d pass

/-- A reseed: what the DRBG gives from here on differs. (DESIGN CHOICE: log entry 74) -/
def drbgReseed (d : Dev) : Dev := { d with draws := d.draws + 1 }

def execDrbgReseed (s : State) : Out := s.onDev drbgReseed

/-- Clear the security counters (R373). -/
def secCntClear (d : Dev) : Dev := d.clearRegs [SEC_CNT_FRAME, SEC_CNT_KEY, SEC_CNT_UNWRAP, SEC_CNT_ENV]

def execSecCntClear (s : State) : Out := s.onDev secCntClear

end Sys2Proof.Machine
end

