-- ==== Sys2Proof/Machine/Power.lean ====
section
/-! DEFINITION. Reset, power and First Steep (00_scope.md R11, 14_start_and_self_update.md R391 to R395, 15_resilience.md R438, R443, R444,
18_electrical_and_package.md R485 to R487). -/

namespace Sys2Proof.Machine

/-! ### POR_N and the Kettle -/

def execPorAssert (s : State) : Out := s.onKettle porAssert

/-- The Kettle takes its reset values (R11): registers, clock, vault, journal ring, duty copies, summaries; fresh is set. (DEDUCED: log entry 104) -/
def kettleReset (d : Dev) : Dev :=
  let b := Dev.blank
  let v := { d.vault with slots := [], remap := [], envCtr := 0, ownerPending := none, tlog := [], tseq := 0, hold := false, alarmDue := false,
                          ceilings := d.vault.ceilings.map fun e => (e.1, 0, e.2.2) }
  let d1 := { d with regs := d.regs.filter fun e => !within e.1 0x100000 0x1FFFFF, ktl := b.ktl, vault := v, jrnl := { d.jrnl with ring := [] } }
  d1.setBit KTL_RTC_STATUS_fresh true

def execVbatApply (s : State) : Out := s.onKettle kettleReset

/-- VBAT and VDD_IO18 both fail (R487): the core is without power too. (DEDUCED: log entry 104) -/
def execKettlePowerLoss (s : State) : Out := s.onKettle fun d => kettleReset { coreReset d with inReset := true }

/-! ### Monitors (R486) -/

/-- A supply trips: VBAT, or a rail that resets the device. (DESIGN CHOICE: log entry 13) (DEDUCED: log entry 104) -/
def supplyTrip (vbat : Bool) (live : Nat) (f : Fuses) (d : Dev) : Fuses × Dev :=
  if d.inReset then (f, d)
  else
    let (f1, d1) := tamperEvent 5 live f d
    (f1, if vbat then d1 else porAssert d1)

def execSupplyTrip (vbat : Bool) (live : Nat) (s : State) : Out := s.onKettleF (supplyTrip vbat live)

/-- Another monitor trips while POR_N is high; the device goes on. (DESIGN CHOICE: log entry 13) -/
def monitorTrip (source live : Nat) (f : Fuses) (d : Dev) : Fuses × Dev := if d.inReset then (f, d) else tamperSeen source live f d

def execTempTrip (live : Nat) (s : State) : Out := s.onFuses (monitorTrip 6 live)
def execSysclkTrip (live : Nat) (s : State) : Out := s.onFuses (monitorTrip 7 live)

/-! ### Repairs and pending burns -/

/-- CRC-8 of R439 over a fuse record's bits 63..8. (DESIGN CHOICE: log entry 79) -/
def fuseCrc (w : Nat) : Nat := crcMsb 8 0x07 0 (be 7 (w / 256))

/-- Apply one repair (R438). Caddy numbers are assigned with the partition. -/
def applyRepair (d : Dev) (r : Repair) : Dev :=
  if r.kind = 3 then { d with res := { d.res with bankMap := Tab.put d.res.bankMap r.unit r.replacement } }
  else if r.kind = 5 then d.setEngine (16 * r.unit + r.location) { d.engine (16 * r.unit + r.location) with disabled := true }
  else if r.kind = 6 then { d with res := { d.res with trellisOff := (2 * r.unit + r.location) :: d.res.trellisOff.filter (· != 2 * r.unit + r.location) } }
  else if r.kind = 7 then
    let donor := r.replacement
    let d1 := d.setTb r.unit { d.tb r.unit with counter := some donor }
    let d2 := if donor = r.unit then d1 else d1.setTb donor { d1.tb donor with counter := none }
    { d2 with tim := { d2.tim with deadCounters := r.location :: d2.tim.deadCounters.filter (· != r.location) } }
  else if r.kind = 8 then { d with vault := { d.vault with remap := Tab.put d.vault.remap r.unit r.replacement } }
  else d

/-- Apply every valid fuse record and every log record; a fuse record whose CRC fails is skipped and raises REPAIR_RECORD. -/
def applyRepairs (f : Fuses) (d : Dev) : Dev :=
  let fused := f.repairs.foldl (fun b w => if w = 0 then b else if fuseCrc w = w % 256 then applyRepair b (fuseRepair w) else raise b 227 0 0) d
  d.res.log.foldl applyRepair fused

/-- Complete one burn (R331, R340, R349, R411, R439). (DESIGN CHOICE: log entry 22) -/
def completeBurn (s : Fuses × Dev) (b : Burn) : Fuses × Dev :=
  let (f, d) := s
  match b with
  | .lifecycle c => if f.lc < c then enterLc c f d else s
  | .owner dg => match d.vault.ownerPending with
    | some (k, c) => ownerCommit 4 c k f d
    | none => (f.addOwner dg, d)
  | .epoch => (f.addEpoch, d)
  | .rollback n => (f.addRollback n, d)
  | .repair w =>
    let r := fuseRepair w
    (f.addRepair w, (repairLog d r.kind r.unit r.location r.replacement true).2)

/-- Step 1 of R392: every pending burn, the seal epoch first, and the rollback bits that the confirmation record asks for. -/
def completeBurns (f : Fuses) (d : Dev) : Fuses × Dev :=
  let isEpoch (b : Burn) : Bool := match b with
    | .epoch => true
    | _ => false
  let l := f.pend.filter isEpoch ++ f.pend.filter fun b => !isEpoch b
  let (f1, d1) := l.foldl completeBurn ({ f with pend := [] }, d)
  (f1.addRollback (confNow d1).rbTarget, d1)

/-! ### Vault, journal, meters -/

/-- The vault copy in force (R339), a slot whose tag fails, or that was found bad, being SLOT_BAD until SLOT_REMAP (R335), and the broadcast counters (R360). (DEDUCED: log entry 66) -/
def chooseVault (f : Fuses) (d : Dev) : Dev :=
  let kettle := !d.bit KTL_RTC_STATUS_fresh && d.vault.slots.all fun e => !e.2.bad && e.2.tag == slotTag f e.1 e.2.attr e.2.material
  let copy : Option Seal := d.vault.sealCopy.bind fun c => if c.epoch = f.sealEpoch ∧ (fixedKey f (ascii "tm.vault-seal") 32).isSome then some c else none
  let ceil (p : Nat) : Nat × Nat :=
    let fl := ((copy.map fun c => (c.ceilings[p]?).getD 0)).getD 0
    (if kettle then max (Tab.getD d.vault.ceilings p (0, 0)).1 fl else fl, fl)
  let marks := if d.bit KTL_RTC_STATUS_fresh then [] else (d.vault.slots.filter fun e => e.2.bad).map (·.1)
  let took (c : Seal) : Tab Slot := c.slots.map fun e => (e.1, { e.2 with bad := e.2.bad || marks.contains e.1 })
  let take (c : Seal) : Dev := { d with vault := { d.vault with slots := took c, envCtr := c.counter } }
  let d1 := match copy with
    | some c => if kettle ∧ c.counter ≤ d.vault.envCtr then d else take c
    | none => d
  let cs := ((List.range 8).map fun p => (p, ceil p)).filter fun e => e.2.1 != 0
  let d2 := { d1 with vault := { d1.vault with ceilings := cs } }
  let d3 := (d2.vault.slots.filter fun e => !e.2.bad && e.2.tag != slotTag f e.1 e.2.attr e.2.material).foldl (fun b e => markBad b e.1) d2
  cs.foldl (fun b e => b.setReg (SEC_PANp_BCAST_FC e.1) (BitVec.ofNat 32 e.2.1)) d3

/-- The journal at start (R443, R444): rebuilt from the mirror when the Kettle is fresh; OPEN records become INTERRUPTED. -/
def startJournal (d : Dev) : Dev :=
  let fresh := d.bit KTL_RTC_STATUS_fresh
  let rebuilt := fresh && !d.jrnl.mirror.isEmpty
  let recs := Tab.vals d.jrnl.mirror
  let d1 := if rebuilt then
    { d with jrnl := { d.jrnl with ring := recs.drop (recs.length - 512), next := (((recs.getLast?).map (·.seq + 1)).getD 0) % 2 ^ 32 } } else d
  let opens := (d1.jrnl.ring.filter fun r => r.outcome == jOPEN).map (·.seq)
  let d2 := opens.foldl (fun b s => jClose b s jINTERRUPTED (if rebuilt then 2 else 1)) d1
  let d3 := d2.setBit RES_JRNL_STATUS_rebuilt rebuilt
  match d3.jrnl.ring.getLast? with
  | some r => d3.setReg RES_JRNL_NEWEST (BitVec.ofNat 32 r.seq)
  | none => d3

/-- Duty meters at start (R148): the copied account and 1,000,000 µs as the content of the oldest bin, which leaves 60 minutes later. (DEDUCED: log entry 86) -/
def startMeters (d : Dev) : Dev :=
  if d.bit KTL_RTC_STATUS_fresh then d
  else { d with hc := { d.hc with duty := d.ktl.duty.map fun e => (e.1, [0, e.2 + 1000000]), dutyRest := [0, d.ktl.dutyRest + 1000000] } }

/-! ### First Steep (R391 to R395) -/

/-- Step 2 of R392: TB4 (R323) and, with a retained offset, TB0 (R322); TB0's rate stays near the retained integral until it locks (R395). (DESIGN CHOICE: log entry 78) -/
def startTime (d : Dev) : Dev :=
  let k := d.ktl
  let rtc : Int := k.rtcNs
  let at4 : Int := if k.tb4Valid then max (rtc + k.ofsTb4) ((k.tb4 : Int) + 2000000000) else 0
  let d1 := d.setTb 4 ((d.tb 4).setRaw (at4 * 2 ^ 48))
  let d2 := { d1 with tim := { d1.tim with bases := d1.tim.bases.mapIdx fun n t => { t with servoEn := n == 0 || n == 4 } } }
  match k.ofsTb0 with
  | some o =>
    if d.bit KTL_RTC_STATUS_fresh ∨ !d.bit KTL_RTC_STATUS_ofs_valid then d2
    else
      let t0 := rtc + o + (d.reg KTL_RTC_TRIM).toInt * (rtc - k.ofsAt) / 1000000000
      let d3 := d2.setTb 0 { (d2.tb 0).setRaw (t0 * 2 ^ 48) with rate := k.integral, integral := k.integral }
      { d3 with tim := { d3.tim with converge := some k.integral } }
  | none => d2

/-- A valid copy of the summary (R391). -/
def summaryValid (b : List Byte) : Bool :=
  b.length == 9280 && slice b 0 4 == [0x50, 0x53, 0x55, 0x4D] && field b 8 4 == crc32 (b.take 8 ++ zeros 4 ++ b.drop 12)

/-- PAN record p of a summary, and the PANs it lists. -/
def sumPan (b : List Byte) (p : Nat) : List Byte := slice b (0x440 + 1024 * p) 1024
def sumPans (b : List Byte) : List Nat := (List.range 8).filter fun p => field (sumPan b p) 0 1 == 1
def sumPorts (b : List Byte) (p : Nat) : Nat := field (sumPan b p) 0x10 8

/-- The configuration of First Steep, as the sections of a Blend that the summary spells. (DEDUCED: log entry 28) -/
def summaryCfg (b : List Byte) : List Section :=
  let ps := sumPans b
  let port (n : Nat) : List Byte :=
    let m := maskOf (ps.filter fun p => nbit (sumPorts b p) n)
    if m = 0 then 0xFF :: zeros 7 else [0, BitVec.ofNat 8 m, 1] ++ zeros 5
  let pan (p : Nat) : List Byte := if ps.contains p then fit 16 (slice (sumPan b p) 2 2 ++ [0, 0, 1]) else zeros 16
  let frame (p : Nat) : List Byte :=
    let r := sumPan b p
    let n := field r 6 2
    [0] ++ slice r 0x40 1 ++ slice r 4 2 ++ slice r 6 2 ++ slice r 0x30 1 ++ [1] ++ zeros 8 ++ fit ((n + 15) / 16 * 16) (slice r 0x60 (min n 256))
  let modes := (ps.map fun p => slice (sumPan b p) 0x30 16).eraseDups
  [⟨1, 0xFFFF, fit 912 ((List.range 64).flatMap port ++ (List.range 8).flatMap pan), none⟩,
   ⟨2, 0xFFFF, slice b 0x40 1024, none⟩, ⟨3, 0xFFFF, modes.flatten, none⟩] ++
  ps.map (fun p => ⟨4, p, slice (sumPan b p) 0x40 32, none⟩) ++ ps.map fun p => ⟨5, p, frame p, none⟩

/-- The guard time of a PAN's slotframe 0 template, µs. -/
def guardUs (b : List Byte) (p : Nat) : Int :=
  let t := slice (sumPan b p) 0x40 32
  let tx : Int := field t 8 2
  let rx : Int := field t 0x0A 2
  min (tx - rx) (rx + field t 0x10 2 - tx)

/-- LONG_OUTAGE of a PAN (R394): the outage exceeds (g − 31 µs) / 10 ppm. (DEDUCED: log entry 86) -/
def longOutage (b : List Byte) (d : Dev) (p : Nat) : Dev :=
  if (guardUs b p - 31) * 100000000 < (d.ktl.rtcNs : Int) - d.ktl.ofsAt then raise (d.setBit BOOT_STATUS_long_outage true) 17 p 0 else d

/-- Steps 3 to 5 of R392 from a summary. (DEDUCED: log entry 28) -/
def summaryStart (b : List Byte) (d : Dev) : Dev :=
  let ps := sumPans b
  let d1 := ps.foldl (fun a p => a.setReg64 (TIM_PANp_EPOCH_LO p) (field (sumPan b p) 8 8)) { d with bld := { d.bld with cfg := summaryCfg b } }
  let adv (p : Nat) : List (Nat × Nat) :=
    let r := sumPan b p
    (List.range (min (field r 1 1) 4)).map fun k => (field r (0x20 + 4 * k) 2, field r (0x22 + 4 * k) 1)
  let d2 := { d1 with ts := { d1.ts with
    minimal := ps.map fun p => (p, toSigned 16 (field (sumPan b p) 0x18 2), adv p),
    beacons := ps.map fun p => (p, ⟨slice (sumPan b p) 0x160 (min (field (sumPan b p) 0x1A 2) 672), false⟩) } }
  let d3 := ((List.range 64).filter fun n => ps.any fun p => nbit (sumPorts b p) n).foldl portEnable d2
  let run (a : Dev) (c : Nat) : Dev := a.setCaddy c { a.caddy c with state := cdRUNNING, logical := some c, roles := 2 }
  ps.foldl (longOutage b) (run (run d3 0) 1)

/-- Steps 2 to 6 of R392, or R393 without a summary or retained time. -/
def firstStart (d : Dev) : Dev :=
  let d0 := startTime d
  let d1 := { d0 with boot := { d0.boot with porAt := d0.ns } }
  let b := (summaryInForce d1).getD []
  let ok := summaryValid b
  let d2 := d1.setBit BOOT_STATUS_summary_ok ok
  if !ok || d2.bit KTL_RTC_STATUS_fresh || !d2.bit KTL_RTC_STATUS_ofs_valid then stageReached d2 1 BOOT_T_FIRST
  else if (sumPans b).isEmpty then stageReached ((summaryStart b d2).setBit BOOT_STATUS_asn_restored true) 1 BOOT_T_FIRST
  else summaryStart b d2

/-! ### The release of POR_N -/

/-- LOCK_INVALID (R145): the Lock read at power-good is neither blank nor valid. -/
def lockAlarm (d : Dev) : Dev := if lockBlank d.hc.lock || lockValid d.hc.lock then d else raise d 64 0 0

/-- States of the complexes at start (R425): CC-A active and CC-B loaded, or CC-B alone. -/
def startComplexes (d : Dev) (ccA : Bool) : Dev :=
  if ccA then (d.setFld RES_CC_STATE_a_state 1).setFld RES_CC_STATE_b_state 4
  else ((d.setFld RES_CC_STATE_a_state 5).setFld RES_CC_STATE_b_state 1).setBit RES_STATUS_active true

/-- The item that extends M4 (Table KEY-4). (DESIGN CHOICE: log entry 79) -/
def m4Item (f : Fuses) : List Byte := le 1 f.lc ++ le 1 f.owners.length ++ le 1 f.sealEpoch ++ f.lock

/-- Registers that show what flash and fuses hold. -/
def showStart (f : Fuses) (d : Dev) : Dev :=
  let r := confNow d
  let d1 := (showConf (showIdentity f d)).setFld BOOT_STATUS_rb_count f.rollback
  let d2 := d1.setFld BLD_SVN_MIN_svn (max d.ktl.svnBlend r.blendSvnMin)
  let d3 := d2.setReg BOOT_STAGED_OFS (BitVec.ofNat 32 ((d.boot.download.map (·.2)).getD 0))
  let d4 := { d3 with boot := { d3.boot with open_ := d.boot.download.isSome, started := true } }
  (d4.setReg TS_EUI_LO (BitVec.ofNat 32 (field f.eui 0 4))).setReg TS_EUI_HI (BitVec.ofNat 32 (field f.eui 4 4))

/-- The start sequence (R392, R396). `ccA`: CC-A passes its first test; `trng`: the entropy source passes its start-up test (R371). (DESIGN CHOICE: log entry 78) -/
def porStart (ccA trng : Bool) (f : Fuses) (d : Dev) : Fuses × Dev :=
  let b := coreReset d
  let d0 := { b with inReset := false, hc := { b.hc with lock := f.lock } }
  let (f1, d1) := completeBurns f (applyRepairs f d0)
  let d2 := extend (chooseVault f1 (startMeters d1)) 4 (m4Item f1)
  let d3 := startComplexes (showStart f1 (startJournal (lockAlarm (firstStart d2)))) ccA
  (f1, bootChain f1 (if trng then d3 else trngFail d3))

/-- POR_N rises, or the start sequence has not run since the last reset. (DESIGN CHOICE: log entry 20) -/
def porRelease (ccA trng : Bool) (f : Fuses) (d : Dev) : Fuses × Dev :=
  if d.inReset || !d.boot.started then porStart ccA trng f d else (f, d)

def execPorRelease (ccA trng : Bool) (s : State) : Out := s.onKettleF (porRelease ccA trng)

end Sys2Proof.Machine
end

