-- ==== Sys2Proof/Machine/Boot.lean ====
section
/-! DEFINITION. Start and update commands, trial, snapshots (14_start_and_self_update.md R399 to R416). -/

namespace Sys2Proof.Machine

/-! ### Results and admission -/

/-- The Control Complex pair asks. -/
def isCc : Sys2Proof.Who → Bool
  | .master (.cc _) => true
  | _ => false

/-- A command ends: BOOT_CMD_STATUS for a master, the completion for a queue's command. -/
def bootEnd (d : Dev) (w : Sys2Proof.Who) (code detail : Nat) : Dev :=
  if isMaster w then ((d.setFld BOOT_CMD_STATUS_result code).setFld BOOT_CMD_STATUS_detail detail).setBit BOOT_CMD_STATUS_busy false
  else d.toCmd w code (le 4 detail)

/-- The stage of commands 1 to 4 and 6: Second Steep, or First Steep with halt 1 (R415). -/
def updStage (d : Dev) : Bool := decide (2 ≤ d.stage) || d.fld BOOT_STATUS_halt == 1

/-- A command that comes while one is in progress: ignored at BOOT_CMD while BOOT_CMD_STATUS.busy is 1 (R415), else it ends with a code (R412). (DESIGN CHOICE: log entry 81) -/
def bootBusy (d : Dev) (w : Sys2Proof.Who) (code : Nat) : Dev :=
  if isMaster w && d.bit BOOT_CMD_STATUS_busy then d else bootEnd d w code 0

/-- Run a command when none is in progress (R412, R415). (DESIGN CHOICE: log entry 81) -/
def bootRun (d : Dev) (w : Sys2Proof.Who) (k : Dev) : Dev :=
  if d.boot.run.isSome then bootBusy d w upBUSY else k

/-- A flash or host wait of the command is running. (DESIGN CHOICE: log entry 81) -/
def bootWait (d : Dev) (x : BootRun) : Dev :=
  let d1 := { d with boot := { d.boot with run := some x } }
  if isMaster x.who then d1.setBit BOOT_CMD_STATUS_busy true else d1

/-- The command ends and waits no longer. -/
def runEnd (d : Dev) (x : BootRun) (code detail : Nat) : Dev := bootEnd { d with boot := { d.boot with run := none } } x.who code detail

def stagedClear (d : Dev) : Dev := d.setBit BOOT_STATUS_staged_ok false

/-! ### Download (R405, R406) -/

/-- The download log is erased and the download opened. -/
def updBeginDone (d : Dev) (len : Nat) : Dev :=
  ({ d with boot := { d.boot with download := some (len, 0), open_ := true } }).setReg BOOT_STAGED_OFS 0

/-- UPD_BEGIN. With `stall` the erase of the log runs over its bound. -/
def updBegin (d : Dev) (w : Sys2Proof.Who) (len : Nat) (stall : Bool) : Dev :=
  bootRun d w <|
    if !updStage d then bootEnd d w upNOT_READY 0
    else if !within len 352 (areaSize d 3) then bootEnd d w upRANGE 0
    else if stall then bootWait (stagedClear d) ⟨w, 1, [len], [], 0⟩
    else bootEnd (updBeginDone (stagedClear d) len) w upOK 0

def execUpdBegin (who : Sys2Proof.Who) (len : Nat) (stall : Bool) (s : State) : Out := s.onDev fun d => updBegin d who len stall

/-- Blocks of a write, and the state with blocks a to b of its data written, each with its DL_BLOCK entry. -/
def writeBlocks (len : Nat) : Nat := (len + 65535) / 65536
def writeSome (d : Dev) (off : Nat) (data : List Byte) (a b : Nat) : Dev :=
  let bytes := slice data (65536 * a) (65536 * (b - a))
  if bytes.isEmpty then d
  else
    let done := off + 65536 * a + bytes.length
    let d1 := setArea d 1 (spliceAt (bundleArea d 1) (off + 65536 * a) bytes)
    ({ d1 with boot := { d1.boot with download := d1.boot.download.map fun x : Nat × Nat => (x.1, done) } }).setReg BOOT_STAGED_OFS (BitVec.ofNat 32 done)

/-- UPD_WRITE of `len` bytes at an offset. `stall` names the block at which a wait runs over. (DEDUCED: log entry 83) -/
def updWrite (d : Dev) (w : Sys2Proof.Who) (off len : Nat) (data : List Byte) (stall : Option Nat) : Dev :=
  bootRun d w <|
    if !updStage d then bootEnd d w upNOT_READY 0
    else match d.boot.open_, d.boot.download with
      | true, some (total, at?) =>
        if off ≠ at? then bootEnd d w upOFFSET (at? / 2 ^ 24)
        else if !within len 1 1048576 || decide (total < off + len) || (len % 65536 != 0 && off + len != total) then bootEnd d w upRANGE 0
        else
          let bytes := fit len data
          match stall with
          | some n => bootWait (writeSome d off bytes 0 (min n (writeBlocks len))) ⟨w, 2, [off], bytes, min n (writeBlocks len)⟩
          | none => bootEnd (writeSome d off bytes 0 (writeBlocks len)) w upOK 0
      | _, _ => bootEnd d w upSTATE 0

/-- The data of a write: from a Packet Buffer, or as read from host memory. -/
def updData (d : Dev) (buf : Option Nat) (data : List Byte) : List Byte :=
  match buf with
  | some h => bufGet d h
  | none => data

def execUpdWrite (who : Sys2Proof.Who) (off len : Nat) (buf : Option Nat) (data : List Byte) (stall : Option Nat) (s : State) : Out :=
  s.onDev fun d => updWrite d who off len (updData d buf data) stall

/-- UPD_VERIFY: the checks of R396, then those of Table BLEND-9 on component 3. (DEDUCED: log entry 83) -/
def updVerify (f : Fuses) (d : Dev) (w : Sys2Proof.Who) : Dev :=
  bootRun d w <|
    if !updStage d then bootEnd d w upNOT_READY 0
    else if d.vault.hold then bootEnd d w upTAMPER_HOLD 0
    else
      let b := bundleArea d 1
      let (r, d1) := bundleVerdict f d b
      if r ≠ upOK then bootEnd d1 w r 0
      else
        let bl := bnPart b 2
        let (v, d2) := blendVerdict f d1 bl
        let code := if v.code = blOk ∧ blKind bl ≠ 1 then blBadVersion else v.code
        if code ≠ blOk then bootEnd d2 w upBLEND code else bootEnd (d2.setBit BOOT_STATUS_staged_ok true) w upOK 0

def execUpdVerify (who : Sys2Proof.Who) (s : State) : Out := s.onDevF fun f d => updVerify f d who

/-! ### Activation (R407) -/

/-- Origin of a journal record of who asks. -/
def bootOrigin (w : Sys2Proof.Who) : Nat := if isCc w then 1 else 0

/-- Steps 1 to 3 begin: the journal record, and the copy to PREVIOUS unless it is skipped. -/
def actBegin (d : Dev) (w : Sys2Proof.Who) (restart : Bool) : Dev :=
  match d.boot.act with
  | some _ => d
  | none =>
    let same := bnHeaderHash (bundleArea d 2) == bnHeaderHash (bundleArea d 0)
    let skip := (confNow d).state == cfFALLEN_BACK || d.fld BOOT_STATUS_halt == 1 || same
    let n := blocksIn (bundleArea d 1) + (if skip then 0 else blocksIn (bundleArea d 0))
    let (j, d1) := jOpen d 7 (bootOrigin w) (bnId (bundleArea d 1)) n none
    setAct d1 (some ⟨if skip then 1 else 0, 0, restart, j⟩)

/-- The activation is complete: its record closes, the result is given, the device restarts if asked to. -/
def actDone (f : Fuses) (d : Dev) (w : Sys2Proof.Who) (a : Activation) : Fuses × Dev :=
  let d1 := bootEnd (jClose d a.jseq jCOMPLETE upOK) w upOK 0
  if a.restart then porStart true true f d1 else (f, d1)

/-- UPD_ACTIVATE. `stall` names the block at which a flash wait runs over. (DEDUCED: log entry 83) -/
def updActivate (w : Sys2Proof.Who) (restart : Bool) (stall : Option Nat) (f : Fuses) (d : Dev) : Fuses × Dev :=
  if d.boot.run.isSome then (f, bootBusy d w upBUSY)
  else if !updStage d then (f, bootEnd d w upNOT_READY 0)
  else if !d.bit BOOT_STATUS_staged_ok ∨ (confNow d).state = cfTRIAL then (f, bootEnd d w upSTATE 0)
  else
    let d1 := actBegin d w restart
    let (d2, all) := activateOn d1 stall
    match all, d1.boot.act with
    | true, some a => actDone f d2 w a
    | _, _ => (f, bootWait d2 ⟨w, 4, [b2n restart], [], 0⟩)

def execUpdActivate (who : Sys2Proof.Who) (restart : Bool) (stall : Option Nat) (s : State) : Out := s.onFuses (updActivate who restart stall)

/-! ### Confirmation (R409, R411) -/

/-- Burn rollback bits up to a target, of the 64 there are; `burnt` stops after some bits, the rest left to the next start with RB_BURN. (DEDUCED: log entry 86) -/
def rollbackBurn (goal : Nat) (burnt : Option Nat) (f : Fuses) (d : Dev) : Fuses × Dev :=
  let target := min goal 64
  let f1 := f.addRollback (match burnt with
    | none => target
    | some k => min (f.rollback + k) target)
  let d1 := d.setFld BOOT_STATUS_rb_count f1.rollback
  if f1.rollback < target then ({ f1 with pend := f1.pend ++ [.rollback target] }, raise d1 22 0 0) else (f1, d1)

/-- The bundle that runs: the header it was booted with, which an activation under way does not change. (DEDUCED: log entry 83) -/
def runningBundle (d : Dev) : List Byte := d.boot.header

/-- UPD_CONFIRM: record, Kettle's svn, the end of the trial, then the rollback burn. (DEDUCED: log entry 83) -/
def updConfirm (w : Sys2Proof.Who) (burnt : Option Nat) (f : Fuses) (d : Dev) : Fuses × Dev :=
  if d.boot.run.isSome then (f, bootBusy d w upBUSY)
  else if d.stage ≠ 3 then (f, bootEnd d w upNOT_READY 0)
  else if (confNow d).state ≠ cfTRIAL then (f, bootEnd d w upSTATE 0)
  else
    let r := confNow d
    let b := runningBundle d
    let rb := max r.rbTarget (bnRb b)
    let d1 := writeConf d { r with state := cfCONFIRMED, fwSvnMin := max r.fwSvnMin (bnSvn b), blendSvnMin := d.bld.svn, rbTarget := rb }
    let d2 := { d1 with ktl := { d1.ktl with svnBlend := d.bld.svn }, boot := { d1.boot with trial := false } }.setFld BLD_SVN_MIN_svn d.bld.svn
    rollbackBurn rb burnt f (bootEnd d2 w upOK 0)

def execUpdConfirm (who : Sys2Proof.Who) (burnt : Option Nat) (s : State) : Out := s.onFuses (updConfirm who burnt)

/-- UPD_ABANDON (R412). (DEDUCED: log entry 83) -/
def updAbandon (d : Dev) (w : Sys2Proof.Who) : Dev :=
  if (d.boot.run.map (·.code)) = some 4 then bootBusy d w upSTATE
  else bootRun d w <|
    if !updStage d then bootEnd d w upNOT_READY 0
    else if !d.boot.open_ then bootEnd d w upSTATE 0
    else bootEnd { d with boot := { d.boot with open_ := false } } w upOK 0

def execUpdAbandon (who : Sys2Proof.Who) (s : State) : Out := s.onDev fun d => updAbandon d who

/-- RESTART acts as a release of POR_N; BUSY during activation. (DESIGN CHOICE: log entry 85) -/
def restart (w : Sys2Proof.Who) (ccA trng : Bool) (f : Fuses) (d : Dev) : Fuses × Dev :=
  if d.boot.run.isSome then (f, bootBusy d w upBUSY) else porStart ccA trng f d

def execRestart (who : Sys2Proof.Who) (ccA trng : Bool) (s : State) : Out := s.onFuses (restart who ccA trng)

/-! ### Settings (R413, R414) -/

/-- Bytes of a settings record. -/
def settingSize (n : Nat) : Nat := 16 + (n + 15) / 16 * 16
/-- Bytes of the records in force. -/
def settingsForce (d : Dev) : Nat := (d.boot.settings.map fun s => settingSize s.data.length).sum
/-- Append a record, compacting into the other half when this one is full: the bytes then used, or none without room. (DESIGN CHOICE: log entry 84) -/
def settingsRoom (d : Dev) (n : Nat) : Option Nat :=
  let half := areaSize d 2 / 2
  if d.boot.settingsUsed + settingSize n ≤ half then some (d.boot.settingsUsed + settingSize n)
  else if settingsForce d + settingSize n ≤ half then some (settingsForce d + settingSize n)
  else none

def putSetting (d : Dev) (ns key : Nat) (data : List Byte) (used : Nat) : Dev :=
  let rest := d.boot.settings.filter fun s => !(s.ns == ns && s.key == key)
  { d with boot := { d.boot with settings := rest ++ [⟨ns, key, data⟩], settingsUsed := used } }

/-- SET_WRITE into the running bundle's namespace. -/
def setWrite (d : Dev) (w : Sys2Proof.Who) (key len : Nat) (data : List Byte) (stall : Bool) : Dev :=
  if !isCc w then bootEnd d w upNOT_PERMITTED 0
  else bootRun d w <|
    if d.stage < 2 then bootEnd d w upNOT_READY 0
    else if 4080 < len ∨ 65535 < key then bootEnd d w upRANGE 0
    else match settingsRoom d len with
      | none => bootEnd d w upNO_ROOM 0
      | some used =>
        if stall then bootWait d ⟨w, 8, [key, used], fit len data, 0⟩
        else bootEnd (putSetting d (bnNs (runningBundle d)) key (fit len data) used) w upOK 0

def execSetWrite (who : Sys2Proof.Who) (key len : Nat) (buf : Option Nat) (data : List Byte) (stall : Bool) (s : State) : Out :=
  s.onDev fun d => setWrite d who key len (updData d buf data) stall

/-- The namespace is erased. (DESIGN CHOICE: log entry 84) -/
def eraseNs (d : Dev) (ns : Nat) : Dev :=
  let d1 := { d with boot := { d.boot with settings := d.boot.settings.filter fun s => s.ns != ns } }
  { d1 with boot := { d1.boot with settingsUsed := settingsForce d1 } }

/-- SET_ERASE_NS. -/
def setEraseNs (d : Dev) (w : Sys2Proof.Who) (ns : Nat) (stall : Bool) : Dev :=
  if !isCc w then bootEnd d w upNOT_PERMITTED 0
  else bootRun d w <|
    let declared := [0, 2].any fun k => !(bundleArea d k).isEmpty && bnNs (bundleArea d k) == ns
    if (confNow d).state ≠ cfCONFIRMED ∨ declared then bootEnd d w upNS_LOCKED 0
    else if stall then bootWait d ⟨w, 9, [ns], [], 0⟩
    else bootEnd (eraseNs d ns) w upOK 0

def execSetEraseNs (who : Sys2Proof.Who) (ns : Nat) (stall : Bool) (s : State) : Out := s.onDev fun d => setEraseNs d who ns stall

/-! ### Snapshots (R403, R404) -/

def showWriting (d : Dev) : Dev := d.setBit BOOT_SNAP_STATUS_writing (d.boot.baseWriting.isSome || d.boot.counterWriting.isSome)

/-- Two base images hold the same tables. -/
def sameTables (a b : BaseImage) : Bool := a.nodes == b.nodes && a.addrs == b.addrs && a.cells == b.cells

/-- Capture a base image and start writing it; one that does not fit beside the newest is skipped. The flag tells whether it fits. -/
def baseCapture (d : Dev) : Dev × Bool :=
  let seq := d.boot.imageSeq + 1
  let b := baseNow d seq
  let old := (d.boot.base.map baseLength).getD 0
  if areaSize d 5 < old + baseLength b then (raise (d.setBit BOOT_SNAP_STATUS_base_skipped true) 20 unitBase 0, false)
  else
    let d1 := { d with boot := { d.boot with baseWriting := some b, imageSeq := seq } }
    (showWriting (d1.setBit BOOT_SNAP_STATUS_base_skipped false), true)

/-- SNAP_NOW. (DESIGN CHOICE: log entry 82) -/
def snapNow (d : Dev) (w : Sys2Proof.Who) : Dev :=
  bootRun d w <|
    if d.stage < 2 then bootEnd d w upNOT_READY 0
    else if d.boot.baseWriting.isSome then bootEnd d w upBUSY 0
    else
      let (d1, fits) := baseCapture d
      bootEnd d1 w (if fits then upOK else upNO_ROOM) 0

def execSnapNow (who : Sys2Proof.Who) (s : State) : Out := s.onDev fun d => snapNow d who

/-- base_s have passed: a base image is captured when a restored table has changed since the last. -/
def baseDue (d : Dev) : Dev :=
  if d.stage < 2 ∨ d.boot.baseWriting.isSome then d
  else if d.boot.base.any (sameTables (baseNow d 0)) then d
  else (baseCapture d).1

def execBaseImageCapture (s : State) : Out := s.onDev baseDue

/-- interval_s have passed: a counter image is captured. -/
def counterDue (d : Dev) : Dev :=
  if d.stage < 2 ∨ d.boot.counterWriting.isSome then d
  else
    let seq := d.boot.imageSeq + 1
    let c := counterNow d seq
    let old := (d.boot.counter.map counterLength).getD 0
    if areaSize d 6 < old + counterLength c then raise (d.setBit BOOT_SNAP_STATUS_counter_skipped true) 20 unitCounter 0
    else
      let d1 := { d with boot := { d.boot with counterWriting := some c, imageSeq := seq } }
      showWriting (d1.setBit BOOT_SNAP_STATUS_counter_skipped false)

def execCounterImageCapture (s : State) : Out := s.onDev counterDue

/-- An image completes in flash; a counter image moves the reservations and ends a hold (R366, R403). -/
def imageDone (d : Dev) (counter : Bool) : Dev :=
  if counter then match d.boot.counterWriting with
    | none => d
    | some c =>
      let d1 := { d with boot := { d.boot with counter := some c, counterWriting := none, restoreHeld := false } }
      showWriting ((moveCaps d1 c).inc BOOT_SNAP_CNT_counter)
  else match d.boot.baseWriting with
    | none => d
    | some b => showWriting ({ d with boot := { d.boot with base := some b, baseWriting := none } }.inc BOOT_SNAP_CNT_base)

def execImageWriteDone (counter : Bool) (s : State) : Out := s.onDev fun d => imageDone d counter

/-- A counter image is not complete 40 s after capture: abandoned, with SNAP_SKIPPED. -/
def counterLate (d : Dev) : Dev :=
  if d.boot.counterWriting.isNone then d
  else raise ((showWriting { d with boot := { d.boot with counterWriting := none } }).setBit BOOT_SNAP_STATUS_counter_skipped true) 20 unitCounter 0

def execCounterImageTimeout (s : State) : Out := s.onDev counterLate

/-! ### Full Brew (R399, R400), trial (R408) -/

/-- An area's bundle passes the scan: nothing programmed, a download not complete, or every digest right. (DESIGN CHOICE: log entry 82) -/
def scanOk (d : Dev) (k : Nat) : Bool :=
  let b := bundleArea d k
  b.isEmpty || (k == 1 && d.boot.open_) || (bnOk d b && (List.range 3).all fun c => Config.sha384 (bnPart b c) == bnDigest b c)

/-- The scan of R400 over the areas of Table START-3 in their order: a failure raises SCAN_FAIL with the area. An area fails when a record of
it lost its CRC (`bad`), a bundle area also by its bundle. -/
def flashScan (d : Dev) (bad : List Nat) : Dev :=
  (List.range 10).foldl (fun b k =>
    if !bad.contains k && (!within k unitActive (unitActive + 2) || scanOk d (k - unitActive)) then b
    else
      let b1 := raise b 19 k 0
      if k = unitActive + 1 then stagedClear b1 else if k = unitActive + 2 then b1.setBit BOOT_STATUS_prev_bad true else b1) d

/-- Full Brew is reached: campaigns return (R386). (DEDUCED: log entry 89) -/
def fullBrew (d : Dev) : Dev :=
  let d1 := stageReached d 3 BOOT_T_FULL
  campRestoreAll { d1 with boot := { d1.boot with brewAt := d1.ns },
                           res := { d1.res with gate := { d1.res.gate with swapFrom := d1.ns } } }

/-- BREW_READY. -/
def brewReady (d : Dev) (w : Sys2Proof.Who) : Dev :=
  if !isCc w then bootEnd d w upNOT_PERMITTED 0
  else bootRun d w <|
    if d.stage < 2 then bootEnd d w upNOT_READY 0
    else if d.boot.brewReady then bootEnd d w upOK 0
    else
      let d1 := { d with boot := { d.boot with brewReady := true } }
      bootEnd (if d1.boot.scanned then fullBrew d1 else d1) w upOK 0

def execBrewReady (who : Sys2Proof.Who) (s : State) : Out := s.onDev fun d => brewReady d who

/-- The scan of R400 completes: with BREW_READY issued Full Brew is reached (R399). (DESIGN CHOICE: log entry 82) -/
def flashScanDone (d : Dev) (bad : List Nat) : Dev :=
  if d.stage ≠ 2 ∨ d.boot.scanned then d
  else
    let d1 := flashScan { d with boot := { d.boot with scanned := true } } bad
    if d1.boot.brewReady then fullBrew d1 else d1

def execFlashScanDone (bad : List Nat) (s : State) : Out := s.onDev fun d => flashScanDone d bad

/-- Fall back: FALLEN_BACK, the cause in the journal, restart. (DESIGN CHOICE: log entry 85) -/
def fallBack (cause : Nat) (f : Fuses) (d : Dev) : Fuses × Dev :=
  let r := confNow d
  porStart true true f (jNote (writeConf d { r with state := cfFALLEN_BACK }) 0x0A 4 jNOTE cause r.activeId 0 0 0)

/-- 60 s into a trial without Full Brew. -/
def trialBrew (f : Fuses) (d : Dev) : Fuses × Dev :=
  if d.boot.trial ∧ d.stage < 3 then fallBack 1 f d else (f, d)

def execTrialBrewTimeout (s : State) : Out := s.onFuses trialBrew

/-- trial_s after Full Brew without UPD_CONFIRM. -/
def trialConfirm (f : Fuses) (d : Dev) : Fuses × Dev :=
  if d.boot.trial ∧ d.stage = 3 then fallBack 2 f d else (f, d)

def execTrialConfirmTimeout (s : State) : Out := s.onFuses trialConfirm

/-! ### Waits of commands (R416) -/

/-- A command that waited goes on to its end. -/
def runFinish (x : BootRun) (f : Fuses) (d : Dev) : Fuses × Dev :=
  let a := x.args
  if x.code = 1 then (f, runEnd (updBeginDone d (a.headD 0)) x upOK 0)
  else if x.code = 2 then (f, runEnd (writeSome d (a.headD 0) x.data x.done (writeBlocks x.data.length)) x upOK 0)
  else if x.code = 4 then
    let d1 := { d with boot := { d.boot with run := none } }
    match d1.boot.act with
    | some y => actDone f (activateOn d1 none).1 x.who y
    | none => (f, bootEnd d1 x.who upOK 0)
  else if x.code = 8 then (f, runEnd (putSetting d (bnNs (runningBundle d)) (a.headD 0) x.data (a.getD 1 0)) x upOK 0)
  else (f, runEnd (eraseNs d (a.headD 0)) x upOK 0)

/-- A flash wait of a command runs over: the block is tried once more. With `again` that fails too, and the command ends FLASH. (DESIGN CHOICE: log entry 81) -/
def flashLate (again : Bool) (f : Fuses) (d : Dev) : Fuses × Dev :=
  match d.boot.run with
  | none => (f, d)
  | some x =>
    if !again then runFinish x f d
    else
      let d1 := match x.code, d.boot.act with
        | 4, some y => jClose d y.jseq jFAILED upFLASH
        | _, _ => d
      (f, runEnd d1 x upFLASH 0)

def execFlashProgramTimeout (again : Bool) (s : State) : Out := s.onFuses (flashLate again)
def execFlashEraseTimeout (again : Bool) (s : State) : Out := s.onFuses (flashLate again)

/-- A host read of a command's data runs over: TIMEOUT, the committed offset as it is. (DESIGN CHOICE: log entry 81) -/
def hostReadLate (d : Dev) : Dev :=
  match d.boot.run with
  | none => d
  | some x => if x.code = 2 ∨ x.code = 8 then runEnd d x upTIMEOUT 0 else d

def execHostReadTimeout (s : State) : Out := s.onDev hostReadLate

end Sys2Proof.Machine
end

