-- ==== Sys2Proof/Machine/Dispatcher.lean ====
section
/-! DEFINITION. Commands of the Task Dispatcher and of the word queues (03_caddies_and_dispatch.md R59 to R91). The end of a handler
stands with the handlers. -/

namespace Sys2Proof.Machine

/-! ### Caddies -/

/-- Caddies that count toward the warm minimum: RUNNING and not fenced (R26, R435). -/
def warmCount (d : Dev) : Nat := ((List.range 34).filter fun c => (d.caddy c).state == cdRUNNING && !(d.caddy c).fenced).length

/-- A Caddy qualifies for the stop of R59. -/
def mayStop (d : Dev) (c : Nat) : Bool :=
  let x := d.caddy c
  x.state == cdRUNNING && !x.fenced && x.ready.isEmpty && caddyIdle d c && decide (x.emptySince + 1000 * d.idleUs ≤ d.ns) &&
    decide (d.warmMin + 1 ≤ warmCount d)

/-- Of the Caddies that qualify, the one whose ready list has been empty longest; the lowest logical number on a tie. -/
def stopChoice (d : Dev) : Option Nat :=
  ((logicalOrder d).filter (mayStop d)).foldl (fun best c => match best with
    | none => some c
    | some b => if (d.caddy c).emptySince < (d.caddy b).emptySince then some c else some b) none

/-- Stop a Caddy (R59). -/
def stopCaddy (d : Dev) (c : Nat) : Dev :=
  let d1 := d.setCaddy c { d.caddy c with state := cdSTOPPED }
  if d.bit DSP_CTRL_trace_en then trace d1 (traceRec d 0x46 c 0xFF 0 (le 2 noTask)) else d1

def caddyIdleStop (d : Dev) (c : Nat) : Dev := if stopChoice d = some c then stopCaddy d c else d

def execCaddyIdleStop (caddy : Nat) (s : State) : Out := s.onDev fun d => caddyIdleStop d caddy

/-- The PLL of a STARTING Caddy locks (R60). (DEDUCED: log entry 30) -/
def pllLock (d : Dev) (c : Nat) : Dev :=
  let x := d.caddy c
  if x.state ≠ cdSTARTING then d
  else placeHolding (d.setCaddy c { x with state := cdRUNNING, emptySince := d.ns })

def execCaddyPllLock (caddy : Nat) (s : State) : Out := s.onDev fun d => pllLock d caddy

/-- No spare is left for a Caddy (Table RES-3): an alarm; a failing engine or its last Trellis Unit is out and the Caddy serves on with the rest,
or, its logic failing as a whole, its number stays unmapped. `part`: engine 0 to 15, Trellis Unit 16 or 17, 18 the whole. (DEDUCED: log entry 90) -/
def noSpare (d : Dev) (c part : Nat) : Dev :=
  let d1 := raise d 225 (if part < 16 then 5 else if part < 18 then 6 else 4) 0
  let x := d1.caddy c
  if 18 ≤ part then d1.setCaddy c { x with logical := none, state := cdDISABLED }
  else
    let d2 := if part < 16 then (repairLog (d1.setEngine (16 * c + part) { d1.engine (16 * c + part) with disabled := true }) 5 c part 0 false).2 else d1
    if x.state = cdDISABLED then keepWarm (placeHolding (d2.setCaddy c { x with state := cdSTOPPED }))
    else if x.state = cdDRAINING then d2.setCaddy c { x with target := cdSTOPPED } else d2

/-- Start the spare that is to take the place of a Caddy (R429, R430), unless one is under test for it: it runs its 64 slices in BIST first. -/
def bringSpare (d : Dev) (c part : Nat) : Dev :=
  match (d.caddy c).logical with
  | none => d
  | some n =>
    if d.res.spareTests.any fun t => t.logical == n then d
    else match [32, 33, 0, 1, 2, 3, 4, 5, 6, 7, 8, 9, 10, 11, 12, 13, 14, 15, 16, 17, 18, 19, 20, 21, 22, 23, 24, 25, 26, 27, 28, 29, 30, 31].find?
      (fun k => (d.caddy k).state == cdSPARE && (d.caddy k).logical.isNone) with
    | none => noSpare d c part
    | some k =>
      let d1 := d.setCaddy k { d.caddy k with state := cdBIST }
      { d1 with res := { d1.res with spareTests := d1.res.spareTests ++ [⟨k, n, part⟩] } }

/-- A Caddy is DISABLED at once: its ready tasks and holding list placed anew (R60, R73). -/
def disableCaddy (d : Dev) (c : Nat) : Dev :=
  let moved := (d.caddy c).ready
  keepWarm (moved.foldl place (d.setCaddy c { d.caddy c with state := cdDISABLED, ready := [], emptySince := d.ns }))

/-- The PLL of a STARTING Caddy has not locked after 20 µs (R60): DISABLED, event, the next eligible Caddy started, a spare brought in. (DEDUCED: log entry 30) -/
def pllTimeout (d : Dev) (c : Nat) : Dev :=
  let x := d.caddy c
  if x.state ≠ cdSTARTING then d
  else
    let d1 := raise (d.setCaddy c { x with state := cdDISABLED, ready := [], emptySince := d.ns }) 32 c 0
    let kinds := (x.ready.filterMap d.task).map (·.d.kind) ++ (List.range 4).filter (nbit x.roles)
    let d2 := match kinds.findSome? fun k => startable d1 k false with
      | some k => placeHolding (startCaddy d1 k)
      | none => d1
    bringSpare (keepWarm (x.ready.foldl place d2)) c 18

def execCaddyPllTimeout (caddy : Nat) (s : State) : Out := s.onDev fun d => pllTimeout d caddy

/-- A DRAINING Caddy whose engines are all idle leaves for the state requested (R79). -/
def drainEnd (d : Dev) (c : Nat) : Dev :=
  let x := d.caddy c
  if x.state ≠ cdDRAINING ∨ !caddyIdle d c then d
  else keepWarm (placeHolding (d.setCaddy c { x with state := x.target, emptySince := d.ns }))

def execCaddyDrainEnd (caddy : Nat) (s : State) : Out := s.onDev fun d => drainEnd d caddy

/-! ### Submission (R65) -/

/-- DSP_HSUB7 written: the host's descriptor. -/
def hsubSubmit (d : Dev) (b : List Byte) : Dev :=
  let (r, d1) := submit d (descOf (fit 32 b)) 0xE000 0xFFFE 3
  d1.setFld DSP_HSUB_STATUS_result r

def execHsubSubmit (desc : List Byte) (s : State) : Out := s.onDev fun d => hsubSubmit d desc

/-- A transmit request of firmware on the recovery port for a packet of the recovery queue takes it (R290): its buffer is firmware's. (DESIGN CHOICE: log entry 51) (DEDUCED: log entry 53) -/
def takeRecov (d : Dev) (x : Desc) : Dev :=
  let r := txReqOf d.ns x
  match d.fwd.recovQ.find? fun q => ((qEntry d q.2).map (·.buf)) == some r.buf with
  | none => d
  | some q =>
    if x.kind = 1 ∧ r.kind = 0 ∧ r.port = d.fld FWD_RECOV_STATUS_port then
      { d with fwd := { d.fwd with recovQ := d.fwd.recovQ.filter (· != q), entries := Tab.del d.fwd.entries q.2 } }
    else d

/-- DSP_CSUB7 written: firmware's descriptor. -/
def csubSubmit (d : Dev) (b : List Byte) : Dev :=
  let (r, d1) := submit d (descOf (fit 32 b)) 0xA000 0xDFFF 2
  (if r = sbOK then takeRecov d1 (descOf (fit 32 b)) else d1).setFld DSP_CSUB_STATUS_result r

def execCsubSubmit (desc : List Byte) (s : State) : Out := s.onDev fun d => csubSubmit d desc

/-- DSP_SLOT_SUB7 written by the handler in service on an engine: a child with its parent's source (R63). A Caddy whose number has passed to a
spare has no range: the write enters nothing and DSP_SLOT_SUB_STATUS stays. (DESIGN CHOICE: log entry 111) -/
def slotSubmit (d : Dev) (e : Nat) (b : List Byte) : Dev :=
  match ((d.engine e).tasks.head?).bind d.task, (d.caddy (e / 16)).logical with
  | some t, some n =>
    let (r, d1) := submit d (descOf (fit 32 b)) (0x8000 + 256 * n) (0x80FF + 256 * n) t.d.source
    d1.setEngine e { d1.engine e with subStatus := r }
  | _, _ => d

def execSlotSubmit (engine : Nat) (desc : List Byte) (s : State) : Out := s.onDev fun d => slotSubmit d engine desc

/-! ### Dispatch, aborts, stealing -/

def execTaskDispatch (task engine : Nat) (s : State) : Out := s.onDev fun d => dispatchTask d task engine

/-- A dependence counter above zero for 1 s (R68). -/
def depTimeout (d : Dev) (i : Nat) : Dev :=
  match d.task i with
  | none => d
  | some t => if 0 < t.dep then abortAny d i rsDEP_TIMEOUT else d

def execDepTimeout (task : Nat) (s : State) : Out := s.onDev fun d => depTimeout d task

/-- The oldest completion word held for a queue, and the list without it. -/
def takeHeldWord (q : Nat) : List HeldWord → Option (HeldWord × List HeldWord)
  | [] => none
  | h :: t => if h.wq = q then some (h, t) else (takeHeldWord q t).map fun x => (x.1, h :: x.2)

/-- A held completion word is pushed once its queue has room (R69). -/
def heldPush (d : Dev) (q : Nat) : Dev :=
  match takeHeldWord q d.dsp.held with
  | none => d
  | some (h, rest) =>
    if wqCredit d q then (wqPush { d with dsp := { d.dsp with held := rest } } q epDispatcher h.word).1 else d

def execCompletionWordPush (q : Nat) (s : State) : Out := s.onDev fun d => heldPush d q

/-- A completion word held for 1 ms is dropped (R69). -/
def heldDrop (d : Dev) (q : Nat) : Dev :=
  match takeHeldWord q d.dsp.held with
  | none => d
  | some (_, rest) => raise (({ d with dsp := { d.dsp with held := rest } }).inc (DSP_WQ_ERRn_overrun q)) 33 q 0

def execCompletionWordDrop (q : Nat) (s : State) : Out := s.onDev fun d => heldDrop d q

/-- A task has waited 10 ms in the holding list (R73). -/
def roleWait (d : Dev) (i : Nat) : Dev :=
  match d.task i with
  | none => d
  | some t =>
    if t.phase ≠ .holding then d
    else
      let d1 := d.setBit DSP_STATUS_role_wait true
      if t.roleWaited then d1 else raise (d1.setTask i { t with roleWaited := true }) 34 t.d.kind 0

def execRoleWait (task : Nat) (s : State) : Out := s.onDev fun d => roleWait d task

/-- Move a stolen item to the end of the thief's ready list. -/
def moveReady (thief victim : Nat) (d : Dev) (i : Nat) : Dev :=
  match d.task i with
  | none => d
  | some t => putReady (unready d i victim) i thief t

/-- A steal of `items` from a victim (R75). -/
def steal (d : Dev) (thief victim : Nat) (items : List Nat) : Dev :=
  let d1 := items.foldl (moveReady thief victim) d
  let d2 := d1.setCaddy thief { d1.caddy thief with stolenIn := min ((d1.caddy thief).stolenIn + items.length) 0xFFFF }
  let d3 := d2.setCaddy victim { d2.caddy victim with stolenOut := min ((d2.caddy victim).stolenOut + items.length) 0xFFFF }
  if d.bit DSP_CTRL_trace_en then trace d3 (traceRec d 0x42 thief 0xFF victim (le 2 noTask ++ le 2 items.length)) else d3

/-- Engine `k` of a Caddy is idle and takes tasks (R75, R79). -/
def engineIdle (d : Dev) (c k : Nat) : Bool :=
  (d.engine (16 * c + k)).tasks.isEmpty && !(d.engine (16 * c + k)).disabled && !(d.engine (16 * c + k)).draining

/-- An attempt of a thief Caddy (R75). -/
def stealAttempt (d : Dev) (c : Nat) : Dev :=
  let x := d.caddy c
  match x.logical with
  | none => d
  | some n =>
    if x.state ≠ cdRUNNING ∨ x.fenced ∨ !x.ready.isEmpty ∨ !d.bit DSP_CTRL_steal_en ∨
      !(List.range 16).any (engineIdle d c) then d
    else
      match ((stealOrder n).filterMap (physOf d)).findSome? fun v =>
        match stealFrom d c v with
        | [] => none
        | l => some (v, l) with
      | none => d
      | some (v, l) => steal d c v l

def execStealAttempt (caddy : Nat) (s : State) : Out := s.onDev fun d => stealAttempt d caddy

/-- A PE task has been in service for 2 ms (R78). -/
def watchdog (d : Dev) (i : Nat) : Dev :=
  match (d.task i).bind taskEngine with
  | none => d
  | some e => if e % 16 < 8 then d else resetEngine (abortAny d i rsWATCHDOG) e

def execWatchdog (task : Nat) (s : State) : Out := s.onDev fun d => watchdog d task

/-- A task is still in service 2 ms after its Caddy or engine entered DRAINING (R79). -/
def drainTimeout (d : Dev) (i : Nat) : Dev :=
  match (d.task i).bind taskEngine with
  | none => d
  | some e => if (d.engine e).draining || (d.caddy (e / 16)).state == cdDRAINING then abortAny d i rsDRAIN else d

def execDrainTimeout (task : Nat) (s : State) : Out := s.onDev fun d => drainTimeout d task

/-- An engine fault (R80). -/
def engineFault (d : Dev) (e : Nat) : Dev :=
  resetEngine ((d.engine e).tasks.foldl (fun a i => abortAny a i rsFAULT) (d.inc DSP_ERR_engine_fault)) e

def execEngineFault (engine : Nat) (s : State) : Out := s.onDev fun d => engineFault d engine

/-! ### Word queues -/

def execWqCfgWrite (q : Nat) (w : Word) (s : State) : Out := s.onDev fun d => wqCfgWrite d q w

def execWqPush (m : Sys2Proof.Master) (q : Nat) (w : Word64) (s : State) : Out := s.onDev fun d => (wqPush d q (endpointOf d m) w).1

def execWqPop (m : Sys2Proof.Master) (q : Nat) (s : State) : Out := s.onDev fun d => (wqPopLo d m q).2.answer m (wqPopLo d m q).1.toNat

def execWqErrClr (q : Nat) (s : State) : Out := s.onDev fun d => d.clearReg (DSP_WQ_ERRn q)

/-! ### Counters (R89) -/

/-- The last complete 1 ms window of TB4. -/
def windowEnd (d : Dev) : Nat := d.ns / 1000000 * 1000000

/-- Insert an interval by its start. -/
def insSpan (x : Nat × Nat) : List (Nat × Nat) → List (Nat × Nat)
  | [] => [x]
  | y :: t => if x.1 ≤ y.1 then x :: y :: t else y :: insSpan x t

/-- Time covered by intervals in rising order from a point on. -/
def covered : Nat → List (Nat × Nat) → Nat
  | _, [] => 0
  | from_, (a, b) :: t => (b - max a from_) + covered (max b from_) t

/-- Busy share of an engine in the last window, per mille. -/
def engineBusy (d : Dev) (e : Nat) : Nat :=
  let hi := windowEnd d
  let lo := hi - 1000000
  let x := d.engine e
  let cur := (x.tasks.filterMap d.task).map fun t => (t.startAt, d.ns)
  let clip := (x.spans ++ cur).map fun s => (max s.1 lo, min s.2 hi)
  covered lo ((clip.filter fun s => decide (s.1 < s.2)).foldr insSpan []) / 1000

/-- Waits of an engine whose entry lies in the last window. -/
def engineWaits (d : Dev) (e : Nat) : List Nat :=
  ((d.engine e).waits.filter fun x => decide (windowEnd d - 1000000 ≤ x.1 ∧ x.1 < windowEnd d)).map (·.2)

/-- Mean of waits in 10 ns. -/
def meanWait (l : List Nat) : Nat := if l.isEmpty then 0 else min (l.sum / l.length / 10) 0xFFFF

/-- Write DSP_CNT_SEL (reserved values keep a field) and take the snapshot of the unit. -/
def cntSelect (d : Dev) (caddy unit : Nat) : Dev :=
  let d1 := if caddy ≤ 33 then d.setFld DSP_CNT_SEL_caddy caddy else d
  let d2 := if unit ≤ 16 then d1.setFld DSP_CNT_SEL_unit unit else d1
  let c := d2.fld DSP_CNT_SEL_caddy
  let u := d2.fld DSP_CNT_SEL_unit
  let x := d2.caddy c
  let es := (List.range 16).map (16 * c + ·)
  let e := 16 * c + u
  let sat (v : Nat) : Nat := min v 0xFFFF
  let busy := if u = 16 then (es.map (engineBusy d2)).sum / 16 else engineBusy d2 e
  let done := if u = 16 then (es.map fun k => (d2.engine k).done).sum else (d2.engine e).done
  let wmax := if u = 16 then x.waitMax else (d2.engine e).waitMax
  let wmean := meanWait (if u = 16 then es.flatMap (engineWaits d2) else engineWaits d2 e)
  let dmax := if u = 16 then x.depthMax else (d2.engine e).prefetchMax
  let depth := if u = 16 then x.ready.length else b2n (d2.engine e).prefetch.isSome
  let d3 := (d2.setFld DSP_CNT_BUSY_busy busy).setReg DSP_CNT_DONE (BitVec.ofNat 32 done)
  let d4 := (d3.setFld DSP_CNT_WAIT_wait_max (sat wmax)).setFld DSP_CNT_WAIT_wait_mean wmean
  let d5 := (d4.setFld DSP_CNT_DEPTH_depth_max (sat dmax)).setFld DSP_CNT_DEPTH_depth (sat depth)
  (d5.setFld DSP_CNT_STEAL_stolen_in (if u = 16 then x.stolenIn else 0)).setFld DSP_CNT_STEAL_stolen_out (if u = 16 then x.stolenOut else 0)

def execCntSelSnapshot (caddy unit : Nat) (s : State) : Out := s.onDev fun d => cntSelect d caddy unit

/-- DSP_CTRL.cnt_clear: maxima and steal counts of the selected unit start again, a depth from what stands there now (R89). -/
def dspCntClear (d : Dev) : Dev :=
  let c := d.fld DSP_CNT_SEL_caddy
  let u := d.fld DSP_CNT_SEL_unit
  if u = 16 then d.setCaddy c { d.caddy c with depthMax := (d.caddy c).ready.length, waitMax := 0, stolenIn := 0, stolenOut := 0 }
  else d.setEngine (16 * c + u) { d.engine (16 * c + u) with waitMax := 0, prefetchMax := b2n (d.engine (16 * c + u)).prefetch.isSome }

def execDspCntClear (s : State) : Out := s.onDev dspCntClear

def execDspErrClear (s : State) : Out := s.onDev fun d => d.clearReg DSP_ERR

end Sys2Proof.Machine
end

