-- ==== Sys2Proof/Machine/Receive.lean ====
section
/-! DEFINITION. The commands of the receive chain (06_receive.md R159 to R181). -/

namespace Sys2Proof.Machine

/-! ### Noise floors (R159) -/

/-- A millisecond of TB4 ends: the mean antenna power (10^-20 mW) of each listed channel, by port and channel; a channel on which a
context ran in it, for however short a time, gives no value. -/
def noiseWindow (d : Dev) (vals : List (Nat × Nat × Nat)) : Dev :=
  let d1 := vals.foldl (fun a v =>
    let (p, c, x) := v
    if portLive a p && (ctxOn a p c).isEmpty && !(a.chan p c).ran && decide (c < bpCount a.band p) then
      a.setChan p c { a.chan p c with powers := (x :: (a.chan p c).powers).take 16 }
    else a) d
  { d1 with rx := { d1.rx with channels := d1.rx.channels.map fun e => (e.1, { e.2 with ran := false }) } }

def execNoiseWindow (vals : List (Nat × Nat × Nat)) (s : State) : Out := s.onDev fun d => noiseWindow d vals

/-! ### Detection (R159 to R166) -/

/-- The expectation a detection falls in (R162, R214), class 0 before class 1: its handle and class. -/
def expectAt (d : Dev) (p c t : Nat) : Option (Nat × Nat) :=
  let hit (k : Nat) := d.ts.exps.find? fun e => e.2.cls == k && e.2.port == p && e.2.channel == c && decide (e.2.from_ ≤ t ∧ t ≤ e.2.until_)
  ((hit 0).or (hit 1)).map fun e => (e.1, e.2.cls)

/-- The context a detection of class `c` takes over (R163). `run` gives P_run over all samples. -/
def takeover (d : Dev) (c : Nat) (run : Nat → Nat → Nat) : Option Nat :=
  let pre := d.rx.ctx.filter fun x => x.2.st == .preamble
  let top := (pre.map fun x => x.2.cls).foldl max 0
  let one := if top < c then [] else pre.filter fun x => x.2.cls == top
  let cand := if one.isEmpty then d.rx.ctx.filter fun x => decide (c < x.2.cls) else one
  (cand.foldl (fun b x => match b with
    | none => some x
    | some y =>
      let px := run x.1 x.2.pRun
      let py := run y.1 y.2.pRun
      if px < py ∨ (px = py ∧ y.2.det < x.2.det) then some x else some y) none).map (·.1)

/-- Open a context for a detection (R160, R163): at once, by taking over, or waiting for an identifier; else dropped CTX_FULL. -/
def openDetection (d : Dev) (x : RxCtx) (run : Nat → Nat → Nat) : Dev :=
  let start (e : Dev) : Dev := match openCtx e x with
    | some e1 => e1
    | none => { e with rx := { e.rx with late := e.rx.late ++ [x] } }
  if slotAvailable d x.mode then start d
  else match takeover d x.cls run with
    | some i => start (ctxEnd d i rxPREEMPTED none)
    | none =>
      let d1 := d.inc RX_CNT_CTX_ctx_full
      let last := Tab.find d1.rx.ctxFullAt x.port
      if (last.map fun t => decide (d.secs < t + 1)).getD false then d1
      else raise { d1 with rx := { d1.rx with ctxFullAt := Tab.put d1.rx.ctxFullAt x.port d.secs } } 80 x.port 0

/-- The power above P_run reaches P_run + T (R165). -/
def captures (d : Dev) (pWin pRun : Nat) : Bool := decide (pRun < pWin) && atLeastDb (pWin - pRun) pRun (4 * d.captureDb)

/-- The detector that a mode shares (R156): SUN FSK with and without FEC at one rate is found by one, known by its lowest mode_id. -/
def detectorOf (d : Dev) (p m : Nat) : Nat :=
  let kind (x : Nat) : Option (Nat × Nat) := (phyFind d.phy x).map fun k => (max (phyFamily d.phy k) 1, phyRate d.phy k)
  ((portModes d p).find? fun x => kind x == kind m).getD m

/-- Contexts on a channel and detections that wait to open one there, which count as contexts (R166): the task, if any. -/
def channelLoad (d : Dev) (p c : Nat) : List (Option Nat × RxCtx) :=
  ((ctxOn d p c).map fun e => (some e.1, e.2)) ++ (d.rx.late.filter fun x => x.port == p && x.channel == c).map fun x => (none, x)

/-- One of them ends REPLACED (R166). -/
def replaceOne (d : Dev) (e : Option Nat × RxCtx) : Dev :=
  match e.1 with
  | some i => ctxEnd d i rxREPLACED none
  | none => countEnd { d with rx := { d.rx with late := d.rx.late.erase e.2 } } e.2 rxREPLACED

/-- The detector of a channel fires for a mode with correlation `rho` (thousandths) and window power `pWin`; `runs` gives for each context
on the channel, and for candidates of R163, P_run up to the window and P_run over all samples. (DESIGN CHOICE: log entry 11) -/
def detection (d : Dev) (p c m rho pWin : Nat) (runs : List (Nat × Nat × Nat)) : Dev :=
  let ch := d.chan p c
  let snr := ((phyFind d.phy m).map (phyDetSnr d.phy)).getD 80
  let fires := detecting d p && decide (c < bpCount d.band p) && (portModes d p).contains m && decide (600 ≤ rho) &&
    ((noise d p c).map fun n => atLeastDb pWin n snr).getD false &&
    ((Tab.find ch.refire (detectorOf d p m)).map fun t => decide (t ≤ d.ns)).getD true
  if !fires then d
  else
    let w := symbolsNs d m (winSymbols d m)
    let d1 := d.setChan p c { ch with det := min (ch.det + 1) 0xFFFF, refire := Tab.put ch.refire (detectorOf d p m) (d.ns + w) }
    let e := expectAt d1 p c (d.ns - w)
    let runB (i dflt : Nat) := ((runs.find? fun r => r.1 == i).map (·.2.1)).getD dflt
    let runA (i dflt : Nat) := ((runs.find? fun r => r.1 == i).map (·.2.2)).getD dflt
    let x (second : Bool) : RxCtx := ⟨p, c, m, (e.map (·.2)).getD 2, .preamble, pWin, pWin, d.ns, second, e.map (·.1), 0, none, 0, false, false, 0, [], 0⟩
    let ignored (a : Dev) := a.setChan p c { a.chan p c with ignored := min ((a.chan p c).ignored + 1) 0xFF }
    match channelLoad d1 p c with
    | [] => openDetection d1 (x false) runA
    | y :: ys =>
      let p_ (z : Option Nat × RxCtx) : Nat := (z.1.map fun i => runB i z.2.pRun).getD z.2.pRun
      let weakest := ys.foldl (fun b z => if p_ z < p_ b then z else b) y
      if !d1.bit RX_CTRL_capture_en || !captures d1 pWin (p_ weakest) then ignored d1
      else openDetection (if ys.isEmpty then d1 else replaceOne d1 weakest) (x true) runA

def execDetection (p c m rho pWin : Nat) (runs : List (Nat × Nat × Nat)) (s : State) : Out :=
  s.onDev fun d => detection d p c m rho pWin runs

/-- A waiting detection leaves the 64-sample buffer (R160), the oldest of the channel: it opens if a slot and an identifier are free now, else it
is dropped. -/
def detectionLate (d : Dev) (p c : Nat) : Dev :=
  match d.rx.late.find? fun x => x.port == p && x.channel == c with
  | some x => (openOne d x).getD <| ({ d with rx := { d.rx with late := d.rx.late.erase x } }).inc RX_CNT_DROP_ctx_late
  | none =>
    match d.rx.ctx.find? fun x => x.2.port == p && x.2.channel == c && ((d.task x.1).map fun t => (taskEngine t).isNone).getD false with
    | some x => completeTask (ctxLeave (d.inc RX_CNT_DROP_ctx_late) x.1 0xFF none) x.1 rxNO_SFD
    | none => d

def execDetectionLate (p c : Nat) (s : State) : Out := s.onDev fun d => detectionLate d p c

/-! ### States of a context (Table RECV-3) -/

/-- Replace a running context. -/
def setCtx (d : Dev) (i : Nat) (x : RxCtx) : Dev := { d with rx := { d.rx with ctx := Tab.put d.rx.ctx i x } }

/-- A new group with one copy (R171), or the copy stays ungrouped at 512 groups. -/
def newGroup (d : Dev) (i : Nat) (x : RxCtx) : Dev :=
  if 512 ≤ d.rx.groups.length then (setCtx d i x).inc RX_CNT_DUP_group_full
  else
    let g := d.rx.nextGroup
    let d1 := setCtx d i { x with group := some g }
    { d1 with rx := { d1.rx with groups := Tab.put d1.rx.groups g ⟨freq2 d x.port x.channel, x.mode, x.tS, [x.port], [i], [], []⟩, nextGroup := g + 1 } }

/-- The member of a full group with the lowest P_win: its P_win and port, and its task when it runs or its copy when it ended with one. -/
def weakestMember (d : Dev) (g : RxGroup) : Option (Nat × Nat × Option Nat × Option Copy) :=
  let run := g.running.filterMap fun i => (Tab.find d.rx.ctx i).map fun x => (x.pWin, x.port, (some i : Option Nat), (none : Option Copy))
  let all := run ++ (g.ended.map fun c => (c.pWin, c.port, none, some c)) ++ g.others.map fun m => (m.2, m.1, none, none)
  all.foldl (fun b y => match b with
    | none => some y
    | some z => if y.1 < z.1 then some y else some z) none

/-- Join a group (R171); a fifth copy of higher P_win displaces the weakest member, which becomes ungrouped. -/
def joinGroup (d : Dev) (i : Nat) (x : RxCtx) (k : Nat) (g : RxGroup) : Dev :=
  let join (e : Dev) (h : RxGroup) : Dev :=
    let e1 := setCtx e i { x with group := some k }
    { e1 with rx := { e1.rx with groups := Tab.put e1.rx.groups k { h with ports := x.port :: h.ports, running := h.running ++ [i] } } }
  if g.running.length + g.ended.length + g.others.length < 4 then join d g
  else match weakestMember d g with
    | none => setCtx d i x
    | some (w, p, r, c) =>
      let h := { g with ports := g.ports.filter (· != p) }
      if x.pWin ≤ w then setCtx d i x
      else match r, c with
        | some j, _ =>
          match Tab.find d.rx.ctx j with
          | some y => join (setCtx d j { y with group := none }) { h with running := g.running.filter (· != j) }
          | none => setCtx d i x
        | none, some y => aloneCopy (join d { h with ended := g.ended.erase y }) g.mode y
        | none, none => join d { h with others := g.others.erase (p, w) }

/-- The mode of a port that an SFD tells: SUN FSK with FEC or without at the context's rate (R156). -/
def sfdMode (d : Dev) (p m : Nat) (fec : Bool) : Nat :=
  match phyFind d.phy m with
  | none => m
  | some k =>
    if 1 < phyFamily d.phy k then m
    else ((portModes d p).find? fun x => ((phyFind d.phy x).map fun j => phyFamily d.phy j == b2n fec && phyRate d.phy j == phyRate d.phy k).getD false).getD m

/-- A context finds the SFD, of the form with FEC or without, at `ts` (TB0 ns): HEADER, and its copy is offered to a group (R156, R164, R170, R171). -/
def sfdFound (d : Dev) (i ts : Nat) (fec : Bool) : Dev :=
  match Tab.find d.rx.ctx i with
  | none => d
  | some y =>
    if y.st ≠ .preamble then d
    else
      let x := { y with st := .header, tS := ts, mode := sfdMode d y.port y.mode fec }
      match d.rx.groups.find? fun g => g.2.freq2 == freq2 d x.port x.channel && g.2.mode == x.mode && !g.2.ports.contains x.port &&
          decide (g.2.firstTs ≤ ts ∧ ts ≤ g.2.firstTs + 2000) with
      | some (k, g) => joinGroup d i x k g
      | none => newGroup d i x

def execSfdFound (task ts : Nat) (fec : Bool) (s : State) : Out := s.onDev fun d => sfdFound d task ts fec

/-- PREAMBLE reaches its bound without an SFD (R167). -/
def noSfd (d : Dev) (i : Nat) : Dev :=
  match Tab.find d.rx.ctx i with
  | some x => if x.st = .preamble then ctxEnd d i rxNO_SFD none else d
  | none => d

def execNoSfd (task : Nat) (s : State) : Out := s.onDev fun d => noSfd d task

/-- O-QPSK is received in 2,400 to 2,483.5 MHz alone (R156). -/
def bandOk (d : Dev) (x : RxCtx) : Bool :=
  ((phyFind d.phy x.mode).map fun k => phyFamily d.phy k != 3).getD true ||
    decide (2 * 2400000000 ≤ freq2 d x.port x.channel ∧ freq2 d x.port x.channel ≤ 2 * 2483500000)

/-- The PHR is demodulated: supported with no reserved value set, PSDU length, FCS length it names, FEC (Table RECV-3). -/
def phrDone (d : Dev) (i : Nat) (ok : Bool) (len : Nat) (fcs4 fec : Bool) : Dev :=
  match Tab.find d.rx.ctx i with
  | none => d
  | some x =>
    let maxLen := ((phyFind d.phy x.mode).map (phyMaxPsdu d.phy)).getD 0
    if x.st ≠ .header then d
    else if !ok || !bandOk d x || decide (len < (if fcs4 then 4 else 2) + 1) || decide (maxLen < len) then ctxEnd d i rxPHR_BAD none
    else setCtx d i { x with st := .payload, phrLen := len, fcs4 := fcs4, fec := fec, gains := [gainTerm d x.port],
                             ofs := toSigned 16 (d.fld (RX_RSSI_OFSn_ofs x.port)) }

def execPhrDone (task : Nat) (ok : Bool) (len : Nat) (fcs4 fec : Bool) (s : State) : Out := s.onDev fun d => phrDone d task ok len fcs4 fec

/-- The last PSDU symbol: DECODE. (DESIGN CHOICE: log entry 14) (DESIGN CHOICE: log entry 46) -/
def payloadEnd (d : Dev) (i : Nat) : Dev :=
  match Tab.find d.rx.ctx i with
  | some x => if x.st = .payload then setCtx d i { x with st := .decode, lastAt := d.ns } else d
  | none => d

def execPayloadEnd (task : Nat) (s : State) : Out := s.onDev fun d => payloadEnd d task

/-- LQI from EVM in 0.1 dB (R176). -/
def lqiOf (evm : Int) : Nat :=
  let e := (-evm).toNat
  if e ≤ 30 then 0 else if 300 ≤ e then 255 else (e - 30) * 255 / 270

/-- EVM in 0.1 dB from the error and ideal sums (R175), clamped to −50.0 to 0.0. -/
def evmOf (err sig : Nat) : Int := if err = 0 ∨ sig = 0 then -500 else clampInt (logSteps 100 err sig 501 (-501)) (-500) 0

/-- RSSI in 0.25 dBm (R174): `segs` gives, for each d + g of `gains` in turn, the number of PSDU samples under it and their mean of i² + q² in
units of 10^-18 of full scale squared; the first is the reference. (DESIGN CHOICE: log entry 38) -/
def rssiOf (gains : List Int) (ofs : Int) (segs : List (Nat × Nat)) : Int :=
  let g0 := gains.headD 0
  let n := (segs.map (·.1)).sum
  let total := ((gains.zip segs).map fun e => e.2.1 * e.2.2 * antilog (g0 - e.1)).sum
  quarterDb (total / (10 ^ 20 * max n 1)) (10 ^ 18) - g0 + ofs

/-- A context finishes decoding (R164, R172, R174 to R176): FCS result, PSDU, soft decisions, mean powers, EVM sums, carrier offset in
100 Hz, MCS. (DESIGN CHOICE: log entry 11) -/
def decodeDone (d : Dev) (i : Nat) (passed : Bool) (psdu soft : List Byte) (segs : List (Nat × Nat)) (err sig : Nat) (cfo : Int) (mcs : Nat) : Dev :=
  match Tab.find d.rx.ctx i with
  | none => d
  | some x =>
    if x.st ≠ .decode then d
    else
      let evm := evmOf err sig
      let c : Copy := ⟨x.port, x.channel, x.cls, x.exp, x.second, passed, x.pWin, x.tS, x.phrLen, fit x.phrLen psdu, soft,
        rssiOf x.gains.reverse x.ofs segs, evm, lqiOf evm, cfo, mcs, x.fcs4, x.fec, x.lastAt,
        x.det - symbolsNs d x.mode (winSymbols d x.mode)⟩
      ctxEnd d i (if passed then rxDONE else rxFCS_FAIL) (some c)

def execDecodeDone (task : Nat) (passed : Bool) (psdu soft : List Byte) (segs : List (Nat × Nat)) (err sig : Nat) (cfo : Int) (mcs : Nat) (s : State) : Out :=
  s.onDev fun d => decodeDone d task passed psdu soft segs err sig cfo mcs

/-- 100 µs after a group's first member ended (R172). -/
def groupTimeout (d : Dev) (g : Nat) : Dev :=
  match Tab.find d.rx.groups g with
  | some x => if x.ended.isEmpty && x.others.isEmpty then d else resolveGroup d g
  | none => d

def execGroupTimeout (g : Nat) (s : State) : Out := s.onDev fun d => groupTimeout d g

/-- The oldest delivered frame leaves the recent list after 1 ms (R173). -/
def recentExpiry (d : Dev) : Dev := { d with rx := { d.rx with recent := d.rx.recent.dropLast } }

def execRecentExpiry (s : State) : Out := s.onDev recentExpiry

/-! ### The frame record (R178 to R180) -/

/-- The expectation a record names, a class 0 one before a class 1 (R178). -/
def recordExp (cs : List Copy) : Option Copy := (cs.find? fun c => c.exp.isSome && c.cls == 0).or (cs.find? fun c => c.exp.isSome)

/-- PAN slot of a frame, and whether it comes from the port (R179). -/
def recordPan (d : Dev) (f : RxFrame) (h : Sys2Proof.MacHdr) : Nat × Bool :=
  match h.panId.bind fun i => (List.range 8).find? fun p => d.panUsed p && d.panId p == i with
  | some p => (p, false)
  | none => match ((recordExp f.copies).bind (·.exp)).bind fun k => Tab.find d.ts.exps k with
    | some e => (e.pan, false)
    | none => (((List.range 8).find? fun p => nbit (topPanMask d.topo f.best.port) p).getD 0, true)

/-- The source address as an Address key, if the header carries one. -/
def srcKey (pan : Nat) (h : Sys2Proof.MacHdr) : Option (List Byte) :=
  if h.srcMode = 2 then some (shortKey pan h.src) else if h.srcMode = 3 then some (extKey pan (le 8 h.src)) else none

/-- Own extended address (R219). -/
def ownEui (d : Dev) : Nat := d.reg64 TS_EUI_LO

/-- Flow and handler of a frame task (Table RECV-5). Frames of another version reach handler 0x04 (R201). -/
def recordFlow (d : Dev) (f : RxFrame) (h : Sys2Proof.MacHdr) (pan : Nat) : Nat × Nat :=
  let exp0 := (f.copies.find? fun c => c.exp.isSome && c.cls == 0).bind fun c => c.exp.bind fun k => Tab.find d.ts.exps k
  if h.version ≠ 2 then (0x401FF, 4)
  else if h.ftype = 0 ∧ h.src ≠ ownEui d then (0x40100, 3)
  else match srcKey pan h, exp0 with
    | some k, _ => match addrFind d k with
      | some n => (n, 1)
      | none => (0x40000 + pan, 2)
    | none, some e => (e.target, 1)
    | none, none => (0x401FF, 4)

/-- The 64 bytes of a record (Table RECV-4). -/
def recordBytes (d : Dev) (f : RxFrame) (pan : Nat) (fromPort : Bool) (buf flow : Nat) : List Byte :=
  let any (g : Copy → Bool) := f.copies.any g
  let x := recordExp f.copies
  let ts := f.best.tS
  let flags := b2n f.combined + 2 * b2n (any (·.second)) + 4 * b2n (any fun c => decide (c.cls ≤ 1)) + 8 * b2n (any fun c => c.cls == 0) +
    16 * b2n f.best.fcs4 + 32 * b2n f.best.fec + 64 * b2n fromPort
  let asn := asnOf d pan ts
  let ports := (f.copies.map fun c => BitVec.ofNat 8 c.port) ++ List.replicate 4 0xFF
  let rssis := (f.copies.map fun c => ofSigned 16 c.rssi) ++ List.replicate 4 0x8000
  le 1 1 ++ le 1 flags ++ le 1 f.mode ++ le 1 f.copies.length ++ le 1 f.best.port ++ le 1 f.best.channel ++ le 2 f.best.psdu.length ++
  le 4 (ts % 1000000000) ++ le 4 (ts / 1000000000) ++ le 5 asn ++ le 1 pan ++ le 2 ((x.bind (·.exp)).getD 0xFFFF) ++
  le 4 (ofSigned 32 ((ts : Int) - slotStart0 d pan asn)) ++ le 2 (ofSigned 16 f.best.rssi) ++ le 2 (ofSigned 16 f.best.evm) ++
  le 1 f.best.lqi ++ le 1 (if ((phyFind d.phy f.mode).map (phyFamily d.phy)) = some 2 then f.best.mcs else 0xFF) ++
  le 2 (ofSigned 16 f.best.cfo) ++ le 4 buf ++ ports.take 4 ++ (rssis.take 4).flatMap (le 2) ++ le 4 flow ++ zeros 8

/-- Post the oldest waiting frame, its MAC header read in clear, when an identifier and buffer room exist (R179, R180): record, PSDU, frame task. -/
def recordPost (d : Dev) (changed : Nat) : Dev :=
  match d.rx.frames with
  | [] => d
  | f :: rest =>
    let h := macHdr (f.best.psdu.take (f.best.psdu.length - if f.best.fcs4 then 4 else 2))
    let (pan, fromPort) := recordPan d f h
    let (flow, handler) := recordFlow d f h pan
    match bufPut d f.best.psdu with
    | none => d
    | some (buf, d1) =>
      match bufPut d1 (recordBytes d f pan fromPort buf flow) with
      | none => d
      | some (rec, d2) =>
        let d3 := ((srcKey pan h).map fun k => (keyedLookup d2 1 k changed).2).getD d2
        let x := { d3.rx with frames := rest, hdrs := Tab.put d3.rx.hdrs rec h, ends := Tab.put d3.rx.ends rec f.best.lastAt,
                              starts := Tab.put d3.rx.starts rec (f.copies.map (·.start)) }
        match hwSubmit { d3 with rx := x } 0 0x4000 2 0 flow handler rec 0 0 with
        | none => d
        | some (_, d4) => d4.setReg RX_CNT_DELIV (d4.reg RX_CNT_DELIV + 1)

def execRecordPost (changed : Nat) (s : State) : Out := s.onDev fun d => recordPost d changed

/-- A frame held for 1 ms is dropped (R180): the oldest. -/
def recordHoldTimeout (d : Dev) : Dev :=
  match d.rx.frames with
  | [] => d
  | _ :: rest => ({ d with rx := { d.rx with frames := rest } }).inc RX_CNT_DROP_rec_drop

def execRecordHoldTimeout (s : State) : Out := s.onDev recordHoldTimeout

/-- RX_CTRL.cnt_clear: every RX_CNT_ and channel counter (R181). -/
def rxCntClear (d : Dev) : Dev :=
  let d1 := d.clearRegs [RX_CNT_CTX, RX_CNT_LOST, RX_CNT_DELIV, RX_CNT_FAIL, RX_CNT_COMB, RX_CNT_DUP, RX_CNT_DROP]
  { d1 with rx := { d1.rx with channels := d1.rx.channels.map fun c =>
      (c.1, { c.2 with det := 0, false_ := 0, opened := 0, replaced := 0, ignored := 0 }) } }

def execRxCntClear (s : State) : Out := s.onDev rxCntClear

end Sys2Proof.Machine
end

