-- ==== Sys2Proof/Machine/Wave.lean ====
section
/-! DEFINITION. What the transmit chain sends (07_transmit.md R188 to R196, R199): PSDU with FCS, Whistle chips, envelope, level, sum of lanes,
crest-factor reduction, quantising, loopback. Samples are I and Q in units of 2^-23 of full scale. -/

namespace Sys2Proof.Machine

/-! ### PPDU (R188, R189) -/

/-- The FCS of IEEE 802.15.4-2020: CRC-16 of x^16 + x^12 + x^5 + 1 from 0, or CRC-32 over at least four octets. (PRESUMED: log entry 127) -/
def fcsOf (two : Bool) (psdu : List Byte) : List Byte :=
  if two then le 2 (psdu.foldl (fun r b => crcStepsR 0x8408 8 (r ^^^ b.toNat)) 0)
  else le 4 (crc32 (psdu ++ zeros (4 - psdu.length)))

/-- The PSDU of a burst with its FCS. -/
def psduSent (d : Dev) (r : TxReq) : List Byte := bufGet d r.buf ++ fcsOf (fcsLen d r.mode == 2) (bufGet d r.buf)

/-- The shaped PPDU at the context rate: coding, interleaving, whitening and shaping of the mode as its record and Table SEND-4 select; RMS 2^15. -/
def ppdu (d : Dev) (r : TxReq) : List Sample :=
  Config.modulate (((phyFind d.phy r.mode).map fun k => slice d.phy (16 * k) 16).getD []) (psduSent d r)

/-! ### Whistles (R195, R196) -/

/-- The 176 chips of a copy, true for on: a bit of 1 is on then off, a bit of 0 off then on, most significant bit first. -/
def whistleChips (bits : Nat) : List Bool := (List.range 88).flatMap fun k => [nbit bits (87 - k), !nbit bits (87 - k)]

/-- The bits of a copy: the copies that follow it and its delay are in them. -/
def copyBits (d : Dev) (b : Burst) : Nat := whistleBits d b.req (b.req.copies - b.copy) b.delay

/-! ### Envelope (R190, R196), full amplitude 0x8000 -/

/-- Linear between two values over `len` ns, `t` ns in. -/
def between (a b t len : Nat) : Nat := ((a : Int) + ((b : Int) - a) * t / (max len 1 : Nat)).toNat

/-- A point of a profile, capped. -/
def Ramp.point (r : Ramp) (k : Nat) : Nat := min (r.pts.getD k 0x8000) 0x8000

/-- The rising edge `t` ns in: point k at (k + 1) r / 64, from 0. -/
def Ramp.rise (r : Ramp) (t : Nat) : Nat :=
  let k := 64 * t / max r.ns 1
  if r.ns ≤ t then 0x8000 else between (if k = 0 then 0 else r.point (k - 1)) (r.point k) (64 * t % r.ns) r.ns

/-- The falling edge: points from 63 down to 0, then 0. -/
def Ramp.fall (r : Ramp) (t : Nat) : Nat :=
  let k := 64 * t / max r.ns 1
  if r.ns ≤ t then 0 else between (if k = 0 then 0x8000 else r.point (64 - k)) (r.point (63 - k)) (64 * t % r.ns) r.ns

/-- A chip of 62.5 µs: on, it rises and falls inside itself; off, nothing is sent, at least 30 dB less. -/
def Ramp.chip (r : Ramp) (on : Bool) (t : Nat) : Nat :=
  if !on then 0 else if t + r.ns ≤ 62500 then r.rise t else r.fall (t + r.ns - 62500)

/-- The envelope of a burst `t` ns after t0. -/
def burstEnvelope (d : Dev) (b : Burst) (t : Nat) : Nat :=
  if b.req.kind = 3 then b.ramp.chip ((whistleChips (copyBits d b)).getD (t / 62500) false) (t % 62500)
  else if t + b.ramp.ns < b.t1 - b.t0 then b.ramp.rise t
  else b.ramp.fall (t + b.ramp.ns - (b.t1 - b.t0))

/-! ### Level, lanes, sum (R189, R193) -/

/-- 10^(q / 80) for q ≤ 0, in units of 2^-24: an amplitude by quarter decibels. (DESIGN CHOICE: log entry 129) -/
def ampOf (q : Int) : Nat := rootBits 80 ((2 ^ 24) ^ 80 / 10 ^ (-q).toNat) 24 0

/-- The context's samples, the last 16 repeated to fill `n` when it has ended (R192). -/
def repeatLast (l : List Sample) (n : Nat) : List Sample :=
  if n ≤ l.length then l.take n
  else l ++ (List.range (n - l.length)).map fun k => (l.drop (l.length - 16)).getD (k % max (min 16 l.length) 1) (0, 0)

/-- What a lane adds to its head's composite: `n` samples at the port rate from t0. A Whistle's carrier is a constant. (DESIGN CHOICE: log entry 129) -/
def laneOut (d : Dev) (b : Burst) (n : Nat) : List Sample :=
  let p := b.req.port
  let hz := bpRateHz d.band p
  let carrier : List Sample := List.replicate n (2 ^ 15, 0)
  let base := if b.req.kind = 3 then carrier else repeatLast (Config.toRate (hz / 100) (ppdu d b.req)) n
  let on := Config.shift (freq2 d p b.req.channel - 2000 * bpCentre d.band p) hz b.t0 base
  on.zipIdx.map fun e =>
    let g := ampOf (b.scale - 120) * burstEnvelope d b (e.2 * 10 ^ 9 / max hz 1)
    (e.1.1 * g / 2 ^ 31, e.1.2 * g / 2 ^ 31)

/-- Sum of lanes, sample by sample. -/
def addSamples (a b : List Sample) : List Sample := (a.zip b).map fun x => (x.1.1 + x.2.1, x.1.2 + x.2.2)
def composite (d : Dev) (p n : Nat) : List Sample :=
  ((headBursts d p).filter (·.onAir)).foldl (fun a b => addSamples a (laneOut d b n)) (List.replicate n (0, 0))

/-! ### Crest-factor reduction (R194) -/

/-- Mean power of a burst after level and envelope, and P_avg over the bursts on air, `t` TB4 ns. -/
def burstPower (d : Dev) (b : Burst) (t : Nat) : Nat := (ampOf (b.scale - 120) * burstEnvelope d b (t - b.t0) / 2 ^ 16) ^ 2
def averagePower (d : Dev) (p t : Nat) : Nat := (((headBursts d p).filter (·.onAir)).map fun b => burstPower d b t).sum

/-- A composite sample with its P_avg. -/
structure CompSample where
  x : Sample
  pAvg : Nat
deriving DecidableEq, Repr

/-- |x|², and the threshold: |x| > A with A = √P_avg × 10^(8/20), compared by fifth powers; A itself, rounded down. -/
def magnitude2 (s : Sample) : Nat := s.1.natAbs ^ 2 + s.2.natAbs ^ 2
def aboveA (c : CompSample) : Bool := decide (c.pAvg ^ 5 * 10 ^ 4 < magnitude2 c.x ^ 5)
def ampA (pAvg : Nat) : Nat := rootBits 10 (pAvg ^ 5 * 10 ^ 4) 40 0

/-- Numbers of the peaks: samples above A that are not below either neighbour. (DESIGN CHOICE: log entry 129) -/
def peaksOf (l : List CompSample) : List Nat :=
  (List.range l.length).filter fun k =>
    let m (j : Nat) := ((l[j]?).map fun c => magnitude2 c.x).getD 0
    ((l[k]?).map aboveA).getD false && decide ((k = 0 ∨ m (k - 1) < m k) ∧ m (k + 1) ≤ m k)

/-- Subtract a cancellation pulse, 2^15 at its middle, that reduces the peak at `k` to A. -/
def cancelAt (pulse : List Sample) (l : List CompSample) (k : Nat) : List CompSample :=
  match l[k]? with
  | none => l
  | some c =>
    let m := Nat.sqrt (magnitude2 c.x)
    let rest : Int := m - ampA c.pAvg
    let e : Sample := (c.x.1 * rest / m, c.x.2 * rest / m)
    l.zipIdx.map fun y =>
      let h := if pulse.length / 2 + y.2 < k then (0, 0) else pulse.getD (pulse.length / 2 + y.2 - k) (0, 0)
      { y.1 with x := (y.1.x.1 - (e.1 * h.1 - e.2 * h.2) / 2 ^ 15, y.1.x.2 - (e.1 * h.2 + e.2 * h.1) / 2 ^ 15) }

/-- Clip a sample above A to A, its phase kept. -/
def clipSample (c : CompSample) : CompSample :=
  if !aboveA c then c
  else
    let m := Nat.sqrt (magnitude2 c.x)
    { c with x := (c.x.1 * ampA c.pAvg / m, c.x.2 * ampA c.pAvg / m) }

/-- What crest-factor reduction leaves, and what it counts. -/
structure Crest where
  out : List CompSample
  cancelled : Nat
  clipped : Nat
deriving DecidableEq, Repr

/-- Two passes of cancellation, then the hard clip. (DESIGN CHOICE: log entry 129) -/
def reduceCrest (pulse : List Sample) (l : List CompSample) : Crest :=
  let p1 := peaksOf l
  let l1 := p1.foldl (cancelAt pulse) l
  let p2 := peaksOf l1
  let l2 := p2.foldl (cancelAt pulse) l1
  ⟨l2.map clipSample, p1.length + p2.length, (l2.filter aboveA).length⟩

/-- The cancellation pulse of a head: the channel responses of its bursts on air, each weighted by its share of P_avg. -/
def pulseOf (d : Dev) (p : Nat) : List Sample :=
  let on := (headBursts d p).filter (·.onAir)
  let total := max (averagePower d p d.ns) 1
  on.foldl (fun a b =>
    let r := Config.channelResponse (freq2 d p b.req.channel - 2000 * bpCentre d.band p) (bpRateHz d.band p)
    let w := burstPower d b d.ns
    addSamples a (r.map fun s => (s.1 * w / total, s.2 * w / total))) (List.replicate 257 (0, 0))

/-! ### Quantising, loopback (R193, R199) -/

/-- Rounded to the container's width, full scale kept. (DESIGN CHOICE: log entry 129) -/
def quantise (wide : Bool) (s : Sample) : Sample :=
  let w := if wide then 16 else 12
  let q (v : Int) : Int := clampInt ((v + 2 ^ (23 - w)) / 2 ^ (24 - w)) (-(2 ^ (w - 1))) (2 ^ (w - 1) - 1)
  (q s.1, q s.2)

/-- The samples a head is sent: zero under loopback. -/
def sentSamples (d : Dev) (p n : Nat) : List Sample :=
  if looped d p then List.replicate n (0, 0)
  else (reduceCrest (pulseOf d p) ((composite d p n).map fun s => ⟨s, averagePower d p d.ns⟩)).out.map fun c => quantise (nbit (bpWidth d.band p) 0) c.x

/-- The samples that the port's channeliser takes from its own composite, attenuated by att dB. Each is received at the antenna instant at
which it would have been sent (txInstant). (DESIGN CHOICE: log entry 129) -/
def loopedSamples (d : Dev) (p : Nat) (l : List Sample) : List Sample :=
  let g := ampOf (-(4 * d.fld (TX_LOOPn_att p) : Nat))
  l.map fun s => (s.1 * g / 2 ^ 24, s.2 * g / 2 ^ 24)

end Sys2Proof.Machine
end

