-- ==== Sys2Proof/Machine/Transmit.lean ====
section
/-! DEFINITION. The commands of the transmit chain (07_transmit.md R182 to R200). -/

namespace Sys2Proof.Machine

/-- The request of a transmit context's task. -/
def reqOfTask (d : Dev) (t : Task) : TxReq := txReqOf d.ns t.d

/-- A frame that was queued while its node's sends were held carries no counter yet. -/
@[reducible] def noCounter : Nat := 0xFFFFFFFF

/-- Under nonce_mode 1 a frame to a node is sealed with the ASN of its cell as its context enters service (R224, R272, R363); its
counter stays. A frame queued while its node's sends were held takes its counter here; while they still are, or without its key, it is not
sent: COUNTER. A key that cannot be obtained leaves an earlier sealing. The cause, 0 for none. (DEDUCED: log entry 45) -/
def sealForCell (f : Fuses) (d : Dev) (i caddy : Nat) : Nat × Dev :=
  match (attemptOf d i).bind fun a => (a.entry.bind fun k => (qEntry d k).map fun q => (k, q)).map fun q => (a, q.1, q.2) with
  | none => (0, d)
  | some (a, qi, q) =>
    let fresh := q.txFc == noCounter
    if a.kind ≠ 0 ∨ 0x40000 ≤ a.target ∨ q.plain = [] ∨ (topNonceMode d.topo a.pan ≠ 1 ∧ !fresh) then (0, d)
    else if fresh && counterHeld d q.nix q.key then (csCOUNTER, noteHold d q.nix q.key)
    else
      let (r, k, d1) := obtainKey f d caddy q.key q.nix a.pan
      if r ≠ scOK then (if fresh then csCOUNTER else 0, d1)
      else
        let c := if fresh then nodeTxFc d1 q.nix q.key else q.txFc
        let d2 := if fresh then setQE (setEntryField d1 0 q.nix (0x28 + 4 * q.key) 4 (c + 1)) qi { q with txFc := c } else d1
        (0, bufSet d2 q.buf (secureFrame d2 a.pan k (ownExtBe d2) q.plain (d2.fld (SEC_PANp_CFG_tx_level a.pan)) c
          (nodeKeyIndex d2 q.nix q.key) a.asn))

/-- A transmit context has entered service (R182, R184 to R187, R195 to R197): its request is checked and its burst admitted, or refused with the
lowest cause; the copies of a Whistle train are admitted or refused one by one. -/
def txRequest (f : Fuses) (d : Dev) (i : Nat) : Dev :=
  match d.task i with
  | none => d
  | some t =>
    if t.d.kind ≠ 1 ∨ (taskEngine t).isNone ∨ !(taskBursts d i).isEmpty then d
    else
      let r := reqOfTask d t
      if r.kind = 3 then
        if txRangeBad d r then txFinish (countCause d (lowest (txCauses d r))) i r (lowest (txCauses d r)) 0 else placeTrain d i r
      else
        let (c, d1) := sealForCell f d i ((taskEngine t).getD 0 / 16)
        let b := burstOf d1 i r r.t0
        if c ≠ 0 ∧ refusal d1 b = 0 then burstLost d1 b c else placeBurst d1 b

def execTxRequest (task : Nat) (s : State) : Out := s.onDevF fun f d => txRequest f d task

/-- A transmit context has not entered service by t0 − 30 µs (R185): its burst is refused with the lowest cause that applies (R187). A train
whose later copies can still be sent goes on waiting (R197). -/
def txLate (d : Dev) (i : Nat) : Dev :=
  match d.task i with
  | none => d
  | some t =>
    let r := reqOfTask d t
    if t.d.kind ≠ 1 ∨ (taskEngine t).isSome ∨ (r.kind = 3 ∧ d.ns + 30000 ≤ r.t0 + r.copies * 11250000) then d
    else
      let c := lowest (csLATE :: txCauses d r ++ if overDuty d (burstOf d i r r.t0) then [csDUTY] else [])
      txFinish (countCause d c) i r c 0

def execTxLate (task : Nat) (s : State) : Out := s.onDev fun d => txLate d task

/-- The digital scaling of a burst as it goes on air (R138), at most 0 in 0.25 dB, what is counted, and whether the floor exceeds p_reg. -/
def scaleOf (d : Dev) (b : Burst) : Int × Bool × Bool × Bool :=
  let p := b.req.port
  if topRole d.topo p = 3 then (0, false, false, false)
  else
    let pc := predictedOf d p (d.head p).txCode
    let s := min 0 (b.pEff - pc)
    let floor := max (pc - 160) (dscTxPmin d p)
    if pc + s < floor then (min 0 (floor - pc), decide (pc < b.pEff), true, decide (b.pReg < floor))
    else (s, decide (pc < b.pEff), false, false)

/-- A burst on air begins an on-air interval of its head or joins the one in progress (R137). -/
def onAirFrom (d : Dev) (b : Burst) : Dev :=
  let h := d.head b.req.port
  d.setHead b.req.port (if b.t0 ≤ h.onTo ∧ h.onFrom ≤ b.t0 then { h with onTo := max h.onTo b.t1 } else { h with onFrom := b.t0, onTo := b.t1 })

/-- A burst or Whistle copy begins at the antenna (R137, R138, R190). -/
def burstStart (d : Dev) (i : Nat) : Dev :=
  match startingBurst d i with
  | none => d
  | some (key, b) =>
    let (s, limited, floored, refuse) := scaleOf d b
    if refuse then burstLost d b csREG
    else
      let d0 := if limited then d.inc HC_PWR_LIMITED_limited else d
      let d1 := if floored then d0.inc HC_PWR_LIMITED_floor else d0
      onAirFrom (setBurst d1 key { b with onAir := true, scale := s }) b

def execBurstStart (task : Nat) (s : State) : Out := s.onDev fun d => burstStart d task

/-- What a burst that has ended leaves: its context completes, normally or with the cause of its early end, or its train records the copy;
a burst whose context ended before it is only gone (R187, R192, R196). -/
def burstDone (d : Dev) (key : Nat) (b : Burst) : Dev :=
  if key % 131072 ≠ b.task then delBurst d key
  else if b.req.kind = 3 then trainOver (noteTrain (delBurst d key) b.task true b.cut) b.task
  else txFinish d key b.req b.cut (b.t1 - b.ramp.ns)

/-- A burst or Whistle copy ends its falling ramp (R187, R190, R194, R196): counted, unless it ended early, with what crest-factor reduction did to the
composite samples since the last such report; its context completes or its train goes on; the PA and the switch follow (R140). -/
def burstEnd (d : Dev) (i : Nat) (wave : List (Int × Int × Nat)) : Dev :=
  match endingBurst d i with
  | none => d
  | some (key, b) =>
    let r := reduceCrest (pulseOf d b.req.port) (wave.map fun x => ⟨(x.1, x.2.1), x.2.2⟩)
    let d0 := if b.cut = 0 then d.setReg TX_CNT_SENT (d.reg TX_CNT_SENT + 1) else d
    let d1 := (d0.addFld TX_CNT_CFR_cancelled r.cancelled).addFld TX_CNT_CFR_clipped r.clipped
    let d2 := if b.req.kind = 3 then d1.inc TX_CNT_WHISTLE_sent else d1
    offsDue (burstDone d2 key b) b.req.port

def execBurstEnd (task : Nat) (wave : List (Int × Int × Nat)) (s : State) : Out := s.onDev fun d => burstEnd d task wave

/-- TX_CTRL.cnt_clear. -/
def txCntClear (d : Dev) : Dev := d.clearRegs [TX_CNT_SENT, TX_CNT_SKIP, TX_CNT_CFR, TX_CNT_WHISTLE]

def execTxCntClear (s : State) : Out := s.onDev txCntClear

/-- A write to TX_LOOPn (R199): ignored unless the port has role 2; att applies at once, a change of enable at the next hyperframe
boundary with no burst on air. -/
def txLoopWrite (d : Dev) (p : Nat) (w : Word) : Dev :=
  if topRole d.topo p ≠ 2 then d
  else
    let att := getBits w 15 8
    let d1 := if att ≤ 60 then d.setFld (TX_LOOPn_att p) att else d
    let next := setBits (d1.reg (TX_LOOPn p)) 0 0 (getBits w 0 0)
    d1.setPort p { d1.port p with loopPending := if next = d1.reg (TX_LOOPn p) then none else some next }

end Sys2Proof.Machine
end

