-- ==== Sys2Proof/Machine/Handlers.lean ====
section
/-! DEFINITION. What the rules require of the handlers of the engine image (08_tsch.md R221 to R234, 10_forwarding.md R262, R270 to R272,
13_node_campaigns.md R378, R383), forwarding's action on their results (Table FWD-1), and the end of a handler (03_caddies_and_dispatch.md R66, R87). -/

namespace Sys2Proof.Machine

/-! ### Fields of a frame record -/

def Rec.pan (r : Rec) : Nat := field r.bytes 0x15 1
def Rec.asn (r : Rec) : Nat := field r.bytes 0x10 5
def Rec.mode (r : Rec) : Nat := field r.bytes 2 1
def Rec.port (r : Rec) : Nat := field r.bytes 4 1
def Rec.channel (r : Rec) : Nat := field r.bytes 5 1
def Rec.exp (r : Rec) : Nat := field r.bytes 0x16 2
def Rec.slotOfs (r : Rec) : Int := toSigned 32 (field r.bytes 0x18 4)
/-- Ack expected (class 0). -/
def Rec.class0 (r : Rec) : Bool := nbit (field r.bytes 1 1) 3

/-- A source short address of 0xFE00 to 0xFFFF (R231). -/
def reservedSrc (h : Sys2Proof.MacHdr) : Bool := h.srcMode == 2 && decide (0xFE00 ≤ h.src % 65536)

def noCounterSeen (d : Dev) : Dev := d.inc TS_CNT_FC_ERR_no_counter

/-! ### Enhanced Acks (R225 to R227) -/

/-- Preamble and SFD of a mode, ns (Table RECV-1): preamble_len and 16 symbols, 6 symbols of 120 µs, or 10 of 16 µs. -/
def shrNs (d : Dev) (mode : Nat) : Nat :=
  match phyFind d.phy mode with
  | none => 0
  | some k =>
    if phyFamily d.phy k ≤ 1 then (phyPreamble d.phy k + 16) * [60000, 30000, 20000, 15000].getD (phyRate d.phy k) 0 / 3
    else if phyFamily d.phy k = 2 then 720000 else 160000

/-- Handle of the slotframe of a record's expectation, its cell as it stood at its evaluation (R209); 0 without one. -/
def recFrame (d : Dev) (r : Rec) : Nat := ((Tab.find d.ts.exps r.exp).map (·.handle)).getD 0

/-- The time correction of R227, µs. -/
def correctionOf (d : Dev) (r : Rec) : Int :=
  let x : Int := 1000 * tplUs d r.pan (recFrame d r) 8 + shrNs d r.mode - r.slotOfs
  clampInt ((x + 500) / 1000) (-2048) 2047

/-- An Enhanced Ack before its security (Table TSCH-10). (DESIGN CHOICE: log entry 46) -/
def ackFrame (d : Dev) (r : Rec) : List Byte :=
  frameCtl 2 false false r.h.seq.isNone true r.h.srcMode 0 ++ (r.h.seq.map fun n => le 1 n).getD [] ++
    (if r.h.srcMode = 0 then [] else le 2 (d.panId r.pan)) ++ (le 8 r.h.src).take (addrLen r.h.srcMode) ++
    le 2 (0x1E * 128 + 2) ++ le 2 (ofSigned 12 (correctionOf d r))

/-- Submit the burst of an ack as a child of the handler's task, for a node or an unknown source. (DESIGN CHOICE: log entry 44) -/
def ackBurst (d : Dev) (r : Rec) (n caddy : Nat) (pReq : Int) (fr : List Byte) : Dev :=
  let t0 := Tab.getD d.rx.ends r.handle 0 + 1000 * tplUs d r.pan (recFrame d r) 0x0E
  if isQuiet d r.port r.channel t0 (t0 + 1) then skip d csQUIET r.port r.pan t0 r.asn noCell n
  else match bufPut d fr, (d.caddy caddy).logical with
    | some (h, d1), some k =>
      let (g0, g1) := txArgs pReq 1 r.mode r.channel r.port h noCell t0
      match hwSubmit d1 (0x8000 + 256 * k) 256 1 0 noFlow 0 g0 g1 0 with
      | some (i, d2) => setAttempts d2 (⟨some i, 1, noCell, n, r.pan, r.asn, r.port, r.channel, none, 0, none, t0, some h, recFrame d r⟩ :: d2.ts.attempts)
      | none => d.inc TS_CNT_ACK_ERR_refused
    | _, _ => d.inc TS_CNT_ACK_ERR_refused

/-- Ack a secured frame of a node under its key j, once a slot (R222, R224, R225). -/
def ackNode (f : Fuses) (d : Dev) (r : Rec) (n j caddy : Nat) (duplicate : Bool) : Dev :=
  if Tab.find d.ts.acked n = some r.asn then (if duplicate then d.inc TS_CNT_EXP_ack_same_slot else d)
  else if counterHeld d n j then noteHold d n j
  else
    let (x, k, d1) := obtainKey f d caddy j n (nodePan d n)
    if x ≠ scOK then d1
    else
      let c := nodeTxFc d1 n j
      let d2 := setEntryField d1 0 n (0x28 + 4 * j) 4 (c + 1)
      let d3 := { d2 with ts := { d2.ts with acked := Tab.put d2.ts.acked n r.asn } }
      ackBurst d3 r n caddy (nodePReq d3 n) (secureFrame d3 (nodePan d3 n) k (ownExtBe d3) (ackFrame d3 r) r.h.level c r.h.keyIndex r.asn)

/-- Ack an unsecured frame of an unknown source (R223); the power of such an ack is open. (DESIGN CHOICE: log entry 46) -/
def ackUnknown (d : Dev) (r : Rec) (caddy : Nat) : Dev :=
  let (q, d1) := d.draw
  ackBurst d1 r 0xFFFFF caddy (toSigned 10 (q % 1024)) (ackFrame d1 r)

/-! ### Handler 0x01: judgement of a secured frame (R221) -/

/-- MAC header of a received frame, and its payload without FCS. -/
def recParts (d : Dev) (r : Rec) : List Byte × List Byte :=
  let b := bufGet d r.buf
  let body := b.take (b.length - recFcs d r.handle)
  (body.take r.h.hdrLen, body.drop r.h.hdrLen)

/-- Payload IEs of a record, and the rest of its payload. -/
def recIes (d : Dev) (r : Rec) : List (Nat × List Byte) × List Byte := iesOf (recParts d r).1 (recParts d r).2

/-- A node report (R378): written to the node's entry, or ignored and counted. -/
def nodeReport (d : Dev) (n : Nat) (b : List Byte) : Dev :=
  let st := field b 2 1
  let rank := field b 8 2
  let k : Option Nat := (d.camp (field b 1 1)).bind fun c => if cdImage c.desc = field b 4 4 then some c.k else none
  if nodeCmpSlot d n ≠ field b 1 1 ∨ k.isNone ∨ !within st 2 5 ∨ k.getD 0 < rank ∨ (st = 2 ∧ 3 ≤ nodeCmpState d n) then
    d.inc CMP_CNT_ERR_stale
  else setEntryField (setEntryField d 0 n 0x36 2 rank) 0 n 0x38 1 st

/-- Node reports of an accepted frame. -/
def nodeReports (d : Dev) (r : Rec) (n : Nat) : Dev :=
  ((recIes d r).1.filter fun x => x.1 == 2 && field x.2 0 3 == d.fld CMP_OUI_oui && field x.2 3 1 == 2).foldl
    (fun a x => nodeReport a n (x.2.drop 3)) d

/-- Sectors in which a frame was heard, ascending. -/
def recSectors (d : Dev) (r : Rec) : List Nat :=
  let ps := ((slice r.bytes 0x28 4).map (·.toNat)).filter fun p => decide (p < 64) && topUsed d.topo p
  (List.range 16).filter fun s => ps.any fun p => topSector d.topo p == s

/-- Acceptance under key j (Table TSCH-9, Table TABLE-3, R248, R274). -/
def acceptFrame (d : Dev) (r : Rec) (n j c : Nat) : Dev :=
  let old := nodeSector d n
  let d1 := setEntryField (setNodeCtrl d n (26 - j) (26 - j) 1) 0 n (0x20 + 4 * j) 4 c
  let d2 := setEntryAt (setEntryField d1 0 n 0x30 4 d.secs) 0 n 0x34 (slice r.bytes 0x20 1)
  let d3 := setEntryAt d2 0 n 0x1E (slice r.bytes 0x1C 2)
  let d4 := if topUsed d3.topo r.port then setEntryField d3 0 n 0x1B 1 (topSector d3.topo r.port) else d3
  (recSectors d4 r).foldl (fun a s => (hearMerge a s n (slice r.bytes 0x28 4) (slice r.bytes 0x2C 8) (field r.bytes 0x20 1)).2)
    (sectorMoved d4 n old)

/-- In recovery node mode the time source's acks correct TB0 (R228): its correction joins the offsets of R234. (DESIGN CHOICE: log entry 47) -/
def ackCorrection (d : Dev) (n : Nat) (c : Option Int) : Dev :=
  let k := d.fld TS_RECOV_source
  match c with
  | none => d
  | some x =>
    if d.bit TS_RECOV_active && topPeerUsed d.topo k && topPeerAddr d.topo k == nodeExt d n then
      d.setPeer k { d.peer k with offsets := ((1000 * x) :: (d.peer k).offsets).take 8 }
    else d

/-- A valid Enhanced Ack inside the class 0 window completes the frame it answers; it carries the frame's sequence number, when present (R228). -/
def ackArrived (d : Dev) (r : Rec) (n : Nat) : Dev :=
  if !r.class0 then d
  else match d.ts.attempts.find? fun a => a.exp == some r.exp && a.target == n && a.task.isNone with
    | none => d
    | some a => match a.entry with
      | none => d
      | some i =>
        if (frameSeq (entryFrame d i)).all fun q => r.h.seq == some q then frameAcked (ackCorrection d n r.h.correction) i else d

/-- Handler 0x01: the result and the state. -/
def judge (f : Fuses) (d : Dev) (r : Rec) (n caddy : Nat) : Nat × Dev :=
  let p := nodePan d n
  if reservedSrc r.h || r.h.level == 0 then (0, noCounterSeen d)
  else
    let (x, j) := parseHdr d n p r.h
    let c := r.h.counter.getD 0
    if x = scNO_COUNTER then (0, countFrame (noCounterSeen d) x)
    else if x ≠ scOK then (0, countFrame d x)
    else if c = 0xFFFFFFFF ∨ (nodeSeen d n j ∧ c < nodeRxFc d n j) then (0, d.inc TS_CNT_FC_replays)
    else
      let (y, d1) := verifyRecord f d caddy r.handle n p r.h
      let isAck := r.h.ftype == 2
      if y ≠ scOK then (0, countFrame d1 y)
      else if nodeSeen d n j ∧ c = nodeRxFc d n j then
        let d2 := d1.inc TS_CNT_FC_duplicates
        (0, if r.h.ackReq && !isAck then ackNode f d2 r n j caddy true else d2)
      else
        let d2 := nodeReports (acceptFrame d1 r n j c) r n
        if isAck then (0, ackArrived d2 r n)
        else
          let d3 := if r.h.ackReq then ackNode f d2 r n j caddy false else d2
          (if r.h.ftype = 1 ∧ (recIes d3 r).2 ≠ [] then 0x10 else 0, d3)

/-! ### Handlers 0x02 and 0x03 -/

/-- Handler 0x02: a frame of an unknown source (R223). -/
def unknownSource (d : Dev) (r : Rec) (caddy : Nat) : Nat × Dev :=
  if reservedSrc r.h then (0, noCounterSeen d)
  else if r.h.level ≠ 0 then (0, d)
  else (0x28, if r.h.ackReq then ackUnknown d r caddy else d)

/-- A beacon was detected inside the window of an expected one (R232). -/
def OpenBeacon.hears (o : OpenBeacon) (channel : Nat) (starts : List Nat) : OpenBeacon :=
  { o with heard := o.heard || (o.channel == channel && starts.any fun t => decide (o.from_ ≤ t ∧ t ≤ o.until_)) }

/-- Handler 0x03: a beacon of another coordinator (R231 to R234). (DESIGN CHOICE: log entry 47) -/
def foreignBeacon (d : Dev) (r : Rec) : Dev :=
  if reservedSrc r.h then noCounterSeen d
  else match (List.range 16).find? fun k => topPeerUsed d.topo k && r.h.srcMode == 3 && topPeerAddr d.topo k == le 8 r.h.src with
  | none => d.inc TS_CNT_EB_foreign
  | some k =>
    let x := d.peer k
    let len : Int := panSlotNs d r.pan
    let raw : Int := r.slotOfs - 1000 * r.h.txOffset - shrNs d r.mode
    let ofs := if len = 0 then raw else (raw + len / 2) % len - len / 2
    let heard := Tab.getD d.rx.starts r.handle []
    let onHead (o : OpenBeacon) : Bool := topServes d.topo r.port o.pan
    let open_ := x.open_.map fun o => if onHead o then o.hears r.channel heard else o
    let x1 := { x with state := 1, misses := 0, joinMetric := r.h.joinMetric, offsets := (ofs :: x.offsets).take 8, bestPort := r.port,
                       holding := false, open_ := open_ }
    let d1 := d.setPeer k x1
    let d2 := if x.state = 2 then raise d1 115 k 0 else d1
    let mean := x1.offsets.sum / (x1.offsets.length : Int)
    let d3 := if 100000 < mean ∨ mean < -100000 then raise d2 116 k 0 else d2
    if !d3.bit TS_RECOV_active then d3
    else if d3.bit TS_RECOV_none then
      let d4 := (d3.setFld TS_RECOV_source k).setBit TS_RECOV_none false
      { d4 with ts := { d4.ts with srcHeard := true } }
    else if d3.fld TS_RECOV_source = k then { d3 with ts := { d3.ts with srcHeard := true } } else d3

/-! ### Handlers 0x06 and 0x07: downlink (R270 to R272) -/

/-- The route of R270, first hop first: the walk up the parent fields; fuel bounds the steps. None where it fails. -/
def routeWalk (d : Dev) (p : Nat) : Nat → Nat → List Nat → Option (List Nat)
  | fuel, n, path =>
    if n = 0xFFFFF then some path
    else if path.contains n || !nodeValid d n || nodePan d n != p then none
    else match fuel with
      | 0 => none
      | m + 1 => routeWalk d p m (nodeParent d n) (n :: path)

/-- The compressed packet for a route (R271), and its length before: direct, or in an outer header with the route, whose open fields `x` gives. -/
def compressed (d : Dev) (p x : Nat) (route : List Nat) (packet : List Byte) : List Byte × Nat :=
  let addr (n : Nat) : List Byte := panPrefix d p ++ flipUl (nodeExtBe d n)
  let b := if route.length ≤ 1 then packet else srcRoute (ownAddr d p) x (route.map addr) packet
  (toLowpan (panPrefix d p) (ownHeader d p 1 true false 3 (nodeExt d (route.headD 0))) b, b.length)

/-- Largest payload of a frame to a node (R271): max_psdu less MAC header, security overhead and FCS. -/
def payloadRoom (d : Dev) (p n : Nat) : Nat :=
  psduRoom d (nodeMode d n) - ((ownHeader d p 1 true false 3 (nodeExt d n)).length + 6 + micLen (d.fld (SEC_PANp_CFG_tx_level p)))

/-- Later fragments of a datagram; fuel bounds them. -/
def fragsFrom (size tag room : Nat) : Nat → Nat → List Byte → List (List Byte)
  | 0, _, _ => []
  | n + 1, off, b =>
    if b = [] then []
    else
      let k := (room - 5) / 8 * 8
      (be 2 (0xE000 + size % 2048) ++ be 2 tag ++ le 1 (off / 8) ++ b.take k) :: fragsFrom size tag room n (off + k) (b.drop k)

/-- The payloads of a compressed packet of uncompressed length `size`: itself, or RFC 4944 fragments under a tag; none when not even a
fragment fits. Offsets count uncompressed octets. (DESIGN CHOICE: log entry 54) -/
def fragment (c : List Byte) (size room tag : Nat) : Option (List (List Byte)) :=
  if c.length ≤ room then some [c]
  else if room < 13 then none
  else
    let grow := size - c.length
    let first := (room - 4 + grow) / 8 * 8 - grow
    if first = 0 then none
    else some ((be 2 (0xC000 + size % 2048) ++ be 2 tag ++ c.take first) :: fragsFrom size tag room (c.length + 1) (first + grow) (c.drop first))

/-- Payloads as handed to handler 0x07 in the buffer, each after its length. (DESIGN CHOICE: log entry 55) -/
def packParts (l : List (List Byte)) : List Byte := l.flatMap fun b => le 2 b.length ++ b
def unpackParts : Nat → List Byte → List (List Byte)
  | 0, _ => []
  | n + 1, b => if b = [] then [] else slice b 2 (field b 0 2) :: unpackParts n (b.drop (2 + field b 0 2))

/-- Secure one payload for a first hop and make its queue entry (R224, R272, Table FWD-3); none when a key or room is missing. While sends
under the key are held the frame is queued without a counter. `k` is its number, `m` the count of payloads. (DESIGN CHOICE: log entry 55) -/
def downFrame (f : Fuses) (d : Dev) (caddy n cls m k : Nat) (yellow : Bool) (payload : List Byte) : Option QEntry × Dev :=
  let p := nodePan d n
  let j := nodeTxKey d n
  let held := counterHeld d n j
  let c := if held then noCounter else nodeTxFc d n j
  let plain := ownHeader d p 1 true false 3 (nodeExt d n) ++ payload
  let d0 := if held then d else setEntryField d 0 n (0x28 + 4 * j) 4 (c + 1)
  match bufPut d0 plain with
  | none => (none, d)
  | some (h, d1) =>
    let (r, d2) := if held then (scOK, bufSet d1 h (withAux plain (d1.fld (SEC_PANp_CFG_tx_level p)) c (nodeKeyIndex d1 n j)).1)
      else secureFor f d1 caddy h j n p c
    if r ≠ scOK then (none, bufFree d2 h)
    else
      let len := plain.length + 6 + micLen (d2.fld (SEC_PANp_CFG_tx_level p)) + fcsLen d2 (nodeMode d2 n)
      let frag := decide (1 < m)
      (some ⟨false, cls, yellow, frag, frag && k + 1 == m, n, h, len, nodeSector d2 n, 0, c, j, p,
        if frag then unbe (slice payload 2 2) else 0, d2.ns, none, 0, none, false,
        if held || topNonceMode d2.topo p == 1 then plain else [], 0⟩, d2)

/-- Secure every payload in order: the entries, none when one fails. -/
def downFrames (f : Fuses) (caddy n cls m : Nat) (yellow : Bool) : Nat → List (List Byte) → Dev → Option (List QEntry) × Dev
  | _, [], d => (some [], d)
  | k, b :: bs, d =>
    match downFrame f d caddy n cls m k yellow b with
    | (none, d1) => (none, d1)
    | (some e, d1) =>
      match downFrames f caddy n cls m yellow (k + 1) bs d1 with
      | (none, d2) => (none, bufFree d2 e.buf)
      | (some l, d2) => (some (e :: l), d2)

/-- Secure the payloads in a buffer in the first hop's flow: result 0x11 with the frames, or 0x01 ERROR. -/
def secureParts (f : Fuses) (d : Dev) (t : Task) (caddy n : Nat) (parts : List (List Byte)) : Nat × List QEntry × Dev :=
  match downFrames f caddy n (t.d.arg1 % 8) parts.length (nbit t.d.arg1 3) 0 parts d with
  | (some l, d1) => (0x11, l, d1)
  | (none, d1) => (0x01, [], d1)

/-- Handler 0x06: route, compress, fragment; secure, or hand on to the first hop's flow. (DESIGN CHOICE: log entry 55) -/
def routeDown (f : Fuses) (d : Dev) (t : Task) (caddy : Nat) : Nat × List QEntry × Dev :=
  let dest := t.d.flow
  let p := nodePan d dest
  let buf := t.d.arg0 % 2 ^ 32
  match routeWalk d p (d.fld FWD_CFG_max_hops) dest [] with
  | none => (0x25, [], d)
  | some route =>
    let hop := route.headD dest
    let (x, d0) := d.draw
    let (q, d1) := d0.draw
    let (c, size) := compressed d p x route (bufGet d buf)
    match fragment c size (payloadRoom d p hop) (q % 65536) with
    | none => (0x01, [], d1)
    | some parts =>
      let d2 := { d1 with fwd := { d1.fwd with lost := d1.fwd.lost.filter (· != hop * 65536 + q % 65536) } }
      if hop = dest then secureParts f d2 t caddy hop parts
      else match (d2.caddy caddy).logical.bind fun k => hwSubmit (bufSet d2 buf (packParts parts)) (0x8000 + 256 * k) 256 2 t.d.source hop 7 t.d.arg0 t.d.arg1 0 with
        | some (_, d3) => (0x12, [], d3)
        | none => (0x01, [], d2)

/-- What a handler of the image does by the rules: its result, the frames it secured, the state. A handler of which no rule speaks returns
with a0 as at entry. (DESIGN CHOICE: log entry 15) -/
def handlerRun (f : Fuses) (d : Dev) (t : Task) (caddy : Nat) : Nat × List QEntry × Dev :=
  let pass (x : Nat × Dev) : Nat × List QEntry × Dev := (x.1, [], x.2)
  if t.d.kind ≠ 2 then (0, [], d)
  else match recOf d t with
    | some r =>
      if t.d.handler = 1 then pass (judge f d r t.d.flow caddy)
      else if t.d.handler = 2 then pass (unknownSource d r caddy)
      else if t.d.handler = 3 then (0, [], foreignBeacon d r)
      else (0, [], d)
    | none =>
      if t.d.source = 1 ∧ t.d.handler = 6 then routeDown f d t caddy
      else if t.d.handler = 7 ∧ t.d.source ≤ 1 then
        let b := bufGet d (t.d.arg0 % 2 ^ 32)
        secureParts f d t caddy t.d.flow (unpackParts b.length b)
      else (0, [], d)

/-! ### Forwarding's action (R262) -/

/-- The frame of a handler that secured one itself: the buffer as it stands, under the last counter taken. -/
def ownFrame (d : Dev) (t : Task) : QEntry :=
  let n := t.d.flow
  let j := nodeTxKey d n
  let h := t.d.arg0 % 2 ^ 32
  ⟨false, t.d.arg1 % 8, nbit t.d.arg1 3, false, false, n, h, (bufGet d h).length + fcsLen d (nodeMode d n), nodeSector d n, 0,
    nodeTxFc d n j - 1, j, nodePan d n, 0, d.ns, none, 0, none, false, [], 0⟩

/-- A downlink frame is offered to its queue; FWD_CNT_DOWN counts it when admitted (R273, R292). -/
def enqueueDown (d : Dev) (e : QEntry) : Dev :=
  let (d1, ok) := enqueue d e
  if ok then d1.setReg FWD_CNT_DOWN (d1.reg FWD_CNT_DOWN + 1) else d1

/-- Forwarding acts on a result (Table FWD-1); `frames` are those the handler secured. (DEDUCED: log entry 56) -/
def forwardResult (d : Dev) (t : Task) (result : Nat) (frames : List QEntry) : Dev :=
  let nix := if t.d.flow < 0x40000 then t.d.flow else 0xFFFFF
  let buf := t.d.arg0 % 2 ^ 32
  if result = 0 then freeArg d t
  else if result = 0x10 then
    match recOf d t with
    | some r =>
      let (hdr, pay) := recParts d r
      upForward (dropRec d r) nix (if nix = 0xFFFFF then r.pan else nodePan d nix) (topSector d.topo r.port) r.buf hdr (iesOf hdr pay).2
    | none =>
      let b := bufGet d buf
      let hdr := b.take (macHdrLen b)
      upForward d nix (nodePan d nix) (nodeSector d nix) buf hdr (iesOf hdr (b.drop (macHdrLen b))).2
  else if result = 0x11 then
    if frames = [] then enqueueDown d (ownFrame d t) else frames.foldl enqueueDown (bufFree d buf)
  else if result = 0x12 then d
  else if within result 0x21 0x2B then
    match recOf d t with
    | some r =>
      if excDest d (result - 0x20) = 8 then
        (if wqCredit d (d.fld FWD_EXC_WQ_wq) then exception d (result - 0x20) nix r.pan false 0 r.handle
         else (freeRec d r).inc FWD_CNT_DROP_frag_drop)
      else exception (dropRec d r) (result - 0x20) nix r.pan false 0 r.buf
    | none => exception d (result - 0x20) nix (nodePan d nix) (t.d.source == 1) (t.d.arg1 % 8) buf
  else (freeArg d t).inc FWD_CNT_DROP_stale

/-- The task in service on a Protocol Engine ends with a handler's result (R66, R87), and forwarding or the campaign unit acts on it.
A detection that waits may take its identifier (R160). -/
def handlerEnd (d : Dev) (t : Task) (result : Nat) (frames : List QEntry) : Dev :=
  let r := handlerResult result
  let d1 := openLate (completeTask d t.d.id r)
  if t.d.kind = 2 ∧ t.d.source ≤ 1 then forwardResult d1 t r frames
  else if t.d.kind = 3 ∧ t.d.source = 5 then blockBuilt d1 t.d.id (t.d.arg1 % 2 ^ 32) (nbits t.d.arg0 39 32)
  else d1

/-- A handler returns through ra. `ret` is a0 of a handler that did its work through its ports and registers; without it the handler of
the image has done what the rules require of it. (DESIGN CHOICE: log entry 15) -/
def taskComplete (i : Nat) (ret : Option Nat) (f : Fuses) (d : Dev) : Dev :=
  match d.task i with
  | none => d
  | some t => match taskEngine t with
    | none => d
    | some e =>
      if e % 16 < 8 then d
      else match ret with
        | some r => handlerEnd d t r []
        | none =>
          let (r, l, d1) := handlerRun f d t (e / 16)
          handlerEnd d1 t r l

def execTaskComplete (task : Nat) (ret : Option Nat) (s : State) : Out := s.onDevF (taskComplete task ret)

/-- A handler writes DSP_SLOT_DONE: its task completes at once. -/
def slotDone (d : Dev) (e result : Nat) : Dev :=
  if e % 16 < 8 then d
  else match ((d.engine e).tasks.head?).bind d.task with
    | none => d
    | some t => handlerEnd d t result []

def execSlotDone (engine result : Nat) (s : State) : Out := s.onDev fun d => slotDone d engine result

end Sys2Proof.Machine
end

