-- ==== Sys2Proof/Machine/HostIf.lean ====
section
/-! DEFINITION. The host interface: reset, access errors, BAR2, MSI-X, the Host Command Queue, the frame rings and the management channel
(17_host_interface.md R461 to R482). -/

namespace Sys2Proof.Machine

/-! ### The endpoint (R461 to R466) -/

/-- The configuration that the endpoint presents (Table HOST-1); a capability not named in it is absent. (DESIGN CHOICE: log entry 106) -/
def pcieConfig (f : Fuses) (d : Dev) : PcieConfig :=
  let ids := f.subsys.getD (0x1F3C, 0x7260)
  { vendor := 0x1F3C, device := 0x7260, revision := f.rev / 256 % 256, classCode := 0x028000, subVendor := ids.1, subDevice := ids.2,
    functions := 1, widths := [4, 2, 1], speeds := [16000, 8000, 5000, 2500], width := d.fld HIF_STATUS_width, speed := d.fld HIF_STATUS_speed,
    bars := [⟨0, 2 ^ 24, false⟩, ⟨2, 2 ^ 28, true⟩], interruptPin := 0, msixVectors := 32, msixTable := 0xF08000, msixPba := 0xF09000,
    maxPayload := 512, tagBits := 10, aer := true, aspmL1 := true, aspmL0s := false, functionReset := true }

/-- Registers that a reset of the host interface block returns to their reset values: the queue, the rings, errors, link, MSI-X; not the
management channel, which serves where no host is fitted, nor the ticks. -/
def hostResetReg (a : Nat) : Bool :=
  (within a 0xF00000 0xF0007F || within a 0xF01000 0xF7FFFF) && a != HIF_STATUS

/-- PERST_N, FLR, hot reset: the PCI Express domain restarts; queues and rings DISABLED; started commands run on without a completion, waiting ones are discarded. (DEDUCED: log entry 98) (DEDUCED: log entry 103) (DESIGN CHOICE: log entry 114) -/
def hostReset (d : Dev) : Dev :=
  let h := d.hif
  { d with
    isolated := d.isolated.filter (· != 200)
    regs := d.regs.filter fun e => !hostResetReg e.1
    shadows := d.shadows.filter fun e => e.1 / 2 ^ 32 != Master.key .host
    held := d.held.filter fun e => e.1 / 2 ^ 32 != Master.key .host
    hif := { h with waiting := [], running := [], reserved := 0, rings := [], intervals := [], crossing := h.crossing.filter fun x => x.m != .host,
                    orphaned := h.orphaned ++ h.running } }

def execHostReset (s : State) : Out := s.onDev hostReset

/-- Note an access error of BAR0 or BAR2 at an offset (HIF_ERR_LAST). (DEDUCED: log entry 98) -/
def accessErr (d : Dev) (f : Fld) (bar2 : Bool) (off : Nat) : Dev :=
  ((d.inc f).setBit HIF_ERR_LAST_bar bar2).setFld HIF_ERR_LAST_offset off

/-- A BAR0 access longer than 8 bytes or across an 8-byte boundary: a read ends with Completer Abort, a write is discarded. -/
def bar0Bad (d : Dev) (off : Nat) (read : Bool) : Dev :=
  let d1 := accessErr d HIF_ERR_bar0_bad false off
  if read then d1.emit (.pcieError 1 off) else d1

def execBar0BadAccess (offset : Nat) (read : Bool) (s : State) : Out := s.onHost fun d => bar0Bad d offset read

/-- A BAR2 write is discarded. -/
def execBar2Write (offset : Nat) (s : State) : Out := s.onHost fun d => accessErr d HIF_ERR_bar2_err true offset

/-- The table whose entries hold a byte of Shared Table Memory, and the entry. -/
def tableAt (d : Dev) (a : Nat) : Option (Nat × Nat) :=
  (List.range 9).findSome? fun t =>
    let b := d.tableBank t * 0x100000
    if b ≤ a ∧ a < b + d.tableEntries t * tableEntrySize t then some (t, (a - b) / tableEntrySize t) else none

/-- One byte of BAR2: Shared Table Memory, Packet Buffer Memory in handle order, zero elsewhere (Table HOST-2). (DESIGN CHOICE: log entry 19) (DESIGN CHOICE: log entry 101) -/
def bar2Byte (d : Dev) (a : Nat) : Byte :=
  if a < 0x4000000 then
    match tableAt d a with
    | some (t, i) => (tableBytes d t i).getD (a - entryAddr d t i) 0
    | none => Memory.read 0 d.tbl.mem a
  else if a < 0x5000000 then ((Tab.vals d.pbm.bufs).flatten).getD (a - 0x4000000) 0
  else 0

/-- The region of the Address Table or the Hearing Tables. -/
def keyedRegion (d : Dev) (a : Nat) : Bool := ((tableAt d a).map fun x => x.1 == 1 || x.1 == 2).getD false

/-- A BAR2 read (R23, R465). `changed`: 16 attempts in a row saw a version change. (DEDUCED: log entry 98) -/
def bar2Read (d : Dev) (off len : Nat) (changed : Bool) : Dev :=
  if changed && (keyedRegion d off || keyedRegion d (off + len - 1)) then (accessErr d HIF_ERR_bar2_err true off).emit (.pcieError 1 off)
  else if d.tbl.poison.any fun x => decide (x < off + len ∧ off < x + 8) then (accessErr d HIF_ERR_poisoned true off).emit (.pcieError 2 off)
  else d.emit (.bar2Data off ((List.range len).map fun k => bar2Byte d (off + k)))

def execBar2Read (offset len : Nat) (changed : Bool) (s : State) : Out := s.onHost fun d => bar2Read d offset len changed

/-- An access has waited 64 µs at the crossing of a complex (R24, R25, R466). The host's oldest there
ends with an error. (DEDUCED: log entry 18) -/
def stoppedTimeout (d : Dev) (k : Nat) : Dev :=
  match d.hif.crossing.find? fun x => x.m == .host && x.touches (HIF_CCA_TICK + 4 * k) with
  | none => d
  | some x =>
    let d1 := accessErr { d with hif := { d.hif with crossing := d.hif.crossing.erase x } } HIF_ERR_stopped false x.addr
    if x.read then d1.emit (.pcieError 1 x.addr) else d1

def execStoppedAccessTimeout (cc : Nat) (s : State) : Out := s.onDev fun d => stoppedTimeout d cc

/-! ### MSI-X (R468) -/

/-- A vector is unmasked: its PBA bit sends the message once. -/
def msixUnmask (d : Dev) (v : Nat) : Dev :=
  let d1 := d.setFld ⟨MSIX_TABLE v 3, 0, 0⟩ 0
  if 32 ≤ v ∨ d.fld ⟨MSIX_TABLE v 3, 0, 0⟩ = 0 then d
  else if d.fld ⟨MSIX_PBA, v, v⟩ = 1 then (d1.setFld ⟨MSIX_PBA, v, v⟩ 0).emit (.msix v) else d1

def execMsixUnmask (vector : Nat) (s : State) : Out := s.onHost fun d => msixUnmask d vector

/-- The at-most-once interval of a vector ends: a deferred message is sent and begins the next one. -/
def intervalExpiry (d : Dev) (v : Nat) : Dev :=
  match Tab.find d.hif.intervals v with
  | none => d
  | some late =>
    let d1 := { d with hif := { d.hif with intervals := Tab.del d.hif.intervals v } }
    if late then sendLimited d1 v else d1

def execVectorIntervalExpiry (vector : Nat) (s : State) : Out := s.onDev fun d => intervalExpiry d vector

/-- The link changes (R482). (DESIGN CHOICE: log entry 106) -/
def linkChange (d : Dev) (up : Bool) (width speed : Nat) : Dev :=
  ((d.setBit HIF_STATUS_link_up up).setFld HIF_STATUS_width width).setFld HIF_STATUS_speed speed

def execPcieLinkChange (up : Bool) (width speed : Nat) (s : State) : Out := s.onHost fun d => linkChange d up width speed

/-- HIF_CTRL.cnt_clear. -/
def hifCntClear (d : Dev) : Dev := d.clearRegs ([HIF_ERR, HIF_MGMT_CNT] ++ (List.range 8).map HIF_FRr_CNT)

def execHifCntClear (s : State) : Out := s.onDev hifCntClear

/-! ### The Host Command Queue (R469, R476) -/

@[reducible] def hqDISABLED : Nat := 0
@[reducible] def hqENABLED : Nat := 1
@[reducible] def hqDRAINING : Nat := 2
@[reducible] def hqHALTED : Nat := 3

def hqState (d : Dev) : Nat := d.fld HIF_HCQ_STATUS_state
def hqSize (d : Dev) : Nat := ringSize d HIF_HCQ_CFG_size_log2

/-- Completions written and not consumed, and room for one more beside those reserved. -/
def cqUsed (d : Dev) : Nat := (d.fld HIF_CQ_TAIL_index + hqSize d - d.fld HIF_CQ_HEAD_index) % hqSize d
/-- DEDUCED: log entry 99. -/
def cqRoom (d : Dev) : Bool := decide (cqUsed d + d.hif.reserved + 1 < hqSize d)

/-- HIF_HCQ_TAIL. -/
def doorbell (d : Dev) (tail : Nat) : Dev :=
  if hqState d ≠ hqENABLED ∧ hqState d ≠ hqHALTED then d
  else if hqSize d ≤ tail then d.inc HIF_HCQ_STATUS_bad_doorbell
  else d.setFld HIF_HCQ_TAIL_index tail

def execHcqDoorbell (tail : Nat) (s : State) : Out := s.onHost fun d => doorbell d tail

/-- An entry waits to be fetched. -/
def fetchPossible (d : Dev) : Bool := hqState d == hqENABLED && d.fld HIF_HCQ_HEAD_index != d.fld HIF_HCQ_TAIL_index

/-- Fetch the entry at the head, whose 64 bytes host memory returns; a completion entry is reserved for it. -/
def hcqFetch (d : Dev) (entry : List Byte) : Dev :=
  if !fetchPossible d || !cqRoom d then d
  else
    let k := d.fld HIF_HCQ_HEAD_index
    let d1 := d.emit (.hostRead (d.reg64 HIF_HCQ_BASE_LO + 64 * k) 64)
    advance { d1 with hif := { d1.hif with waiting := d1.hif.waiting ++ [⟨fit 64 entry, k, none⟩], reserved := d1.hif.reserved + 1 } }
      HIF_HCQ_HEAD_index HIF_HCQ_CFG_size_log2

def execHcqFetch (entry : List Byte) (s : State) : Out := s.onHost fun d => hcqFetch d entry

/-- The read of an entry takes longer than 10 ms: HALTED. -/
def fetchTimeout (d : Dev) : Dev := if fetchPossible d && cqRoom d then d.setFld HIF_HCQ_STATUS_state hqHALTED else d

def execHcqFetchTimeout (s : State) : Out := s.onDev fetchTimeout

/-- The fetch has waited 100 ms for a completion entry. -/
def cqStall (d : Dev) : Dev :=
  if fetchPossible d && !cqRoom d && !d.bit HIF_HCQ_STATUS_cq_stall then raise (d.setBit HIF_HCQ_STATUS_cq_stall true) 242 0 0 else d

def execCqStall (s : State) : Out := s.onDev cqStall

/-- HIF_CQ_HEAD: entries are consumed; cq_stall clears when one is free. -/
def cqHeadWrite (d : Dev) (head : Nat) : Dev :=
  if hqSize d ≤ head then d
  else
    let d1 := d.setFld HIF_CQ_HEAD_index head
    if cqRoom d1 then d1.setBit HIF_HCQ_STATUS_cq_stall false else d1

def execCqHeadWrite (head : Nat) (s : State) : Out := s.onHost fun d => cqHeadWrite d head

/-- HIF_HCQ_CFG.en written 1. -/
def hcqEnable (d : Dev) : Dev :=
  if hqState d ≠ hqDISABLED then d
  else
    let d1 := d.clearRegs [HIF_HCQ_TAIL, HIF_HCQ_HEAD, HIF_CQ_HEAD, HIF_CQ_TAIL]
    ((d1.setBit HIF_CQ_TAIL_phase true).setBit HIF_HCQ_CFG_en true).setFld HIF_HCQ_STATUS_state hqENABLED

def execHcqEnable (s : State) : Out := s.onHost hcqEnable

/-! ### Completions (R472) -/

/-- Fields of a submission entry (Table HOST-4). -/
def hcOp (c : HostCmd) : Nat := field c.bytes 0 2
def hcGroup (c : HostCmd) : Nat := hcOp c / 256
def hcFlag (c : HostCmd) (k : Nat) : Bool := nbit (field c.bytes 2 1) k
def hcId (c : HostCmd) : Nat := field c.bytes 4 4
def hcArg (c : HostCmd) (off len : Nat) : Nat := field c.bytes (8 + off) len

/-- Results of Table HOST-7. -/
@[reducible] def hrOK : Nat := 0
@[reducible] def hrBAD_OPCODE : Nat := 1
@[reducible] def hrBAD_FIELD : Nat := 2
@[reducible] def hrNOT_PERMITTED : Nat := 3
@[reducible] def hrSTRUCTURAL : Nat := 4
@[reducible] def hrREAD_ONLY : Nat := 5
@[reducible] def hrSTOPPED : Nat := 6
@[reducible] def hrDMA_ERROR : Nat := 7
@[reducible] def hrABORTED : Nat := 8

/-- Opcodes whose results are those of Table HOST-7; campaign codes past 6 have none of their own table. -/
def host7 (op : Nat) : Bool := decide (op / 256 = 0 ∨ (op / 256 = 4 ∧ (op % 256 = 0 ∨ 6 < op % 256)))

/-- detail and out of a completion, from the data of its effect (Table HOST-6). -/
def cplDetail (op : Nat) (data : List Byte) : List Byte :=
  if op = 0x0004 then le 4 (b2n !data.isEmpty)
  else if op = 0x0101 ∨ op / 256 = 3 ∨ op = 0x0601 ∨ op = 0x0701 then fit 4 data else zeros 4
def cplOut (op : Nat) (data : List Byte) : List Byte :=
  if op = 0x0002 ∨ op = 0x0503 ∨ op = 0x0205 then fit 16 data
  else if op = 0x0101 then fit 16 ((data.drop 4).take 4) else zeros 16

/-- The 32 bytes of a completion entry (Table HOST-5). -/
def cplBytes (c : HostCmd) (result : Nat) (h7 phase : Bool) (jseq : Option Nat) (data : List Byte) : List Byte :=
  le 4 (hcId c) ++ le 2 c.sqIndex ++ le 1 result ++ le 1 (b2n phase + 2 * b2n h7 + 4 * b2n jseq.isSome) ++ le 4 (jseq.getD 0) ++
  cplDetail (hcOp c) data ++ cplOut (hcOp c) data

/-- Data that goes to an output address: QUOTE and JRNL_READ, once there is any. For the management channel the address is a buffer handle. -/
def cplData (d : Dev) (c : HostCmd) (data : List Byte) : Dev :=
  if (hcOp c = 0x0202 ∨ hcOp c = 0x0004) ∧ data ≠ [] then
    if c.handle.isSome then bufSet d (hcArg c 48 4) data else d.emit (.hostWrite (hcArg c 48 8) data)
  else d

/-- Write a completion: at HIF_CQ_TAIL with the phase, or at offset 64 of the management buffer with a word of kind 4. -/
def complete (d : Dev) (c : HostCmd) (result : Nat) (h7 : Bool) (jseq : Option Nat) (data : List Byte) : Dev :=
  let d0 := cplData d c data
  match c.handle with
  | some h =>
    let d1 := bufSet d0 h (fit 64 (bufGet d0 h) ++ cplBytes c result h7 false jseq data)
    (wqPush d1 (d1.fld HIF_MGMT_WQ_wq) epDispatcher (BitVec.ofNat 64 (2 ^ 63 + 3 * 2 ^ 60 + 4 * 2 ^ 56 + h))).1
  | none =>
    let k := d0.fld HIF_CQ_TAIL_index
    let d1 := d0.emit (.hostWrite (d0.reg64 HIF_CQ_BASE_LO + 32 * k) (cplBytes c result h7 (d0.bit HIF_CQ_TAIL_phase) jseq data))
    let d2 := advance d1 HIF_CQ_TAIL_index HIF_HCQ_CFG_size_log2
    let d3 := if d2.fld HIF_CQ_TAIL_index = 0 then d2.setBit HIF_CQ_TAIL_phase !(d0.bit HIF_CQ_TAIL_phase) else d2
    let d4 := { d3 with hif := { d3.hif with reserved := d3.hif.reserved - 1 } }
    if hcFlag c 1 then sendLimited d4 (d4.fld HIF_HCQ_CFG_vector) else d4

/-- A queue that drains becomes DISABLED when nothing runs. -/
def drained (d : Dev) : Dev :=
  if hqState d = hqDRAINING ∧ d.hif.running.isEmpty then d.setFld HIF_HCQ_STATUS_state hqDISABLED else d

/-- HIF_HCQ_CFG.en written 0: no entry is fetched; commands not started are abandoned, started ones complete. (DEDUCED: log entry 99) -/
def hcqDisable (d : Dev) : Dev :=
  let d1 := d.setBit HIF_HCQ_CFG_en false
  if hqState d ≠ hqENABLED ∧ hqState d ≠ hqHALTED then d1
  else
    let d2 := d.hif.waiting.foldl (fun a c => complete a c hrABORTED true none []) d1
    drained (({ d2 with hif := { d2.hif with waiting := [] } }).setFld HIF_HCQ_STATUS_state hqDRAINING)

def execHcqDisable (s : State) : Out := s.onHost hcqDisable

/-! ### The checks of R474 -/

/-- The opcode is one of Table HOST-6. -/
def hcKnown (op : Nat) : Bool :=
  [1, 2, 3, 4, 5, 0x101, 0x501, 0x502, 0x503, 0x601, 0x602, 0x701, 0x702, 0x801].contains op || within (op / 256) 2 4

/-- A code of groups 2 to 4 that lists host. -/
def hcListed (op : Nat) : Bool :=
  let g := op / 256
  let c := op % 256
  if g = 2 then [0x01, 0x02, 0x05, 0x07, 0x10].contains c
  else if g = 3 then within c 1 7 || c == 0x0A
  else if g = 4 then within c 1 6
  else true

/-- Argument bytes a command uses, as (offset, length). -/
def hcUsed (op : Nat) : List (Nat × Nat) :=
  match op with
  | 0x0002 => [(0, 4)]
  | 0x0003 => [(0, 8)]
  | 0x0004 => [(0, 4), (48, 8)]
  | 0x0005 => [(0, 4)]
  | 0x0101 => [(0, 1), (8, 12)]
  | 0x0201 => [(0, 8)]
  | 0x0202 => [(0, 32), (48, 8)]
  | 0x0205 => [(0, 1)]
  | 0x0207 => [(0, 2)]
  | 0x0210 => [(0, 49)]
  | 0x0301 => [(0, 4)]
  | 0x0302 => [(0, 20)]
  | 0x0304 => [(0, 4)]
  | 0x0401 => [(0, 2), (8, 40)]
  | 0x0402 | 0x0403 | 0x0404 | 0x0405 | 0x0406 => [(0, 1)]
  | 0x0501 => [(0, 4), (8, 8)]
  | 0x0502 | 0x0503 => [(0, 4)]
  | 0x0601 => [(0, 1)]
  | 0x0602 => [(0, 1), (2, 2)]
  | 0x0701 | 0x0702 => [(0, 4)]
  | 0x0801 => [(0, 32)]
  | _ => []

/-- Unused argument bytes, reserved bytes and flags are zero, and fields lie in range. -/
def hcFields (c : HostCmd) : Bool :=
  let op := hcOp c
  let unused := (List.range 56).filter fun k => !((hcUsed op).any fun u => decide (u.1 ≤ k ∧ k < u.1 + u.2))
  field c.bytes 3 1 == 0 && decide (field c.bytes 2 1 < 4) && (!hcListed op || unused.all fun k => hcArg c k 1 == 0) &&
  (if op = 2 ∨ op = 3 then hcArg c 0 4 % 4 == 0 && decide (hcArg c 0 4 < 2 ^ 24)
   else if op = 5 then decide (hcArg c 0 2 < 512)
   else if op = 0x0101 then within (hcArg c 0 1) 1 2
   else if op = 0x0302 then decide (hcArg c 16 4 ≤ 1)
   else if op = 0x0401 then decide (hcArg c 1 1 ≤ 1)
   else if op = 0x0304 then decide (hcArg c 0 4 ≤ 1)
   else if op = 0x0701 then nbits (hcArg c 0 4) 30 28 == 0 && nbits (hcArg c 0 4) 23 16 == 0
   else true)

/-- Registers that report structural Blend parameters. (DEDUCED: log entry 99) -/
def structural (a : Nat) : Bool :=
  [DSP_STATUS, RX_PORT_STATUS, TIM_TB_STATUS, BLD_ACTIVE_ID_LO, BLD_ACTIVE_ID_HI, BLD_SVN_MIN].contains a ||
    (List.range 34).any fun n => a == DSP_CADDY_STATEn n

/-- A register without a field that a write reaches. -/
def readOnly (a : Nat) : Bool := match findReg a with
  | none => false
  | some (r, _) => r.fields.all fun x => decide (x.acc = .ro)

/-- The refusal of R474, if any. (DEDUCED: log entry 99) (DESIGN CHOICE: log entry 100) -/
def hcRefusal (c : HostCmd) : Option Nat :=
  if !hcKnown (hcOp c) then some hrBAD_OPCODE
  else if !hcFields c then some hrBAD_FIELD
  else if hcOp c = 3 ∧ structural (hcArg c 0 4) then some hrSTRUCTURAL
  else if hcOp c = 3 ∧ readOnly (hcArg c 0 4) then some hrREAD_ONLY
  else none

/-! ### Starting and ending commands (R471, R475) -/

/-- OPEN records of commands of both queues. -/
def hostOpen (d : Dev) : Nat := jOpenCount d fun r => r.kind == 0x01

/-- The start rules of R471 for the command at a place of its queue: groups in queue order, fences as barriers. While
a mismatch of the complexes is in handling, commands wait (R422). (DEDUCED: log entry 99) -/
def mayStart (d : Dev) (waiting : List HostCmd) (running : List RunCmd) (k : Nat) (c : HostCmd) : Bool :=
  let before := waiting.take k
  d.res.gate.mismatch.isNone && decide (hostOpen d < 64) &&
    (before ++ running.map (·.cmd)).all (fun x => hcGroup x != hcGroup c && !hcFlag x 0) &&
    (!hcFlag c 0 || (before.isEmpty && running.isEmpty))

/-- The result a command ends with at once: codes of groups 2 to 4 that host software may not use. -/
def hcAtOnce (c : HostCmd) : Option Nat :=
  if hcListed (hcOp c) then none
  else some (if hcGroup c = 2 then scNOT_PERMITTED else if hcGroup c = 3 then upNOT_PERMITTED else hrNOT_PERMITTED)

/-- A waiting command starts: refused at this level, or its HOST_CMD record opens and it runs. What a reset of the interface left running counts
as earlier commands of the HCQ (R462, R471). (DEDUCED: log entry 99) -/
def startCmd (d : Dev) (mgmt : Bool) (k : Nat) : Dev :=
  let waiting := if mgmt then d.hif.mqWaiting else d.hif.waiting
  let running := if mgmt then d.hif.mqRunning else d.hif.running
  match waiting[k]? with
  | none => d
  | some c =>
    if !mayStart d waiting (if mgmt then running else running ++ d.hif.orphaned) k c then d
    else
      let rest := waiting.eraseIdx k
      let d1 := { d with hif := if mgmt then { d.hif with mqWaiting := rest } else { d.hif with waiting := rest } }
      match hcRefusal c with
      | some r => complete d1 c r true none []
      | none =>
        let (j, d2) := jOpen d1 0x01 (if mgmt then 5 else 0) (hcId c) 1 none
        let x : RunCmd := ⟨c, j, hcAtOnce c, []⟩
        { d2 with hif := if mgmt then { d2.hif with mqRunning := d2.hif.mqRunning ++ [x] } else { d2.hif with running := d2.hif.running ++ [x] } }

def execCommandStart (mgmt : Bool) (index : Nat) (s : State) : Out := s.onDev fun d => startCmd d mgmt index

/-- The record of a command closes with its result; a step that took effect counts. -/
def closeCmd (d : Dev) (x : RunCmd) (r : Nat) : Dev :=
  let d1 := jUpdate d x.jseq fun y => if r = 0 ∧ y.done < y.total then { y with done := y.total } else y
  jClose d1 x.jseq (if r = 0 then jCOMPLETE else jFAILED) r

/-- A command that has had its effect ends: record and completion; after a reset of the interface the record alone. -/
def endCmd (d : Dev) (j : Nat) : Dev :=
  let mine (x : RunCmd) : Bool := x.jseq == j && x.result.isSome
  match (d.hif.running ++ d.hif.mqRunning).find? mine, d.hif.orphaned.find? mine with
  | some x, _ =>
    let r := x.result.getD 0
    let d1 := closeCmd d x r
    let d2 := { d1 with hif := { d1.hif with running := d1.hif.running.filter fun y => y.jseq != j,
                                             mqRunning := d1.hif.mqRunning.filter fun y => y.jseq != j } }
    drained (complete d2 x.cmd r (host7 (hcOp x.cmd)) (some j) x.data)
  | none, some x =>
    let d1 := closeCmd d x (x.result.getD 0)
    { d1 with hif := { d1.hif with orphaned := d1.hif.orphaned.filter fun y => y.jseq != j } }
  | none, none => d

def execCommandComplete (jseq : Nat) (s : State) : Out := s.onDev fun d => endCmd d jseq

/-- TIMEOUT of a command's owning table, or DMA_ERROR. (DESIGN CHOICE: log entry 100) -/
def dataTimeoutCode (op : Nat) : Nat :=
  if op / 256 = 1 then blTimeout else if op / 256 = 2 then 0x15 else if op / 256 = 3 then upTIMEOUT else if op / 256 = 4 then 0x06 else hrDMA_ERROR

/-- A read of command data takes longer than 10 ms (R481). -/
def dataTimeout (d : Dev) (j : Nat) : Dev :=
  match (d.hif.running ++ d.hif.mqRunning ++ d.hif.orphaned).find? fun x => x.jseq == j && x.result.isNone with
  | none => d
  | some x => d.toCmd (.cmd j) (dataTimeoutCode (hcOp x.cmd)) []

def execCommandDataTimeout (jseq : Nat) (s : State) : Out := s.onDev fun d => dataTimeout d jseq

/-! ### Commands of this chapter (R473) -/

/-- A started command is a management command. -/
def isMgmt (d : Dev) (j : Nat) : Bool := d.hif.mqRunning.any fun x => x.jseq == j

def execNop (who : Sys2Proof.Who) (s : State) : Out := s.onDev fun d => d.toCmd who hrOK []

/-- JRNL_READ: the record's 32 bytes, or nothing when it is not found. (DESIGN CHOICE: log entry 100) -/
def jrnlRead (d : Dev) (w : Sys2Proof.Who) (seq : Nat) : Dev :=
  d.toCmd w hrOK ((((d.jrnl.ring.find? fun r => r.seq == seq).or (Tab.find d.jrnl.mirror seq)).map JRec.bytes).getD [])

def execJrnlRead (who : Sys2Proof.Who) (seq : Nat) (s : State) : Out := s.onDev fun d => jrnlRead d who seq

def execAlarmAck (who : Sys2Proof.Who) (entry seen : Nat) (s : State) : Out :=
  s.onDev fun d => (alarmAck d (entry % 512) (seen % 65536)).toCmd who hrOK []

/-- BLEND_LOAD from host memory (1), for a management command from the Packet Buffer of that handle (R480), or from flash (2). (DEDUCED: log entry 27) -/
def blendLoadCmd (d : Dev) (w : Sys2Proof.Who) (source addr len : Nat) : Dev :=
  match w with
  | .cmd j => blendLoad d (if source ≠ 1 then .flash addr else if isMgmt d j then .buffer (addr % 2 ^ 32) else .host addr) len (some j)
  | .master _ => d

def execBlendLoad (who : Sys2Proof.Who) (source addr len : Nat) (s : State) : Out := s.onDev fun d => blendLoadCmd d who source addr len

/-- TASK_SUBMIT with host's identifiers and source 3. -/
def taskSubmit (d : Dev) (w : Sys2Proof.Who) (b : List Byte) : Dev :=
  let (r, d1) := submit d (descOf (fit 32 b)) 0xE000 0xFFFE 3
  d1.toCmd w r []

def execTaskSubmit (who : Sys2Proof.Who) (desc : List Byte) (s : State) : Out := s.onDev fun d => taskSubmit d who desc

/-! ### Frame rings (R477, R478) -/

/-- HIF_FRr_UP_TAIL: buffers posted, as the descriptors' addresses and lengths. -/
def upPost (d : Dev) (r tail : Nat) (descs : List (Nat × Nat)) : Dev :=
  let size := ringSize d (HIF_FRr_UP_CFG_size_log2 r)
  let old := d.fld (HIF_FRr_UP_TAIL_index r)
  if 8 ≤ r ∨ size ≤ tail ∨ !d.bit (HIF_FRr_UP_CFG_en r) then d
  else
    let n := (tail + size - old % size) % size
    (setPosted d r (upPosted d r ++ (descs ++ List.replicate n (0, 0)).take n)).setFld (HIF_FRr_UP_TAIL_index r) tail

def execUpRingPost (ring tail : Nat) (descs : List (Nat × Nat)) (s : State) : Out := s.onHost fun d => upPost d ring tail descs

/-- HIF_FRr_DN_TAIL. -/
def dnPost (d : Dev) (r tail : Nat) : Dev :=
  if 8 ≤ r ∨ ringSize d (HIF_FRr_DN_CFG_size_log2 r) ≤ tail ∨ !d.bit (HIF_FRr_DN_CFG_en r) then d
  else d.setFld (HIF_FRr_DN_TAIL_index r) tail

def execDnRingPost (ring tail : Nat) (s : State) : Out := s.onHost fun d => dnPost d ring tail

/-- The ring-pair CFG of a direction is enabled, setting its indices to 0, or disabled. -/
def upEnable (d : Dev) (r : Nat) (on : Bool) : Dev :=
  let d1 := d.setBit (HIF_FRr_UP_CFG_en r) on
  if on then (setPosted d1 r []).clearRegs [HIF_FRr_UP_TAIL r, HIF_FRr_UP_HEAD r] else d1
def dnEnable (d : Dev) (r : Nat) (on : Bool) : Dev :=
  let d1 := d.setBit (HIF_FRr_DN_CFG_en r) on
  if on then d1.clearRegs [HIF_FRr_DN_TAIL r, HIF_FRr_DN_HEAD r] else d1

/-- Fields of a down descriptor (Table HOST-9) in range. -/
def dnRange (d : Dev) (b : List Byte) : Bool :=
  let len := field b 8 2
  let kind := field b 0x0A 1
  let port := field b 0x0D 1
  (slice b 0x0F 17).all (· == 0) && decide (field b 0x0C 1 < 16) &&
  (if kind = 2 then within len 60 1518 && decide (port < 4)
   else decide (kind < 2) && within len 40 1280 && d.panUsed (field b 0x0B 1) && (if kind = 0 then port == 0 else decide (port < 16)))

/-- A descriptor ends with a status: written to host memory, the head advances, the vector follows. -/
def dnEnd (d : Dev) (r status : Nat) : Dev :=
  let d1 := d.emit (.hostWrite (d.reg64 (HIF_FRr_DN_BASE_LO r) + 32 * d.fld (HIF_FRr_DN_HEAD_index r) + 0x0E) (le 1 status))
  let d2 := if status = 0 then d1 else d1.inc (HIF_FRr_CNT_dn_err r)
  sendLimited (advance d2 (HIF_FRr_DN_HEAD_index r) (HIF_FRr_DN_CFG_size_log2 r)) (d.fld (HIF_FRr_DN_CFG_vector r))

/-- A descriptor waits on a down ring. -/
def dnWaits (d : Dev) (r : Nat) : Bool :=
  decide (r < 8) && d.bit (HIF_FRr_DN_CFG_en r) && d.fld (HIF_FRr_DN_HEAD_index r) != d.fld (HIF_FRr_DN_TAIL_index r)

/-- Process the descriptor at the head with its buffer: into its path (R478). Without Packet Buffer room it waits. (DESIGN CHOICE: log entry 101) -/
def dnProcess (d : Dev) (r : Nat) (desc data : List Byte) : Dev :=
  let b := fit 32 desc
  let f := fit (field b 8 2) data
  let p := field b 0x0B 1
  let k := field b 0x0C 1 % 8
  let col := field b 0x0C 1 / 8
  if !dnWaits d r then d
  else if !dnRange d b then dnEnd d r 1
  else if field b 0x0A 1 = 2 then dnEnd (d.emit (.ethernet (field b 0x0D 1) f)) r 0
  else match bufPut d f with
    | none => d
    | some (h, d1) =>
      if field b 0x0A 1 = 0 then dnEnd (downlinkAt d1 p h k col [] []) r 0
      else
        let e : QEntry := ⟨true, k, col == clYELLOW, false, false, 0xFFFFF, h, upOctets d1 p f.length, field b 0x0D 1, 0, 0, 0, p, 0, d1.ns, none, 0,
          none, false, [], 0⟩
        dnEnd (enqueue d1 e).1 r 0

def execDnDescriptorProcess (ring : Nat) (desc data : List Byte) (s : State) : Out := s.onHost fun d => dnProcess d ring desc data

/-- A read of a descriptor or buffer takes longer than 10 ms. -/
def dnTimeout (d : Dev) (r : Nat) : Dev := if dnWaits d r then dnEnd d r 2 else d

def execDnReadTimeout (ring : Nat) (s : State) : Out := s.onDev fun d => dnTimeout d ring

/-! ### The management channel (R480) -/

/-- HIF_MQ_SUBMIT: the entry in the first 64 bytes of a buffer; at most 256 outstanding. -/
def mqSubmit (d : Dev) (h : Nat) : Dev :=
  if 256 ≤ d.hif.mqWaiting.length + d.hif.mqRunning.length then d.inc HIF_MGMT_CNT_mq_refused
  else { d with hif := { d.hif with mqWaiting := d.hif.mqWaiting ++ [⟨fit 64 (bufGet d h), 0, some h⟩] } }

def execMqSubmit (handle : Nat) (s : State) : Out := s.onDev fun d => mqSubmit d handle

/-- HIF_MGMT_TX: the frame of a buffer is sent on the port and with the length of HIF_MGMT_TX_CTL; a PTP frame is stamped (R314), its record
written into the buffer. (DESIGN CHOICE: log entry 102) -/
def mgmtTx (d : Dev) (h : Nat) : Dev :=
  let port := d.fld HIF_MGMT_TX_CTL_port
  let f := fit (d.fld HIF_MGMT_TX_CTL_length) (bufGet d h)
  let (f1, rec_, d1) := ptpEgress d port f
  let d2 := if rec_.isEmpty then d1 else bufSet d1 h (rec_ ++ f1)
  if ethOff d port then d
  else { d2.emit (.ethernet port f1) with hif := { d2.hif with mgmtTx := d2.hif.mgmtTx ++ [h] } }

def execMgmtTx (handle : Nat) (s : State) : Out := s.onDev fun d => mgmtTx d handle

/-- The frame has left: its buffer is released. -/
def mgmtTxDone (d : Dev) (h : Nat) : Dev :=
  if d.hif.mgmtTx.contains h then bufFree { d with hif := { d.hif with mgmtTx := d.hif.mgmtTx.erase h } } h else d

def execMgmtTxDone (handle : Nat) (s : State) : Out := s.onDev fun d => mgmtTxDone d handle

end Sys2Proof.Machine
end

