-- ==== Sys2Proof/Machine/Resilience.lean ====
section
/-! DEFINITION. Journal writes of firmware, spares, row and bank repairs, self-test, disabling a function, repair fuses
(15_resilience.md R429 to R445). The Commit Gate, the complexes and ECC stand in Gate.lean. -/

namespace Sys2Proof.Machine

/-! ### The journal of firmware (R441, R442, R444) -/

/-- OPEN records of firmware, and the one of a tag. -/
def fwOpen (d : Dev) : Nat := jOpenCount d fun r => r.origin == 1
def jTag (d : Dev) (tag : Nat) : Option JRec := d.jrnl.ring.find? fun r => r.outcome == jOPEN && r.origin == 1 && r.tag == some tag

/-- The write of RES_JRNL_OPEN3 opens the record whose bytes OPEN0 to OPEN3 hold. (DEDUCED: log entry 94) -/
def jrnlOpen (d : Dev) (w : Word) : Dev :=
  let d1 := d.setReg (RES_JRNL_OPENm 3) w
  let b := (List.range 4).flatMap fun m => le 4 (d1.reg (RES_JRNL_OPENm m)).toNat
  let tag := field b 0 2
  if (jTag d1 tag).isSome then d1.inc RES_JRNL_STATUS_refused
  else if 64 ≤ fwOpen d1 then raise (d1.inc RES_JRNL_STATUS_refused) 228 0 0
  else (jOpen d1 (field b 4 1) 1 (field b 8 8) (field b 2 2) (some tag)).2

def execJrnlOpen (w : Word) (s : State) : Out := s.onDev fun d => jrnlOpen d w

/-- RES_JRNL_STEP: the step of a tag is committed (R420). -/
def jrnlStep (d : Dev) (tag : Nat) : Dev := match jTag d tag with
  | some r => jStepDone d r.seq
  | none => d

def execJrnlStep (tag : Nat) (s : State) : Out := s.onDev fun d => jrnlStep d tag

/-- RES_JRNL_CLOSE: outcomes 1 to 4. (DEDUCED: log entry 94) -/
def jrnlClose (d : Dev) (w : Word) : Dev :=
  let o := getBits w 23 16
  match jTag d (getBits w 15 0) with
  | some r => if within o 1 4 then jClose d r.seq o (getBits w 31 24) else d
  | none => d

def execJrnlClose (w : Word) (s : State) : Out := s.onDev fun d => jrnlClose d w

/-- A fetch ends with a record, or finds none: RES_JRNL_REC0 to 7 and found. -/
def fetchEnd (d : Dev) (r : Option JRec) : Dev :=
  let b := (r.map JRec.bytes).getD (zeros 32)
  let d1 := { d with res := { d.res with fetching := none } }
  let d2 := (d1.setBit RES_JRNL_STATUS_busy false).setBit RES_JRNL_STATUS_found r.isSome
  (List.range 8).foldl (fun a m => a.setReg (RES_JRNL_RECm m) (BitVec.ofNat 32 (field b (4 * m) 4))) d2

/-- A write to RES_JRNL_SEL: from the Kettle ring at once, else from the mirror in flash. (DEDUCED: log entry 94) -/
def jrnlFetch (d : Dev) (seq : Nat) : Dev :=
  let d1 := d.setReg RES_JRNL_SEL (BitVec.ofNat 32 seq)
  match d.jrnl.ring.find? fun r => r.seq == seq with
  | some r => fetchEnd d1 (some r)
  | none =>
    let d2 := fetchEnd d1 none
    ({ d2 with res := { d2.res with fetching := some seq } }).setBit RES_JRNL_STATUS_busy true

def execJrnlFetch (seq : Nat) (s : State) : Out := s.onDev fun d => jrnlFetch d seq

/-- The fetch from flash completes. -/
def jrnlFetchDone (d : Dev) : Dev := match d.res.fetching with
  | none => d
  | some q => fetchEnd d (Tab.find d.jrnl.mirror q)

def execJrnlFetchDone (s : State) : Out := s.onDev jrnlFetchDone

/-! ### Spare Caddies (R429, R430) -/

/-- A spare takes a logical number: it loads the engine images of its role mask and starts with an empty key cache; the Caddy it replaces drains to DISABLED. (DEDUCED: log entry 90) -/
def spareTakes (d : Dev) (t : SpareTest) : Dev :=
  match (List.range 34).find? fun c => c != t.spare && (d.caddy c).logical == some t.logical with
  | none => d.setCaddy t.spare { d.caddy t.spare with state := cdSPARE }
  | some c =>
    let roles := (d.caddy c).roles
    let d1 := d.setCaddy c { d.caddy c with logical := none }
    let d2 := d1.setCaddy t.spare { d1.caddy t.spare with logical := some t.logical, roles := roles, state := cdRUNNING, emptySince := d.ns }
    let d3 := loadImages { d2 with vault := { d2.vault with cache := d2.vault.cache.filter fun e => e.1 / 256 != t.spare } } t.spare
    let d4 := if (d3.caddy c).state = cdDISABLED then d3
      else if (d3.caddy c).state = cdDRAINING then d3.setCaddy c { d3.caddy c with target := cdDISABLED } else drainCaddy d3 c cdDISABLED
    placeHolding (replaced d4 4 c c t.spare)

/-- A spare ends its 64 slices; one that fails, or was disabled meanwhile, gives way to the other spare. -/
def spareTestDone (d : Dev) (k : Nat) (pass : Bool) : Dev :=
  match d.res.spareTests.find? fun t => t.spare == k with
  | none => d
  | some t =>
    let d1 := { d with res := { d.res with spareTests := d.res.spareTests.filter fun x => x.spare != k } }
    if pass && (d1.caddy k).state == cdBIST then spareTakes d1 t
    else
      let d2 := if (d1.caddy k).state = cdBIST then d1.setCaddy k { d1.caddy k with state := cdDISABLED } else d1
      match physOf d2 t.logical with
      | some c => bringSpare d2 c t.part
      | none => d2

def execSpareCaddyTestDone (caddy : Nat) (pass : Bool) (s : State) : Out := s.onDev fun d => spareTestDone d caddy pass

/-! ### Row, column and bank repairs (R432, R433) -/

/-- Spare rows or columns of an array that a repair has taken or fills; they are taken in ascending order. -/
def sparesUsed (d : Dev) (array : Nat) (column : Bool) : Nat :=
  let done := (d.res.log.filter fun r => r.kind == (if column then 2 else 1) && r.unit == array).map (·.replacement)
  let filling := (d.res.rowCopies.filter fun r => r.array == array && r.column == column).map (·.spare)
  (done ++ filling).foldl (fun n k => max n (k + 1)) 0

/-- Spare banks that no repair has taken and that fill none. -/
def freeBanks (d : Dev) : List Nat :=
  [64, 65, 66, 67].filter fun b => !(Tab.vals d.res.bankMap).contains b && !(Tab.vals d.res.bankCopies).contains b &&
    !(d.res.log.any fun r => r.kind == 3 && r.replacement == b)

/-- Begin the copy of a logical bank to a spare bank (R433); with none left, the alarm. -/
def bankRepair (d : Dev) (bank : Nat) : Dev :=
  if (Tab.find d.res.bankCopies bank).isSome then d
  else match (freeBanks d).head? with
    | none => raise d 225 3 0
    | some b => { d with res := { d.res with bankCopies := Tab.put d.res.bankCopies bank b } }

/-- Begin the copy of a row or column to a spare one of its array; with none left, the bank of a table array, else the alarm. -/
def rowRepair (d : Dev) (array : Nat) (column : Bool) (index : Nat) (bank : Option Nat) : Dev :=
  let n := sparesUsed d array column
  if d.res.rowCopies.any fun r => r.array == array && r.column == column && r.index == index then d
  else if n < (if column then 2 else 8) then { d with res := { d.res with rowCopies := d.res.rowCopies ++ [⟨array, column, index, n⟩] } }
  else match bank with
    | some b => bankRepair d b
    | none => raise d 225 (if column then 2 else 1) 0

/-- A row or column copy completes: the spare takes the address. -/
def rowRepairDone (d : Dev) (array : Nat) (column : Bool) (index : Nat) : Dev :=
  match d.res.rowCopies.find? fun r => r.array == array && r.column == column && r.index == index with
  | none => d
  | some r =>
    let mine (e : SramErr) : Bool := e.array == array && (if column then e.col else e.row) == index
    let d1 := { d with res := { d.res with rowCopies := d.res.rowCopies.filter (· != r), errors := d.res.errors.filter fun e => !mine e } }
    replaced (d1.inc RES_SRAM_CNT_repaired) (if column then 2 else 1) array index r.spare

def execRowRepairDone (array : Nat) (column : Bool) (index : Nat) (s : State) : Out := s.onDev fun d => rowRepairDone d array column index

/-- A bank copy completes: the spare takes the logical number; no request sees the change. -/
def bankRepairDone (d : Dev) (bank : Nat) : Dev :=
  match Tab.find d.res.bankCopies bank with
  | none => d
  | some b =>
    let old := Tab.getD d.res.bankMap bank bank
    let d1 := { d with res := { d.res with bankCopies := Tab.del d.res.bankCopies bank, bankMap := Tab.put d.res.bankMap bank b,
                                           errors := d.res.errors.filter fun e => e.bank != some bank } }
    replaced d1 3 bank old b

def execBankRepairDone (bank : Nat) (s : State) : Out := s.onDev fun d => bankRepairDone d bank

/-! ### Self-test in service (R435, R436) -/

/-- The Caddies of the rotation: by logical number, then the spares. -/
def rotation (d : Dev) (n : Nat) : Option Nat :=
  if n < 32 then physOf d n else ((List.range 34).filter fun c => (d.caddy c).state == cdSPARE)[n - 32]?

/-- A Caddy of the rotation whose slice can start: RUNNING, STOPPED, or SPARE. -/
def testable (d : Dev) (c : Nat) : Bool :=
  (d.caddy c).state == cdRUNNING || (d.caddy c).state == cdSTOPPED || (d.caddy c).state == cdSPARE

/-- Put a Caddy in the rotation's hands: its slice shown, the fence or the slice in force. (DEDUCED: log entry 91) -/
def bistTake (d : Dev) (c : Nat) (inSlice : Bool) : Dev :=
  let x := d.caddy c
  let b := d.res.bist
  let d1 := { d with res := { d.res with bist := { b with current := some c, inSlice := inSlice, rerun := false,
                                                          wasStopped := x.state == cdSTOPPED, spare := x.state == cdSPARE } } }
  let d2 := ((d1.setFld RES_BIST_STATUS_caddy c).setFld RES_BIST_STATUS_slice (Tab.getD b.slices c 0)).setBit RES_STATUS_bist_running true
  ((d2.setBit RES_BIST_STATUS_in_slice inSlice).setBit RES_BIST_STATUS_fenced !inSlice).setCaddy c
    { x with state := if inSlice then cdBIST else x.state, fenced := !inSlice }

/-- A period begins: the next Caddy of the rotation is fenced, or, STOPPED or SPARE, tested at once. (DEDUCED: log entry 30) -/
def bistStart (d : Dev) : Dev :=
  if d.stage < 3 ∨ !d.bistOn ∨ !d.bit RES_CTRL_bist_run ∨ d.res.bist.current.isSome then d
  else
    let pos := d.res.bist.pos
    match ((List.range 34).map fun k => (pos + k) % 34).findSome? fun n => match rotation d n with
      | some c => if testable d c then some (n, c) else none
      | none => none with
    | none => d
    | some (n, c) =>
      let d1 := { d with res := { d.res with bist := { d.res.bist with pos := n } } }
      if (d1.caddy c).state = cdRUNNING then
        let (moved, d2) := emptyCaddy d1 c
        keepWarm (moved.foldl place (bistTake d2 c false))
      else bistTake d1 c true

def execBistSliceStart (s : State) : Out := s.onDev bistStart

/-- The fenced Caddy's engines are all idle: BIST. -/
def fenceIdle (d : Dev) : Dev :=
  match d.res.bist.current with
  | none => d
  | some c => if d.res.bist.inSlice || !(d.caddy c).fenced || !caddyIdle d c then d else bistTake d c true

def execBistFenceIdle (s : State) : Out := s.onDev fenceIdle

/-- The fence is not idle within fence_ms: it is lifted, the slice deferred to the next period. (DEDUCED: log entry 91) -/
def fenceTimeout (d : Dev) : Dev :=
  match d.res.bist.current with
  | none => d
  | some c => if d.res.bist.inSlice then d else placeHolding ((bistLeave d c).inc RES_BIST_CNT_deferred)

def execBistFenceTimeout (s : State) : Out := s.onDev fenceTimeout

/-- The Caddy under test returns to what it was, and the rotation moves on. -/
def bistReturn (d : Dev) (c : Nat) : Dev :=
  let b := d.res.bist
  let st := if b.wasStopped then cdSTOPPED else if b.spare then cdSPARE else cdRUNNING
  let d1 := bistLeave d c
  let d2 := { d1 with res := { d1.res with bist := { d1.res.bist with pos := (b.pos + 1) % 34 } } }
  placeHolding (d2.setCaddy c { d2.caddy c with state := st, emptySince := d.ns })

/-- A Trellis Unit fails: it is out of service, or, the other one out already, the Caddy is replaced. -/
def trellisFail (d : Dev) (c unit : Nat) : Dev :=
  let d1 := trellisOut d (2 * c + unit)
  if d.res.trellisOff.contains (2 * c + 1 - unit) then bringSpare d1 c (16 + unit) else replaced d1 6 c unit (1 - unit)

/-- A second failure (R436): a Trellis Unit alone is disabled; otherwise the Caddy drains and a spare is brought in. A failing spare is
DISABLED. (DEDUCED: log entry 90) -/
def bistFailed (d : Dev) (c part : Nat) : Dev :=
  let spare := d.res.bist.spare
  let d1 := bistReturn d c
  if spare then d1.setCaddy c { d1.caddy c with state := cdDISABLED }
  else if within part 16 17 then trellisFail d1 c (part - 16)
  else bringSpare (drainCaddy d1 c cdDISABLED) c part

/-- A slice ends. `pass`: its signature is the expected one; `part`: the failing engine, Trellis Unit (16, 17) or the whole (18). (DEDUCED: log entry 91) -/
def sliceEnd (d : Dev) (pass : Bool) (part : Nat) : Dev :=
  match d.res.bist.current with
  | none => d
  | some c =>
    let b := d.res.bist
    if !b.inSlice then d
    else if pass then
      let n := (Tab.getD b.slices c 0 + 1) % 64
      bistReturn ({ d with res := { d.res with bist := { b with slices := Tab.put b.slices c n } } }.setFld RES_BIST_STATUS_slice n) c
    else
      let d1 := d.inc RES_BIST_CNT_failed
      if b.rerun then bistFailed d1 c part else { d1 with res := { d1.res with bist := { b with rerun := true } } }

def execBistSliceEnd (pass : Bool) (part : Nat) (s : State) : Out := s.onDev fun d => sliceEnd d pass part

/-! ### Disabling a function with work in flight (R440) -/

/-- Results of R440. -/
@[reducible] def fnOK : Nat := 0
@[reducible] def fnRANGE : Nat := 1
@[reducible] def fnONLY_ONE : Nat := 2
@[reducible] def fnBUSY : Nat := 3

/-- Key of a function: class and index; whether both are in range. -/
def fnKey (cls i : Nat) : Nat := cls * 65536 + i
def fnRange (cls i : Nat) : Bool := decide (i < [64, 34, 544, 4, 8, 68, 2].getD cls 0)

/-- States of the complexes (Table RES-2): 0 CC-A, 1 CC-B. -/
def ccFld (k : Nat) : Fld := if k = 0 then RES_CC_STATE_a_state else RES_CC_STATE_b_state
def ccState (d : Dev) (k : Nat) : Nat := d.fld (ccFld k)
def setCc (d : Dev) (k st : Nat) : Dev := d.setFld (ccFld k) st
@[reducible] def ccOFF : Nat := 0
@[reducible] def ccACTIVE : Nat := 1
@[reducible] def ccSTANDBY : Nat := 2
@[reducible] def ccTESTING : Nat := 3
@[reducible] def ccSYNCING : Nat := 4
@[reducible] def ccISOLATED : Nat := 5

/-- A complex whose ready bit is 1 (R425), and one whose clock is stopped (R424, R466). -/
def ccReady (d : Dev) (k : Nat) : Bool := [ccACTIVE, ccSTANDBY, ccSYNCING].contains (ccState d k)
def ccStopped (d : Dev) (k : Nat) : Bool := ccState d k == ccOFF || ccState d k == ccISOLATED

/-- An access that waited at a crossing completes (R466): a read with the tick counts, which the spec leaves free. -/
def crossed (d : Dev) (x : Crossing) : Dev :=
  let (v, d1) := d.draw
  if x.read then d1.answer x.m (v % 256 ^ x.len) else d

/-- The clock of complex k runs again (R24, R466): every access that waits at its crossing, and at no other, completes, oldest first. -/
def ccWake (d : Dev) (k : Nat) : Dev :=
  let ends (x : Crossing) : Bool := x.touches (HIF_CCA_TICK + 4 * k) && !((x.touches (HIF_CCA_TICK + 4 * (1 - k))) && ccStopped d (1 - k))
  (d.hif.crossing.filter ends).foldl crossed { d with hif := { d.hif with crossing := d.hif.crossing.filter fun x => !ends x } }

/-- State of a function: 0 ENABLED, 1 DRAINING, 2 DISABLED. -/
def fnState (d : Dev) (cls i : Nat) : Nat :=
  let by3 (draining off : Bool) : Nat := if draining then 1 else if off then 2 else 0
  let inList := d.res.func.draining.contains (fnKey cls i)
  if cls = 0 then by3 (d.portState i == ylDRAINING) (d.portState i == ylDISABLED)
  else if cls = 1 then by3 ((d.caddy i).state == cdDRAINING) ((d.caddy i).state == cdDISABLED)
  else if cls = 2 then by3 (d.engine i).draining (d.engine i).disabled
  else if cls = 3 then by3 inList (d.res.func.disabled.contains (fnKey 3 i))
  else if cls = 4 then by3 inList !(nbit (d.fld TS_CTRL_pan_run) i)
  else if cls = 5 then by3 inList (d.res.trellisOff.contains i)
  else by3 (d.res.gate.isolate == some i) (ccState d i == ccISOLATED || ccState d i == ccOFF)

/-- A command ends: RES_FUNC_STATUS for a master, the completion with its state for a queue's command. -/
def fnEnd (d : Dev) (w : Sys2Proof.Who) (r cls i : Nat) : Dev :=
  if isMaster w then
    ({ d with res := { d.res with func := { d.res.func with last := if r = fnRANGE then d.res.func.last else some (fnKey cls i) } } }).setFld
      RES_FUNC_STATUS_result r
  else d.toCmd w r (le 4 (if r = fnRANGE then 0 else fnState d cls i))

/-- The function enters DRAINING by list, an earlier enable forgotten. -/
def fnDrain (d : Dev) (k : Nat) : Dev :=
  { d with res := { d.res with func := { d.res.func with
      draining := k :: d.res.func.draining.filter (· != k), enabling := d.res.func.enabling.filter (· != k) } } }

/-- A port is the last Ethernet port of a PAN in use. -/
def lastEth (d : Dev) (e : Nat) : Bool :=
  (List.range 8).any fun p => d.panUsed p && nbit (d.fld (FWD_PANp_CFG_eth_mask p)) e &&
    (List.range 4).all fun x => x == e || !nbit (d.fld (FWD_PANp_CFG_eth_mask p)) x || ethOff d x

/-- Disabling an engine: it drains, its prefetched item returns to the head of its Caddy's ready list (R74, R79). -/
def engineDrain (d : Dev) (e : Nat) : Dev :=
  let x := d.engine e
  let c := d.caddy (e / 16)
  let d1 := d.setEngine e { x with draining := true, prefetch := none }
  match x.prefetch with
  | none => d1
  | some i =>
    let d2 := d1.setCaddy (e / 16) { c with ready := i :: c.ready }
    match d2.task i with
    | some t => d2.setTask i { t with phase := .ready (e / 16) }
    | none => d2

/-- New work is refused from now on (Table RES-5). -/
def fnBegin (d : Dev) (cls i : Nat) : Dev :=
  if cls = 0 then portDisable d i
  else if cls = 1 then
    if (d.caddy i).state = cdDRAINING then d.setCaddy i { d.caddy i with target := cdDISABLED } else drainCaddy d i cdDISABLED
  else if cls = 2 then engineDrain d i
  else if cls = 3 then backhaulChanged (fnDrain d (fnKey 3 i))
  else if cls = 4 then setPanRun (fnDrain d (fnKey 4 i)) (d.fld TS_CTRL_pan_run &&& (255 - 2 ^ i))
  else if cls = 5 then
    trellisOut (fnDrain d (fnKey 5 i)) i
  else
    let g := d.res.gate
    { d with res := { d.res with gate := { g with isolate := some i }, func := { d.res.func with disabled := fnKey 6 i :: d.res.func.disabled } } }

/-- RES_FUNC_CMD disables a function. (DEDUCED: log entry 92) -/
def funcDisable (d : Dev) (w : Sys2Proof.Who) (cls i : Nat) : Dev :=
  if !fnRange cls i then fnEnd d w fnRANGE cls i
  else if fnState d cls i = 2 then fnEnd d w fnOK cls i
  else if (cls = 6 ∧ ccState d (1 - i) ≠ ccSTANDBY) ∨ (cls = 3 ∧ lastEth d i) then fnEnd d w fnONLY_ONE cls i
  else if fnState d cls i = 1 ∧ 2 ≤ cls then
    fnEnd { d with res := { d.res with func := { d.res.func with enabling := d.res.func.enabling.filter (· != fnKey cls i) } } } w fnOK cls i
  else fnEnd (fnBegin d cls i) w fnOK cls i

def execFuncDisable (who : Sys2Proof.Who) (cls index : Nat) (s : State) : Out := s.onDev fun d => funcDisable d who cls index

/-- A DISABLED function returns to service. -/
def fnReturn (d : Dev) (cls i : Nat) : Dev :=
  let off := { d with res := { d.res with func := { d.res.func with disabled := d.res.func.disabled.filter (· != fnKey cls i) } } }
  if cls = 0 then portEnable d i
  else if cls = 1 then keepWarm (placeHolding (d.setCaddy i { d.caddy i with state := if (d.caddy i).logical.isSome then cdSTOPPED else cdSPARE }))
  else if cls = 2 then d.setEngine i { d.engine i with disabled := false }
  else if cls = 3 then backhaulChanged off
  else if cls = 4 then setPanRun d (d.fld TS_CTRL_pan_run ||| 2 ^ i)
  else if cls = 5 then { d with res := { d.res with trellisOff := d.res.trellisOff.filter (· != i) } }
  else ccWake (setCc off i ccTESTING) i

/-- An enable during DRAINING: it takes effect at DISABLED. (DEDUCED: log entry 92) -/
def fnLater (d : Dev) (cls i : Nat) : Dev :=
  if cls = 0 then portEnable d i
  else if cls = 1 then d.setCaddy i { d.caddy i with target := if (d.caddy i).logical.isSome then cdSTOPPED else cdSPARE }
  else if cls = 6 then { d with res := { d.res with func := { d.res.func with disabled := d.res.func.disabled.filter (· != fnKey 6 i) } } }
  else { d with res := { d.res with func := { d.res.func with enabling := fnKey cls i :: d.res.func.enabling.filter (· != fnKey cls i) } } }

/-- RES_FUNC_CMD enables a function. -/
def funcEnable (d : Dev) (w : Sys2Proof.Who) (cls i : Nat) : Dev :=
  if !fnRange cls i then fnEnd d w fnRANGE cls i
  else if fnState d cls i = 2 then fnEnd (fnReturn d cls i) w fnOK cls i
  else if fnState d cls i = 1 then fnEnd (fnLater d cls i) w fnOK cls i
  else fnEnd d w fnOK cls i

def execFuncEnable (who : Sys2Proof.Who) (cls index : Nat) (s : State) : Out := s.onDev fun d => funcEnable d who cls index

/-- The bound of a draining function: what still runs is aborted, and it is DISABLED, or enabled again if that was written meanwhile. -/
def fnDrained (d : Dev) (cls i : Nat) : Dev :=
  let k := fnKey cls i
  let again := d.res.func.enabling.contains k
  let f := d.res.func
  let d1 := { d with res := { d.res with func := { f with draining := f.draining.filter (· != k), enabling := f.enabling.filter (· != k),
                                                          disabled := if cls = 3 then k :: f.disabled else f.disabled } } }
  let d2 := if cls = 2 then
      let d3 := (d1.engine i).tasks.foldl (fun a t => abortAny a t rsDRAIN) d1
      d3.setEngine i { d3.engine i with draining := false, disabled := true }
    else d1
  if again then fnReturn d2 cls i else d2

def funcDrainEnd (d : Dev) (cls i : Nat) : Dev :=
  if !fnRange cls i || fnState d cls i != 1 then d
  else if cls = 0 then portDrainEnd d i
  else if cls = 1 then
    let run := (List.range 16).flatMap fun k => (d.engine (16 * i + k)).tasks
    drainEnd (run.foldl (fun a t => abortAny a t rsDRAIN) d) i
  else if cls = 6 then d
  else fnDrained d cls i

def execFuncDrainEnd (cls index : Nat) (s : State) : Out := s.onDev fun d => funcDrainEnd d cls index

/-! ### Repair fuses (R437, R439) -/

/-- Results of R439. -/
@[reducible] def rpOK : Nat := 0
@[reducible] def rpNOT_FOUND : Nat := 1
@[reducible] def rpNO_FUSE : Nat := 2
@[reducible] def rpALREADY : Nat := 3
@[reducible] def rpRANGE : Nat := 4
@[reducible] def rpBUSY : Nat := 5

/-- The fuse record of a repair. -/
def repairWord (r : Repair) : Nat :=
  let w := r.kind * 2 ^ 60 + r.unit * 2 ^ 40 + r.location * 2 ^ 24 + r.replacement * 2 ^ 8
  w + fuseCrc w

/-- Fuse records burnt, with those whose burn is to complete. (DEDUCED: log entry 93) -/
def fusesUsed (f : Fuses) : Nat :=
  f.repairs.length + f.pend.countP fun b => match b with
    | .repair _ => true
    | _ => false

/-- A command of RES_REPAIR_CMD ends. (DEDUCED: log entry 93) -/
def repairEnd (d : Dev) (w : Sys2Proof.Who) (r : Nat) : Dev := if isMaster w then d.setFld RES_REPAIR_STATUS_result r else d.toCmd w r []

/-- BURN of a log seq. With `cut` power fails in the burn: it completes at the next start. (DEDUCED: log entry 93) -/
def repairBurn (w : Sys2Proof.Who) (seq : Nat) (cut : Bool) (f : Fuses) (d : Dev) : Fuses × Dev :=
  match d.res.log.find? fun r => r.seq == seq with
  | none => (f, repairEnd d w rpNOT_FOUND)
  | some r =>
    if r.kind = 8 ∨ 2 ^ 20 ≤ r.unit ∨ 2 ^ 16 ≤ r.location ∨ 2 ^ 16 ≤ r.replacement then (f, repairEnd d w rpRANGE)
    else if r.fused ∨ f.repairs.contains (repairWord r) then (f, repairEnd d w rpALREADY)
    else if 256 ≤ fusesUsed f then (f, repairEnd d w rpNO_FUSE)
    else if cut then ({ f with pend := f.pend ++ [.repair (repairWord r)] }, d)
    else (f.addRepair (repairWord r), repairEnd (repairLog d r.kind r.unit r.location r.replacement true).2 w rpOK)

def execRepairBurn (who : Sys2Proof.Who) (seq : Nat) (cut : Bool) (s : State) : Out := s.onFuses fun f d => powerCut f (repairBurn who seq cut f d)

/-- A repair-log record is not written within 50 ms: an event; it is written again at the next repair. -/
def repairLate (d : Dev) : Dev :=
  match d.res.log.getLast? with
  | none => d
  | some r => raise { d with res := { d.res with logLate := true } } 226 r.kind 0

def execRepairLogTimeout (s : State) : Out := s.onDev repairLate

/-- RES_CTRL.cnt_clear. -/
def resCntClear (d : Dev) : Dev := d.clearRegs [RES_GATE_CNT, RES_GATE_LAT, RES_BIST_CNT, RES_SRAM_CNT]

def execResCntClear (s : State) : Out := s.onDev resCntClear

end Sys2Proof.Machine
end

