-- ==== Sys2Proof/Machine/ReadReg.lean ====
section
/-! DEFINITION. What a read of a register returns (R3 to R7): the word it holds, or a view of the unit's state where the
register shows one; reserved bits and write-only fields read 0. -/

namespace Sys2Proof.Machine

/-- A number as a register word, and a signed one. -/
def wd (n : Nat) : Word := BitVec.ofNat 32 n
def wdI (i : Int) : Word := BitVec.ofInt 32 i

/-- A number saturated at n bits. -/
def satN (n v : Nat) : Nat := min v (2 ^ n - 1)

/-- Low and high half of a 64-bit number, the high one when `hi`. -/
def half (hi : Bool) (v : Nat) : Word := wd (if hi then v / 2 ^ 32 % 2 ^ 32 else v)

/-- Word m of bytes, lowest first. -/
def wordOf (b : List Byte) (m : Nat) : Word := wd (field b (4 * m) 4)

/-! ### Views, block by block: `a` is the table's first address, `i` and `j` the array indices -/

/-- Ready bits of the Caddies (R61). -/
def readyBits (d : Dev) : Nat :=
  ((List.range 34).map fun c => if [cdRUNNING, cdDRAINING, cdBIST].contains (d.caddy c).state then 2 ^ c else 0).sum

/-- Dispatcher and word queues. -/
def viewDsp (d : Dev) (a i : Nat) : Option Word :=
  if a = DSP_STATUS then some (setBits (d.reg DSP_STATUS) 5 0 (runningCount d))
  else if a = DSP_CADDY_READY_LO then some (half false (readyBits d))
  else if a = DSP_CADDY_READY_HI then some (half true (readyBits d))
  else if a = DSP_TASKS_INUSE then some (wd d.dsp.tasks.length)
  else if a = DSP_CADDY_STATEn 0 then some (wd ((d.caddy i).state + 65536 * (if d.stage < 2 then 0x3F else ((d.caddy i).logical).getD 0x3F)))
  else if a = DSP_WQ_COUNTn 0 then some (wd (wqWords d i).length)
  else none

/-- Age in minutes of the oldest last run of the transmit kinds of a head, and in ms of its latest valid value; 0 before there is one. -/
def calMinutes (d : Dev) (p : Nat) : Nat :=
  match ([2, 3, 4].filterMap fun k => (Tab.find (d.head p).lastRun k).map (·.at?)) with
  | [] => 0
  | x :: xs => satN 16 ((d.ms - xs.foldl min x) / 60000)
def telemMs (d : Dev) (p : Nat) : Nat :=
  match (Tab.vals (d.head p).sensors).map (·.at?) with
  | [] => 0
  | x :: xs => satN 16 ((d.ns - xs.foldl max x) / 1000000)

/-- Head control: the head and sub-band of HC_SEL. (DEDUCED: log entry 16) (DEDUCED: log entry 132) -/
def viewHc (d : Dev) (a i : Nat) : Option Word :=
  let p := d.fld HC_SEL_head
  let k := d.fld HC_SEL_sub_band
  let h := d.head p
  let ok := lockValid d.hc.lock
  if a = HC_HEAD_STATUS then
    some (wd ((if d.stage = 0 then 0 else headHold d p) * 2 ^ 24 + b2n h.paOn * 2 ^ 12 + b2n h.trTx * 2 ^ 11 +
      b2n (h.calRunning.isSome || !h.tuning.isEmpty) * 2 ^ 10 + b2n h.rxReady * 2 ^ 9 + b2n h.txReady * 2 ^ 8 + h.rxGain % 32))
  else if a = HC_HEAD_TX then some (wd (ofSigned 16 (compShown d p) * 65536 + h.txCode % 65536))
  else if a = HC_HEAD_TELEM then some (wd (ofSigned 16 (vSupply d p) * 65536 + ofSigned 16 (tPa d p)))
  else if a = HC_HEAD_AGE then some (wd (telemMs d p * 65536 + calMinutes d p))
  else if a = HC_DUTY_USED then some (wd (dutyAccount d p k))
  else if a = HC_DUTY_LIMIT then some (wd (if ok then effDuty d p k * 3600 else 0))
  else if a = HC_LOCK_STATUS then
    some (wd ((if ok then field d.hc.lock 6 2 * 65536 + lockCount d.hc.lock * 256 else 0) + b2n (lockBlank d.hc.lock) * 2 + b2n (lockIntact d.hc.lock)))
  else if a = HC_LOCK_WINm 0 then 
    some (wordOf (if ok then d.hc.lock.take (16 + 56 * lockCount d.hc.lock) else d.hc.lock) i)
  else none

/-- The largest context rate of the modes a port detects, 10 kS/s (R155). -/
def portFch (d : Dev) (p : Nat) : Nat :=
  ((portModes d p).filterMap fun m => (phyFind d.phy m).map (modeRate d)).foldl max 0

/-- Reception: the port and channel of RX_SEL. (DEDUCED: log entry 16) -/
def viewRx (d : Dev) (a : Nat) : Option Word :=
  let p := d.fld RX_SEL_port
  let c := d.fld RX_SEL_channel
  let x := d.chan p c
  if a = RX_STATUS then
    some (wd ((d.rx.ctx.map fun e => ((d.task e.1).map fun t => if (taskEngine t).isSome then t.slots else 0).getD 0).sum * 65536 + d.rx.groups.length))
  else if a = RX_PORT_STATUS then
    some (wd (portFch d p * 65536 + b2n (decide (4 < ((List.range 32).filter (nbit (bpPhyMask d.band p))).length)) * 256 +
      (portModes d p).length))
  else if a = RX_CH_NOISE then some (wd (((noise d p c).map fun n => ofSigned 16 (dbm n)).getD 0))
  else if a = RX_CH_DET then some (wd (satN 16 x.det * 65536 + satN 16 x.false_))
  else if a = RX_CH_CAPTURE then some (wd (satN 12 x.opened * 2 ^ 20 + satN 12 x.replaced * 256 + satN 8 x.ignored))
  else none

/-- Transmission. -/
def viewTx (d : Dev) (a : Nat) : Option Word :=
  if a = TX_STATUS then
    some (wd (((d.dsp.engines.map fun e => txSlots d e.1).sum) * 65536 + ((d.tx.bursts.map fun e => e.1 % 131072).eraseDups).length))
  else none

def isFw : Sys2Proof.Master → Bool
  | .cc _ => true
  | _ => false

/-- A Control Complex holds an unreleased item for an address: its read waits (R419). (DEDUCED: log entry 18) (DESIGN CHOICE: log entry 131) -/
def itemHeld (d : Dev) (a : Nat) : Bool := (d.res.gate.a.items ++ d.res.gate.b.items).any fun x => x.addr == a

/-- The slotted MAC: the PAN of TS_ASN_SEL, the peer of TS_PEER_SEL. (DESIGN CHOICE: log entry 131) -/
def viewTs (d : Dev) (a i : Nat) : Option Word :=
  let k := d.fld TS_PEER_SEL_peer
  let x := d.peer k
  if a = TS_ASN_LO then some (half false (panAsn d (d.fld TS_ASN_SEL_pan)))
  else if a = TS_ASN_HI then some (half true (panAsn d (d.fld TS_ASN_SEL_pan)))
  else if a = TS_PEER_STATUS then some (wd (x.joinMetric % 256 * 2 ^ 24 + satN 8 x.misses * 65536 + b2n x.released * 256 + x.state))
  else if a = TS_PEER_OFFSET then some (wdI (peerMean d k / 65536))
  else if a = TS_CELL_STATUS then some (setBits (d.reg TS_CELL_STATUS) 8 8 (b2n (itemHeld d TS_CELL_CMD)))
  else if a = TS_ALLOC_RESULT then some (setBits (d.reg TS_ALLOC_RESULT) 16 16 (b2n (itemHeld d TS_ALLOC_REQ)))
  else if a = TS_ALLOC_COUNTp 0 then some (wd ((d.alloc i).quarantine.length * 65536 + (d.alloc i).used.length))
  else none

/-- The tables. -/
def viewTbl (d : Dev) (a i : Nat) : Option Word :=
  if a = TBL_STATUS then some (setBits (d.reg TBL_STATUS) 2 0 d.res.bankMap.length)
  else if a = TBL_ADDR_COUNT then some (wd (validEntries d 1 0x13).length)
  else if a = TBL_NODE_COUNTp 0 then some (wd (panNodes d i).length)
  else none

/-- Forwarding: the queue of FWD_QSEL. (DEDUCED: log entry 132) -/
def viewFwd (d : Dev) (a : Nat) : Option Word :=
  let q := qNum (d.fld FWD_QSEL_sector) (d.fld FWD_QSEL_dir) (d.fld FWD_QSEL_class)
  if a = FWD_STATUS ∧ 2 ≤ d.stage then some (setBits (d.reg FWD_STATUS) 31 16 (65535 - d.fwd.entries.length))
  else if a = FWD_Q_OCC then some (wd (qOcc d q))
  else if a = FWD_Q_DEF then some (wd (qDeficit d q))
  else if a = FWD_Q_DROP then some (wd ((Tab.getD d.fwd.drops q (0, 0)).1 * 65536 + (Tab.getD d.fwd.drops q (0, 0)).2))
  else none

/-- A value in 2^-16 ns as a signed word in 1/256 ns, saturating. -/
def in256 (v : Int) : Word := wdI (clampInt (v / 256) (-(2 ^ 31)) (2 ^ 31 - 1))

/-- The next valid source after the selected one in the order of Table TIME-3. -/
def nextSource (d : Dev) : Option Nat := (List.range 5).find? fun k => k != meshSel d && sourceOk d k

/-- Time: the base of TIM_TB_SEL; the views of every base. (DEDUCED: log entry 60) -/
def viewTim (d : Dev) (a i : Nat) : Option Word :=
  let n := d.fld TIM_TB_SEL_tb
  let t := d.tb n
  let v := d.tb i
  if a = TIM_STATUS then
    some (setBits (d.reg TIM_STATUS) 7 0 ((List.range 8).map fun k => b2n (d.tb k).locked * 2 ^ k).sum)
  else if a = TIM_MESH_D then some (((nextSource d).bind (meshD d)).elim 0 in256)
  else if a = TIM_TB_CTRL then some (wd (t.iSh * 65536 + t.pSh * 256 + b2n t.servoEn * 16 + b2n t.stepEn * 2))
  else if a = TIM_TB_STATUS then
    some (wd (t.role * 2 ^ 24 + satN 8 t.refused * 65536 + satN 8 t.epochs * 256 + b2n t.clamped * 4 + b2n t.locked * 2 + b2n t.stepped))
  else if a = TIM_TB_RATE then some (wdI t.rate)
  else if a = TIM_TB_THETA then some (in256 t.theta)
  else if a = TIM_TBn_NS_LO 0 then some (half false v.nanos)
  else if a = TIM_TBn_NS_HI 0 then some (half true v.nanos)
  else if a = TIM_TBn_SEC_LO 0 then some (half false v.sec)
  else if a = TIM_TBn_SEC_HI 0 then some (wd (v.frac / 2 ^ 32 * 65536 + v.sec / 2 ^ 32 % 65536))
  else if a = TIM_TBn_NSEC 0 then some (wd v.ns)
  else if a = KTL_RTC_SEC_LO then some (half false d.ktl.sec)
  else if a = KTL_RTC_SEC_HI then some (wd (d.ktl.tick % 32768 * 65536 + d.ktl.sec / 2 ^ 32 % 65536))
  else none

/-- Register set of SEC_ARG, SEC_OUT and SEC_CMD_STATUS a master reaches (Table KEY-15). -/
def secSet (m : Sys2Proof.Master) : Option Nat :=
  match m with
  | .cc true => some 0
  | .cc false => some 1
  | .debug => some 2
  | _ => none

/-- Security: the slot of SEC_SLOT_SEL, the log record of SEC_TAMPER_LOG_SEL, newest 0. (DEDUCED: log entry 132) -/
def viewSec (f : Fuses) (d : Dev) (m : Sys2Proof.Master) (a i j : Nat) : Option Word :=
  let s := d.fld SEC_SLOT_SEL_slot
  let log := d.vault.tlog[d.fld SEC_TAMPER_LOG_SEL_record]?
  if a = SEC_STATUS then
    some (setBits (setBits (setBits (d.reg SEC_STATUS) 31 24 (slotsBad f d)) 23 20 (if d.stage = 0 then 0 else sparesFree d)) 9 9 (b2n d.vault.hold))
  else if a = SEC_ENV_CTR_LO then some (half false d.vault.envCtr)
  else if a = SEC_ENV_CTR_HI then some (half true d.vault.envCtr)
  else if a = SEC_CMD_STATUS then some (wd (((secSet m).map fun k => (d.cmdSet k).result).getD 0))
  else if a = SEC_ARGm 0 then some (((secSet m).map fun k => Tab.getD (d.cmdSet k).arg i 0).getD 0)
  else if a = SEC_OUTm 0 then some (((secSet m).map fun k => wordOf (d.cmdSet k).out i).getD 0)
  else if a = SEC_SLOT_STATUS then
    some (wd ((Tab.getD d.vault.remap s (if d.stage = 0 then 0 else 0xF)) * 256 + b2n (((d.slot s).map (·.kekInvalid)).getD false) * 16 + slotState f d s))
  else if a = SEC_SLOT_ATTR_LO then some (half false (((d.slot s).map (·.attr)).getD 0))
  else if a = SEC_SLOT_ATTR_HI then some (half true (((d.slot s).map (·.attr)).getD 0))
  else if a = SEC_TAMPER_POLICY then some (wd (f.tamper % 65536))
  else if a = SEC_TAMPER_LOG0 then some (wd ((log.map (·.seconds)).getD 0))
  else if a = SEC_TAMPER_LOG1 then
    some (wd ((log.map fun r => r.seq % 65536 * 65536 + r.source * 256 + r.state * 16 + r.action).getD 0))
  else if a = SEC_MEASi_w 0 0 then some (wordOf (measureReg d i) j)
  else none

/-- Campaigns: the campaign of CMP_SEL. (DEDUCED: log entry 132) -/
def viewCmp (d : Dev) (a : Nat) : Option Word :=
  let c := d.camp (d.fld CMP_SEL_cnum)
  if a = CMP_STATUS ∧ 2 ≤ d.stage then
    some (wd ((d.tableEntries 7 - (d.cmp.camps.map (·.2.k)).sum) * 65536 + d.cmp.camps.length))
  else if a = CMP_CAMP_STATE then some (wd ((c.map fun x => x.state * 2 ^ 24 + x.k).getD 0))
  else if a = CMP_CAMP_ESI then some (wd ((c.map (·.esi)).getD 0))
  else if a = CMP_CAMP_NODES then some (wd ((c.map fun x => satN 16 x.ended * 65536 + satN 16 x.enrolled).getD 0))
  else none

/-- Time before fallback of a trial in s (R408). -/
def trialLeft (d : Dev) : Nat :=
  let left (from_ secs : Nat) : Nat := (from_ + secs * 1000000000 - d.ns) / 1000000000
  if !d.boot.trial then 0
  else if d.stage < 3 then left d.boot.porAt 60 else left d.boot.brewAt (bnTrial (runningBundle d))

/-- Start and update, identity. -/
def viewBoot (f : Fuses) (d : Dev) (a : Nat) : Option Word :=
  if a = BOOT_TRIAL_LEFT then some (wd (trialLeft d))
  else if a = BOOT_SNAP_STATUS then
    some (setBits (d.reg BOOT_SNAP_STATUS) 31 16 ((d.boot.counter.map fun c => satN 16 ((d.ns - c.at?) / 1000000000)).getD 0))
  else if a = HIF_REV then some (wd (f.rev % 65536))
  else none

/-- Seconds to the next swap or take-back (R426, R427); all ones when none is due. -/
def swapLeft (d : Dev) : Nat :=
  let g := d.res.gate
  let left (from_ secs : Nat) : Nat := (from_ + secs * 1000000000 - d.ns) / 1000000000
  let pair := (ccState d 0 == ccACTIVE && ccState d 1 == ccSTANDBY) || (ccState d 0 == ccSTANDBY && ccState d 1 == ccACTIVE)
  if g.failover then
    if ccState d 0 = ccSTANDBY ∧ d.bit RES_CTRL_revert_en then (if g.holdoffDone then 0 else left g.holdFrom 600) else 0xFFFFFFFF
  else if d.stage = 3 ∧ pair ∧ d.bit RES_CTRL_swap_en then left g.swapFrom (d.swapHours * 3600)
  else 0xFFFFFFFF

/-- Bases of role free that can donate their counter (R434), as the three bits show them. (DESIGN CHOICE: log entry 64) -/
def donors (d : Dev) : Nat := min 7 ((List.range 8).filter fun k => roleOf d k == trFREE && (d.tb k).counter.isSome).length

/-- Resilience. (DESIGN CHOICE: log entry 95) (DEDUCED: log entry 132) -/
def viewRes (f : Fuses) (d : Dev) (a : Nat) : Option Word :=
  if a = RES_CC_STATE then some (setBits (setBits (d.reg RES_CC_STATE) 4 4 (b2n (ccReady d 0))) 20 20 (b2n (ccReady d 1)))
  else if a = RES_GATE_TAG then some (wd (if d.fld RES_STATUS_active = 0 then d.res.gate.a else d.res.gate.b).tag)
  else if a = RES_SWAP_LEFT ∧ 1 ≤ d.stage then some (wd (swapLeft d))
  else if a = RES_SPARE_STATUS ∧ 2 ≤ d.stage then
    some (wd (fusesUsed f * 65536 + donors d * 4096 + (freeBanks d).length * 256 +
      ((List.range 34).filter fun c => (d.caddy c).state == cdSPARE).length))
  else if a = RES_FUNC_STATUS then 
    some (setBits (d.reg RES_FUNC_STATUS) 17 16 ((d.res.func.last.map fun k => fnState d (k / 65536) (k % 65536)).getD 0))
  else if a = RES_JRNL_STATUS then some (setBits (setBits (d.reg RES_JRNL_STATUS) 31 24 (fwOpen d)) 9 0 d.jrnl.ring.length)
  else none

/-- Telemetry: the entry of TEL_ALM_SEL. -/
def viewTel (d : Dev) (a i : Nat) : Option Word :=
  if a = TEL_ALM_ENTm 0 then some (wordOf (alarmBytes d (d.fld TEL_ALM_SEL_entry)) i) else none

/-- Host interface. (DESIGN CHOICE: log entry 19) -/
def viewHif (d : Dev) (a : Nat) : Option Word :=
  if a = HIF_HCQ_STATUS then some (setBits (d.reg HIF_HCQ_STATUS) 23 16 d.hif.running.length) else none

/-! ### A register read -/

/-- The view a register shows, if it shows one. -/
def viewReg (f : Fuses) (d : Dev) (m : Sys2Proof.Master) (a i j : Nat) : Option Word :=
  match a / 0x100000 with
  | 0 => viewBoot f d a
  | 1 => viewTim d a i
  | 3 => viewDsp d a i
  | 5 => viewHc d a i
  | 6 => viewRx d a
  | 7 => viewTx d a
  | 8 => viewTs d a i
  | 9 => viewTbl d a i
  | 10 => viewFwd d a
  | 11 => viewTim d a i
  | 12 => viewSec f d m a i j
  | 13 => viewCmp d a
  | 14 => viewRes f d a
  | 15 => if a < TEL_CTRL then viewHif d a else viewTel d a i
  | _ => none

/-- The bits of a register that a read shows: those of its fields, write-only ones apart (R4, R5). -/
def RegDesc.shown (r : RegDesc) : Word :=
  r.fields.foldl (fun w x => if x.acc = .wo then w else w ||| bitMask x.hi x.lo) 0

/-- The live word of the register at an address; 0 at an unassigned offset (R7). (DEDUCED: log entry 16) -/
def liveWord (f : Fuses) (d : Dev) (m : Sys2Proof.Master) (a : Nat) : Word :=
  match findReg a with
  | none => 0
  | some (r, ix) => ((viewReg f d m r.base (ix.getD 0 0) (ix.getD 1 0)).getD (d.reg a)) &&& r.shown

end Sys2Proof.Machine
end

