-- ==== Sys2Proof/Machine/EngineBus.lean ====
section
/-! DEFINITION. The ports of a PE's address map (Table CADDY-7): slot registers, the table request port, which firmware reaches too at
TBL_CREQ, and the Frame Security Unit port. -/

namespace Sys2Proof.Machine

/-! ### Table request port (Table TABLE-7) -/

/-- Replace word m of a byte string. -/
def putWord (bs : List Byte) (m : Nat) (w : Word) : List Byte := bs.take (4 * m) ++ le 4 w.toNat ++ bs.drop (4 * m + 4)

/-- Issue the request of an OP word: op, table, field offset and width, with what the port holds. An unknown op ends RANGE. -/
def reqIssue (d : Dev) (m : Sys2Proof.Master) (w : Nat) : Dev :=
  let x := d.reqPort m
  let t := nbits w 11 8
  let off := nbits w 23 16
  let wide := nbit w 15
  let i := nbits x.index 19 0
  let s := nbits x.index 27 24
  match nbits w 7 0 with
  | 1 => tableRead d m t i s
  | 2 => tableWrite d m t i x.data
  | 3 => tableLookup d m t (if t = 2 then hearKey s i else x.key) 0
  | 4 => tableInsert d m t i s x.key x.data
  | 5 => tableRemove d m t i s x.key
  | 6 => casField d m t i off wide x.arg x.new
  | 7 => addField d m t i off wide x.arg
  | 8 => maxField d m t i off wide x.arg
  | 9 =>
    if t = 2 then hearMergeOp d m s i (x.data.take 4) (slice x.data 4 8) (field x.data 12 1)
    else reqFail d m (if d.bit TBL_STATUS_accepting then tbNOT_PERMITTED else tbNOT_READY)
  | _ => reqFail d m (if d.bit TBL_STATUS_accepting then tbRANGE else tbNOT_READY)

/-- What a read of the port at an offset returns; the halves of ARG and NEW follow R9. -/
def reqRead (d : Dev) (m : Sys2Proof.Master) (a : Nat) : Word × Dev :=
  let x := d.reqPort m
  if a = 0x04 then (wd x.index, d)
  else if 0x10 ≤ a ∧ a < 0x20 then (wordOf x.key ((a - 0x10) / 4), d)
  else if a = 0x20 then (wd x.result, d)
  else if a = 0x24 then (wd (x.found % 2 ^ 20), d)
  else if a = 0x28 then (half false x.arg, d.capture m 0x90102C (half true x.arg))
  else if a = 0x2C then d.takeShadow m 0x90102C (half true x.arg)
  else if a = 0x30 then (half false x.new, d.capture m 0x901034 (half true x.new))
  else if a = 0x34 then d.takeShadow m 0x901034 (half true x.new)
  else if 0x40 ≤ a ∧ a < 0x80 then (wordOf x.data ((a - 0x40) / 4), d)
  else (0, d)

/-- A write of the port at an offset; the halves of ARG and NEW follow R9. -/
def reqWrite (d : Dev) (m : Sys2Proof.Master) (a : Nat) (w : Word) : Dev :=
  let x := d.reqPort m
  if a = 0x00 then reqIssue (d.setReqPort m { x with op := w.toNat }) m w.toNat
  else if a = 0x04 then d.setReqPort m { x with index := w.toNat &&& 0x0F0FFFFF }
  else if 0x10 ≤ a ∧ a < 0x20 then d.setReqPort m { x with key := putWord x.key ((a - 0x10) / 4) w }
  else if a = 0x28 ∨ a = 0x30 then d.hold m (0x901000 + a) w
  else if a = 0x2C then
    let (lo, d1) := d.takeHeld m 0x901028
    d1.setReqPort m { x with arg := w.toNat * 2 ^ 32 + lo.toNat }
  else if a = 0x34 then
    let (lo, d1) := d.takeHeld m 0x901030
    d1.setReqPort m { x with new := w.toNat * 2 ^ 32 + lo.toNat }
  else if 0x40 ≤ a ∧ a < 0x80 then d.setReqPort m { x with data := putWord x.data ((a - 0x40) / 4) w }
  else d

/-! ### Slot registers (Table CADDY-8) -/

/-- The task in service on an engine. -/
def slotTask (d : Dev) (e : Nat) : Option Task := ((d.engine e).tasks.head?).bind d.task

/-- A read of a slot register by the engine: the word, and the state after a capture or a pop. -/
def slotRead (d : Dev) (e a : Nat) : Word × Dev :=
  let x := d.engine e
  let m := Sys2Proof.Master.engine e
  if a < 0x20 then ((((slotTask d e).map fun t => wordOf t.d.bytes (a / 4)).getD 0), d)
  else if a = 0x20 then
    let dr := x.draining || (d.caddy (e / 16)).state == cdDRAINING
    let pa := ((slotTask d e).map (·.predAborted)).getD false
    (wd (e % 16 * 65536 + e / 16 * 256 + 2 * b2n dr + b2n pa), d)
  else if a = 0x28 then (wd x.step, d)
  else if a = 0x30 then (half false d.ns, d.capture m 0x10034 (half true d.ns))
  else if a = 0x34 then d.takeShadow m 0x10034 (half true d.ns)
  else if a = 0x60 then (wd x.subStatus, d)
  else if a = 0x70 then (wd x.wqSel, d)
  else if a = 0x74 then (wd (wqWords d x.wqSel).length, d)
  else if a = 0x88 then wqPopLo d m x.wqSel
  else if a = 0x8C then wqPopHi d m x.wqSel
  else (0, d)

/-- A write of a slot register by the engine. -/
def slotWrite (d : Dev) (e a : Nat) (w : Word) : Dev :=
  let x := d.engine e
  let m := Sys2Proof.Master.engine e
  if a = 0x24 then slotDone d e (nbits w.toNat 7 0)
  else if a = 0x28 then d.setEngine e { x with step := nbits w.toNat 15 0 }
  else if 0x40 ≤ a ∧ a < 0x60 then
    let k := (a - 0x40) / 4
    let sub := (x.sub ++ List.replicate 8 0).take k ++ [w] ++ (x.sub ++ List.replicate 8 0).drop (k + 1)
    let d1 := d.setEngine e { x with sub := sub.take 8 }
    if k = 7 then slotSubmit d1 e ((sub.take 8).flatMap fun y => le 4 y.toNat) else d1
  else if a = 0x70 then d.setEngine e { x with wqSel := nbits w.toNat 7 0 }
  else if a = 0x80 then d.hold m 0x10080 w
  else if a = 0x84 then
    let (lo, d1) := d.takeHeld m 0x10080
    (wqPush d1 x.wqSel (endpointOf d1 m) (Word64.ofHalves w lo)).1
  else d

/-! ### Frame Security Unit port (Table KEY-10) -/

/-- A read of the unit port: node and counter as written or as PARSE left them, the status. -/
def fsuRead (d : Dev) (e a : Nat) : Word :=
  let x := d.fsu e
  if a = 0x04 then wd x.buf
  else if a = 0x08 then wd x.node
  else if a = 0x0C then wd x.fc
  else if a = 0x10 then wd (x.level * 2 ^ 24 + b2n x.keyFound * 65536 + x.result)
  else 0

/-- A write of the unit port. An operation that is none of R364 ends RANGE. -/
def fsuWrite (f : Fuses) (d : Dev) (e a : Nat) (w : Word) : Dev :=
  let x := d.fsu e
  if a = 0x00 then
    match nbits w.toNat 7 0 with
    | 1 => fsuParse d e x.buf x.node
    | 2 => fsuVerify e x.buf x.node f d
    | 3 => fsuSecure e x.buf x.node x.fc f d
    | _ => fsuEnd d e scRANGE
  else if a = 0x04 then d.setFsu e { x with buf := w.toNat }
  else if a = 0x08 then d.setFsu e { x with node := w.toNat &&& 0x017FFFFF }
  else if a = 0x0C then d.setFsu e { x with fc := w.toNat }
  else d

/-! ### The map -/

/-- A PE; SEs have no ports. -/
def isPe (e : Nat) : Bool := decide (8 ≤ e % 16) && decide (e / 16 ≤ 33)

/-- Addresses of Table CADDY-7. -/
def inMap (a : Nat) : Bool := decide (a < 0x10100) || (decide (0x11000 ≤ a) && decide (a < 0x12000))

/-- An access of an RV32 core: a byte, a half word or a word, aligned. -/
def aligned (a len : Nat) : Bool := (len == 1 || len == 2 || len == 4) && a % len == 0

/-- A word of a port: a slot register, or of the request port. -/
def portRead (d : Dev) (e a : Nat) : Word × Dev :=
  if a < 0x11000 then slotRead d e (a - 0x10000)
  else if a < 0x11080 then reqRead d (.engine e) (a - 0x11000)
  else if 0x11800 ≤ a ∧ a < 0x11820 then (fsuRead d e (a - 0x11800), d)
  else (0, d)

/-- A read of `len` bytes by an engine: local memory, or the bytes of a port's register; misaligned or outside the maps of Table CADDY-7 an
engine fault (R80). (DEDUCED: log entry 112) -/
def engineRead (d : Dev) (e a len : Nat) : Nat × Dev :=
  if !isPe e then (0, d)
  else if !aligned a len || !inMap a then (0, engineFault d e)
  else if a < 0x10000 then (localRead d e a len, d)
  else
    let r := portRead d e (a / 4 * 4)
    (r.1.toNat / 256 ^ (a % 4) % 256 ^ len, r.2)

/-- A write by an engine: data and stack, or a port's register, which a narrow write leaves as it is (R3, R88); misaligned, outside the maps
or into the image an engine fault. (DEDUCED: log entry 112) -/
def engineWrite (f : Fuses) (d : Dev) (e a len : Nat) (v : Nat) : Dev :=
  let w : Word := BitVec.ofNat 32 v
  if !isPe e then d
  else if !aligned a len || !inMap a || decide (a < 0xA000) then engineFault d e
  else if a < 0x10000 then localWrite d e a (le len v)
  else if len < 4 then d
  else if a < 0x11000 then slotWrite d e (a - 0x10000) w
  else if a < 0x11080 then reqWrite d (.engine e) (a - 0x11000) w
  else if 0x11800 ≤ a ∧ a < 0x11820 then fsuWrite f d e (a - 0x11800) w
  else d

end Sys2Proof.Machine
end

