-- ==== Sys2Proof/Machine/Pair.lean ====
section
/-! DEFINITION. The Control Complex pair (15_resilience.md R422 to R428): isolation, tests, resynchronisation, roles. -/

namespace Sys2Proof.Machine

/-- Complex 0 CC-A, 1 CC-B, and replacing it. -/
def Dev.cc (d : Dev) (k : Nat) : Complex := if k = 0 then d.res.gate.a else d.res.gate.b
def Dev.setGate (d : Dev) (g : Gate) : Dev := { d with res := { d.res with gate := g } }
def Dev.setComplex (d : Dev) (k : Nat) (x : Complex) : Dev :=
  d.setGate (if k = 0 then { d.res.gate with a := x } else { d.res.gate with b := x })

/-- The complex whose state is ACTIVE, and the other one when it is STANDBY: the pair that the gate compares. -/
def activeCc (d : Dev) : Option Nat := if ccState d 0 = ccACTIVE then some 0 else if ccState d 1 = ccACTIVE then some 1 else none
def pairCc (d : Dev) : Option (Nat × Nat) := (activeCc d).bind fun a => if ccState d (1 - a) = ccSTANDBY then some (a, 1 - a) else none

/-- A complex becomes ACTIVE; RES_STATUS shows it. -/
def activate (d : Dev) (k : Nat) : Dev := (setCc d k ccACTIVE).setFld RES_STATUS_active k

/-- The counter of tests failed since the last STANDBY. -/
def ccTests (k : Nat) : Fld := if k = 0 then RES_CC_STATE_a_tests else RES_CC_STATE_b_tests

/-- Complex k is isolated (R424): its items go, it is powered down, up and tested, unless RES_FUNC_CMD has disabled it. -/
def isolateCc (d : Dev) (k : Nat) : Dev :=
  let off := d.res.func.disabled.contains (fnKey 6 k)
  let d1 := (setCc (d.setComplex k ⟨(d.cc k).mem, [], 0, 0⟩) k (if off then ccISOLATED else ccTESTING)).setBit RES_STATUS_uncovered true
  if d.res.gate.isolate = some k then d1.setGate { d1.res.gate with isolate := none } else d1

/-- The standby takes over from the active (a failover): the swap suspension of R426 and the hold-off of R427 follow a failover from CC-A. (DESIGN CHOICE: log entry 88) -/
def failover (d : Dev) (failed : Nat) : Dev :=
  let d1 := activate (isolateCc d failed) (1 - failed)
  raise (d1.setGate { d1.res.gate with failover := failed == 0, holdoffDone := false }) 211 (1 - failed) 0

/-- A test of Table RES-1 or R424 names CC-A as failing: the hold-off of a take-back starts again. -/
def restartHold (d : Dev) (k : Nat) : Dev :=
  if k = 0 ∧ d.res.gate.failover then d.setGate { d.res.gate with holdoffDone := false, holdFrom := d.ns } else d

/-- The full test of an isolated complex ends (R424). -/
def ccTestDone (d : Dev) (k : Nat) (pass : Bool) : Dev :=
  if 2 ≤ k ∨ ccState d k ≠ ccTESTING then d
  else if pass then setCc d k ccSYNCING
  else setCc (d.inc (ccTests k)) k ccISOLATED

def execCcTestDone (cc : Nat) (pass : Bool) (s : State) : Out := s.onDev fun d => ccTestDone d cc pass

/-- An ISOLATED complex that is not disabled is tested again. -/
def ccRetest (d : Dev) (k : Nat) : Dev :=
  if 2 ≤ k ∨ ccState d k ≠ ccISOLATED ∨ d.res.func.disabled.contains (fnKey 6 k) then d else ccWake (setCc d k ccTESTING) k

/-- Every 10 minutes, at most 6 times (R424). -/
def retestTimer (d : Dev) (k : Nat) : Dev :=
  if 6 ≤ (d.cc k).retests then d
  else
    let d1 := ccRetest d k
    if ccState d1 k = ccState d k then d else d1.setComplex k { d1.cc k with retests := (d1.cc k).retests + 1 }

def execCcRetestTimer (cc : Nat) (s : State) : Out := s.onDev fun d => retestTimer d cc

/-- A write of 1 to RES_CC_CTRL.retest, the complex selected by RES_CC_CTRL.cc. -/
def execCcRetest (cc : Nat) (s : State) : Out := s.onDev fun d => ccRetest (d.setFld RES_CC_CTRL_cc cc) (cc % 2)

/-- A write of 1 to RES_CC_CTRL.isolate (R428): taken for the next window close, or ignored with ONLY_ONE. -/
def ccIsolate (d : Dev) (k : Nat) : Dev :=
  if ccState d (1 - k) ≠ ccSTANDBY then d.setFld RES_GATE_LAST_outcome 6
  else d.setGate { d.res.gate with isolate := some k }

def execCcIsolate (cc : Nat) (s : State) : Out := s.onDev fun d => ccIsolate (d.setFld RES_CC_CTRL_cc cc) (cc % 2)

/-- Resynchronisation of a SYNCING complex completes (R423): it is STANDBY with the active's state; coverage is whole again, and a
CC-A that failed begins its hold-off. -/
def resyncDone (d : Dev) (k : Nat) : Dev :=
  match activeCc d with
  | none => d
  | some a =>
    if 2 ≤ k ∨ ccState d k ≠ ccSYNCING then d
    else
      let d1 := (setCc (d.setComplex k { d.cc a with retests := 0 }) k ccSTANDBY).setBit RES_STATUS_uncovered false
      restartHold (d1.setFld (ccTests k) 0) k

def execResyncDone (cc : Nat) (s : State) : Out := s.onDev fun d => resyncDone d cc

/-- The role-swap interval has run (R426): from Full Brew, with swaps on and no failover to be taken back. (DEDUCED: log entry 89) -/
def swapDue (d : Dev) : Dev :=
  if d.stage = 3 ∧ d.bit RES_CTRL_swap_en ∧ !d.res.gate.failover then d.setGate { d.res.gate with swapDue := true } else d

def execSwapDue (s : State) : Out := s.onDev swapDue

/-- TB4 ns of the next slotframe-0 boundary of the lowest running PAN; now when none runs. (DEDUCED: log entry 89) -/
def takeBackAt (d : Dev) : Nat :=
  match (runningPans d).head? with
  | none => d.ns
  | some p =>
    let len := ((panFrame d.bld.cfg p 0).map (·.length)).getD 1
    slotStart d p ((panAsn d p / len + 1) * len)

/-- The hold-off of a take-back has ended (R427). -/
def holdoffEnd (d : Dev) : Dev :=
  if d.res.gate.failover ∧ ccState d 0 = ccSTANDBY ∧ !d.res.gate.holdoffDone then
    d.setGate { d.res.gate with holdoffDone := true, boundary := takeBackAt d }
  else d

def execTakebackHoldoffExpiry (s : State) : Out := s.onDev holdoffEnd

/-- Roles swap (R426); `cause` 2 swap, 3 take-back, as the journal notes it. -/
def swapRoles (d : Dev) (active standby cause : Nat) : Dev :=
  let d1 := activate (setCc d active ccSTANDBY) standby
  let d2 := jNote d1 0x0B 3 jNOTE cause 0 0 0 0
  d2.setGate { d2.res.gate with swapDue := false, swapFrom := d2.ns }

/-- A swap or a take-back at a window close with equal digests. -/
def rolesAtClose (d : Dev) : Dev :=
  match pairCc d with
  | none => d
  | some (a, b) =>
    let g := d.res.gate
    if g.failover then
      if b = 0 ∧ g.holdoffDone ∧ g.boundary ≤ d.ns ∧ d.bit RES_CTRL_revert_en then
        let d1 := swapRoles d a b 3
        raise (d1.setGate { d1.res.gate with failover := false, holdoffDone := false }) 212 0 0
      else d
    else if g.swapDue ∧ d.bit RES_CTRL_swap_en then swapRoles d a b 2
    else d

end Sys2Proof.Machine
end

