-- ==== Sys2Proof/Machine/Telemetry.lean ====
section
/-! DEFINITION. Commands of telemetry (16_telemetry.md R446 to R460). Raising events, the alarm table and staging stand in Events.lean. -/

namespace Sys2Proof.Machine

/-! ### Pending bits (R448, R449) -/

/-- Vectors of the sources of a set of bits of TEL_PENDm whose class sends interrupts, each once. -/
def vectorsOf (d : Dev) (m : Nat) (bits : Word) : List Nat :=
  (((List.range 32).filter fun k => bits.getLsbD k && decide ((sourceOf d (32 * m + k)).cls ≤ 1)).map fun k =>
    (sourceOf d (32 * m + k)).vector).eraseDups

/-- A W1C write to TEL_PENDm: a vector of a cleared bit that still has an unmasked one pending sends its message. -/
def pendingClear (d : Dev) (m : Nat) (w : Word) : Dev :=
  let was := d.reg (TEL_PENDm m)
  let d1 := d.setReg (TEL_PENDm m) (was &&& ~~~ w)
  (vectorsOf d m (was &&& w)).foldl (fun a v => if vectorPending a v then sendVector a v else a) d1

def execPendingClear (m : Nat) (w : Word) (s : State) : Out := s.onDev fun d => if m < 8 then pendingClear d m w else d

/-- A write to TEL_MASKm: a vector of a pending bit that it unmasks sends its message. -/
def maskWrite (d : Dev) (m : Nat) (w : Word) : Dev :=
  let open_ := d.reg (TEL_MASKm m) &&& ~~~ w &&& d.reg (TEL_PENDm m)
  (vectorsOf d m open_).foldl sendVector (d.setReg (TEL_MASKm m) w)

def execMaskWrite (m : Nat) (w : Word) (s : State) : Out := s.onDev fun d => if m < 8 then maskWrite d m w else d

/-- Firmware clears bits of TEL_CCPENDm; the CC lines are a view of what stays. -/
def ccpendClear (d : Dev) (m : Nat) (w : Word) : Dev := d.setReg (TEL_CCPENDm m) (d.reg (TEL_CCPENDm m) &&& ~~~ w)

def execCcpendClear (m : Nat) (w : Word) (s : State) : Out := s.onDev fun d => if m < 8 then ccpendClear d m w else d

/-- TEL_ALM_ACK (R451). -/
def execTelAlmAck (entry seen : Nat) (s : State) : Out := s.onDev fun d => alarmAck d (entry % 512) (seen % 65536)

/-- TEL_FW_RAISE: sources FW0 to FW7. -/
def fwRaise (d : Dev) (fw unit : Nat) : Dev := raise d (248 + fw % 8) (unit % 65536) 0

def execFwRaise (fw unit : Nat) (s : State) : Out := s.onDev fun d => fwRaise d fw unit

/-! ### Units (R455, R458) -/

/-- The 48 bytes of the next unit of a kind on a path, and the path with it counted. (DESIGN CHOICE: log entry 96) -/
def telUnit (x : TelPath) (kind : Nat) (body : List Byte) : List Byte × TelPath :=
  ([0x54, 0x55] ++ le 1 kind ++ [0] ++ le 4 (Tab.getD x.seq kind 0) ++ le 4 (Tab.getD x.lost kind 0) ++ zeros 4 ++ fit 32 body,
   { x with seq := Tab.put x.seq kind ((Tab.getD x.seq kind 0 + 1) % 2 ^ 32), lost := Tab.del x.lost kind })

/-- The send-pending bit of an alarm entry on a path, with 100 ms since its last sending. -/
def alarmDue (d : Dev) (p : Nat) (a : Alarm) : Bool :=
  (if p = 0 then a.pendRing else a.pendEth) &&
    ((if p = 0 then a.sentRing else a.sentEth).map fun t => decide (t + 100 ≤ d.ms)).getD true

/-- An alarm entry has been sent on a path. -/
def alarmSent (d : Dev) (p : Nat) (a : Alarm) : Alarm :=
  if p = 0 then { a with pendRing := false, sentRing := some d.ms } else { a with pendEth := false, sentEth := some d.ms }

/-- The oldest staged unit of the lowest kind. -/
def stagedFirst (l : List TelUnit) : Option TelUnit := [2, 3, 4, 5].findSome? fun k => l.find? fun u => u.kind == k

/-- Take the unit a path sends next: alarm entries ahead of every staged unit. -/
def takeUnit (d : Dev) (p : Nat) : Option (List Byte × Dev) :=
  match if pathTakes d p 1 then d.tel.alarms.find? fun e => alarmDue d p e.2 else none with
  | some (k, a) =>
    let (b, x) := telUnit (pathOf d p) 1 (alarmBytes d k)
    let d1 := setPath d p x
    some (b, { d1 with tel := { d1.tel with alarms := Tab.put d1.tel.alarms k (alarmSent d p a) } })
  | none => (stagedFirst (pathOf d p).staged).map fun u =>
    let (b, x) := telUnit (pathOf d p) u.kind u.body
    (b, setPath d p { x with staged := x.staged.erase u })

/-- Units a path has at most: the bound of a sending run. -/
def unitBound (d : Dev) (p : Nat) : Nat := (pathOf d p).staged.length + d.tel.alarms.length

/-! ### The ring (R456) -/

/-- The ring is full. -/
def ringFull (d : Dev) : Bool :=
  (d.fld TEL_RING_PROD_index + 1) % ringSize d TEL_RING_CFG_size_log2 == d.fld TEL_RING_CONS_index % ringSize d TEL_RING_CFG_size_log2

/-- Write units while there are some and the ring has room; fuel bounds them. (DESIGN CHOICE: log entry 96) -/
def ringWrite : Nat → Dev → Dev
  | 0, d => d
  | n + 1, d =>
    if ringFull d then d
    else match takeUnit d 0 with
      | none => d
      | some (b, d1) =>
        let k := d.fld TEL_RING_PROD_index
        ringWrite n (advance (d1.emit (.hostWrite (d.reg64 TEL_RING_BASE_LO + 48 * k) b)) TEL_RING_PROD_index TEL_RING_CFG_size_log2)

/-- The host path writes what is ready, then sends its vector. -/
def ringSend (d : Dev) : Dev :=
  if !d.bit TEL_RING_CFG_en then d
  else
    let d1 := ringWrite (unitBound d 0) d
    if d1.fld TEL_RING_PROD_index = d.fld TEL_RING_PROD_index then d1 else sendLimited d1 (d1.fld TEL_RING_CFG_vector)

def execTeleRingSend (s : State) : Out := s.onDev ringSend

/-- TEL_RING_CONS. -/
def ringCons (d : Dev) (v : Nat) : Dev := if ringSize d TEL_RING_CFG_size_log2 ≤ v then d else d.setFld TEL_RING_CONS_index v

def execRingConsWrite (index : Nat) (s : State) : Out := s.onDev fun d => ringCons d index

/-! ### Datagrams (R457) -/

/-- Up to n units of the Ethernet path. -/
def takeUnits : Nat → Dev → List (List Byte) × Dev
  | 0, d => ([], d)
  | n + 1, d => match takeUnit d 1 with
    | none => ([], d)
    | some (b, d1) => let (l, d2) := takeUnits n d1; (b :: l, d2)

/-- TEL_ETH_DST as an address. -/
def telDest (d : Dev) : List Byte := (List.range 4).flatMap fun m => le 4 (d.reg (TEL_ETH_DSTm m)).toNat

/-- ns that `n` bytes take at the rate of TEL_ETH_RATE, in 10 kb/s. (DESIGN CHOICE: log entry 134) -/
def rateNs (d : Dev) (n : Nat) : Nat := n * 800000 / d.fld TEL_ETH_RATE_rate

/-- The Ethernet path sends a datagram of 1 to 8 units on the lowest port of its mask whose link is up. (DESIGN CHOICE: log entry 96) (DESIGN CHOICE: log entry 134) -/
def datagramSend (d : Dev) : Dev :=
  match (List.range 4).find? fun e => nbit (d.fld TEL_ETH_CFG_eth_mask) e && ethUp d e with
  | none => d
  | some e =>
    if !d.bit TEL_ETH_CFG_en || decide (d.ns < d.tel.dgramFrom) then d
    else
      let (us, d1) := takeUnits 8 d
      if us.isEmpty then d
      else
        let from_ := d1.ns + rateNs d1 (8 + 48 * us.length)
        let d2 := { d1 with tel := { d1.tel with dgramSeq := (d1.tel.dgramSeq + 1) % 2 ^ 32, dgramFrom := from_ } }
        d2.emit (.datagram e (mgmtAddr d) (telDest d) (d.fld TEL_ETH_CFG_dst_port) (d.fld TEL_ETH_CFG_dscp) ([0x54, 0x44, 0x01] ++ le 1 us.length ++ le 4 d.tel.dgramSeq ++ us.flatten))

def execTeleDatagramSend (s : State) : Out := s.onDev datagramSend

/-! ### Storm mode and counters -/

/-- Both paths have stayed below 25 % for 100 ms (R459). -/
def stormEnd (d : Dev) : Dev :=
  match d.tel.storm with
  | none => d
  | some st =>
    if pathCap d ≤ 4 * d.tel.ring.staged.length ∨ pathCap d ≤ 4 * d.tel.eth.staged.length then d
    else
      let d1 := ({ d with tel := { d.tel with storm := none } }).setBit TEL_STATUS_storm false
      raiseRaw 2 (traceRaw d1 (traceRec d1 0x60 1 0 0 (le 4 st.n ++ le 4 st.out))).1 240 0 1

def execStormEnd (s : State) : Out := s.onDev stormEnd

/-- TEL_CTRL.cnt_clear. -/
def telCntClear (d : Dev) : Dev := d.clearRegs [TEL_LOSSp_A 0, TEL_LOSSp_B 0, TEL_LOSSp_A 1, TEL_LOSSp_B 1, TEL_CNT_LOCAL]

def execTelCntClear (s : State) : Out := s.onDev telCntClear

end Sys2Proof.Machine
end

