-- ==== Sys2Proof/Machine/RegWrite.lean ====
section
/-! DEFINITION. What a write of a register does (R4 to R6), block by block: its RW fields take the value unless the encoding is reserved, W1C
bits clear, and the write of a W1S bit or of a command register acts. -/

namespace Sys2Proof.Machine

/-! ### Plain fields -/

/-- One field of a write: the word so far, the field changed as its access type says. -/
def writeField (w acc : Word) (x : FieldDesc) : Word :=
  match x.acc with
  | .rw =>
    let v := getBits w x.hi x.lo
    if x.reserved.any fun r => decide (r.1 ≤ v) && decide (v ≤ r.2) then acc else setBits acc x.hi x.lo v
  | .w1c => acc &&& ~~~ (w &&& bitMask x.hi x.lo)
  | _ => acc

/-- The RW and W1C fields of a register after a write. -/
def writeWord (r : RegDesc) (old w : Word) : Word := r.fields.foldl (writeField w) old

def plainWrite (d : Dev) (r : RegDesc) (a : Nat) (w : Word) : Dev := d.setReg a (writeWord r (d.reg a) w)

/-- A written word whose field keeps its present value. -/
def keepFld (d : Dev) (x : Fld) (w : Word) : Word := setBits w x.hi x.lo (d.fld x)

/-- A one-bit field is written 1. -/
def hit (w : Word) (x : Fld) : Bool := getBits w x.hi x.lo == 1

/-- Act when a bit is written 1. -/
def onHit (w : Word) (x : Fld) (g : Dev → Dev) (d : Dev) : Dev := if hit w x then g d else d

/-- Numbers of a written field. -/
def wf (w : Word) (x : Fld) : Nat := getBits w x.hi x.lo

/-! ### Blocks: `r` is the description, `a` the address, `i` and `j` the array indices, `w` the word -/

/-- DESIGN CHOICE: log entry 26. -/
def writeBld (d : Dev) (r : RegDesc) (a : Nat) (w : Word) : Dev :=
  if a = BLD_DATA then bldData d w
  else if a = BLD_CTRL then onHit w BLD_CTRL_abort blendAbort (onHit w BLD_CTRL_start blendStart (plainWrite d r a w))
  else plainWrite d r a w

/-- The eight words of a submission window, the last one written now. -/
def subBytes (d : Dev) (first : Nat) (w : Word) : List Byte :=
  (List.range 7).flatMap (fun k => le 4 (d.reg (first + 4 * k)).toNat) ++ le 4 w.toNat

def writeDsp (d : Dev) (r : RegDesc) (a i : Nat) (w : Word) : Dev :=
  let b := r.base
  if a = DSP_CTRL then
    onHit w DSP_CTRL_err_clear (fun e => e.clearReg DSP_ERR) (onHit w DSP_CTRL_cnt_clear dspCntClear (plainWrite d r a w))
  else if a = DSP_CNT_SEL then cntSelect d (wf w DSP_CNT_SEL_caddy) (wf w DSP_CNT_SEL_unit)
  else if b = DSP_HSUBm 0 then (if i = 7 then hsubSubmit d (subBytes d b w) else d.setReg a w)
  else if b = DSP_CSUBm 0 then (if i = 7 then csubSubmit d (subBytes d b w) else d.setReg a w)
  else if a = DSP_WQ_ERR_CLR then d.clearReg (DSP_WQ_ERRn (getBits w 7 0))
  else if b = DSP_WQ_CFGn 0 then wqCfgWrite d i w
  else plainWrite d r a w

/-- YL_TEST: the mode changes in DISABLED and DOWN only (R122); prbs from 0 to 1 clears the error count. -/
def ylTest (d : Dev) (r : RegDesc) (a p : Nat) (w : Word) : Dev :=
  let w1 := if d.portState p = ylDISABLED ∨ d.portState p = ylDOWN then w else keepFld d (YL_TEST_mode p) w
  let d1 := plainWrite d r a w1
  if !d.bit (YL_TEST_prbs p) && d1.bit (YL_TEST_prbs p) then d1.clearReg (YL_PRBS_ERR p) else d1

def writeYl (d : Dev) (r : RegDesc) (a p : Nat) (w : Word) : Dev :=
  let b := r.base
  if b = YL_CTRL 0 then onHit w (YL_CTRL_relink p) (portRelink · p) (if hit w (YL_CTRL_enable p) then portEnable d p else portDisable d p)
  else if b = YL_ERR_CLR 0 then onHit w (YL_ERR_CLR_clear p) (ylErrClr · p) d
  else if b = YL_TEST 0 then ylTest d r a p w
  else plainWrite d r a w

def writeHc (d : Dev) (r : RegDesc) (a : Nat) (w : Word) : Dev :=
  if a = HC_CTRL then onHit w HC_CTRL_recal_req recalRequest (txInhibit d (hit w HC_CTRL_tx_inhibit))
  else if a = HC_CNT_CLR then onHit w HC_CNT_CLR_clear hcCntClr d
  else plainWrite d r a w

def writeRx (d : Dev) (r : RegDesc) (a : Nat) (w : Word) : Dev :=
  if a = RX_CTRL then onHit w RX_CTRL_cnt_clear rxCntClear (plainWrite d r a w) else plainWrite d r a w

def writeTx (d : Dev) (r : RegDesc) (a i : Nat) (w : Word) : Dev :=
  if a = TX_CTRL then onHit w TX_CTRL_cnt_clear txCntClear d
  else if r.base = TX_LOOPn 0 then txLoopWrite d i w
  else plainWrite d r a w

/-- TS_CELL_CMD: the operation on TS_CELL_IDX with TS_CELL_DATA; ignored while one of firmware waits at the Commit Gate, which firmware's own is
when it comes (R235). (DESIGN CHOICE: log entry 131) -/
def cellCmd (d : Dev) (m : Sys2Proof.Master) (op : Nat) : Dev :=
  let k := d.fld TS_CELL_IDX_index
  if itemHeld d TS_CELL_CMD && !isFw m then d
  else if op = 1 then cellWrite d (.master m) k (d.reg64 TS_CELL_DATA_LO)
  else if op = 2 then cellInvalidate d (.master m) k
  else if op = 3 then cellRead d (.master m) k
  else d

def writeTs (d : Dev) (m : Sys2Proof.Master) (r : RegDesc) (a : Nat) (w : Word) : Dev :=
  if a = TS_CTRL then onHit w TS_CTRL_cnt_clear tsCntClear (setPanRun d (wf w TS_CTRL_pan_run))
  else if a = TS_CELL_CMD then cellCmd d m (wf w TS_CELL_CMD_op)
  else if a = TS_ALLOC_REQ then
    if hit w TS_ALLOC_REQ_op then addrFree d (.master m) (wf w TS_ALLOC_REQ_pan) (wf w TS_ALLOC_REQ_address)
    else addrAlloc d (.master m) (wf w TS_ALLOC_REQ_pan)
  else plainWrite d r a w

def writeTbl (d : Dev) (r : RegDesc) (a : Nat) (w : Word) : Dev :=
  if a = TBL_CTRL then onHit w TBL_CTRL_cnt_clear tblCntClear (plainWrite d r a w) else plainWrite d r a w

def writeFwd (d : Dev) (r : RegDesc) (a : Nat) (w : Word) : Dev :=
  if a = FWD_CTRL then
    onHit w FWD_CTRL_cnt_clear fwdCntClear (bhDownWrite (plainWrite d r a (keepFld d FWD_CTRL_bh_down w)) (hit w FWD_CTRL_bh_down))
  else if a < FWD_DSCP_MAPm 0 then backhaulChanged (plainWrite d r a w)
  else plainWrite d r a w

/-- TIM_TB_CTRL of the selected base; epoch_open after the fields. -/
def tbCtrl (d : Dev) (w : Word) : Dev :=
  let n := d.fld TIM_TB_SEL_tb
  let t := d.tb n
  onHit w TIM_TB_CTRL_epoch_open epochOpen (d.setTb n { t with
    iSh := wf w TIM_TB_CTRL_i_sh, pSh := wf w TIM_TB_CTRL_p_sh, servoEn := hit w TIM_TB_CTRL_servo_en, stepEn := hit w TIM_TB_CTRL_step_en })

/-- The Strainer limits of R505. -/
def tolMax (d : Dev) : Nat := if field (d.sec 11 0xFFFF) 8 1 = 0 then 255 else field (d.sec 11 0xFFFF) 8 1
def rateMax (d : Dev) : Nat := if field (d.sec 11 0xFFFF) 10 2 = 0 then 10000 else field (d.sec 11 0xFFFF) 10 2

def writeTim (d : Dev) (r : RegDesc) (a : Nat) (w : Word) : Dev :=
  if a = TIM_CTRL then onHit w TIM_CTRL_cnt_clear timCntClear (plainWrite d r a w)
  else if a = TIM_TB_CTRL then tbCtrl d w
  else if a = TIM_TB_RATE then rateWrite d w
  else if a = TIM_TB_SAMPLE then sampleWrite d w.toInt
  else if a = TIM_PPS_CFG then
    plainWrite d r a (if tolMax d < wf w TIM_PPS_CFG_tol then keepFld d TIM_PPS_CFG_tol w else w)
  else plainWrite d r a w

/-- Bytes of an envelope that SEC_ARG names: of the Packet Buffer of that handle, else of host memory, which the write does not show. (DESIGN CHOICE: log entry 67) -/
def envelopeBytes (d : Dev) (a : Nat) : List Byte × Dev :=
  if (Tab.find d.pbm.bufs a).isSome then (fit 336 (bufGet d a), d) else d.drawBytes 336

/-- SEC_CMD (R372): the command of a code with the master's arguments; a code without a command has no listed master. (DESIGN CHOICE: log entry 65) -/
def secCmd (m : Sys2Proof.Master) (code : Nat) (f : Fuses) (d : Dev) : Fuses × Dev :=
  match secSet m with
  | none => (f, d)
  | some k =>
    let who := Sys2Proof.Who.master m
    let arg := (List.range 16).flatMap fun x => le 4 (Tab.getD (d.cmdSet k).arg x 0).toNat
    match code with
    | 0x01 =>
      let (e, d1) := envelopeBytes d (field arg 0 8)
      envelope who e none false f d1
    | 0x02 => secQuote who arg none f d
    | 0x03 => secDerive who arg none f d
    | 0x04 => secMeasExtend who arg none f d
    | 0x05 => secSlotRemap who arg none f d
    | 0x06 => secKekRotate who arg none f d
    | 0x07 => secKekInvalidate who arg none f d
    | 0x08 => secKekClear who arg none f d
    | 0x09 => secNodeKeyNew who arg none f d
    | 0x0A => secNodeKeyRoll who arg none f d
    | 0x0B => secNodeKeyGet who arg none f d
    | 0x0C => secNodeKeyExport who arg none f d
    | 0x0D => secNodeKeyImport who arg none f d
    | 0x0E => secRandom who arg none f d
    | 0x0F => secRecovKeyLoad who arg none f d
    | 0x10 => secProvision who arg none false f d
    | _ => (f, secEnd d who scNOT_PERMITTED [])

def writeSec (f : Fuses) (d : Dev) (m : Sys2Proof.Master) (r : RegDesc) (a i : Nat) (w : Word) : Fuses × Dev :=
  if a = SEC_CTRL then (f, onHit w SEC_CTRL_cnt_clear secCntClear d)
  else if a = SEC_CMD then secCmd m (wf w SEC_CMD_code) f d
  else if r.base = SEC_ARGm 0 then
    (f, match secSet m with
      | none => d
      | some k => { d with vault := { d.vault with sets := Tab.put d.vault.sets k { d.cmdSet k with arg := Tab.put (d.cmdSet k).arg i w } } })
  else (f, plainWrite d r a w)

/-- CMP_CMD: the operations of R381; others are reserved. The bytes of host memory are open. -/
def cmpCmd (d : Dev) (m : Sys2Proof.Master) (w : Word) : Dev :=
  let who := Sys2Proof.Who.master m
  let n := wf w CMP_CMD_cnum
  let b := createDesc d who []
  match wf w CMP_CMD_op with
  | 1 =>
    if hit w CMP_CMD_src_kind then create d who [] (some (d.reg64 CMP_SRC_LO)) none true false
    else
      let (img, d1) := d.drawBytes (cdLen b)
      create d1 who [] none (some img) true false
  | 2 => campCmd d who n [cpREADY] cpRUNNING
  | 3 => campCmd d who n [cpRUNNING] cpPAUSED
  | 4 => campCmd d who n [cpPAUSED] cpRUNNING
  | 5 => campCmd d who n [cpREADY, cpRUNNING, cpPAUSED] cpCANCELLED
  | 6 => campDelete d who n
  | _ => d

def writeCmp (d : Dev) (m : Sys2Proof.Master) (r : RegDesc) (a : Nat) (w : Word) : Dev :=
  if a = CMP_CTRL then onHit w CMP_CTRL_cnt_clear cmpCntClear (plainWrite d r a w)
  else if a = CMP_CMD then cmpCmd d m w
  else plainWrite d r a w

/-- BOOT_CMD (R415) with BOOT_ARG; host memory's bytes are open, no wait runs over. (DESIGN CHOICE: log entry 85) (DESIGN CHOICE: log entry 102) -/
def bootCmd (m : Sys2Proof.Master) (code : Nat) (f : Fuses) (d : Dev) : Fuses × Dev :=
  let who := Sys2Proof.Who.master m
  let arg (k : Nat) : Nat := (d.reg (BOOT_ARGm k)).toNat
  let addr (k : Nat) : Nat := arg k + 2 ^ 32 * arg (k + 1)
  let src (len k : Nat) : List Byte × Dev := if nbit (arg (k + 2)) 0 then (bufGet d (addr k), d) else d.drawBytes len
  if m = .debug then (f, bootEnd d who upNOT_PERMITTED 0)
  else match code with
    | 0x01 => (f, updBegin d who (arg 0) false)
    | 0x02 =>
      let (bs, d1) := src (arg 1) 2
      (f, updWrite d1 who (arg 0) (arg 1) bs none)
    | 0x03 => (f, updVerify f d who)
    | 0x04 => updActivate who (nbit (arg 0) 0) none f d
    | 0x05 => updConfirm who none f d
    | 0x06 => (f, updAbandon d who)
    | 0x07 => restart who true true f d
    | 0x08 =>
      let (bs, d1) := src (nbits (arg 0) 31 16) 1
      (f, setWrite d1 who (nbits (arg 0) 15 0) (nbits (arg 0) 31 16) bs false)
    | 0x09 => (f, setEraseNs d who (nbits (arg 0) 15 0) false)
    | 0x0A => (f, snapNow d who)
    | 0x0B => (f, brewReady d who)
    | _ => (f, bootEnd d who upNOT_PERMITTED 0)

def writeLow (f : Fuses) (d : Dev) (m : Sys2Proof.Master) (r : RegDesc) (a : Nat) (w : Word) : Fuses × Dev :=
  if a = BOOT_CMD then bootCmd m (wf w BOOT_CMD_code) f d else (f, plainWrite d r a w)

/-- RES_FUNC_CMD (R440). (DEDUCED: log entry 92) -/
def funcCmd (d : Dev) (m : Sys2Proof.Master) (w : Word) : Dev :=
  let c := wf w RES_FUNC_CMD_class
  let i := wf w RES_FUNC_CMD_index
  if hit w RES_FUNC_CMD_op then funcEnable d (.master m) c i else funcDisable d (.master m) c i

def writeRes (f : Fuses) (d : Dev) (m : Sys2Proof.Master) (r : RegDesc) (a i : Nat) (w : Word) : Fuses × Dev :=
  if a = RES_CTRL then (f, onHit w RES_CTRL_cnt_clear resCntClear (plainWrite d r a w))
  else if a = RES_CC_CTRL then
    let k := wf w RES_CC_CTRL_cc
    (f, onHit w RES_CC_CTRL_isolate (ccIsolate · k) (onHit w RES_CC_CTRL_retest (ccRetest · k) (plainWrite d r a w)))
  else if a = RES_FUNC_CMD then (f, funcCmd d m w)
  else if a = RES_REPAIR_CMD then
    if wf w RES_REPAIR_CMD_op = 1 then repairBurn (.master m) (d.fld RES_REPAIR_ARG_seq) false f d else (f, d)
  else if a = RES_JRNL_SEL then (f, jrnlFetch (plainWrite d r a w) w.toNat)
  else if r.base = RES_JRNL_OPENm 0 then (f, if i = 3 then jrnlOpen d w else d.setReg a w)
  else if a = RES_GATE_TAG then
    (f, d.setComplex (d.fld RES_STATUS_active) { d.cc (d.fld RES_STATUS_active) with tag := wf w RES_GATE_TAG_tag })
  else if a = RES_JRNL_STEP then (f, jrnlStep d (wf w RES_JRNL_STEP_tag))
  else if a = RES_JRNL_CLOSE then (f, jrnlClose d w)
  else (f, plainWrite d r a w)

def writeTel (d : Dev) (r : RegDesc) (a i : Nat) (w : Word) : Dev :=
  let b := r.base
  if a = TEL_CTRL then onHit w TEL_CTRL_cnt_clear telCntClear (plainWrite d r a w)
  else if b = TEL_PENDm 0 then pendingClear d i w
  else if b = TEL_MASKm 0 then maskWrite d i w
  else if b = TEL_CCPENDm 0 then ccpendClear d i w
  else if a = TEL_ALM_ACK then alarmAck d (wf w TEL_ALM_ACK_entry) (wf w TEL_ALM_ACK_seen)
  else if a = TEL_FW_RAISE then fwRaise d (wf w TEL_FW_RAISE_fw) (wf w TEL_FW_RAISE_unit)
  else if a = TEL_RING_CFG then onHit w TEL_RING_CFG_en (fun e => e.clearRegs [TEL_RING_PROD, TEL_RING_CONS]) (plainWrite d r a w)
  else if a = TEL_RING_CONS then ringCons d (wf w TEL_RING_CONS_index)
  else if a = TEL_ETH_RATE then
    plainWrite d r a (if rateMax d < wf w TEL_ETH_RATE_rate then keepFld d TEL_ETH_RATE_rate w else w)
  else plainWrite d r a w

/-- A word of the MSI-X table: word 3 holds the mask bit of the vector. -/
def msixWrite (d : Dev) (v k : Nat) (w : Word) : Dev :=
  if k = 3 then (if nbit w.toNat 0 then d.setReg (MSIX_TABLE v 3) w else msixUnmask (d.setReg (MSIX_TABLE v 3) (setBits w 0 0 (d.fld ⟨MSIX_TABLE v 3, 0, 0⟩))) v)
  else d.setReg (MSIX_TABLE v k) w

/-- A ring's or queue's CFG: its fields, then a change of en. (DEDUCED: log entry 97) -/
def cfgEn (d : Dev) (r : RegDesc) (a : Nat) (w : Word) (en : Fld) (g : Dev → Bool → Dev) : Dev :=
  let d1 := plainWrite d r a (keepFld d en w)
  if hit w en = d.bit en then d1 else g d1 (hit w en)

def writeHif (d : Dev) (r : RegDesc) (a i j : Nat) (w : Word) : Dev :=
  let b := r.base
  if a = HIF_CTRL then onHit w HIF_CTRL_cnt_clear hifCntClear d
  else if a = HIF_HCQ_CFG then cfgEn d r a w HIF_HCQ_CFG_en fun e on => if on then hcqEnable e else hcqDisable e
  else if a = HIF_HCQ_TAIL then doorbell d (wf w HIF_HCQ_TAIL_index)
  else if a = HIF_CQ_HEAD then cqHeadWrite d (wf w HIF_CQ_HEAD_index)
  else if a = HIF_MQ_SUBMIT then mqSubmit d w.toNat
  else if a = HIF_MGMT_TX then mgmtTx d w.toNat
  else if b = HIF_FRr_UP_CFG 0 then cfgEn d r a w (HIF_FRr_UP_CFG_en i) fun e on => upEnable e i on
  else if b = HIF_FRr_DN_CFG 0 then cfgEn d r a w (HIF_FRr_DN_CFG_en i) fun e on => dnEnable e i on
  else if b = HIF_FRr_UP_TAIL 0 then
    -- the descriptors in host memory are open
    let descs := (List.range 4096).map fun k => (Config.freeValue (d.draws + 2 * k) % 2 ^ 64, Config.freeValue (d.draws + 2 * k + 1) % 2 ^ 16)
    upPost { d with draws := d.draws + 8192 } i (wf w (HIF_FRr_UP_TAIL_index i)) descs
  else if b = HIF_FRr_DN_TAIL 0 then dnPost d i (wf w (HIF_FRr_DN_TAIL_index i))
  else if b = MSIX_TABLE 0 0 then msixWrite d i j w
  else plainWrite d r a w

/-- A write of a register by a master, its description and indices found. (DESIGN CHOICE: log entry 102) -/
def regWrite (f : Fuses) (d : Dev) (m : Sys2Proof.Master) (r : RegDesc) (ix : List Nat) (a : Nat) (w : Word) : Fuses × Dev :=
  let i := ix.getD 0 0
  let j := ix.getD 1 0
  match a / 0x100000 with
  | 0 => writeLow f d m r a w
  | 2 => (f, writeBld d r a w)
  | 3 => (f, writeDsp d r a i w)
  | 4 => (f, writeYl d r a i w)
  | 5 => (f, writeHc d r a w)
  | 6 => (f, writeRx d r a w)
  | 7 => (f, writeTx d r a i w)
  | 8 => (f, writeTs d m r a w)
  | 9 => (f, writeTbl d r a w)
  | 10 => (f, writeFwd d r a w)
  | 11 => (f, writeTim d r a w)
  | 12 => writeSec f d m r a i w
  | 13 => (f, writeCmp d m r a w)
  | 14 => writeRes f d m r a i w
  | 15 => (f, if TEL_CTRL ≤ a then writeTel d r a i w else writeHif d r a i j w)
  | _ => (f, plainWrite d r a w)

end Sys2Proof.Machine
end

