-- ==== Sys2Proof/Machine/Bus.lean ====
section
/-! DEFINITION. Reads and writes of the BAR0 registers by every master (00_scope.md R3 to R9): register pairs with their shadows and held
values, firmware's registers, the table request port of firmware, the registers in a stopped domain, and the host commands REG_READ and
REG_WRITE. -/

namespace Sys2Proof.Machine

/-! ### Pairs (R9) -/

/-- First addresses of the _LO registers that form a pair with the register 4 bytes above. -/
def pairLos : List Nat :=
  [BLD_SRC_ADDR_LO, BLD_ACTIVE_ID_LO, DSP_CADDY_READY_LO, DSP_WQ_PUSHn_LO 0, DSP_WQ_POPn_LO 0, TS_EUI_LO, TS_ASN_LO, TS_CELL_DATA_LO] ++
  [FWD_PANp_PFX_LO 0, TIM_MESH_HOLD_LO, TIM_TB_STEP_LO, TIM_TB_SAMPLE64_LO, TIM_PANp_EPOCH_LO 0, TIM_TBn_NS_LO 0, TIM_TBn_SEC_LO 0] ++
  [KTL_RTC_SEC_LO, KTL_RTC_OFS_LO, SEC_ENV_CTR_LO, SEC_SLOT_ATTR_LO, CMP_SRC_LO, TEL_RING_BASE_LO, HIF_HCQ_BASE_LO, HIF_CQ_BASE_LO] ++
  [HIF_FRr_UP_BASE_LO 0, HIF_FRr_DN_BASE_LO 0]

def isLo (r : RegDesc) : Bool := pairLos.contains r.base
def isHi (r : RegDesc) : Bool := decide (4 ≤ r.base) && pairLos.contains (r.base - 4)

/-- A register that some write reaches. -/
def RegDesc.writable (r : RegDesc) : Bool := r.fields.any fun x => x.acc != .ro

/-! ### Firmware's registers -/

/-- Registers that firmware alone writes: its submissions and commands, the step and journal registers, its pending bits and events, the
management channel's commands. (DEDUCED: log entry 17) -/
def fwOnly (r : RegDesc) : Bool :=
  [DSP_CSUBm 0, SEC_CMD, SEC_ARGm 0, RES_GATE_TAG, RES_JRNL_OPENm 0, RES_JRNL_STEP, RES_JRNL_CLOSE, TEL_CCPENDm 0, TEL_FW_RAISE, HIF_MQ_SUBMIT,
   HIF_MGMT_TX_CTL, HIF_MGMT_TX].contains r.base

/-- Host software in its three ways: BAR0, the HCQ, the management channel. -/
def isHost : Sys2Proof.Master → Bool
  | .host | .hcq | .mgmt => true
  | _ => false

/-- The request port of firmware, TBL_CREQ (Table TABLE-7). -/
def inCreq (a : Nat) : Bool := decide (0x901000 ≤ a) && decide (a < 0x901080)

/-- The complex whose tick register an address is. -/
def tickOf (a : Nat) : Option Nat := if a = HIF_CCA_TICK then some 0 else if a = HIF_CCB_TICK then some 1 else none

/-! ### Reads -/

/-- A read of a found register: word and state. A tick count is open. -/
def regRead (f : Fuses) (d : Dev) (m : Sys2Proof.Master) (r : RegDesc) (ix : List Nat) (a : Nat) : Word × Dev :=
  let live := liveWord f d m a
  let q := ix.getD 0 0
  if (tickOf a).isSome then (wd d.draw.1, d.draw.2)
  else if r.base = DSP_WQ_POPn_LO 0 then wqPopLo d m q
  else if r.base = DSP_WQ_POPn_HI 0 then wqPopHi d m q
  else if r.base = TIM_TBn_SEC_LO 0 then
    (live, (d.capture m (a + 4) (liveWord f d m (a + 4))).capture m (a + 8) (liveWord f d m (a + 8)))
  else if isLo r then (live, d.capture m (a + 4) (liveWord f d m (a + 4)))
  else if isHi r ∨ r.base = TIM_TBn_NSEC 0 then d.takeShadow m a live
  else (live, d)

/-- A read of the register at a BAR0 offset by a master that is no engine; `none` while firmware waits for an item, or at TBL_CREQ's STATUS for its
request (R256). -/
def busRead (f : Fuses) (d : Dev) (m : Sys2Proof.Master) (a : Nat) : Option Word × Dev :=
  if m = .debug ∧ !debugOpen f.lc then (some 0, debugRefused f d)
  else if isFw m && (itemHeld d a || (a == 0x901020 && itemHeld d 0x901000)) then (none, d)
  else if isFw m && inCreq a then
    let (w, d1) := reqRead d m (a - 0x901000)
    (some w, d1)
  else match findReg a with
    | none => (some 0, d)
    | some (r, ix) =>
      let (w, d1) := regRead f d m r ix a
      (some w, d1)

/-- The register of a byte address; the registers that an access of `len` bytes touches, lower first (R463). -/
def wordAt (a : Nat) : Nat := a / 4 * 4
def touched (a len : Nat) : List Nat := if a % 4 + len ≤ 4 then [wordAt a] else [wordAt a, wordAt a + 4]

/-- A register in the domain of a stopped complex. (DEDUCED: log entry 18) -/
def regStopped (d : Dev) (a : Nat) : Bool := ((tickOf a).map (ccStopped d)).getD false

/-- An access toward a stopped domain waits at the crossing (R24, R466). -/
def waits (d : Dev) (m : Sys2Proof.Master) (read : Bool) (a len : Nat) : Option Dev :=
  if (touched a len).any (regStopped d) then some { d with hif := { d.hif with crossing := d.hif.crossing ++ [⟨m, read, a, len⟩] } } else none

/-- The bytes of registers that a read addresses (R3, R463): each register read in turn, lower first. -/
def readRegs (f : Fuses) (m : Sys2Proof.Master) (d : Dev) : List Nat → Option Nat × Dev
  | [] => (some 0, d)
  | a :: r => match busRead f d m a with
    | (none, d1) => (none, d1)
    | (some w, d1) => match readRegs f m d1 r with
      | (none, d2) => (none, d2)
      | (some v, d2) => (some (w.toNat + 2 ^ 32 * v), d2)

/-- The host's accesses reach nothing while the PCI Express domain is isolated (R27). (DESIGN CHOICE: log entry 114) -/
def pcieCut (d : Dev) (m : Sys2Proof.Master) : Bool := m == .host && d.isolated.contains 200

/-- A read of firmware's that waits until an item is released (R256, R419). (DEDUCED: log entry 18) -/
def readWaits (d : Dev) (m : Sys2Proof.Master) (a len : Nat) : Bool :=
  isFw m && (touched a len).any fun r => itemHeld d r || (r == 0x901020 && itemHeld d 0x901000)

/-- A read of `len` bytes at a byte address, by a master at a BAR0 offset or by an engine at an address of its map; the bytes go to it. -/
def readAccess (f : Fuses) (d : Dev) (m : Sys2Proof.Master) (a len : Nat) : Dev :=
  match m with
  | .engine e => (engineRead d e a len).2.answer m (engineRead d e a len).1
  | _ =>
    if pcieCut d m then d
    else match waits d m true a len with
      | some d1 => d1
      | none =>
        if readWaits d m a len then { d with hif := { d.hif with itemReads := d.hif.itemReads ++ [⟨m, true, a, len⟩] } }
        else match readRegs f m d (touched a len) with
          | (some v, d1) => d1.answer m (v / 256 ^ (a % 4) % 256 ^ len)
          | (none, d1) => d1

/-- Items have been released: firmware's reads that waited for them are made, oldest first, and those whose item stands wait on (R419). (DEDUCED: log entry 18) -/
def serveReads (f : Fuses) (d : Dev) : Dev :=
  d.hif.itemReads.foldl (fun e x => readAccess f e x.m x.addr x.len) { d with hif := { d.hif with itemReads := [] } }

/-! ### Writes -/

/-- Both halves of a pair take effect. -/
def pairWrite (d : Dev) (m : Sys2Proof.Master) (r : RegDesc) (q lo : Nat) (v : Word64) : Dev :=
  let b := r.base - 4
  let n := v.toNat
  if b = DSP_WQ_PUSHn_LO 0 then (wqPush d q (endpointOf d m) v).1
  else if b = TIM_MESH_HOLD_LO then holdWrite d n
  else if b = TIM_TB_STEP_LO then timeStep d n
  else if b = TIM_TB_SAMPLE64_LO then sampleWrite d v.toInt
  else if b = TIM_PANp_EPOCH_LO 0 then panEpochWrite d q n
  else if b = HIF_HCQ_BASE_LO ∨ b = HIF_CQ_BASE_LO then (if d.bit HIF_HCQ_CFG_en then d else d.setReg64 lo n)
  else if b = HIF_FRr_UP_BASE_LO 0 then (if d.bit (HIF_FRr_UP_CFG_en q) then d else d.setReg64 lo n)
  else if b = HIF_FRr_DN_BASE_LO 0 then (if d.bit (HIF_FRr_DN_CFG_en q) then d else d.setReg64 lo n)
  else d.setReg64 lo n

/-- A write of a found register. -/
def foundWrite (f : Fuses) (d : Dev) (m : Sys2Proof.Master) (r : RegDesc) (ix : List Nat) (a : Nat) (w : Word) : Fuses × Dev :=
  if !r.writable ∨ (isHost m && fwOnly r) then (f, d)
  else if isLo r then (f, d.hold m a w)
  else if isHi r then
    let (lo, d1) := d.takeHeld m (a - 4)
    (f, pairWrite d1 m r (ix.getD 0 0) (a - 4) (Word64.ofHalves w lo))
  else regWrite f d m r ix a w

/-- A write of a whole register at a BAR0 offset by a master that is no engine. (DEDUCED: log entry 17) -/
def busWrite (m : Sys2Proof.Master) (a : Nat) (w : Word) (f : Fuses) (d : Dev) : Fuses × Dev :=
  if m = .debug ∧ !debugOpen f.lc then (f, debugRefused f d)
  else if inCreq a then (f, if isFw m then reqWrite d m (a - 0x901000) w else d)
  else match findReg a with
    | none => (f, d)
    | some (r, ix) => foundWrite f d m r ix a w

/-- The whole registers that a write of `len` bytes covers, lower first, with their words; what is narrower is discarded (R3, R463). (DEDUCED: log entry 113) -/
def covered32 (a len : Nat) (v : Nat) : List (Nat × Word) :=
  ((touched a len).filter fun r => decide (a ≤ r ∧ r + 4 ≤ a + len)).map fun r => (r, BitVec.ofNat 32 (v / 256 ^ (r - a)))

/-- A write of `len` bytes at a byte address, by a master at a BAR0 offset or by an engine at an address of its map. -/
def writeAccess (m : Sys2Proof.Master) (a len v : Nat) (f : Fuses) (d : Dev) : Fuses × Dev :=
  match m with
  | .engine e => (f, engineWrite f d e a len v)
  | _ =>
    if pcieCut d m then (f, d)
    else match waits d m false a len with
      | some d1 => (f, d1)
      | none => (covered32 a len v).foldl (fun s x => busWrite m x.1 x.2 s.1 s.2) (f, d)

/-! ### The rows -/

/-- A register write of 1 to 8 bytes; a narrow one is discarded (R3). -/
def execRegisterWrite (m : Sys2Proof.Master) (addr len : Nat) (w : Word64) (s : State) : Out := s.onFuses (writeAccess m addr len w.toNat)

def execPairLoRead (m : Sys2Proof.Master) (addr len : Nat) (s : State) : Out := s.onDevF fun f d => readAccess f d m addr len
def execPairHiRead (m : Sys2Proof.Master) (addr len : Nat) (s : State) : Out := s.onDevF fun f d => readAccess f d m addr len
def execPairLoWrite (m : Sys2Proof.Master) (addr : Nat) (w : Word) (s : State) : Out := s.onFuses (writeAccess m addr 4 w.toNat)
def execPairHiWrite (m : Sys2Proof.Master) (addr : Nat) (w : Word) (s : State) : Out := s.onFuses (writeAccess m addr 4 w.toNat)

/-- The master that a started command accesses registers as. -/
def whoMaster (d : Dev) : Sys2Proof.Who → Sys2Proof.Master
  | .master m => m
  | .cmd j => if isMgmt d j then .mgmt else .hcq

/-- The result of a register command: the completion's code and data; a master receives the word. -/
def regResult (d : Dev) (who : Sys2Proof.Who) (m : Sys2Proof.Master) (code : Nat) (w : Option Word) : Dev :=
  if isMaster who then (match w with
    | some v => d.answer m v.toNat
    | none => d)
  else d.toCmd who code ((w.map fun v => le 4 v.toNat).getD [])

/-- REG_READ (R473). -/
def regReadCmd (f : Fuses) (d : Dev) (who : Sys2Proof.Who) (a : Nat) : Dev :=
  let m := whoMaster d who
  if regStopped d a then regResult d who m hrSTOPPED none
  else
    let (w, d1) := busRead f d m a
    regResult d1 who m hrOK w

def execRegRead (who : Sys2Proof.Who) (offset : Nat) (s : State) : Out := s.onDevF fun f d => regReadCmd f d who offset

/-- REG_WRITE (R473); of a register that firmware alone writes it is not permitted. (DEDUCED: log entry 17) -/
def regWriteCmd (who : Sys2Proof.Who) (a : Nat) (w : Word) (f : Fuses) (d : Dev) : Fuses × Dev :=
  let m := whoMaster d who
  if regStopped d a then (f, regResult d who m hrSTOPPED none)
  else if isHost m && (inCreq a || ((findReg a).map fun x => fwOnly x.1).getD false) then (f, regResult d who m hrNOT_PERMITTED none)
  else
    let (f1, d1) := busWrite m a w f d
    (f1, regResult d1 who m hrOK none)

def execRegWrite (who : Sys2Proof.Who) (offset : Nat) (w : Word) (s : State) : Out := s.onFuses (regWriteCmd who offset w)

/-! ### Counter export (R455) -/

/-- Bodies of four pairs each. -/
def pairBodies : Nat → List (List Byte) → List (List Byte)
  | 0, _ => []
  | _, [] => []
  | n + 1, l => fit 32 (l.take 4).flatten :: pairBodies n (l.drop 4)

/-- The registers of the list are read in one cycle and offered to the paths, four to a unit. (DEDUCED: log entry 103) -/
def counterExport (f : Fuses) (d : Dev) : Dev :=
  if d.fld TEL_PATH_CFG_cnt_period_s = 0 then d
  else
    let regs := ((List.range 64).map TEL_CNT_LISTm).filterMap fun a =>
      let w := d.reg a
      if nbit w.toNat 31 then some (nbits w.toNat 23 0) else none
    let pairs := regs.map fun a => le 4 a ++ le 4 (liveWord f d .host a).toNat
    (pairBodies 64 pairs).foldl (fun e b => (offer e ⟨3, b⟩).1) d

def execCounterExport (s : State) : Out := s.onDevF counterExport

end Sys2Proof.Machine
end

