-- ==== Sys2Proof/Machine/Gate.lean ====
section
/-! DEFINITION. The Commit Gate (15_resilience.md R419 to R422, R428): items, windows, mismatches and their outcomes. -/

namespace Sys2Proof.Machine

/-- Causes of RES_GATE_LAST. -/
@[reducible] def gcDIGEST : Nat := 1
@[reducible] def gcLAG : Nat := 2
@[reducible] def gcOVERFLOW : Nat := 3
@[reducible] def gcPATH : Nat := 4

/-- Items that no step holds back (R420), in posted order. (DEDUCED: log entry 87) -/
def Complex.freeItems (x : Complex) : List Item := x.items.filter (·.free)

/-- The first n free items, and the complex without them. -/
def takeFree : Nat → List Item → List Item × List Item
  | 0, l => ([], l)
  | _, [] => ([], [])
  | n + 1, i :: l =>
    if i.free then
      let (t, r) := takeFree n l
      (i :: t, r)
    else
      let (t, r) := takeFree (n + 1) l
      (t, i :: r)

/-- The 32 bytes of an item (R419). -/
def Item.bytes (i : Item) : List Byte := le 8 i.addr ++ le 16 i.data ++ le 2 i.tag ++ le 2 i.type ++ zeros 4

/-- The digest of items in posted order (R421). (DEDUCED: log entry 87) -/
def digest (l : List Item) : List Byte := Config.sha256 (l.flatMap Item.bytes)

/-- Items reach their targets, in posted order. (DEDUCED: log entry 17) -/
def applyItems (l : List Item) (f : Fuses) (d : Dev) : Fuses × Dev :=
  l.foldl (fun s i => busWrite (.cc i.secure) i.addr (wd i.data) s.1 s.2) (f, d)

/-- RES_GATE_LAT: the largest latency added to a released item. (DESIGN CHOICE: log entry 95) -/
def noteLatency (d : Dev) (l : List Item) : Dev :=
  l.foldl (fun e i => if e.fld RES_GATE_LAT_max_us < satN 8 ((d.ns - i.since) / 1000) then
    e.setFld RES_GATE_LAT_max_us (satN 8 ((d.ns - i.since) / 1000)) else e) d

/-- Drop the first n free items of complex k; the items dropped. -/
def dropFree (d : Dev) (k n : Nat) : List Item × Dev :=
  let (t, r) := takeFree n (d.cc k).items
  (t, d.setComplex k { d.cc k with items := r })

/-- The first n free items of complex k are released. -/
def release (k n : Nat) (f : Fuses) (d : Dev) : Fuses × Dev :=
  let (t, d1) := dropFree d k n
  ((applyItems t f d1).1, serveReads (applyItems t f d1).1 (applyItems t f d1).2)

/-! ### Mismatches -/

/-- A mismatch begins: counted, both complexes stopped. In the window chosen for a take-back its hold-off starts again (R428). (DESIGN CHOICE: log entry 88) -/
def mismatch (d : Dev) (cause n : Nat) : Dev :=
  let g := d.res.gate
  let d1 := (d.setGate { g with mismatch := some ⟨cause, n⟩, lag := none }).inc RES_GATE_CNT_mismatch
  if g.failover ∧ g.holdoffDone ∧ g.boundary ≤ d.ns then d1.setGate { d1.res.gate with holdoffDone := false, holdFrom := d1.ns } else d1

/-- The outcome of a mismatch: RES_GATE_LAST, the journal, the event with the complex it isolates, the active one without. -/
def mismatchNote (d : Dev) (cause row unit : Nat) : Dev :=
  let d1 := (d.setFld RES_GATE_LAST_cause cause).setFld RES_GATE_LAST_outcome row
  raise (jNote d1 0x0B 3 jNOTE 1 (cause + 256 * row) 0 0 0) 208 unit cause

/-- A standby that diverged is resynchronised (R422, R423). -/
def resync (d : Dev) (k : Nat) : Dev :=
  (setCc (d.setComplex k ⟨(d.cc k).mem, [], 0, 0⟩) k ccSYNCING).setBit RES_STATUS_uncovered true

/-- The test slices end (Table RES-1, rows 1 to 4). Without a standby the active's own result decides: its items are released. (DESIGN CHOICE: log entry 88) -/
def testDone (aPass bPass : Bool) (f : Fuses) (d : Dev) : Fuses × Dev :=
  match d.res.gate.mismatch, activeCc d with
  | some x, some a =>
    let d0 := d.setGate { d.res.gate with mismatch := none }
    let pass (k : Nat) : Bool := if k = 0 then aPass else bPass
    match pairCc d with
    | none =>
      let row := if pass a then 2 else 4
      let d1 := mismatchNote d0 x.cause row a
      release a x.n f (if pass a then d1 else raise d1 210 a 0)
    | some (_, b) =>
      if !pass a && pass b then
        let d1 := failover (mismatchNote d0 x.cause 1 a) a
        release b x.n f (restartHold d1 a)
      else if pass a && !pass b then
        let d1 := isolateCc (mismatchNote d0 x.cause 2 b) b
        release a x.n f (restartHold d1 b)
      else if pass a then
        let d1 := raise (mismatchNote d0 x.cause 3 a) 209 b 0
        release a x.n f (resync d1 b)
      else
        let d1 := isolateCc (raise (mismatchNote d0 x.cause 4 b) 210 b 0) b
        release a x.n f (restartHold d1 b)
  | _, _ => (f, d)

/-- The surviving complex resumes, and the tamper responses that waited for it apply (R428). -/
def testsEnd (aPass bPass : Bool) (f : Fuses) (d : Dev) : Fuses × Dev :=
  tampersDue (testDone aPass bPass f d).1 (testDone aPass bPass f d).2

def execMismatchTestDone (aPass bPass : Bool) (s : State) : Out := s.onFuses (testsEnd aPass bPass)

/-- The outcome of a PATH row: complex k is isolated, with a failover when it was active. -/
def pathRow (d : Dev) (k : Nat) : Dev :=
  let d1 := mismatchNote d gcPATH 5 k
  restartHold (if activeCc d = some k then failover d1 k else isolateCc d1 k) k

/-- A target finds a bad CRC-16 on a released item (R422); the item comes from the other complex's copy. (DESIGN CHOICE: log entry 88) -/
def pathFail (d : Dev) (k : Nat) : Dev :=
  if 2 ≤ k ∨ ccState d (1 - k) ≠ ccSTANDBY then d else pathRow (d.inc RES_GATE_CNT_mismatch) k

def execPathCheckFail (cc : Nat) (s : State) : Out := s.onDev fun d => pathFail d cc

/-! ### Windows (R421) -/

/-- A requested isolation takes place at a close (R428), with the outcome of a PATH row. -/
def isolateAtClose (d : Dev) : Dev :=
  match d.res.gate.isolate with
  | none => d
  | some k =>
    let d1 := d.setGate { d.res.gate with isolate := none }
    if ccState d (1 - k) = ccSTANDBY then pathRow d1 k
    else
      let d2 := d1.setFld RES_GATE_LAST_outcome 6
      { d2 with res := { d2.res with func := { d2.res.func with disabled := d2.res.func.disabled.filter (· != fnKey 6 k) } } }

/-- Compare the first n free items of the pair: equal digests release the active's and discard the standby's, then a requested isolation,
or a swap or take-back, takes place. (DEDUCED: log entry 87) -/
def compare (a b n : Nat) (f : Fuses) (d : Dev) : Fuses × Dev :=
  let ia := (takeFree n (d.cc a).items).1
  let ib := (takeFree n (d.cc b).items).1
  if digest ia ≠ digest ib then (f, mismatch d gcDIGEST n)
  else
    let (f1, d1) := release a n f (noteLatency (dropFree d b n).2 ia)
    let d2 := d1.setGate { d1.res.gate with lag := none }
    (f1, if d2.res.gate.isolate.isSome then isolateAtClose d2 else rolesAtClose d2)

/-- A window closes. (DEDUCED: log entry 87) -/
def windowClose (f : Fuses) (d : Dev) : Fuses × Dev :=
  if d.res.gate.mismatch.isSome || d.res.gate.lag.isSome then (f, d)
  else match pairCc d, activeCc d with
    | some (a, b), _ =>
      let na := (d.cc a).freeItems.length
      let nb := (d.cc b).freeItems.length
      if na = nb then compare a b na f d else (f, d.setGate { d.res.gate with lag := some (max na nb) })
    | none, some a =>
      let l := (d.cc a).freeItems
      let d1 := if l.isEmpty then d else ((noteLatency d l).inc RES_GATE_CNT_uncompared).setBit RES_STATUS_uncovered true
      let (f1, d2) := release a l.length f d1
      (f1, isolateAtClose d2)
    | none, none => (f, d)

def execGateWindowClose (s : State) : Out := s.onFuses windowClose

/-- The other complex has not reached n within 15 µs. -/
def lagTimeout (d : Dev) : Dev :=
  match d.res.gate.lag with
  | some n => mismatch d gcLAG n
  | none => d

def execGateLagTimeout (s : State) : Out := s.onDev lagTimeout

/-! ### Posting (R419, R420) -/

/-- The items of a step whose RES_JRNL_STEP has been posted are free, from now on. -/
def freeStep (l : List Item) (tag now : Nat) : List Item :=
  l.map fun i => if i.tag == tag && !i.free then { i with free := true, since := now } else i

/-- A complex posts an item: a write of `data` at an address. RES_GATE_TAG is its own, no commit; the 4,097th item is a mismatch. When the
gate waits for a complex and both have reached n, the window closes. -/
def post (k : Nat) (secure : Bool) (addr data type : Nat) (f : Fuses) (d : Dev) : Fuses × Dev :=
  let x := d.cc k
  if 2 ≤ k ∨ (ccState d k ≠ ccACTIVE ∧ ccState d k ≠ ccSTANDBY) ∨ d.res.gate.mismatch.isSome then (f, d)
  else if addr = RES_GATE_TAG then (f, d.setComplex k { x with tag := data % 65536 })
  else if 4096 ≤ x.items.length then (f, mismatch d gcOVERFLOW ((activeCc d).elim 0 fun a => (d.cc a).freeItems.length))
  else
    let i : Item := ⟨addr, data % 2 ^ 128, x.tag, type % 65536, secure, x.tag == 0, d.ns⟩
    let l := x.items ++ [i]
    let l1 := if addr = RES_JRNL_STEP then freeStep (x.items ++ [{ i with free := true }]) (data % 65536) d.ns else l
    let d1 := d.setComplex k { x with items := l1 }
    match d1.res.gate.lag, pairCc d1 with
    | some n, some (a, b) =>
      if n ≤ (d1.cc a).freeItems.length ∧ n ≤ (d1.cc b).freeItems.length then compare a b n f d1 else (f, d1)
    | _, _ => (f, d1)

def execCommitPost (cc : Nat) (secure : Bool) (addr data type : Nat) (s : State) : Out := s.onFuses (post cc secure addr data type)

end Sys2Proof.Machine
end

