-- ==== Sys2Proof/Machine/Faults.lean ====
section
/-! DEFINITION. Hardware faults: power domains (01_architecture.md R27, R28), SRAM errors and the scrubber (15_resilience.md R432, R433). -/

namespace Sys2Proof.Machine

/-! ### Power domains (R27) -/

/-- A Caddy is isolated (R71, R80): every task that stands on it is aborted, its ready list too, it is DISABLED, a spare is brought in (Table RES-3). -/
def isolateCaddy (d : Dev) (c : Nat) : Dev :=
  let d1 := (caddyTasks d c).foldl (fun a i => abortAny a i rsISOLATED) d
  let d2 := (List.range 16).foldl (fun a k => resetEngine a (16 * c + k)) d1
  bringSpare (disableCaddy d2 c) c 18

/-- The SerDes of ports 8g to 8g + 7 are isolated: the ports lose their link. -/
def isolateSerdes (d : Dev) (g : Nat) : Dev :=
  (List.range 8).foldl (fun a k => if a.portState (8 * g + k) = ylDISABLED then a else toDown a (8 * g + k) yeSYNC) d

/-- A Control Complex's domain is isolated: as by a PATH row beside a standby, else by itself. -/
def isolateDomain (d : Dev) (k : Nat) : Dev :=
  if ccState d (1 - k) = ccSTANDBY then pathFail d k
  else if ccState d k = ccOFF then d
  else isolateCc d k

/-- A fault in a gated power domain: 0 to 33 a Caddy, 64 and 65 a Control Complex, 128 + g the SerDes of 8 Yarlink ports, 192 the Ethernet
SerDes, 200 the PCI Express SerDes. (DESIGN CHOICE: log entry 114) -/
def powerFault (d : Dev) (n : Nat) : Dev :=
  let d1 := if d.isolated.contains n then d else { d with isolated := n :: d.isolated }
  if n ≤ 33 then isolateCaddy d1 n
  else if n = 64 ∨ n = 65 then isolateDomain d1 (n - 64)
  else if 128 ≤ n ∧ n < 136 then isolateSerdes d1 (n - 128)
  else if n = 192 then backhaulChanged (d1.setFld FWD_STATUS_link_up 0)
  else if n = 200 then d1.setFld HIF_STATUS_link_up 0
  else d

def execPowerDomainFault (domain : Nat) (s : State) : Out := s.onDev fun d => powerFault d domain

/-! ### SRAM errors -/

/-- 24 h, s. -/
@[reducible] def daySecs : Nat := 86400

/-- Errors of the log that fall in the last 24 h. -/
def recentErrors (d : Dev) : List SramErr := d.res.errors.filter fun e => decide (d.secs < e.time + daySecs)

/-- Repairs that the errors so far call for (R432, R433), after the error `e`. (DEDUCED: log entry 90) -/
def judgeErrors (d : Dev) (e : SramErr) : Dev :=
  let l := (recentErrors d).filter fun x => x.array == e.array
  let rows := ((d.res.errors.filter fun x => x.array == e.array && x.col == e.col).map (·.row)).eraseDups
  let d1 := if e.uncorrectable || decide (3 ≤ (l.filter fun x => x.row == e.row && !x.uncorrectable).length)
    then rowRepair d e.array false e.row e.bank else d
  let d2 := if 4 ≤ rows.length then rowRepair d1 e.array true e.col e.bank else d1
  match e.bank with
  | some b => if 2 ≤ ((recentErrors d).filter fun x => x.bank == some b && x.uncorrectable).length then bankRepair d2 b else d2
  | none => d2

/-- An uncorrectable word of a Control Complex's memory counts as a failed test (R432). (DESIGN CHOICE: log entry 88) -/
def ccMemFail (d : Dev) (k : Nat) : Dev :=
  if 2 ≤ k then d
  else if activeCc d = some k ∧ ccState d (1 - k) = ccSTANDBY then restartHold (failover (mismatchNote d 0 1 k) k) k
  else if ccState d k = ccSTANDBY then restartHold (isolateCc (mismatchNote d 0 2 k) k) k
  else if ccState d k = ccTESTING then ccTestDone d k false
  else d.inc (ccTests k)

/-- The packet of a buffer is dropped, out of its queue too. -/
def dropPacket (d : Dev) (h : Nat) : Dev :=
  let es := d.fwd.entries.filter fun x => x.2.buf == h
  bufFree (es.foldl (fun a x => loseEntry a x.1) d) h

/-- What an uncorrectable word ends (R432): `at?` is its byte address in Shared Table Memory, the handle of its packet, the engine, the complex
or the key-cache set. -/
def poisonEffect (d : Dev) (mem at? : Nat) : Dev :=
  if mem = 0 then { d with tbl := { d.tbl with poison := if d.tbl.poison.contains (at? - at? % 8) then d.tbl.poison else (at? - at? % 8) :: d.tbl.poison } }
  else if mem = 1 then dropPacket d at?
  else if mem = 2 then engineFault d at?
  else if mem = 3 then ccMemFail d at?
  else { d with vault := { d.vault with cache := Tab.del d.vault.cache at? } }

/-- An ECC error: memory 0 Shared Table, 1 Packet Buffer, 2 engine local, 3 Control Complex, 4 key caches; array, row and column of the word. (DESIGN CHOICE: log entry 49) -/
def eccError (d : Dev) (mem array row col : Nat) (uncorrectable : Bool) (at? : Nat) : Dev :=
  if 5 ≤ mem then d
  else
    let e : SramErr := ⟨mem * 65536 + array, row, col, d.secs, uncorrectable, if mem = 0 then some (at? / 0x100000) else none⟩
    let d1 := { d with res := { d.res with errors := d.res.errors ++ [e] } }
    let d2 := d1.inc (if uncorrectable then RES_SRAM_CNT_uncorrectable else RES_SRAM_CNT_corrected)
    judgeErrors (if uncorrectable then poisonEffect d2 mem at? else d2) e

def execEccError (mem array row col : Nat) (uncorrectable : Bool) (at? : Nat) (s : State) : Out :=
  s.onDev fun d => eccError d mem array row col uncorrectable at?

/-- Words the scrubber reads in its cycle of 4 h. -/
@[reducible] def scrubWords : Nat := 16777216

/-- The scrubber reads the next word; an error it finds is ECC_ERROR. (DESIGN CHOICE: log entry 49) -/
def scrubRead (d : Dev) : Dev := { d with res := { d.res with scrub := (d.res.scrub + 1) % scrubWords } }

def execScrubRead (s : State) : Out := s.onDev scrubRead

end Sys2Proof.Machine
end

