-- ==== Sys2Proof/Machine/Dispatch.lean ====
section
/-! DEFINITION. Each command and its meaning. -/

namespace Sys2Proof.Machine

/-- What a command does to the machine (all but the queue). (DESIGN CHOICE: log entry 10) -/
def exec (i : Instr) (s : State) : Host.Outcome State Fault Refusal :=
  match i with
  | .registerWrite m addr len w => Sys2Proof.Machine.execRegisterWrite m addr len w s
  | .pairLoRead m addr len => Sys2Proof.Machine.execPairLoRead m addr len s
  | .pairHiRead m addr len => Sys2Proof.Machine.execPairHiRead m addr len s
  | .pairLoWrite m addr w => Sys2Proof.Machine.execPairLoWrite m addr w s
  | .pairHiWrite m addr w => Sys2Proof.Machine.execPairHiWrite m addr w s
  | .porRelease ccA trng => Sys2Proof.Machine.execPorRelease ccA trng s
  | .porAssert => Sys2Proof.Machine.execPorAssert s
  | .supplyTrip vbat live => Sys2Proof.Machine.execSupplyTrip vbat live s
  | .tempTrip live => Sys2Proof.Machine.execTempTrip live s
  | .sysclkTrip live => Sys2Proof.Machine.execSysclkTrip live s
  | .vbatApply => Sys2Proof.Machine.execVbatApply s
  | .kettlePowerLoss => Sys2Proof.Machine.execKettlePowerLoss s
  | .powerDomainFault domain => Sys2Proof.Machine.execPowerDomainFault domain s
  | .blendStart => Sys2Proof.Machine.execBlendStart s
  | .blendAbort => Sys2Proof.Machine.execBlendAbort s
  | .bldData w => Sys2Proof.Machine.execBldData w s
  | .blendReadCompletion bytes => Sys2Proof.Machine.execBlendReadCompletion bytes s
  | .blendDataTimeout => Sys2Proof.Machine.execBlendDataTimeout s
  | .blendDmaTimeout => Sys2Proof.Machine.execBlendDmaTimeout s
  | .blendFlashTimeout => Sys2Proof.Machine.execBlendFlashTimeout s
  | .blendValidationDone => Sys2Proof.Machine.execBlendValidationDone s
  | .deltaPanSwitch pan => Sys2Proof.Machine.execDeltaPanSwitch pan s
  | .secondSteepReached => Sys2Proof.Machine.execSecondSteepReached s
  | .restoreRecordDone ok => Sys2Proof.Machine.execRestoreRecordDone ok s
  | .flashScanDone bad => Sys2Proof.Machine.execFlashScanDone bad s
  | .caddyIdleStop caddy => Sys2Proof.Machine.execCaddyIdleStop caddy s
  | .caddyPllLock caddy => Sys2Proof.Machine.execCaddyPllLock caddy s
  | .caddyPllTimeout caddy => Sys2Proof.Machine.execCaddyPllTimeout caddy s
  | .hsubSubmit desc => Sys2Proof.Machine.execHsubSubmit desc s
  | .csubSubmit desc => Sys2Proof.Machine.execCsubSubmit desc s
  | .slotSubmit engine desc => Sys2Proof.Machine.execSlotSubmit engine desc s
  | .taskDispatch task engine => Sys2Proof.Machine.execTaskDispatch task engine s
  | .taskComplete task ret => Sys2Proof.Machine.execTaskComplete task ret s
  | .slotDone engine result => Sys2Proof.Machine.execSlotDone engine result s
  | .depTimeout task => Sys2Proof.Machine.execDepTimeout task s
  | .completionWordPush q => Sys2Proof.Machine.execCompletionWordPush q s
  | .completionWordDrop q => Sys2Proof.Machine.execCompletionWordDrop q s
  | .roleWait task => Sys2Proof.Machine.execRoleWait task s
  | .stealAttempt caddy => Sys2Proof.Machine.execStealAttempt caddy s
  | .watchdog task => Sys2Proof.Machine.execWatchdog task s
  | .drainTimeout task => Sys2Proof.Machine.execDrainTimeout task s
  | .caddyDrainEnd caddy => Sys2Proof.Machine.execCaddyDrainEnd caddy s
  | .engineFault engine => Sys2Proof.Machine.execEngineFault engine s
  | .wqCfgWrite q w => Sys2Proof.Machine.execWqCfgWrite q w s
  | .wqPush m q w => Sys2Proof.Machine.execWqPush m q w s
  | .wqPop m q => Sys2Proof.Machine.execWqPop m q s
  | .wqErrClr q => Sys2Proof.Machine.execWqErrClr q s
  | .cntSelSnapshot caddy unit => Sys2Proof.Machine.execCntSelSnapshot caddy unit s
  | .dspCntClear => Sys2Proof.Machine.execDspCntClear s
  | .dspErrClear => Sys2Proof.Machine.execDspErrClear s
  | .stampReceived p since samples stamp => Sys2Proof.Machine.execStampReceived p since samples stamp s
  | .stampAbsent p => Sys2Proof.Machine.execStampAbsent p s
  | .blockError p sync line prev since => Sys2Proof.Machine.execBlockError p sync line prev since s
  | .blockLock p => Sys2Proof.Machine.execBlockLock p s
  | .hyperframeBoundary p h => Sys2Proof.Machine.execHyperframeBoundary p h s
  | .descData p tag payload => Sys2Proof.Machine.execDescData p tag payload s
  | .synthStatus p tag payload => Sys2Proof.Machine.execSynthStatus p tag payload s
  | .calDone p tag payload => Sys2Proof.Machine.execCalDone p tag payload s
  | .telem p tag payload => Sys2Proof.Machine.execTelem p tag payload s
  | .ack p tag payload => Sys2Proof.Machine.execAck p tag payload s
  | .event p payload => Sys2Proof.Machine.execEvent p payload s
  | .ctrlMessageDropped p msg => Sys2Proof.Machine.execCtrlMessageDropped p msg s
  | .ctrlRequestTimeout p tag => Sys2Proof.Machine.execCtrlRequestTimeout p tag s
  | .telemPoll => Sys2Proof.Machine.execTelemPoll s
  | .portEnable p => Sys2Proof.Machine.execPortEnable p s
  | .portDisable p => Sys2Proof.Machine.execPortDisable p s
  | .portRelink p => Sys2Proof.Machine.execPortRelink p s
  | .holdoffExpiry p => Sys2Proof.Machine.execHoldoffExpiry p s
  | .alignTimeout p => Sys2Proof.Machine.execAlignTimeout p s
  | .descTimeout p => Sys2Proof.Machine.execDescTimeout p s
  | .calTimeout p => Sys2Proof.Machine.execCalTimeout p s
  | .portDrainEnd p => Sys2Proof.Machine.execPortDrainEnd p s
  | .ylErrClr p => Sys2Proof.Machine.execYlErrClr p s
  | .emuRequest p id tag payload => Sys2Proof.Machine.execEmuRequest p id tag payload s
  | .emuAnswerDue p tag => Sys2Proof.Machine.execEmuAnswerDue p tag s
  | .calAgeExpiry p kind => Sys2Proof.Machine.execCalAgeExpiry p kind s
  | .recalRequest => Sys2Proof.Machine.execRecalRequest s
  | .calStart p kind => Sys2Proof.Machine.execCalStart p kind s
  | .calRetry p key => Sys2Proof.Machine.execCalRetry p key s
  | .calHoldRetry p => Sys2Proof.Machine.execCalHoldRetry p s
  | .gainWindow p peaks mean => Sys2Proof.Machine.execGainWindow p peaks mean s
  | .telemAgeExpiry p => Sys2Proof.Machine.execTelemAgeExpiry p s
  | .thermalClear p => Sys2Proof.Machine.execThermalClear p s
  | .txInhibitWrite on => Sys2Proof.Machine.execTxInhibitWrite on s
  | .synthDeadline task => Sys2Proof.Machine.execSynthDeadline task s
  | .onAirStart p => Sys2Proof.Machine.execOnAirStart p s
  | .dutyBinClose => Sys2Proof.Machine.execDutyBinClose s
  | .dutyCopy => Sys2Proof.Machine.execDutyCopy s
  | .hcCntClr => Sys2Proof.Machine.execHcCntClr s
  | .whistleReceived code => Sys2Proof.Machine.execWhistleReceived code s
  | .pwrTimeout => Sys2Proof.Machine.execPwrTimeout s
  | .pwrRelease => Sys2Proof.Machine.execPwrRelease s
  | .noiseWindow vals => Sys2Proof.Machine.execNoiseWindow vals s
  | .detection p c m rho pWin runs => Sys2Proof.Machine.execDetection p c m rho pWin runs s
  | .detectionLate p c => Sys2Proof.Machine.execDetectionLate p c s
  | .sfdFound task ts fec => Sys2Proof.Machine.execSfdFound task ts fec s
  | .noSfd task => Sys2Proof.Machine.execNoSfd task s
  | .phrDone task ok len fcs4 fec => Sys2Proof.Machine.execPhrDone task ok len fcs4 fec s
  | .payloadEnd task => Sys2Proof.Machine.execPayloadEnd task s
  | .decodeDone task passed psdu soft segs err sig cfo mcs => Sys2Proof.Machine.execDecodeDone task passed psdu soft segs err sig cfo mcs s
  | .groupTimeout g => Sys2Proof.Machine.execGroupTimeout g s
  | .recentExpiry => Sys2Proof.Machine.execRecentExpiry s
  | .recordPost changed => Sys2Proof.Machine.execRecordPost changed s
  | .recordHoldTimeout => Sys2Proof.Machine.execRecordHoldTimeout s
  | .rxCntClear => Sys2Proof.Machine.execRxCntClear s
  | .txRequest task => Sys2Proof.Machine.execTxRequest task s
  | .txLate task => Sys2Proof.Machine.execTxLate task s
  | .burstStart task => Sys2Proof.Machine.execBurstStart task s
  | .burstEnd task wave => Sys2Proof.Machine.execBurstEnd task wave s
  | .txCntClear => Sys2Proof.Machine.execTxCntClear s
  | .slotEvaluation pan asn => Sys2Proof.Machine.execSlotEvaluation pan asn s
  | .ackWindowExpiry entry => Sys2Proof.Machine.execAckWindowExpiry entry s
  | .peerMissCheck peer cell asn => Sys2Proof.Machine.execPeerMissCheck peer cell asn s
  | .peerHoldExpiry peer => Sys2Proof.Machine.execPeerHoldExpiry peer s
  | .cellWrite who idx w => Sys2Proof.Machine.execCellWrite who idx w s
  | .cellInvalidate who idx => Sys2Proof.Machine.execCellInvalidate who idx s
  | .cellRead who idx => Sys2Proof.Machine.execCellRead who idx s
  | .addrAlloc who pan => Sys2Proof.Machine.execAddrAlloc who pan s
  | .addrFree who pan addr => Sys2Proof.Machine.execAddrFree who pan addr s
  | .quarantineExpiry pan addr => Sys2Proof.Machine.execQuarantineExpiry pan addr s
  | .tsCntClear => Sys2Proof.Machine.execTsCntClear s
  | .tableRead m table index part => Sys2Proof.Machine.execTableRead m table index part s
  | .tableWrite m table index data => Sys2Proof.Machine.execTableWrite m table index data s
  | .tableLookup m table key changed => Sys2Proof.Machine.execTableLookup m table key changed s
  | .tableInsert m table index sector key data => Sys2Proof.Machine.execTableInsert m table index sector key data s
  | .tableRemove m table index sector key => Sys2Proof.Machine.execTableRemove m table index sector key s
  | .tableCas m table index off wide arg new => Sys2Proof.Machine.execTableCas m table index off wide arg new s
  | .tableAdd m table index off wide arg => Sys2Proof.Machine.execTableAdd m table index off wide arg s
  | .tableMax m table index off wide arg => Sys2Proof.Machine.execTableMax m table index off wide arg s
  | .hearMerge m sector nix ports rssis lqi => Sys2Proof.Machine.execHearMerge m sector nix ports rssis lqi s
  | .tableRequestTimeout m => Sys2Proof.Machine.execTableRequestTimeout m s
  | .sweepVisit hitNow => Sys2Proof.Machine.execSweepVisit hitNow s
  | .tblCntClear => Sys2Proof.Machine.execTblCntClear s
  | .reasmTimeout nix tag => Sys2Proof.Machine.execReasmTimeout nix tag s
  | .ethFrameReceived port frame changed => Sys2Proof.Machine.execEthFrameReceived port frame changed s
  | .uplinkServe full => Sys2Proof.Machine.execUplinkServe full s
  | .shaperRefill q => Sys2Proof.Machine.execShaperRefill q s
  | .policerRefresh => Sys2Proof.Machine.execPolicerRefresh s
  | .ethLinkChange port up => Sys2Proof.Machine.execEthLinkChange port up s
  | .bhDownWrite on => Sys2Proof.Machine.execBhDownWrite on s
  | .backhaulLossExpiry => Sys2Proof.Machine.execBackhaulLossExpiry s
  | .recoveryJoinTimeout => Sys2Proof.Machine.execRecoveryJoinTimeout s
  | .recoveryRetryExpiry => Sys2Proof.Machine.execRecoveryRetryExpiry s
  | .returnExpiry => Sys2Proof.Machine.execReturnExpiry s
  | .fwdCntClear => Sys2Proof.Machine.execFwdCntClear s
  | .epochOpen => Sys2Proof.Machine.execEpochOpen s
  | .timeStep ofs => Sys2Proof.Machine.execTimeStep ofs s
  | .rateWrite w => Sys2Proof.Machine.execRateWrite w s
  | .offsetSample wide theta => Sys2Proof.Machine.execOffsetSample wide theta s
  | .meshSample => Sys2Proof.Machine.execMeshSample s
  | .siteSample => Sys2Proof.Machine.execSiteSample s
  | .revertExpiry src => Sys2Proof.Machine.execRevertExpiry src s
  | .holdWrite h => Sys2Proof.Machine.execHoldWrite h s
  | .domainSampleTimeout b => Sys2Proof.Machine.execDomainSampleTimeout b s
  | .panEpochWrite pan e => Sys2Proof.Machine.execPanEpochWrite pan e s
  | .ppsEdge => Sys2Proof.Machine.execPpsEdge s
  | .ppsTimeout => Sys2Proof.Machine.execPpsTimeout s
  | .todSentence sentence => Sys2Proof.Machine.execTodSentence sentence s
  | .todTimeout => Sys2Proof.Machine.execTodTimeout s
  | .ppsOutEdge rise => Sys2Proof.Machine.execPpsOutEdge rise s
  | .rtcSecond => Sys2Proof.Machine.execRtcSecond s
  | .rtcTrim ppb => Sys2Proof.Machine.execRtcTrim ppb s
  | .rtcAlarm => Sys2Proof.Machine.execRtcAlarm s
  | .tbCheckFail tb main check => Sys2Proof.Machine.execTbCheckFail tb main check s
  | .timCntClear => Sys2Proof.Machine.execTimCntClear s
  | .envelope who bytes tamper cut => Sys2Proof.Machine.execEnvelope who bytes tamper cut s
  | .quote who arg tamper => Sys2Proof.Machine.execQuote who arg tamper s
  | .derive who arg tamper => Sys2Proof.Machine.execDerive who arg tamper s
  | .measExtend who arg tamper => Sys2Proof.Machine.execMeasExtend who arg tamper s
  | .slotRemap who arg tamper => Sys2Proof.Machine.execSlotRemap who arg tamper s
  | .kekRotate who arg tamper => Sys2Proof.Machine.execKekRotate who arg tamper s
  | .kekWalkDone pan => Sys2Proof.Machine.execKekWalkDone pan s
  | .kekInvalidate who arg tamper => Sys2Proof.Machine.execKekInvalidate who arg tamper s
  | .kekClear who arg tamper => Sys2Proof.Machine.execKekClear who arg tamper s
  | .nodeKeyNew who arg tamper => Sys2Proof.Machine.execNodeKeyNew who arg tamper s
  | .nodeKeyRoll who arg tamper => Sys2Proof.Machine.execNodeKeyRoll who arg tamper s
  | .nodeKeyGet who arg tamper => Sys2Proof.Machine.execNodeKeyGet who arg tamper s
  | .nodeKeyExport who arg tamper => Sys2Proof.Machine.execNodeKeyExport who arg tamper s
  | .nodeKeyImport who arg tamper => Sys2Proof.Machine.execNodeKeyImport who arg tamper s
  | .random who arg tamper => Sys2Proof.Machine.execRandom who arg tamper s
  | .recovKeyLoad who arg tamper => Sys2Proof.Machine.execRecovKeyLoad who arg tamper s
  | .provision who arg tamper cut => Sys2Proof.Machine.execProvision who arg tamper cut s
  | .lifecycleDebug target lock eui cert policy subsys cut => Sys2Proof.Machine.execLifecycleDebug target lock eui cert policy subsys cut s
  | .debugRequestRefused => Sys2Proof.Machine.execDebugRequestRefused s
  | .sealWriteDone => Sys2Proof.Machine.execSealWriteDone s
  | .sealWriteTimeout => Sys2Proof.Machine.execSealWriteTimeout s
  | .bcastCeilingWriteDone pan => Sys2Proof.Machine.execBcastCeilingWriteDone pan s
  | .fsuParse engine buf node => Sys2Proof.Machine.execFsuParse engine buf node s
  | .fsuVerify engine buf node => Sys2Proof.Machine.execFsuVerify engine buf node s
  | .fsuSecure engine buf node fc => Sys2Proof.Machine.execFsuSecure engine buf node fc s
  | .tamperEvent source live => Sys2Proof.Machine.execTamperEvent source live s
  | .trngHealthFail => Sys2Proof.Machine.execTrngHealthFail s
  | .trngRetest pass => Sys2Proof.Machine.execTrngRetest pass s
  | .drbgReseed => Sys2Proof.Machine.execDrbgReseed s
  | .secCntClear => Sys2Proof.Machine.execSecCntClear s
  | .create who desc buf image flashOk cut => Sys2Proof.Machine.execCreate who desc buf image flashOk cut s
  | .start who cnum => Sys2Proof.Machine.execStart who cnum s
  | .pause who cnum => Sys2Proof.Machine.execPause who cnum s
  | .resume who cnum => Sys2Proof.Machine.execResume who cnum s
  | .cancel who cnum => Sys2Proof.Machine.execCancel who cnum s
  | .delete who cnum => Sys2Proof.Machine.execDelete who cnum s
  | .sessionGapExpiry cnum => Sys2Proof.Machine.execSessionGapExpiry cnum s
  | .campaignScan => Sys2Proof.Machine.execCampaignScan s
  | .campaignStateWriteTimeout cnum => Sys2Proof.Machine.execCampaignStateWriteTimeout cnum s
  | .cmpCntClear => Sys2Proof.Machine.execCmpCntClear s
  | .updBegin who len stall => Sys2Proof.Machine.execUpdBegin who len stall s
  | .updWrite who off len buf data stall => Sys2Proof.Machine.execUpdWrite who off len buf data stall s
  | .updVerify who => Sys2Proof.Machine.execUpdVerify who s
  | .updActivate who again stall => Sys2Proof.Machine.execUpdActivate who again stall s
  | .updConfirm who burnt => Sys2Proof.Machine.execUpdConfirm who burnt s
  | .updAbandon who => Sys2Proof.Machine.execUpdAbandon who s
  | .restart who ccA trng => Sys2Proof.Machine.execRestart who ccA trng s
  | .setWrite who key len buf data stall => Sys2Proof.Machine.execSetWrite who key len buf data stall s
  | .setEraseNs who ns stall => Sys2Proof.Machine.execSetEraseNs who ns stall s
  | .snapNow who => Sys2Proof.Machine.execSnapNow who s
  | .brewReady who => Sys2Proof.Machine.execBrewReady who s
  | .trialBrewTimeout => Sys2Proof.Machine.execTrialBrewTimeout s
  | .trialConfirmTimeout => Sys2Proof.Machine.execTrialConfirmTimeout s
  | .baseImageCapture => Sys2Proof.Machine.execBaseImageCapture s
  | .counterImageCapture => Sys2Proof.Machine.execCounterImageCapture s
  | .imageWriteDone counter => Sys2Proof.Machine.execImageWriteDone counter s
  | .counterImageTimeout => Sys2Proof.Machine.execCounterImageTimeout s
  | .flashProgramTimeout again => Sys2Proof.Machine.execFlashProgramTimeout again s
  | .flashEraseTimeout again => Sys2Proof.Machine.execFlashEraseTimeout again s
  | .hostReadTimeout => Sys2Proof.Machine.execHostReadTimeout s
  | .commitPost cc secure addr data type => Sys2Proof.Machine.execCommitPost cc secure addr data type s
  | .jrnlOpen w => Sys2Proof.Machine.execJrnlOpen w s
  | .jrnlStep tag => Sys2Proof.Machine.execJrnlStep tag s
  | .jrnlClose w => Sys2Proof.Machine.execJrnlClose w s
  | .gateWindowClose => Sys2Proof.Machine.execGateWindowClose s
  | .gateLagTimeout => Sys2Proof.Machine.execGateLagTimeout s
  | .mismatchTestDone aPass bPass => Sys2Proof.Machine.execMismatchTestDone aPass bPass s
  | .pathCheckFail cc => Sys2Proof.Machine.execPathCheckFail cc s
  | .resyncDone cc => Sys2Proof.Machine.execResyncDone cc s
  | .ccTestDone cc pass => Sys2Proof.Machine.execCcTestDone cc pass s
  | .ccRetestTimer cc => Sys2Proof.Machine.execCcRetestTimer cc s
  | .ccRetest cc => Sys2Proof.Machine.execCcRetest cc s
  | .ccIsolate cc => Sys2Proof.Machine.execCcIsolate cc s
  | .swapDue => Sys2Proof.Machine.execSwapDue s
  | .takebackHoldoffExpiry => Sys2Proof.Machine.execTakebackHoldoffExpiry s
  | .spareCaddyTestDone caddy pass => Sys2Proof.Machine.execSpareCaddyTestDone caddy pass s
  | .eccError mem array row col uncorrectable addr => Sys2Proof.Machine.execEccError mem array row col uncorrectable addr s
  | .scrubRead => Sys2Proof.Machine.execScrubRead s
  | .rowRepairDone array column index => Sys2Proof.Machine.execRowRepairDone array column index s
  | .bankRepairDone bank => Sys2Proof.Machine.execBankRepairDone bank s
  | .bistSliceStart => Sys2Proof.Machine.execBistSliceStart s
  | .bistFenceIdle => Sys2Proof.Machine.execBistFenceIdle s
  | .bistFenceTimeout => Sys2Proof.Machine.execBistFenceTimeout s
  | .bistSliceEnd pass part => Sys2Proof.Machine.execBistSliceEnd pass part s
  | .funcDisable who cls index => Sys2Proof.Machine.execFuncDisable who cls index s
  | .funcEnable who cls index => Sys2Proof.Machine.execFuncEnable who cls index s
  | .funcDrainEnd cls index => Sys2Proof.Machine.execFuncDrainEnd cls index s
  | .repairBurn who seq cut => Sys2Proof.Machine.execRepairBurn who seq cut s
  | .repairLogTimeout => Sys2Proof.Machine.execRepairLogTimeout s
  | .jrnlFetch seq => Sys2Proof.Machine.execJrnlFetch seq s
  | .jrnlFetchDone => Sys2Proof.Machine.execJrnlFetchDone s
  | .resCntClear => Sys2Proof.Machine.execResCntClear s
  | .pendingClear m w => Sys2Proof.Machine.execPendingClear m w s
  | .maskWrite m w => Sys2Proof.Machine.execMaskWrite m w s
  | .ccpendClear m w => Sys2Proof.Machine.execCcpendClear m w s
  | .telAlmAck entry seen => Sys2Proof.Machine.execTelAlmAck entry seen s
  | .fwRaise fw unit => Sys2Proof.Machine.execFwRaise fw unit s
  | .counterExport => Sys2Proof.Machine.execCounterExport s
  | .teleRingSend => Sys2Proof.Machine.execTeleRingSend s
  | .ringConsWrite index => Sys2Proof.Machine.execRingConsWrite index s
  | .teleDatagramSend => Sys2Proof.Machine.execTeleDatagramSend s
  | .stormEnd => Sys2Proof.Machine.execStormEnd s
  | .telCntClear => Sys2Proof.Machine.execTelCntClear s
  | .hostReset => Sys2Proof.Machine.execHostReset s
  | .bar0BadAccess offset read => Sys2Proof.Machine.execBar0BadAccess offset read s
  | .bar2Read offset len changed => Sys2Proof.Machine.execBar2Read offset len changed s
  | .bar2Write offset => Sys2Proof.Machine.execBar2Write offset s
  | .stoppedAccessTimeout cc => Sys2Proof.Machine.execStoppedAccessTimeout cc s
  | .msixUnmask vector => Sys2Proof.Machine.execMsixUnmask vector s
  | .hcqDoorbell tail => Sys2Proof.Machine.execHcqDoorbell tail s
  | .hcqFetch entry => Sys2Proof.Machine.execHcqFetch entry s
  | .hcqFetchTimeout => Sys2Proof.Machine.execHcqFetchTimeout s
  | .cqStall => Sys2Proof.Machine.execCqStall s
  | .cqHeadWrite head => Sys2Proof.Machine.execCqHeadWrite head s
  | .hcqEnable => Sys2Proof.Machine.execHcqEnable s
  | .hcqDisable => Sys2Proof.Machine.execHcqDisable s
  | .commandStart mgmt index => Sys2Proof.Machine.execCommandStart mgmt index s
  | .commandComplete jseq => Sys2Proof.Machine.execCommandComplete jseq s
  | .commandDataTimeout jseq => Sys2Proof.Machine.execCommandDataTimeout jseq s
  | .nop who => Sys2Proof.Machine.execNop who s
  | .regRead who offset => Sys2Proof.Machine.execRegRead who offset s
  | .regWrite who offset w => Sys2Proof.Machine.execRegWrite who offset w s
  | .jrnlRead who seq => Sys2Proof.Machine.execJrnlRead who seq s
  | .alarmAck who entry seen => Sys2Proof.Machine.execAlarmAck who entry seen s
  | .blendLoad who source addr len => Sys2Proof.Machine.execBlendLoad who source addr len s
  | .taskSubmit who desc => Sys2Proof.Machine.execTaskSubmit who desc s
  | .upRingPost ring tail descs => Sys2Proof.Machine.execUpRingPost ring tail descs s
  | .dnRingPost ring tail => Sys2Proof.Machine.execDnRingPost ring tail s
  | .dnDescriptorProcess ring desc data => Sys2Proof.Machine.execDnDescriptorProcess ring desc data s
  | .dnReadTimeout ring => Sys2Proof.Machine.execDnReadTimeout ring s
  | .mqSubmit handle => Sys2Proof.Machine.execMqSubmit handle s
  | .mgmtTx handle => Sys2Proof.Machine.execMgmtTx handle s
  | .mgmtTxDone handle => Sys2Proof.Machine.execMgmtTxDone handle s
  | .hifCntClear => Sys2Proof.Machine.execHifCntClear s
  | .atInstant p tag => Sys2Proof.Machine.execAtInstant p tag s
  | .blankingEnd p => Sys2Proof.Machine.execBlankingEnd p s
  | .vectorIntervalExpiry vector => Sys2Proof.Machine.execVectorIntervalExpiry vector s
  | .pcieLinkChange up width speed => Sys2Proof.Machine.execPcieLinkChange up width speed s
  | .prbsError p hist block => Sys2Proof.Machine.execPrbsError p hist block s

end Sys2Proof.Machine
end

