-- ==== Sys2Proof/Machine/Step.lean ====
section
/-! DEFINITION. One step: the command at the front of the queue, or one SYSCLK cycle. -/

namespace Sys2Proof.Machine

/-- One step of the block: the command at the front of the queue runs with the rest of the queue; with an empty queue one cycle of
SYSCLK passes (R295; log entry 3). (DESIGN CHOICE: log entry 3) -/
def step (s : State) : Host.Outcome State Fault Refusal :=
  match s.pending with
  | [] => .next { s with dev := cycle s.dev }
  | c :: rest => exec c { s with pending := rest }

/-- `s` with the command that the word `w` spells at the front of its queue; unchanged where the word spells none. (DESIGN CHOICE: log entry 1) -/
def State.withFetchWord (s : State) (nbits w : Nat) : State :=
  match Sys2Proof.decodeTableWord nbits w with
  | some c => { s with pending := c :: s.pending }
  | none => s

end Sys2Proof.Machine
end

