-- ==== Sys2Proof/Safety.lean ====
section
/-! DEFINITION. What the statements speak of: what the fuses may hold and how they may change, the parts of the device a command leaves as they
were, and an output a command sends. -/

namespace Sys2Proof.Machine

/-! ### Fuses -/

/-- A burn that is to complete names a life-cycle state of Table KEY-1. -/
def Burn.fits : Burn → Bool
  | .lifecycle c => decide (c ≤ 5)
  | _ => true

/-- The fuses hold what there are fuses for: a life-cycle code of Table KEY-1, 32 seal-epoch bits (R339), four owner records (R333), 64
rollback bits (R411), 256 repair records (R439), 16 bits of tamper policy (R367). -/
abbrev Fuses.fits (f : Fuses) : Prop :=
  f.lc ≤ 5 ∧ f.sealEpoch ≤ 32 ∧ f.owners.length ≤ 4 ∧ f.rollback ≤ 64 ∧ f.repairs.length ≤ 256 ∧ f.tamper < 65536 ∧ f.pend.all Burn.fits = true

/-- Fuses are one-way: counts rise, records stay and others follow them, the life cycle goes forward; and what entry to MANUFACTURE writes is
written in BLANK only (R331). -/
structure Fuses.Grows (f g : Fuses) : Prop where
  lc : f.lc ≤ g.lc
  sealEpoch : f.sealEpoch ≤ g.sealEpoch
  rollback : f.rollback ≤ g.rollback
  owners : f.owners <+: g.owners
  repairs : f.repairs <+: g.repairs
  written : f.lc ≠ 0 → g.root = f.root ∧ g.lock = f.lock ∧ g.eui = f.eui ∧ g.tamper = f.tamper ∧ g.subsys = f.subsys
  made : g.rev = f.rev

/-! ### Frames -/

/-- The parts of the device other than its registers. -/
inductive Part where
  | shadows | held | rdata | stage | isolated | inReset | draws | outs | tel | jrnl | hif | bld | dsp | ports | hc | rx | tx | pbm | tim | ktl
  | ts | tbl | fwd | vault | boot | cmp | res
deriving DecidableEq, Repr

/-- Two devices agree on a part. -/
def Part.agree (p : Part) (d e : Dev) : Prop :=
  match p with
  | .shadows => e.shadows = d.shadows
  | .held => e.held = d.held
  | .rdata => e.rdata = d.rdata
  | .stage => e.stage = d.stage
  | .isolated => e.isolated = d.isolated
  | .inReset => e.inReset = d.inReset
  | .draws => e.draws = d.draws
  | .outs => e.outs = d.outs
  | .tel => e.tel = d.tel
  | .jrnl => e.jrnl = d.jrnl
  | .hif => e.hif = d.hif
  | .bld => e.bld = d.bld
  | .dsp => e.dsp = d.dsp
  | .ports => e.ports = d.ports
  | .hc => e.hc = d.hc
  | .rx => e.rx = d.rx
  | .tx => e.tx = d.tx
  | .pbm => e.pbm = d.pbm
  | .tim => e.tim = d.tim
  | .ktl => e.ktl = d.ktl
  | .ts => e.ts = d.ts
  | .tbl => e.tbl = d.tbl
  | .fwd => e.fwd = d.fwd
  | .vault => e.vault = d.vault
  | .boot => e.boot = d.boot
  | .cmp => e.cmp = d.cmp
  | .res => e.res = d.res

/-- From `s` to `t` the fuses, the queue, every part of the device but those listed, and every register but those of `rs` stay. -/
structure Frame (ps : List Part) (rs : Nat → Bool) (s t : State) : Prop where
  fuses : t.fuses = s.fuses
  pending : t.pending = s.pending
  parts : ∀ p : Part, p ∉ ps → p.agree s.dev t.dev
  regs : ∀ a, rs a = false → t.dev.reg a = s.dev.reg a

/-- A command completes: it answers a next state of which `P` holds, the parts `ps` and the registers `rs` aside all as before. -/
def Completes (c : Sys2Proof.Instr) (s : State) (ps : List Part) (rs : Nat → Bool) (P : State → Prop) : Prop :=
  ∃ t, exec c s = .next t ∧ Frame ps rs s t ∧ P t

/-- What raising an event and writing the fault journal may change beside a command's own effect: telemetry, the journal, the record of outputs,
the telemetry and MSI-X registers, and the newest journal seq (R441, R447, R468). -/
def noteParts : List Part := [.tel, .jrnl, .outs]
def noteRegs (a : Nat) : Bool := decide (0xF09000 ≤ a) || a == RES_JRNL_NEWEST

/-- Security commands are served (R331, R369, R372). -/
abbrev Serving (s : State) : Prop := s.dev.inReset = false ∧ s.fuses.lc ≠ 0 ∧ 2 ≤ s.dev.stage ∧ s.dev.vault.hold = false

/-- No tamper event that counts falls into a command (R367, R368). -/
abbrev Calm (s : State) (tamper : Option Nat) : Prop := tamper.filter (tamperEnabled s.fuses) = none

/-- The result and the output that a security command left for who asked: in its register set, or on its started host command (R372). -/
def told (d : Dev) (w : Sys2Proof.Who) (r : Nat) (out : List Byte) : Bool :=
  match w, secMaster w with
  | .cmd j, _ => (d.hif.running ++ d.hif.orphaned ++ d.hif.mqRunning).all fun c => c.jseq != j || (c.result == some r && c.data == out)
  | _, some m => (d.cmdSet (setKey m)).result == r && (d.cmdSet (setKey m)).out == out
  | _, none => false

/-- The result of a campaign command for who asked: in CMP_CMD_STATUS, busy 0, or on its started host command (Table CAMP-4). -/
def campTold (d : Dev) (w : Sys2Proof.Who) (r : Nat) : Bool :=
  match w with
  | .master _ => d.fld CMP_CMD_STATUS_result == r && d.fld CMP_CMD_STATUS_busy == 0
  | .cmd _ => told d w r []

/-- The result of a start or update command for who asked: in BOOT_CMD_STATUS, busy 0, or on its started host command (R415). -/
def bootTold (d : Dev) (w : Sys2Proof.Who) (r detail : Nat) : Bool :=
  match w with
  | .master _ => d.fld BOOT_CMD_STATUS_result == r && d.fld BOOT_CMD_STATUS_detail == detail && d.fld BOOT_CMD_STATUS_busy == 0
  | .cmd _ => told d w r (le 4 detail)

/-- The confirmation slots are two, one record each (R409). -/
abbrev ConfSlots (d : Dev) : Prop := ∀ e ∈ d.boot.conf, e.1 < 2 ∧ Tab.find d.boot.conf e.1 = some e.2

/-- The result of a RES_FUNC_CMD on a function, and of a repair command, for who asked (R439, R440). -/
def fnTold (d : Dev) (w : Sys2Proof.Who) (r cls i : Nat) : Bool :=
  match w with
  | .master _ => d.fld RES_FUNC_STATUS_result == r
  | .cmd _ => told d w r (le 4 (if r = fnRANGE then 0 else fnState d cls i))
def repTold (d : Dev) (w : Sys2Proof.Who) (r : Nat) : Bool :=
  match w with
  | .master _ => d.fld RES_REPAIR_STATUS_result == r
  | .cmd _ => told d w r []

/-- The commands of Table KEY-13 that take an argument block, with their codes and the masters listed. -/
def secCommands (w : Sys2Proof.Who) (arg : List Byte) (tam : Option Nat) : List (Sys2Proof.Instr × Nat × List Nat) :=
  [(.quote w arg tam, 0x02, [31, 28, 29]), (.derive w arg tam, 0x03, [28]), (.measExtend w arg tam, 0x04, [28]),
   (.slotRemap w arg tam, 0x05, [28, 31]), (.kekRotate w arg tam, 0x06, [28]), (.kekInvalidate w arg tam, 0x07, [28, 31]),
   (.kekClear w arg tam, 0x08, [28]), (.nodeKeyNew w arg tam, 0x09, [28]), (.nodeKeyRoll w arg tam, 0x0A, [28]),
   (.nodeKeyGet w arg tam, 0x0B, [28]), (.nodeKeyExport w arg tam, 0x0C, [28]), (.nodeKeyImport w arg tam, 0x0D, [28]),
   (.random w arg tam, 0x0E, [28, 29]), (.recovKeyLoad w arg tam, 0x0F, [28]), (.provision w arg tam false, 0x10, [32, 31])]

/-- A load ended FAILED with a code, and was counted as a refusal (R46, R53, R54). -/
abbrev LoadFailed (s : State) (code : Nat) (t : State) : Prop :=
  bldState t.dev = bsFAILED ∧ t.dev.fld BLD_STATUS_code = code ∧ t.dev.fld BLD_STATUS_entry = 0xFF ∧
    t.dev.fld BLD_REFUSED_count = min (s.dev.fld BLD_REFUSED_count + 1) BLD_REFUSED_count.max ∧ t.dev.bld = { s.dev.bld with load := none }

/-- Task `i`, the only one of engine `e`, has left the engine and the task table (R66, R77). -/
abbrev TaskGone (i e : Nat) (s t : State) : Prop :=
  t.fuses = s.fuses ∧ t.pending = s.pending ∧ t.dev.task i = none ∧ (t.dev.engine e).tasks = []

/-- Task `i` is `p`, in service on engine `e` as its only task, with nothing prefetched behind it and no flow, successor or notification: its
end touches no other task (R66, R69, R71, R74). -/
abbrev Alone (d : Dev) (i e : Nat) (p : Task) : Prop :=
  d.task i = some p ∧ p.d.id = i ∧ p.phase = .service e ∧ (d.engine e).tasks = [i] ∧ (d.engine e).prefetch = none ∧ p.ticket = none ∧
    p.d.succ0 = noTask ∧ p.d.succ1 = noTask ∧ p.d.notify = false

end Sys2Proof.Machine
end

