-- ==== Sys2Proof/WellFormed.lean ====
section
/-! DEFINITION. Well-formed commands: the objects they name exist, and their byte operands have the lengths the spec gives them. A command
whose operand the spec lets any value reach (an address past the map, a class that ends RANGE) is not judged by it. -/

namespace Sys2Proof

/-- A Yarlink port or head, HP00 to HP63. -/
def okPort (x : Nat) : Bool := decide (x < 64)

/-- An Ethernet port, ETH0 to ETH3. -/
def okEth (x : Nat) : Bool := decide (x < 4)

/-- A physical Caddy, CD00 to CD33. -/
def okCaddy (x : Nat) : Bool := decide (x < 34)

/-- An engine: physical Caddy × 16 + engine. -/
def okEngine (x : Nat) : Bool := decide (x < 544)

/-- A protocol engine: engines 8 to 15 of a Caddy. -/
def okPe (x : Nat) : Bool := decide (x < 544) && decide (8 ≤ x % 16)

/-- A PAN slot. -/
def okPan (x : Nat) : Bool := decide (x < 8)

/-- A peer record. -/
def okPeer (x : Nat) : Bool := decide (x < 16)

/-- A sector, SC00 to SC15. -/
def okSector (x : Nat) : Bool := decide (x < 16)

/-- A time base, TB0 to TB7. -/
def okTb (x : Nat) : Bool := decide (x < 8)

/-- A frame ring pair. -/
def okRing (x : Nat) : Bool := decide (x < 8)

/-- An MSI-X vector. -/
def okVector (x : Nat) : Bool := decide (x < 32)

/-- A Control Complex: 0 CC-A, 1 CC-B. -/
def okCc (x : Nat) : Bool := decide (x < 2)

/-- A word queue. -/
def okWq (x : Nat) : Bool := decide (x < 256)

/-- A queue with a shaper: direction, sector, class (R279). -/
def okShaper (x : Nat) : Bool := decide (x < 512)

/-- A task identifier (Table CADDY-3); 0xFFFF names none. -/
def okTask (x : Nat) : Bool := decide (x < 65535)

/-- A tag of the control channel (R109): 1 to 255. -/
def okTag8 (x : Nat) : Bool := decide (1 ≤ x) && decide (x < 256)

/-- A 16-bit operand. -/
def ok16 (x : Nat) : Bool := decide (x < 65536)

/-- A 20-bit operand: a cell index, a NIX. -/
def ok20 (x : Nat) : Bool := decide (x < 2 ^ 20)

/-- A 32-bit operand. -/
def ok32 (x : Nat) : Bool := decide (x < 2 ^ 32)

/-- A 64-bit operand. -/
def ok64 (x : Nat) : Bool := decide (x < 2 ^ 64)

/-- An entry of the alarm table. -/
def okAlarm (x : Nat) : Bool := decide (x < 512)

/-- A queue entry (R273). -/
def okQEntry (x : Nat) : Bool := decide (x < 65535)

/-- An index of a host ring (Table of HIF_HCQ_TAIL). -/
def okIndex12 (x : Nat) : Bool := decide (x < 4096)

/-- A campaign number (R377). -/
def okCamp (x : Nat) : Bool := decide (x < 255)

/-- A table number of the request port: 0 to 8, or 9. -/
def okTable (x : Nat) : Bool := decide (x < 10)

/-- A BAR0 register offset: a multiple of 4 below 16 MiB. -/
def okReg (x : Nat) : Bool := decide (x % 4 = 0) && decide (x < 2 ^ 24)

/-- An address of an access by a master: a register offset, or for an engine an address of its map. -/
def okAccess (x : Nat) : Bool := decide (x % 4 = 0) && decide (x < 2 ^ 24)

/-- A byte address of an access by a master, below 16 MiB. -/
def okByteAddr (x : Nat) : Bool := decide (x < 2 ^ 24)

/-- The bytes of an access: 1 to 8 (R463). -/
def okLen (x : Nat) : Bool := decide (1 ≤ x) && decide (x ≤ 8)

/-- A register of eight words: TEL_PEND, TEL_MASK, TEL_CCPEND. -/
def okWords (x : Nat) : Bool := decide (x < 8)

/-- A firmware event source, FW0 to FW7. -/
def okFw (x : Nat) : Bool := decide (x < 8)

/-- A tamper source (Table KEY-11). -/
def okTamper (x : Nat) : Bool := decide (x < 8)

/-- A tamper event during a command, if one comes. -/
def okTamper? (x : Option Nat) : Bool := x.all fun s => decide (s < 8)

/-- A memory of R432. -/
def okMem (x : Nat) : Bool := decide (x < 5)

/-- A function class field of RES_FUNC_CMD. -/
def okClass (x : Nat) : Bool := decide (x < 16)

/-- A calibration kind (Table HEAD-1). -/
def okKind (x : Nat) : Bool := decide (x < 5)

/-- A source of BLEND_LOAD: host memory or flash. -/
def okLoad (x : Nat) : Bool := x == 1 || x == 2

/-- A channel index (R157). -/
def okSlots (x : Nat) : Bool := decide (x < 256)

/-- A sync header of two bits. -/
def okSync (x : Nat) : Bool := decide (x < 4)

/-- The 58 line bits before a block (R94). -/
def okPrev (x : Nat) : Bool := decide (x < 2 ^ 58)

/-- 31 bits of PRBS31 (R122). -/
def okHist (x : Nat) : Bool := decide (x < 2 ^ 31)

/-- Bytes 1 to 7 of a STAMP block (Table YLINK-4). -/
def okStamp (x : List Byte) : Bool := x.length == 7

/-- A descriptor of 32 bytes. -/
def okBytes32 (x : List Byte) : Bool := x.length == 32

/-- An argument block or entry of 64 bytes. -/
def okBytes64 (x : List Byte) : Bool := x.length == 64

/-- A Key Envelope of 336 bytes (Table KEY-6). -/
def okBytes336 (x : List Byte) : Bool := x.length == 336

/-- A key string of 16 bytes (Table TABLE-2). -/
def okKey (x : List Byte) : Bool := x.length == 16

/-- Entry bytes of the request port, at most 64. -/
def okData (x : List Byte) : Bool := decide (x.length ≤ 64)

/-- A payload of a control message, at most 255 bytes. -/
def okPayload (x : List Byte) : Bool := decide (x.length ≤ 255)

/-- An Ethernet frame without FCS: 14 to 1,522 octets. -/
def okFrame (x : List Byte) : Bool := decide (14 ≤ x.length) && decide (x.length ≤ 1522)

/-- A gated power domain: a Caddy, a complex, the SerDes of 8 ports, of Ethernet, of PCI Express. -/
def okDomain (x : Nat) : Bool := decide (x < 34) || x == 64 || x == 65 || (decide (128 ≤ x) && decide (x < 136)) || x == 192 || x == 200

/-- A failing part of a Caddy: engine, Trellis Unit, or the whole. -/
def okPart (x : Nat) : Bool := decide (x < 19)

/-- A logical bank of Shared Table Memory. -/
def okBank (x : Nat) : Bool := decide (x < 256)

/-- The command names objects that exist, with operands of their lengths. -/
def Instr.wellFormed : Instr → Bool
  | .registerWrite _ addr len _ => okByteAddr addr && okLen len
  | .pairLoRead _ addr len => okByteAddr addr && okLen len
  | .pairHiRead _ addr len => okByteAddr addr && okLen len
  | .pairLoWrite _ addr _ => okAccess addr
  | .pairHiWrite _ addr _ => okAccess addr
  | .porRelease _ _ => true
  | .porAssert => true
  | .supplyTrip _ _ => true
  | .tempTrip _ => true
  | .sysclkTrip _ => true
  | .vbatApply => true
  | .kettlePowerLoss => true
  | .powerDomainFault domain => okDomain domain
  | .blendStart => true
  | .blendAbort => true
  | .bldData _ => true
  | .blendReadCompletion _ => true
  | .blendDataTimeout => true
  | .blendDmaTimeout => true
  | .blendFlashTimeout => true
  | .blendValidationDone => true
  | .deltaPanSwitch pan => okPan pan
  | .secondSteepReached => true
  | .restoreRecordDone _ => true
  | .flashScanDone bad => bad.all fun k => decide (k < 10)
  | .caddyIdleStop caddy => okCaddy caddy
  | .caddyPllLock caddy => okCaddy caddy
  | .caddyPllTimeout caddy => okCaddy caddy
  | .hsubSubmit desc => okBytes32 desc
  | .csubSubmit desc => okBytes32 desc
  | .slotSubmit engine desc => okPe engine && okBytes32 desc
  | .taskDispatch task engine => okTask task && okEngine engine
  | .taskComplete task _ => okTask task
  | .slotDone engine _ => okPe engine
  | .depTimeout task => okTask task
  | .completionWordPush q => okWq q
  | .completionWordDrop q => okWq q
  | .roleWait task => okTask task
  | .stealAttempt caddy => okCaddy caddy
  | .watchdog task => okTask task
  | .drainTimeout task => okTask task
  | .caddyDrainEnd caddy => okCaddy caddy
  | .engineFault engine => okEngine engine
  | .wqCfgWrite q _ => okWq q
  | .wqPush _ q _ => okWq q
  | .wqPop _ q => okWq q
  | .wqErrClr q => okWq q
  | .cntSelSnapshot caddy _ => okCaddy caddy
  | .dspCntClear => true
  | .dspErrClear => true
  | .stampReceived p _ _ stamp => okPort p && okStamp stamp
  | .stampAbsent p => okPort p
  | .blockError p sync line prev _ => okPort p && okSync sync && ok64 line && okPrev prev
  | .blockLock p => okPort p
  | .hyperframeBoundary p _ => okPort p
  | .descData p tag payload => okPort p && okTag8 tag && okPayload payload
  | .synthStatus p tag payload => okPort p && okTag8 tag && okPayload payload
  | .calDone p tag payload => okPort p && okTag8 tag && okPayload payload
  | .telem p tag payload => okPort p && okTag8 tag && okPayload payload
  | .ack p tag payload => okPort p && okTag8 tag && okPayload payload
  | .event p payload => okPort p && okPayload payload
  | .ctrlMessageDropped p _ => okPort p
  | .ctrlRequestTimeout p tag => okPort p && okTag8 tag
  | .telemPoll => true
  | .portEnable p => okPort p
  | .portDisable p => okPort p
  | .portRelink p => okPort p
  | .holdoffExpiry p => okPort p
  | .alignTimeout p => okPort p
  | .descTimeout p => okPort p
  | .calTimeout p => okPort p
  | .portDrainEnd p => okPort p
  | .ylErrClr p => okPort p
  | .emuRequest p _ tag payload => okPort p && okTag8 tag && okPayload payload
  | .emuAnswerDue p tag => okPort p && okTag8 tag
  | .calAgeExpiry p kind => okPort p && okKind kind
  | .recalRequest => true
  | .calStart p kind => okPort p && okKind kind
  | .calRetry p _ => okPort p
  | .calHoldRetry p => okPort p
  | .gainWindow p _ _ => okPort p
  | .telemAgeExpiry p => okPort p
  | .thermalClear p => okPort p
  | .txInhibitWrite _ => true
  | .synthDeadline task => okTask task
  | .onAirStart p => okPort p
  | .dutyBinClose => true
  | .dutyCopy => true
  | .hcCntClr => true
  | .whistleReceived _ => true
  | .pwrTimeout => true
  | .pwrRelease => true
  | .noiseWindow _ => true
  | .detection p c _ _ _ _ => okPort p && okSlots c
  | .detectionLate p c => okPort p && okSlots c
  | .sfdFound task _ _ => okTask task
  | .noSfd task => okTask task
  | .phrDone task _ _ _ _ => okTask task
  | .payloadEnd task => okTask task
  | .decodeDone task _ _ _ _ _ _ _ _ => okTask task
  | .groupTimeout _ => true
  | .recentExpiry => true
  | .recordPost _ => true
  | .recordHoldTimeout => true
  | .rxCntClear => true
  | .txRequest task => okTask task
  | .txLate task => okTask task
  | .burstStart task => okTask task
  | .burstEnd task _ => okTask task
  | .txCntClear => true
  | .slotEvaluation pan _ => okPan pan
  | .ackWindowExpiry entry => okQEntry entry
  | .peerMissCheck peer _ _ => okPeer peer
  | .peerHoldExpiry peer => okPeer peer
  | .cellWrite _ idx w => ok20 idx && ok64 w
  | .cellInvalidate _ idx => ok20 idx
  | .cellRead _ idx => ok20 idx
  | .addrAlloc _ _ => true
  | .addrFree _ _ addr => ok16 addr
  | .quarantineExpiry pan addr => okPan pan && ok16 addr
  | .tsCntClear => true
  | .tableRead _ table _ _ => okTable table
  | .tableWrite _ table _ data => okTable table && okData data
  | .tableLookup _ table key _ => okTable table && okKey key
  | .tableInsert _ table _ sector key data => okTable table && okSector sector && okKey key && okData data
  | .tableRemove _ table _ sector key => okTable table && okSector sector && okKey key
  | .tableCas _ table _ _ _ _ _ => okTable table
  | .tableAdd _ table _ _ _ _ => okTable table
  | .tableMax _ table _ _ _ _ => okTable table
  | .hearMerge _ sector nix _ _ _ => okSector sector && ok20 nix
  | .tableRequestTimeout _ => true
  | .sweepVisit _ => true
  | .tblCntClear => true
  | .reasmTimeout nix tag => ok20 nix && ok16 tag
  | .ethFrameReceived port frame _ => okEth port && okFrame frame
  | .uplinkServe _ => true
  | .shaperRefill q => okShaper q
  | .policerRefresh => true
  | .ethLinkChange port _ => okEth port
  | .bhDownWrite _ => true
  | .backhaulLossExpiry => true
  | .recoveryJoinTimeout => true
  | .recoveryRetryExpiry => true
  | .returnExpiry => true
  | .fwdCntClear => true
  | .epochOpen => true
  | .timeStep _ => true
  | .rateWrite _ => true
  | .offsetSample _ _ => true
  | .meshSample => true
  | .siteSample => true
  | .revertExpiry _ => true
  | .holdWrite _ => true
  | .domainSampleTimeout _ => true
  | .panEpochWrite pan _ => okPan pan
  | .ppsEdge => true
  | .ppsTimeout => true
  | .todSentence _ => true
  | .todTimeout => true
  | .ppsOutEdge _ => true
  | .rtcSecond => true
  | .rtcTrim _ => true
  | .rtcAlarm => true
  | .tbCheckFail tb _ _ => okTb tb
  | .timCntClear => true
  | .envelope _ bytes tamper _ => okBytes336 bytes && okTamper? tamper
  | .quote _ arg tamper => okBytes64 arg && okTamper? tamper
  | .derive _ arg tamper => okBytes64 arg && okTamper? tamper
  | .measExtend _ arg tamper => okBytes64 arg && okTamper? tamper
  | .slotRemap _ arg tamper => okBytes64 arg && okTamper? tamper
  | .kekRotate _ arg tamper => okBytes64 arg && okTamper? tamper
  | .kekWalkDone pan => okPan pan
  | .kekInvalidate _ arg tamper => okBytes64 arg && okTamper? tamper
  | .kekClear _ arg tamper => okBytes64 arg && okTamper? tamper
  | .nodeKeyNew _ arg tamper => okBytes64 arg && okTamper? tamper
  | .nodeKeyRoll _ arg tamper => okBytes64 arg && okTamper? tamper
  | .nodeKeyGet _ arg tamper => okBytes64 arg && okTamper? tamper
  | .nodeKeyExport _ arg tamper => okBytes64 arg && okTamper? tamper
  | .nodeKeyImport _ arg tamper => okBytes64 arg && okTamper? tamper
  | .random _ arg tamper => okBytes64 arg && okTamper? tamper
  | .recovKeyLoad _ arg tamper => okBytes64 arg && okTamper? tamper
  | .provision _ arg tamper _ => okBytes64 arg && okTamper? tamper
  | .lifecycleDebug _ _ _ _ _ _ _ => true
  | .debugRequestRefused => true
  | .sealWriteDone => true
  | .sealWriteTimeout => true
  | .bcastCeilingWriteDone pan => okPan pan
  | .fsuParse engine buf node => okPe engine && ok32 buf && ok32 node
  | .fsuVerify engine buf node => okPe engine && ok32 buf && ok32 node
  | .fsuSecure engine buf node fc => okPe engine && ok32 buf && ok32 node && ok32 fc
  | .tamperEvent source _ => okTamper source
  | .trngHealthFail => true
  | .trngRetest _ => true
  | .drbgReseed => true
  | .secCntClear => true
  | .create _ desc _ _ _ _ => okBytes32 desc
  | .start _ cnum => okCamp cnum
  | .pause _ cnum => okCamp cnum
  | .resume _ cnum => okCamp cnum
  | .cancel _ cnum => okCamp cnum
  | .delete _ cnum => okCamp cnum
  | .sessionGapExpiry cnum => okCamp cnum
  | .campaignScan => true
  | .campaignStateWriteTimeout cnum => okCamp cnum
  | .cmpCntClear => true
  | .updBegin _ _ _ => true
  | .updWrite _ _ _ _ _ _ => true
  | .updVerify _ => true
  | .updActivate _ _ _ => true
  | .updConfirm _ _ => true
  | .updAbandon _ => true
  | .restart _ _ _ => true
  | .setWrite _ _ _ _ _ _ => true
  | .setEraseNs _ _ _ => true
  | .snapNow _ => true
  | .brewReady _ => true
  | .trialBrewTimeout => true
  | .trialConfirmTimeout => true
  | .baseImageCapture => true
  | .counterImageCapture => true
  | .imageWriteDone _ => true
  | .counterImageTimeout => true
  | .flashProgramTimeout _ => true
  | .flashEraseTimeout _ => true
  | .hostReadTimeout => true
  | .commitPost cc _ addr _ _ => okCc cc && okAccess addr
  | .jrnlOpen _ => true
  | .jrnlStep tag => ok16 tag
  | .jrnlClose _ => true
  | .gateWindowClose => true
  | .gateLagTimeout => true
  | .mismatchTestDone _ _ => true
  | .pathCheckFail cc => okCc cc
  | .resyncDone cc => okCc cc
  | .ccTestDone cc _ => okCc cc
  | .ccRetestTimer cc => okCc cc
  | .ccRetest cc => okCc cc
  | .ccIsolate cc => okCc cc
  | .swapDue => true
  | .takebackHoldoffExpiry => true
  | .spareCaddyTestDone caddy _ => okCaddy caddy
  | .eccError mem _ _ _ _ _ => okMem mem
  | .scrubRead => true
  | .rowRepairDone _ _ _ => true
  | .bankRepairDone bank => okBank bank
  | .bistSliceStart => true
  | .bistFenceIdle => true
  | .bistFenceTimeout => true
  | .bistSliceEnd _ part => okPart part
  | .funcDisable _ cls _ => okClass cls
  | .funcEnable _ cls _ => okClass cls
  | .funcDrainEnd cls _ => okClass cls
  | .repairBurn _ seq _ => ok32 seq
  | .repairLogTimeout => true
  | .jrnlFetch seq => ok32 seq
  | .jrnlFetchDone => true
  | .resCntClear => true
  | .pendingClear m _ => okWords m
  | .maskWrite m _ => okWords m
  | .ccpendClear m _ => okWords m
  | .telAlmAck entry _ => okAlarm entry
  | .fwRaise fw _ => okFw fw
  | .counterExport => true
  | .teleRingSend => true
  | .ringConsWrite _ => true
  | .teleDatagramSend => true
  | .stormEnd => true
  | .telCntClear => true
  | .hostReset => true
  | .bar0BadAccess _ _ => true
  | .bar2Read _ _ _ => true
  | .bar2Write _ => true
  | .stoppedAccessTimeout cc => okCc cc
  | .msixUnmask vector => okVector vector
  | .hcqDoorbell tail => okIndex12 tail
  | .hcqFetch entry => okBytes64 entry
  | .hcqFetchTimeout => true
  | .cqStall => true
  | .cqHeadWrite head => okIndex12 head
  | .hcqEnable => true
  | .hcqDisable => true
  | .commandStart _ _ => true
  | .commandComplete _ => true
  | .commandDataTimeout _ => true
  | .nop _ => true
  | .regRead _ offset => okReg offset
  | .regWrite _ offset _ => okReg offset
  | .jrnlRead _ seq => ok32 seq
  | .alarmAck _ entry _ => okAlarm entry
  | .blendLoad _ source addr _ => okLoad source && ok64 addr
  | .taskSubmit _ desc => okBytes32 desc
  | .upRingPost ring tail _ => okRing ring && okIndex12 tail
  | .dnRingPost ring tail => okRing ring && okIndex12 tail
  | .dnDescriptorProcess ring desc _ => okRing ring && okBytes32 desc
  | .dnReadTimeout ring => okRing ring
  | .mqSubmit handle => ok32 handle
  | .mgmtTx handle => ok32 handle
  | .mgmtTxDone handle => ok32 handle
  | .hifCntClear => true
  | .atInstant p tag => okPort p && okTag8 tag
  | .blankingEnd p => okPort p
  | .vectorIntervalExpiry vector => okVector vector
  | .pcieLinkChange _ _ _ => true
  | .prbsError p hist block => okPort p && okHist hist && ok64 block

end Sys2Proof
end

