-- ==== Sys2Proof/Certificates/Slice0/Obligations.lean ====
section
/-! DEFINITION. The statements for the provers. In all of them `s` is any state, and a command that completes answers a next state whose
fuses, queue and every part and register not listed are as before. -/

open Sys2Proof Sys2Proof.Machine

/-- With command c at the front of the queue, a step is exec of c on the state whose queue is the rest; it never is anything else. Every
command, with any operands, completes in every state: exec answers a next state with the queue as it was. That a queue of commands drives
the block is the model's own convention (log entry 3). The model's own choices it rests on: log entries 3, 10. (00_scope.md) -/
def Obligations.StepRunsFrontCommand : Prop :=
  (∀ (c : Instr) (rest : List Instr) (s : State), s.pending = c :: rest → step s = exec c { s with pending := rest }) ∧
  (∀ (c : Instr) (s : State), ∃ t, exec c s = .next t ∧ t.pending = s.pending)

/-- With an empty queue a step advances each time base that has a counter by (10^9 / 38,400,000) × (1 + rate × 2^-40) ns, kept in units of 2^-48
ns modulo the range of the seconds view, and leaves every other time base; while no PA is biased it changes nothing else; while POR_N is low
it changes nothing. A head that carries no burst and whose PA is still biased is sent PA_BIAS 0, 20 µs ahead, and TR_SWITCH 0, 1 µs later
(R126, R140). That an empty queue lets a cycle pass, and that a cycle looks for these commands, is the model's choice (log entries 3 and
126). The model's own choices it rests on: log entries 3, 12. (R293, R295, R126, R140) -/
def Obligations.EmptyQueueStepIsOneCycle : Prop :=
  (∀ s : State, s.pending = [] → s.dev.inReset = true → step s = .next s) ∧
  (∀ s : State, s.pending = [] → s.dev.inReset = false → ∃ t, step s = .next t ∧ t.fuses = s.fuses ∧ t.pending = [] ∧
    ((∀ e ∈ s.dev.hc.heads, e.2.onCmd = false) → Frame [.tim] (fun _ => false) s t) ∧
    t.dev.tim = { s.dev.tim with bases := t.dev.tim.bases } ∧ t.dev.tim.bases.length = s.dev.tim.bases.length ∧
    ∀ (n : Nat) (b : TimeBase), s.dev.tim.bases[n]? = some b → ∃ b', t.dev.tim.bases[n]? = some b' ∧
      (b.counter = none → b' = b) ∧
      (b.counter ≠ none → b' = { b with sec := b'.sec, ns := b'.ns, frac := b'.frac } ∧ b'.ns < 1000000000 ∧ b'.frac < 2 ^ 48 ∧
        (b'.raw : Int) = ((b.raw : Int) + 625 * 2 ^ 8 * (2 ^ 40 + b.rate) / 24) % ((2 ^ 48 * 1000000000 * 2 ^ 48 : Nat) : Int))) ∧
  (∀ (p : Nat) (s : State), s.pending = [] → s.dev.inReset = false → (s.dev.hc.heads.filter fun e => e.2.onCmd) = [(p, s.dev.head p)] →
    s.dev.tx.bursts = [] → looped s.dev p = false → within (s.dev.portState p) ylCALIBRATE ylDRAINING = true → (s.dev.port p).reqs = [] →
    ∃ t, step s = .next t ∧ (t.dev.head p).onCmd = false ∧
      t.dev.outs = [.control p cmTR_SWITCH ((s.dev.port p).nextTag % 255 + 1) (0 :: le 5 (atField (tickTime s.dev) p ((tickTime s.dev).ns + 21000))),
        .control p cmPA_BIAS (s.dev.port p).nextTag (0 :: le 5 (atField (tickTime s.dev) p ((tickTime s.dev).ns + 20000)))] ++ s.dev.outs)

/-- After reset every register reads its reset value (DSP_CTRL 2, TBL_SWEEP_CFG 600, TIM_TOD_CFG 37, TEL_MASK all ones, TEL_STORM_CFG 16 among
them; 0 where no register stands), no command waits, memory and packet buffers are empty and the fuses are unburnt. The start stage and the
values of state the tables do not give are the model's choice (log entry 4). The model's own choices it rests on: log entries 4, 5, 6. (R11,
R3, 03_caddies_and_dispatch.md, 16_telemetry.md) -/
def Obligations.ResetState : Prop :=
  (∀ a, State.reset.dev.reg a = regReset a) ∧ (∀ a, findReg a = none → State.reset.dev.reg a = 0) ∧
  State.reset.dev.reg DSP_CTRL = 2 ∧ State.reset.dev.reg TBL_SWEEP_CFG = 600 ∧ State.reset.dev.reg TIM_TOD_CFG = 37 ∧
  (∀ m, m < 8 → State.reset.dev.reg (TEL_MASKm m) = 0xFFFFFFFF) ∧ State.reset.dev.reg TEL_STORM_CFG = 16 ∧
  State.reset.pending = [] ∧ State.reset.dev.tbl.mem = [] ∧ Memory.wf 0 State.reset.dev.tbl.mem = true ∧
  State.reset.dev.pbm.bufs = [] ∧ State.reset.dev.stage = 0 ∧ State.reset.dev.inReset = false ∧ State.reset.fuses = Fuses.blank

/-- At reset the fuses hold no more than there are fuses for. The model's own choices it rests on: log entry 4. (R331, R333, R339, R411, R439) -/
def Obligations.FusesFitAtReset : Prop :=
  Fuses.fits State.reset.fuses

/-- If the life-cycle code is one of Table KEY-1, at most 32 seal-epoch bits, four owner records, 64 rollback bits and 256 repair records are
burnt, the tamper policy has 16 bits and every burn that is to complete names a life-cycle state, then so it is after every step, whatever
command runs. The model's own choices it rests on: log entry 3. (R331, R333, R339, R349, R367, R411, R439) -/
def Obligations.FusesFitEveryStep : Prop :=
  ∀ s t : State, Fuses.fits s.fuses → step s = .next t → Fuses.fits t.fuses

/-- Whatever command runs, in any state whose fuses fit: the life-cycle code, the seal epoch and the rollback count never fall, owner and repair
records stay in place, and the device root, Regulatory Lock, extended address and tamper policy change in life cycle BLANK only. The model's
own choices it rests on: log entry 3. (R331, R333, R339, R349, R411, R439) -/
def Obligations.FusesAreOneWay : Prop :=
  ∀ s t : State, Fuses.fits s.fuses → step s = .next t → Fuses.Grows s.fuses t.fuses

/-- While POR_N is low, every command other than those of POR_N, the supply and Kettle events (POR_RELEASE, POR_ASSERT, SUPPLY_TRIP, VBAT_APPLY,
KETTLE_POWER_LOSS, WHISTLE_RECEIVED, PWR_TIMEOUT, RTC_SECOND, RTC_ALARM, TAMPER_EVENT) leaves the whole machine as it was. The model's own
choices it rests on: log entries 10, 13, 20, 21, 63, 88, 104. (R485, R11, R368, R150, R322, R324) -/
def Obligations.CoreInReset : Prop :=
  ∀ (c : Instr) (s : State), s.dev.inReset = true →
    (match c with
      | .porRelease _ _ | .porAssert | .supplyTrip _ _ | .vbatApply | .kettlePowerLoss | .whistleReceived _ | .pwrTimeout | .rtcSecond
      | .rtcAlarm | .tamperEvent _ _ => False
      | _ => True) → exec c s = .next s

/-- In the register map, every field of every register lies in bits 31 to 0, and no two fields of one register share a bit. (R3, R4) -/
def Obligations.RegisterFieldsApart : Prop :=
  ∀ k, k < 16 → ∀ r ∈ regsOfWindow k, (∀ x ∈ r.fields, x.lo ≤ x.hi ∧ x.hi < 32) ∧ r.fields.Pairwise fun x y => x.hi < y.lo ∨ y.hi < x.lo

/-- For a register whose fields lie apart: a written RW field takes the value, unless the encoding is listed as reserved, when the field keeps
its value and the others still apply; a W1C field keeps exactly the bits written 0; RO, W1S and WO fields are not stored by it (what W1S and
WO do is their block's); and a bit that no field covers is ignored. (R6) -/
def Obligations.FieldwiseWrite : Prop :=
  ∀ (r : RegDesc) (old w : Word), (∀ x ∈ r.fields, x.lo ≤ x.hi ∧ x.hi < 32) →
    (r.fields.Pairwise fun x y => x.hi < y.lo ∨ y.hi < x.lo) →
    (∀ x ∈ r.fields, x.acc = .rw → (∀ p ∈ x.reserved, ¬ (p.1 ≤ getBits w x.hi x.lo ∧ getBits w x.hi x.lo ≤ p.2)) →
      getBits (writeWord r old w) x.hi x.lo = getBits w x.hi x.lo) ∧
    (∀ x ∈ r.fields, x.acc = .rw → (∃ p ∈ x.reserved, p.1 ≤ getBits w x.hi x.lo ∧ getBits w x.hi x.lo ≤ p.2) →
      getBits (writeWord r old w) x.hi x.lo = getBits old x.hi x.lo) ∧
    (∀ x ∈ r.fields, x.acc = .w1c → ∀ k, x.lo ≤ k → k ≤ x.hi →
      (writeWord r old w).getLsbD k = (old.getLsbD k && !w.getLsbD k)) ∧
    (∀ x ∈ r.fields, x.acc ≠ .rw → x.acc ≠ .w1c → getBits (writeWord r old w) x.hi x.lo = getBits old x.hi x.lo) ∧
    (∀ k, k < 32 → (∀ x ∈ r.fields, ¬ (x.lo ≤ k ∧ k ≤ x.hi)) → (writeWord r old w).getLsbD k = old.getLsbD k)

/-- A write narrower than 32 bits changes nothing. At an offset at which no register stands, a read by any master that addresses BAR0 returns 0
and a write changes nothing (debug access open for the debug master; the PCI Express domain not isolated for a host; the request port of
firmware is no unassigned offset). A read of some bytes of TIM_TB_SEL, RX_SEL, FWD_QSEL, HC_SEL, TBL_SWEEP_CFG or TEL_STORM_CFG returns
those bytes of the register's word. So each of these completes under the conditions given, exec answering a next state: PAIR_LO_READ. The
model's own choices it rests on: log entries 10, 18, 131. (R3, R7, 17_host_interface.md) -/
def Obligations.NarrowAndUnassignedAccesses : Prop :=
  (∀ (m : Master) (a len : Nat) (w : Word64) (s : State), (∀ e, m ≠ .engine e) → len < 4 → (touched a len).any (regStopped s.dev) = false →
    exec (.registerWrite m a len w) s = .next s) ∧
  (∀ (m : Master) (a : Nat) (w : Word64) (s : State), (∀ e, m ≠ .engine e) → (m = .debug → debugOpen s.fuses.lc = true) →
    a % 4 = 0 → findReg a = none → inCreq a = false → exec (.registerWrite m a 4 w) s = .next s) ∧
  (∀ (m : Master) (a len : Nat) (s : State), s.dev.inReset = false → (∀ e, m ≠ .engine e) → (m = .debug → debugOpen s.fuses.lc = true) →
    s.dev.isolated.contains 200 = false → a % 4 + len ≤ 4 → findReg (wordAt a) = none → inCreq (wordAt a) = false →
    itemHeld s.dev (wordAt a) = false →
    Completes (.pairLoRead m a len) s [.rdata] (fun _ => false) fun t =>
      Tab.find t.dev.rdata (Master.key m) = some 0 ∧ ∀ k, k ≠ Master.key m → Tab.find t.dev.rdata k = Tab.find s.dev.rdata k) ∧
  (∀ (m : Master) (a k len : Nat) (s : State), s.dev.inReset = false → (m = .host ∨ m = .hcq ∨ m = .mgmt ∨ ∃ b, m = .cc b) →
    a ∈ [TIM_TB_SEL, RX_SEL, FWD_QSEL, HC_SEL, TBL_SWEEP_CFG, TEL_STORM_CFG] → k + len ≤ 4 → itemHeld s.dev a = false →
    s.dev.isolated.contains 200 = false →
    Completes (.pairLoRead m (a + k) len) s [.rdata] (fun _ => false) fun t =>
      Tab.find t.dev.rdata (Master.key m) = some (BitVec.ofNat 64 ((s.dev.reg a).toNat / 256 ^ k % 256 ^ len)))

/-- A 32-bit host or firmware write to TIM_TB_SEL, RX_SEL, FWD_QSEL, HC_SEL, TBL_SWEEP_CFG or TEL_STORM_CFG changes that register alone, field
by field under the access types. So each of these completes under the conditions given, exec answering a next state: REGISTER_WRITE. (R4,
R6) -/
def Obligations.PlainRegisterWrite : Prop :=
  ∀ (m : Master) (a : Nat) (w : Word) (s : State), s.dev.inReset = false → (m = .host ∨ m = .hcq ∨ m = .mgmt ∨ ∃ b, m = .cc b) →
    a ∈ [TIM_TB_SEL, RX_SEL, FWD_QSEL, HC_SEL, TBL_SWEEP_CFG, TEL_STORM_CFG] → s.dev.isolated.contains 200 = false →
    ∃ r, findReg a = some (r, []) ∧
      Completes (.registerWrite m a 4 (BitVec.ofNat 64 w.toNat)) s [] (fun b => b == a) fun t => t.dev.reg a = writeWord r (s.dev.reg a) w

/-- For the pairs BLD_SRC_ADDR, CMP_SRC and TEL_RING_BASE and every master of BAR0: a write of _LO changes no register and replaces what the
master held; the next write of _HI by that master sets both halves and consumes the held value; without a held value the low half is 0; and
what another master holds stays. For the nanoseconds view of every time base: a read of _LO returns the low half and captures the upper half
of the same moment in that master's shadow; a read of _HI returns the shadow and consumes it, and the live upper half when the master holds
none; no other master's shadow changes. So each of these completes under the conditions given, exec answering a next state: PAIR_LO_READ,
PAIR_HI_READ, PAIR_LO_WRITE, PAIR_HI_WRITE. The model's own choices it rests on: log entries 18, 131. (R9) -/
def Obligations.RegisterPairs : Prop :=
  (∀ (m : Master) (lo : Nat) (w w' : Word) (s : State), s.dev.inReset = false → (m = .host ∨ m = .hcq ∨ m = .mgmt ∨ ∃ b, m = .cc b) →
    lo ∈ [BLD_SRC_ADDR_LO, CMP_SRC_LO, TEL_RING_BASE_LO] → s.dev.isolated.contains 200 = false →
    Completes (.pairLoWrite m lo w) s [.held] (fun _ => false) (fun t => t.dev.inReset = false ∧
      Tab.find t.dev.held (pairKey m lo) = some w ∧ ∀ k, k ≠ pairKey m lo → Tab.find t.dev.held k = Tab.find s.dev.held k) ∧
    Completes (.pairHiWrite m (lo + 4) w') s [.held] (fun a => a == lo || a == lo + 4) (fun t =>
      t.dev.reg lo = (Tab.find s.dev.held (pairKey m lo)).getD 0 ∧ t.dev.reg (lo + 4) = w' ∧
      Tab.find t.dev.held (pairKey m lo) = none ∧ ∀ k, k ≠ pairKey m lo → Tab.find t.dev.held k = Tab.find s.dev.held k)) ∧
  (∀ (m : Master) (n : Nat) (s : State), s.dev.inReset = false → n < 8 → (m = .host ∨ m = .hcq ∨ m = .mgmt ∨ ∃ b, m = .cc b) →
    itemHeld s.dev (TIM_TBn_NS_LO n) = false → itemHeld s.dev (TIM_TBn_NS_HI n) = false → s.dev.isolated.contains 200 = false →
    Completes (.pairLoRead m (TIM_TBn_NS_LO n) 4) s [.rdata, .shadows] (fun _ => false) (fun t =>
      Tab.find t.dev.rdata (Master.key m) = some (BitVec.ofNat 64 ((s.dev.tb n).nanos % 2 ^ 32)) ∧
      Tab.find t.dev.shadows (pairKey m (TIM_TBn_NS_HI n)) = some (BitVec.ofNat 32 ((s.dev.tb n).nanos / 2 ^ 32)) ∧
      ∀ k, k ≠ pairKey m (TIM_TBn_NS_HI n) → Tab.find t.dev.shadows k = Tab.find s.dev.shadows k) ∧
    Completes (.pairHiRead m (TIM_TBn_NS_HI n) 4) s [.rdata, .shadows] (fun _ => false) (fun t =>
      Tab.find t.dev.rdata (Master.key m) = some (BitVec.ofNat 64 ((Tab.find s.dev.shadows (pairKey m (TIM_TBn_NS_HI n))).getD
        (BitVec.ofNat 32 ((s.dev.tb n).nanos / 2 ^ 32))).toNat) ∧
      Tab.find t.dev.shadows (pairKey m (TIM_TBn_NS_HI n)) = none ∧
      ∀ k, k ≠ pairKey m (TIM_TBn_NS_HI n) → Tab.find t.dev.shadows k = Tab.find s.dev.shadows k))

/-- REG_READ of a time base's selector by a started command of the HCQ ends OK with the register's word as data; REG_WRITE of it stores the
word's fields and ends OK; a counter export with one listed register and the ring path taking counters stages one unit of kind 3 with that
register's offset and word. So each of these completes under the conditions given, exec answering a next state: COUNTER_EXPORT, REG_READ,
REG_WRITE. The model's own choices it rests on: log entries 16, 17, 102, 103. (R473, R474, R455) -/
def Obligations.RegisterCommands : Prop :=
  (∀ (j : Nat) (s : State), s.dev.inReset = false → (s.dev.hif.mqRunning.any fun x => x.jseq == j) = false →
    Completes (.regRead (.cmd j) TIM_TB_SEL) s [.hif] (fun _ => false) fun t =>
      t.dev.hif.running = s.dev.hif.running.map (RunCmd.note j hrOK (le 4 (liveWord s.fuses s.dev .hcq TIM_TB_SEL).toNat))) ∧
  (∀ (j : Nat) (w : Word) (s : State), s.dev.inReset = false → (s.dev.hif.mqRunning.any fun x => x.jseq == j) = false →
    Completes (.regWrite (.cmd j) TIM_TB_SEL w) s [.hif] (fun a => a == TIM_TB_SEL) fun t =>
      t.dev.fld TIM_TB_SEL_tb = getBits w 2 0 ∧ t.dev.hif.running = s.dev.hif.running.map (RunCmd.note j hrOK [])) ∧
  (∀ (a : Nat) (s : State), s.dev.inReset = false → s.dev.fld TEL_PATH_CFG_cnt_period_s ≠ 0 → a < 2 ^ 24 →
    s.dev.reg (TEL_CNT_LISTm 0) = BitVec.ofNat 32 (2 ^ 31 + a) → (∀ m, 0 < m → m < 64 → (s.dev.reg (TEL_CNT_LISTm m)).getLsbD 31 = false) →
    pathTakes s.dev 0 3 = true → pathTakes s.dev 1 3 = false → s.dev.tel.ring.staged = [] → 0 < pathCap s.dev →
    Completes .counterExport s [.tel] (fun _ => false) fun t =>
      t.dev.tel.ring.staged = [⟨3, fit 32 (le 4 a ++ le 4 (liveWord s.fuses s.dev .host a).toNat)⟩])

/-- POR_ASSERT while POR_N is high: POR_N is low, every register outside the Kettle reads its reset value, the Kettle's registers, clock,
journal ring and stored slots and the fuses stay, and the start has not run. VBAT_APPLY gives the Kettle its reset values
(KTL_RTC_STATUS.fresh set, no stored slot, no journal record) and leaves every register outside it. KETTLE_POWER_LOSS does both. A rail's
SUPPLY_TRIP leaves the core in reset. So each of these completes under the conditions given, exec answering a next state: POR_ASSERT,
SUPPLY_TRIP, VBAT_APPLY, KETTLE_POWER_LOSS. The model's own choices it rests on: log entries 5, 10, 13, 20, 21, 104. (R11, R485) -/
def Obligations.PorAssertResetsTheCore : Prop :=
  (∀ s : State, s.dev.inReset = false →
    Completes .porAssert s
      [.shadows, .held, .rdata, .stage, .isolated, .inReset, .tel, .hif, .bld, .dsp, .ports, .hc, .rx, .tx, .pbm, .tim, .ts, .tbl, .fwd, .vault,
       .boot, .cmp, .res]
      (fun a => !within a 0x100000 0x1FFFFF) fun t =>
        t.dev.inReset = true ∧ (∀ a, within a 0x100000 0x1FFFFF = false → t.dev.reg a = regReset a) ∧ t.dev.stage = 0 ∧
        t.dev.boot.started = false ∧ t.dev.vault.slots = s.dev.vault.slots ∧ t.dev.bld.log = s.dev.bld.log) ∧
  (∀ s : State,
    Completes .vbatApply s [.ktl, .vault, .jrnl] (fun a => within a 0x100000 0x1FFFFF) fun t =>
      t.dev.ktl = Dev.blank.ktl ∧ t.dev.fld KTL_RTC_STATUS_fresh = 1 ∧
      (∀ a, within a 0x100000 0x1FFFFF = true → a ≠ KTL_RTC_STATUS → t.dev.reg a = regReset a) ∧
      t.dev.vault.slots = [] ∧ t.dev.jrnl.ring = [] ∧ t.dev.jrnl.mirror = s.dev.jrnl.mirror) ∧
  (∀ s : State,
    Completes .kettlePowerLoss s
      [.shadows, .held, .rdata, .stage, .isolated, .inReset, .tel, .jrnl, .hif, .bld, .dsp, .ports, .hc, .rx, .tx, .pbm, .tim, .ktl, .ts, .tbl,
       .fwd, .vault, .boot, .cmp, .res] (fun _ => true) fun t =>
      t.dev.inReset = true ∧ t.dev.ktl = Dev.blank.ktl ∧ t.dev.fld KTL_RTC_STATUS_fresh = 1 ∧
      (∀ a, a ≠ KTL_RTC_STATUS → t.dev.reg a = regReset a) ∧ t.dev.vault.slots = []) ∧
  (∀ (live : Nat) (s : State), s.dev.inReset = false →
    ∃ t, exec (.supplyTrip false live) s = .next t ∧ t.dev.inReset = true ∧ t.pending = s.pending ∧ t.fuses.owners = s.fuses.owners)

/-- POR_RELEASE in reset, or before the start sequence has run: no burn is left to complete, the fuses hold each life-cycle state and rollback
count that was to be reached and the rollback count that the confirmation record in force asks for, the start sequence has run, POR_N is
high, and the queue is as before. So each of these completes under the conditions given, exec answering a next state: POR_RELEASE. The
model's own choices it rests on: log entries 10, 20. (R331, R339, R349, R392, R411, R439, R485) -/
def Obligations.PorReleaseStartsTheDevice : Prop :=
  ∀ (ccA trng : Bool) (s : State), (s.dev.inReset = true ∨ s.dev.boot.started = false) →
    ∃ t, exec (.porRelease ccA trng) s = .next t ∧ t.pending = s.pending ∧ t.fuses.pend = [] ∧
      (∀ c, Burn.lifecycle c ∈ s.fuses.pend → c ≤ t.fuses.lc) ∧ (∀ n, Burn.rollback n ∈ s.fuses.pend → min n 64 ≤ t.fuses.rollback) ∧
      min (confNow s.dev).rbTarget 64 ≤ t.fuses.rollback ∧ t.dev.inReset = false ∧ t.dev.boot.started = true

/-- In service, with no mismatch in handling, the source enabled and no zeroisation asked for by the policy: TEMP_TRIP, SYSCLK_TRIP and
TAMPER_EVENT log the source with state 1 and action 0 at the head of the tamper log and set its bit of SEC_TAMPER_STATUS; the fuses and
every other part but telemetry and the journal stay. With zeroisation asked for, the vault keeps slot 0 alone, is held, and one more
seal-epoch bit is burnt. During a mismatch's test slice a source other than the supply's latches in SEC_TAMPER_STATUS and its response waits
(R428; log entry 88). So each of these completes under the conditions given, exec answering a next state: TEMP_TRIP, SYSCLK_TRIP,
TAMPER_EVENT. The model's own choices it rests on: log entries 10, 13, 88. (R367, R368, R428, R486) -/
def Obligations.TamperEvents : Prop :=
  (∀ (live : Nat) (s : State), s.dev.inReset = false → 2 ≤ s.dev.stage → s.dev.res.gate.mismatch = none → tamperEnabled s.fuses 6 = true → nbit s.fuses.tamper 6 = false →
    Completes (.tempTrip live) s [.vault, .tel, .outs, .jrnl] (fun a => a == SEC_TAMPER_STATUS || a == RES_JRNL_NEWEST || decide (0xF09000 ≤ a)) fun t =>
      t.dev.vault.tlog = (⟨s.dev.ktl.sec % 2 ^ 32, s.dev.vault.tseq, 6, 1, 0⟩ :: s.dev.vault.tlog).take 64 ∧
      (t.dev.reg SEC_TAMPER_STATUS).getLsbD 6 = true) ∧
  (∀ (live : Nat) (s : State), s.dev.inReset = false → 2 ≤ s.dev.stage → s.dev.res.gate.mismatch = none → tamperEnabled s.fuses 7 = true → nbit s.fuses.tamper 7 = false →
    Completes (.sysclkTrip live) s [.vault, .tel, .outs, .jrnl] (fun a => a == SEC_TAMPER_STATUS || a == RES_JRNL_NEWEST || decide (0xF09000 ≤ a)) fun t =>
      t.dev.vault.tlog = (⟨s.dev.ktl.sec % 2 ^ 32, s.dev.vault.tseq, 7, 1, 0⟩ :: s.dev.vault.tlog).take 64 ∧
      (t.dev.reg SEC_TAMPER_STATUS).getLsbD 7 = true) ∧
  (∀ (source live : Nat) (s : State), s.dev.inReset = false → 2 ≤ s.dev.stage → s.dev.res.gate.mismatch = none → tamperEnabled s.fuses source = true →
    nbit s.fuses.tamper source = false →
    Completes (.tamperEvent source live) s [.vault, .tel, .outs, .jrnl]
      (fun a => a == SEC_TAMPER_STATUS || a == RES_JRNL_NEWEST || decide (0xF09000 ≤ a)) fun t =>
      t.dev.vault.tlog = (⟨s.dev.ktl.sec % 2 ^ 32, s.dev.vault.tseq, source, 1, 0⟩ :: s.dev.vault.tlog).take 64 ∧
      t.dev.vault.slots = s.dev.vault.slots ∧ (t.dev.reg SEC_TAMPER_STATUS).getLsbD source = true) ∧
  (∀ (source live : Nat) (s : State), s.dev.inReset = false → 2 ≤ s.dev.stage → s.dev.res.gate.mismatch = none → tamperEnabled s.fuses source = true →
    nbit s.fuses.tamper source = true →
    ∃ t, exec (.tamperEvent source live) s = .next t ∧ t.pending = s.pending ∧ t.fuses = s.fuses.addEpoch ∧
      t.dev.vault.slots = s.dev.vault.slots.filter (·.1 == 0) ∧ t.dev.vault.hold = true ∧ t.dev.vault.shadow = [] ∧ t.dev.vault.cache = []) ∧
  (∀ (source live : Nat) (x : Mismatch) (s : State), s.dev.inReset = false → s.dev.res.gate.mismatch = some x → tamperEnabled s.fuses source = true →
    Completes (.tamperEvent source live) s [.res] (fun a => a == SEC_TAMPER_STATUS) fun t =>
      (t.dev.reg SEC_TAMPER_STATUS).getLsbD source = true ∧
      t.dev.res = { s.dev.res with gate := { s.dev.res.gate with tampers := s.dev.res.gate.tampers ++ [source] } })

/-- BLEND_START with no load, no delta pending and a legal length begins a load in RECEIVING. BLD_DATA takes four bytes and moves to VALIDATING
with the last. A read completion of a host load takes its bytes. A data time-out of a port load, a DMA time-out of a host load and a flash
time-out of a flash load end it FAILED with TIMEOUT. BLEND_ABORT ends it FAILED with ABORTED. Both count in BLD_REFUSED. So each of these
completes under the conditions given, exec answering a next state: BLEND_START, BLEND_ABORT, BLD_DATA, BLEND_READ_COMPLETION,
BLEND_DATA_TIMEOUT, BLEND_DMA_TIMEOUT, BLEND_FLASH_TIMEOUT. The model's own choices it rests on: log entries 20, 25, 26, 118. (R52, R53,
R54, R55) -/
def Obligations.BlendLoading : Prop :=
  (∀ s : State, s.dev.inReset = false → within (bldState s.dev) bsRECEIVING bsAPPLYING = false → s.dev.fld BLD_CTRL_source = 0 →
    within (s.dev.fld BLD_LENGTH_length) 4096 16777216 = true → s.dev.fld BLD_LENGTH_length % 4 = 0 →
    Completes .blendStart s [.bld] (fun a => a == BLD_CTRL || a == BLD_STATUS) fun t =>
      bldState t.dev = bsRECEIVING ∧ t.dev.fld BLD_STATUS_refusal = 0 ∧ t.dev.fld BLD_CTRL_start = 0 ∧
      t.dev.bld = { s.dev.bld with load := some ⟨.port, s.dev.fld BLD_LENGTH_length, [], none⟩ }) ∧
  (∀ (w : Word) (l : Load) (s : State), s.dev.inReset = false → bldState s.dev = bsRECEIVING → s.dev.bld.load = some l → l.source = .port →
    l.bytes.length + 4 ≤ l.length →
    Completes (.bldData w) s [.bld] (fun a => a == BLD_STATUS) fun t =>
      t.dev.bld = { s.dev.bld with load := some { l with bytes := l.bytes ++ le 4 w.toNat } } ∧
      bldState t.dev = if l.bytes.length + 4 = l.length then bsVALIDATING else bsRECEIVING) ∧
  (∀ (bytes : List Byte) (a : Nat) (l : Load) (s : State), s.dev.inReset = false → bldState s.dev = bsRECEIVING → s.dev.bld.load = some l →
    l.source = .host a → l.bytes.length + bytes.length ≤ l.length →
    Completes (.blendReadCompletion bytes) s [.bld] (fun a => a == BLD_STATUS) fun t =>
      t.dev.bld = { s.dev.bld with load := some { l with bytes := l.bytes ++ bytes } } ∧
      bldState t.dev = if l.bytes.length + bytes.length = l.length then bsVALIDATING else bsRECEIVING) ∧
  (∀ (l : Load) (s : State), s.dev.inReset = false → bldState s.dev = bsRECEIVING → s.dev.bld.load = some l → l.source = .port → l.cmd = none →
    Completes .blendDataTimeout s [.bld] (fun a => a == BLD_STATUS || a == BLD_ERR_OFFSET || a == BLD_REFUSED) fun t => LoadFailed s blTimeout t) ∧
  (∀ (a : Nat) (l : Load) (s : State), s.dev.inReset = false → bldState s.dev = bsRECEIVING → s.dev.bld.load = some l → l.source = .host a → l.cmd = none →
    Completes .blendDmaTimeout s [.bld] (fun a => a == BLD_STATUS || a == BLD_ERR_OFFSET || a == BLD_REFUSED) fun t => LoadFailed s blTimeout t) ∧
  (∀ (a : Nat) (l : Load) (s : State), s.dev.inReset = false → bldState s.dev = bsRECEIVING → s.dev.bld.load = some l → l.source = .flash a → l.cmd = none →
    Completes .blendFlashTimeout s [.bld] (fun a => a == BLD_STATUS || a == BLD_ERR_OFFSET || a == BLD_REFUSED) fun t => LoadFailed s blTimeout t) ∧
  (∀ (l : Load) (s : State), s.dev.inReset = false → (bldState s.dev = bsRECEIVING ∨ bldState s.dev = bsVALIDATING) → s.dev.bld.load = some l →
    l.cmd = none → l.source = .port →
    Completes .blendAbort s [.bld] (fun a => a == BLD_STATUS || a == BLD_ERR_OFFSET || a == BLD_CTRL || a == BLD_REFUSED) fun t => LoadFailed s blAborted t)

/-- The validation of a full Blend from the register port in service ends DONE with code OK, or FAILED with the code of the first failing check;
only judged, it leaves the configuration. A pending delta's switch of one of several affected PANs enters APPLYING with that PAN counted.
SECOND_STEEP_REACHED with an accepted Blend in First Steep reaches stage 2 with the dispatcher and the tables accepting. FLASH_SCAN_DONE in
Second Steep marks the scan done, and with BREW_READY issued reaches stage 3. A restore record that succeeds lets the sends go on and is
counted in the counter image. So each of these completes under the conditions given, exec answering a next state: BLEND_VALIDATION_DONE,
DELTA_PAN_SWITCH, SECOND_STEEP_REACHED, RESTORE_RECORD_DONE, FLASH_SCAN_DONE. The model's own choices it rests on: log entries 10, 20, 24,
78, 82. (R46, R48, R50, R397, R399, R400, R403) -/
def Obligations.BlendValidationAndSteep : Prop :=
  (∀ (l : Load) (s : State), s.dev.inReset = false → bldState s.dev = bsVALIDATING → s.dev.bld.load = some l → l.source = .port → l.cmd = none →
    2 ≤ s.dev.stage → s.dev.fld BOOT_STATUS_halt ≠ 3 → blKind l.bytes ≠ 2 →
    Completes .blendValidationDone s [.bld, .vault, .tel, .outs, .jrnl]
      (fun a => a / 0x100000 == 2 || a == RES_JRNL_NEWEST || decide (0xF09000 ≤ a)) fun t =>
      bldState t.dev = (if (blendVerdict s.fuses s.dev l.bytes).1.code = blOk then bsDONE else bsFAILED) ∧
      t.dev.fld BLD_STATUS_code = (blendVerdict s.fuses s.dev l.bytes).1.code % 256 ∧ t.dev.bld = { s.dev.bld with load := none }) ∧
  (∀ (p : Nat) (x : PendingDelta) (s : State), s.dev.inReset = false → s.dev.bld.pending = some x → nbit x.affected p = true →
    nbit x.switched p = false → x.switched + 2 ^ p ≠ x.affected →
    ∃ t, exec (.deltaPanSwitch p) s = .next t ∧ t.fuses = s.fuses ∧ t.pending = s.pending ∧ bldState t.dev = bsAPPLYING ∧
      t.dev.bld.pending = some { x with switched := x.switched + 2 ^ p }) ∧
  (∀ (bs : List Byte) (s : State), s.dev.inReset = false → s.dev.bld.accepted = some bs → s.dev.stage = 1 → s.dev.vault.hold = false →
    s.dev.fld BOOT_STATUS_halt = 0 →
    ∃ t, exec .secondSteepReached s = .next t ∧ t.fuses = s.fuses ∧ t.pending = s.pending ∧ t.dev.stage = 2 ∧
      t.dev.dsp.accepting = true ∧ t.dev.bld.accepted = none) ∧
  (∀ (bad : List Nat) (s : State), s.dev.inReset = false → s.dev.stage = 2 → s.dev.boot.scanned = false →
    ∃ t, exec (.flashScanDone bad) s = .next t ∧ t.fuses = s.fuses ∧ t.pending = s.pending ∧ t.dev.boot.scanned = true ∧
      t.dev.stage = if s.dev.boot.brewReady then 3 else 2) ∧
  (∀ s : State, s.dev.inReset = false → s.dev.boot.restoreWait = true →
    Completes (.restoreRecordDone true) s [.boot] (fun _ => false) fun t =>
      t.dev.boot = { s.dev.boot with restoreWait := false, counter := s.dev.boot.counter.map fun c => { c with restores := c.restores + 1 } })

/-- On an enabled queue a word other than the idle word pushed by its producer is stored behind the words there are, while they are fewer than
32; at 32 it is dropped and counted in overrun; a pop by its consumer answers the oldest word, low half at once and high half captured, and
leaves the rest in order. WQ_ERR_CLR clears the queue's error register alone. A write of DSP_WQ_CFGn to a disabled queue sets its endpoints
and its enable; one that clears enable discards the stored words. So each of these completes under the conditions given, exec answering a
next state: WQ_CFG_WRITE, WQ_PUSH, WQ_POP, WQ_ERR_CLR. The model's own choices it rests on: log entry 20. (R81, R82, R84, R85, R91) -/
def Obligations.WordQueueStoresInOrder : Prop :=
  (∀ (m : Master) (q : Nat) (w : Word64) (s : State), s.dev.inReset = false → s.dev.fld (DSP_WQ_CFGn_enable q) = 1 →
    s.dev.fld (DSP_WQ_CFGn_producer q) = endpointOf s.dev m → w ≠ 0 → (wqWords s.dev q).length < 32 →
    Completes (.wqPush m q w) s [.dsp] (fun _ => false) fun t => wqWords t.dev q = wqWords s.dev q ++ [w] ∧
      ∀ k, k ≠ q → wqWords t.dev k = wqWords s.dev k) ∧
  (∀ (m : Master) (q : Nat) (w : Word64) (s : State), s.dev.inReset = false → s.dev.fld (DSP_WQ_CFGn_enable q) = 1 →
    s.dev.fld (DSP_WQ_CFGn_producer q) = endpointOf s.dev m → w ≠ 0 → 32 ≤ (wqWords s.dev q).length →
    Completes (.wqPush m q w) s [] (fun a => a == DSP_WQ_ERRn q) fun t =>
      t.dev.fld (DSP_WQ_ERRn_overrun q) = min (s.dev.fld (DSP_WQ_ERRn_overrun q) + 1) (DSP_WQ_ERRn_overrun q).max) ∧
  (∀ (m : Master) (q : Nat) (w : Word64) (ws : List Word64) (s : State), s.dev.inReset = false → s.dev.fld (DSP_WQ_CFGn_enable q) = 1 →
    s.dev.fld (DSP_WQ_CFGn_consumer q) = endpointOf s.dev m → wqWords s.dev q = w :: ws →
    Completes (.wqPop m q) s [.dsp, .rdata, .shadows] (fun _ => false) fun t => wqWords t.dev q = ws ∧
      Tab.find t.dev.rdata (Master.key m) = some (BitVec.ofNat 64 w.lo.toNat) ∧ Tab.find t.dev.shadows (pairKey m (DSP_WQ_POPn_HI q)) = some w.hi ∧
      ∀ k, k ≠ q → wqWords t.dev k = wqWords s.dev k) ∧
  (∀ (q : Nat) (s : State), s.dev.inReset = false →
    Completes (.wqErrClr q) s [] (fun a => a == DSP_WQ_ERRn q) fun t => t.dev.reg (DSP_WQ_ERRn q) = 0) ∧
  (∀ (q : Nat) (w : Word) (s : State), s.dev.inReset = false → s.dev.fld (DSP_WQ_CFGn_enable q) = 0 →
    endpointOk (getBits w 15 8) = true → endpointOk (getBits w 7 0) = true →
    Completes (.wqCfgWrite q w) s [] (fun a => a == DSP_WQ_CFGn q) fun t =>
      t.dev.fld (DSP_WQ_CFGn_consumer q) = getBits w 15 8 ∧ t.dev.fld (DSP_WQ_CFGn_producer q) = getBits w 7 0 ∧
      t.dev.fld (DSP_WQ_CFGn_enable q) = getBits w 16 16) ∧
  (∀ (q : Nat) (w : Word) (s : State), s.dev.inReset = false → s.dev.fld (DSP_WQ_CFGn_enable q) = 1 → w.getLsbD 16 = false →
    Completes (.wqCfgWrite q w) s [.dsp] (fun a => a == DSP_WQ_CFGn q) fun t =>
      t.dev.fld (DSP_WQ_CFGn_enable q) = 0 ∧ wqWords t.dev q = [] ∧
      t.dev.fld (DSP_WQ_CFGn_consumer q) = s.dev.fld (DSP_WQ_CFGn_consumer q) ∧ t.dev.fld (DSP_WQ_CFGn_producer q) = s.dev.fld (DSP_WQ_CFGn_producer q))

/-- The idle word is 0. A pop from an empty queue answers it and changes nothing but what the master reads; a push of it by the producer of an
enabled queue stores nothing and counts in zero_push alone; a push from an endpoint that is not the producer counts in foreign alone,
whatever its word. So each of these completes under the conditions given, exec answering a next state: WQ_PUSH, WQ_POP. (R83) -/
def Obligations.IdleWord : Prop :=
  idleWord = 0 ∧
  (∀ (m : Master) (q : Nat) (s : State), s.dev.inReset = false → s.dev.fld (DSP_WQ_CFGn_enable q) = 1 →
    s.dev.fld (DSP_WQ_CFGn_consumer q) = endpointOf s.dev m → wqWords s.dev q = [] →
    Completes (.wqPop m q) s [.rdata, .shadows] (fun _ => false) fun t =>
      Tab.find t.dev.rdata (Master.key m) = some 0 ∧ Tab.find t.dev.shadows (pairKey m (DSP_WQ_POPn_HI q)) = some 0) ∧
  (∀ (m : Master) (q : Nat) (s : State), s.dev.inReset = false → s.dev.fld (DSP_WQ_CFGn_enable q) = 1 →
    s.dev.fld (DSP_WQ_CFGn_producer q) = endpointOf s.dev m →
    Completes (.wqPush m q 0) s [] (fun a => a == DSP_WQ_ERRn q) fun t =>
      t.dev.fld (DSP_WQ_ERRn_zero_push q) = min (s.dev.fld (DSP_WQ_ERRn_zero_push q) + 1) (DSP_WQ_ERRn_zero_push q).max ∧
      t.dev.fld (DSP_WQ_ERRn_foreign q) = s.dev.fld (DSP_WQ_ERRn_foreign q) ∧
      t.dev.fld (DSP_WQ_ERRn_overrun q) = s.dev.fld (DSP_WQ_ERRn_overrun q)) ∧
  (∀ (m : Master) (q : Nat) (w : Word64) (s : State), s.dev.inReset = false → s.dev.fld (DSP_WQ_CFGn_producer q) ≠ endpointOf s.dev m →
    Completes (.wqPush m q w) s [] (fun a => a == DSP_WQ_ERRn q) fun t =>
      t.dev.fld (DSP_WQ_ERRn_foreign q) = min (s.dev.fld (DSP_WQ_ERRn_foreign q) + 1) (DSP_WQ_ERRn_foreign q).max ∧
      t.dev.fld (DSP_WQ_ERRn_zero_push q) = s.dev.fld (DSP_WQ_ERRn_zero_push q) ∧
      t.dev.fld (DSP_WQ_ERRn_overrun q) = s.dev.fld (DSP_WQ_ERRn_overrun q))

/-- While the dispatcher accepts, a well-formed descriptor of its submitter's range with an unused identifier and a dependence count above 0
becomes an outstanding task that waits with that count, and the submitter reads OK: HSUB_SUBMIT for host software, CSUB_SUBMIT for firmware,
SLOT_SUBMIT for a handler in service. No other task changes. So each of these completes under the conditions given, exec answering a next
state: HSUB_SUBMIT, CSUB_SUBMIT, SLOT_SUBMIT. The model's own choices it rests on: log entries 20, 111. (R64, R65, R66, R70, R73) -/
def Obligations.TaskSubmission : Prop :=
  (∀ (desc : List Byte) (s : State), s.dev.inReset = false → submitCheck s.dev (descOf (fit 32 desc)) 0xE000 0xFFFE 3 = sbOK →
    (descOf (fit 32 desc)).dep ≠ 0 →
    Completes (.hsubSubmit desc) s [.dsp] (fun a => a == DSP_HSUB_STATUS) fun t =>
      t.dev.fld DSP_HSUB_STATUS_result = sbOK ∧
      t.dev.task (descOf (fit 32 desc)).id = some ⟨descOf (fit 32 desc), (descOf (fit 32 desc)).dep, .waiting, none, false, s.dev.ns, 0, 0, false, false, 0⟩ ∧
      ∀ i, i ≠ (descOf (fit 32 desc)).id → t.dev.task i = s.dev.task i) ∧
  (∀ (desc : List Byte) (s : State), s.dev.inReset = false → submitCheck s.dev (descOf (fit 32 desc)) 0xA000 0xDFFF 2 = sbOK →
    (descOf (fit 32 desc)).dep ≠ 0 → s.dev.fwd.recovQ = [] →
    Completes (.csubSubmit desc) s [.dsp] (fun a => a == DSP_CSUB_STATUS) fun t =>
      t.dev.fld DSP_CSUB_STATUS_result = sbOK ∧
      t.dev.task (descOf (fit 32 desc)).id = some ⟨descOf (fit 32 desc), (descOf (fit 32 desc)).dep, .waiting, none, false, s.dev.ns, 0, 0, false, false, 0⟩ ∧
      ∀ i, i ≠ (descOf (fit 32 desc)).id → t.dev.task i = s.dev.task i) ∧
  (∀ (e n i : Nat) (p : Task) (desc : List Byte) (s : State), s.dev.inReset = false → (s.dev.engine e).tasks = [i] → s.dev.task i = some p →
    (s.dev.caddy (e / 16)).logical = some n →
    submitCheck s.dev (descOf (fit 32 desc)) (0x8000 + 256 * n) (0x80FF + 256 * n) p.d.source = sbOK → (descOf (fit 32 desc)).dep ≠ 0 →
    Completes (.slotSubmit e desc) s [.dsp] (fun _ => false) fun t =>
      (t.dev.engine e).subStatus = sbOK ∧ (t.dev.engine e).tasks = [i] ∧
      t.dev.task (descOf (fit 32 desc)).id = some ⟨descOf (fit 32 desc), (descOf (fit 32 desc)).dep, .waiting, none, false, s.dev.ns, 0, 0, false, false, 0⟩ ∧
      ∀ k, k ≠ (descOf (fit 32 desc)).id → t.dev.task k = s.dev.task k)

/-- A ready task without a flow is dispatched to a free Protocol Engine of its RUNNING Caddy. A task without successors, notification or flow
that its handler ends (through ra, or with DSP_SLOT_DONE) or that WATCHDOG, a drain time-out or an engine fault aborts leaves its engine and
the task table; an engine fault is counted; a watchdog resets the engine. A task whose dependence counter has stayed above 0 for 1 s leaves
the task table. So each of these completes under the conditions given, exec answering a next state: TASK_DISPATCH, DEP_TIMEOUT, WATCHDOG,
DRAIN_TIMEOUT, ENGINE_FAULT, TASK_COMPLETE, SLOT_DONE. The model's own choices it rests on: log entries 3, 10, 15, 20. (R66, R69, R71, R74,
R77, R78, R79, R80, R87) -/
def Obligations.TaskService : Prop :=
  (∀ (i e : Nat) (p : Task) (s : State), s.dev.inReset = false → s.dev.task i = some p → p.phase = .ready (e / 16) → p.ticket = none →
    2 ≤ p.d.kind → 8 ≤ e % 16 → (s.dev.caddy (e / 16)).state = cdRUNNING → (s.dev.engine e).tasks = [] → (s.dev.engine e).disabled = false →
    (s.dev.engine e).draining = false →
    ∃ t, exec (.taskDispatch i e) s = .next t ∧ t.fuses = s.fuses ∧ t.pending = s.pending ∧ (t.dev.engine e).tasks = [i] ∧
      t.dev.task i = some { p with phase := .service e, startAt := s.dev.ns } ∧ i ∉ (t.dev.caddy (e / 16)).ready) ∧
  (∀ (i e r : Nat) (p : Task) (s : State), s.dev.inReset = false → Alone s.dev i e p → p.d.kind = 4 → 8 ≤ e % 16 →
    ∃ t, exec (.taskComplete i (some r)) s = .next t ∧ TaskGone i e s t ∧ ∀ k, k ≠ i → t.dev.task k = s.dev.task k) ∧
  (∀ (i e r : Nat) (p : Task) (s : State), s.dev.inReset = false → Alone s.dev i e p → p.d.kind = 4 → 8 ≤ e % 16 →
    ∃ t, exec (.slotDone e r) s = .next t ∧ TaskGone i e s t ∧ ∀ k, k ≠ i → t.dev.task k = s.dev.task k) ∧
  (∀ (i e : Nat) (p : Task) (s : State), s.dev.inReset = false → Alone s.dev i e p → p.d.kind = 4 → 8 ≤ e % 16 →
    ∃ t, exec (.watchdog i) s = .next t ∧ TaskGone i e s t ∧ (t.dev.engine e).step = 0 ∧ (t.dev.engine e).sub = [] ∧ ∀ k, k ≠ i → t.dev.task k = s.dev.task k) ∧
  (∀ (i e : Nat) (p : Task) (s : State), s.dev.inReset = false → Alone s.dev i e p → p.d.kind = 4 → 8 ≤ e % 16 →
    ∃ t, exec (.engineFault e) s = .next t ∧ TaskGone i e s t ∧
      t.dev.fld DSP_ERR_engine_fault = min (s.dev.fld DSP_ERR_engine_fault + 1) DSP_ERR_engine_fault.max ∧ ∀ k, k ≠ i → t.dev.task k = s.dev.task k) ∧
  (∀ (i e : Nat) (p : Task) (s : State), s.dev.inReset = false → Alone s.dev i e p → p.d.kind = 4 → 8 ≤ e % 16 → (s.dev.caddy (e / 16)).state = cdDRAINING →
    ∃ t, exec (.drainTimeout i) s = .next t ∧ TaskGone i e s t ∧ ∀ k, k ≠ i → t.dev.task k = s.dev.task k) ∧
  (∀ (i : Nat) (p : Task) (s : State), s.dev.inReset = false → s.dev.task i = some p → p.d.id = i → p.phase = .waiting → 0 < p.dep →
    p.ticket = none → 2 ≤ p.d.kind → p.d.succ0 = noTask → p.d.succ1 = noTask → p.d.notify = false →
    ∃ t, exec (.depTimeout i) s = .next t ∧ t.fuses = s.fuses ∧ t.pending = s.pending ∧ t.dev.task i = none ∧
      ∀ k, k ≠ i → t.dev.task k = s.dev.task k)

/-- A decrement of a task that is not outstanding changes only DSP_ERR.dep_unknown, one of a counter already at zero only DSP_ERR.dep_underflow;
each counts one more, held at all ones, and neither makes a task ready. (That a successor must be submitted first is a duty of software.)
(R67) -/
def Obligations.DecrementOutsideRange : Prop :=
  (∀ (d : Dev) (a : Bool) (i : Nat), i ≠ noTask → d.task i = none →
    (decrement d a i).fld DSP_ERR_dep_unknown = min (d.fld DSP_ERR_dep_unknown + 1) DSP_ERR_dep_unknown.max ∧
    (decrement d a i).dsp = d.dsp ∧ (∀ b, b ≠ DSP_ERR → (decrement d a i).reg b = d.reg b) ∧
    (decrement d a i).fld DSP_ERR_dep_underflow = d.fld DSP_ERR_dep_underflow) ∧
  (∀ (d : Dev) (a : Bool) (i : Nat) (p : Task), i ≠ noTask → d.task i = some p → p.dep = 0 →
    (decrement d a i).fld DSP_ERR_dep_underflow = min (d.fld DSP_ERR_dep_underflow + 1) DSP_ERR_dep_underflow.max ∧
    (decrement d a i).dsp = d.dsp ∧ (∀ b, b ≠ DSP_ERR → (decrement d a i).reg b = d.reg b) ∧
    (decrement d a i).fld DSP_ERR_dep_unknown = d.fld DSP_ERR_dep_unknown)

/-- A Caddy chosen for the idle stop is STOPPED; a STARTING one whose PLL locks RUNS, and with an empty ready list, no role and no number one
whose PLL times out is DISABLED; with no task held a DRAINING one that is idle leaves for its target; the last two are stated where the warm
minimum runs or starts, so that no further Caddy is started. A held completion word is pushed when its queue has room, or dropped and
counted after 1 ms. A task in the holding list for 10 ms sets role_wait. A steal moves half of the eligible items of the first victim. A
write of DSP_CNT_SEL selects the unit and takes the snapshot of its completed tasks; cnt_clear clears its greatest wait and sets its
greatest prefetch to what its slot holds; err_clear clears DSP_ERR. So each of these completes under the conditions given, exec answering a
next state: CADDY_IDLE_STOP, CADDY_PLL_LOCK, CADDY_PLL_TIMEOUT, COMPLETION_WORD_PUSH, COMPLETION_WORD_DROP, ROLE_WAIT, STEAL_ATTEMPT,
CADDY_DRAIN_END, CNT_SEL_SNAPSHOT, DSP_CNT_CLEAR, DSP_ERR_CLEAR. The model's own choices it rests on: log entries 10, 20, 29, 30. (R59, R60,
R69, R73, R75, R79, R89) -/
def Obligations.CaddiesAndLists : Prop :=
  (∀ (c : Nat) (s : State), s.dev.inReset = false → stopChoice s.dev = some c → s.dev.fld DSP_CTRL_trace_en = 0 →
    Completes (.caddyIdleStop c) s [.dsp] (fun _ => false) fun t => (t.dev.caddy c).state = cdSTOPPED ∧
      ∀ k, k ≠ c → t.dev.caddy k = s.dev.caddy k) ∧
  (∀ (c : Nat) (s : State), s.dev.inReset = false → (s.dev.caddy c).state = cdSTARTING → s.dev.dsp.holding = [] →
    Completes (.caddyPllLock c) s [.dsp] (fun a => a == DSP_STATUS) fun t => (t.dev.caddy c).state = cdRUNNING ∧
      (t.dev.caddy c).emptySince = s.dev.ns ∧ ∀ k, k ≠ c → t.dev.caddy k = s.dev.caddy k) ∧
  (∀ (c : Nat) (s : State), s.dev.inReset = false → (s.dev.caddy c).state = cdSTARTING → (s.dev.caddy c).ready = [] →
    (s.dev.caddy c).roles = 0 → (s.dev.caddy c).logical = none → (s.dev.dsp.accepting = true → s.dev.warmMin ≤ warmHeld s.dev) →
    ∃ t, exec (.caddyPllTimeout c) s = .next t ∧ t.fuses = s.fuses ∧ t.pending = s.pending ∧ (t.dev.caddy c).state = cdDISABLED ∧
      ∀ k, k ≠ c → t.dev.caddy k = s.dev.caddy k) ∧
  (∀ (c : Nat) (s : State), s.dev.inReset = false → (s.dev.caddy c).state = cdDRAINING → caddyIdle s.dev c = true → s.dev.dsp.holding = [] →
    (s.dev.dsp.accepting = true → s.dev.warmMin ≤ warmHeld s.dev) →
    Completes (.caddyDrainEnd c) s [.dsp] (fun a => a == DSP_STATUS) fun t => (t.dev.caddy c).state = (s.dev.caddy c).target ∧
      ∀ k, k ≠ c → t.dev.caddy k = s.dev.caddy k) ∧
  (∀ (q : Nat) (h : HeldWord) (l : List HeldWord) (s : State), s.dev.inReset = false → takeHeldWord q s.dev.dsp.held = some (h, l) →
    wqCredit s.dev q = true → h.word ≠ 0 →
    Completes (.completionWordPush q) s [.dsp] (fun _ => false) fun t => t.dev.dsp.held = l ∧ wqWords t.dev q = wqWords s.dev q ++ [h.word]) ∧
  (∀ (q : Nat) (h : HeldWord) (l : List HeldWord) (s : State), s.dev.inReset = false → takeHeldWord q s.dev.dsp.held = some (h, l) → q < 256 →
    ∃ t, exec (.completionWordDrop q) s = .next t ∧ t.fuses = s.fuses ∧ t.pending = s.pending ∧ t.dev.dsp = { s.dev.dsp with held := l } ∧
      t.dev.fld (DSP_WQ_ERRn_overrun q) = min (s.dev.fld (DSP_WQ_ERRn_overrun q) + 1) (DSP_WQ_ERRn_overrun q).max) ∧
  (∀ (i : Nat) (p : Task) (s : State), s.dev.inReset = false → s.dev.task i = some p → p.phase = .holding →
    ∃ t, exec (.roleWait i) s = .next t ∧ t.fuses = s.fuses ∧ t.pending = s.pending ∧ t.dev.fld DSP_STATUS_role_wait = 1 ∧
      t.dev.task i = some { p with roleWaited := true } ∧ t.dev.dsp.holding = s.dev.dsp.holding) ∧
  (∀ (c v n : Nat) (l : List Nat) (s : State), s.dev.inReset = false → (s.dev.caddy c).state = cdRUNNING → (s.dev.caddy c).fenced = false →
    (s.dev.caddy c).ready = [] → (s.dev.caddy c).logical = some n → s.dev.fld DSP_CTRL_steal_en = 1 →
    (List.range 16).any (engineIdle s.dev c) = true → v ≠ c → l ≠ [] →
    (((stealOrder n).filterMap (physOf s.dev)).findSome? fun x => match stealFrom s.dev c x with
      | [] => none
      | y => some (x, y)) = some (v, l) → l.Nodup →
    ∃ t, exec (.stealAttempt c) s = .next t ∧ t.fuses = s.fuses ∧ t.pending = s.pending ∧ (t.dev.caddy c).ready = l ∧
      (t.dev.caddy v).ready = (s.dev.caddy v).ready.filter (fun i => !l.contains i)) ∧
  (∀ (c u : Nat) (s : State), s.dev.inReset = false → c ≤ 33 → u < 16 →
    Completes (.cntSelSnapshot c u) s [] (fun a => a / 0x100000 == 3) fun t =>
      t.dev.fld DSP_CNT_SEL_caddy = c ∧ t.dev.fld DSP_CNT_SEL_unit = u ∧
      t.dev.reg DSP_CNT_DONE = BitVec.ofNat 32 (s.dev.engine (16 * c + u)).done) ∧
  (∀ s : State, s.dev.inReset = false → s.dev.fld DSP_CNT_SEL_unit ≠ 16 →
    Completes .dspCntClear s [.dsp] (fun _ => false) fun t =>
      (t.dev.engine (16 * s.dev.fld DSP_CNT_SEL_caddy + s.dev.fld DSP_CNT_SEL_unit)).waitMax = 0 ∧
      (t.dev.engine (16 * s.dev.fld DSP_CNT_SEL_caddy + s.dev.fld DSP_CNT_SEL_unit)).prefetchMax =
        b2n (s.dev.engine (16 * s.dev.fld DSP_CNT_SEL_caddy + s.dev.fld DSP_CNT_SEL_unit)).prefetch.isSome) ∧
  (∀ s : State, s.dev.inReset = false →
    Completes .dspErrClear s [] (fun a => a == DSP_ERR) fun t => t.dev.reg DSP_ERR = 0)

/-- In ALIGN 64 good headers lock the port. A STAMP of a locked port in ALIGN that has none before it is counted as the first; one 4,096 blocks
after the first takes it to DESCRIBE. A port in CALIBRATE or READY keeps the measurement (arrival less departure of the echoed STAMP, and
the turnaround of bytes 5 and 6) of a STAMP that comes in its block, echoes one of the last two, agrees in byte 7 with the device's own
sample count, and has a turnaround of at most 43,253 ns and RTT at least the turnaround, while it holds fewer than 63 (kept in these states
alone: log entry 121). A STAMP absent the first time is counted in stamp_err and not yet relinked on; the second time a port in DESCRIBE
goes to ALIGN with cause STAMP. A block of sync header 10 and unknown type byte is counted in type_err; one of sync header 00 or 11, with
fewer than 15 in the 64-block window, in sync_err; under PRBS31 the bits that differ from the sequence are added to errors. At a hyperframe
boundary the averaged d_down comes into use, and the streams run exactly when the STAMP shows CALIBRATE or READY. So each of these completes
under the conditions given, exec answering a next state: STAMP_RECEIVED, STAMP_ABSENT, BLOCK_ERROR, BLOCK_LOCK, HYPERFRAME_BOUNDARY,
PRBS_ERROR. The model's own choices it rests on: log entries 11, 20, 31. (R94, R100, R102, R115, R117, R118) -/
def Obligations.LinkTiming : Prop :=
  (∀ (p : Nat) (s : State), s.dev.inReset = false → s.dev.portState p = ylALIGN →
    Completes (.blockLock p) s [.ports] (fun _ => false) fun t => (t.dev.port p).locked = true ∧ (t.dev.port p).stamps = 0 ∧
      ∀ q, q ≠ p → t.dev.port q = s.dev.port q) ∧
  (∀ (p since samples : Nat) (stamp : List Byte) (s : State), s.dev.inReset = false → s.dev.portState p = ylALIGN → s.dev.fld (YL_TEST_mode p) ≠ 1 →
    (s.dev.port p).locked = true → (s.dev.port p).stamps = 0 →
    Completes (.stampReceived p since samples stamp) s [.ports] (fun _ => false) fun t => (t.dev.port p).stamps = 1 ∧
      (t.dev.port p).absent = 0 ∧ (t.dev.port p).calValid = nbit (field stamp 3 1) 5 ∧ ∀ q, q ≠ p → t.dev.port q = s.dev.port q) ∧
  (∀ (p samples : Nat) (stamp : List Byte) (s : State), s.dev.inReset = false → s.dev.portState p = ylALIGN → s.dev.fld (YL_TEST_mode p) ≠ 1 →
    (s.dev.port p).locked = true → (s.dev.port p).stamps = 1 → topRole s.dev.topo p = 3 →
    Completes (.stampReceived p 4096 samples stamp) s [.ports] (fun a => a == YL_STATUS p) fun t => t.dev.portState p = ylDESCRIBE ∧
      (t.dev.port p).descParts = [] ∧ ∀ q, q ≠ p → t.dev.port q = s.dev.port q) ∧
  (∀ (p samples : Nat) (stamp : List Byte) (s : State), s.dev.inReset = false → s.dev.portState p = ylALIGN → s.dev.fld (YL_TEST_mode p) ≠ 1 →
    (s.dev.port p).locked = true → (s.dev.port p).stamps = 1 → topRole s.dev.topo p ≠ 3 → (s.dev.port p).reqs = [] → (s.dev.port p).queued = [] →
    Completes (.stampReceived p 4096 samples stamp) s [.ports, .outs] (fun a => a == YL_STATUS p) fun t => t.dev.portState p = ylDESCRIBE ∧
      (t.dev.port p).reqs.map (fun r => (r.id, r.payload)) = [0, 64, 128, 192].map (fun o => (cmDESC_READ, [BitVec.ofNat 8 o, 64]))) ∧
  (∀ (p since samples : Nat) (stamp : List Byte) (s : State), s.dev.inReset = false → portLive s.dev p = true → topRole s.dev.topo p ≠ 3 →
    s.dev.fld (YL_TEST_mode p) ≠ 1 → since % 4096 = 0 → ((s.dev.port p).streams = true → ((s.dev.port p).upCount + samples) % 256 = field stamp 6 1) →
    echoRecent s.dev p (upStampOf stamp) = true → field stamp 4 2 ≤ 43253 → 10 * field stamp 4 2 ≤ rttOf s.dev p (upStampOf stamp) →
    (s.dev.port p).run.length < 63 →
    Completes (.stampReceived p since samples stamp) s [.ports] (fun _ => false) fun t =>
      (t.dev.port p).run = (rttOf s.dev p (upStampOf stamp), 10 * field stamp 4 2) :: (s.dev.port p).run ∧ (t.dev.port p).mismatched = 0 ∧
      (t.dev.port p).absent = 0 ∧ ∀ q, q ≠ p → t.dev.port q = s.dev.port q) ∧
  (∀ (p : Nat) (s : State), s.dev.inReset = false → within (s.dev.portState p) ylALIGN ylDRAINING = true → (s.dev.port p).absent = 0 →
    Completes (.stampAbsent p) s [.ports] (fun a => a == YL_ERR_LINK p) fun t =>
      t.dev.fld (YL_ERR_LINK_stamp_err p) = min (s.dev.fld (YL_ERR_LINK_stamp_err p) + 1) (YL_ERR_LINK_stamp_err p).max ∧
      (t.dev.port p).absent = 1 ∧ t.dev.portState p = s.dev.portState p) ∧
  (∀ (p : Nat) (s : State), s.dev.inReset = false → s.dev.portState p = ylDESCRIBE → (s.dev.port p).absent = 1 →
    Completes (.stampAbsent p) s [.ports] (fun a => a == YL_ERR_LINK p || a == YL_STATUS p) fun t => t.dev.portState p = ylALIGN ∧
      t.dev.fld (YL_STATUS_cause p) = yeSTAMP ∧ (t.dev.port p).absent = 0) ∧
  (∀ (p sync line prev since : Nat) (s : State), s.dev.inReset = false → s.dev.portState p ≠ ylDISABLED → sync = 2 →
    [0x1E, 0x4B, 0x78].contains ((descramble 64 prev line).1 % 256) = false →
    Completes (.blockError p sync line prev since) s [] (fun a => a == YL_ERR_SYNC p) fun t =>
      t.dev.fld (YL_ERR_SYNC_type_err p) = min (s.dev.fld (YL_ERR_SYNC_type_err p) + 1) (YL_ERR_SYNC_type_err p).max) ∧
  (∀ (p sync line prev since : Nat) (s : State), s.dev.inReset = false → s.dev.portState p ≠ ylDISABLED → (sync = 0 ∨ sync = 3) →
    (((s.dev.port p).syncWin).filter id).length < 15 →
    Completes (.blockError p sync line prev since) s [.ports] (fun a => a == YL_ERR_SYNC p) fun t =>
      t.dev.fld (YL_ERR_SYNC_sync_err p) = min (s.dev.fld (YL_ERR_SYNC_sync_err p) + 1) (YL_ERR_SYNC_sync_err p).max ∧
      t.dev.portState p = s.dev.portState p) ∧
  (∀ (p hist block : Nat) (s : State), s.dev.inReset = false → s.dev.fld (YL_TEST_prbs p) = 1 →
    Completes (.prbsError p hist block) s [] (fun a => a == YL_PRBS_ERR p) fun t =>
      t.dev.fld (YL_PRBS_ERR_errors p) = min (s.dev.fld (YL_PRBS_ERR_errors p) + bitErrors (prbs31 64 hist).1 block) (YL_PRBS_ERR_errors p).max) ∧
  (∀ (p h v : Nat) (s : State), s.dev.inReset = false → s.dev.portState p ≠ ylDISABLED → (s.dev.port p).dPending = some v → v < 2 ^ 32 →
    (s.dev.port p).loopPending = none →
    Completes (.hyperframeBoundary p h) s [.ports] (fun a => a == YL_DLY_DOWN p) fun t => t.dev.fld (YL_DLY_DOWN_value p) = v % 2 ^ 24 ∧
      (t.dev.port p).dPending = none ∧ (t.dev.port p).hyperNum = h % 2 ^ 24 ∧ (t.dev.port p).hyperAt = s.dev.ts100 ∧
      (t.dev.port p).streams = (shownState s.dev p == ylCALIBRATE || shownState s.dev p == ylREADY))

/-- Enable takes a DISABLED port to DOWN, without hold-off the first time, later with 10 ms, and with 1 s from the eighth failed attempt on; the
hold-off's end takes it to ALIGN. A timeout of ALIGN, DESCRIBE or (with no context, burst or change of gain, before it reached READY)
CALIBRATE takes the port to DOWN with its cause and counts an attempt; a forced relink of a port in ALIGN takes it to DOWN with cause
FORCED. Disable takes a port that is not READY and carries nothing to DISABLED, and so does the end of the timeslot a DRAINING one with
nothing on it. YL_ERR_CLR clears the three error registers of its port alone. So each of these completes under the conditions given, exec
answering a next state: PORT_ENABLE, PORT_DISABLE, PORT_RELINK, HOLDOFF_EXPIRY, ALIGN_TIMEOUT, DESC_TIMEOUT, CAL_TIMEOUT, PORT_DRAIN_END,
YL_ERR_CLR. The model's own choices it rests on: log entries 10, 20, 33. (R115, R118, R119, R121, R124) -/
def Obligations.PortStates : Prop :=
  (∀ (p : Nat) (s : State), s.dev.inReset = false → s.dev.portState p = ylDISABLED →
    Completes (.portEnable p) s [.ports] (fun a => a == YL_CTRL p || a == YL_STATUS p) fun t => t.dev.portState p = ylDOWN ∧
      t.dev.fld (YL_CTRL_enable p) = 1 ∧ (t.dev.port p).holdoff = (if (s.dev.port p).everEnabled = false then 0 else
        if 8 ≤ s.dev.fld (YL_STATUS_attempts p) then 1000 else 10) ∧
      (∀ q, q ≠ p → t.dev.port q = s.dev.port q)) ∧
  (∀ (p : Nat) (s : State), s.dev.inReset = false → s.dev.portState p = ylDOWN → s.dev.isolated.contains (128 + p / 8) = false →
    Completes (.holdoffExpiry p) s [.ports] (fun a => a == YL_STATUS p) fun t => t.dev.portState p = ylALIGN ∧
      (t.dev.port p).locked = false ∧ ∀ q, q ≠ p → t.dev.port q = s.dev.port q) ∧
  (∀ (p : Nat) (s : State), s.dev.inReset = false → s.dev.portState p = ylALIGN → s.dev.fld (YL_STATUS_attempts p) < 7 →
    Completes (.alignTimeout p) s [.ports] (fun a => a == YL_STATUS p) fun t => t.dev.portState p = ylDOWN ∧
      t.dev.fld (YL_STATUS_cause p) = yeALIGN_TIMEOUT ∧ t.dev.fld (YL_STATUS_attempts p) = s.dev.fld (YL_STATUS_attempts p) + 1 ∧
      (t.dev.port p).holdoff = 10) ∧
  (∀ (p : Nat) (s : State), s.dev.inReset = false → s.dev.portState p = ylDESCRIBE → s.dev.fld (YL_STATUS_attempts p) < 7 →
    Completes (.descTimeout p) s [.ports] (fun a => a == YL_STATUS p) fun t => t.dev.portState p = ylDOWN ∧
      t.dev.fld (YL_STATUS_cause p) = yeDESC_TIMEOUT ∧ t.dev.fld (YL_STATUS_attempts p) = s.dev.fld (YL_STATUS_attempts p) + 1 ∧
      (t.dev.port p).holdoff = 10) ∧
  (∀ (p : Nat) (s : State), s.dev.inReset = false → s.dev.portState p = ylCALIBRATE → s.dev.fld (YL_STATUS_attempts p) < 7 →
    s.dev.rx.ctx = [] → (s.dev.head p).gainPending = none →
    Completes (.calTimeout p) s [.ports, .hc] (fun a => a == YL_STATUS p) fun t => t.dev.portState p = ylDOWN ∧
      t.dev.fld (YL_STATUS_cause p) = yeCAL_TIMEOUT ∧ t.dev.fld (YL_STATUS_attempts p) = s.dev.fld (YL_STATUS_attempts p) + 1 ∧
      (t.dev.port p).holdoff = 10 ∧ (t.dev.port p).reqs = [] ∧ (t.dev.head p).rxReady = false ∧ (t.dev.head p).paOn = false) ∧
  (∀ (p : Nat) (s : State), s.dev.inReset = false → s.dev.portState p = ylALIGN → s.dev.fld (YL_STATUS_attempts p) < 7 →
    Completes (.portRelink p) s [.ports] (fun a => a == YL_STATUS p) fun t => t.dev.portState p = ylDOWN ∧
      t.dev.fld (YL_STATUS_cause p) = yeFORCED) ∧
  (∀ (p : Nat) (s : State), s.dev.inReset = false → within (s.dev.portState p) ylDOWN ylDESCRIBE = true → (s.dev.port p).enablePending = false →
    Completes (.portDisable p) s [.ports] (fun a => a == YL_CTRL p || a == YL_STATUS p) fun t => t.dev.portState p = ylDISABLED ∧
      t.dev.fld (YL_CTRL_enable p) = 0 ∧ t.dev.fld (YL_STATUS_cause p) = yeDISABLED ∧ (t.dev.port p).reqs = []) ∧
  (∀ (p : Nat) (s : State), s.dev.inReset = false → s.dev.portState p = ylDRAINING → s.dev.rx.ctx = [] → s.dev.tx.bursts = [] →
    (s.dev.head p).gainPending = none → (s.dev.port p).enablePending = false →
    ∃ t, exec (.portDrainEnd p) s = .next t ∧ t.fuses = s.fuses ∧ t.pending = s.pending ∧ t.dev.portState p = ylDISABLED ∧
      t.dev.fld (YL_STATUS_cause p) = yeDISABLED ∧ t.dev.jrnl = s.dev.jrnl) ∧
  (∀ (p : Nat) (s : State), s.dev.inReset = false →
    Completes (.ylErrClr p) s [] (fun a => a == YL_ERR_SYNC p || a == YL_ERR_CTRL p || a == YL_ERR_LINK p) fun t =>
      t.dev.reg (YL_ERR_SYNC p) = 0 ∧ t.dev.reg (YL_ERR_CTRL p) = 0 ∧ t.dev.reg (YL_ERR_LINK p) = 0)

/-- An answer whose tag is not outstanding is counted in stale and changes nothing else, whatever message it is. A message whose CRC fails is
counted in crc_err, one of an unknown id in bad_field, alone. A request that times out the first time, untimed and no HEAD_RESET, is sent
once more under a new tag. A good ACK releases its tag and ends the run of failures: PA_BIAS sets the PA, TR_SWITCH the switch, LOOP_SET the
loopback. On a READY port SYNTH_STATUS OK makes its path ready, and CAL_DONE OK that of its kind, where the path awaits nothing else. TELEM
with status not OK only ends the request. The first part of a descriptor is kept. So each of these completes under the conditions given,
exec answering a next state: DESC_DATA, SYNTH_STATUS, CAL_DONE, ACK, CTRL_MESSAGE_DROPPED, CTRL_REQUEST_TIMEOUT, TELEM. The model's own
choices it rests on: log entries 11, 14, 20, 124. (R106, R109, R110, R111, R114, R122, R123, R128) -/
def Obligations.ControlAnswers : Prop :=
  (∀ (c : Instr) (p tag : Nat) (bs : List Byte) (s : State), s.dev.inReset = false → reqOf s.dev p tag = none →
    (c = .descData p tag bs ∨ c = .synthStatus p tag bs ∨ c = .calDone p tag bs ∨ c = .telem p tag bs ∨ c = .ack p tag bs) →
    Completes c s [] (fun a => a == YL_ERR_CTRL p) fun t =>
      t.dev.fld (YL_ERR_CTRL_stale p) = min (s.dev.fld (YL_ERR_CTRL_stale p) + 1) (YL_ERR_CTRL_stale p).max ∧
      t.dev.fld (YL_ERR_CTRL_bad_field p) = s.dev.fld (YL_ERR_CTRL_bad_field p)) ∧
  (∀ (p : Nat) (msg : List Byte) (s : State), s.dev.inReset = false → ctrlParse msg = none →
    Completes (.ctrlMessageDropped p msg) s [] (fun a => a == YL_ERR_CTRL p) fun t =>
      t.dev.fld (YL_ERR_CTRL_crc_err p) = min (s.dev.fld (YL_ERR_CTRL_crc_err p) + 1) (YL_ERR_CTRL_crc_err p).max ∧
      t.dev.fld (YL_ERR_CTRL_bad_field p) = s.dev.fld (YL_ERR_CTRL_bad_field p)) ∧
  (∀ (p id tag : Nat) (payload : List Byte) (s : State), s.dev.inReset = false → id < 256 → tag < 256 → payload.length < 256 →
    [0x81, 0x82, 0x83, 0x84, 0x87, 0x88].contains id = false →
    Completes (.ctrlMessageDropped p (msgBytes id tag payload)) s [] (fun a => a == YL_ERR_CTRL p) fun t =>
      t.dev.fld (YL_ERR_CTRL_bad_field p) = min (s.dev.fld (YL_ERR_CTRL_bad_field p) + 1) (YL_ERR_CTRL_bad_field p).max ∧
      t.dev.fld (YL_ERR_CTRL_crc_err p) = s.dev.fld (YL_ERR_CTRL_crc_err p)) ∧
  (∀ (p tag : Nat) (r : CtrlReq) (s : State), s.dev.inReset = false → reqOf s.dev p tag = some r → r.resent = false → r.at? = none →
    r.id ≠ cmHEAD_RESET → ((s.dev.port p).reqs.map (·.tag)).contains (s.dev.port p).nextTag = false →
    Completes (.ctrlRequestTimeout p tag) s [.ports, .outs] (fun _ => false) fun t =>
      (t.dev.port p).reqs = (s.dev.port p).reqs.filter (fun q => q.tag != tag) ++ [{ r with tag := (s.dev.port p).nextTag, resent := true }] ∧
      (t.dev.port p).fails = (s.dev.port p).fails ∧
      t.dev.outs = .control p r.id (s.dev.port p).nextTag r.payload :: s.dev.outs ∧ ∀ q, q ≠ p → t.dev.port q = s.dev.port q) ∧
  (∀ (p tag id : Nat) (r : CtrlReq) (s : State), s.dev.inReset = false → reqOf s.dev p tag = some r → r.id = id →
    (id = cmPA_BIAS ∨ id = cmTR_SWITCH ∨ id = cmLOOP_SET) → (s.dev.port p).queued = [] → Tab.find (s.dev.head p).undo tag = none →
    Completes (.ack p tag [0, BitVec.ofNat 8 id]) s [.ports, .hc] (fun _ => false) fun t =>
      (t.dev.port p).reqs = (s.dev.port p).reqs.filter (fun q => q.tag != tag) ∧ (t.dev.port p).fails = 0 ∧
      (id = cmPA_BIAS → t.dev.head p = { s.dev.head p with paOn := field r.payload 0 1 == 1, undo := (t.dev.head p).undo }) ∧
      (id = cmTR_SWITCH → t.dev.head p = { s.dev.head p with trTx := field r.payload 0 1 == 1, undo := (t.dev.head p).undo }) ∧
      Tab.find (t.dev.head p).undo tag = none ∧
      (id = cmLOOP_SET → (t.dev.port p).loopApplied = field r.payload 0 1)) ∧
  (∀ (p tag : Nat) (bs : List Byte) (r : CtrlReq) (s : State), s.dev.inReset = false → reqOf s.dev p tag = some r → r.id = cmSYNTH_TUNE →
    bs.length = 6 → field bs 0 1 = 0 → field bs 1 1 = 0 → field r.payload 0 1 = 0 → s.dev.portState p = ylREADY → (s.dev.port p).queued = [] →
    (s.dev.head p).wanted = [] → (∀ n ∈ (s.dev.head p).needs, n / 2 = 0 → n = synthNeed 0) →
    Completes (.synthStatus p tag bs) s [.ports, .hc] (fun _ => false) fun t => (t.dev.head p).rxReady = true ∧
      (t.dev.head p).tuning = (s.dev.head p).tuning.filter (· != 0) ∧ (t.dev.port p).reqs = (s.dev.port p).reqs.filter (fun q => q.tag != tag)) ∧
  (∀ (p tag k : Nat) (r : CtrlReq) (s : State), s.dev.inReset = false → reqOf s.dev p tag = some r → r.id = cmCAL_RUN →
    field r.payload 0 1 = k → k < 6 → s.dev.portState p = ylREADY → (s.dev.port p).queued = [] →
    (s.dev.head p).wanted = [] → (∀ n ∈ (s.dev.head p).needs, n ∈ calNeeds k) →
    Completes (.calDone p tag [0, BitVec.ofNat 8 k, 0, 0]) s [.ports, .hc] (fun _ => false) fun t => (t.dev.head p).calRunning = none ∧
      (1 < k → (t.dev.head p).txReady = true) ∧ (k ≤ 1 → (t.dev.head p).rxReady = true) ∧
      (t.dev.head p).due = (s.dev.head p).due.filter (· != k)) ∧
  (∀ (p tag : Nat) (r : CtrlReq) (s : State), s.dev.inReset = false → reqOf s.dev p tag = some r → r.id = cmTELEM_POLL →
    dscSensors s.dev p = 0 → (s.dev.port p).queued = [] →
    Completes (.telem p tag [3, 0]) s [.ports] (fun _ => false) fun t => (t.dev.port p).telFails = 0 ∧ (t.dev.port p).fails = 0 ∧
      (t.dev.port p).reqs = (s.dev.port p).reqs.filter (fun q => q.tag != tag)) ∧
  (∀ (p tag o : Nat) (bs : List Byte) (r : CtrlReq) (s : State), s.dev.inReset = false → reqOf s.dev p tag = some r → r.id = cmDESC_READ →
    field r.payload 0 1 = o → field r.payload 1 1 = 64 → o < 256 → bs.length = 64 → s.dev.portState p = ylDESCRIBE → (s.dev.port p).descParts = [] →
    (s.dev.port p).queued = [] →
    Completes (.descData p tag ([0, BitVec.ofNat 8 o, 64] ++ bs)) s [.ports] (fun _ => false) fun t =>
      (t.dev.port p).descParts = [(o, bs)] ∧ (t.dev.port p).reqs = (s.dev.port p).reqs.filter (fun q => q.tag != tag))

/-- An EVENT of over-temperature holds a head that holds nothing with THERMAL, one of a PA fault with FAULT (no burst on it). With no port in
CALIBRATE or READY the poll sends nothing. A role 3 port answers LOOP_SET at once and owes SYNTH_STATUS after the settling time; when it is
due it is sent and owed no more. So each of these completes under the conditions given, exec answering a next state: TELEM_POLL,
EMU_REQUEST, EMU_ANSWER_DUE, EVENT. The model's own choices it rests on: log entries 10, 20, 125. (R106, R123, R126, R142) -/
def Obligations.HeadEventsAndEmulation : Prop :=
  (∀ (p : Nat) (s : State), s.dev.inReset = false → s.dev.tx.bursts = [] → (s.dev.head p).holds = [] →
    Completes (.event p [4, 1, 0, 0]) s ([.hc] ++ noteParts) noteRegs fun t => t.dev.head p = { s.dev.head p with holds := [csFAULT] }) ∧
  (∀ (p : Nat) (s : State), s.dev.inReset = false → s.dev.tx.bursts = [] → (s.dev.head p).holds = [] → 1 ≤ dscSensors s.dev p →
    Completes (.event p [3, 0, 0, 0]) s ([.hc] ++ noteParts) noteRegs fun t => t.dev.head p = { s.dev.head p with holds := [csTHERMAL] }) ∧
  (∀ s : State, s.dev.inReset = false → (∀ p, p < 64 → portLive s.dev p = false) →
    exec .telemPoll s = .next s) ∧
  (∀ (p : Nat) (s : State), s.dev.inReset = false → portLive s.dev p = true → p < 64 → topRole s.dev.topo p ≠ 3 →
    (∀ q, q < 64 → q ≠ p → portLive s.dev q = false) → (s.dev.port p).reqs = [] → (s.dev.port p).queued = [] →
    Completes .telemPoll s [.ports, .outs] (fun _ => false) fun t =>
      t.dev.outs = .control p cmTELEM_POLL (s.dev.port p).nextTag [] :: s.dev.outs ∧
      (t.dev.port p).reqs = [⟨(s.dev.port p).nextTag, cmTELEM_POLL, [], false, none⟩]) ∧
  (∀ (p tag v : Nat) (s : State), s.dev.inReset = false → topRole s.dev.topo p = 3 → s.dev.portState p ≠ ylDISABLED → v < 256 →
    Completes (.emuRequest p cmLOOP_SET tag [BitVec.ofNat 8 v]) s [.ports, .outs] (fun _ => false) fun t => (t.dev.port p).loopApplied = v ∧
      t.dev.outs = .emulated p 0x84 tag [0, 8] :: s.dev.outs) ∧
  (∀ (p tag : Nat) (bs : List Byte) (s : State), s.dev.inReset = false → topRole s.dev.topo p = 3 → s.dev.portState p ≠ ylDISABLED →
    Completes (.emuRequest p cmSYNTH_TUNE tag bs) s [.ports] (fun _ => false) fun t =>
      (t.dev.port p).emu = (s.dev.port p).emu ++ [⟨0x82, tag, le 1 0 ++ slice bs 0 5⟩]) ∧
  (∀ (p tag : Nat) (a : EmuAnswer) (s : State), s.dev.inReset = false → (s.dev.port p).emu.find? (fun x => x.tag == tag) = some a →
    Completes (.emuAnswerDue p tag) s [.ports, .outs] (fun _ => false) fun t =>
      (t.dev.port p).emu = (s.dev.port p).emu.filter (fun x => x.tag != tag) ∧ t.dev.outs = .emulated p a.id a.tag a.payload :: s.dev.outs)

/-- On a READY head a kind of its mask that is not due becomes due when it is 24 h old; RECAL schedules every kind of the mask on a READY head
with none due, and stands in recal_req on one that is not READY. A due kind that may start marks its paths not ready, runs, and is due no
more: its CAL_RUN is sent, or waits while 16 requests are outstanding. A kind that failed once is run again 1 s later, and a held transmit
kind every 10 minutes. So each of these completes under the conditions given, exec answering a next state: CAL_AGE_EXPIRY, RECAL_REQUEST,
CAL_START, CAL_RETRY, CAL_HOLD_RETRY. The model's own choices it rests on: log entry 20. (R126, R128, R129, R130, R131) -/
def Obligations.HeadCalibration : Prop :=
  (∀ (p k : Nat) (s : State), s.dev.inReset = false → s.dev.portState p = ylREADY → k ≤ 4 → nbit (dscCalMask s.dev p) k = true →
    (s.dev.head p).due.contains k = false →
    Completes (.calAgeExpiry p k) s [.hc] (fun _ => false) fun t =>
      t.dev.head p = { s.dev.head p with due := (s.dev.head p).due ++ [k], dueAt := Tab.put (s.dev.head p).dueAt k s.dev.ns } ∧
      ∀ q, q ≠ p → t.dev.head q = s.dev.head q) ∧
  (∀ (s : State), s.dev.inReset = false → s.dev.portState (s.dev.fld HC_SEL_head) = ylREADY → (s.dev.head (s.dev.fld HC_SEL_head)).due = [] →
    s.dev.hc.recals = [] →
    Completes .recalRequest s [.hc] (fun a => a == HC_CTRL) fun t => t.dev.fld HC_CTRL_recal_req = 0 ∧ t.dev.hc.recals = [] ∧
      (t.dev.head (s.dev.fld HC_SEL_head)).due = [0, 1, 2, 3, 4].filter (fun k => nbit (dscCalMask s.dev (s.dev.fld HC_SEL_head)) k) ∧
      ∀ q, q ≠ s.dev.fld HC_SEL_head → t.dev.head q = s.dev.head q) ∧
  (∀ (s : State), s.dev.inReset = false → s.dev.portState (s.dev.fld HC_SEL_head) ≠ ylREADY →
    Completes .recalRequest s [.hc] (fun a => a == HC_CTRL) fun t => t.dev.fld HC_CTRL_recal_req = 1 ∧
      t.dev.hc = { s.dev.hc with recals := s.dev.fld HC_SEL_head :: s.dev.hc.recals.filter (· != s.dev.fld HC_SEL_head) }) ∧
  (∀ (p k : Nat) (s : State), s.dev.inReset = false → (s.dev.head p).due.contains k = true → calAllowed s.dev p k = true → calInstant s.dev p k = true → s.dev.rx.ctx = [] → (s.dev.port p).reqs.length < 16 →
    Completes (.calStart p k) s [.ports, .hc, .outs] (fun _ => false) fun t => (t.dev.head p).calRunning = some k ∧
      (t.dev.head p).due = (s.dev.head p).due.filter (· != k) ∧
      (k ≤ 1 → (t.dev.head p).rxReady = false ∧ (t.dev.head p).txReady = (s.dev.head p).txReady) ∧
      (1 < k ∧ k ≤ 4 → (t.dev.head p).txReady = false ∧ (t.dev.head p).rxReady = (s.dev.head p).rxReady) ∧
      ∃ x, t.dev.outs = .control p cmCAL_RUN x (le 1 k) :: s.dev.outs) ∧
  (∀ (p k : Nat) (s : State), s.dev.inReset = false → s.dev.portState p = ylREADY → k < 6 → (s.dev.head p).failed = [k] → calAllowed s.dev p k = true → s.dev.rx.ctx = [] →
    (s.dev.port p).reqs.length < 16 →
    Completes (.calRetry p k) s [.ports, .hc, .outs] (fun _ => false) fun t => (t.dev.head p).calRunning = some k ∧
      (t.dev.head p).failed = [k + 32] ∧ ∃ x, t.dev.outs = .control p cmCAL_RUN x (le 1 k) :: s.dev.outs) ∧
  (∀ (p k : Nat) (s : State), s.dev.inReset = false → s.dev.portState p = ylREADY → within k 2 4 = true → (s.dev.head p).failed = [k + 64] →
    calAllowed s.dev p k = true → (s.dev.port p).reqs.length < 16 →
    Completes (.calHoldRetry p) s [.ports, .hc, .outs] (fun _ => false) fun t => (t.dev.head p).calRunning = some k ∧
      (t.dev.head p).txReady = false ∧ ∃ x, t.dev.outs = .control p cmCAL_RUN x (le 1 k) :: s.dev.outs)

/-- A window with at most 16 peaks and a mean between -35 and -15 dBFS ends both runs. With more than 16 peaks, no change before and a code
above 1, the code is to fall by 2: one timed GAIN_SET of path 0 is sent and the change is pending. At its instant the digital gain is what
it was in the old curve minus the new. TR_SWITCH 0 arrives: the switch is at receive, and the blanking ends later. An enabled wake receiver
with a code counts a Whistle without an acceptable code as a false start and nothing else; the configured code sets pwr_req and woke, counts
a wake and notes its time, while no wake limit is set or it is not reached. Two seconds without a release of POR_N end pwr_req with
pwr_timeout; firmware's release clears pwr_req alone. So each of these completes under the conditions given, exec answering a next state:
GAIN_WINDOW, WHISTLE_RECEIVED, PWR_TIMEOUT, PWR_RELEASE, AT_INSTANT, BLANKING_END. The model's own choices it rests on: log entries 12, 20.
(R132, R133, R140, R149, R150, R151) -/
def Obligations.ReceiveGainAndWake : Prop :=
  (∀ (p peaks mean : Nat) (s : State), s.dev.inReset = false → s.dev.portState p = ylREADY → peaks ≤ 16 → mean ^ 2 ≤ 10 ^ 21 → 10 ^ 17 ≤ mean ^ 2 →
    Completes (.gainWindow p peaks mean) s [.hc] (fun _ => false) fun t => t.dev.head p = { s.dev.head p with loud := 0, quiet := 0 }) ∧
  (∀ (p peaks mean : Nat) (s : State), s.dev.inReset = false → s.dev.portState p = ylREADY → 16 < peaks → 2 ≤ (s.dev.head p).rxGain →
    (s.dev.head p).gainAt = none → (s.dev.head p).gainPending = none → (s.dev.port p).reqs.length < 16 →
    Completes (.gainWindow p peaks mean) s [.ports, .hc, .outs] (fun _ => false) fun t => (t.dev.head p).rxGain = (s.dev.head p).rxGain ∧
      (t.dev.head p).gainPending = some ⟨(s.dev.head p).rxGain - 2, (s.dev.head p).rxGain, (s.dev.head p).gainComp, false⟩ ∧
      (t.dev.head p).gainAt = some s.dev.ns ∧
      ∃ x, t.dev.outs = .control p cmGAIN_SET x (le 1 0 ++ le 2 ((s.dev.head p).rxGain - 2) ++ le 5 (atField s.dev p (s.dev.ns + 20000))) :: s.dev.outs) ∧
  (∀ (p tag : Nat) (r : CtrlReq) (g : GainChange) (s : State), s.dev.inReset = false → reqOf s.dev p tag = some r → r.id = cmGAIN_SET →
    field r.payload 0 1 = 0 → (s.dev.head p).gainPending = some g → Tab.find (s.dev.head p).undo tag = none →
    Completes (.atInstant p tag) s [.hc, .rx] (fun _ => false) fun t => (t.dev.head p).rxGain = g.code ∧
      t.dev.rx.ctx.map (·.1) = s.dev.rx.ctx.map (·.1) ∧
      (t.dev.head p).gainComp = dscRxGain s.dev p g.prevCode - dscRxGain s.dev p g.code ∧
      (t.dev.head p).gainPending = some { g with applied := true }) ∧
  (∀ (p tag : Nat) (r : CtrlReq) (s : State), s.dev.inReset = false → reqOf s.dev p tag = some r → r.id = cmTR_SWITCH → field r.payload 0 1 = 0 →
    Tab.find (s.dev.head p).undo tag = none →
    Completes (.atInstant p tag) s [.hc] (fun _ => false) fun t => 
      t.dev.head p = { s.dev.head p with trTx := false, undo := (t.dev.head p).undo }) ∧
  (∀ (p : Nat) (s : State), s.dev.inReset = false → (s.dev.head p).trTx = false →
    Completes (.blankingEnd p) s [.hc] (fun _ => false) fun t => t.dev.head p = { s.dev.head p with blanked := false }) ∧
  (∀ s : State, s.dev.fld KTL_WAKE_CTRL_rx_en = 1 → s.dev.fld KTL_WAKE_CODE_code ≠ 0 →
    Completes (.whistleReceived none) s [] (fun a => a == KTL_WAKE_COUNT) fun t =>
      t.dev.fld KTL_WAKE_COUNT_false_starts = min (s.dev.fld KTL_WAKE_COUNT_false_starts + 1) KTL_WAKE_COUNT_false_starts.max ∧
      t.dev.fld KTL_WAKE_COUNT_wakes = s.dev.fld KTL_WAKE_COUNT_wakes) ∧
  (∀ s : State, s.dev.fld KTL_WAKE_CTRL_rx_en = 1 → s.dev.fld KTL_WAKE_CODE_code ≠ 0 → s.dev.fld KTL_WAKE_CTRL_max_wakes = 0 →
    Completes (.whistleReceived (some (s.dev.fld KTL_WAKE_CODE_code))) s ([.ktl] ++ noteParts)
        (fun a => a == KTL_WAKE_COUNT || a == KTL_WAKE_TIME || a == KTL_WAKE_CTRL || a == KTL_WAKE_STATUS || noteRegs a) fun t =>
      t.dev.fld KTL_WAKE_CTRL_pwr_req = 1 ∧ t.dev.fld KTL_WAKE_STATUS_woke = 1 ∧
      t.dev.fld KTL_WAKE_COUNT_wakes = min (s.dev.fld KTL_WAKE_COUNT_wakes + 1) KTL_WAKE_COUNT_wakes.max ∧
      t.dev.ktl.wakes = s.dev.ktl.sec :: s.dev.ktl.wakes ∧ t.dev.fld KTL_WAKE_CTRL_rx_en = 1) ∧
  (∀ s : State, s.dev.inReset = true → s.dev.fld KTL_WAKE_CTRL_pwr_req = 1 →
    Completes .pwrTimeout s [] (fun a => a == KTL_WAKE_CTRL || a == KTL_WAKE_STATUS) fun t =>
      t.dev.fld KTL_WAKE_CTRL_pwr_req = 0 ∧ t.dev.fld KTL_WAKE_STATUS_pwr_timeout = 1) ∧
  (∀ s : State, s.dev.inReset = false →
    Completes .pwrRelease s [] (fun a => a == KTL_WAKE_CTRL) fun t => t.dev.fld KTL_WAKE_CTRL_pwr_req = 0 ∧
      t.dev.fld KTL_WAKE_CTRL_rx_en = s.dev.fld KTL_WAKE_CTRL_rx_en)

/-- Old telemetry holds a live head that holds nothing and sends nothing with TELEM; a cool PA clears THERMAL and no other hold. TX_INHIBIT is
written in HC_CTRL, and with no burst admitted nothing else changes. A burst not on air whose transmit path is not ready is refused with
SYNTH and counted. The start of the on-air interval of one admitted burst sends the GAIN_SET of the chosen code where it differs and its
instant lies 2 µs clear of the last interval, and TR_SWITCH 1 and PA_BIAS 1 where the PA is not yet commanded on. A bin closes: every meter
has a new empty one, at most 61 are kept, and their sums go to the Kettle; the copy alone writes the sums. HC_CNT_CLR clears the three
counters. So each of these completes under the conditions given, exec answering a next state: TELEM_AGE_EXPIRY, THERMAL_CLEAR,
TX_INHIBIT_WRITE, SYNTH_DEADLINE, ON_AIR_START, DUTY_BIN_CLOSE, DUTY_COPY, HC_CNT_CLR. The model's own choices it rests on: log entries 10,
20, 126. (R137, R142, R143, R144, R147, R148, R153) -/
def Obligations.HoldsAndDuty : Prop :=
  (∀ (p : Nat) (s : State), s.dev.inReset = false → portLive s.dev p = true → telemOlder s.dev p 1000000000 = true → (s.dev.head p).holds = [] →
    s.dev.tx.bursts = [] →
    Completes (.telemAgeExpiry p) s ([.hc] ++ noteParts) noteRegs fun t => t.dev.head p = { s.dev.head p with holds := [csTELEM] } ∧
      ∀ q, q ≠ p → t.dev.head q = s.dev.head q) ∧
  (∀ (p : Nat) (s : State), s.dev.inReset = false → sensorValue s.dev p (sensorOf s.dev p 1) 0 ≤ 1100 →
    Completes (.thermalClear p) s [.hc] (fun _ => false) fun t =>
      t.dev.head p = { s.dev.head p with holds := (s.dev.head p).holds.filter (· != csTHERMAL) }) ∧
  (∀ (on : Bool) (s : State), s.dev.inReset = false → s.dev.tx.bursts = [] →
    Completes (.txInhibitWrite on) s [] (fun a => a == HC_CTRL) fun t => t.dev.fld HC_CTRL_tx_inhibit = (if on then 1 else 0)) ∧
  (∀ (i e : Nat) (b : Burst) (q : Task) (s : State), s.dev.inReset = false → Tab.find s.dev.tx.bursts i = some b → b.task = i → b.onAir = false →
    (s.dev.head b.req.port).txReady = false → needsHead s.dev b.req.port = true → b.req.kind ≠ 3 → attemptOf s.dev i = none → b.req.cell = none → Alone s.dev i e q →
    ∃ t, exec (.synthDeadline i) s = .next t ∧ t.fuses = s.fuses ∧ t.pending = s.pending ∧
      t.dev.tx.bursts = Tab.del s.dev.tx.bursts i ∧ t.dev.task i = none ∧
      t.dev.fld HC_SKIP_A_synth = min (s.dev.fld HC_SKIP_A_synth + 1) HC_SKIP_A_synth.max) ∧
  (∀ (p c : Nat) (b : Burst) (s : State), s.dev.inReset = false → headBursts s.dev p = [b] → b.onAir = false → b.t0 ≤ b.t1 → -1000 ≤ b.pEff →
    looped s.dev p = false → topRole s.dev.topo p ≠ 3 → b.t0 ≤ s.dev.ns + 256 * 5406720 → chooseCode s.dev p b.pEff = some c →
    c ≠ (s.dev.head p).txCode → (s.dev.head p).onTo + 2000 ≤ b.t0 - 1000 * dscPaLead s.dev p - dscTrSwitch s.dev p - 4000 →
    (s.dev.head p).onCmd = true → (s.dev.port p).reqs.length < 16 →
    Completes (.onAirStart p) s [.ports, .outs] (fun _ => false) fun t =>
      ∃ x y, t.dev.outs = .control p cmGAIN_SET x (le 1 1 ++ le 2 c ++ y) :: s.dev.outs) ∧
  (∀ (p c : Nat) (b : Burst) (s : State), s.dev.inReset = false → headBursts s.dev p = [b] → b.onAir = false → b.t0 ≤ b.t1 → -1000 ≤ b.pEff →
    looped s.dev p = false → topRole s.dev.topo p ≠ 3 → b.t0 ≤ s.dev.ns + 256 * 5406720 → chooseCode s.dev p b.pEff = some c →
    c = (s.dev.head p).txCode → (s.dev.head p).onCmd = false → (s.dev.port p).reqs.length < 15 →
    Completes (.onAirStart p) s [.ports, .hc, .outs] (fun _ => false) fun t => t.dev.head p = { s.dev.head p with onCmd := true } ∧
      ∃ x x' y y', t.dev.outs = [.control p cmPA_BIAS x' (le 1 1 ++ y'), .control p cmTR_SWITCH x (le 1 1 ++ y)] ++ s.dev.outs) ∧
  (∀ s : State, s.dev.inReset = false →
    Completes .dutyBinClose s [.hc, .ktl] (fun _ => false) fun t => t.dev.hc.duty = s.dev.hc.duty.map (fun e => (e.1, (0 :: e.2).take 61)) ∧
      t.dev.ktl.duty = t.dev.hc.duty.map (fun e => (e.1, e.2.sum))) ∧
  (∀ s : State, s.dev.inReset = false → (∀ e ∈ s.dev.hc.duty, e.2.length ≤ 61) →
    Completes .dutyCopy s [.ktl] (fun _ => false) fun t => t.dev.ktl.duty = s.dev.hc.duty.map (fun e => (e.1, e.2.sum))) ∧
  (∀ s : State, s.dev.inReset = false →
    Completes .hcCntClr s [] (fun a => a == HC_SKIP_A || a == HC_SKIP_B || a == HC_PWR_LIMITED) fun t =>
      t.dev.reg HC_SKIP_A = 0 ∧ t.dev.reg HC_SKIP_B = 0 ∧ t.dev.reg HC_PWR_LIMITED = 0)

/-- A noise window adds the mean power of an idle channel of a live port, at most 16 kept. A detection above its thresholds on a channel without
a context, no expectation, and with a slot and an identifier to be had, opens a context of class 2 in PREAMBLE and counts in det. A
detection that waits in the sample buffer too long, with no slot to be had, is dropped and counted in ctx_late; RX cnt_clear clears every
receive counter and every channel's. So each of these completes under the conditions given, exec answering a next state: NOISE_WINDOW,
DETECTION, DETECTION_LATE, RX_CNT_CLEAR. The model's own choices it rests on: log entries 10, 11, 20. (R159, R160, R161, R163, R166, R181) -/
def Obligations.ReceiveDetection : Prop :=
  (∀ (p c x : Nat) (s : State), s.dev.inReset = false → portLive s.dev p = true → ctxOn s.dev p c = [] → (s.dev.chan p c).ran = false →
    c < bpCount s.dev.band p →
    Completes (.noiseWindow [(p, c, x)]) s [.rx] (fun _ => false) fun t =>
      (t.dev.chan p c).powers = (x :: (s.dev.chan p c).powers).take 16 ∧ t.dev.rx.ctx = s.dev.rx.ctx) ∧
  (∀ (p c m rho w n i : Nat) (s : State), s.dev.inReset = false → detecting s.dev p = true → c < bpCount s.dev.band p →
    (portModes s.dev p).contains m = true → 600 ≤ rho → noise s.dev p c = some n → atLeastDb w n (((phyFind s.dev.phy m).map (phyDetSnr s.dev.phy)).getD 80) = true →
    (s.dev.chan p c).refire = [] → channelLoad s.dev p c = [] → s.dev.ts.exps = [] → slotAvailable s.dev m = true → freeTask s.dev 0 0x4000 = some i →
    ∃ t, exec (.detection p c m rho w []) s = .next t ∧ t.fuses = s.fuses ∧ t.pending = s.pending ∧
      Tab.find t.dev.rx.ctx i = some ⟨p, c, m, 2, .preamble, w, w, s.dev.ns, false, none, 0, none, 0, false, false, 0, [], 0⟩ ∧
      (t.dev.chan p c).det = min ((s.dev.chan p c).det + 1) 0xFFFF ∧ (t.dev.task i).isSome = true ∧
      (t.dev.task i).map (fun x => x.d.kind) = some 0) ∧
  (∀ (p c : Nat) (x : RxCtx) (s : State), s.dev.inReset = false → s.dev.rx.late.find? (fun y => y.port == p && y.channel == c) = some x →
    slotAvailable s.dev x.mode = false →
    Completes (.detectionLate p c) s [.rx] (fun a => a == RX_CNT_DROP) fun t => t.dev.rx.late = s.dev.rx.late.erase x ∧ t.dev.rx.ctx = s.dev.rx.ctx ∧
      t.dev.fld RX_CNT_DROP_ctx_late = min (s.dev.fld RX_CNT_DROP_ctx_late + 1) RX_CNT_DROP_ctx_late.max) ∧
  (∀ s : State, s.dev.inReset = false →
    Completes .rxCntClear s [.rx] (fun a => a == RX_CNT_CTX || a == RX_CNT_LOST || a == RX_CNT_DELIV || a == RX_CNT_FAIL || a == RX_CNT_COMB ||
        a == RX_CNT_DUP || a == RX_CNT_DROP) fun t => t.dev.reg RX_CNT_FAIL = 0 ∧ t.dev.reg RX_CNT_DROP = 0 ∧
      (∀ p c, (t.dev.chan p c).det = 0 ∧ (t.dev.chan p c).ignored = 0 ∧ (t.dev.chan p c).powers = (s.dev.chan p c).powers) ∧
      t.dev.rx.ctx = s.dev.rx.ctx ∧ t.dev.rx.frames = s.dev.rx.frames)

/-- A context that finds its SFD, of the form with FEC or without, while no group is open takes the mode of that form, forms one of its own and
waits for its header; without an SFD its task ends and the channel counts false. A good PHR takes it to PAYLOAD, the last symbol to DECODE.
A context in DECODE outside a group that passes delivers its PSDU, cut to the PHR's length, as a frame and on the recent list; one that
fails counts in fcs_fail. A group whose one copy ended and passed resolves into a frame when its time is out. The oldest recent frame is
forgotten. So each of these completes under the conditions given, exec answering a next state: SFD_FOUND, NO_SFD, PHR_DONE, PAYLOAD_END,
DECODE_DONE, GROUP_TIMEOUT, RECENT_EXPIRY. The model's own choices it rests on: log entries 11, 14, 20, 46. (R164, R167, R170, R171, R172,
R173) -/
def Obligations.ReceiveContexts : Prop :=
  (∀ (i ts : Nat) (fec : Bool) (x : RxCtx) (s : State), s.dev.inReset = false → Tab.find s.dev.rx.ctx i = some x → x.st = .preamble → s.dev.rx.groups = [] →
    Completes (.sfdFound i ts fec) s [.rx] (fun _ => false) fun t =>
      Tab.find t.dev.rx.ctx i = some { x with st := .header, tS := ts, mode := sfdMode s.dev x.port x.mode fec, group := some s.dev.rx.nextGroup } ∧
      t.dev.rx.groups = [(s.dev.rx.nextGroup, ⟨freq2 s.dev x.port x.channel, sfdMode s.dev x.port x.mode fec, ts, [x.port], [i], [], []⟩)] ∧
      ∀ k, k ≠ i → Tab.find t.dev.rx.ctx k = Tab.find s.dev.rx.ctx k) ∧
  (∀ (i e : Nat) (x : RxCtx) (q : Task) (s : State), s.dev.inReset = false → Tab.find s.dev.rx.ctx i = some x → x.st = .preamble → x.group = none →
    s.dev.rx.late = [] → Alone s.dev i e q →
    Completes (.noSfd i) s ([.rx, .dsp] ++ noteParts) (fun a => a == DSP_STATUS || noteRegs a) fun t => Tab.find t.dev.rx.ctx i = none ∧
      t.dev.task i = none ∧ (t.dev.chan x.port x.channel).false_ = min ((s.dev.chan x.port x.channel).false_ + 1) 0xFFFF) ∧
  (∀ (i len : Nat) (f4 fec : Bool) (x : RxCtx) (s : State), s.dev.inReset = false → Tab.find s.dev.rx.ctx i = some x → x.st = .header →
    (if f4 then 5 else 3) ≤ len → len ≤ ((phyFind s.dev.phy x.mode).map (phyMaxPsdu s.dev.phy)).getD 0 →
    bandOk s.dev x = true →
    Completes (.phrDone i true len f4 fec) s [.rx] (fun _ => false) fun t =>
      Tab.find t.dev.rx.ctx i = some { x with st := .payload, phrLen := len, fcs4 := f4, fec := fec, gains := [gainTerm s.dev x.port], ofs := toSigned 16 (s.dev.fld (RX_RSSI_OFSn_ofs x.port)) } ∧
      ∀ k, k ≠ i → Tab.find t.dev.rx.ctx k = Tab.find s.dev.rx.ctx k) ∧
  (∀ (i : Nat) (x : RxCtx) (s : State), s.dev.inReset = false → Tab.find s.dev.rx.ctx i = some x → x.st = .payload →
    Completes (.payloadEnd i) s [.rx] (fun _ => false) fun t => Tab.find t.dev.rx.ctx i = some { x with st := .decode, lastAt := s.dev.ns } ∧
      ∀ k, k ≠ i → Tab.find t.dev.rx.ctx k = Tab.find s.dev.rx.ctx k) ∧
  (∀ (i e err sig mcs : Nat) (cfo : Int) (segs : List (Nat × Nat)) (bs soft : List Byte) (x : RxCtx) (q : Task) (s : State), s.dev.inReset = false →
    Tab.find s.dev.rx.ctx i = some x → x.st = .decode → x.group = none → s.dev.rx.late = [] → s.dev.rx.recent = [] → Alone s.dev i e q →
    Completes (.decodeDone i true bs soft segs err sig cfo mcs) s ([.rx, .dsp] ++ noteParts) (fun a => a == DSP_STATUS || noteRegs a) fun t =>
      Tab.find t.dev.rx.ctx i = none ∧ t.dev.task i = none ∧
      t.dev.rx.frames.map (fun f => (f.best.psdu, f.best.port, f.mode)) =
        s.dev.rx.frames.map (fun f => (f.best.psdu, f.best.port, f.mode)) ++ [(fit x.phrLen bs, x.port, x.mode)] ∧
      t.dev.rx.recent.map (fun r => r.psdu) = [fit x.phrLen bs]) ∧
  (∀ (i e err sig mcs : Nat) (cfo : Int) (segs : List (Nat × Nat)) (bs soft : List Byte) (x : RxCtx) (q : Task) (s : State), s.dev.inReset = false →
    Tab.find s.dev.rx.ctx i = some x → x.st = .decode → x.group = none → s.dev.rx.late = [] → Alone s.dev i e q →
    Completes (.decodeDone i false bs soft segs err sig cfo mcs) s ([.rx, .dsp] ++ noteParts) (fun a => a == DSP_STATUS || a == RX_CNT_FAIL || noteRegs a) fun t =>
      Tab.find t.dev.rx.ctx i = none ∧ t.dev.rx.frames = s.dev.rx.frames ∧
      t.dev.fld RX_CNT_FAIL_fcs_fail = min (s.dev.fld RX_CNT_FAIL_fcs_fail + 1) RX_CNT_FAIL_fcs_fail.max) ∧
  (∀ (g : Nat) (x : RxGroup) (c : Copy) (s : State), s.dev.inReset = false → Tab.find s.dev.rx.groups g = some x → x.ended = [c] →
    c.passed = true → s.dev.rx.recent = [] →
    Completes (.groupTimeout g) s [.rx] (fun _ => false) fun t => Tab.find t.dev.rx.groups g = none ∧
      t.dev.rx.frames = s.dev.rx.frames ++ [⟨x.freq2, x.mode, c, [c], false⟩]) ∧
  (∀ s : State, s.dev.inReset = false →
    Completes .recentExpiry s [.rx] (fun _ => false) fun t => t.dev.rx = { s.dev.rx with recent := s.dev.rx.recent.dropLast })

/-- With an identifier and buffer room the oldest delivered frame leaves the list, its PSDU and a record naming it stand in two new Packet
Buffer handles, a frame task (kind 2) carries the record's handle, and RX_CNT_DELIV counts it. After 1 ms without room it is dropped and
counted in rec_drop. So each of these completes under the conditions given, exec answering a next state: RECORD_POST, RECORD_HOLD_TIMEOUT.
The model's own choices it rests on: log entries 10, 20, 101. (R178, R179, R180) -/
def Obligations.FrameRecords : Prop :=
  (∀ (changed : Nat) (f : RxFrame) (fs : List RxFrame) (i : Nat) (s : State), s.dev.inReset = false → s.dev.rx.frames = f :: fs →
    pbmUsed s.dev + f.best.psdu.length + 64 ≤ pbmCap → freeTask s.dev 0 0x4000 = some i → f.copies.length ≤ 4 →
    ∃ t, exec (.recordPost changed) s = .next t ∧ t.fuses = s.fuses ∧ t.pending = s.pending ∧ t.dev.rx.frames = fs ∧
      bufGet t.dev s.dev.pbm.next = f.best.psdu ∧ (bufGet t.dev (s.dev.pbm.next + 1)).length = 64 ∧
      field (bufGet t.dev (s.dev.pbm.next + 1)) 36 4 = s.dev.pbm.next % 2 ^ 32 ∧
      (t.dev.task i).map (fun x => (x.d.kind, x.d.arg0)) = some (2, s.dev.pbm.next + 1) ∧
      t.dev.reg RX_CNT_DELIV = s.dev.reg RX_CNT_DELIV + 1) ∧
  (∀ (f : RxFrame) (fs : List RxFrame) (s : State), s.dev.inReset = false → s.dev.rx.frames = f :: fs →
    Completes .recordHoldTimeout s [.rx] (fun a => a == RX_CNT_DROP) fun t => t.dev.rx.frames = fs ∧
      t.dev.fld RX_CNT_DROP_rec_drop = min (s.dev.fld RX_CNT_DROP_rec_drop + 1) RX_CNT_DROP_rec_drop.max)

/-- A transmit context in service whose request is not refused and finds a free lane gets its burst; one not in service by its deadline, with no
lower cause, ends LATE, counted. A burst that its scaling does not refuse, after the last on-air interval of its head, goes on air with that
scaling and begins one. At its end, not cut short, it is counted in TX_CNT_SENT, with the peaks that crest-factor reduction cancelled and
the samples it clipped, and leaves its lane, and its task, standing alone, ends. TX cnt_clear clears the four counters. So each of these
completes under the conditions given, exec answering a next state: TX_REQUEST, TX_LATE, BURST_START, BURST_END, TX_CNT_CLEAR. The model's
own choices it rests on: log entries 10, 20, 37, 129. (R182, R184, R185, R187, R190, R194, R200) -/
def Obligations.Bursts : Prop :=
  (∀ (i e : Nat) (q : Task) (s : State), s.dev.inReset = false → s.dev.task i = some q → q.phase = .service e → q.d.kind = 1 →
    taskBursts s.dev i = [] → attemptOf s.dev i = none → (reqOfTask s.dev q).kind ≠ 3 →
    refusal s.dev (burstOf s.dev i (reqOfTask s.dev q) (reqOfTask s.dev q).t0) = 0 →
    headBursts s.dev (reqOfTask s.dev q).port = [] →
    Completes (.txRequest i) s [.tx, .hc] (fun _ => false) fun t =>
      Tab.find t.dev.tx.bursts i = some (burstOf s.dev i (reqOfTask s.dev q) (reqOfTask s.dev q).t0) ∧
      (∀ k, k ≠ i → Tab.find t.dev.tx.bursts k = Tab.find s.dev.tx.bursts k) ∧ t.dev.hc.heads = s.dev.hc.heads) ∧
  (∀ (i : Nat) (q : Task) (s : State), s.dev.inReset = false → s.dev.task i = some q → q.d.id = i → q.phase = .waiting → q.d.kind = 1 →
    q.ticket = none → q.d.succ0 = noTask → q.d.succ1 = noTask → q.d.notify = false → attemptOf s.dev i = none →
    (reqOfTask s.dev q).kind ≠ 3 → lowest (csLATE :: txCauses s.dev (reqOfTask s.dev q) ++
      if overDuty s.dev (burstOf s.dev i (reqOfTask s.dev q) (reqOfTask s.dev q).t0) then [csDUTY] else []) = csLATE →
    ∃ t, exec (.txLate i) s = .next t ∧ t.fuses = s.fuses ∧ t.pending = s.pending ∧ t.dev.task i = none ∧
      t.dev.tx.bursts = Tab.del s.dev.tx.bursts i ∧
      t.dev.fld TX_CNT_SKIP_late = min (s.dev.fld TX_CNT_SKIP_late + 1) TX_CNT_SKIP_late.max) ∧
  (∀ (i : Nat) (x : Int) (b : Burst) (s : State), s.dev.inReset = false → Tab.find s.dev.tx.bursts i = some b → b.onAir = false →
    scaleOf s.dev b = (x, false, false, false) →
    startingBurst s.dev i = some (i, b) → (s.dev.head b.req.port).onTo < b.t0 →
    Completes (.burstStart i) s [.tx, .hc] (fun _ => false) fun t => Tab.find t.dev.tx.bursts i = some { b with onAir := true, scale := x } ∧
      t.dev.head b.req.port = { s.dev.head b.req.port with onFrom := b.t0, onTo := b.t1 } ∧
      ∀ k, k ≠ i → Tab.find t.dev.tx.bursts k = Tab.find s.dev.tx.bursts k) ∧
  (∀ (i e : Nat) (wave : List (Int × Int × Nat)) (b : Burst) (q : Task) (s : State), s.dev.inReset = false → endingBurst s.dev i = some (i, b) → b.task = i → b.onAir = true → b.cut = 0 → i < 65536 →
    b.req.kind ≠ 3 → attemptOf s.dev i = none → Alone s.dev i e q →
    ∃ t, exec (.burstEnd i wave) s = .next t ∧ t.fuses = s.fuses ∧ t.pending = s.pending ∧ t.dev.tx.bursts = Tab.del s.dev.tx.bursts i ∧
      t.dev.task i = none ∧ (∀ k, k ≠ i → t.dev.task k = s.dev.task k) ∧ t.dev.reg TX_CNT_SENT = s.dev.reg TX_CNT_SENT + 1 ∧
      t.dev.fld TX_CNT_CFR_cancelled = min (s.dev.fld TX_CNT_CFR_cancelled +
        (reduceCrest (pulseOf s.dev b.req.port) (wave.map fun x => ⟨(x.1, x.2.1), x.2.2⟩)).cancelled) TX_CNT_CFR_cancelled.max ∧
      t.dev.fld TX_CNT_CFR_clipped = min (s.dev.fld TX_CNT_CFR_clipped +
        (reduceCrest (pulseOf s.dev b.req.port) (wave.map fun x => ⟨(x.1, x.2.1), x.2.2⟩)).clipped) TX_CNT_CFR_clipped.max) ∧
  (∀ s : State, s.dev.inReset = false →
    Completes .txCntClear s [] (fun a => a == TX_CNT_SENT || a == TX_CNT_SKIP || a == TX_CNT_CFR || a == TX_CNT_WHISTLE) fun t =>
      t.dev.reg TX_CNT_SENT = 0 ∧ t.dev.reg TX_CNT_SKIP = 0 ∧ t.dev.reg TX_CNT_CFR = 0 ∧ t.dev.reg TX_CNT_WHISTLE = 0)

/-- A slot of a PAN that does not run only clears its running bit. A PAN that runs with no cell and nothing queued gets its running bit set and
nothing else, the count of expectations placed in slots that are over apart. With one due cell, shared or for peers unknown (target 0xFFFFF,
no beacon), nothing queued and no campaign, the cell's class 1 expectations are placed on every head of the PAN. TS cnt_clear clears every
TS_CNT_ and TS_SKIP_CNT register. So each of these completes under the conditions given, exec answering a next state: TS_CNT_CLEAR,
SLOT_EVALUATION. The model's own choices it rests on: log entries 20, 42, 43. (R206, R213, R214, R215, R235) -/
def Obligations.SlotEvaluations : Prop :=
  (∀ (p a : Nat) (s : State), s.dev.inReset = false → p < 8 → nbit (s.dev.fld TS_CTRL_pan_run) p = false →
    Completes (.slotEvaluation p a) s [] (fun r => r == TS_STATUS) fun t => nbit (t.dev.fld TS_STATUS_running) p = false ∧
      ∀ q, q < 8 → q ≠ p → nbit (t.dev.fld TS_STATUS_running) q = nbit (s.dev.fld TS_STATUS_running) q) ∧
  (∀ (p a : Nat) (s : State), s.dev.inReset = false → p < 8 → nbit (s.dev.fld TS_CTRL_pan_run) p = true → s.dev.panUsed p = true → 2 ≤ s.dev.stage →
    s.dev.tbl.mem = [] → s.dev.fwd.entries = [] → s.dev.cmp.camps = [] → s.dev.ts.quiet = [] → s.dev.bld.pending = none →
    Completes (.slotEvaluation p a) s [.ts] (fun r => r == TS_STATUS) fun t => nbit (t.dev.fld TS_STATUS_running) p = true ∧
      t.dev.ts = { s.dev.ts with placed := t.dev.ts.placed } ∧
      ∀ q, q < 8 → q ≠ p → nbit (t.dev.fld TS_STATUS_running) q = nbit (s.dev.fld TS_STATUS_running) q) ∧
  (∀ (p a : Nat) (x : Due) (s : State), s.dev.inReset = false → p < 8 → nbit (s.dev.fld TS_CTRL_pan_run) p = true → s.dev.panUsed p = true →
    2 ≤ s.dev.stage → s.dev.fwd.entries = [] → s.dev.cmp.camps = [] → s.dev.ts.quiet = [] → s.dev.bld.pending = none →
    dueCells s.dev p a = [x] → clTarget x.w = 0xFFFFF → clAdv x.w = false →
    Completes (.slotEvaluation p a) s [.ts] (fun r => r == TS_STATUS || r == TS_CNT_EXP) fun t => t.dev.ts = (placeAll (openSlot s.dev p a) p a x).ts ∧
      nbit (t.dev.fld TS_STATUS_running) p = true) ∧
  (∀ s : State, s.dev.inReset = false →
    Completes .tsCntClear s [] (fun r => [TS_CNT_EB, TS_CNT_ACK, TS_CNT_ACK_ERR, TS_CNT_FC, TS_CNT_FC_ERR, TS_CNT_RETRY, TS_CNT_EXP, TS_CNT_ORPHAN].contains r ||
        ((List.range 32).map TS_SKIP_CNTm).contains r) fun t => t.dev.reg TS_CNT_ACK = 0 ∧ t.dev.reg TS_CNT_RETRY = 0 ∧
      t.dev.fld ⟨TS_SKIP_CNTm 31, 31, 0⟩ = 0)

/-- A master's write of a cell that passes the checks of R210 stores the word in the Cell Table entry, and no other byte of table memory
changes; an invalidate clears the valid bit alone; a read from Second Steep on gives the entry in TS_CELL_DATA. Allocation at Full Brew
takes the lowest short address neither used nor in quarantine; freeing puts it into quarantine; after 600 s it leaves it. So each of these
completes under the conditions given, exec answering a next state: CELL_WRITE, CELL_INVALIDATE, CELL_READ, ADDR_ALLOC, ADDR_FREE,
QUARANTINE_EXPIRY. The model's own choices it rests on: log entries 6, 20. (R207, R209, R210, R230) -/
def Obligations.CellsAndAddresses : Prop :=
  (∀ (m : Master) (idx w : Nat) (s : State), s.dev.inReset = false → w < 2 ^ 64 → cellCheck s.dev idx w = tsOK →
    Completes (.cellWrite (.master m) idx w) s [.tbl] (fun r => r == TS_CELL_STATUS) fun t => cellWord t.dev idx = w ∧
      t.dev.fld TS_CELL_STATUS_result = tsOK ∧
      ∀ a, a < entryAddr s.dev 4 idx ∨ entryAddr s.dev 4 idx + 8 ≤ a → Memory.read 0 t.dev.tbl.mem a = Memory.read 0 s.dev.tbl.mem a) ∧
  (∀ (m : Master) (idx : Nat) (s : State), s.dev.inReset = false → 2 ≤ s.dev.stage → idx < 1048576 →
    Completes (.cellInvalidate (.master m) idx) s [.tbl] (fun r => r == TS_CELL_STATUS) fun t => cellWord t.dev idx = cellWord s.dev idx % 2 ^ 63 ∧
      clValid (cellWord t.dev idx) = false ∧
      ∀ a, a < entryAddr s.dev 4 idx ∨ entryAddr s.dev 4 idx + 8 ≤ a → Memory.read 0 t.dev.tbl.mem a = Memory.read 0 s.dev.tbl.mem a) ∧
  (∀ (m : Master) (idx : Nat) (s : State), s.dev.inReset = false → 2 ≤ s.dev.stage → idx < 1048576 →
    Completes (.cellRead (.master m) idx) s [] (fun r => r == TS_CELL_STATUS || r == TS_CELL_DATA_LO || r == TS_CELL_DATA_HI) fun t =>
      t.dev.reg64 TS_CELL_DATA_LO = cellWord s.dev idx ∧ t.dev.fld TS_CELL_STATUS_result = tsOK) ∧
  (∀ (m : Master) (p x : Nat) (s : State), s.dev.inReset = false → p < 8 → 3 ≤ s.dev.stage → s.dev.panUsed p = true →
    (s.dev.alloc p).used.length < topMaxNodes s.dev.topo p → x < 0xFE00 → x ∉ (s.dev.alloc p).used → x ∉ (s.dev.alloc p).quarantine →
    (∀ y, y < x → y ∈ (s.dev.alloc p).used ∨ y ∈ (s.dev.alloc p).quarantine) →
    Completes (.addrAlloc (.master m) p) s [.ts] (fun r => r == TS_ALLOC_RESULT) fun t => t.dev.fld TS_ALLOC_RESULT_result = tsOK ∧
      t.dev.fld TS_ALLOC_RESULT_address = x ∧ t.dev.alloc p = ⟨x :: (s.dev.alloc p).used, (s.dev.alloc p).quarantine⟩ ∧
      ∀ q, q ≠ p → t.dev.alloc q = s.dev.alloc q) ∧
  (∀ (m : Master) (p x : Nat) (s : State), s.dev.inReset = false → p < 8 → 3 ≤ s.dev.stage → s.dev.panUsed p = true → x ∈ (s.dev.alloc p).used → x ≤ 0xFDFF →
    Completes (.addrFree (.master m) p x) s [.ts] (fun r => r == TS_ALLOC_RESULT) fun t => t.dev.fld TS_ALLOC_RESULT_result = tsOK ∧
      t.dev.alloc p = ⟨(s.dev.alloc p).used.erase x, (s.dev.alloc p).quarantine ++ [x]⟩ ∧ ∀ q, q ≠ p → t.dev.alloc q = s.dev.alloc q) ∧
  (∀ (p x : Nat) (s : State), s.dev.inReset = false →
    Completes (.quarantineExpiry p x) s [.ts] (fun _ => false) fun t =>
      t.dev.alloc p = ⟨(s.dev.alloc p).used, (s.dev.alloc p).quarantine.erase x⟩ ∧ ∀ q, q ≠ p → t.dev.alloc q = s.dev.alloc q)

/-- A frame whose ack window expires with retries left is queued again, its retry counted. A TRACKING peer whose expected beacon was not heard
takes one more miss; the third makes it LOST and holds its cells. When the hold of a LOST peer expires it is released. So each of these
completes under the conditions given, exec answering a next state: ACK_WINDOW_EXPIRY, PEER_MISS_CHECK, PEER_HOLD_EXPIRY. The model's own
choices it rests on: log entry 20. (R229, R232, R233) -/
def Obligations.AcksAndPeers : Prop :=
  (∀ (i : Nat) (e : QEntry) (s : State), s.dev.inReset = false → (attemptWaiting s.dev i).isSome = true → Tab.find s.dev.fwd.entries i = some e →
    e.retries < s.dev.fld TS_CFG_max_retries →
    Completes (.ackWindowExpiry i) s [.ts, .fwd] (fun r => r == TS_CNT_RETRY) fun t =>
      Tab.find t.dev.fwd.entries i = some { e with retries := e.retries + 1, out := false, cell := none } ∧
      t.dev.fld TS_CNT_RETRY_retries = min (s.dev.fld TS_CNT_RETRY_retries + 1) TS_CNT_RETRY_retries.max ∧ attemptWaiting t.dev i = none) ∧
  (∀ (k c a : Nat) (o : OpenBeacon) (s : State), s.dev.inReset = false → (s.dev.peer k).state = 1 →
    (s.dev.peer k).open_.find? (fun o => o.cell == c && o.asn == a) = some o → o.heard = false → (s.dev.peer k).misses < 2 →
    Completes (.peerMissCheck k c a) s [.ts] (fun _ => false) fun t => (t.dev.peer k).misses = (s.dev.peer k).misses + 1 ∧ (t.dev.peer k).state = 1 ∧
      (t.dev.peer k).open_ = (s.dev.peer k).open_.filter (fun o => !(o.cell == c && o.asn == a)) ∧ ∀ q, q ≠ k → t.dev.peer q = s.dev.peer q) ∧
  (∀ (k c a : Nat) (o : OpenBeacon) (s : State), s.dev.inReset = false → (s.dev.peer k).state = 1 →
    (s.dev.peer k).open_.find? (fun o => o.cell == c && o.asn == a) = some o → o.heard = false → (s.dev.peer k).misses = 2 →
    s.dev.fld TS_RECOV_active = 0 →
    Completes (.peerMissCheck k c a) s ([.ts] ++ noteParts) noteRegs fun t => (t.dev.peer k).misses = 3 ∧ (t.dev.peer k).state = 2 ∧ (t.dev.peer k).holding = true) ∧
  (∀ (k : Nat) (s : State), s.dev.inReset = false → (s.dev.peer k).state = 2 → (s.dev.peer k).holding = true → s.dev.tbl.mem = [] →
    Completes (.peerHoldExpiry k) s ([.ts] ++ noteParts) noteRegs fun t => (t.dev.peer k).released = true ∧ (t.dev.peer k).holding = false)

/-- While the tables accept requests, a request of a handler or firmware on an entry in range, with no poisoned entry among those it reads,
completes: READ answers its bytes (64 of a source block), WRITE of table 5 stores the bytes given, INSERT of a node into a free entry of a
PAN with room makes it valid with no address references, REMOVE of a Hearing entry clears it, LOOKUP counts itself and answers the entry
found, CAS, ADD and MAX of table 5 write the field. Bytes of Shared Table Memory outside the entry or field stay. A request that waits 5 µs
ends TIMEOUT, counted; cnt_clear clears the table counters. A merge into a Hearing entry sets its hit bit, clears its old bit and stores the
time, and no byte outside the entry changes. The sweep of an entry with the hit bit clears it; of a valid entry without hit or old sets old;
of an old one that nobody has just merged clears the entry and counts aged. Each visit moves on by one. So each of these completes under the
conditions given, exec answering a next state: TABLE_READ, TABLE_WRITE, TABLE_LOOKUP, TABLE_INSERT, TABLE_REMOVE, TABLE_CAS, TABLE_ADD,
TABLE_MAX, HEAR_MERGE, TABLE_REQUEST_TIMEOUT, SWEEP_VISIT, TBL_CNT_CLEAR. The model's own choices it rests on: log entries 6, 19, 20, 48.
(R242, R246, R247, R248, R252, R253, R255, R257, R260, R261) -/
def Obligations.TableRequests : Prop :=
  (∀ (m : Master) (tb i part : Nat) (s : State), s.dev.inReset = false → s.dev.fld TBL_STATUS_accepting = 1 → hasPort m = true → tb ≤ 9 →
    i < entriesOf s.dev tb → poisoned s.dev tb i = false →
    Completes (.tableRead m tb i part) s [.tbl] (fun _ => false) fun t => (t.dev.reqPort m).result = tbOK ∧ (t.dev.reqPort m).found = i ∧
      (t.dev.reqPort m).data = fit 64 (if tb = 7 then slice (tableBytes s.dev 7 i) (64 * (part % 16)) 64 else tableBytes s.dev tb i) ∧
      t.dev.tbl.mem = s.dev.tbl.mem) ∧
  (∀ (m : Master) (i : Nat) (bs : List Byte) (s : State), s.dev.inReset = false → s.dev.fld TBL_STATUS_accepting = 1 → hasPort m = true →
    i < s.dev.tableEntries 5 → poisoned s.dev 5 i = false →
    Completes (.tableWrite m 5 i bs) s [.tbl] (fun _ => false) fun t => (t.dev.reqPort m).result = tbOK ∧
      entryBytes t.dev 5 i = fit (tableEntrySize 5) bs ∧
      ∀ a, a < entryAddr s.dev 5 i ∨ entryAddr s.dev 5 i + tableEntrySize 5 ≤ a → Memory.read 0 t.dev.tbl.mem a = Memory.read 0 s.dev.tbl.mem a) ∧
  (∀ (c n sec : Nat) (k bs : List Byte) (s : State), s.dev.inReset = false → s.dev.fld TBL_STATUS_accepting = 1 → n < s.dev.tableEntries 0 →
    poisoned s.dev 0 n = false → nodeValid s.dev n = false → nbit (field bs 0 4) 31 = true → s.dev.panUsed (nbits (field bs 0 4) 30 28) = true →
    (panNodes s.dev (nbits (field bs 0 4) 30 28)).length < topMaxNodes s.dev.topo (nbits (field bs 0 4) 30 28) →
    Completes (.tableInsert (.cc c) 0 n sec k bs) s [.tbl] (fun _ => false) fun t => (t.dev.reqPort (.cc c)).result = tbOK ∧
      (t.dev.reqPort (.cc c)).found = n ∧ nodeValid t.dev n = true ∧ nodeRefs t.dev n = 0 ∧
      nodePan t.dev n = nbits (field bs 0 4) 30 28 ∧
      ∀ a, a < entryAddr s.dev 0 n ∨ entryAddr s.dev 0 n + tableEntrySize 0 ≤ a → Memory.read 0 t.dev.tbl.mem a = Memory.read 0 s.dev.tbl.mem a) ∧
  (∀ (c n sec e : Nat) (k : List Byte) (s : State), s.dev.inReset = false → s.dev.fld TBL_STATUS_accepting = 1 → sec < 16 →
    removePoison s.dev 2 n sec k = none → keyFind s.dev 2 (hearKey sec n) = some e →
    Completes (.tableRemove (.cc c) 2 n sec k) s [.tbl] (fun _ => false) fun t => (t.dev.reqPort (.cc c)).result = tbOK ∧
      entryBytes t.dev 2 e = zeros 16 ∧
      ∀ a, a < entryAddr s.dev 2 e ∨ entryAddr s.dev 2 e + 16 ≤ a → Memory.read 0 t.dev.tbl.mem a = Memory.read 0 s.dev.tbl.mem a) ∧
  (∀ (m : Master) (e ch : Nat) (k : List Byte) (s : State), s.dev.inReset = false → s.dev.fld TBL_STATUS_accepting = 1 → hasPort m = true →
    keyOk 2 k = true → keyFind s.dev 2 k = some e → poisonIn s.dev 2 (bucketsRead s.dev 2 k) = none →
    Completes (.tableLookup m 2 k ch) s [.tbl] (fun r => r == TBL_CNT_LOOKUP || r == TBL_CNT_RETRY) fun t => (t.dev.reqPort m).result = tbOK ∧
      (t.dev.reqPort m).data = fit 64 (entryBytes s.dev 2 e) ∧ (t.dev.reqPort m).found = entryField s.dev 2 e 0 4 % 2 ^ 20 ∧
      t.dev.reg TBL_CNT_LOOKUP = s.dev.reg TBL_CNT_LOOKUP + 1 ∧
      t.dev.fld TBL_CNT_RETRY_retries = min (s.dev.fld TBL_CNT_RETRY_retries + min ch 4) TBL_CNT_RETRY_retries.max) ∧
  (∀ (m : Master) (i off x y : Nat) (wide : Bool) (s : State), s.dev.inReset = false → fieldCheck s.dev m 5 i off wide = tbOK →
    entryField s.dev 5 i off (if wide then 8 else 4) = x → y < (if wide then 2 ^ 64 else 2 ^ 32) →
    Completes (.tableCas m 5 i off wide x y) s [.tbl] (fun _ => false) fun t => (t.dev.reqPort m).result = tbOK ∧
      entryField t.dev 5 i off (if wide then 8 else 4) = y ∧
      ∀ a, a < entryAddr s.dev 5 i + off ∨ entryAddr s.dev 5 i + off + (if wide then 8 else 4) ≤ a →
        Memory.read 0 t.dev.tbl.mem a = Memory.read 0 s.dev.tbl.mem a) ∧
  (∀ (m : Master) (i off y : Nat) (wide : Bool) (s : State), s.dev.inReset = false → fieldCheck s.dev m 5 i off wide = tbOK →
    y < (if wide then 2 ^ 64 else 2 ^ 32) →
    Completes (.tableAdd m 5 i off wide y) s [.tbl] (fun _ => false) fun t => (t.dev.reqPort m).result = tbOK ∧
      entryField t.dev 5 i off (if wide then 8 else 4) = min (entryField s.dev 5 i off (if wide then 8 else 4) + y) (if wide then 2 ^ 64 - 1 else 2 ^ 32 - 1)) ∧
  (∀ (m : Master) (i off y : Nat) (wide : Bool) (s : State), s.dev.inReset = false → fieldCheck s.dev m 5 i off wide = tbOK →
    y < (if wide then 2 ^ 64 else 2 ^ 32) →
    Completes (.tableMax m 5 i off wide y) s [.tbl] (fun _ => false) fun t => (t.dev.reqPort m).result = tbOK ∧
      entryField t.dev 5 i off (if wide then 8 else 4) = max (entryField s.dev 5 i off (if wide then 8 else 4)) y) ∧
  (∀ (m : Master) (s : State), s.dev.inReset = false → hasPort m = true →
    Completes (.tableRequestTimeout m) s [.tbl] (fun r => r == TBL_CNT_ERR) fun t => (t.dev.reqPort m).result = tbTIMEOUT ∧
      t.dev.fld TBL_CNT_ERR_timeout = min (s.dev.fld TBL_CNT_ERR_timeout + 1) TBL_CNT_ERR_timeout.max ∧ t.dev.tbl.mem = s.dev.tbl.mem) ∧
  (∀ s : State, s.dev.inReset = false →
    Completes .tblCntClear s [] (fun r => [TBL_CNT_LOOKUP, TBL_CNT_RETRY, TBL_CNT_INSERT, TBL_CNT_AGE, TBL_CNT_LEARN, TBL_CNT_ERR].contains r) fun t =>
      t.dev.reg TBL_CNT_LOOKUP = 0 ∧ t.dev.reg TBL_CNT_AGE = 0 ∧ t.dev.reg TBL_CNT_ERR = 0) ∧
  (∀ (m : Master) (sec n lqi e : Nat) (ps rs : List Byte) (s : State), s.dev.inReset = false → s.dev.fld TBL_STATUS_accepting = 1 → hasPort m = true →
    sec < 16 → n < s.dev.tableEntries 0 → poisonIn s.dev 2 (bucketsRead s.dev 2 (hearKey sec n)) = none → keyFind s.dev 2 (hearKey sec n) = some e →
    Completes (.hearMerge m sec n ps rs lqi) s [.tbl] (fun _ => false) fun t => (t.dev.reqPort m).result = tbOK ∧
      nbit (entryField t.dev 2 e 0 4) 30 = true ∧ nbit (entryField t.dev 2 e 0 4) 29 = false ∧ entryField t.dev 2 e 4 4 = s.dev.ms % 2 ^ 32 ∧
      ∀ a, a < entryAddr s.dev 2 e ∨ entryAddr s.dev 2 e + 16 ≤ a → Memory.read 0 t.dev.tbl.mem a = Memory.read 0 s.dev.tbl.mem a) ∧
  (∀ (h : Bool) (s : State), s.dev.inReset = false → s.dev.fld TBL_CTRL_sweep_en = 1 → nbit (entryField s.dev 2 s.dev.tbl.sweep 0 4) 31 = true →
    nbit (entryField s.dev 2 s.dev.tbl.sweep 0 4) 30 = true →
    Completes (.sweepVisit h) s [.tbl] (fun _ => false) fun t => t.dev.tbl.sweep = (s.dev.tbl.sweep + 1) % s.dev.tableEntries 2 ∧
      nbit (entryField t.dev 2 s.dev.tbl.sweep 0 4) 31 = true ∧ nbit (entryField t.dev 2 s.dev.tbl.sweep 0 4) 30 = false) ∧
  (∀ (h : Bool) (s : State), s.dev.inReset = false → s.dev.fld TBL_CTRL_sweep_en = 1 → nbit (entryField s.dev 2 s.dev.tbl.sweep 0 4) 31 = true →
    nbit (entryField s.dev 2 s.dev.tbl.sweep 0 4) 30 = false → nbit (entryField s.dev 2 s.dev.tbl.sweep 0 4) 29 = false →
    Completes (.sweepVisit h) s [.tbl] (fun _ => false) fun t => t.dev.tbl.sweep = (s.dev.tbl.sweep + 1) % s.dev.tableEntries 2 ∧
      nbit (entryField t.dev 2 s.dev.tbl.sweep 0 4) 31 = true ∧ nbit (entryField t.dev 2 s.dev.tbl.sweep 0 4) 29 = true) ∧
  (∀ s : State, s.dev.inReset = false → s.dev.fld TBL_CTRL_sweep_en = 1 → nbit (entryField s.dev 2 s.dev.tbl.sweep 0 4) 31 = true →
    nbit (entryField s.dev 2 s.dev.tbl.sweep 0 4) 30 = false → nbit (entryField s.dev 2 s.dev.tbl.sweep 0 4) 29 = true →
    Completes (.sweepVisit false) s [.tbl] (fun r => r == TBL_CNT_AGE) fun t => entryBytes t.dev 2 s.dev.tbl.sweep = zeros 16 ∧
      t.dev.fld TBL_CNT_AGE_aged = min (s.dev.fld TBL_CNT_AGE_aged + 1) TBL_CNT_AGE_aged.max)

/-- Whatever a cell or table command is given, the Shared Table Memory it leaves lists its bytes by strictly rising address, none of them zero
(what an unlisted byte reads as), if it was so before; the memory after reset is so. The model's own choices it rests on: log entries 4, 6,
10, 20. (R236, R238, R257) -/
def Obligations.TableMemoryCanonical : Prop :=
  Memory.wf 0 State.reset.dev.tbl.mem = true ∧
  (∀ (c : Instr) (s t : State), Memory.wf 0 s.dev.tbl.mem = true → exec c s = .next t →
    ((∃ w i v, c = .cellWrite w i v) ∨ (∃ w i, c = .cellInvalidate w i) ∨ (∃ m a b x, c = .tableRead m a b x) ∨ (∃ m a b x, c = .tableWrite m a b x) ∨
      (∃ m a b x, c = .tableLookup m a b x) ∨ (∃ m a b x y z, c = .tableInsert m a b x y z) ∨ (∃ m a b x y, c = .tableRemove m a b x y) ∨
      (∃ m a b x y z v, c = .tableCas m a b x y z v) ∨ (∃ m a b x y z, c = .tableAdd m a b x y z) ∨ (∃ m a b x y z, c = .tableMax m a b x y z) ∨
      (∃ m a b x y z, c = .hearMerge m a b x y z) ∨ (∃ h, c = .sweepVisit h) ∨ (∃ k, c = .peerHoldExpiry k)) →
    Memory.wf 0 t.dev.tbl.mem = true)

/-- An IPv6 frame for a PAN whose destination names a node, its class not policed, is put into a buffer and a packet task of the node's flow
carries it. An uplink queue that is the ring's turn, eligible and in credit, is served: its head packet leaves as the Ethernet frame of R267
on its PAN's port, counted, its entry is free, and the queue's deficit falls by its length, to 0 where the queue is empty then. A datagram
not whole in time is discarded and counted. A shaper's refill adds rate times interval up to the burst; a policer's refresh credits its
buckets and notes the time. So each of these completes under the conditions given, exec answering a next state: REASM_TIMEOUT,
ETH_FRAME_RECEIVED, UPLINK_SERVE, SHAPER_REFILL, POLICER_REFRESH. The model's own choices it rests on: log entries 6, 10, 14, 20, 50, 51,
52, 54, 57, 101. (R264, R267, R268, R269, R278, R279, R283) -/
def Obligations.UplinkAndIngress : Prop :=
  (∀ (port p n i : Nat) (f : List Byte) (changed : List Nat) (s : State), s.dev.inReset = false → port < 4 → ethOff s.dev port = false → ptpOffset f = none →
    (ethParse f).etype = 0x86DD → s.dev.fld HIF_MGMT_CFG_en = 0 → ethPan s.dev port (ethParse f).tags = some p →
    ((ethParse f).payload.take (40 + unbe (slice (ethParse f).payload 4 2))).length ≤ 1280 →
    pbmUsed s.dev + ((ethParse f).payload.take (40 + unbe (slice (ethParse f).payload 4 2))).length ≤ pbmCap →
    (ipDst ((ethParse f).payload.take (40 + unbe (slice (ethParse f).payload 4 2)))).take 8 = panPrefix s.dev p →
    (addrLookup s.dev (iidKeys p ((ipDst ((ethParse f).payload.take (40 + unbe (slice (ethParse f).payload 4 2)))).drop 8)) changed).1 = some n →
    s.dev.fld (FWD_PANp_POL_MODE_en p) = 0 → freeTask s.dev 0x4000 0x2000 = some i →
    ∃ t, exec (.ethFrameReceived port f changed) s = .next t ∧ t.fuses = s.fuses ∧ t.pending = s.pending ∧
      bufGet t.dev s.dev.pbm.next = (ethParse f).payload.take (40 + unbe (slice (ethParse f).payload 4 2)) ∧
      (t.dev.task i).map (fun x => (x.d.kind, x.d.flow, x.d.arg0)) = some (2, n, s.dev.pbm.next) ∧
      t.dev.reg TBL_CNT_LOOKUP = (addrLookup s.dev (iidKeys p ((ipDst ((ethParse f).payload.take (40 + unbe (slice (ethParse f).payload 4 2)))).drop 8)) changed).2.reg TBL_CNT_LOOKUP) ∧
  (∀ (q i x : Nat) (e : QEntry) (l : List Nat) (full : List Nat) (s : State), s.dev.inReset = false → s.dev.fwd.ptrUp < 128 →
    q = qNum (s.dev.fwd.ptrUp / 8) 0 (s.dev.fwd.ptrUp % 8) → qList s.dev q = i :: l → Tab.find s.dev.fwd.entries i = some e → e.queue = q → i ∉ l →
    upEligible s.dev full q = true → e.length ≤ qDeficit s.dev q → tunnelling s.dev = false → ethPort s.dev e.pan = some x →
    Completes (.uplinkServe full) s [.fwd, .pbm, .outs] (fun r => r == FWD_CNT_UP) fun t =>
      t.dev.outs = .ethernet x (ethFrame s.dev x e.pan e.cls e.yellow (bufGet s.dev e.buf)) :: s.dev.outs ∧
      t.dev.reg FWD_CNT_UP = s.dev.reg FWD_CNT_UP + 1 ∧ qList t.dev q = l ∧ Tab.find t.dev.fwd.entries i = none ∧
      qDeficit t.dev q = if l = [] then 0 else qDeficit s.dev q - e.length) ∧
  (∀ (nix tag : Nat) (r : Reasm) (s : State), s.dev.inReset = false → reasmOf s.dev nix tag = some r →
    pbmUsed s.dev + (r.frags.headD (0, [])).2.length ≤ pbmCap →
    ∃ t, exec (.reasmTimeout nix tag) s = .next t ∧ t.fuses = s.fuses ∧ t.pending = s.pending ∧ reasmOf t.dev nix tag = none ∧
      t.dev.fwd.reasm = s.dev.fwd.reasm.filter (fun y => !(y.nix == nix && y.tag == tag)) ∧
      t.dev.fld FWD_CNT_FRAG_reasm_fail = min (s.dev.fld FWD_CNT_FRAG_reasm_fail + 1) FWD_CNT_FRAG_reasm_fail.max) ∧
  (∀ (q rate burst refill : Nat) (s : State), s.dev.inReset = false → q < 256 → qShaperCfg s.dev q = (rate, burst, refill) → rate ≠ 0 →
    Completes (.shaperRefill q) s [.fwd] (fun _ => false) fun t => qShaper t.dev q =
        ⟨min ((8000 * burst : Nat) : Int) ((qShaper s.dev q).tokens + ((rate * refill : Nat) : Int)), rate, burst, refill⟩ ∧
      ∀ k, k ≠ q → qShaper t.dev k = qShaper s.dev k) ∧
  (∀ (n : Nat) (pr : Nat × Nat × Nat × Nat) (s : State), s.dev.inReset = false →
    (validNodes s.dev).filter (fun k => decide (entryField s.dev 5 k 12 2 < 0x100)) = [n] → entryField s.dev 5 n 12 2 < 0x100 →
    profileOf s.dev (entryField s.dev 5 n 12 2) = some pr →
    Completes .policerRefresh s [.tbl] (fun _ => false) fun t => entryField t.dev 5 n 8 4 = s.dev.us32 ∧
      entryField t.dev 5 n 12 2 = entryField s.dev 5 n 12 2 ∧
      ∀ a, a < entryAddr s.dev 5 n ∨ entryAddr s.dev 5 n + 12 ≤ a → Memory.read 0 t.dev.tbl.mem a = Memory.read 0 s.dev.tbl.mem a)

/-- A link change sets its port's bit of link_up and no other. BH_DOWN set in NORMAL takes the recovery state to WAITING. The loss lasting,
JOINING begins at the first candidate with a port, counted in entries. A join that times out marks the peer as tried; after the wait none is
tried. A port that stays up in RETURNING takes the state to NORMAL, ends recovery node mode and empties the recovery queue. cnt_clear clears
the forwarding counters and queue drops. So each of these completes under the conditions given, exec answering a next state:
ETH_LINK_CHANGE, BH_DOWN_WRITE, BACKHAUL_LOSS_EXPIRY, RECOVERY_JOIN_TIMEOUT, RECOVERY_RETRY_EXPIRY, RETURN_EXPIRY, FWD_CNT_CLEAR. The
model's own choices it rests on: log entries 20, 53. (R288, R289, R291, R292) -/
def Obligations.BackhaulRecovery : Prop :=
  (∀ (port : Nat) (up : Bool) (s : State), s.dev.inReset = false → port < 4 →
    Completes (.ethLinkChange port up) s ([.ts] ++ noteParts) (fun r => r == FWD_STATUS || r == TS_RECOV || noteRegs r) fun t =>
      nbit (t.dev.fld FWD_STATUS_link_up) port = up ∧
      ∀ k, k < 4 → k ≠ port → nbit (t.dev.fld FWD_STATUS_link_up) k = nbit (s.dev.fld FWD_STATUS_link_up) k) ∧
  (∀ s : State, s.dev.inReset = false → s.dev.fld FWD_STATUS_recov = rvNORMAL → s.dev.fld TS_RECOV_active = 0 →
    Completes (.bhDownWrite true) s noteParts (fun r => r == FWD_STATUS || r == FWD_CTRL || noteRegs r) fun t =>
      t.dev.fld FWD_CTRL_bh_down = 1 ∧ t.dev.fld FWD_STATUS_recov = rvWAITING ∧ t.dev.fld FWD_STATUS_link_up = s.dev.fld FWD_STATUS_link_up) ∧
  (∀ (k p : Nat) (s : State), s.dev.inReset = false → s.dev.fld FWD_STATUS_recov = rvWAITING → s.dev.fld TS_RECOV_active = 0 → backhaulLost s.dev = true →
    (candidatesOf s.dev).head? = some k → recovPort s.dev k = some p → k < 16 → p < 64 →
    Completes .backhaulLossExpiry s ([.fwd] ++ noteParts) (fun r => r == FWD_STATUS || r == FWD_RECOV_STATUS || noteRegs r) fun t =>
      t.dev.fld FWD_STATUS_recov = rvJOINING ∧ t.dev.fld FWD_RECOV_STATUS_peer = k ∧ t.dev.fld FWD_RECOV_STATUS_port = p ∧
      t.dev.fld FWD_RECOV_STATUS_entries = min (s.dev.fld FWD_RECOV_STATUS_entries + 1) FWD_RECOV_STATUS_entries.max ∧ t.dev.fwd.tried = []) ∧
  (∀ s : State, s.dev.inReset = false → s.dev.fld FWD_STATUS_recov = rvJOINING →
    Completes .recoveryJoinTimeout s ([.fwd] ++ noteParts) (fun r => r == FWD_RECOV_STATUS || noteRegs r) fun t =>
      t.dev.fwd.tried = s.dev.fwd.tried ++ [s.dev.fld FWD_RECOV_STATUS_peer] ∧ t.dev.fld FWD_STATUS_recov = rvJOINING) ∧
  (∀ s : State, s.dev.inReset = false → s.dev.fld FWD_STATUS_recov = rvJOINING →
    Completes .recoveryRetryExpiry s ([.fwd] ++ noteParts) (fun r => r == FWD_RECOV_STATUS || noteRegs r) fun t =>
      t.dev.fwd.tried = [] ∧ t.dev.fld FWD_STATUS_recov = rvJOINING) ∧
  (∀ s : State, s.dev.inReset = false → s.dev.fld FWD_STATUS_recov = rvRETURNING →
    Completes .returnExpiry s ([.fwd, .pbm, .ts] ++ noteParts) (fun r => r == FWD_STATUS || r == TS_RECOV || noteRegs r) fun t =>
      t.dev.fld FWD_STATUS_recov = rvNORMAL ∧ t.dev.fld TS_RECOV_active = 0 ∧ t.dev.fwd.recovQ = [] ∧
      ∀ i e, Tab.find s.dev.fwd.entries i = some e → (Tab.find t.dev.fwd.entries i).map (fun x => x.buf) = some e.buf) ∧
  (∀ s : State, s.dev.inReset = false →
    Completes .fwdCntClear s [.fwd] (fun r => [FWD_CNT_UP, FWD_CNT_DOWN, FWD_CNT_HAIRPIN, FWD_CNT_EXC, FWD_CNT_POL, FWD_CNT_DROP, FWD_CNT_FRAG].contains r) fun t =>
      t.dev.reg FWD_CNT_UP = 0 ∧ t.dev.reg FWD_CNT_EXC = 0 ∧ t.dev.reg FWD_CNT_DROP = 0 ∧ t.dev.fwd = { s.dev.fwd with drops := [] })

/-- An epoch opens on the selected base unless its role is monotonic or it is the mesh base with a PAN running: epochs counts and its step is
free again; a monotonic base refuses, counted. A step that is allowed adds its offset to the counter, modulo the counter's range, uses the
epoch's step up and opens the lock. A rate written to a base without servo is clamped to 200 ppm. A sample of a base whose servo runs,
firmware's in 1/256 ns or the site's of TB3 against TB0, is stored as its theta with its time. A base whose counter fails takes the counter
of the highest free base, which loses it. Other bases stay in each case. So each of these completes under the conditions given, exec
answering a next state: EPOCH_OPEN, TIME_STEP, RATE_WRITE, OFFSET_SAMPLE, SITE_SAMPLE, TB_CHECK_FAIL. The model's own choices it rests on:
log entries 20, 58, 59, 64. (R293, R295, R296, R297, R300, R301, R434) -/
def Obligations.TimeBases : Prop :=
  (∀ s : State, s.dev.inReset = false → s.dev.tim.bases.length = 8 → roleOf s.dev (s.dev.fld TIM_TB_SEL_tb) ≠ trMONOTONIC →
    (roleOf s.dev (s.dev.fld TIM_TB_SEL_tb) ≠ trMESH ∨ s.dev.fld TS_CTRL_pan_run = 0) →
    Completes .epochOpen s [.tim] (fun _ => false) fun t =>
      t.dev.tb (s.dev.fld TIM_TB_SEL_tb) = { s.dev.tb (s.dev.fld TIM_TB_SEL_tb) with
        epochs := min ((s.dev.tb (s.dev.fld TIM_TB_SEL_tb)).epochs + 1) 255, stepped := false } ∧
      ∀ k, k ≠ s.dev.fld TIM_TB_SEL_tb → t.dev.tb k = s.dev.tb k) ∧
  (∀ s : State, s.dev.inReset = false → s.dev.tim.bases.length = 8 → roleOf s.dev (s.dev.fld TIM_TB_SEL_tb) = trMONOTONIC →
    Completes .epochOpen s [.tim] (fun _ => false) fun t =>
      t.dev.tb (s.dev.fld TIM_TB_SEL_tb) = { s.dev.tb (s.dev.fld TIM_TB_SEL_tb) with refused := min ((s.dev.tb (s.dev.fld TIM_TB_SEL_tb)).refused + 1) 255 } ∧
      ∀ k, k ≠ s.dev.fld TIM_TB_SEL_tb → t.dev.tb k = s.dev.tb k) ∧
  (∀ (w : Word64) (s : State), s.dev.inReset = false → s.dev.tim.bases.length = 8 → stepAllowed s.dev (s.dev.fld TIM_TB_SEL_tb) = true →
    Completes (.timeStep w) s [.tim] (fun r => r == TIM_TB_STEP_LO || r == TIM_TB_STEP_HI) fun t =>
      (t.dev.tb (s.dev.fld TIM_TB_SEL_tb)).raw =
        ((((s.dev.tb (s.dev.fld TIM_TB_SEL_tb)).raw : Int) + w.toInt * 2 ^ 32) % ((2 ^ 48 * 1000000000 * 2 ^ 48 : Nat) : Int)).toNat ∧
      (t.dev.tb (s.dev.fld TIM_TB_SEL_tb)).stepped = true ∧ (t.dev.tb (s.dev.fld TIM_TB_SEL_tb)).stepEn = false ∧
      (t.dev.tb (s.dev.fld TIM_TB_SEL_tb)).locked = false ∧ ∀ k, k ≠ s.dev.fld TIM_TB_SEL_tb → t.dev.tb k = s.dev.tb k) ∧
  (∀ (w : Word) (s : State), s.dev.inReset = false → s.dev.tim.bases.length = 8 → (s.dev.tb (s.dev.fld TIM_TB_SEL_tb)).servoEn = false →
    s.dev.tim.converge = none →
    Completes (.rateWrite w) s [.tim] (fun _ => false) fun t =>
      (t.dev.tb (s.dev.fld TIM_TB_SEL_tb)).rate = clampInt w.toInt (-rateLimit) rateLimit ∧
      (t.dev.tb (s.dev.fld TIM_TB_SEL_tb)).raw = (s.dev.tb (s.dev.fld TIM_TB_SEL_tb)).raw ∧
      ∀ k, k ≠ s.dev.fld TIM_TB_SEL_tb → t.dev.tb k = s.dev.tb k) ∧
  (∀ (wide : Bool) (w : Word64) (l : Nat) (s : State), s.dev.inReset = false → s.dev.tim.bases.length = 8 →
    (s.dev.tb (s.dev.fld TIM_TB_SEL_tb)).servoEn = true → (s.dev.tb (s.dev.fld TIM_TB_SEL_tb)).lastSample = some l →
    Completes (.offsetSample wide w) s [.tim] (fun _ => false) fun t =>
      (t.dev.tb (s.dev.fld TIM_TB_SEL_tb)).theta = (if wide then w.toInt else (Word64.lo w).toInt) * 256 ∧
      (t.dev.tb (s.dev.fld TIM_TB_SEL_tb)).lastSample.isSome = true ∧ ∀ k, k ≠ s.dev.fld TIM_TB_SEL_tb → t.dev.tb k = s.dev.tb k) ∧
  (∀ (l : Nat) (s : State), s.dev.inReset = false → s.dev.tim.bases.length = 8 → topOwnIndex s.dev.topo = 0 →
    (s.dev.tb 3).servoEn = true → (s.dev.tb 3).lastSample = some l →
    Completes .siteSample s [.tim] (fun _ => false) fun t => (t.dev.tb 3).theta = tbDiff (s.dev.tb 0) (s.dev.tb 3) ∧
      ∀ k, k ≠ 3 → t.dev.tb k = s.dev.tb k) ∧
  (∀ (n k main check : Nat) (s : State), s.dev.inReset = false → s.dev.tim.bases.length = 8 → n < 8 →
    (List.range 8).reverse.find? (fun j => j != n && roleOf s.dev j == trFREE && (s.dev.tb j).counter.isSome) = some k →
    Completes (.tbCheckFail n main check) s ([.tim, .res] ++ noteParts) noteRegs fun t => (t.dev.tb n).counter = (s.dev.tb k).counter ∧
      (t.dev.tb k).counter = none ∧ (t.dev.tb k).nanos = 0 ∧ (∀ j, j ≠ n → j ≠ k → t.dev.tb j = s.dev.tb j))

/-- With no source valid the mesh sample leaves TB0 in holdover, its rate at its integral. An earlier source valid for revert_s is switched to,
counted. A domain without samples is no longer ok, counted. TIM_MESH_HOLD takes what is written; a PAN's epoch takes what is written while
the PAN does not run, and is refused while it runs. So each of these completes under the conditions given, exec answering a next state:
MESH_SAMPLE, REVERT_EXPIRY, HOLD_WRITE, DOMAIN_SAMPLE_TIMEOUT, PAN_EPOCH_WRITE. The model's own choices it rests on: log entries 20, 61.
(R303, R304, R306, R307, R308, R310) -/
def Obligations.MeshTime : Prop :=
  (∀ s : State, s.dev.inReset = false → s.dev.tim.bases.length = 8 → (∀ k, k < 5 → sourceValid s.dev k = false) → s.dev.fld TS_RECOV_active = 0 →
    s.dev.tim.neighbour = none → meshSel s.dev = 7 → (s.dev.tb 0).servoEn = true → s.dev.tim.converge = none →
    Completes .meshSample s [.tim] (fun r => r == TIM_STATUS) fun t => (t.dev.tb 0).rate = clampInt (s.dev.tb 0).integral (-rateLimit) rateLimit ∧
      t.dev.fld TIM_STATUS_mesh_src = 7 ∧ (∀ k, k ≠ 0 → t.dev.tb k = s.dev.tb k) ∧ ∀ k, (t.dev.source k).valid = true → 5 ≤ k) ∧
  (∀ (k : Nat) (s : State), s.dev.inReset = false → s.dev.fld TIM_CTRL_revert_en = 1 → k < meshSel (updateSources s.dev) → meshSel (updateSources s.dev) ≤ 4 →
    sourceOk (updateSources s.dev) k = true → ((updateSources s.dev).source k).since + s.dev.fld TIM_MESH_CFG_revert_s * 1000000000 ≤ s.dev.ns →
    Completes (.revertExpiry k) s ([.tim] ++ noteParts) (fun r => r == TIM_STATUS || r == TIM_CNT_SWITCH || r == TIM_MESH_HOLD_LO || r == TIM_MESH_HOLD_HI || noteRegs r) fun t =>
      t.dev.fld TIM_STATUS_mesh_src = k ∧
      t.dev.fld TIM_CNT_SWITCH_switches = min (s.dev.fld TIM_CNT_SWITCH_switches + 1) TIM_CNT_SWITCH_switches.max) ∧
  (∀ s : State, s.dev.inReset = false → s.dev.fld TIM_DOMAIN_VALID_a_ok = 1 →
    Completes (.domainSampleTimeout false) s [.tim] (fun r => r == TIM_DOMAIN_VALID || r == TIM_CNT_SWITCH || r == TIM_STATUS) fun t =>
      t.dev.fld TIM_DOMAIN_VALID_a_ok = 0 ∧ t.dev.fld TIM_DOMAIN_VALID_b_ok = s.dev.fld TIM_DOMAIN_VALID_b_ok ∧
      t.dev.fld TIM_CNT_SWITCH_timeouts = min (s.dev.fld TIM_CNT_SWITCH_timeouts + 1) TIM_CNT_SWITCH_timeouts.max ∧ t.dev.tim.bases = s.dev.tim.bases) ∧
  (∀ (h : Word64) (s : State), s.dev.inReset = false →
    Completes (.holdWrite h) s [] (fun r => r == TIM_MESH_HOLD_LO || r == TIM_MESH_HOLD_HI) fun t => t.dev.reg64 TIM_MESH_HOLD_LO = h.toNat) ∧
  (∀ (p : Nat) (e : Word64) (s : State), s.dev.inReset = false → p < 8 → nbit (s.dev.fld TS_CTRL_pan_run) p = false →
    Completes (.panEpochWrite p e) s [] (fun r => r == TIM_PANp_EPOCH_LO p || r == TIM_PANp_EPOCH_LO p + 4) fun t =>
      panEpoch t.dev p = e.toNat ∧ ∀ q, q < 8 → q ≠ p → panEpoch t.dev q = panEpoch s.dev q) ∧
  (∀ (p : Nat) (e : Word64) (s : State), s.dev.inReset = false → p < 8 → nbit (s.dev.fld TS_CTRL_pan_run) p = true → s.dev.tim.bases.length = 8 →
    Completes (.panEpochWrite p e) s [.tim] (fun _ => false) fun t => (t.dev.tb 0).refused = min ((s.dev.tb 0).refused + 1) 255)

/-- A PPS edge one second after the last within tolerance counts as good and from the fourth on makes the input valid (time of day not yet
valid); any other edge counts pps_bad and makes it invalid, and so does a missing one, counted in pps_missing. A good timely sentence one
second after the last is accepted, the second makes time of day valid; a bad one counts tod_bad; 3 s without one make it invalid. PPS_OUT
follows its edges while enabled. A second of the clock counts whatever POR_N is; the trim moves by a sixteenth of the difference; the alarm
fires once, asks for power and clears. cnt_clear clears the time counters. So each of these completes under the conditions given, exec
answering a next state: PPS_EDGE, PPS_TIMEOUT, TOD_SENTENCE, TOD_TIMEOUT, PPS_OUT_EDGE, RTC_SECOND, RTC_TRIM, RTC_ALARM, TIM_CNT_CLEAR. The
model's own choices it rests on: log entries 20, 58, 60, 62, 63. (R317, R318, R320, R322, R324, R325) -/
def Obligations.PpsAndClock : Prop :=
  (∀ (l : Nat) (s : State), s.dev.inReset = false → s.dev.tim.pps.lastEdge = some l → l + 1000000000 = s.dev.ns → s.dev.fld TIM_STATUS_tod_valid = 0 →
    Completes .ppsEdge s [.tim] (fun r => r == TIM_STATUS || r == TIM_PPS_STATUS) fun t => t.dev.tim.pps.good = s.dev.tim.pps.good + 1 ∧
      t.dev.tim.pps.lastEdge = some s.dev.ns ∧ (3 ≤ s.dev.tim.pps.good → t.dev.fld TIM_STATUS_pps_valid = 1 ∧ t.dev.fld TIM_PPS_STATUS_pps_valid = 1)) ∧
  (∀ s : State, s.dev.inReset = false → s.dev.tim.pps.lastEdge = none →
    Completes .ppsEdge s [.tim] (fun r => r == TIM_STATUS || r == TIM_PPS_STATUS) fun t => t.dev.tim.pps.good = 0 ∧
      t.dev.tim.pps.lastEdge = some s.dev.ns ∧ t.dev.fld TIM_STATUS_pps_valid = 0 ∧
      t.dev.fld TIM_PPS_STATUS_pps_bad = min (s.dev.fld TIM_PPS_STATUS_pps_bad + 1) TIM_PPS_STATUS_pps_bad.max) ∧
  (∀ s : State, s.dev.inReset = false →
    Completes .ppsTimeout s [.tim] (fun r => r == TIM_STATUS || r == TIM_PPS_STATUS) fun t => t.dev.tim.pps.good = 0 ∧
      t.dev.fld TIM_STATUS_pps_valid = 0 ∧ t.dev.fld TIM_PPS_STATUS_pps_valid = 0 ∧
      t.dev.fld TIM_PPS_STATUS_pps_missing = min (s.dev.fld TIM_PPS_STATUS_pps_missing + 1) TIM_PPS_STATUS_pps_missing.max) ∧
  (∀ (l u : Nat) (b : List Byte) (s : State), s.dev.inReset = false → isZda b = true → zdaUtc b = some u → s.dev.tim.pps.lastEdge = some l → l + 100000000 ≤ s.dev.ns → s.dev.ns ≤ l + 900000000 →
    s.dev.tim.pps.todSec = none →
    Completes (.todSentence b) s [.tim] (fun r => r == TIM_STATUS || r == TIM_PPS_STATUS) fun t =>
      t.dev.tim.pps.todSec = some (u + s.dev.fld TIM_TOD_CFG_utc_ofs) ∧ t.dev.tim.pps.todCount = s.dev.tim.pps.todCount + 1 ∧
      (1 ≤ s.dev.tim.pps.todCount → t.dev.fld TIM_STATUS_tod_valid = 1)) ∧
  (∀ (b : List Byte) (s : State), s.dev.inReset = false → isZda b = true → zdaUtc b = none →
    Completes (.todSentence b) s [.tim] (fun r => r == TIM_PPS_STATUS) fun t => t.dev.tim.pps.todCount = 0 ∧
      t.dev.fld TIM_PPS_STATUS_tod_bad = min (s.dev.fld TIM_PPS_STATUS_tod_bad + 1) TIM_PPS_STATUS_tod_bad.max) ∧
  (∀ s : State, s.dev.inReset = false →
    Completes .todTimeout s [.tim] (fun r => r == TIM_STATUS || r == TIM_PPS_STATUS) fun t => t.dev.tim.pps.todSec = none ∧
      t.dev.fld TIM_STATUS_tod_valid = 0 ∧ t.dev.fld TIM_PPS_STATUS_tod_valid = 0) ∧
  (∀ (r : Bool) (s : State), s.dev.inReset = false → s.dev.fld TIM_PPS_CFG_out_en = 1 →
    Completes (.ppsOutEdge r) s [.tim] (fun _ => false) fun t => t.dev.tim.pps = { s.dev.tim.pps with out := r }) ∧
  (∀ s : State,
    Completes .rtcSecond s [.ktl] (fun r => r == KTL_RTC_OFS_LO || r == KTL_RTC_OFS_HI || r == KTL_RTC_STATUS) fun t =>
      t.dev.ktl.sec = (s.dev.ktl.sec + 1) % 2 ^ 48 ∧ t.dev.ktl.tick = 0 ∧ t.dev.ktl.duty = s.dev.ktl.duty ∧
      (s.dev.inReset = false → t.dev.ktl.tb4 = s.dev.ns)) ∧
  (∀ (ppb : Int) (s : State), s.dev.inReset = false → meshValid s.dev = true →
    Completes (.rtcTrim ppb) s [.ktl] (fun r => r == KTL_RTC_TRIM || r == KTL_RTC_STATUS) fun t =>
      t.dev.reg KTL_RTC_TRIM = BitVec.ofInt 32 ((s.dev.reg KTL_RTC_TRIM).toInt + (ppb - (s.dev.reg KTL_RTC_TRIM).toInt) / 16) ∧
      t.dev.ktl.trimmed = true) ∧
  (∀ s : State, s.dev.fld KTL_RTC_ALARM_sec ≠ 0 → s.dev.ktl.sec % 2 ^ 32 = s.dev.fld KTL_RTC_ALARM_sec →
    Completes .rtcAlarm s noteParts (fun r => r == KTL_RTC_ALARM || r == KTL_RTC_STATUS || r == KTL_WAKE_CTRL || noteRegs r) fun t =>
      t.dev.reg KTL_RTC_ALARM = 0 ∧ t.dev.fld KTL_RTC_STATUS_alarm = 1 ∧ t.dev.fld KTL_WAKE_CTRL_pwr_req = 1) ∧
  (∀ s : State, s.dev.inReset = false →
    Completes .timCntClear s [.tim] (fun r => r == TIM_CNT_PTP || r == TIM_CNT_SWITCH || r == TIM_PPS_STATUS) fun t =>
      t.dev.reg TIM_CNT_PTP = 0 ∧ t.dev.reg TIM_CNT_SWITCH = 0 ∧ t.dev.fld TIM_PPS_STATUS_pps_bad = 0 ∧
      t.dev.fld TIM_PPS_STATUS_pps_valid = s.dev.fld TIM_PPS_STATUS_pps_valid ∧
      t.dev.tim.bases = s.dev.tim.bases.map (fun b => { b with refused := 0, epochs := 0 }))

/-- The debug master, where debug access is closed, is refused with an event. Otherwise a security command with an argument block ends
NOT_PERMITTED for a master Table KEY-13 does not list for it and, MEAS_EXTEND and RANDOM apart, in BLANK; NOT_READY before Second Steep,
QUOTE and PROVISION apart; TAMPER_HOLD while the hold is set; ABORTED_TAMPER when an enabled source that only logs fires during it. It has
no output then and changes nothing else. The model's own choices it rests on: log entries 22, 67. (R331, R332, R367, R368, R369, R372) -/
def Obligations.SecurityAnswers : Prop :=
  (∀ (c : Instr) (k : Nat) (ms : List Nat) (w : Who) (arg : List Byte) (tam : Option Nat) (m : Nat) (s : State), s.dev.inReset = false →
    (c, k, ms) ∈ secCommands w arg tam → secMaster w = some m → debugClosed s.fuses w = false → m ∉ ms →
    Completes c s [.vault, .hif] (fun _ => false) fun t => told t.dev w scNOT_PERMITTED [] = true ∧ t.dev.vault = { s.dev.vault with sets := t.dev.vault.sets }) ∧
  (∀ (c : Instr) (k : Nat) (ms : List Nat) (w : Who) (arg : List Byte) (tam : Option Nat) (m : Nat) (s : State), s.dev.inReset = false →
    (c, k, ms) ∈ secCommands w arg tam → secMaster w = some m → m ∈ ms → s.fuses.lc = 0 → k ≠ 0x04 → k ≠ 0x0E →
    Completes c s [.vault, .hif] (fun _ => false) fun t => told t.dev w scNOT_PERMITTED [] = true ∧ t.dev.vault = { s.dev.vault with sets := t.dev.vault.sets }) ∧
  (∀ (c : Instr) (k : Nat) (ms : List Nat) (w : Who) (arg : List Byte) (tam : Option Nat) (m : Nat) (s : State), s.dev.inReset = false →
    (c, k, ms) ∈ secCommands w arg tam → secMaster w = some m → m ∈ ms → debugClosed s.fuses w = false → s.fuses.lc ≠ 0 → s.dev.stage < 2 → k ≠ 0x02 → k ≠ 0x10 →
    Completes c s [.vault, .hif] (fun _ => false) fun t => told t.dev w scNOT_READY [] = true ∧ t.dev.vault = { s.dev.vault with sets := t.dev.vault.sets }) ∧
  (∀ (c : Instr) (k : Nat) (ms : List Nat) (w : Who) (arg : List Byte) (tam : Option Nat) (m : Nat) (s : State), s.dev.inReset = false →
    (c, k, ms) ∈ secCommands w arg tam → secMaster w = some m → m ∈ ms → debugClosed s.fuses w = false → s.fuses.lc ≠ 0 → 2 ≤ s.dev.stage → s.dev.vault.hold = true →
    Completes c s [.vault, .hif] (fun _ => false) fun t => told t.dev w scTAMPER_HOLD [] = true ∧ t.dev.vault = { s.dev.vault with sets := t.dev.vault.sets }) ∧
  (∀ (c : Instr) (k : Nat) (ms : List Nat) (w : Who) (arg : List Byte) (src m : Nat) (s : State), Serving s →
    (c, k, ms) ∈ secCommands w arg (some src) → secMaster w = some m → m ∈ ms → debugClosed s.fuses w = false → tamperEnabled s.fuses src = true → nbit s.fuses.tamper src = false →
    Completes c s ([.vault, .hif] ++ noteParts) (fun a => a == SEC_TAMPER_STATUS || noteRegs a) fun t => told t.dev w scABORTED_TAMPER [] = true ∧
      t.dev.vault = { s.dev.vault with sets := t.dev.vault.sets, tlog := t.dev.vault.tlog, tseq := t.dev.vault.tseq }) ∧
  (∀ (c : Instr) (k : Nat) (ms : List Nat) (arg : List Byte) (tam : Option Nat) (s : State), s.dev.inReset = false →
    ((c, k, ms) ∈ secCommands (.master .debug) arg tam ∨ (∃ e cut, c = .envelope (.master .debug) e tam cut)) → debugOpen s.fuses.lc = false →
    Completes c s noteParts noteRegs fun t => t.dev = raise s.dev 177 0 0)

/-- QUOTE signs with the identity key the string of Table KEY-13. DERIVE in exact mode answers the HKDF under the measurements named, in lineage
mode SVN_ABOVE when the required svn lies above the recorded one and the HKDF under signer, svn and register otherwise; its input is the
device root or a slot that may derive. MEAS_EXTEND extends M6 or M7 alone. RANDOM answers bytes of the DRBG. RECOV_KEY_LOAD loads key and
index with counter 0, and in JOINING enters TUNNEL. SLOT_REMAP maps a bad slot to the next free spare, EMPTY. So each of these completes
under the conditions given, exec answering a next state: QUOTE, DERIVE, MEAS_EXTEND, SLOT_REMAP, RANDOM, RECOV_KEY_LOAD. The model's own
choices it rests on: log entry 68. (R328, R335, R341, R342, R343, R344, R361, R371, R372) -/
def Obligations.QuoteDeriveMeasure : Prop :=
  (∀ (w : Who) (m : Nat) (arg : List Byte) (tam : Option Nat) (k : List Byte) (s : State), Serving s → Calm s tam → arg.length = 64 →
    secMaster w = some m → m ∈ [31, 28, 29] → argsOk arg 32 = true → s.dev.fld SEC_STATUS_trng_fail = 0 → s.fuses.root = some k → s.fuses.lc ≠ 5 →
    Completes (.quote w arg tam) s [.vault, .hif, .draws] (fun _ => false) fun t => t.dev.vault = { s.dev.vault with sets := t.dev.vault.sets } ∧ t.dev.draws = s.dev.draws + 1 ∧
      (∃ i, identity s.fuses = some i ∧ told t.dev w scOK (Config.ecdsaSign i ([0x54, 0x4D, 0x51, 0x31] ++ arg.take 32 ++
        (List.range 8).flatMap (measureReg s.dev) ++ le 1 s.fuses.lc ++ deviceId s.fuses ++ le 8 s.dev.vault.envCtr) s.dev.draws) = true)) ∧
  (∀ (arg : List Byte) (tam : Option Nat) (ikm : List Byte) (s : State), Serving s → Calm s tam → arg.length = 64 →
    field arg 1 1 = 1 → field arg 2 1 ≠ 0 → within (field arg 3 1) 16 64 = true → within (field arg 8 1) 1 32 = true →
    argsOk arg (9 + field arg 8 1) = true → (slice arg 9 (field arg 8 1)).take 3 ≠ ascii "tm." →
    ((field arg 0 1 = 0xFF ∧ s.fuses.lc ≠ 5 ∧ s.fuses.root = some ikm) ∨
      (field arg 0 1 ≤ 127 ∧ useSlot s.fuses s.dev (field arg 0 1) 40 4 (some 28) none = (scOK, ikm, s.dev))) →
    Completes (.derive (.master (.cc true)) arg tam) s [.vault] (fun _ => false) fun t => t.dev.vault = { s.dev.vault with sets := t.dev.vault.sets } ∧
      told t.dev (.master (.cc true)) scOK (Config.hkdf ikm (Config.sha384 ((List.range 8).flatMap fun i => if nbit (field arg 2 1) i then measureReg s.dev i else []))
        (kdfInfo 1 s.fuses.lc (field arg 2 1) (field arg 3 1) (slice arg 9 (field arg 8 1))) (field arg 3 1)) = true) ∧
  (∀ (r : Nat) (arg : List Byte) (tam : Option Nat) (ikm signer : List Byte) (have_ : Nat) (s : State), Serving s → Calm s tam → arg.length = 64 →
    field arg 1 1 = 2 → r < 2 → field arg 2 1 = r + 1 → within (field arg 3 1) 16 64 = true → within (field arg 8 1) 1 32 = true →
    argsOk arg (9 + field arg 8 1) = true → (slice arg 9 (field arg 8 1)).take 3 ≠ ascii "tm." → Tab.find s.dev.vault.lineage r = some (signer, have_) →
    ((field arg 0 1 = 0xFF ∧ s.fuses.lc ≠ 5 ∧ s.fuses.root = some ikm) ∨
      (field arg 0 1 ≤ 127 ∧ useSlot s.fuses s.dev (field arg 0 1) 40 4 (some 28) none = (scOK, ikm, s.dev))) →
    Completes (.derive (.master (.cc true)) arg tam) s [.vault] (fun _ => false) fun t => t.dev.vault = { s.dev.vault with sets := t.dev.vault.sets } ∧
      (have_ < field arg 4 4 → told t.dev (.master (.cc true)) scSVN_ABOVE [] = true) ∧
      (field arg 4 4 ≤ have_ → told t.dev (.master (.cc true)) scOK (Config.hkdf ikm (Config.sha384 (signer ++ slice arg 4 4 ++ le 1 r))
        (kdfInfo 2 s.fuses.lc (r + 1) (field arg 3 1) (slice arg 9 (field arg 8 1))) (field arg 3 1)) = true)) ∧
  (∀ (i : Nat) (arg : List Byte) (tam : Option Nat) (s : State), Serving s → Calm s tam → arg.length = 64 → argsOk arg 49 = true → field arg 0 1 = i → 6 ≤ i → i ≤ 7 →
    Completes (.measExtend (.master (.cc true)) arg tam) s [.vault] (fun _ => false) fun t => told t.dev (.master (.cc true)) scOK [] = true ∧
      t.dev.vault = { s.dev.vault with sets := t.dev.vault.sets, meas := t.dev.vault.meas } ∧
      t.dev.vault.meas[i]? = some (Config.sha384 (measureReg s.dev i ++ slice arg 1 48)) ∧ ∀ j, j < 8 → j ≠ i → measureReg t.dev j = measureReg s.dev j) ∧
  (∀ (b : Bool) (arg : List Byte) (tam : Option Nat) (s : State), Serving s → Calm s tam → arg.length = 64 → argsOk arg 1 = true → within (field arg 0 1) 1 128 = true → s.dev.fld SEC_STATUS_trng_fail = 0 →
    Completes (.random (.master (.cc b)) arg tam) s [.vault, .draws] (fun _ => false) fun t => t.dev.vault = { s.dev.vault with sets := t.dev.vault.sets } ∧ t.dev.draws = s.dev.draws + 1 ∧
      told t.dev (.master (.cc b)) scOK (Config.random s.dev.draws (field arg 0 1)) = true) ∧
  (∀ (arg : List Byte) (tam : Option Nat) (s : State), Serving s → Calm s tam → arg.length = 64 → argsOk arg 17 = true →
    Completes (.recovKeyLoad (.master (.cc true)) arg tam) s ([.vault] ++ noteParts) (fun r => r == FWD_STATUS || noteRegs r) fun t => told t.dev (.master (.cc true)) scOK [] = true ∧
      t.dev.vault = { s.dev.vault with sets := t.dev.vault.sets, recov := some ⟨arg.take 16, field arg 16 1, 0⟩ } ∧
      t.dev.fld FWD_STATUS_recov = if s.dev.fld FWD_STATUS_recov = rvJOINING then rvTUNNEL else s.dev.fld FWD_STATUS_recov) ∧
  (∀ (w : Who) (m i k : Nat) (arg : List Byte) (tam : Option Nat) (s : State), Serving s → Calm s tam → arg.length = 64 → secMaster w = some m → m ∈ [28, 31] → argsOk arg 1 = true →
    field arg 0 1 = i → i ≤ 127 → slotState s.fuses s.dev i = 4 →
    (List.range 8).find? (fun k => !(s.dev.vault.remap.any fun e => e.2 == k) && !(s.dev.res.log.any fun r => r.kind == 8 && r.replacement == k)) = some k →
    Completes (.slotRemap w arg tam) s ([.vault, .hif, .res] ++ noteParts) noteRegs fun t => told t.dev w scOK (le 1 k) = true ∧
      t.dev.slot i = none ∧ Tab.find t.dev.vault.remap i = some k ∧ (∀ j, j ≠ i → t.dev.slot j = s.dev.slot j) ∧
      t.dev.vault = { s.dev.vault with sets := t.dev.vault.sets, slots := t.dev.vault.slots, remap := t.dev.vault.remap, sealing := t.dev.vault.sealing, sealAgain := t.dev.vault.sealAgain })

/-- KEK_ROTATE to a slot that may be the PAN's KEK makes it ACTIVE; a KEK that was ACTIVE is RETIRING and a walk starts. The walk's end retires
no more: no RETIRING KEK, rewrap_busy 0. KEK_INVALIDATE takes the named KEK out of both places, marks its slot, sets invalid_pending, moves
the generation, drops the PAN's cached keys and ends a walk; KEK_CLEAR clears invalid_pending. NODE_KEY_NEW answers both link keys of the
random root, key indexes as given, key 0 for sending. NODE_KEY_ROLL answers the next generation's link key, NODE_KEY_GET the link key,
NODE_KEY_EXPORT the plaintext wrapped under the transfer slot, NODE_KEY_IMPORT OK, where the entry unwraps; where it does not, each ends
with that result and no output. So each of these completes under the conditions given, exec answering a next state: KEK_ROTATE,
KEK_WALK_DONE, KEK_INVALIDATE, KEK_CLEAR, NODE_KEY_NEW, NODE_KEY_ROLL, NODE_KEY_GET, NODE_KEY_EXPORT, NODE_KEY_IMPORT. The model's own
choices it rests on: log entries 68, 69. (R350, R351, R352, R353, R355, R356, R357, R358, R371, R372) -/
def Obligations.KeksAndNodeKeys : Prop :=
  (∀ (p sl : Nat) (arg : List Byte) (tam : Option Nat) (k : List Byte) (x : Slot) (s : State), Serving s → Calm s tam → arg.length = 64 → argsOk arg 2 = true →
    field arg 0 1 = p → p < 8 → field arg 1 1 = sl → sl ≤ 127 → Tab.find s.dev.vault.walks p = none → useKek s.fuses s.dev 28 p sl = (scOK, k, s.dev) →
    s.dev.slot sl = some x → x.kekInvalid = false → nbit x.attr 55 = true →
    Completes (.kekRotate (.master (.cc true)) arg tam) s [.vault] (fun r => r == SEC_PANp_KEK p || r == SEC_PANp_REWRAP p) fun t => told t.dev (.master (.cc true)) scOK [] = true ∧
      t.dev.fld (SEC_PANp_KEK_active p) = sl ∧
      (kekActive s.dev p = none → t.dev.vault = { s.dev.vault with sets := t.dev.vault.sets } ∧ t.dev.fld (SEC_PANp_KEK_retiring p) = s.dev.fld (SEC_PANp_KEK_retiring p)) ∧
      (∀ a, kekActive s.dev p = some a → t.dev.fld (SEC_PANp_KEK_retiring p) = a ∧ t.dev.fld (SEC_PANp_KEK_rewrap_busy p) = 1 ∧
        t.dev.fld (SEC_PANp_REWRAP_next p) = 0 ∧ Tab.find t.dev.vault.walks p = some 0)) ∧
  (∀ (p n : Nat) (s : State), s.dev.inReset = false → p < 8 → Tab.find s.dev.vault.walks p = some n →
    Completes (.kekWalkDone p) s ([.vault, .tbl] ++ noteParts) (fun r => r == SEC_PANp_KEK p || r == SEC_PANp_REWRAP p || r == SEC_CNT_UNWRAP || r == SEC_CNT_KEY || noteRegs r) fun t =>
      t.dev.fld (SEC_PANp_KEK_retiring p) = 0x7F ∧ t.dev.fld (SEC_PANp_KEK_rewrap_busy p) = 0 ∧ t.dev.fld (SEC_PANp_REWRAP_next p) = 0 ∧
      t.dev.fld (SEC_PANp_KEK_active p) = s.dev.fld (SEC_PANp_KEK_active p) ∧ Tab.find t.dev.vault.walks p = none) ∧
  (∀ (w : Who) (m p sl : Nat) (arg : List Byte) (tam : Option Nat) (s : State), Serving s → Calm s tam → arg.length = 64 → secMaster w = some m → m ∈ [28, 31] → argsOk arg 2 = true →
    field arg 0 1 = p → p < 8 → field arg 1 1 = sl → sl ≤ 127 → (kekActive s.dev p = some sl ∨ kekRetiring s.dev p = some sl) →
    Completes (.kekInvalidate w arg tam) s ([.vault, .hif, .tbl, .draws] ++ noteParts)
        (fun r => r == SEC_PANp_KEK p || r == SEC_PANp_REWRAP p || r == SEC_CNT_UNWRAP || r == SEC_CNT_KEY || noteRegs r) fun t => told t.dev w scOK [] = true ∧
      kekActive t.dev p = (if kekActive s.dev p = some sl then none else kekActive s.dev p) ∧
      kekRetiring t.dev p = (if kekRetiring s.dev p = some sl then none else kekRetiring s.dev p) ∧
      t.dev.fld (SEC_PANp_KEK_invalid_pending p) = 1 ∧ panGen t.dev p = panGen s.dev p + 1 ∧ Tab.find t.dev.vault.walks p = none ∧
      (∀ x, t.dev.slot sl = some x → x.kekInvalid = true) ∧ ∀ e ∈ t.dev.vault.cache, ∀ c ∈ e.2, c.pan ≠ p) ∧
  (∀ (p : Nat) (arg : List Byte) (tam : Option Nat) (s : State), Serving s → Calm s tam → arg.length = 64 → argsOk arg 1 = true → field arg 0 1 = p → p < 8 →
    Completes (.kekClear (.master (.cc true)) arg tam) s [.vault] (fun r => r == SEC_PANp_KEK p) fun t => told t.dev (.master (.cc true)) scOK [] = true ∧ t.dev.vault = { s.dev.vault with sets := t.dev.vault.sets } ∧
      t.dev.fld (SEC_PANp_KEK_invalid_pending p) = 0 ∧ t.dev.fld (SEC_PANp_KEK_active p) = s.dev.fld (SEC_PANp_KEK_active p)) ∧
  (∀ (n sl : Nat) (arg : List Byte) (tam : Option Nat) (k : List Byte) (s : State), Serving s → Calm s tam → arg.length = 64 → argsOk arg 6 = true → field arg 0 4 = n → nodeValid s.dev n = true →
    s.dev.fld SEC_STATUS_trng_fail = 0 → kekActive s.dev (nodePan s.dev n) = some sl → useKek s.fuses s.dev 28 (nodePan s.dev n) sl = (scOK, k, s.dev) →
    Completes (.nodeKeyNew (.master (.cc true)) arg tam) s [.vault, .tbl, .ts, .draws] (fun _ => false) fun t => t.dev.draws = s.dev.draws + 1 ∧
      nodeKeyIndex t.dev n 0 = field arg 4 1 ∧ nodeKeyIndex t.dev n 1 = field arg 5 1 ∧ nodeTxKey t.dev n = 0 ∧
      t.dev.vault = { s.dev.vault with sets := t.dev.vault.sets, cache := t.dev.vault.cache } ∧
      told t.dev (.master (.cc true)) scOK (linkKey (keyPlain (Config.random s.dev.draws 16) (nodePan s.dev n) n 0 0) 0 (nodePan s.dev n) n ++
        linkKey (keyPlain (Config.random s.dev.draws 16) (nodePan s.dev n) n 0 0) 1 (nodePan s.dev n) n) = true) ∧
  (∀ (n j r : Nat) (arg pt : List Byte) (tam : Option Nat) (d : Dev) (s : State), Serving s → Calm s tam → arg.length = 64 → argsOk arg 6 = true → field arg 0 4 = n → nodeValid s.dev n = true →
    field arg 4 1 = j → j ≤ 1 → nodeTxKey s.dev n ≠ j → unwrapNode s.fuses s.dev 28 (nodePan s.dev n) n = (r, pt, d) →
    Completes (.nodeKeyRoll (.master (.cc true)) arg tam) s ([.vault, .tbl, .ts] ++ noteParts) (fun r => r == SEC_CNT_UNWRAP || r == SEC_CNT_KEY || noteRegs r) fun t =>
      (r ≠ scOK → told t.dev (.master (.cc true)) r [] = true) ∧
      (r = scOK → ∀ d', wrapNode s.fuses d 28 (nodePan s.dev n) n (pt.take (0x14 + j) ++ le 1 (field pt (0x14 + j) 1 + 1) ++ pt.drop (0x15 + j)) = (scOK, d') →
        nodeKeyIndex t.dev n j = field arg 5 1 ∧
        told t.dev (.master (.cc true)) scOK (linkKey (pt.take (0x14 + j) ++ le 1 (field pt (0x14 + j) 1 + 1) ++ pt.drop (0x15 + j)) j (nodePan s.dev n) n) = true)) ∧
  (∀ (n j r : Nat) (arg pt : List Byte) (tam : Option Nat) (d : Dev) (s : State), Serving s → Calm s tam → arg.length = 64 → argsOk arg 5 = true → field arg 0 4 = n → nodeValid s.dev n = true →
    field arg 4 1 = j → j ≤ 1 → unwrapNode s.fuses s.dev 28 (nodePan s.dev n) n = (r, pt, d) →
    Completes (.nodeKeyGet (.master (.cc true)) arg tam) s ([.vault] ++ noteParts) (fun r => r == SEC_CNT_UNWRAP || r == SEC_CNT_KEY || noteRegs r) fun t =>
      told t.dev (.master (.cc true)) r (if r = scOK then linkKey pt j (nodePan s.dev n) n else []) = true) ∧
  (∀ (n i r : Nat) (arg k pt : List Byte) (tam : Option Nat) (d : Dev) (s : State), Serving s → Calm s tam → arg.length = 64 → argsOk arg 5 = true → field arg 0 4 = n → nodeValid s.dev n = true →
    field arg 4 1 = i → i ≤ 127 → useSlot s.fuses s.dev i 46 2 (some 28) (some (nodePan s.dev n)) = (scOK, k, s.dev) →
    unwrapNode s.fuses s.dev 28 (nodePan s.dev n) n = (r, pt, d) →
    Completes (.nodeKeyExport (.master (.cc true)) arg tam) s ([.vault] ++ noteParts) (fun r => r == SEC_CNT_UNWRAP || r == SEC_CNT_KEY || noteRegs r) fun t =>
      told t.dev (.master (.cc true)) r (if r = scOK then Config.keyWrap k pt else []) = true) ∧
  (∀ (n i sl : Nat) (arg k k' : List Byte) (tam : Option Nat) (s : State), Serving s → Calm s tam → arg.length = 64 → argsOk arg 40 = true → field arg 0 4 = n → nodeValid s.dev n = true →
    field arg 4 1 = i → i ≤ 127 → field arg 5 3 = 0 → useSlot s.fuses s.dev i 46 2 (some 28) (some (nodePan s.dev n)) = (scOK, k, s.dev) →
    kekActive s.dev (nodePan s.dev n) = some sl → useKek s.fuses s.dev 28 (nodePan s.dev n) sl = (scOK, k', s.dev) →
    Completes (.nodeKeyImport (.master (.cc true)) arg tam) s [.vault, .tbl] (fun r => r == SEC_CNT_UNWRAP || r == SEC_CNT_KEY) fun t =>
      told t.dev (.master (.cc true)) (if (Config.keyUnwrap k (slice arg 8 32)).isSome then scOK else scUNWRAP_FAIL) [] = true ∧
      t.dev.reg SEC_CNT_UNWRAP = s.dev.reg SEC_CNT_UNWRAP + 1)

/-- An envelope that fails a check of Table KEY-7 ends with that result, changes nothing but SEC_CNT_ENV.refused and who asked. One that passes
takes its counter and ends OK: LOAD and REPLACE write the slot, ERASE empties it, OWNER_ROTATE burns the next owner record and rewrites slot
0, LIFECYCLE burns the state, TAMPER_CLEAR releases the hold. PROVISION acts in MANUFACTURE alone: owner record, slot 0, PROVISIONED. A
debug request makes MANUFACTURE of BLANK and SCRAPPED of RETURN, no other transition; a power cut leaves the burn to complete. Debug
requests in other states are refused with an event. A sealed copy's end makes it the flash copy and its ceilings flash's; one not complete
in time is abandoned. So each of these completes under the conditions given, exec answering a next state: ENVELOPE, PROVISION,
LIFECYCLE_DEBUG, DEBUG_REQUEST_REFUSED, SEAL_WRITE_DONE, SEAL_WRITE_TIMEOUT, BCAST_CEILING_WRITE_DONE. The model's own choices it rests on:
log entries 10, 20, 22, 67, 72. (R331, R332, R333, R339, R347, R348, R349, R360, R369, R372) -/
def Obligations.EnvelopesAndLifeCycle : Prop :=
  (∀ (w : Who) (m : Nat) (e : List Byte) (tam : Option Nat) (cut : Bool) (s : State), s.dev.inReset = false → s.fuses.lc ≠ 0 → Calm s tam →
    secMaster w = some m → debugClosed s.fuses w = false → (evCheck s.fuses s.dev e).1 ≠ scOK →
    Completes (.envelope w e tam cut) s [.vault, .hif] (fun a => a == SEC_CNT_ENV) fun t => told t.dev w (evCheck s.fuses s.dev e).1 [] = true ∧
      t.dev.vault = { s.dev.vault with sets := t.dev.vault.sets } ∧ t.dev.fld SEC_CNT_ENV_accepted = s.dev.fld SEC_CNT_ENV_accepted ∧
      t.dev.fld SEC_CNT_ENV_refused = min (s.dev.fld SEC_CNT_ENV_refused + 1) SEC_CNT_ENV_refused.max) ∧
  (∀ (w : Who) (m : Nat) (e : List Byte) (tam : Option Nat) (s : State), s.dev.inReset = false → s.fuses.lc ≠ 0 → Calm s tam → secMaster w = some m → debugClosed s.fuses w = false →
    ∃ t, exec (.envelope w e tam false) s = .next t ∧ t.pending = s.pending ∧ (∀ p, evCheck s.fuses s.dev e = (scOK, p) →
      told t.dev w scOK [] = true ∧ t.dev.vault.envCtr = evCounter e ∧
      (evOp e ≠ 6 → t.dev.fld SEC_CNT_ENV_accepted = min (s.dev.fld SEC_CNT_ENV_accepted + 1) SEC_CNT_ENV_accepted.max) ∧
      (evOp e ≤ 2 → t.fuses = s.fuses ∧ t.dev.slot (evSlot e) = some ⟨fit 64 p, evAttr e, slotTag s.fuses (evSlot e) (evAttr e) (fit 64 p), false, ((s.dev.slot (evSlot e)).map (·.kekInvalid)).getD false⟩ ∧
        ∀ i, i ≠ evSlot e → t.dev.slot i = s.dev.slot i) ∧
      (evOp e = 3 → t.fuses = s.fuses ∧ t.dev.slot (evSlot e) = none ∧ ∀ i, i ≠ evSlot e → t.dev.slot i = s.dev.slot i) ∧
      (evOp e = 4 → t.fuses = { s.fuses with owners := s.fuses.owners ++ [Config.sha384 (p.take 49)] } ∧ (t.dev.slot 0).any (fun x => x.material == fit 64 (p.take 49)) = true) ∧
      (evOp e = 5 → t.fuses.lc = field p 0 1 ∧ t.dev.fld SEC_STATUS_lc = field p 0 1) ∧ (evOp e = 6 → t.dev.vault.hold = false))) ∧
  (∀ (w : Who) (m : Nat) (arg : List Byte) (tam : Option Nat) (s : State), s.dev.inReset = false → s.dev.vault.hold = false → Calm s tam → arg.length = 64 →
    secMaster w = some m → m ∈ [32, 31] → argsOk arg 49 = true → s.fuses.lc = 1 → s.fuses.owners.length < 4 →
    ∃ t, exec (.provision w arg tam false) s = .next t ∧ told t.dev w scOK [] = true ∧ t.dev.fld SEC_STATUS_lc = 2 ∧
      t.fuses = { s.fuses with owners := s.fuses.owners ++ [Config.sha384 (arg.take 49)], lc := 2 } ∧
      (∃ tag, t.dev.slot 0 = some ⟨fit 64 (arg.take 49), slot0Attr, tag, false, false⟩) ∧ (∀ i, i ≠ 0 → t.dev.slot i = s.dev.slot i)) ∧
  (∀ (w : Who) (m : Nat) (arg : List Byte) (tam : Option Nat) (cut : Bool) (s : State), Serving s → Calm s tam → arg.length = 64 →
    secMaster w = some m → m ∈ [32, 31] → argsOk arg 49 = true → debugClosed s.fuses w = false → s.fuses.lc ≠ 1 →
    Completes (.provision w arg tam cut) s [.vault, .hif] (fun _ => false) fun t => told t.dev w scLC_REFUSED [] = true ∧ t.dev.vault = { s.dev.vault with sets := t.dev.vault.sets }) ∧
  (∀ (lock eui cert : List Byte) (policy : Nat) (subsys : Option (Nat × Nat)) (s : State), s.dev.inReset = false → s.dev.vault.hold = false → s.fuses.lc = 0 → s.dev.fld SEC_STATUS_trng_fail = 0 →
    ∃ t, exec (.lifecycleDebug 1 lock eui cert policy subsys false) s = .next t ∧ told t.dev (.master .debug) scOK [] = true ∧ t.dev.fld SEC_STATUS_lc = 1 ∧
      t.dev.boot.cert = cert.take 2048 ∧ t.dev.draws = s.dev.draws + 1 ∧
      t.fuses = { s.fuses with lc := 1, root := some (fit 32 (Config.random s.dev.draws 32)), lock := lock, eui := fit 8 eui, tamper := policy % 65536, subsys := subsys.map fun x => (x.1 % 65536, x.2 % 65536) }) ∧
  (∀ (lock eui cert : List Byte) (policy : Nat) (subsys : Option (Nat × Nat)) (s : State), s.dev.inReset = false → s.dev.vault.hold = false → s.fuses.lc = 4 →
    ∃ t, exec (.lifecycleDebug 5 lock eui cert policy subsys false) s = .next t ∧ told t.dev (.master .debug) scOK [] = true ∧ t.dev.fld SEC_STATUS_lc = 5 ∧
      t.fuses = { s.fuses with lc := 5 }) ∧
  (∀ (lock eui cert : List Byte) (policy : Nat) (subsys : Option (Nat × Nat)) (s : State), s.dev.inReset = false → s.dev.vault.hold = false → s.fuses.lc = 4 →
    ∃ t, exec (.lifecycleDebug 5 lock eui cert policy subsys true) s = .next t ∧ t.dev.inReset = true ∧
      t.fuses = { s.fuses with pend := s.fuses.pend ++ [.lifecycle 5] }) ∧
  (∀ (target policy : Nat) (lock eui cert : List Byte) (subsys : Option (Nat × Nat)) (cut : Bool) (s : State), s.dev.inReset = false → (debugOpen s.fuses.lc = false ∨ s.dev.vault.hold = false) → ¬ (s.fuses.lc = 0 ∧ target = 1) → ¬ (s.fuses.lc = 4 ∧ target = 5) →
    Completes (.lifecycleDebug target lock eui cert policy subsys cut) s ([.vault] ++ noteParts) noteRegs fun t => told t.dev (.master .debug) scLC_REFUSED [] = true ∧
      t.dev.vault = { s.dev.vault with sets := t.dev.vault.sets }) ∧
  (∀ s : State, s.dev.inReset = false → debugOpen s.fuses.lc = false →
    Completes .debugRequestRefused s noteParts noteRegs fun t => t.dev = raise s.dev 177 0 0) ∧
  (∀ (c : Seal) (s : State), s.dev.inReset = false → s.dev.vault.sealing = some c →
    Completes .sealWriteDone s [.vault] (fun a => a == SEC_STATUS) fun t => t.dev.fld SEC_STATUS_seal_ok = 1 ∧ t.dev.vault.sealCopy = some c ∧
      t.dev.vault = { s.dev.vault with sealCopy := some c, sealAgain := false, ceilings := t.dev.vault.ceilings, sealing := t.dev.vault.sealing } ∧
      t.dev.vault.sealing.isSome = s.dev.vault.sealAgain ∧
      (∀ p, p < 8 → (Tab.getD t.dev.vault.ceilings p (0, 0)).2 = max (Tab.getD s.dev.vault.ceilings p (0, 0)).2 ((c.ceilings[p]?).getD 0) ∧
        (Tab.getD t.dev.vault.ceilings p (0, 0)).1 = (Tab.getD s.dev.vault.ceilings p (0, 0)).1)) ∧
  (∀ (p : Nat) (c : Seal) (s : State), s.dev.inReset = false → p < 8 → s.dev.vault.sealing = some c →
    (Tab.getD s.dev.vault.ceilings p (0, 0)).2 < (c.ceilings[p]?).getD 0 →
    Completes (.bcastCeilingWriteDone p) s [.vault] (fun a => a == SEC_STATUS) fun t => t.dev.vault.sealCopy = some c ∧
      (Tab.getD t.dev.vault.ceilings p (0, 0)).2 = (c.ceilings[p]?).getD 0) ∧
  (∀ (c : Seal) (s : State), s.dev.inReset = false → s.dev.vault.sealing = some c →
    Completes .sealWriteTimeout s ([.vault] ++ noteParts) (fun a => a == SEC_STATUS || noteRegs a) fun t => t.dev.fld SEC_STATUS_seal_ok = 0 ∧
      t.dev.vault = { s.dev.vault with sealing := none, sealAgain := false })

/-- PARSE shows counter and level of a frame and ends NO_COUNTER, LEVEL_REFUSED for another key mode or a level not accepted, KEY_UNKNOWN for a
key index of no key, else OK; VERIFY of such a frame ends as obtaining the key ends, MIC_FAIL where CCM* fails, else OK with the PSDU
decrypted in place and its MIC removed; SECURE writes the secured frame, under nonce_mode 1 the header alone. Without a record PARSE and
VERIFY end RANGE. While TAMPER_HOLD holds the three end TAMPER_HOLD and touch no frame. A failed health test sets trng_fail with an event;
three passing retests clear it. A reseed changes what is drawn next. cnt_clear clears the security counters. So each of these completes
under the conditions given, exec answering a next state: FSU_PARSE, FSU_VERIFY, FSU_SECURE, TRNG_HEALTH_FAIL, TRNG_RETEST, DRBG_RESEED,
SEC_CNT_CLEAR. The model's own choices it rests on: log entries 20, 74. (R353, R362, R363, R364, R365, R369, R371, R373) -/
def Obligations.FrameSecurityAndRandom : Prop :=
  (∀ (e b w : Nat) (h : MacHdr) (s : State), s.dev.inReset = false → s.dev.vault.hold = false → Tab.find s.dev.rx.hdrs b = some h →
    Completes (.fsuParse e b w) s [.vault] (fun a => a == SEC_CNT_FRAME || a == SEC_CNT_KEY) fun t =>
      t.dev.vault = { s.dev.vault with fsu := t.dev.vault.fsu } ∧ (t.dev.fsu e).buf = b ∧ (t.dev.fsu e).node = w ∧
      (t.dev.fsu e).fc = h.counter.getD 0 ∧ (t.dev.fsu e).level = h.level ∧
      (t.dev.fsu e).result = (if h.counter = none then scNO_COUNTER
        else if h.keyMode ≠ 1 ∨ levelOk s.dev (nbits w 22 20) h.level = false then scLEVEL_REFUSED
        else if keyNumber s.dev (w % 2 ^ 20) h.keyIndex = none then scKEY_UNKNOWN else scOK) ∧ (∀ x, x ≠ e → t.dev.fsu x = s.dev.fsu x)) ∧
  (∀ (e b w : Nat) (s : State), s.dev.inReset = false → s.dev.vault.hold = false → Tab.find s.dev.rx.hdrs b = none →
    Completes (.fsuVerify e b w) s [.vault] (fun _ => false) fun t => (t.dev.fsu e).result = scRANGE ∧ t.dev.vault = { s.dev.vault with fsu := t.dev.vault.fsu }) ∧
  (∀ (e b w : Nat) (s : State), s.dev.inReset = false → s.dev.vault.hold = false → Tab.find s.dev.rx.hdrs b = none →
    Completes (.fsuParse e b w) s [.vault] (fun _ => false) fun t => (t.dev.fsu e).result = scRANGE ∧ t.dev.vault = { s.dev.vault with fsu := t.dev.vault.fsu }) ∧
  (∀ (e b w j r : Nat) (k : List Byte) (d : Dev) (h : MacHdr) (s : State), s.dev.inReset = false → s.dev.vault.hold = false → Tab.find s.dev.rx.hdrs b = some h →
    h.counter.isSome = true → h.keyMode = 1 → levelOk s.dev (nbits w 22 20) h.level = true → keyNumber s.dev (w % 2 ^ 20) h.keyIndex = some j →
    obtainKey s.fuses (s.dev.setFsu e { s.dev.fsu e with buf := b, node := w }) (e / 16) j (w % 2 ^ 20) (nbits w 22 20) = (r, k, d) →
    Completes (.fsuVerify e b w) s ([.vault, .pbm] ++ noteParts) (fun a => a == SEC_CNT_FRAME || a == SEC_CNT_KEY || a == SEC_CNT_UNWRAP || noteRegs a) fun t =>
      (r ≠ scOK → (t.dev.fsu e).result = r ∧ t.dev.pbm = s.dev.pbm) ∧
      (r = scOK → ∀ body, body = (bufGet s.dev (recPsdu s.dev b)).take ((bufGet s.dev (recPsdu s.dev b)).length - recFcs s.dev b) →
        ∀ o, o = Config.ccmOpen k (nonce s.dev (nbits w 22 20) (nodeExtBe s.dev (w % 2 ^ 20)) (h.counter.getD 0) h.level (field (bufGet s.dev b) 0x10 5)) h.level
          (body.take h.hdrLen) (body.drop h.hdrLen) →
        (o = none → (t.dev.fsu e).result = scMIC_FAIL ∧ t.dev.pbm = s.dev.pbm ∧
          t.dev.fld SEC_CNT_FRAME_mic_fail = min (s.dev.fld SEC_CNT_FRAME_mic_fail + 1) SEC_CNT_FRAME_mic_fail.max) ∧
        ∀ pt, o = some pt → (t.dev.fsu e).result = scOK ∧ bufGet t.dev (recPsdu s.dev b) =
          body.take h.hdrLen ++ pt ++ (bufGet s.dev (recPsdu s.dev b)).drop ((bufGet s.dev (recPsdu s.dev b)).length - recFcs s.dev b))) ∧
  (∀ (e b w fc r : Nat) (k : List Byte) (d : Dev) (s : State), s.dev.inReset = false → s.dev.vault.hold = false →
    obtainKey s.fuses (s.dev.setFsu e { s.dev.fsu e with buf := b, node := w, fc := fc }) (e / 16) (nbits w 24 24) (w % 2 ^ 20) (nbits w 22 20) = (r, k, d) →
    Completes (.fsuSecure e b w fc) s ([.vault, .pbm] ++ noteParts) (fun a => a == SEC_CNT_FRAME || a == SEC_CNT_KEY || a == SEC_CNT_UNWRAP || noteRegs a) fun t => (t.dev.fsu e).result = r ∧
      (r ≠ scOK → t.dev.pbm = s.dev.pbm) ∧
      (r = scOK → bufGet t.dev b = (if topNonceMode s.dev.topo (nbits w 22 20) = 0 then
          secureFrame s.dev (nbits w 22 20) k (ownExtBe s.dev) (bufGet s.dev b) (s.dev.fld (SEC_PANp_CFG_tx_level (nbits w 22 20))) fc
            (nodeKeyIndex s.dev (w % 2 ^ 20) (nbits w 24 24)) 0
        else (withAux (bufGet s.dev b) (s.dev.fld (SEC_PANp_CFG_tx_level (nbits w 22 20))) fc (nodeKeyIndex s.dev (w % 2 ^ 20) (nbits w 24 24))).1)) ∧
      (∀ x, x ≠ b → bufGet t.dev x = bufGet s.dev x)) ∧
  (∀ (c : Instr) (e b w fc : Nat) (s : State), s.dev.inReset = false → s.dev.vault.hold = true →
    (c = .fsuParse e b w ∨ c = .fsuVerify e b w ∨ c = .fsuSecure e b w fc) →
    Completes c s [.vault] (fun _ => false) fun t => (t.dev.fsu e).result = scTAMPER_HOLD ∧ t.dev.vault = { s.dev.vault with fsu := t.dev.vault.fsu }) ∧
  (∀ s : State, s.dev.inReset = false →
    Completes .trngHealthFail s ([.vault] ++ noteParts) (fun a => a == SEC_STATUS || noteRegs a) fun t => t.dev.fld SEC_STATUS_trng_fail = 1 ∧
      t.dev.vault = { s.dev.vault with passes := 0 }) ∧
  (∀ (pass : Bool) (s : State), s.dev.inReset = false → s.dev.fld SEC_STATUS_trng_fail = 1 →
    Completes (.trngRetest pass) s [.vault] (fun a => a == SEC_STATUS) fun t =>
      t.dev.vault = { s.dev.vault with passes := if pass = true ∧ s.dev.vault.passes < 2 then s.dev.vault.passes + 1 else 0 } ∧
      t.dev.fld SEC_STATUS_trng_fail = (if pass = true ∧ 2 ≤ s.dev.vault.passes then 0 else 1)) ∧
  (∀ s : State, s.dev.inReset = false →
    Completes .drbgReseed s [.draws] (fun _ => false) fun t => t.dev.draws = s.dev.draws + 1) ∧
  (∀ s : State, s.dev.inReset = false →
    Completes .secCntClear s [] (fun a => a ∈ [SEC_CNT_FRAME, SEC_CNT_KEY, SEC_CNT_UNWRAP, SEC_CNT_ENV]) fun t =>
      t.dev.reg SEC_CNT_FRAME = 0 ∧ t.dev.reg SEC_CNT_KEY = 0 ∧ t.dev.reg SEC_CNT_UNWRAP = 0 ∧ t.dev.reg SEC_CNT_ENV = 0)

/-- CREATE with a descriptor in range, no campaign of its number, fewer than 16 held, K contiguous free spool entries and frames that fit copies
the image, zero past its end, into the first fit and flash and leaves it READY. START and RESUME make a READY or PAUSED campaign RUNNING,
its flash ceiling 1,024 above the next ESI; PAUSE and CANCEL drop its blocks and session; DELETE frees it; a state that does not permit a
command ends STATE, a number not held UNKNOWN, any command before Full Brew NOT_READY. A session is due again after its gap. The scan counts
enrolled and ended nodes and ends a campaign whose nodes all ended. A failed state write leaves flash as it was, the state standing. So each
of these completes under the conditions given, exec answering a next state: CREATE, START, PAUSE, RESUME, CANCEL, DELETE,
SESSION_GAP_EXPIRY, CAMPAIGN_SCAN, CAMPAIGN_STATE_WRITE_TIMEOUT, CMP_CNT_CLEAR. The model's own choices it rests on: log entries 20, 75, 77.
(R374, R380, R381, R383, R384, R385, R386, R388) -/
def Obligations.Campaigns : Prop :=
  (∀ (w : Who) (desc b img : List Byte) (buf : Option Nat) (host : Option (List Byte)) (sp : Nat) (s : State), s.dev.inReset = false → 3 ≤ s.dev.stage →
    createDesc s.dev w desc = b → descOk s.dev b = true → s.dev.camp (cdCnum b) = none → s.dev.cmp.camps.length < 16 →
    spoolFit s.dev (blocksOf (cdLen b)) = some sp → campTooLong s.dev b = false → buf.elim host (fun h => some (bufGet s.dev h)) = some img →
    Completes (.create w desc buf host true false) s [.cmp, .tbl, .hif] (fun a => a == CMP_CMD_STATUS) fun t => campTold t.dev w cmOK = true ∧
      t.dev.camp (cdCnum b) = some ⟨b, cpREADY, sp, blocksOf (cdLen b), 0, 0, none, false, 0, 0, []⟩ ∧
      (∀ k, k ≠ cdCnum b → t.dev.camp k = s.dev.camp k) ∧
      Tab.find t.dev.cmp.flash (cdCnum b) = some ⟨b, fit (cdLen b) img, cpREADY, 0, (cpREADY, 0)⟩ ∧
      (∀ k, k < blocksOf (cdLen b) → entryBytes t.dev 7 (sp + k) = fit 1024 (slice (fit (cdLen b) img) (1024 * k) 1024))) ∧
  (∀ (c : Instr) (w : Who) (n : Nat) (desc : List Byte) (buf : Option Nat) (host : Option (List Byte)) (ok cut : Bool) (s : State), s.dev.inReset = false →
    s.dev.stage < 3 → c ∈ [.create w desc buf host ok cut, .start w n, .pause w n, .resume w n, .cancel w n, .delete w n] →
    Completes c s [.hif] (fun a => a == CMP_CMD_STATUS) fun t => campTold t.dev w cmNOT_READY = true) ∧
  (∀ (c : Instr) (w : Who) (n : Nat) (s : State), s.dev.inReset = false → 3 ≤ s.dev.stage → s.dev.camp n = none →
    c ∈ [.start w n, .pause w n, .resume w n, .cancel w n, .delete w n] →
    Completes c s [.hif] (fun a => a == CMP_CMD_STATUS) fun t => campTold t.dev w cmUNKNOWN = true) ∧
  (∀ (c : Instr) (states : List Nat) (w : Who) (n : Nat) (x : Camp) (s : State), s.dev.inReset = false → 3 ≤ s.dev.stage → s.dev.camp n = some x →
    (c, states) ∈ [(.start w n, [cpREADY]), (.pause w n, [cpRUNNING]), (.resume w n, [cpPAUSED]), (.cancel w n, [cpREADY, cpRUNNING, cpPAUSED]),
      (.delete w n, [cpREADY, cpDONE, cpCANCELLED, cpEXHAUSTED])] → x.state ∉ states →
    Completes c s [.hif] (fun a => a == CMP_CMD_STATUS) fun t => campTold t.dev w cmSTATE = true) ∧
  (∀ (w : Who) (n : Nat) (c : Camp) (x : CampFlash) (s : State), s.dev.inReset = false → 3 ≤ s.dev.stage → s.dev.camp n = some c →
    c.state = cpREADY → Tab.find s.dev.cmp.flash n = some x →
    Completes (.start w n) s ([.cmp, .pbm, .dsp, .hif] ++ noteParts) (fun a => a == CMP_CMD_STATUS || noteRegs a) fun t => campTold t.dev w cmOK = true ∧
      (∃ b, t.dev.camp n = some { c with state := cpRUNNING, due := decide (cdWhistle c.desc ≠ 0), built := b }) ∧ (∀ k, k ≠ n → t.dev.camp k = s.dev.camp k) ∧
      Tab.find t.dev.cmp.flash n = some { x with state := cpRUNNING, before := (x.state, x.ceiling), ceiling := c.esi + 1024 }) ∧
  (∀ (w : Who) (n : Nat) (c : Camp) (x : CampFlash) (s : State), s.dev.inReset = false → 3 ≤ s.dev.stage → s.dev.camp n = some c →
    c.state = cpPAUSED → Tab.find s.dev.cmp.flash n = some x →
    Completes (.resume w n) s ([.cmp, .pbm, .dsp, .hif] ++ noteParts) (fun a => a == CMP_CMD_STATUS || noteRegs a) fun t => campTold t.dev w cmOK = true ∧
      (∃ b, t.dev.camp n = some { c with state := cpRUNNING, due := decide (cdWhistle c.desc ≠ 0), built := b }) ∧ (∀ k, k ≠ n → t.dev.camp k = s.dev.camp k) ∧
      Tab.find t.dev.cmp.flash n = some { x with state := cpRUNNING, before := (x.state, x.ceiling), ceiling := c.esi + 1024 }) ∧
  (∀ (w : Who) (n : Nat) (c : Camp) (x : CampFlash) (s : State), s.dev.inReset = false → 3 ≤ s.dev.stage → s.dev.camp n = some c →
    c.state = cpRUNNING → Tab.find s.dev.cmp.flash n = some x →
    Completes (.pause w n) s [.cmp, .pbm, .hif] (fun a => a == CMP_CMD_STATUS) fun t => campTold t.dev w cmOK = true ∧
      t.dev.camp n = some { c with state := cpPAUSED, built := [], session := none, due := false } ∧
      (∀ k, k ≠ n → t.dev.camp k = s.dev.camp k) ∧ Tab.find t.dev.cmp.flash n = some { x with state := cpPAUSED, before := (x.state, x.ceiling) }) ∧
  (∀ (w : Who) (n : Nat) (c : Camp) (x : CampFlash) (s : State), s.dev.inReset = false → 3 ≤ s.dev.stage → s.dev.camp n = some c →
    c.state ∈ [cpREADY, cpRUNNING, cpPAUSED] → Tab.find s.dev.cmp.flash n = some x →
    Completes (.cancel w n) s [.cmp, .pbm, .hif] (fun a => a == CMP_CMD_STATUS) fun t => campTold t.dev w cmOK = true ∧
      t.dev.camp n = some { c with state := cpCANCELLED, built := [], session := none, due := false } ∧
      (∀ k, k ≠ n → t.dev.camp k = s.dev.camp k) ∧ Tab.find t.dev.cmp.flash n = some { x with state := cpCANCELLED, before := (x.state, x.ceiling) }) ∧
  (∀ (w : Who) (n : Nat) (c : Camp) (s : State), s.dev.inReset = false → 3 ≤ s.dev.stage → s.dev.camp n = some c →
    c.state ∈ [cpREADY, cpDONE, cpCANCELLED, cpEXHAUSTED] →
    Completes (.delete w n) s [.cmp, .pbm, .hif] (fun a => a == CMP_CMD_STATUS) fun t => campTold t.dev w cmOK = true ∧ t.dev.camp n = none ∧ Tab.find t.dev.cmp.flash n = none ∧
      (∀ k, k ≠ n → t.dev.camp k = s.dev.camp k ∧ Tab.find t.dev.cmp.flash k = Tab.find s.dev.cmp.flash k)) ∧
  (∀ (n : Nat) (c : Camp) (s : State), s.dev.inReset = false → s.dev.camp n = some c → c.state = cpRUNNING → cdWhistle c.desc ≠ 0 → c.session = none →
    Completes (.sessionGapExpiry n) s [.cmp] (fun _ => false) fun t => t.dev.camp n = some { c with due := true } ∧ ∀ k, k ≠ n → t.dev.camp k = s.dev.camp k) ∧
  (∀ (n : Nat) (c : Camp) (s : State), s.dev.inReset = false → s.dev.cmp.camps = [(n, c)] → c.state ∈ [cpRUNNING, cpPAUSED] →
    campNodes s.dev n [1, 2, 3, 4, 5] ≠ 0 → campNodes s.dev n [3, 4, 5] = campNodes s.dev n [1, 2, 3, 4, 5] →
    Completes .campaignScan s [.cmp, .pbm] (fun _ => false) fun t => t.dev.camp n = some { c with
      enrolled := campNodes s.dev n [1, 2, 3, 4, 5], ended := campNodes s.dev n [3, 4, 5], state := cpDONE, built := [], session := none, due := false }) ∧
  (∀ (n : Nat) (c : Camp) (s : State), s.dev.inReset = false → s.dev.cmp.camps = [(n, c)] →
    (c.state ∉ [cpRUNNING, cpPAUSED] ∨ campNodes s.dev n [1, 2, 3, 4, 5] = 0 ∨ campNodes s.dev n [3, 4, 5] ≠ campNodes s.dev n [1, 2, 3, 4, 5]) →
    Completes .campaignScan s [.cmp] (fun _ => false) fun t => t.dev.camp n = some { c with
      enrolled := campNodes s.dev n [1, 2, 3, 4, 5], ended := campNodes s.dev n [3, 4, 5] } ∧ t.dev.cmp.flash = s.dev.cmp.flash) ∧
  (∀ (n : Nat) (x : CampFlash) (s : State), s.dev.inReset = false → Tab.find s.dev.cmp.flash n = some x →
    Completes (.campaignStateWriteTimeout n) s ([.cmp] ++ noteParts) noteRegs fun t => t.dev.cmp.camps = s.dev.cmp.camps ∧
      Tab.find t.dev.cmp.flash n = some { x with state := x.before.1, ceiling := x.before.2 }) ∧
  (∀ s : State, s.dev.inReset = false →
    Completes .cmpCntClear s [] (fun a => a == CMP_CNT_SENT || a == CMP_CNT_ERR) fun t => t.dev.reg CMP_CNT_SENT = 0 ∧ t.dev.reg CMP_CNT_ERR = 0)

/-- UPD_BEGIN in range opens a download at offset 0 and clears staged_ok. UPD_WRITE at the committed offset puts its bytes into STAGED and moves
the offset; any other offset ends OFFSET. UPD_VERIFY sets staged_ok exactly when the bundle and a full Blend in it pass. UPD_ACTIVATE puts
the staged bundle into ACTIVE under a TRIAL record. UPD_CONFIRM in a trial at Full Brew writes CONFIRMED with the minima raised and burns
the rollback bits. UPD_ABANDON closes the download, its log kept; during an activation it ends STATE. RESTART acts as a release of POR_N. A
block that fails twice ends FLASH, one that succeeds at the second try completes, a late host read ends TIMEOUT; while a command waits
another of a queue ends BUSY. So each of these completes under the conditions given, exec answering a next state: UPD_BEGIN, UPD_WRITE,
UPD_VERIFY, UPD_ACTIVATE, UPD_CONFIRM, UPD_ABANDON, RESTART, FLASH_PROGRAM_TIMEOUT, FLASH_ERASE_TIMEOUT, HOST_READ_TIMEOUT. The model's own
choices it rests on: log entries 10, 13, 20, 21, 24, 81, 83, 85. (R396, R405, R406, R407, R408, R409, R411, R412, R416) -/
def Obligations.Updating : Prop :=
  (∀ (w : Who) (len : Nat) (s : State), s.dev.inReset = false → s.dev.boot.run = none → updStage s.dev = true → within len 352 (areaSize s.dev 3) = true →
    Completes (.updBegin w len false) s [.boot, .hif] (fun a => a == BOOT_CMD_STATUS || a == BOOT_STATUS || a == BOOT_STAGED_OFS) fun t =>
      bootTold t.dev w upOK 0 = true ∧ t.dev.boot = { s.dev.boot with download := some (len, 0), open_ := true } ∧
      t.dev.fld BOOT_STATUS_staged_ok = 0 ∧ t.dev.reg BOOT_STAGED_OFS = 0) ∧
  (∀ (w : Who) (len : Nat) (s : State), s.dev.inReset = false → s.dev.boot.run = none → updStage s.dev = true → within len 352 (areaSize s.dev 3) = true →
    Completes (.updBegin w len true) s [.boot] (fun a => a == BOOT_CMD_STATUS || a == BOOT_STATUS) fun t =>
      t.dev.boot = { s.dev.boot with run := some ⟨w, 1, [len], [], 0⟩ } ∧ t.dev.fld BOOT_STATUS_staged_ok = 0) ∧
  (∀ (w : Who) (off len total : Nat) (data : List Byte) (s : State), s.dev.inReset = false → s.dev.boot.run = none → updStage s.dev = true → s.dev.boot.open_ = true →
    s.dev.boot.download = some (total, off) → within len 1 1048576 = true → off + len ≤ total → (len % 65536 = 0 ∨ off + len = total) →
    Completes (.updWrite w off len none data none) s [.boot, .hif] (fun a => a == BOOT_CMD_STATUS || a == BOOT_STAGED_OFS) fun t =>
      bootTold t.dev w upOK 0 = true ∧ t.dev.boot = { s.dev.boot with areas := t.dev.boot.areas, download := some (total, off + len) } ∧
      bundleArea t.dev 1 = spliceAt (bundleArea s.dev 1) off (fit len data) ∧ (∀ k, k ≠ 1 → bundleArea t.dev k = bundleArea s.dev k) ∧
      t.dev.reg BOOT_STAGED_OFS = BitVec.ofNat 32 (off + len)) ∧
  (∀ (w : Who) (off len total at_ : Nat) (buf : Option Nat) (data : List Byte) (stall : Option Nat) (s : State), s.dev.inReset = false → s.dev.boot.run = none → updStage s.dev = true →
    s.dev.boot.open_ = true → s.dev.boot.download = some (total, at_) → off ≠ at_ → at_ < 2 ^ 32 →
    Completes (.updWrite w off len buf data stall) s [.hif] (fun a => a == BOOT_CMD_STATUS) fun t => bootTold t.dev w upOFFSET (at_ / 2 ^ 24) = true) ∧
  (∀ (w : Who) (s : State), s.dev.inReset = false → s.dev.boot.run = none → updStage s.dev = true → s.dev.vault.hold = false →
    Completes (.updVerify w) s ([.hif, .vault] ++ noteParts) (fun a => a == BOOT_CMD_STATUS || a == BOOT_STATUS || noteRegs a) fun t =>
      (∀ r d, bundleVerdict s.fuses s.dev (bundleArea s.dev 1) = (r, d) →
        (r ≠ upOK → bootTold t.dev w r 0 = true ∧ t.dev.fld BOOT_STATUS_staged_ok = s.dev.fld BOOT_STATUS_staged_ok) ∧
        (r = upOK → ∀ v d', blendVerdict s.fuses d (bnPart (bundleArea s.dev 1) 2) = (v, d') →
          (v.code = blOk ∧ blKind (bnPart (bundleArea s.dev 1) 2) = 1 → bootTold t.dev w upOK 0 = true ∧ t.dev.fld BOOT_STATUS_staged_ok = 1) ∧
          (v.code ≠ blOk → v.code < 256 → bootTold t.dev w upBLEND v.code = true ∧ t.dev.fld BOOT_STATUS_staged_ok = s.dev.fld BOOT_STATUS_staged_ok)))) ∧
  (∀ (w : Who) (s : State), s.dev.inReset = false → s.dev.boot.run = none → updStage s.dev = true → s.dev.fld BOOT_STATUS_staged_ok = 1 → (confNow s.dev).state ≠ cfTRIAL →
    s.dev.boot.act = none → ConfSlots s.dev → bnLen (bundleArea s.dev 1) = (bundleArea s.dev 1).length → bundleArea s.dev 1 ≠ [] →
    Completes (.updActivate w false none) s ([.boot, .hif] ++ noteParts)
      (fun a => a == BOOT_CMD_STATUS || a == BOOT_STATUS || a == BOOT_SVN_FW || noteRegs a) fun t => bootTold t.dev w upOK 0 = true ∧
      (bundleArea t.dev 0).take (bundleArea s.dev 1).length = bundleArea s.dev 1 ∧ bundleArea t.dev 1 = bundleArea s.dev 1 ∧
      (confNow t.dev).state = cfTRIAL ∧ (confNow t.dev).trialStarts = 0 ∧ (confNow t.dev).activeId = bnId (bundleArea s.dev 1) ∧ t.dev.boot.act = none) ∧
  (∀ (w : Who) (s : State), s.dev.inReset = false → s.dev.boot.run = none → s.dev.stage = 3 → (confNow s.dev).state = cfTRIAL → ConfSlots s.dev → s.fuses.rollback ≤ 64 → s.dev.bld.svn < 2 ^ 32 →
    ∃ t, exec (.updConfirm w none) s = .next t ∧ bootTold t.dev w upOK 0 = true ∧ t.pending = s.pending ∧
      t.fuses = { s.fuses with rollback := max s.fuses.rollback (min (confNow t.dev).rbTarget 64) } ∧
      t.dev.fld BOOT_STATUS_rb_count = t.fuses.rollback ∧
      confNow t.dev = { confNow s.dev with seq := (confNow t.dev).seq, state := cfCONFIRMED, blendSvnMin := s.dev.bld.svn, rbTarget := max (confNow s.dev).rbTarget (bnRb (runningBundle s.dev)), fwSvnMin := max (confNow s.dev).fwSvnMin (bnSvn (runningBundle s.dev)) } ∧ t.dev.fld BLD_SVN_MIN_svn = s.dev.bld.svn) ∧
  (∀ (w : Who) (s : State), s.dev.inReset = false → s.dev.boot.run = none → updStage s.dev = true → s.dev.boot.open_ = true →
    Completes (.updAbandon w) s [.boot, .hif] (fun a => a == BOOT_CMD_STATUS) fun t => bootTold t.dev w upOK 0 = true ∧ t.dev.boot = { s.dev.boot with open_ := false }) ∧
  (∀ (w : Who) (x : BootRun) (s : State), s.dev.inReset = false → s.dev.boot.run = some x → x.code = 4 → (isMaster w && s.dev.bit BOOT_CMD_STATUS_busy) = false →
    Completes (.updAbandon w) s [.hif] (fun a => a == BOOT_CMD_STATUS) fun t => bootTold t.dev w upSTATE 0 = true) ∧
  (∀ (w : Who) (ccA trng : Bool) (s : State), s.dev.inReset = false → s.dev.boot.run = none →
    ∃ t, exec (.restart w ccA trng) s = .next t ∧ t.pending = s.pending ∧ t.fuses.pend = [] ∧ t.dev.boot.started = true ∧ t.dev.inReset = false ∧
      exec (.porRelease ccA trng) { s with dev := porAssert s.dev } = .next t) ∧
  (∀ (j len : Nat) (x : BootRun) (c : Instr) (off : Nat) (data : List Byte) (buf : Option Nat) (stall : Option Nat) (restart : Bool) (s : State),
    s.dev.inReset = false → s.dev.boot.run = some x →
    c ∈ [.updBegin (.cmd j) len false, .updWrite (.cmd j) off len buf data stall, .updVerify (.cmd j), .updActivate (.cmd j) restart stall, .restart (.cmd j) true true] →
    Completes c s [.hif] (fun _ => false) fun t => bootTold t.dev (.cmd j) upBUSY 0 = true) ∧
  (∀ (x : BootRun) (s : State), s.dev.inReset = false → s.dev.boot.run = some x → x.code ≠ 4 →
    Completes (.flashProgramTimeout true) s [.boot, .hif] (fun a => a == BOOT_CMD_STATUS) fun t => bootTold t.dev x.who upFLASH 0 = true ∧ t.dev.boot = { s.dev.boot with run := none }) ∧
  (∀ (w : Who) (len : Nat) (s : State), s.dev.inReset = false → s.dev.boot.run = some ⟨w, 1, [len], [], 0⟩ →
    Completes (.flashProgramTimeout false) s [.boot, .hif] (fun a => a == BOOT_CMD_STATUS || a == BOOT_STAGED_OFS) fun t => bootTold t.dev w upOK 0 = true ∧
      t.dev.boot = { s.dev.boot with run := none, download := some (len, 0), open_ := true } ∧ t.dev.reg BOOT_STAGED_OFS = 0) ∧
  (∀ (x : BootRun) (s : State), s.dev.inReset = false → s.dev.boot.run = some x → x.code ≠ 4 →
    Completes (.flashEraseTimeout true) s [.boot, .hif] (fun a => a == BOOT_CMD_STATUS) fun t => bootTold t.dev x.who upFLASH 0 = true ∧ t.dev.boot = { s.dev.boot with run := none }) ∧
  (∀ (w : Who) (len : Nat) (s : State), s.dev.inReset = false → s.dev.boot.run = some ⟨w, 1, [len], [], 0⟩ →
    Completes (.flashEraseTimeout false) s [.boot, .hif] (fun a => a == BOOT_CMD_STATUS || a == BOOT_STAGED_OFS) fun t => bootTold t.dev w upOK 0 = true ∧
      t.dev.boot = { s.dev.boot with run := none, download := some (len, 0), open_ := true } ∧ t.dev.reg BOOT_STAGED_OFS = 0) ∧
  (∀ (x : BootRun) (s : State), s.dev.inReset = false → s.dev.boot.run = some x → (x.code = 2 ∨ x.code = 8) →
    Completes .hostReadTimeout s [.boot, .hif] (fun a => a == BOOT_CMD_STATUS) fun t => bootTold t.dev x.who upTIMEOUT 0 = true ∧ t.dev.boot = { s.dev.boot with run := none })

/-- SET_WRITE of the Control Complex puts a record under the running bundle's namespace and key in place of any other of that key; SET_ERASE_NS
removes the records of a namespace that ACTIVE and PREVIOUS do not declare, in CONFIRMED alone, else NS_LOCKED. SNAP_NOW and a due base
image are captured with the next seq when they fit beside the newest, else skipped with base_skipped; so are counter images, whose
completion moves the reservations of every node; one not complete in time is abandoned. BREW_READY reaches Full Brew when the scan is
complete, else it waits for it. A trial that has not reached Full Brew, or not been confirmed, in time falls back and restarts. So each of
these completes under the conditions given, exec answering a next state: SET_WRITE, SET_ERASE_NS, SNAP_NOW, BREW_READY, TRIAL_BREW_TIMEOUT,
TRIAL_CONFIRM_TIMEOUT, BASE_IMAGE_CAPTURE, COUNTER_IMAGE_CAPTURE, IMAGE_WRITE_DONE, COUNTER_IMAGE_TIMEOUT. The model's own choices it rests
on: log entries 10, 20, 82. (R366, R399, R403, R404, R408, R413, R414, R415) -/
def Obligations.SettingsSnapshotsAndTrial : Prop :=
  (∀ (b : Bool) (key len used : Nat) (data : List Byte) (s : State), s.dev.inReset = false → s.dev.boot.run = none → 2 ≤ s.dev.stage → len ≤ 4080 → key ≤ 65535 → settingsRoom s.dev len = some used →
    Completes (.setWrite (.master (.cc b)) key len none data false) s [.boot] (fun a => a == BOOT_CMD_STATUS) fun t => bootTold t.dev (.master (.cc b)) upOK 0 = true ∧
      t.dev.boot = { s.dev.boot with settingsUsed := used, settings := (s.dev.boot.settings.filter fun x =>
        !(x.ns == bnNs (runningBundle s.dev) && x.key == key)) ++ [⟨bnNs (runningBundle s.dev), key, fit len data⟩] }) ∧
  (∀ (b : Bool) (ns : Nat) (s : State), s.dev.inReset = false → s.dev.boot.run = none → (confNow s.dev).state = cfCONFIRMED →
    (∀ k, k ∈ [0, 2] → bundleArea s.dev k = [] ∨ bnNs (bundleArea s.dev k) ≠ ns) →
    Completes (.setEraseNs (.master (.cc b)) ns false) s [.boot] (fun a => a == BOOT_CMD_STATUS) fun t => bootTold t.dev (.master (.cc b)) upOK 0 = true ∧
      t.dev.boot.settings = (s.dev.boot.settings.filter fun x => x.ns != ns) ∧ t.dev.boot.conf = s.dev.boot.conf) ∧
  (∀ (b st : Bool) (ns : Nat) (s : State), s.dev.inReset = false → s.dev.boot.run = none →
    ((confNow s.dev).state ≠ cfCONFIRMED ∨ (bundleArea s.dev 0 ≠ [] ∧ bnNs (bundleArea s.dev 0) = ns)) →
    Completes (.setEraseNs (.master (.cc b)) ns st) s [] (fun a => a == BOOT_CMD_STATUS) fun t => bootTold t.dev (.master (.cc b)) upNS_LOCKED 0 = true) ∧
  (∀ (w : Who) (s : State), s.dev.inReset = false → s.dev.boot.run = none → 2 ≤ s.dev.stage → s.dev.boot.baseWriting = none →
    ((s.dev.boot.base.map baseLength).getD 0) + baseLength (baseNow s.dev (s.dev.boot.imageSeq + 1)) ≤ areaSize s.dev 5 →
    Completes (.snapNow w) s [.boot, .hif] (fun a => a == BOOT_CMD_STATUS || a == BOOT_SNAP_STATUS) fun t => bootTold t.dev w upOK 0 = true ∧
      t.dev.boot = { s.dev.boot with baseWriting := some (baseNow s.dev (s.dev.boot.imageSeq + 1)), imageSeq := s.dev.boot.imageSeq + 1 } ∧
      t.dev.fld BOOT_SNAP_STATUS_writing = 1 ∧ t.dev.fld BOOT_SNAP_STATUS_base_skipped = 0) ∧
  (∀ (w : Who) (s : State), s.dev.inReset = false → s.dev.boot.run = none → 2 ≤ s.dev.stage → s.dev.boot.baseWriting = none →
    areaSize s.dev 5 < ((s.dev.boot.base.map baseLength).getD 0) + baseLength (baseNow s.dev (s.dev.boot.imageSeq + 1)) →
    Completes (.snapNow w) s ([.hif] ++ noteParts) (fun a => a == BOOT_CMD_STATUS || a == BOOT_SNAP_STATUS || noteRegs a) fun t =>
      bootTold t.dev w upNO_ROOM 0 = true ∧ t.dev.fld BOOT_SNAP_STATUS_base_skipped = 1) ∧
  (∀ s : State, s.dev.inReset = false → 2 ≤ s.dev.stage → s.dev.boot.baseWriting = none → s.dev.boot.base.any (sameTables (baseNow s.dev 0)) = false →
    ((s.dev.boot.base.map baseLength).getD 0) + baseLength (baseNow s.dev (s.dev.boot.imageSeq + 1)) ≤ areaSize s.dev 5 →
    Completes .baseImageCapture s [.boot] (fun a => a == BOOT_SNAP_STATUS) fun t => t.dev.fld BOOT_SNAP_STATUS_writing = 1 ∧
      t.dev.boot = { s.dev.boot with baseWriting := some (baseNow s.dev (s.dev.boot.imageSeq + 1)), imageSeq := s.dev.boot.imageSeq + 1 }) ∧
  (∀ s : State, s.dev.inReset = false → 2 ≤ s.dev.stage → s.dev.boot.counterWriting = none →
    ((s.dev.boot.counter.map counterLength).getD 0) + counterLength (counterNow s.dev (s.dev.boot.imageSeq + 1)) ≤ areaSize s.dev 6 →
    Completes .counterImageCapture s [.boot] (fun a => a == BOOT_SNAP_STATUS) fun t => t.dev.fld BOOT_SNAP_STATUS_writing = 1 ∧ t.dev.fld BOOT_SNAP_STATUS_counter_skipped = 0 ∧
      t.dev.boot = { s.dev.boot with counterWriting := some (counterNow s.dev (s.dev.boot.imageSeq + 1)), imageSeq := s.dev.boot.imageSeq + 1 }) ∧
  (∀ (b : BaseImage) (s : State), s.dev.inReset = false → s.dev.boot.baseWriting = some b →
    Completes (.imageWriteDone false) s [.boot] (fun a => a == BOOT_SNAP_STATUS || a == BOOT_SNAP_CNT) fun t =>
      t.dev.boot = { s.dev.boot with base := some b, baseWriting := none } ∧ t.dev.fld BOOT_SNAP_STATUS_writing = b2n s.dev.boot.counterWriting.isSome ∧
      t.dev.fld BOOT_SNAP_CNT_base = min (s.dev.fld BOOT_SNAP_CNT_base + 1) BOOT_SNAP_CNT_base.max) ∧
  (∀ (c : CounterImage) (s : State), s.dev.inReset = false → s.dev.boot.counterWriting = some c →
    Completes (.imageWriteDone true) s [.boot, .tbl] (fun a => a == BOOT_SNAP_STATUS || a == BOOT_SNAP_CNT) fun t =>
      t.dev.boot = { s.dev.boot with counter := some c, counterWriting := none, restoreHeld := false } ∧
      t.dev.fld BOOT_SNAP_CNT_counter = min (s.dev.fld BOOT_SNAP_CNT_counter + 1) BOOT_SNAP_CNT_counter.max) ∧
  (∀ s : State, s.dev.inReset = false → s.dev.boot.counterWriting.isSome = true →
    Completes .counterImageTimeout s ([.boot] ++ noteParts) (fun a => a == BOOT_SNAP_STATUS || noteRegs a) fun t => t.dev.boot = { s.dev.boot with counterWriting := none } ∧
      t.dev.fld BOOT_SNAP_STATUS_counter_skipped = 1 ∧ t.dev.fld BOOT_SNAP_STATUS_writing = b2n s.dev.boot.baseWriting.isSome) ∧
  (∀ (b : Bool) (s : State), s.dev.inReset = false → s.dev.boot.run = none → s.dev.stage = 2 → s.dev.boot.brewReady = false → s.dev.boot.scanned = false →
    Completes (.brewReady (.master (.cc b))) s [.boot] (fun a => a == BOOT_CMD_STATUS) fun t => bootTold t.dev (.master (.cc b)) upOK 0 = true ∧
      t.dev.boot = { s.dev.boot with brewReady := true }) ∧
  (∀ (b : Bool) (s : State), s.dev.inReset = false → s.dev.boot.run = none → s.dev.stage = 2 → s.dev.boot.brewReady = false → s.dev.boot.scanned = true →
    ∃ t, exec (.brewReady (.master (.cc b))) s = .next t ∧ bootTold t.dev (.master (.cc b)) upOK 0 = true ∧ t.dev.stage = 3 ∧
      t.fuses = s.fuses ∧ t.pending = s.pending ∧ t.dev.boot.brewReady = true) ∧
  (∀ s : State, s.dev.inReset = false → s.dev.boot.trial = true → s.dev.stage < 3 → ConfSlots s.dev → s.dev.boot.act = none →
    ∃ t, exec .trialBrewTimeout s = .next t ∧ (confNow t.dev).state = cfFALLEN_BACK ∧ t.dev.boot.started = true ∧ t.dev.inReset = false ∧ t.pending = s.pending) ∧
  (∀ s : State, s.dev.inReset = false → s.dev.boot.trial = true → s.dev.stage = 3 → ConfSlots s.dev → s.dev.boot.act = none →
    ∃ t, exec .trialConfirmTimeout s = .next t ∧ (confNow t.dev).state = cfFALLEN_BACK ∧ t.dev.boot.started = true ∧ t.dev.inReset = false ∧ t.pending = s.pending)

/-- A complex that is ACTIVE or STANDBY posts an item behind its others, free unless its tag holds it back; RES_GATE_TAG sets its tag,
RES_JRNL_STEP frees the items of the tag, the 4,097th item is a mismatch. At a window close whose digests are equal the active's items reach
their registers and the standby's are dropped, else a mismatch begins; with counts apart the gate waits; alone, the active's items are
released, counted uncompared. A late complex is a mismatch. The tests then decide, with no tamper response waiting: a complex that fails is
isolated (TESTING), the active with a failover, the items released from the one that passed; both passing, the standby is resynchronised;
both failing, it is isolated with an alarm. A bad CRC-16 isolates its complex. An isolation is taken for the next close when the other is
STANDBY; a due swap and an ended hold-off are noted for it. A full test that passes leads to SYNCING, one that fails to ISOLATED, counted;
an ISOLATED complex is tested again on its timer, at most 6 times, or on request; a resynchronisation that completes makes it STANDBY with
the active's items and tag. So each of these completes under the conditions given, exec answering a next state: COMMIT_POST,
GATE_WINDOW_CLOSE, GATE_LAG_TIMEOUT, MISMATCH_TEST_DONE, PATH_CHECK_FAIL, RESYNC_DONE, CC_TEST_DONE, CC_RETEST_TIMER, CC_RETEST, CC_ISOLATE,
SWAP_DUE, TAKEBACK_HOLDOFF_EXPIRY. The model's own choices it rests on: log entries 10, 20, 87, 88, 89. (R419, R420, R421, R422, R423, R424,
R426, R427, R428) -/
def Obligations.CommitGate : Prop :=
  (∀ (k addr data type : Nat) (secure : Bool) (s : State), s.dev.inReset = false → k < 2 → ccState s.dev k ∈ [ccACTIVE, ccSTANDBY] → s.dev.res.gate.mismatch = none →
    s.dev.res.gate.lag = none → addr ≠ RES_GATE_TAG → addr ≠ RES_JRNL_STEP → (s.dev.cc k).items.length < 4096 →
    Completes (.commitPost k secure addr data type) s [.res] (fun _ => false) fun t =>
      t.dev.cc k = { s.dev.cc k with items := (s.dev.cc k).items ++ [⟨addr, data % 2 ^ 128, (s.dev.cc k).tag, type % 65536, secure, (s.dev.cc k).tag == 0, s.dev.ns⟩] } ∧
      t.dev.cc (1 - k) = s.dev.cc (1 - k) ∧ t.dev.res = { s.dev.res with gate := { s.dev.res.gate with a := t.dev.res.gate.a, b := t.dev.res.gate.b } }) ∧
  (∀ (k data type : Nat) (secure : Bool) (s : State), s.dev.inReset = false → k < 2 → ccState s.dev k ∈ [ccACTIVE, ccSTANDBY] → s.dev.res.gate.mismatch = none →
    Completes (.commitPost k secure RES_GATE_TAG data type) s [.res] (fun _ => false) fun t =>
      t.dev.cc k = { s.dev.cc k with tag := data % 65536 } ∧ t.dev.cc (1 - k) = s.dev.cc (1 - k)) ∧
  (∀ (k data type : Nat) (secure : Bool) (s : State), s.dev.inReset = false → k < 2 → ccState s.dev k ∈ [ccACTIVE, ccSTANDBY] → s.dev.res.gate.mismatch = none →
    s.dev.res.gate.lag = none → (s.dev.cc k).items.length < 4096 →
    Completes (.commitPost k secure RES_JRNL_STEP data type) s [.res] (fun _ => false) fun t =>
      (t.dev.cc k).items = ((s.dev.cc k).items.map fun i => if i.tag == data % 65536 && !i.free then { i with free := true, since := s.dev.ns } else i) ++
        [⟨RES_JRNL_STEP, data % 2 ^ 128, (s.dev.cc k).tag, type % 65536, secure, true, s.dev.ns⟩] ∧ t.dev.cc (1 - k) = s.dev.cc (1 - k)) ∧
  (∀ (k addr data type : Nat) (secure : Bool) (s : State), s.dev.inReset = false → k < 2 → ccState s.dev k ∈ [ccACTIVE, ccSTANDBY] → s.dev.res.gate.mismatch = none →
    addr ≠ RES_GATE_TAG → 4096 ≤ (s.dev.cc k).items.length →
    Completes (.commitPost k secure addr data type) s [.res] (fun a => a == RES_GATE_CNT) fun t =>
      (t.dev.res.gate.mismatch.map (·.cause)) = some gcOVERFLOW ∧ t.dev.cc 0 = s.dev.cc 0 ∧ t.dev.cc 1 = s.dev.cc 1 ∧
      t.dev.fld RES_GATE_CNT_mismatch = min (s.dev.fld RES_GATE_CNT_mismatch + 1) RES_GATE_CNT_mismatch.max) ∧
  (∀ (a b : Nat) (i j : Item) (s : State), s.dev.inReset = false → pairCc s.dev = some (a, b) → s.dev.res.gate.mismatch = none → s.dev.res.gate.lag = none →
    s.dev.hif.itemReads = [] → s.dev.res.gate.isolate = none → s.dev.res.gate.failover = false → s.dev.res.gate.swapDue = false → (s.dev.cc a).items = [i] → (s.dev.cc b).items = [j] →
    i.free = true → j.free = true → i.addr = TIM_TB_SEL → digest [i] = digest [j] →
    Completes .gateWindowClose s [.res] (fun r => r == TIM_TB_SEL || r == RES_GATE_LAT) fun t => (t.dev.cc a).items = [] ∧ (t.dev.cc b).items = [] ∧
      t.dev.fld TIM_TB_SEL_tb = i.data % 8 ∧ t.dev.res.gate.mismatch = none) ∧
  (∀ (a b n : Nat) (s : State), s.dev.inReset = false → pairCc s.dev = some (a, b) → s.dev.res.gate.mismatch = none → s.dev.res.gate.lag = none →
    (s.dev.cc a).freeItems.length = n → (s.dev.cc b).freeItems.length = n →
    ∃ t, exec .gateWindowClose s = .next t ∧ (digest (takeFree n (s.dev.cc a).items).1 ≠ digest (takeFree n (s.dev.cc b).items).1 →
      t.dev.res.gate.mismatch = some ⟨gcDIGEST, n⟩ ∧ t.dev.cc 0 = s.dev.cc 0 ∧ t.dev.cc 1 = s.dev.cc 1 ∧ Frame [.res] (fun r => r == RES_GATE_CNT) s t)) ∧
  (∀ (a b : Nat) (s : State), s.dev.inReset = false → pairCc s.dev = some (a, b) → s.dev.res.gate.mismatch = none → s.dev.res.gate.lag = none →
    (s.dev.cc a).freeItems.length ≠ (s.dev.cc b).freeItems.length →
    Completes .gateWindowClose s [.res] (fun _ => false) fun t =>
      t.dev.res = { s.dev.res with gate := { s.dev.res.gate with lag := some (max (s.dev.cc a).freeItems.length (s.dev.cc b).freeItems.length) } }) ∧
  (∀ (a : Nat) (i : Item) (s : State), s.dev.inReset = false → activeCc s.dev = some a → pairCc s.dev = none → s.dev.res.gate.mismatch = none → s.dev.res.gate.lag = none →
    s.dev.hif.itemReads = [] → s.dev.res.gate.isolate = none → (s.dev.cc a).items = [i] → i.free = true → i.addr = TIM_TB_SEL →
    Completes .gateWindowClose s [.res] (fun r => r == TIM_TB_SEL || r == RES_GATE_LAT || r == RES_GATE_CNT || r == RES_STATUS) fun t =>
      (t.dev.cc a).items = [] ∧ t.dev.fld TIM_TB_SEL_tb = i.data % 8 ∧ t.dev.fld RES_STATUS_uncovered = 1 ∧
      t.dev.fld RES_GATE_CNT_uncompared = min (s.dev.fld RES_GATE_CNT_uncompared + 1) RES_GATE_CNT_uncompared.max) ∧
  (∀ (n : Nat) (s : State), s.dev.inReset = false → s.dev.res.gate.lag = some n →
    Completes .gateLagTimeout s [.res] (fun r => r == RES_GATE_CNT) fun t => t.dev.res.gate.mismatch = some ⟨gcLAG, n⟩ ∧ t.dev.res.gate.lag = none ∧
      t.dev.cc 0 = s.dev.cc 0 ∧ t.dev.cc 1 = s.dev.cc 1) ∧
  (∀ (a b : Nat) (pa pb : Bool) (x : Mismatch) (i : Item) (s : State), s.dev.inReset = false → s.dev.res.gate.mismatch = some x → s.dev.res.gate.tampers = [] → pairCc s.dev = some (a, b) →
    (if a = 0 then pa else pb) = false → (if b = 0 then pa else pb) = true → x.n = 1 → (s.dev.cc b).items = [i] → i.free = true → i.addr = TIM_TB_SEL →
    s.dev.res.func.disabled = [] → s.dev.hif.itemReads = [] →
    Completes (.mismatchTestDone pa pb) s ([.res] ++ noteParts) (fun r => r == TIM_TB_SEL || r == RES_CC_STATE || r == RES_STATUS || r == RES_GATE_LAST || noteRegs r) fun t =>
      ccState t.dev a = ccTESTING ∧ ccState t.dev b = ccACTIVE ∧ t.dev.res.gate.mismatch = none ∧ (t.dev.cc a).items = [] ∧ (t.dev.cc b).items = [] ∧
      t.dev.fld TIM_TB_SEL_tb = i.data % 8 ∧ t.dev.fld RES_GATE_LAST_outcome = 1 ∧ t.dev.res.gate.failover = (a == 0)) ∧
  (∀ (a b : Nat) (pa pb : Bool) (x : Mismatch) (s : State), s.dev.inReset = false → s.dev.res.gate.mismatch = some x → s.dev.res.gate.tampers = [] → pairCc s.dev = some (a, b) →
    (if a = 0 then pa else pb) = true → x.n = 0 → s.dev.res.func.disabled = [] → s.dev.hif.itemReads = [] →
    Completes (.mismatchTestDone pa pb) s ([.res] ++ noteParts) (fun a => a == RES_CC_STATE || a == RES_STATUS || a == RES_GATE_LAST || noteRegs a) fun t =>
      ccState t.dev a = ccACTIVE ∧ ccState t.dev b = (if (if b = 0 then pa else pb) = true then ccSYNCING else ccTESTING) ∧ t.dev.res.gate.mismatch = none ∧
      t.dev.cc a = s.dev.cc a ∧ t.dev.cc b = ⟨(s.dev.cc b).mem, [], 0, 0⟩ ∧ t.dev.fld RES_GATE_LAST_outcome = (if (if b = 0 then pa else pb) = true then 3 else 2) ∧
      t.dev.fld RES_STATUS_uncovered = 1) ∧
  (∀ (a b : Nat) (x : Mismatch) (s : State), s.dev.inReset = false → s.dev.res.gate.mismatch = some x → s.dev.res.gate.tampers = [] → pairCc s.dev = some (a, b) → x.n = 0 → s.dev.res.func.disabled = [] → s.dev.hif.itemReads = [] →
    Completes (.mismatchTestDone false false) s ([.res] ++ noteParts) (fun a => a == RES_CC_STATE || a == RES_STATUS || a == RES_GATE_LAST || noteRegs a) fun t =>
      ccState t.dev a = ccACTIVE ∧ ccState t.dev b = ccTESTING ∧ t.dev.res.gate.mismatch = none ∧ t.dev.fld RES_GATE_LAST_outcome = 4) ∧
  (∀ (k : Nat) (s : State), s.dev.inReset = false → k < 2 → ccState s.dev (1 - k) = ccSTANDBY → activeCc s.dev = some k → s.dev.res.func.disabled = [] →
    Completes (.pathCheckFail k) s ([.res] ++ noteParts) (fun a => a == RES_CC_STATE || a == RES_STATUS || a == RES_GATE_LAST || a == RES_GATE_CNT || noteRegs a) fun t =>
      ccState t.dev k = ccTESTING ∧ ccState t.dev (1 - k) = ccACTIVE ∧ t.dev.fld RES_GATE_LAST_outcome = 5 ∧ t.dev.fld RES_GATE_LAST_cause = gcPATH) ∧
  (∀ (k : Nat) (s : State), s.dev.inReset = false → k < 2 → ccState s.dev (1 - k) = ccSTANDBY →
    Completes (.ccIsolate k) s [.res] (fun a => a == RES_CC_CTRL) fun t => t.dev.res = { s.dev.res with gate := { s.dev.res.gate with isolate := some k } }) ∧
  (∀ (k : Nat) (s : State), s.dev.inReset = false → k < 2 → ccState s.dev (1 - k) ≠ ccSTANDBY →
    Completes (.ccIsolate k) s [] (fun a => a == RES_CC_CTRL || a == RES_GATE_LAST) fun t => t.dev.fld RES_GATE_LAST_outcome = 6) ∧
  (∀ s : State, s.dev.inReset = false → s.dev.stage = 3 → s.dev.fld RES_CTRL_swap_en = 1 → s.dev.res.gate.failover = false →
    Completes .swapDue s [.res] (fun _ => false) fun t => t.dev.res = { s.dev.res with gate := { s.dev.res.gate with swapDue := true } }) ∧
  (∀ s : State, s.dev.inReset = false → s.dev.res.gate.failover = true → ccState s.dev 0 = ccSTANDBY → s.dev.res.gate.holdoffDone = false →
    Completes .takebackHoldoffExpiry s [.res] (fun _ => false) fun t => t.dev.res = { s.dev.res with gate := { s.dev.res.gate with holdoffDone := true, boundary := takeBackAt s.dev } }) ∧
  (∀ (k : Nat) (pass : Bool) (s : State), s.dev.inReset = false → k < 2 → ccState s.dev k = ccTESTING →
    Completes (.ccTestDone k pass) s [] (fun a => a == RES_CC_STATE) fun t => ccState t.dev k = (if pass then ccSYNCING else ccISOLATED) ∧
      t.dev.fld (ccTests k) = (if pass then s.dev.fld (ccTests k) else min (s.dev.fld (ccTests k) + 1) 255) ∧ ccState t.dev (1 - k) = ccState s.dev (1 - k)) ∧
  (∀ (k : Nat) (s : State), s.dev.inReset = false → k < 2 → ccState s.dev k = ccISOLATED → s.dev.res.func.disabled = [] → (s.dev.cc k).retests < 6 → s.dev.hif.crossing = [] →
    Completes (.ccRetestTimer k) s [.res] (fun a => a == RES_CC_STATE) fun t => ccState t.dev k = ccTESTING ∧
      t.dev.cc k = { s.dev.cc k with retests := (s.dev.cc k).retests + 1 } ∧ ccState t.dev (1 - k) = ccState s.dev (1 - k)) ∧
  (∀ (k : Nat) (s : State), s.dev.inReset = false → k < 2 → ccState s.dev k = ccISOLATED → 6 ≤ (s.dev.cc k).retests →
    exec (.ccRetestTimer k) s = .next s) ∧
  (∀ (k : Nat) (s : State), s.dev.inReset = false → k < 2 → ccState s.dev k = ccISOLATED → s.dev.res.func.disabled = [] →
    Completes (.ccRetest k) s [.hif, .draws, .rdata] (fun a => a == RES_CC_STATE || a == RES_CC_CTRL) fun t => ccState t.dev k = ccTESTING) ∧
  (∀ (k a : Nat) (s : State), s.dev.inReset = false → k < 2 → activeCc s.dev = some a → ccState s.dev k = ccSYNCING →
    Completes (.resyncDone k) s [.res] (fun a => a == RES_CC_STATE || a == RES_STATUS) fun t => ccState t.dev k = ccSTANDBY ∧ ccState t.dev a = ccACTIVE ∧
      t.dev.cc k = { s.dev.cc a with retests := 0 } ∧ t.dev.cc a = s.dev.cc a ∧ t.dev.fld (ccTests k) = 0 ∧ t.dev.fld RES_STATUS_uncovered = 0)

/-- Firmware's open writes an OPEN record of its tag, refused while the tag is open; a step counts in it, a close ends it. A fetch from the ring
shows its record at once, one from flash is busy until it completes. An ECC error is logged and counted; an uncorrectable table word is
poisoned and its row copied to a spare. A row or bank copy that completes puts the spare in place, with a repair record. The rotation tests
a STOPPED Caddy at once, a fenced one when it is idle, defers it when it is not in time; a passed slice moves on, a first failure reruns. A
function out of range ends RANGE; an engine and a Trellis Unit pass through DRAINING to DISABLED and back. A burn appends a fuse record;
power lost in it leaves it to complete. A power-domain fault takes the PCI Express link down. So each of these completes under the
conditions given, exec answering a next state: JRNL_OPEN, JRNL_STEP, JRNL_CLOSE, SPARE_CADDY_TEST_DONE, ROW_REPAIR_DONE, BANK_REPAIR_DONE,
BIST_SLICE_START, BIST_FENCE_IDLE, BIST_FENCE_TIMEOUT, BIST_SLICE_END, FUNC_DISABLE, FUNC_ENABLE, FUNC_DRAIN_END, REPAIR_BURN,
REPAIR_LOG_TIMEOUT, JRNL_FETCH, JRNL_FETCH_DONE, RES_CNT_CLEAR, POWER_DOMAIN_FAULT, ECC_ERROR, SCRUB_READ. The model's own choices it rests
on: log entries 10, 20, 22, 30, 49, 91, 92, 93, 94, 114. (R27, R429, R430, R432, R433, R435, R436, R437, R439, R440, R442, R444) -/
def Obligations.JournalRepairsAndSelfTest : Prop :=
  (∀ (w : Word) (s : State), s.dev.inReset = false → jTag s.dev ((s.dev.reg (RES_JRNL_OPENm 0)).toNat % 65536) = none → fwOpen s.dev < 64 →
    Completes (.jrnlOpen w) s noteParts (fun a => a == RES_JRNL_OPENm 3 || noteRegs a) fun t =>
      (∃ r, t.dev.jrnl.ring.getLast? = some r ∧ r.seq = s.dev.jrnl.next ∧ r.outcome = jOPEN ∧ r.origin = 1 ∧ r.done = 0 ∧
        r.tag = some ((s.dev.reg (RES_JRNL_OPENm 0)).toNat % 65536) ∧ r.total = (s.dev.reg (RES_JRNL_OPENm 0)).toNat / 65536 ∧
        r.kind = (s.dev.reg (RES_JRNL_OPENm 1)).toNat % 256 ∧ r.opId = (s.dev.reg (RES_JRNL_OPENm 2)).toNat + 2 ^ 32 * w.toNat)) ∧
  (∀ (w : Word) (s : State), s.dev.inReset = false → (jTag s.dev ((s.dev.reg (RES_JRNL_OPENm 0)).toNat % 65536)).isSome = true →
    Completes (.jrnlOpen w) s [] (fun a => a == RES_JRNL_OPENm 3 || a == RES_JRNL_STATUS) fun t =>
      t.dev.fld RES_JRNL_STATUS_refused = min (s.dev.fld RES_JRNL_STATUS_refused + 1) RES_JRNL_STATUS_refused.max) ∧
  (∀ (tag : Nat) (r : JRec) (s : State), s.dev.inReset = false → jTag s.dev tag = some r → (∀ x ∈ s.dev.jrnl.ring, x.seq = r.seq → x = r) →
    Completes (.jrnlStep tag) s noteParts noteRegs fun t => t.dev.jrnl.ring = s.dev.jrnl.ring.map fun x => if x = r then { r with done := r.done + 1, tUpd := s.dev.ms % 2 ^ 32 } else x) ∧
  (∀ (w : Word) (r : JRec) (s : State), s.dev.inReset = false → jTag s.dev (getBits w 15 0) = some r → (∀ x ∈ s.dev.jrnl.ring, x.seq = r.seq → x = r) → within (getBits w 23 16) 1 4 = true →
    Completes (.jrnlClose w) s noteParts noteRegs fun t => t.dev.jrnl.ring = s.dev.jrnl.ring.map fun x =>
      if x = r then { r with outcome := getBits w 23 16, cause := getBits w 31 24, tag := none, tUpd := s.dev.ms % 2 ^ 32 } else x) ∧
  (∀ (q : Nat) (r : JRec) (s : State), s.dev.inReset = false → s.dev.jrnl.ring.find? (fun x => x.seq == q) = some r →
    Completes (.jrnlFetch q) s [.res] (fun a => a == RES_JRNL_SEL || a == RES_JRNL_STATUS || decide (RES_JRNL_RECm 0 ≤ a ∧ a < RES_JRNL_RECm 8)) fun t => t.dev.fld RES_JRNL_STATUS_found = 1 ∧ t.dev.fld RES_JRNL_STATUS_busy = 0 ∧
      ∀ m, m < 8 → t.dev.reg (RES_JRNL_RECm m) = BitVec.ofNat 32 (field r.bytes (4 * m) 4)) ∧
  (∀ (q : Nat) (s : State), s.dev.inReset = false → s.dev.jrnl.ring.find? (fun x => x.seq == q) = none →
    Completes (.jrnlFetch q) s [.res] (fun a => a == RES_JRNL_SEL || a == RES_JRNL_STATUS || decide (RES_JRNL_RECm 0 ≤ a ∧ a < RES_JRNL_RECm 8)) fun t => t.dev.fld RES_JRNL_STATUS_found = 0 ∧ t.dev.fld RES_JRNL_STATUS_busy = 1 ∧ t.dev.res.fetching = some q) ∧
  (∀ (q : Nat) (r : JRec) (s : State), s.dev.inReset = false → s.dev.res.fetching = some q → Tab.find s.dev.jrnl.mirror q = some r →
    Completes .jrnlFetchDone s [.res] (fun a => a == RES_JRNL_SEL || a == RES_JRNL_STATUS || decide (RES_JRNL_RECm 0 ≤ a ∧ a < RES_JRNL_RECm 8)) fun t => t.dev.fld RES_JRNL_STATUS_found = 1 ∧ t.dev.fld RES_JRNL_STATUS_busy = 0 ∧ t.dev.res.fetching = none ∧
      ∀ m, m < 8 → t.dev.reg (RES_JRNL_RECm m) = BitVec.ofNat 32 (field r.bytes (4 * m) 4)) ∧
  (∀ (mem array row col at_ : Nat) (s : State), s.dev.inReset = false → mem < 5 → s.dev.res.errors = [] →
    Completes (.eccError mem array row col false at_) s [.res] (fun a => a == RES_SRAM_CNT) fun t =>
      t.dev.res = { s.dev.res with errors := [⟨mem * 65536 + array, row, col, s.dev.secs, false, if mem = 0 then some (at_ / 0x100000) else none⟩] } ∧
      t.dev.fld RES_SRAM_CNT_corrected = min (s.dev.fld RES_SRAM_CNT_corrected + 1) RES_SRAM_CNT_corrected.max) ∧
  (∀ (array row col at_ : Nat) (s : State), s.dev.inReset = false → s.dev.res.errors = [] → s.dev.res.rowCopies = [] → s.dev.tbl.poison = [] → sparesUsed s.dev array false < 8 →
    Completes (.eccError 0 array row col true at_) s [.res, .tbl] (fun a => a == RES_SRAM_CNT) fun t => t.dev.tbl = { s.dev.tbl with poison := [at_ - at_ % 8] } ∧
      t.dev.res.rowCopies = [⟨array, false, row, sparesUsed s.dev array false⟩] ∧
      t.dev.fld RES_SRAM_CNT_uncorrectable = min (s.dev.fld RES_SRAM_CNT_uncorrectable + 1) RES_SRAM_CNT_uncorrectable.max) ∧
  (∀ s : State, s.dev.inReset = false → s.dev.res.scrub + 1 < scrubWords →
    Completes .scrubRead s [.res] (fun _ => false) fun t => t.dev.res = { s.dev.res with scrub := s.dev.res.scrub + 1 }) ∧
  (∀ (array index spare : Nat) (column : Bool) (s : State), s.dev.inReset = false → s.dev.res.rowCopies = [⟨array, column, index, spare⟩] → s.dev.res.log.length < 8192 →
    Completes (.rowRepairDone array column index) s ([.res] ++ noteParts) (fun a => a == RES_SRAM_CNT || noteRegs a) fun t => t.dev.res.rowCopies = [] ∧
      t.dev.res.log = s.dev.res.log ++ [⟨s.dev.res.nextSeq, if column then 2 else 1, false, array, index, spare, s.dev.secs % 2 ^ 32⟩] ∧
      t.dev.fld RES_SRAM_CNT_repaired = min (s.dev.fld RES_SRAM_CNT_repaired + 1) RES_SRAM_CNT_repaired.max) ∧
  (∀ (bank b : Nat) (s : State), s.dev.inReset = false → Tab.find s.dev.res.bankCopies bank = some b →
    Completes (.bankRepairDone bank) s ([.res] ++ noteParts) noteRegs fun t => Tab.find t.dev.res.bankMap bank = some b ∧
      Tab.find t.dev.res.bankCopies bank = none ∧ (t.dev.res.log.getLast?.any fun r => r.kind == 3 && r.unit == bank && r.replacement == b) = true) ∧
  (∀ (c : Nat) (s : State), s.dev.inReset = false → 3 ≤ s.dev.stage → s.dev.bistOn = true → s.dev.fld RES_CTRL_bist_run = 1 → s.dev.res.bist.current = none →
    s.dev.res.bist.pos < 34 → rotation s.dev s.dev.res.bist.pos = some c → c < 34 → (s.dev.caddy c).state = cdSTOPPED →
    Completes .bistSliceStart s [.res, .dsp] (fun a => a == RES_STATUS || a == RES_BIST_STATUS) fun t => t.dev.res.bist.current = some c ∧ t.dev.res.bist.inSlice = true ∧
      (t.dev.caddy c).state = cdBIST ∧ t.dev.fld RES_STATUS_bist_running = 1 ∧ t.dev.fld RES_BIST_STATUS_in_slice = 1 ∧ t.dev.fld RES_BIST_STATUS_caddy = c) ∧
  (∀ (c : Nat) (s : State), s.dev.inReset = false → s.dev.res.bist.current = some c → s.dev.res.bist.inSlice = false → (s.dev.caddy c).fenced = true → caddyIdle s.dev c = true →
    Completes .bistFenceIdle s [.res, .dsp] (fun a => a == RES_STATUS || a == RES_BIST_STATUS) fun t => t.dev.res.bist.current = some c ∧ t.dev.res.bist.inSlice = true ∧
      (t.dev.caddy c).state = cdBIST ∧ (t.dev.caddy c).fenced = false ∧ t.dev.fld RES_BIST_STATUS_in_slice = 1 ∧ t.dev.fld RES_BIST_STATUS_fenced = 0) ∧
  (∀ (c : Nat) (s : State), s.dev.inReset = false → s.dev.res.bist.current = some c → s.dev.res.bist.inSlice = false → s.dev.dsp.holding = [] →
    Completes .bistFenceTimeout s [.res, .dsp] (fun a => a == RES_STATUS || a == RES_BIST_STATUS || a == RES_BIST_CNT || a == DSP_STATUS) fun t => t.dev.res.bist.current = none ∧
      (t.dev.caddy c).fenced = false ∧ (t.dev.caddy c).state = (s.dev.caddy c).state ∧
      t.dev.fld RES_BIST_CNT_deferred = min (s.dev.fld RES_BIST_CNT_deferred + 1) RES_BIST_CNT_deferred.max) ∧
  (∀ (c part : Nat) (s : State), s.dev.inReset = false → s.dev.res.bist.current = some c → s.dev.res.bist.inSlice = true → s.dev.dsp.holding = [] →
    Completes (.bistSliceEnd true part) s [.res, .dsp] (fun a => a == RES_STATUS || a == RES_BIST_STATUS || a == DSP_STATUS) fun t => t.dev.res.bist.current = none ∧
      Tab.getD t.dev.res.bist.slices c 0 = (Tab.getD s.dev.res.bist.slices c 0 + 1) % 64 ∧ t.dev.res.bist.pos = (s.dev.res.bist.pos + 1) % 34 ∧
      (t.dev.caddy c).state = (if s.dev.res.bist.wasStopped then cdSTOPPED else if s.dev.res.bist.spare then cdSPARE else cdRUNNING)) ∧
  (∀ (c part : Nat) (s : State), s.dev.inReset = false → s.dev.res.bist.current = some c → s.dev.res.bist.inSlice = true → s.dev.res.bist.rerun = false →
    Completes (.bistSliceEnd false part) s [.res] (fun a => a == RES_BIST_CNT) fun t => t.dev.res.bist = { s.dev.res.bist with rerun := true } ∧
      t.dev.fld RES_BIST_CNT_failed = min (s.dev.fld RES_BIST_CNT_failed + 1) RES_BIST_CNT_failed.max) ∧
  (∀ (k c : Nat) (x : SpareTest) (s : State), s.dev.inReset = false → k < 34 → s.dev.res.spareTests = [x] → x.spare = k → (s.dev.caddy k).state = cdBIST →
    (List.range 34).find? (fun c => c != k && (s.dev.caddy c).logical == some x.logical) = some c → (s.dev.caddy c).state = cdDISABLED → s.dev.dsp.holding = [] →
    Completes (.spareCaddyTestDone k true) s ([.res, .dsp, .vault] ++ noteParts) (fun a => a == DSP_STATUS || noteRegs a) fun t =>
      (t.dev.caddy k).logical = some x.logical ∧ (t.dev.caddy k).state = cdRUNNING ∧ (t.dev.caddy k).roles = (s.dev.caddy c).roles ∧
      (t.dev.caddy c).logical = none ∧ t.dev.res.spareTests = []) ∧
  (∀ (w : Who) (cls i : Nat) (c : Instr) (s : State), s.dev.inReset = false → fnRange cls i = false → c ∈ [.funcDisable w cls i, .funcEnable w cls i] →
    Completes c s [.hif, .res] (fun a => a == RES_FUNC_STATUS) fun t => fnTold t.dev w fnRANGE cls i = true ∧ t.dev.res = s.dev.res) ∧
  (∀ (w : Who) (e : Nat) (s : State), s.dev.inReset = false → e < 544 → (s.dev.engine e).draining = false → (s.dev.engine e).disabled = false → (s.dev.engine e).prefetch = none →
    Completes (.funcDisable w 2 e) s [.hif, .res, .dsp] (fun a => a == RES_FUNC_STATUS) fun t => fnTold t.dev w fnOK 2 e = true ∧ fnState t.dev 2 e = 1) ∧
  (∀ (w : Who) (u : Nat) (s : State), s.dev.inReset = false → u < 68 → u ∈ s.dev.res.trellisOff → fnKey 5 u ∉ s.dev.res.func.draining →
    Completes (.funcEnable w 5 u) s [.hif, .res] (fun a => a == RES_FUNC_STATUS) fun t => fnTold t.dev w fnOK 5 u = true ∧ fnState t.dev 5 u = 0) ∧
  (∀ (u : Nat) (s : State), s.dev.inReset = false → u < 68 → fnKey 5 u ∈ s.dev.res.func.draining → fnKey 5 u ∉ s.dev.res.func.enabling → u ∈ s.dev.res.trellisOff →
    Completes (.funcDrainEnd 5 u) s [.res] (fun _ => false) fun t => fnState s.dev 5 u = 1 ∧ fnState t.dev 5 u = 2) ∧
  (∀ (w : Who) (q : Nat) (r : Repair) (s : State), s.dev.inReset = false → s.dev.res.log.find? (fun x => x.seq == q) = some r → r.kind ≠ 8 → r.unit < 2 ^ 20 → r.location < 2 ^ 16 →
    r.replacement < 2 ^ 16 → r.fused = false → repairWord r ∉ s.fuses.repairs → fusesUsed s.fuses < 256 → s.dev.res.log.length < 8192 →
    ∃ t, exec (.repairBurn w q false) s = .next t ∧ t.fuses = { s.fuses with repairs := s.fuses.repairs ++ [repairWord r] } ∧ repTold t.dev w rpOK = true ∧
      t.dev.res.log = s.dev.res.log ++ [{ r with seq := s.dev.res.nextSeq, fused := true, time := s.dev.secs % 2 ^ 32 }] ∧ t.pending = s.pending) ∧
  (∀ (w : Who) (q : Nat) (r : Repair) (s : State), s.dev.inReset = false → s.dev.res.log.find? (fun x => x.seq == q) = some r → r.kind ≠ 8 → r.unit < 2 ^ 20 → r.location < 2 ^ 16 →
    r.replacement < 2 ^ 16 → r.fused = false → repairWord r ∉ s.fuses.repairs → fusesUsed s.fuses < 256 →
    ∃ t, exec (.repairBurn w q true) s = .next t ∧ t.fuses = { s.fuses with pend := s.fuses.pend ++ [.repair (repairWord r)] } ∧ t.dev.inReset = true) ∧
  (∀ (r : Repair) (s : State), s.dev.inReset = false → s.dev.res.log.getLast? = some r →
    Completes .repairLogTimeout s ([.res] ++ noteParts) noteRegs fun t => t.dev.res = { s.dev.res with logLate := true }) ∧
  (∀ s : State, s.dev.inReset = false →
    Completes .resCntClear s [] (fun a => a ∈ [RES_GATE_CNT, RES_GATE_LAT, RES_BIST_CNT, RES_SRAM_CNT]) fun t =>
      t.dev.reg RES_GATE_CNT = 0 ∧ t.dev.reg RES_GATE_LAT = 0 ∧ t.dev.reg RES_BIST_CNT = 0 ∧ t.dev.reg RES_SRAM_CNT = 0) ∧
  (∀ s : State, s.dev.inReset = false → 200 ∉ s.dev.isolated →
    Completes (.powerDomainFault 200) s [.isolated] (fun a => a == HIF_STATUS) fun t => t.dev.isolated = 200 :: s.dev.isolated ∧ t.dev.fld HIF_STATUS_link_up = 0)

/-- A source of class 1 or 2 that firmware raises sets its two pending bits and writes the log record of its sequence number; a disabled one
changes nothing; one of class 0 takes a free shared entry of the alarm table with count 1 when none is keyed by its source and unit.
Clearing pending bits sends the vector's message exactly when an unmasked bit of it stays pending, unmasking a pending bit sends it, and
firmware's pending bits clear by themselves. An acknowledgement takes seen from count, frees the entry at 0, ends over with count 1, and is
ignored above count, by TEL_ALM_ACK and by the host's command, which ends OK. So each of these completes under the conditions given, exec
answering a next state: PENDING_CLEAR, MASK_WRITE, CCPEND_CLEAR, TEL_ALM_ACK, FW_RAISE, ALARM_ACK. The model's own choices it rests on: log
entries 10, 20, 97. (R446, R447, R448, R449, R450, R451, R452) -/
def Obligations.TelemetryEventsAndAlarms : Prop :=
  (∀ (fw unit : Nat) (s : State), s.dev.inReset = false → (sourceOf s.dev (248 + fw % 8)).enable = true →
    ((sourceOf s.dev (248 + fw % 8)).cls = 1 ∨ (sourceOf s.dev (248 + fw % 8)).cls = 2) →
    Tab.find s.dev.tel.logged ((248 + fw % 8) * 65536 + unit % 65536) = none →
    Completes (.fwRaise fw unit) s [.tel, .outs] noteRegs fun t =>
      t.dev.bit (pendFld (248 + fw % 8)) = true ∧ t.dev.bit (ccPendFld (248 + fw % 8)) = true ∧
      t.dev.reg TEL_LOG_SEQ = BitVec.ofNat 32 s.dev.tel.logNext ∧ t.dev.tel.alarms = s.dev.tel.alarms ∧
      t.dev.tel.log = (logRec s.dev (248 + fw % 8) (sourceOf s.dev (248 + fw % 8)).cls (unit % 65536) 0 0 false :: s.dev.tel.log).take 2048) ∧
  (∀ (fw unit : Nat) (s : State), s.dev.inReset = false → (sourceOf s.dev (248 + fw % 8)).enable = false →
    exec (.fwRaise fw unit) s = .next s) ∧
  (∀ (fw unit k : Nat) (s : State), s.dev.inReset = false → sourceOf s.dev (248 + fw % 8) = ⟨true, 0, (sourceOf s.dev (248 + fw % 8)).vector⟩ →
    s.dev.tel.alarms.all (fun e => e.2.source != 248 + fw % 8) = true → Tab.freeKey s.dev.tel.alarms 256 256 = some k →
    Completes (.fwRaise fw unit) s [.tel, .outs] noteRegs fun t =>
      Tab.find t.dev.tel.alarms k =
        some ⟨248 + fw % 8, unit % 65536, false, 1, 0, s.dev.secs % 2 ^ 32, s.dev.ms % 2 ^ 32, true, true, none, none⟩ ∧
      t.dev.bit (pendFld (248 + fw % 8)) = true ∧ ∀ j, j ≠ k → Tab.find t.dev.tel.alarms j = Tab.find s.dev.tel.alarms j) ∧
  (∀ (m : Nat) (w : Word) (s : State), s.dev.inReset = false → m < 8 →
    (vectorsOf s.dev m (s.dev.reg (TEL_PENDm m) &&& w)).all
      (fun v => !vectorPending (s.dev.setReg (TEL_PENDm m) (s.dev.reg (TEL_PENDm m) &&& ~~~w)) v) = true →
    Completes (.pendingClear m w) s [] (fun a => a == TEL_PENDm m) fun t => t.dev.reg (TEL_PENDm m) = s.dev.reg (TEL_PENDm m) &&& ~~~w) ∧
  (∀ (m v : Nat) (w : Word) (s : State), s.dev.inReset = false → m < 8 → v < 32 → vectorsOf s.dev m (s.dev.reg (TEL_PENDm m) &&& w) = [v] →
    vectorPending (s.dev.setReg (TEL_PENDm m) (s.dev.reg (TEL_PENDm m) &&& ~~~w)) v = true → nbit (s.dev.reg (MSIX_TABLE v 3)).toNat 0 = false →
    Completes (.pendingClear m w) s [.outs] (fun a => a == TEL_PENDm m) fun t =>
      t.dev.reg (TEL_PENDm m) = s.dev.reg (TEL_PENDm m) &&& ~~~w ∧ t.dev.outs = .msix v :: s.dev.outs) ∧
  (∀ (m v : Nat) (w : Word) (s : State), s.dev.inReset = false → m < 8 → v < 32 → nbit (s.dev.reg (MSIX_TABLE v 3)).toNat 0 = false →
    (vectorsOf s.dev m (s.dev.reg (TEL_MASKm m) &&& ~~~w &&& s.dev.reg (TEL_PENDm m)) = [v] ∨
      vectorsOf s.dev m (s.dev.reg (TEL_MASKm m) &&& ~~~w &&& s.dev.reg (TEL_PENDm m)) = []) →
    Completes (.maskWrite m w) s [.outs] (fun a => a == TEL_MASKm m) fun t => t.dev.reg (TEL_MASKm m) = w ∧
      t.dev.outs = (if vectorsOf s.dev m (s.dev.reg (TEL_MASKm m) &&& ~~~w &&& s.dev.reg (TEL_PENDm m)) = [] then [] else [.msix v]) ++ s.dev.outs) ∧
  (∀ (m : Nat) (w : Word) (s : State), s.dev.inReset = false → m < 8 →
    Completes (.ccpendClear m w) s [] (fun a => a == TEL_CCPENDm m) fun t => t.dev.reg (TEL_CCPENDm m) = s.dev.reg (TEL_CCPENDm m) &&& ~~~w) ∧
  (∀ (k seen : Nat) (a : Alarm) (s : State), s.dev.inReset = false → k < 512 → seen < 65536 → Tab.find s.dev.tel.alarms k = some a → a.overrun = false →
    0 < seen → seen ≤ a.count →
    Completes (.telAlmAck k seen) s [.tel] (fun r => r == TEL_STATUS) fun t =>
      Tab.find t.dev.tel.alarms k = (if a.count = seen then none else some { a with count := a.count - seen, pendRing := true, pendEth := true }) ∧
      ∀ j, j ≠ k → Tab.find t.dev.tel.alarms j = Tab.find s.dev.tel.alarms j) ∧
  (∀ (k seen : Nat) (a : Alarm) (s : State), s.dev.inReset = false → k < 512 → seen < 65536 → Tab.find s.dev.tel.alarms k = some a → a.overrun = true →
    seen ≤ a.count →
    Completes (.telAlmAck k seen) s [.tel] (fun _ => false) fun t =>
      Tab.find t.dev.tel.alarms k = some { a with count := 1, overrun := false, pendRing := true, pendEth := true } ∧
      ∀ j, j ≠ k → Tab.find t.dev.tel.alarms j = Tab.find s.dev.tel.alarms j) ∧
  (∀ (k seen : Nat) (s : State), s.dev.inReset = false → k < 512 → seen < 65536 →
    (Tab.find s.dev.tel.alarms k).all (fun a => decide (a.count < seen)) = true →
    exec (.telAlmAck k seen) s = .next s) ∧
  (∀ (j k seen : Nat) (s : State), s.dev.inReset = false →
    ∃ t, exec (.alarmAck (.cmd j) k seen) s = .next t ∧ told t.dev (.cmd j) hrOK [] = true ∧ (∀ u, exec (.telAlmAck k seen) s = .next u →
      t = { u with dev := u.dev.toCmd (.cmd j) hrOK [] }))

/-- With one staged unit the ring path writes it at TEL_RING_PROD, advances and sends its vector, and the Ethernet path sends one datagram with
a header of its sequence number on the lowest port up; each counts the unit's class_seq. A path that is off sends nothing. TEL_RING_CONS
takes an index below the size and ignores another. Storm mode ends when both paths are below 25 % and not before. cnt_clear clears the
counters of the chapter. So each of these completes under the conditions given, exec answering a next state: TELE_RING_SEND,
RING_CONS_WRITE, TELE_DATAGRAM_SEND, STORM_END, TEL_CNT_CLEAR. The model's own choices it rests on: log entries 10, 20, 96, 134. (R455,
R456, R457, R458, R459, R460) -/
def Obligations.TelemetryDelivery : Prop :=
  (∀ (u : TelUnit) (s : State), s.dev.inReset = false → s.dev.bit TEL_RING_CFG_en = true → s.dev.tel.ring.staged = [u] → within u.kind 2 5 = true →
    s.dev.tel.alarms = [] → ringFull s.dev = false → s.dev.fld TEL_RING_CFG_size_log2 ≤ 16 →
    Tab.find s.dev.hif.intervals (s.dev.fld TEL_RING_CFG_vector) = none → nbit (s.dev.reg (MSIX_TABLE (s.dev.fld TEL_RING_CFG_vector) 3)).toNat 0 = false →
    Completes .teleRingSend s [.tel, .hif, .outs] (fun a => a == TEL_RING_PROD) fun t =>
      t.dev.outs = .msix (s.dev.fld TEL_RING_CFG_vector) ::
        .hostWrite (s.dev.reg64 TEL_RING_BASE_LO + 48 * s.dev.fld TEL_RING_PROD_index) (telUnit s.dev.tel.ring u.kind u.body).1 :: s.dev.outs ∧
      t.dev.fld TEL_RING_PROD_index = (s.dev.fld TEL_RING_PROD_index + 1) % ringSize s.dev TEL_RING_CFG_size_log2 ∧
      t.dev.tel.ring.staged = [] ∧ Tab.getD t.dev.tel.ring.seq u.kind 0 = (Tab.getD s.dev.tel.ring.seq u.kind 0 + 1) % 2 ^ 32 ∧
      Tab.find t.dev.hif.intervals (s.dev.fld TEL_RING_CFG_vector) = some false) ∧
  (∀ s : State, s.dev.inReset = false → s.dev.bit TEL_RING_CFG_en = false →
    exec .teleRingSend s = .next s) ∧
  (∀ (i : Nat) (s : State), s.dev.inReset = false → i < ringSize s.dev TEL_RING_CFG_size_log2 → i < 65536 →
    Completes (.ringConsWrite i) s [] (fun a => a == TEL_RING_CONS) fun t => t.dev.fld TEL_RING_CONS_index = i) ∧
  (∀ (i : Nat) (s : State), s.dev.inReset = false → ringSize s.dev TEL_RING_CFG_size_log2 ≤ i →
    exec (.ringConsWrite i) s = .next s) ∧
  (∀ (u : TelUnit) (e : Nat) (s : State), s.dev.inReset = false → s.dev.bit TEL_ETH_CFG_en = true → s.dev.tel.eth.staged = [u] → within u.kind 2 5 = true →
    s.dev.tel.alarms = [] → s.dev.tel.dgramFrom ≤ s.dev.ns → (List.range 4).find? (fun k => nbit (s.dev.fld TEL_ETH_CFG_eth_mask) k && ethUp s.dev k) = some e →
    Completes .teleDatagramSend s [.tel, .outs] (fun _ => false) fun t =>
      t.dev.outs = .datagram e (mgmtAddr s.dev) (telDest s.dev) (s.dev.fld TEL_ETH_CFG_dst_port) (s.dev.fld TEL_ETH_CFG_dscp) ([0x54, 0x44, 0x01, 0x01] ++ le 4 s.dev.tel.dgramSeq ++ (telUnit s.dev.tel.eth u.kind u.body).1) :: s.dev.outs ∧
      t.dev.tel.eth.staged = [] ∧ t.dev.tel.dgramSeq = (s.dev.tel.dgramSeq + 1) % 2 ^ 32 ∧ t.dev.tel.ring = s.dev.tel.ring ∧
      Tab.getD t.dev.tel.eth.seq u.kind 0 = (Tab.getD s.dev.tel.eth.seq u.kind 0 + 1) % 2 ^ 32) ∧
  (∀ s : State, s.dev.inReset = false → (s.dev.bit TEL_ETH_CFG_en = false ∨ ∀ e, e < 4 → (nbit (s.dev.fld TEL_ETH_CFG_eth_mask) e && ethUp s.dev e) = false) →
    exec .teleDatagramSend s = .next s) ∧
  (∀ (st : Storm) (s : State), s.dev.inReset = false → s.dev.tel.storm = some st → 4 * s.dev.tel.ring.staged.length < pathCap s.dev →
    4 * s.dev.tel.eth.staged.length < pathCap s.dev →
    Completes .stormEnd s [.tel, .outs] noteRegs fun t => t.dev.tel.storm = none ∧ t.dev.bit TEL_STATUS_storm = false) ∧
  (∀ s : State, s.dev.inReset = false → (s.dev.tel.storm = none ∨ pathCap s.dev ≤ 4 * s.dev.tel.ring.staged.length) →
    exec .stormEnd s = .next s) ∧
  (∀ s : State, s.dev.inReset = false →
    Completes .telCntClear s [] (fun a => a == TEL_LOSSp_A 0 || a == TEL_LOSSp_B 0 || a == TEL_LOSSp_A 1 || a == TEL_LOSSp_B 1 || a == TEL_CNT_LOCAL) fun t =>
      t.dev.reg TEL_CNT_LOCAL = 0 ∧ t.dev.reg (TEL_LOSSp_A 0) = 0 ∧ t.dev.reg (TEL_LOSSp_B 0) = 0 ∧ t.dev.reg (TEL_LOSSp_A 1) = 0 ∧ t.dev.reg (TEL_LOSSp_B 1) = 0)

/-- A reset of the interface returns the registers of its block to their reset values, discards waiting commands, leaves started ones to end
without a completion, and touches nothing else. A bad BAR0 access, a BAR2 write, an abandoned or poisoned BAR2 read and an access that
waited 64 µs at a crossing count and note their offset, a read answering with its error; another BAR2 read returns its bytes. Unmasking a
vector sends its message when its PBA bit stands; the end of an interval sends a deferred one. A change of the link shows in HIF_STATUS.
cnt_clear clears the counters of the chapter. So each of these completes under the conditions given, exec answering a next state:
HOST_RESET, BAR0_BAD_ACCESS, BAR2_READ, BAR2_WRITE, STOPPED_ACCESS_TIMEOUT, MSIX_UNMASK, HIF_CNT_CLEAR, VECTOR_INTERVAL_EXPIRY,
PCIE_LINK_CHANGE. The model's own choices it rests on: log entries 18, 19, 20, 98, 101, 103, 106, 114. (R462, R463, R464, R465, R466, R468,
R482) -/
def Obligations.HostEndpoint : Prop :=
  (∀ s : State, s.dev.inReset = false →
    Completes .hostReset s [.shadows, .held, .hif, .isolated] hostResetReg fun t => t.dev.isolated = s.dev.isolated.filter (· != 200) ∧
      (∀ a, hostResetReg a = true → t.dev.reg a = regReset a) ∧
      t.dev.hif = { s.dev.hif with waiting := [], running := [], reserved := 0, rings := [], intervals := [], crossing := s.dev.hif.crossing.filter (fun x => x.m != .host), orphaned := s.dev.hif.orphaned ++ s.dev.hif.running }) ∧
  (∀ (off : Nat) (read : Bool) (s : State), s.dev.inReset = false → s.dev.isolated.contains 200 = false →
    Completes (.bar0BadAccess off read) s [.outs] (fun a => a == HIF_ERR || a == HIF_ERR_LAST) fun t =>
      t.dev.fld HIF_ERR_bar0_bad = min (s.dev.fld HIF_ERR_bar0_bad + 1) 255 ∧ t.dev.fld HIF_ERR_LAST_bar = 0 ∧ t.dev.fld HIF_ERR_LAST_offset = off % 2 ^ 28 ∧
      t.dev.fld HIF_ERR_bar2_err = s.dev.fld HIF_ERR_bar2_err ∧ t.dev.outs = (if read then [.pcieError 1 off] else []) ++ s.dev.outs) ∧
  (∀ (off : Nat) (s : State), s.dev.inReset = false → s.dev.isolated.contains 200 = false →
    Completes (.bar2Write off) s [] (fun a => a == HIF_ERR || a == HIF_ERR_LAST) fun t =>
      t.dev.fld HIF_ERR_bar2_err = min (s.dev.fld HIF_ERR_bar2_err + 1) 255 ∧ t.dev.fld HIF_ERR_LAST_bar = 1 ∧ t.dev.fld HIF_ERR_LAST_offset = off % 2 ^ 28 ∧
      t.dev.fld HIF_ERR_bar0_bad = s.dev.fld HIF_ERR_bar0_bad) ∧
  (∀ (off len : Nat) (changed : Bool) (s : State), s.dev.inReset = false → s.dev.isolated.contains 200 = false → (changed && keyedRegion s.dev off) = false →
    (∀ x ∈ s.dev.tbl.poison, ¬ (x < off + len ∧ off < x + 8)) →
    Completes (.bar2Read off len changed) s [.outs] (fun _ => false) fun t =>
      t.dev.outs = .bar2Data off ((List.range len).map fun k => bar2Byte s.dev (off + k)) :: s.dev.outs) ∧
  (∀ (off len : Nat) (s : State), s.dev.inReset = false → s.dev.isolated.contains 200 = false → keyedRegion s.dev off = true →
    Completes (.bar2Read off len true) s [.outs] (fun a => a == HIF_ERR || a == HIF_ERR_LAST) fun t =>
      t.dev.fld HIF_ERR_bar2_err = min (s.dev.fld HIF_ERR_bar2_err + 1) 255 ∧ t.dev.outs = .pcieError 1 off :: s.dev.outs) ∧
  (∀ (off len x : Nat) (s : State), s.dev.inReset = false → s.dev.isolated.contains 200 = false → x ∈ s.dev.tbl.poison → x < off + len → off < x + 8 →
    Completes (.bar2Read off len false) s [.outs] (fun a => a == HIF_ERR || a == HIF_ERR_LAST) fun t =>
      t.dev.fld HIF_ERR_poisoned = min (s.dev.fld HIF_ERR_poisoned + 1) 255 ∧ t.dev.outs = .pcieError 2 off :: s.dev.outs) ∧
  (∀ (k : Nat) (x : Crossing) (s : State), s.dev.inReset = false → k < 2 → s.dev.hif.crossing = [x] → x.m = .host → x.touches (HIF_CCA_TICK + 4 * k) = true → x.addr < 2 ^ 28 →
    Completes (.stoppedAccessTimeout k) s [.hif, .outs] (fun a => a == HIF_ERR || a == HIF_ERR_LAST) fun t => t.dev.hif.crossing = [] ∧
      t.dev.fld HIF_ERR_stopped = min (s.dev.fld HIF_ERR_stopped + 1) 255 ∧ t.dev.fld HIF_ERR_LAST_offset = x.addr ∧
      t.dev.outs = (if x.read then [.pcieError 1 x.addr] else []) ++ s.dev.outs) ∧
  (∀ (v : Nat) (s : State), s.dev.inReset = false → s.dev.isolated.contains 200 = false → v < 32 → s.dev.fld ⟨MSIX_TABLE v 3, 0, 0⟩ = 1 →
    Completes (.msixUnmask v) s [.outs] (fun a => a == MSIX_TABLE v 3 || a == MSIX_PBA) fun t =>
      t.dev.fld ⟨MSIX_TABLE v 3, 0, 0⟩ = 0 ∧ t.dev.fld ⟨MSIX_PBA, v, v⟩ = 0 ∧
      t.dev.outs = (if s.dev.fld ⟨MSIX_PBA, v, v⟩ = 1 then [.msix v] else []) ++ s.dev.outs) ∧
  (∀ (v : Nat) (late : Bool) (s : State), s.dev.inReset = false → v < 32 → Tab.find s.dev.hif.intervals v = some late →
    nbit (s.dev.reg (MSIX_TABLE v 3)).toNat 0 = false →
    Completes (.vectorIntervalExpiry v) s [.hif, .outs] (fun _ => false) fun t => t.dev.outs = (if late then [.msix v] else []) ++ s.dev.outs ∧
      (late = true → Tab.find t.dev.hif.intervals v = some false) ∧ (∀ k, k ≠ v → Tab.find t.dev.hif.intervals k = Tab.find s.dev.hif.intervals k)) ∧
  (∀ (up : Bool) (width speed : Nat) (s : State), s.dev.inReset = false → s.dev.isolated.contains 200 = false → width < 8 → speed < 16 →
    Completes (.pcieLinkChange up width speed) s [] (fun a => a == HIF_STATUS) fun t =>
      t.dev.bit HIF_STATUS_link_up = up ∧ t.dev.fld HIF_STATUS_width = width ∧ t.dev.fld HIF_STATUS_speed = speed) ∧
  (∀ s : State, s.dev.inReset = false →
    Completes .hifCntClear s [] (fun a => a == HIF_ERR || a == HIF_MGMT_CNT || (List.range 8).any fun r => a == HIF_FRr_CNT r) fun t =>
      t.dev.reg HIF_ERR = 0 ∧ t.dev.reg HIF_MGMT_CNT = 0 ∧ ∀ r, r < 8 → t.dev.reg (HIF_FRr_CNT r) = 0)

/-- The queue enables with its indices 0 and phase 1, takes a tail below its size and counts another, fetches the entry at the head while a
completion entry is free and reserves it, and halts on a late read; a fetch that waited 100 ms for a completion entry sets cq_stall once,
and HIF_CQ_HEAD that frees one clears it. A command that may start and passes the checks opens its record and runs; one refused completes at
once. A command that has had its effect closes its record with its result and writes its completion at the tail, its vector if asked; after
a reset of the interface the record alone. Disabling abandons a waiting command with ABORTED and drains. NOP, JRNL_READ, BLEND_LOAD and
TASK_SUBMIT give their results to the command. So each of these completes under the conditions given, exec answering a next state:
HCQ_DOORBELL, HCQ_FETCH, HCQ_FETCH_TIMEOUT, CQ_STALL, CQ_HEAD_WRITE, HCQ_ENABLE, HCQ_DISABLE, COMMAND_START, COMMAND_COMPLETE,
COMMAND_DATA_TIMEOUT, NOP, JRNL_READ, BLEND_LOAD, TASK_SUBMIT. The model's own choices it rests on: log entries 10, 20, 27, 99, 100, 114.
(R469, R470, R471, R472, R473, R474, R475, R476, R481) -/
def Obligations.HostCommands : Prop :=
  (∀ s : State, s.dev.inReset = false → s.dev.isolated.contains 200 = false → hqState s.dev = hqDISABLED →
    Completes .hcqEnable s [] (fun a => a == HIF_HCQ_TAIL || a == HIF_HCQ_HEAD || a == HIF_CQ_HEAD || a == HIF_CQ_TAIL || a == HIF_HCQ_CFG || a == HIF_HCQ_STATUS) fun t =>
      hqState t.dev = hqENABLED ∧ t.dev.reg HIF_HCQ_TAIL = 0 ∧ t.dev.reg HIF_HCQ_HEAD = 0 ∧ t.dev.reg HIF_CQ_HEAD = 0 ∧
      t.dev.fld HIF_CQ_TAIL_index = 0 ∧ t.dev.fld HIF_CQ_TAIL_phase = 1 ∧ t.dev.fld HIF_HCQ_CFG_en = 1 ∧
      t.dev.fld HIF_HCQ_CFG_size_log2 = s.dev.fld HIF_HCQ_CFG_size_log2) ∧
  (∀ (tail : Nat) (s : State), s.dev.inReset = false → s.dev.isolated.contains 200 = false → hqState s.dev = hqENABLED → tail < hqSize s.dev → tail < 4096 →
    Completes (.hcqDoorbell tail) s [] (fun a => a == HIF_HCQ_TAIL) fun t => t.dev.fld HIF_HCQ_TAIL_index = tail) ∧
  (∀ (tail : Nat) (s : State), s.dev.inReset = false → s.dev.isolated.contains 200 = false → hqState s.dev = hqENABLED → hqSize s.dev ≤ tail →
    Completes (.hcqDoorbell tail) s [] (fun a => a == HIF_HCQ_STATUS) fun t =>
      t.dev.fld HIF_HCQ_STATUS_bad_doorbell = min (s.dev.fld HIF_HCQ_STATUS_bad_doorbell + 1) 255 ∧ hqState t.dev = hqENABLED) ∧
  (∀ (entry : List Byte) (s : State), s.dev.inReset = false → s.dev.isolated.contains 200 = false → fetchPossible s.dev = true → cqRoom s.dev = true → s.dev.fld HIF_HCQ_CFG_size_log2 ≤ 12 →
    Completes (.hcqFetch entry) s [.hif, .outs] (fun a => a == HIF_HCQ_HEAD) fun t =>
      t.dev.hif = { s.dev.hif with waiting := s.dev.hif.waiting ++ [⟨fit 64 entry, s.dev.fld HIF_HCQ_HEAD_index, none⟩], reserved := s.dev.hif.reserved + 1 } ∧
      t.dev.fld HIF_HCQ_HEAD_index = (s.dev.fld HIF_HCQ_HEAD_index + 1) % hqSize s.dev ∧
      t.dev.outs = .hostRead (s.dev.reg64 HIF_HCQ_BASE_LO + 64 * s.dev.fld HIF_HCQ_HEAD_index) 64 :: s.dev.outs) ∧
  (∀ (entry : List Byte) (s : State), s.dev.inReset = false → s.dev.isolated.contains 200 = false → (fetchPossible s.dev = false ∨ cqRoom s.dev = false) →
    exec (.hcqFetch entry) s = .next s) ∧
  (∀ s : State, s.dev.inReset = false → fetchPossible s.dev = true → cqRoom s.dev = true →
    Completes .hcqFetchTimeout s [] (fun a => a == HIF_HCQ_STATUS) fun t => hqState t.dev = hqHALTED ∧ fetchPossible t.dev = false) ∧
  (∀ s : State, s.dev.inReset = false → fetchPossible s.dev = true → cqRoom s.dev = false → s.dev.bit HIF_HCQ_STATUS_cq_stall = false →
    Completes .cqStall s [.tel, .outs] (fun a => a == HIF_HCQ_STATUS || noteRegs a) fun t => t.dev.bit HIF_HCQ_STATUS_cq_stall = true ∧
      ((sourceOf s.dev 242).enable = true → (sourceOf s.dev 242).cls ≠ 3 → t.dev.bit (pendFld 242) = true)) ∧
  (∀ (head : Nat) (s : State), s.dev.inReset = false → s.dev.isolated.contains 200 = false → head < hqSize s.dev → head < 4096 →
    Completes (.cqHeadWrite head) s [] (fun a => a == HIF_CQ_HEAD || a == HIF_HCQ_STATUS) fun t => t.dev.fld HIF_CQ_HEAD_index = head ∧
      t.dev.bit HIF_HCQ_STATUS_cq_stall = (s.dev.bit HIF_HCQ_STATUS_cq_stall && !cqRoom t.dev) ∧ hqState t.dev = hqState s.dev) ∧
  (∀ (k : Nat) (c : HostCmd) (s : State), s.dev.inReset = false → s.dev.hif.waiting[k]? = some c → mayStart s.dev s.dev.hif.waiting s.dev.hif.running k c = true →
    hcRefusal c = none →
    Completes (.commandStart false k) s ([.hif] ++ noteParts) noteRegs fun t =>
      t.dev.hif = { s.dev.hif with waiting := s.dev.hif.waiting.eraseIdx k, running := s.dev.hif.running ++ [⟨c, s.dev.jrnl.next, hcAtOnce c, []⟩] } ∧
      (t.dev.jrnl.ring.getLast?.map fun r => (r.seq, r.kind, r.origin, r.outcome, r.opId)) = some (s.dev.jrnl.next, 0x01, 0, jOPEN, hcId c)) ∧
  (∀ (k : Nat) (c : HostCmd) (s : State), s.dev.inReset = false → s.dev.hif.mqWaiting[k]? = some c → mayStart s.dev s.dev.hif.mqWaiting s.dev.hif.mqRunning k c = true →
    hcRefusal c = none →
    Completes (.commandStart true k) s ([.hif] ++ noteParts) noteRegs fun t =>
      t.dev.hif = { s.dev.hif with mqWaiting := s.dev.hif.mqWaiting.eraseIdx k, mqRunning := s.dev.hif.mqRunning ++ [⟨c, s.dev.jrnl.next, hcAtOnce c, []⟩] } ∧
      (t.dev.jrnl.ring.getLast?.map fun r => (r.seq, r.kind, r.origin, r.outcome, r.opId)) = some (s.dev.jrnl.next, 0x01, 5, jOPEN, hcId c)) ∧
  (∀ (k r : Nat) (c : HostCmd) (s : State), s.dev.inReset = false → s.dev.hif.waiting[k]? = some c → mayStart s.dev s.dev.hif.waiting s.dev.hif.running k c = true →
    hcRefusal c = some r → c.handle = none → hcFlag c 1 = false →
    Completes (.commandStart false k) s [.hif, .outs] (fun a => a == HIF_CQ_TAIL) fun t =>
      t.dev.hif = { s.dev.hif with waiting := s.dev.hif.waiting.eraseIdx k, reserved := s.dev.hif.reserved - 1 } ∧
      t.dev.outs = .hostWrite (s.dev.reg64 HIF_CQ_BASE_LO + 32 * s.dev.fld HIF_CQ_TAIL_index)
        (cplBytes c r true (s.dev.bit HIF_CQ_TAIL_phase) none []) :: s.dev.outs) ∧
  (∀ (j r : Nat) (x : RunCmd) (y : JRec) (s : State), s.dev.inReset = false → (s.dev.hif.running ++ s.dev.hif.mqRunning).find? (fun z => z.jseq == j && z.result.isSome) = some x →
    x.result = some r → x.cmd.handle = none → s.dev.fld HIF_HCQ_CFG_size_log2 ≤ 12 → s.dev.jrnl.ring.find? (fun z => z.seq == j && z.outcome == jOPEN) = some y →
    Tab.find s.dev.hif.intervals (s.dev.fld HIF_HCQ_CFG_vector) = none → nbit (s.dev.reg (MSIX_TABLE (s.dev.fld HIF_HCQ_CFG_vector) 3)).toNat 0 = false →
    Completes (.commandComplete j) s ([.hif] ++ noteParts) (fun a => a == HIF_CQ_TAIL || a == HIF_HCQ_STATUS || noteRegs a) fun t =>
      t.dev.hif.running = s.dev.hif.running.filter (fun z => z.jseq != j) ∧ t.dev.hif.reserved = s.dev.hif.reserved - 1 ∧
      t.dev.outs = (if hcFlag x.cmd 1 then [.msix (s.dev.fld HIF_HCQ_CFG_vector)] else []) ++
        .hostWrite (s.dev.reg64 HIF_CQ_BASE_LO + 32 * s.dev.fld HIF_CQ_TAIL_index)
          (cplBytes x.cmd r (host7 (hcOp x.cmd)) (s.dev.bit HIF_CQ_TAIL_phase) (some j) x.data) :: (cplData s.dev x.cmd x.data).outs ∧
      t.dev.fld HIF_CQ_TAIL_index = (s.dev.fld HIF_CQ_TAIL_index + 1) % hqSize s.dev ∧
      t.dev.bit HIF_CQ_TAIL_phase = (if (s.dev.fld HIF_CQ_TAIL_index + 1) % hqSize s.dev = 0 then !s.dev.bit HIF_CQ_TAIL_phase else s.dev.bit HIF_CQ_TAIL_phase) ∧
      hqState t.dev = (if hqState s.dev = hqDRAINING ∧ (s.dev.hif.running.filter fun z => z.jseq != j) = [] then hqDISABLED else hqState s.dev) ∧
      (t.dev.jrnl.ring.all fun z => z.seq != j || (z.outcome == (if r = 0 then jCOMPLETE else jFAILED) && z.cause == r)) = true) ∧
  (∀ (j r : Nat) (x : RunCmd) (s : State), s.dev.inReset = false → (s.dev.hif.running ++ s.dev.hif.mqRunning).find? (fun z => z.jseq == j && z.result.isSome) = none →
    s.dev.hif.orphaned.find? (fun z => z.jseq == j && z.result.isSome) = some x → x.result = some r →
    Completes (.commandComplete j) s [.hif, .tel, .jrnl] noteRegs fun t =>
      t.dev.hif = { s.dev.hif with orphaned := s.dev.hif.orphaned.filter fun z => z.jseq != j } ∧
      (t.dev.jrnl.ring.all fun z => z.seq != j || z.outcome != jOPEN) = true) ∧
  (∀ (j : Nat) (x : RunCmd) (s : State), s.dev.inReset = false → s.dev.hif.running.find? (fun z => z.jseq == j && z.result.isNone) = some x →
    Completes (.commandDataTimeout j) s [.hif] (fun _ => false) fun t => told t.dev (.cmd j) (dataTimeoutCode (hcOp x.cmd)) [] = true) ∧
  (∀ (c : HostCmd) (s : State), s.dev.inReset = false → s.dev.isolated.contains 200 = false → hqState s.dev = hqENABLED → s.dev.hif.waiting = [c] → c.handle = none → hcFlag c 1 = false →
    Completes .hcqDisable s [.hif, .outs] (fun a => a == HIF_CQ_TAIL || a == HIF_HCQ_STATUS || a == HIF_HCQ_CFG) fun t =>
      t.dev.hif = { s.dev.hif with waiting := [], reserved := s.dev.hif.reserved - 1 } ∧ t.dev.fld HIF_HCQ_CFG_en = 0 ∧
      hqState t.dev = (if s.dev.hif.running = [] then hqDISABLED else hqDRAINING) ∧
      t.dev.outs = .hostWrite (s.dev.reg64 HIF_CQ_BASE_LO + 32 * s.dev.fld HIF_CQ_TAIL_index)
        (cplBytes c hrABORTED true (s.dev.bit HIF_CQ_TAIL_phase) none []) :: s.dev.outs) ∧
  (∀ s : State, s.dev.inReset = false → s.dev.isolated.contains 200 = false → hqState s.dev = hqENABLED → s.dev.hif.waiting = [] →
    Completes .hcqDisable s [] (fun a => a == HIF_HCQ_STATUS || a == HIF_HCQ_CFG) fun t => t.dev.fld HIF_HCQ_CFG_en = 0 ∧
      hqState t.dev = (if s.dev.hif.running = [] then hqDISABLED else hqDRAINING)) ∧
  (∀ (j : Nat) (s : State), s.dev.inReset = false →
    Completes (.nop (.cmd j)) s [.hif] (fun _ => false) fun t => told t.dev (.cmd j) hrOK [] = true) ∧
  (∀ (j seq : Nat) (s : State), s.dev.inReset = false →
    Completes (.jrnlRead (.cmd j) seq) s [.hif] (fun _ => false) fun t =>
      told t.dev (.cmd j) hrOK (match s.dev.jrnl.ring.find? (fun r => r.seq == seq), Tab.find s.dev.jrnl.mirror seq with
        | some r, _ => r.bytes
        | none, some r => r.bytes
        | none, none => []) = true) ∧
  (∀ (j source addr len : Nat) (s : State), s.dev.inReset = false → within (bldState s.dev) bsRECEIVING bsAPPLYING = false → within len 4096 16777216 = true → len % 4 = 0 →
    Completes (.blendLoad (.cmd j) source addr len) s [.bld, .outs] (fun a => a == BLD_STATUS) fun t => bldState t.dev = bsRECEIVING ∧
      t.dev.outs = (if source = 1 ∧ isMgmt s.dev j = false then .hostRead addr len :: s.dev.outs else s.dev.outs) ∧
      t.dev.bld = { s.dev.bld with load := some ⟨if source ≠ 1 then .flash addr else if isMgmt s.dev j then .buffer (addr % 2 ^ 32) else .host addr, len, [], some j⟩ }) ∧
  (∀ (j : Nat) (desc : List Byte) (s : State), s.dev.inReset = false → submitCheck s.dev (descOf (fit 32 desc)) 0xE000 0xFFFE 3 = sbOK →
    (descOf (fit 32 desc)).dep ≠ 0 →
    Completes (.taskSubmit (.cmd j) desc) s [.dsp, .hif] (fun _ => false) fun t => told t.dev (.cmd j) sbOK [] = true ∧
      t.dev.task (descOf (fit 32 desc)).id = some ⟨descOf (fit 32 desc), (descOf (fit 32 desc)).dep, .waiting, none, false, s.dev.ns, 0, 0, false, false, 0⟩ ∧
      ∀ i, i ≠ (descOf (fit 32 desc)).id → t.dev.task i = s.dev.task i) ∧
  (∀ (j : Nat) (desc : List Byte) (s : State), s.dev.inReset = false → s.dev.dsp.accepting = false →
    Completes (.taskSubmit (.cmd j) desc) s [.hif] (fun _ => false) fun t => told t.dev (.cmd j) sbNOT_READY [] = true)

/-- Posting on an enabled up ring appends its buffers and moves the tail; a disabled ring or a tail at or above the size takes nothing; a down
ring moves its tail alike. A raw Ethernet descriptor within its ranges sends its frame and ends OK, one out of range ends RANGE, a late read
ends DMA_ERROR, each written to the descriptor before the head advances and the vector goes; a packet to a node enters the downlink, one to
Ethernet its queue. A management submission below 256 outstanding waits in order, a 257th is counted; a management frame leaves its port as
it stands, a stamped PTP frame with its timestamps and its record in the buffer, and the buffer is released after it; a port that is off
sends nothing. So each of these completes under the conditions given, exec answering a next state: UP_RING_POST, DN_RING_POST,
DN_DESCRIPTOR_PROCESS, DN_READ_TIMEOUT, MQ_SUBMIT, MGMT_TX, MGMT_TX_DONE. The model's own choices it rests on: log entries 10, 20, 52, 101,
102, 114. (R477, R478, R480, R481) -/
def Obligations.HostRingsAndChannel : Prop :=
  (∀ (r tail : Nat) (descs : List (Nat × Nat)) (s : State), s.dev.inReset = false → s.dev.isolated.contains 200 = false → r < 8 → s.dev.bit (HIF_FRr_UP_CFG_en r) = true →
    tail < ringSize s.dev (HIF_FRr_UP_CFG_size_log2 r) → tail < 4096 → s.dev.fld (HIF_FRr_UP_TAIL_index r) < ringSize s.dev (HIF_FRr_UP_CFG_size_log2 r) →
    descs.length = (tail + ringSize s.dev (HIF_FRr_UP_CFG_size_log2 r) - s.dev.fld (HIF_FRr_UP_TAIL_index r)) % ringSize s.dev (HIF_FRr_UP_CFG_size_log2 r) →
    Completes (.upRingPost r tail descs) s [.hif] (fun a => a == HIF_FRr_UP_TAIL r) fun t => t.dev.fld (HIF_FRr_UP_TAIL_index r) = tail ∧
      upPosted t.dev r = upPosted s.dev r ++ descs ∧ ∀ k, k ≠ r → upPosted t.dev k = upPosted s.dev k) ∧
  (∀ (r tail : Nat) (descs : List (Nat × Nat)) (s : State), s.dev.inReset = false → s.dev.isolated.contains 200 = false → (ringSize s.dev (HIF_FRr_UP_CFG_size_log2 r) ≤ tail ∨ s.dev.bit (HIF_FRr_UP_CFG_en r) = false) →
    exec (.upRingPost r tail descs) s = .next s) ∧
  (∀ (r tail : Nat) (s : State), s.dev.inReset = false → s.dev.isolated.contains 200 = false → r < 8 → s.dev.bit (HIF_FRr_DN_CFG_en r) = true → tail < ringSize s.dev (HIF_FRr_DN_CFG_size_log2 r) → tail < 4096 →
    Completes (.dnRingPost r tail) s [] (fun a => a == HIF_FRr_DN_TAIL r) fun t => t.dev.fld (HIF_FRr_DN_TAIL_index r) = tail) ∧
  (∀ (r tail : Nat) (s : State), s.dev.inReset = false → s.dev.isolated.contains 200 = false → (ringSize s.dev (HIF_FRr_DN_CFG_size_log2 r) ≤ tail ∨ s.dev.bit (HIF_FRr_DN_CFG_en r) = false) →
    exec (.dnRingPost r tail) s = .next s) ∧
  (∀ (r : Nat) (desc data : List Byte) (s : State), s.dev.inReset = false → s.dev.isolated.contains 200 = false → dnWaits s.dev r = true → dnRange s.dev (fit 32 desc) = true → field (fit 32 desc) 0x0A 1 = 2 →
    s.dev.fld (HIF_FRr_DN_CFG_size_log2 r) ≤ 12 →
    Tab.find s.dev.hif.intervals (s.dev.fld (HIF_FRr_DN_CFG_vector r)) = none → nbit (s.dev.reg (MSIX_TABLE (s.dev.fld (HIF_FRr_DN_CFG_vector r)) 3)).toNat 0 = false →
    Completes (.dnDescriptorProcess r desc data) s [.hif, .outs] (fun a => a == HIF_FRr_DN_HEAD r) fun t =>
      t.dev.fld (HIF_FRr_DN_HEAD_index r) = (s.dev.fld (HIF_FRr_DN_HEAD_index r) + 1) % ringSize s.dev (HIF_FRr_DN_CFG_size_log2 r) ∧
      t.dev.outs = .msix (s.dev.fld (HIF_FRr_DN_CFG_vector r)) ::
        .hostWrite (s.dev.reg64 (HIF_FRr_DN_BASE_LO r) + 32 * s.dev.fld (HIF_FRr_DN_HEAD_index r) + 0x0E) [0] ::
        .ethernet (field (fit 32 desc) 0x0D 1) (fit (field (fit 32 desc) 8 2) data) :: s.dev.outs) ∧
  (∀ (r : Nat) (s : State), s.dev.inReset = false → dnWaits s.dev r = true → s.dev.fld (HIF_FRr_DN_CFG_size_log2 r) ≤ 12 →
    Tab.find s.dev.hif.intervals (s.dev.fld (HIF_FRr_DN_CFG_vector r)) = none → nbit (s.dev.reg (MSIX_TABLE (s.dev.fld (HIF_FRr_DN_CFG_vector r)) 3)).toNat 0 = false →
    Completes (.dnReadTimeout r) s [.hif, .outs] (fun a => a == HIF_FRr_DN_HEAD r || a == HIF_FRr_CNT r) fun t =>
      t.dev.fld (HIF_FRr_DN_HEAD_index r) = (s.dev.fld (HIF_FRr_DN_HEAD_index r) + 1) % ringSize s.dev (HIF_FRr_DN_CFG_size_log2 r) ∧
      t.dev.fld (HIF_FRr_CNT_dn_err r) = min (s.dev.fld (HIF_FRr_CNT_dn_err r) + 1) 255 ∧
      t.dev.outs = .msix (s.dev.fld (HIF_FRr_DN_CFG_vector r)) ::
        .hostWrite (s.dev.reg64 (HIF_FRr_DN_BASE_LO r) + 32 * s.dev.fld (HIF_FRr_DN_HEAD_index r) + 0x0E) [2] :: s.dev.outs) ∧
  (∀ (r : Nat) (desc data : List Byte) (s : State), s.dev.inReset = false → s.dev.isolated.contains 200 = false → dnWaits s.dev r = true → s.dev.fld (HIF_FRr_DN_CFG_size_log2 r) ≤ 12 → dnRange s.dev (fit 32 desc) = false →
    Tab.find s.dev.hif.intervals (s.dev.fld (HIF_FRr_DN_CFG_vector r)) = none → nbit (s.dev.reg (MSIX_TABLE (s.dev.fld (HIF_FRr_DN_CFG_vector r)) 3)).toNat 0 = false →
    Completes (.dnDescriptorProcess r desc data) s [.hif, .outs] (fun a => a == HIF_FRr_DN_HEAD r || a == HIF_FRr_CNT r) fun t =>
      t.dev.fld (HIF_FRr_DN_HEAD_index r) = (s.dev.fld (HIF_FRr_DN_HEAD_index r) + 1) % ringSize s.dev (HIF_FRr_DN_CFG_size_log2 r) ∧
      t.dev.fld (HIF_FRr_CNT_dn_err r) = min (s.dev.fld (HIF_FRr_CNT_dn_err r) + 1) 255 ∧
      t.dev.outs = .msix (s.dev.fld (HIF_FRr_DN_CFG_vector r)) ::
        .hostWrite (s.dev.reg64 (HIF_FRr_DN_BASE_LO r) + 32 * s.dev.fld (HIF_FRr_DN_HEAD_index r) + 0x0E) [1] :: s.dev.outs) ∧
  (∀ (r h : Nat) (desc data : List Byte) (d1 : Dev) (s : State), s.dev.inReset = false → s.dev.isolated.contains 200 = false → dnWaits s.dev r = true → dnRange s.dev (fit 32 desc) = true →
    field (fit 32 desc) 0x0A 1 = 0 → bufPut s.dev (fit (field (fit 32 desc) 8 2) data) = some (h, d1) →
    exec (.dnDescriptorProcess r desc data) s =
      .next { s with dev := dnEnd (downlinkAt d1 (field (fit 32 desc) 0x0B 1) h (field (fit 32 desc) 0x0C 1 % 8) (field (fit 32 desc) 0x0C 1 / 8) [] []) r 0 }) ∧
  (∀ (r h : Nat) (desc data : List Byte) (d1 : Dev) (s : State), s.dev.inReset = false → s.dev.isolated.contains 200 = false → dnWaits s.dev r = true → dnRange s.dev (fit 32 desc) = true →
    field (fit 32 desc) 0x0A 1 = 1 → bufPut s.dev (fit (field (fit 32 desc) 8 2) data) = some (h, d1) →
    exec (.dnDescriptorProcess r desc data) s = .next { s with dev := dnEnd (enqueue d1 ⟨true, field (fit 32 desc) 0x0C 1 % 8,
      field (fit 32 desc) 0x0C 1 / 8 == clYELLOW, false, false, 0xFFFFF, h, upOctets d1 (field (fit 32 desc) 0x0B 1) (field (fit 32 desc) 8 2), field (fit 32 desc) 0x0D 1, 0, 0, 0,
      field (fit 32 desc) 0x0B 1, 0, d1.ns, none, 0, none, false, [], 0⟩).1 r 0 }) ∧
  (∀ (r : Nat) (desc data : List Byte) (s : State), s.dev.inReset = false → s.dev.isolated.contains 200 = false → dnRange s.dev (fit 32 desc) = true →
    field (fit 32 desc) 0x0A 1 < 2 → bufPut s.dev (fit (field (fit 32 desc) 8 2) data) = none →
    exec (.dnDescriptorProcess r desc data) s = .next s) ∧
  (∀ (r : Nat) (s : State), s.dev.inReset = false → s.dev.isolated.contains 200 = false → dnWaits s.dev r = false →
    (exec (.dnReadTimeout r) s = .next s ∧ ∀ desc data, exec (.dnDescriptorProcess r desc data) s = .next s)) ∧
  (∀ (h : Nat) (s : State), s.dev.inReset = false → s.dev.hif.mqWaiting.length + s.dev.hif.mqRunning.length < 256 →
    Completes (.mqSubmit h) s [.hif] (fun _ => false) fun t =>
      t.dev.hif = { s.dev.hif with mqWaiting := s.dev.hif.mqWaiting ++ [⟨fit 64 (bufGet s.dev h), 0, some h⟩] }) ∧
  (∀ (h : Nat) (s : State), s.dev.inReset = false → 256 ≤ s.dev.hif.mqWaiting.length + s.dev.hif.mqRunning.length →
    Completes (.mqSubmit h) s [] (fun a => a == HIF_MGMT_CNT) fun t =>
      t.dev.fld HIF_MGMT_CNT_mq_refused = min (s.dev.fld HIF_MGMT_CNT_mq_refused + 1) 65535 ∧ t.dev.fld HIF_MGMT_CNT_rx_dropped = s.dev.fld HIF_MGMT_CNT_rx_dropped) ∧
  (∀ (h : Nat) (s : State), s.dev.inReset = false → ethOff s.dev (s.dev.fld HIF_MGMT_TX_CTL_port) = false →
    (ptpOffset (fit (s.dev.fld HIF_MGMT_TX_CTL_length) (bufGet s.dev h))).all (fun o => !ptpStamped (fit (s.dev.fld HIF_MGMT_TX_CTL_length) (bufGet s.dev h)) o) = true →
    Completes (.mgmtTx h) s [.hif, .outs] (fun _ => false) fun t => t.dev.hif = { s.dev.hif with mgmtTx := s.dev.hif.mgmtTx ++ [h] } ∧
      t.dev.outs = .ethernet (s.dev.fld HIF_MGMT_TX_CTL_port) (fit (s.dev.fld HIF_MGMT_TX_CTL_length) (bufGet s.dev h)) :: s.dev.outs) ∧
  (∀ (h o : Nat) (s : State), s.dev.inReset = false → ethOff s.dev (s.dev.fld HIF_MGMT_TX_CTL_port) = false →
    ptpOffset (fit (s.dev.fld HIF_MGMT_TX_CTL_length) (bufGet s.dev h)) = some o → ptpStamped (fit (s.dev.fld HIF_MGMT_TX_CTL_length) (bufGet s.dev h)) o = true →
    Completes (.mgmtTx h) s [.hif, .outs, .pbm] (fun a => a == TIM_CNT_PTP) fun t =>
      bufGet t.dev h = (ptpEgress s.dev (s.dev.fld HIF_MGMT_TX_CTL_port) (fit (s.dev.fld HIF_MGMT_TX_CTL_length) (bufGet s.dev h))).2.1 ++
        (ptpEgress s.dev (s.dev.fld HIF_MGMT_TX_CTL_port) (fit (s.dev.fld HIF_MGMT_TX_CTL_length) (bufGet s.dev h))).1 ∧
      t.dev.outs = .ethernet (s.dev.fld HIF_MGMT_TX_CTL_port)
        (ptpEgress s.dev (s.dev.fld HIF_MGMT_TX_CTL_port) (fit (s.dev.fld HIF_MGMT_TX_CTL_length) (bufGet s.dev h))).1 :: s.dev.outs ∧
      t.dev.fld TIM_CNT_PTP_tx_ins = min (s.dev.fld TIM_CNT_PTP_tx_ins + 1) TIM_CNT_PTP_tx_ins.max) ∧
  (∀ (h : Nat) (s : State), s.dev.inReset = false → ethOff s.dev (s.dev.fld HIF_MGMT_TX_CTL_port) = true →
    exec (.mgmtTx h) s = .next s) ∧
  (∀ (h : Nat) (s : State), s.dev.inReset = false → s.dev.hif.mgmtTx.contains h = true →
    Completes (.mgmtTxDone h) s [.hif, .pbm] (fun _ => false) fun t => Tab.find t.dev.pbm.bufs h = none ∧
      t.dev.hif = { s.dev.hif with mgmtTx := s.dev.hif.mgmtTx.erase h } ∧ ∀ k, k ≠ h → bufGet t.dev k = bufGet s.dev k)
end

