-- ==== Sys2Proof/Laws/Tab.lean ====
section
/-! SUPPORT. What reading a sparse table or a byte memory gives after a change, and that every change of a byte memory keeps its form. -/

namespace Sys2Proof.Machine

/-! ### Find -/

@[simp] theorem Tab.find_nil {α : Type} (k : Nat) : Tab.find ([] : Tab α) k = none := rfl

theorem Tab.find_cons {α : Type} (j : Nat) (v : α) (t : Tab α) (k : Nat) :
    Tab.find ((j, v) :: t) k = if j = k then some v else Tab.find t k := rfl

theorem Tab.find_del {α : Type} (t : Tab α) (k j : Nat) :
    Tab.find (Tab.del t k) j = if j = k then none else Tab.find t j := by
  induction t with
  | nil => simp [Tab.del]
  | cons e t ih =>
    obtain ⟨i, v⟩ := e
    simp only [Tab.del] at ih
    by_cases h : i = k <;> by_cases g : i = j <;> simp_all [Tab.del, Tab.find]

theorem Tab.find_ins {α : Type} (t : Tab α) (k j : Nat) (v : α) (h : Tab.find t k = none) :
    Tab.find (Tab.ins t k v) j = if j = k then some v else Tab.find t j := by
  induction t with
  | nil => simp [Tab.ins, Tab.find, eq_comm]
  | cons e t ih =>
    obtain ⟨i, w⟩ := e
    rw [Tab.find_cons] at h
    by_cases hi : i = k
    · simp [hi] at h
    · simp only [hi, if_false] at h
      by_cases hk : k < i
      · simp only [Tab.ins, hk, if_true, Tab.find_cons]
        by_cases g : j = k
        · simp [g]
        · simp [g, Ne.symm g]
      · simp only [Tab.ins, hk, if_false, Tab.find_cons, ih h]
        by_cases g : i = j
        · subst g; simp [hi]
        · simp [g]

/-- Reading a table after setting one key. -/
@[simp] theorem Tab.find_put {α : Type} (t : Tab α) (k j : Nat) (v : α) :
    Tab.find (Tab.put t k v) j = if j = k then some v else Tab.find t j := by
  rw [Tab.put, Tab.find_ins]
  · by_cases h : j = k <;> simp [h, Tab.find_del]
  · simp [Tab.find_del]

@[simp] theorem Tab.getD_put {α : Type} (t : Tab α) (k j : Nat) (v w : α) :
    Tab.getD (Tab.put t k v) j w = if j = k then v else Tab.getD t j w := by
  simp only [Tab.getD, Tab.find_put]
  split <;> simp

theorem Tab.getD_del {α : Type} (t : Tab α) (k j : Nat) (w : α) :
    Tab.getD (Tab.del t k) j w = if j = k then w else Tab.getD t j w := by
  simp only [Tab.getD, Tab.find_del]
  split <;> simp

theorem Tab.find_filter {α : Type} (t : Tab α) (p : Nat → Bool) (j : Nat) :
    Tab.find (t.filter fun e => p e.1) j = if p j then Tab.find t j else none := by
  induction t with
  | nil => simp
  | cons e t ih =>
    obtain ⟨i, w⟩ := e
    by_cases hp : p i = true <;> by_cases g : i = j <;> simp_all [Tab.find]

/-! ### Order -/

theorem risingFrom_le {α : Type} {t : Tab α} {a b : Nat} (h : risingFrom b t = true) (hab : a ≤ b) : risingFrom a t = true := by
  cases t with
  | nil => rfl
  | cons e t =>
    simp only [risingFrom, Bool.and_eq_true, decide_eq_true_eq] at h ⊢
    exact ⟨Nat.lt_of_le_of_lt hab h.1, h.2⟩

theorem risingFrom_filter {α : Type} {t : Tab α} {a : Nat} (p : Nat × α → Bool) (h : risingFrom a t = true) :
    risingFrom a (t.filter p) = true := by
  induction t generalizing a with
  | nil => rfl
  | cons e t ih =>
    simp only [risingFrom, Bool.and_eq_true, decide_eq_true_eq] at h
    by_cases hp : p e
    · simp only [List.filter_cons, hp, if_true, risingFrom, Bool.and_eq_true, decide_eq_true_eq]
      exact ⟨h.1, ih h.2⟩
    · simp only [List.filter_cons, hp]
      exact ih (risingFrom_le h.2 (Nat.le_of_lt h.1))

theorem rising_of_risingFrom {α : Type} {t : Tab α} {a : Nat} (h : risingFrom a t = true) : rising t = true := by
  cases t with
  | nil => rfl
  | cons e t => simp only [risingFrom, Bool.and_eq_true] at h; exact h.2

theorem rising_filter {α : Type} {t : Tab α} (p : Nat × α → Bool) (h : rising t = true) : rising (t.filter p) = true := by
  cases t with
  | nil => rfl
  | cons e t =>
    simp only [rising] at h
    by_cases hp : p e
    · simp only [List.filter_cons, hp, if_true, rising]; exact risingFrom_filter p h
    · simp only [List.filter_cons, hp]; exact rising_of_risingFrom (risingFrom_filter p h)

theorem risingFrom_ins {α : Type} {t : Tab α} {a k : Nat} (v : α) (h : risingFrom a t = true) (hk : a < k) (hn : Tab.find t k = none) :
    risingFrom a (Tab.ins t k v) = true := by
  induction t generalizing a with
  | nil => simp [Tab.ins, risingFrom, hk]
  | cons e t ih =>
    obtain ⟨i, w⟩ := e
    simp only [risingFrom, Bool.and_eq_true, decide_eq_true_eq] at h
    rw [Tab.find_cons] at hn
    by_cases hi : i = k
    · simp [hi] at hn
    · simp only [hi, if_false] at hn
      by_cases hlt : k < i
      · simp [Tab.ins, hlt, risingFrom, hk, h.2]
      · have : i < k := by omega
        simp [Tab.ins, hlt, risingFrom, h.1, ih h.2 this hn]

/-- Setting a key keeps the keys rising. -/
theorem rising_put {α : Type} {t : Tab α} (k : Nat) (v : α) (h : rising t = true) : rising (Tab.put t k v) = true := by
  have hd : rising (Tab.del t k) = true := rising_filter _ h
  have hn : Tab.find (Tab.del t k) k = none := by simp [Tab.find_del]
  rw [Tab.put]
  generalize Tab.del t k = u at hd hn
  cases u with
  | nil => rfl
  | cons e u =>
    obtain ⟨i, w⟩ := e
    simp only [rising] at hd
    rw [Tab.find_cons] at hn
    by_cases hi : i = k
    · simp [hi] at hn
    · simp only [hi, if_false] at hn
      by_cases hlt : k < i
      · simp [Tab.ins, hlt, rising, risingFrom, hd]
      · have : i < k := by omega
        simp only [Tab.ins, hlt, if_false, rising]
        exact risingFrom_ins v hd this hn

theorem Tab.mem_ins {α : Type} {t : Tab α} {k : Nat} {v : α} {e : Nat × α} (h : e ∈ Tab.ins t k v) : e = (k, v) ∨ e ∈ t := by
  induction t with
  | nil => simpa [Tab.ins] using h
  | cons x t ih =>
    obtain ⟨i, w⟩ := x
    by_cases hlt : k < i
    · simpa [Tab.ins, hlt] using h
    · simp only [Tab.ins, hlt, if_false, List.mem_cons] at h
      rcases h with rfl | h
      · simp
      · rcases ih h with h | h <;> simp [h]

/-! ### Byte memory -/

/-- One byte after a write of one byte. -/
theorem Memory.read_write (blank : Byte) (m : Memory) (a c : Nat) (b : Byte) :
    Memory.read blank (Memory.write blank m a b) c = if c = a then b else Memory.read blank m c := by
  unfold Memory.write Memory.read
  split
  · rename_i h; simp [Tab.getD_del, h]
  · simp

/-- A byte outside what a byte string covers reads as before. -/
theorem Memory.read_writeN_other (blank : Byte) (m : Memory) (a c : Nat) (bs : List Byte) (h : c < a ∨ a + bs.length ≤ c) :
    Memory.read blank (Memory.writeN blank m a bs) c = Memory.read blank m c := by
  induction bs generalizing m a with
  | nil => rfl
  | cons b bs ih =>
    simp only [List.length_cons] at h
    rw [Memory.writeN, ih _ _ (by omega), Memory.read_write]
    have : c ≠ a := by omega
    simp [this]

/-- Byte k of a byte string written at an address. -/
theorem Memory.read_writeN (blank : Byte) (m : Memory) (a k : Nat) (bs : List Byte) (h : k < bs.length) :
    Memory.read blank (Memory.writeN blank m a bs) (a + k) = bs[k] := by
  induction bs generalizing m a k with
  | nil => simp at h
  | cons b bs ih =>
    cases k with
    | zero => rw [Memory.writeN, Memory.read_writeN_other _ _ _ _ _ (by omega), Memory.read_write]; simp
    | succ k =>
      have := ih (Memory.write blank m a b) (a + 1) k (by simpa using h)
      rw [Memory.writeN, show a + (k + 1) = a + 1 + k by omega, this]; rfl

theorem Memory.wf_filter (blank : Byte) (m : Memory) (p : Host.Cell → Bool) (h : Memory.wf blank m = true) :
    Memory.wf blank (m.filter p) = true := by
  simp only [Memory.wf, Bool.and_eq_true, List.all_eq_true] at h ⊢
  exact ⟨rising_filter p h.1, fun e he => h.2 e (List.mem_of_mem_filter he)⟩

theorem Memory.wf_put (blank : Byte) (m : Memory) (a : Nat) (b : Byte) (hb : b ≠ blank) (h : Memory.wf blank m = true) :
    Memory.wf blank (Tab.put m a b) = true := by
  simp only [Memory.wf, Bool.and_eq_true, List.all_eq_true] at h ⊢
  refine ⟨rising_put a b h.1, fun e he => ?_⟩
  rcases Tab.mem_ins he with rfl | he
  · simpa using hb
  · exact h.2 e (List.mem_of_mem_filter he)

/-- A write of one byte keeps the canonical form. -/
theorem Memory.wf_write (blank : Byte) (m : Memory) (a : Nat) (b : Byte) (h : Memory.wf blank m = true) :
    Memory.wf blank (Memory.write blank m a b) = true := by
  unfold Memory.write
  split
  · exact Memory.wf_filter blank m _ h
  · rename_i hb; exact Memory.wf_put blank m a b hb h

/-- A write of a byte string keeps the canonical form. -/
theorem Memory.wf_writeN (blank : Byte) (m : Memory) (a : Nat) (bs : List Byte) (h : Memory.wf blank m = true) :
    Memory.wf blank (Memory.writeN blank m a bs) = true := by
  induction bs generalizing m a with
  | nil => exact h
  | cons b bs ih => exact ih _ _ (Memory.wf_write blank m a b h)

/-- An erasure keeps the canonical form. -/
theorem Memory.wf_erase (blank : Byte) (m : Memory) (a n : Nat) (h : Memory.wf blank m = true) :
    Memory.wf blank (Memory.erase m a n) = true := Memory.wf_filter blank m _ h

/-- A copy keeps the canonical form. -/
theorem Memory.wf_copy (blank : Byte) (m : Memory) (src dst n : Nat) (h : Memory.wf blank m = true) :
    Memory.wf blank (Memory.copy m src dst n) = true := by
  unfold Memory.copy
  have hall : ∀ c ∈ m.filter (fun c => src ≤ c.1 && c.1 < src + n), c.2 ≠ blank := by
    intro c hc
    simp only [Memory.wf, Bool.and_eq_true, List.all_eq_true, bne_iff_ne] at h
    exact h.2 c (List.mem_of_mem_filter hc)
  have start := Memory.wf_erase blank m dst n h
  generalize Memory.erase m dst n = acc at start
  revert hall
  generalize m.filter (fun c => src ≤ c.1 && c.1 < src + n) = l
  intro hall
  induction l generalizing acc with
  | nil => exact start
  | cons c l ih =>
    rw [List.foldl_cons]
    exact ih _ (Memory.wf_put blank acc _ _ (hall c (by simp)) start) (fun e he => hall e (by simp [he]))

end Sys2Proof.Machine
end

