-- ==== Sys2Proof/Laws/Registers.lean ====
section
/-! SUPPORT. What a register and a field read as after a register or a field is set. -/

namespace Sys2Proof.Machine

/-! ### Words -/

theorem getBits_lt (w : Word) (hi lo : Nat) : getBits w hi lo < 2 ^ (hi + 1 - lo) := Nat.mod_lt _ (Nat.two_pow_pos _)

theorem getBits_testBit (w : Word) (hi lo k : Nat) :
    (getBits w hi lo).testBit k = (decide (k < hi + 1 - lo) && w.getLsbD (lo + k)) := by
  simp [getBits, Nat.testBit_mod_two_pow, Nat.testBit_shiftRight, BitVec.getLsbD]

theorem bitMask_getLsbD (hi lo k : Nat) : (bitMask hi lo).getLsbD k = decide (k < 32 ∧ lo ≤ k ∧ k - lo < hi + 1 - lo) := by
  simp only [bitMask, BitVec.getLsbD_ofNat, Nat.testBit_shiftLeft, Nat.testBit_two_pow_sub_one]
  by_cases h : k < 32 <;> by_cases g : lo ≤ k <;> simp [h, g]

theorem setBits_getLsbD (w : Word) (hi lo v k : Nat) :
    (setBits w hi lo v).getLsbD k =
      if k < 32 ∧ lo ≤ k ∧ k ≤ hi then v.testBit (k - lo) else w.getLsbD k := by
  simp only [setBits, BitVec.getLsbD_or, BitVec.getLsbD_and, BitVec.getLsbD_not, bitMask_getLsbD, BitVec.getLsbD_ofNat,
    Nat.testBit_shiftLeft, Nat.testBit_mod_two_pow]
  by_cases h : k < 32
  · by_cases g : lo ≤ k
    · by_cases i : k ≤ hi
      · have : k - lo < hi + 1 - lo := by omega
        simp [h, g, i, this]
      · have : ¬ k - lo < hi + 1 - lo := by omega
        simp [h, g, i, this]
    · simp [h, g]
  · have : w.getLsbD k = false := BitVec.getLsbD_of_ge _ _ (by omega)
    simp [h, this]

/-- A field reads as the low bits of what was written to it. -/
theorem getBits_setBits_same (w : Word) (hi lo v : Nat) (h : hi < 32) : getBits (setBits w hi lo v) hi lo = v % 2 ^ (hi + 1 - lo) := by
  apply Nat.eq_of_testBit_eq
  intro k
  rw [getBits_testBit, setBits_getLsbD, Nat.testBit_mod_two_pow]
  by_cases g : k < hi + 1 - lo
  · have : lo + k < 32 ∧ lo ≤ lo + k ∧ lo + k ≤ hi := by omega
    simp [g, this]
  · simp [g]

/-- A field apart from the one written reads as before. -/
theorem getBits_setBits_other (w : Word) (hi lo v hi' lo' : Nat) (h : hi' < lo ∨ hi < lo') :
    getBits (setBits w hi lo v) hi' lo' = getBits w hi' lo' := by
  apply Nat.eq_of_testBit_eq
  intro k
  rw [getBits_testBit, getBits_testBit, setBits_getLsbD]
  by_cases g : k < hi' + 1 - lo'
  · have : ¬ (lo' + k < 32 ∧ lo ≤ lo' + k ∧ lo' + k ≤ hi) := by omega
    simp [g, this]
  · simp [g]

theorem getBits_ofNat_all (v : Nat) : getBits (BitVec.ofNat 32 v) 31 0 = v % 2 ^ 32 := by
  simp [getBits]

/-! ### Registers -/

/-- A register after one register is set. -/
@[simp] theorem Dev.reg_setReg (d : Dev) (a b : Nat) (w : Word) : (d.setReg a w).reg b = if b = a then w else d.reg b := by
  unfold Dev.setReg Dev.reg
  split
  · rename_i h
    by_cases g : b = a
    · subst g; simp [Tab.getD_del, h]
    · simp [Tab.getD_del, g]
  · simp

theorem Dev.reg_setReg_same (d : Dev) (a : Nat) (w : Word) : (d.setReg a w).reg a = w := by simp

theorem Dev.reg_setReg_other (d : Dev) (a b : Nat) (w : Word) (h : b ≠ a) : (d.setReg a w).reg b = d.reg b := by simp [h]

/-- A field after a register is set. -/
@[simp] theorem Dev.fld_setReg (d : Dev) (a : Nat) (f : Fld) (w : Word) :
    (d.setReg a w).fld f = if f.reg = a then getBits w f.hi f.lo else d.fld f := by
  unfold Dev.fld
  rw [Dev.reg_setReg]
  split <;> rfl

/-- A register after a field is set. -/
theorem Dev.reg_setFld (d : Dev) (f : Fld) (v b : Nat) :
    (d.setFld f v).reg b = if b = f.reg then setBits (d.reg f.reg) f.hi f.lo v else d.reg b := by
  rw [Dev.setFld, Dev.reg_setReg]

/-- A field after that field is set. -/
theorem Dev.fld_setFld_same (d : Dev) (f : Fld) (v : Nat) (h : f.hi < 32) : (d.setFld f v).fld f = v % 2 ^ (f.hi + 1 - f.lo) := by
  rw [Dev.setFld, Dev.fld_setReg, if_pos rfl, getBits_setBits_same _ _ _ _ h]

/-- A field after another field is set, of another register or of other bits. -/
theorem Dev.fld_setFld_other (d : Dev) (f g : Fld) (v : Nat) (h : g.reg ≠ f.reg ∨ g.hi < f.lo ∨ f.hi < g.lo) :
    (d.setFld f v).fld g = d.fld g := by
  rw [Dev.setFld, Dev.fld_setReg]
  split
  · rename_i he
    rcases h with h | h
    · exact absurd he h
    · rw [getBits_setBits_other _ _ _ _ _ _ h, Dev.fld, he]
  · rfl

/-- A field after a field is set, in one statement for fields whose places are known. -/
theorem Dev.fld_setFld (d : Dev) (f g : Fld) (v : Nat) (hh : f.hi < 32)
    (h : f = g ∨ g.reg ≠ f.reg ∨ g.hi < f.lo ∨ f.hi < g.lo) :
    (d.setFld f v).fld g = if f = g then v % 2 ^ (f.hi + 1 - f.lo) else d.fld g := by
  by_cases e : f = g
  · subst e; simp [Dev.fld_setFld_same _ _ _ hh]
  · rw [if_neg e]; exact Dev.fld_setFld_other d f g v (h.resolve_left e)

theorem Dev.bit_eq (d : Dev) (f : Fld) : d.bit f = (d.fld f != 0) := rfl

theorem Dev.fld_lt (d : Dev) (f : Fld) : d.fld f < 2 ^ (f.hi + 1 - f.lo) := getBits_lt _ _ _

/-- A counter field after it counts: one more, held at all ones. -/
theorem Dev.fld_inc_same (d : Dev) (f : Fld) (h : f.hi < 32) : (d.inc f).fld f = min (d.fld f + 1) f.max := by
  rw [Dev.inc, Dev.addFld, Dev.fld_setFld_same _ _ _ h, Nat.mod_eq_of_lt]
  have : 0 < 2 ^ (f.hi + 1 - f.lo) := Nat.two_pow_pos _
  unfold Fld.max
  omega

theorem Dev.fld_inc_other (d : Dev) (f g : Fld) (h : g.reg ≠ f.reg ∨ g.hi < f.lo ∨ f.hi < g.lo) : (d.inc f).fld g = d.fld g :=
  Dev.fld_setFld_other d f g _ h

theorem Dev.reg_inc_other (d : Dev) (f : Fld) (b : Nat) (h : b ≠ f.reg) : (d.inc f).reg b = d.reg b := by
  rw [Dev.inc, Dev.addFld, Dev.reg_setFld, if_neg h]

/-- A register after a list of registers is cleared. -/
theorem Dev.reg_clearRegs (d : Dev) (as : List Nat) (b : Nat) : (d.clearRegs as).reg b = if b ∈ as then 0 else d.reg b := by
  induction as generalizing d with
  | nil => simp [Dev.clearRegs]
  | cons a as ih =>
    have := ih (d.clearReg a)
    simp only [Dev.clearRegs, List.foldl_cons] at this ⊢
    rw [this]
    by_cases h : b ∈ as
    · simp [h]
    · by_cases g : b = a <;> simp [h, g, Dev.clearReg]

/-- Two devices whose registers are listed alike read alike. -/
theorem Dev.reg_congr {d e : Dev} (h : d.regs = e.regs) (a : Nat) : d.reg a = e.reg a := by unfold Dev.reg; rw [h]

theorem Dev.fld_congr {d e : Dev} (h : d.regs = e.regs) (f : Fld) : d.fld f = e.fld f := by unfold Dev.fld; rw [Dev.reg_congr h]

end Sys2Proof.Machine
end

