-- ==== Sys2Proof/Laws/State.lean ====
section
/-! SUPPORT. What each update of the state leaves of each part: one lemma per update and part. -/

namespace Sys2Proof.Machine

/-! ### setReg -/

@[simp] theorem Dev.setReg_shadows (d : Dev) (a : Nat) (w : Word) : (d.setReg a w).shadows = d.shadows := rfl
@[simp] theorem Dev.setReg_held (d : Dev) (a : Nat) (w : Word) : (d.setReg a w).held = d.held := rfl
@[simp] theorem Dev.setReg_rdata (d : Dev) (a : Nat) (w : Word) : (d.setReg a w).rdata = d.rdata := rfl
@[simp] theorem Dev.setReg_stage (d : Dev) (a : Nat) (w : Word) : (d.setReg a w).stage = d.stage := rfl
@[simp] theorem Dev.setReg_isolated (d : Dev) (a : Nat) (w : Word) : (d.setReg a w).isolated = d.isolated := rfl
@[simp] theorem Dev.setReg_inReset (d : Dev) (a : Nat) (w : Word) : (d.setReg a w).inReset = d.inReset := rfl
@[simp] theorem Dev.setReg_draws (d : Dev) (a : Nat) (w : Word) : (d.setReg a w).draws = d.draws := rfl
@[simp] theorem Dev.setReg_outs (d : Dev) (a : Nat) (w : Word) : (d.setReg a w).outs = d.outs := rfl
@[simp] theorem Dev.setReg_tel (d : Dev) (a : Nat) (w : Word) : (d.setReg a w).tel = d.tel := rfl
@[simp] theorem Dev.setReg_jrnl (d : Dev) (a : Nat) (w : Word) : (d.setReg a w).jrnl = d.jrnl := rfl
@[simp] theorem Dev.setReg_hif (d : Dev) (a : Nat) (w : Word) : (d.setReg a w).hif = d.hif := rfl
@[simp] theorem Dev.setReg_bld (d : Dev) (a : Nat) (w : Word) : (d.setReg a w).bld = d.bld := rfl
@[simp] theorem Dev.setReg_dsp (d : Dev) (a : Nat) (w : Word) : (d.setReg a w).dsp = d.dsp := rfl
@[simp] theorem Dev.setReg_ports (d : Dev) (a : Nat) (w : Word) : (d.setReg a w).ports = d.ports := rfl
@[simp] theorem Dev.setReg_hc (d : Dev) (a : Nat) (w : Word) : (d.setReg a w).hc = d.hc := rfl
@[simp] theorem Dev.setReg_rx (d : Dev) (a : Nat) (w : Word) : (d.setReg a w).rx = d.rx := rfl
@[simp] theorem Dev.setReg_tx (d : Dev) (a : Nat) (w : Word) : (d.setReg a w).tx = d.tx := rfl
@[simp] theorem Dev.setReg_pbm (d : Dev) (a : Nat) (w : Word) : (d.setReg a w).pbm = d.pbm := rfl
@[simp] theorem Dev.setReg_tim (d : Dev) (a : Nat) (w : Word) : (d.setReg a w).tim = d.tim := rfl
@[simp] theorem Dev.setReg_ktl (d : Dev) (a : Nat) (w : Word) : (d.setReg a w).ktl = d.ktl := rfl
@[simp] theorem Dev.setReg_ts (d : Dev) (a : Nat) (w : Word) : (d.setReg a w).ts = d.ts := rfl
@[simp] theorem Dev.setReg_tbl (d : Dev) (a : Nat) (w : Word) : (d.setReg a w).tbl = d.tbl := rfl
@[simp] theorem Dev.setReg_fwd (d : Dev) (a : Nat) (w : Word) : (d.setReg a w).fwd = d.fwd := rfl
@[simp] theorem Dev.setReg_vault (d : Dev) (a : Nat) (w : Word) : (d.setReg a w).vault = d.vault := rfl
@[simp] theorem Dev.setReg_boot (d : Dev) (a : Nat) (w : Word) : (d.setReg a w).boot = d.boot := rfl
@[simp] theorem Dev.setReg_cmp (d : Dev) (a : Nat) (w : Word) : (d.setReg a w).cmp = d.cmp := rfl
@[simp] theorem Dev.setReg_res (d : Dev) (a : Nat) (w : Word) : (d.setReg a w).res = d.res := rfl

/-! ### setFld -/

@[simp] theorem Dev.setFld_shadows (d : Dev) (f : Fld) (v : Nat) : (d.setFld f v).shadows = d.shadows := rfl
@[simp] theorem Dev.setFld_held (d : Dev) (f : Fld) (v : Nat) : (d.setFld f v).held = d.held := rfl
@[simp] theorem Dev.setFld_rdata (d : Dev) (f : Fld) (v : Nat) : (d.setFld f v).rdata = d.rdata := rfl
@[simp] theorem Dev.setFld_stage (d : Dev) (f : Fld) (v : Nat) : (d.setFld f v).stage = d.stage := rfl
@[simp] theorem Dev.setFld_isolated (d : Dev) (f : Fld) (v : Nat) : (d.setFld f v).isolated = d.isolated := rfl
@[simp] theorem Dev.setFld_inReset (d : Dev) (f : Fld) (v : Nat) : (d.setFld f v).inReset = d.inReset := rfl
@[simp] theorem Dev.setFld_draws (d : Dev) (f : Fld) (v : Nat) : (d.setFld f v).draws = d.draws := rfl
@[simp] theorem Dev.setFld_outs (d : Dev) (f : Fld) (v : Nat) : (d.setFld f v).outs = d.outs := rfl
@[simp] theorem Dev.setFld_tel (d : Dev) (f : Fld) (v : Nat) : (d.setFld f v).tel = d.tel := rfl
@[simp] theorem Dev.setFld_jrnl (d : Dev) (f : Fld) (v : Nat) : (d.setFld f v).jrnl = d.jrnl := rfl
@[simp] theorem Dev.setFld_hif (d : Dev) (f : Fld) (v : Nat) : (d.setFld f v).hif = d.hif := rfl
@[simp] theorem Dev.setFld_bld (d : Dev) (f : Fld) (v : Nat) : (d.setFld f v).bld = d.bld := rfl
@[simp] theorem Dev.setFld_dsp (d : Dev) (f : Fld) (v : Nat) : (d.setFld f v).dsp = d.dsp := rfl
@[simp] theorem Dev.setFld_ports (d : Dev) (f : Fld) (v : Nat) : (d.setFld f v).ports = d.ports := rfl
@[simp] theorem Dev.setFld_hc (d : Dev) (f : Fld) (v : Nat) : (d.setFld f v).hc = d.hc := rfl
@[simp] theorem Dev.setFld_rx (d : Dev) (f : Fld) (v : Nat) : (d.setFld f v).rx = d.rx := rfl
@[simp] theorem Dev.setFld_tx (d : Dev) (f : Fld) (v : Nat) : (d.setFld f v).tx = d.tx := rfl
@[simp] theorem Dev.setFld_pbm (d : Dev) (f : Fld) (v : Nat) : (d.setFld f v).pbm = d.pbm := rfl
@[simp] theorem Dev.setFld_tim (d : Dev) (f : Fld) (v : Nat) : (d.setFld f v).tim = d.tim := rfl
@[simp] theorem Dev.setFld_ktl (d : Dev) (f : Fld) (v : Nat) : (d.setFld f v).ktl = d.ktl := rfl
@[simp] theorem Dev.setFld_ts (d : Dev) (f : Fld) (v : Nat) : (d.setFld f v).ts = d.ts := rfl
@[simp] theorem Dev.setFld_tbl (d : Dev) (f : Fld) (v : Nat) : (d.setFld f v).tbl = d.tbl := rfl
@[simp] theorem Dev.setFld_fwd (d : Dev) (f : Fld) (v : Nat) : (d.setFld f v).fwd = d.fwd := rfl
@[simp] theorem Dev.setFld_vault (d : Dev) (f : Fld) (v : Nat) : (d.setFld f v).vault = d.vault := rfl
@[simp] theorem Dev.setFld_boot (d : Dev) (f : Fld) (v : Nat) : (d.setFld f v).boot = d.boot := rfl
@[simp] theorem Dev.setFld_cmp (d : Dev) (f : Fld) (v : Nat) : (d.setFld f v).cmp = d.cmp := rfl
@[simp] theorem Dev.setFld_res (d : Dev) (f : Fld) (v : Nat) : (d.setFld f v).res = d.res := rfl

/-! ### setBit -/

@[simp] theorem Dev.setBit_shadows (d : Dev) (f : Fld) (b : Bool) : (d.setBit f b).shadows = d.shadows := rfl
@[simp] theorem Dev.setBit_held (d : Dev) (f : Fld) (b : Bool) : (d.setBit f b).held = d.held := rfl
@[simp] theorem Dev.setBit_rdata (d : Dev) (f : Fld) (b : Bool) : (d.setBit f b).rdata = d.rdata := rfl
@[simp] theorem Dev.setBit_stage (d : Dev) (f : Fld) (b : Bool) : (d.setBit f b).stage = d.stage := rfl
@[simp] theorem Dev.setBit_isolated (d : Dev) (f : Fld) (b : Bool) : (d.setBit f b).isolated = d.isolated := rfl
@[simp] theorem Dev.setBit_inReset (d : Dev) (f : Fld) (b : Bool) : (d.setBit f b).inReset = d.inReset := rfl
@[simp] theorem Dev.setBit_draws (d : Dev) (f : Fld) (b : Bool) : (d.setBit f b).draws = d.draws := rfl
@[simp] theorem Dev.setBit_outs (d : Dev) (f : Fld) (b : Bool) : (d.setBit f b).outs = d.outs := rfl
@[simp] theorem Dev.setBit_tel (d : Dev) (f : Fld) (b : Bool) : (d.setBit f b).tel = d.tel := rfl
@[simp] theorem Dev.setBit_jrnl (d : Dev) (f : Fld) (b : Bool) : (d.setBit f b).jrnl = d.jrnl := rfl
@[simp] theorem Dev.setBit_hif (d : Dev) (f : Fld) (b : Bool) : (d.setBit f b).hif = d.hif := rfl
@[simp] theorem Dev.setBit_bld (d : Dev) (f : Fld) (b : Bool) : (d.setBit f b).bld = d.bld := rfl
@[simp] theorem Dev.setBit_dsp (d : Dev) (f : Fld) (b : Bool) : (d.setBit f b).dsp = d.dsp := rfl
@[simp] theorem Dev.setBit_ports (d : Dev) (f : Fld) (b : Bool) : (d.setBit f b).ports = d.ports := rfl
@[simp] theorem Dev.setBit_hc (d : Dev) (f : Fld) (b : Bool) : (d.setBit f b).hc = d.hc := rfl
@[simp] theorem Dev.setBit_rx (d : Dev) (f : Fld) (b : Bool) : (d.setBit f b).rx = d.rx := rfl
@[simp] theorem Dev.setBit_tx (d : Dev) (f : Fld) (b : Bool) : (d.setBit f b).tx = d.tx := rfl
@[simp] theorem Dev.setBit_pbm (d : Dev) (f : Fld) (b : Bool) : (d.setBit f b).pbm = d.pbm := rfl
@[simp] theorem Dev.setBit_tim (d : Dev) (f : Fld) (b : Bool) : (d.setBit f b).tim = d.tim := rfl
@[simp] theorem Dev.setBit_ktl (d : Dev) (f : Fld) (b : Bool) : (d.setBit f b).ktl = d.ktl := rfl
@[simp] theorem Dev.setBit_ts (d : Dev) (f : Fld) (b : Bool) : (d.setBit f b).ts = d.ts := rfl
@[simp] theorem Dev.setBit_tbl (d : Dev) (f : Fld) (b : Bool) : (d.setBit f b).tbl = d.tbl := rfl
@[simp] theorem Dev.setBit_fwd (d : Dev) (f : Fld) (b : Bool) : (d.setBit f b).fwd = d.fwd := rfl
@[simp] theorem Dev.setBit_vault (d : Dev) (f : Fld) (b : Bool) : (d.setBit f b).vault = d.vault := rfl
@[simp] theorem Dev.setBit_boot (d : Dev) (f : Fld) (b : Bool) : (d.setBit f b).boot = d.boot := rfl
@[simp] theorem Dev.setBit_cmp (d : Dev) (f : Fld) (b : Bool) : (d.setBit f b).cmp = d.cmp := rfl
@[simp] theorem Dev.setBit_res (d : Dev) (f : Fld) (b : Bool) : (d.setBit f b).res = d.res := rfl

/-! ### addFld -/

@[simp] theorem Dev.addFld_shadows (d : Dev) (f : Fld) (n : Nat) : (d.addFld f n).shadows = d.shadows := rfl
@[simp] theorem Dev.addFld_held (d : Dev) (f : Fld) (n : Nat) : (d.addFld f n).held = d.held := rfl
@[simp] theorem Dev.addFld_rdata (d : Dev) (f : Fld) (n : Nat) : (d.addFld f n).rdata = d.rdata := rfl
@[simp] theorem Dev.addFld_stage (d : Dev) (f : Fld) (n : Nat) : (d.addFld f n).stage = d.stage := rfl
@[simp] theorem Dev.addFld_isolated (d : Dev) (f : Fld) (n : Nat) : (d.addFld f n).isolated = d.isolated := rfl
@[simp] theorem Dev.addFld_inReset (d : Dev) (f : Fld) (n : Nat) : (d.addFld f n).inReset = d.inReset := rfl
@[simp] theorem Dev.addFld_draws (d : Dev) (f : Fld) (n : Nat) : (d.addFld f n).draws = d.draws := rfl
@[simp] theorem Dev.addFld_outs (d : Dev) (f : Fld) (n : Nat) : (d.addFld f n).outs = d.outs := rfl
@[simp] theorem Dev.addFld_tel (d : Dev) (f : Fld) (n : Nat) : (d.addFld f n).tel = d.tel := rfl
@[simp] theorem Dev.addFld_jrnl (d : Dev) (f : Fld) (n : Nat) : (d.addFld f n).jrnl = d.jrnl := rfl
@[simp] theorem Dev.addFld_hif (d : Dev) (f : Fld) (n : Nat) : (d.addFld f n).hif = d.hif := rfl
@[simp] theorem Dev.addFld_bld (d : Dev) (f : Fld) (n : Nat) : (d.addFld f n).bld = d.bld := rfl
@[simp] theorem Dev.addFld_dsp (d : Dev) (f : Fld) (n : Nat) : (d.addFld f n).dsp = d.dsp := rfl
@[simp] theorem Dev.addFld_ports (d : Dev) (f : Fld) (n : Nat) : (d.addFld f n).ports = d.ports := rfl
@[simp] theorem Dev.addFld_hc (d : Dev) (f : Fld) (n : Nat) : (d.addFld f n).hc = d.hc := rfl
@[simp] theorem Dev.addFld_rx (d : Dev) (f : Fld) (n : Nat) : (d.addFld f n).rx = d.rx := rfl
@[simp] theorem Dev.addFld_tx (d : Dev) (f : Fld) (n : Nat) : (d.addFld f n).tx = d.tx := rfl
@[simp] theorem Dev.addFld_pbm (d : Dev) (f : Fld) (n : Nat) : (d.addFld f n).pbm = d.pbm := rfl
@[simp] theorem Dev.addFld_tim (d : Dev) (f : Fld) (n : Nat) : (d.addFld f n).tim = d.tim := rfl
@[simp] theorem Dev.addFld_ktl (d : Dev) (f : Fld) (n : Nat) : (d.addFld f n).ktl = d.ktl := rfl
@[simp] theorem Dev.addFld_ts (d : Dev) (f : Fld) (n : Nat) : (d.addFld f n).ts = d.ts := rfl
@[simp] theorem Dev.addFld_tbl (d : Dev) (f : Fld) (n : Nat) : (d.addFld f n).tbl = d.tbl := rfl
@[simp] theorem Dev.addFld_fwd (d : Dev) (f : Fld) (n : Nat) : (d.addFld f n).fwd = d.fwd := rfl
@[simp] theorem Dev.addFld_vault (d : Dev) (f : Fld) (n : Nat) : (d.addFld f n).vault = d.vault := rfl
@[simp] theorem Dev.addFld_boot (d : Dev) (f : Fld) (n : Nat) : (d.addFld f n).boot = d.boot := rfl
@[simp] theorem Dev.addFld_cmp (d : Dev) (f : Fld) (n : Nat) : (d.addFld f n).cmp = d.cmp := rfl
@[simp] theorem Dev.addFld_res (d : Dev) (f : Fld) (n : Nat) : (d.addFld f n).res = d.res := rfl

/-! ### inc -/

@[simp] theorem Dev.inc_shadows (d : Dev) (f : Fld) : (d.inc f).shadows = d.shadows := rfl
@[simp] theorem Dev.inc_held (d : Dev) (f : Fld) : (d.inc f).held = d.held := rfl
@[simp] theorem Dev.inc_rdata (d : Dev) (f : Fld) : (d.inc f).rdata = d.rdata := rfl
@[simp] theorem Dev.inc_stage (d : Dev) (f : Fld) : (d.inc f).stage = d.stage := rfl
@[simp] theorem Dev.inc_isolated (d : Dev) (f : Fld) : (d.inc f).isolated = d.isolated := rfl
@[simp] theorem Dev.inc_inReset (d : Dev) (f : Fld) : (d.inc f).inReset = d.inReset := rfl
@[simp] theorem Dev.inc_draws (d : Dev) (f : Fld) : (d.inc f).draws = d.draws := rfl
@[simp] theorem Dev.inc_outs (d : Dev) (f : Fld) : (d.inc f).outs = d.outs := rfl
@[simp] theorem Dev.inc_tel (d : Dev) (f : Fld) : (d.inc f).tel = d.tel := rfl
@[simp] theorem Dev.inc_jrnl (d : Dev) (f : Fld) : (d.inc f).jrnl = d.jrnl := rfl
@[simp] theorem Dev.inc_hif (d : Dev) (f : Fld) : (d.inc f).hif = d.hif := rfl
@[simp] theorem Dev.inc_bld (d : Dev) (f : Fld) : (d.inc f).bld = d.bld := rfl
@[simp] theorem Dev.inc_dsp (d : Dev) (f : Fld) : (d.inc f).dsp = d.dsp := rfl
@[simp] theorem Dev.inc_ports (d : Dev) (f : Fld) : (d.inc f).ports = d.ports := rfl
@[simp] theorem Dev.inc_hc (d : Dev) (f : Fld) : (d.inc f).hc = d.hc := rfl
@[simp] theorem Dev.inc_rx (d : Dev) (f : Fld) : (d.inc f).rx = d.rx := rfl
@[simp] theorem Dev.inc_tx (d : Dev) (f : Fld) : (d.inc f).tx = d.tx := rfl
@[simp] theorem Dev.inc_pbm (d : Dev) (f : Fld) : (d.inc f).pbm = d.pbm := rfl
@[simp] theorem Dev.inc_tim (d : Dev) (f : Fld) : (d.inc f).tim = d.tim := rfl
@[simp] theorem Dev.inc_ktl (d : Dev) (f : Fld) : (d.inc f).ktl = d.ktl := rfl
@[simp] theorem Dev.inc_ts (d : Dev) (f : Fld) : (d.inc f).ts = d.ts := rfl
@[simp] theorem Dev.inc_tbl (d : Dev) (f : Fld) : (d.inc f).tbl = d.tbl := rfl
@[simp] theorem Dev.inc_fwd (d : Dev) (f : Fld) : (d.inc f).fwd = d.fwd := rfl
@[simp] theorem Dev.inc_vault (d : Dev) (f : Fld) : (d.inc f).vault = d.vault := rfl
@[simp] theorem Dev.inc_boot (d : Dev) (f : Fld) : (d.inc f).boot = d.boot := rfl
@[simp] theorem Dev.inc_cmp (d : Dev) (f : Fld) : (d.inc f).cmp = d.cmp := rfl
@[simp] theorem Dev.inc_res (d : Dev) (f : Fld) : (d.inc f).res = d.res := rfl

/-! ### clearReg -/

@[simp] theorem Dev.clearReg_shadows (d : Dev) (a : Nat) : (d.clearReg a).shadows = d.shadows := rfl
@[simp] theorem Dev.clearReg_held (d : Dev) (a : Nat) : (d.clearReg a).held = d.held := rfl
@[simp] theorem Dev.clearReg_rdata (d : Dev) (a : Nat) : (d.clearReg a).rdata = d.rdata := rfl
@[simp] theorem Dev.clearReg_stage (d : Dev) (a : Nat) : (d.clearReg a).stage = d.stage := rfl
@[simp] theorem Dev.clearReg_isolated (d : Dev) (a : Nat) : (d.clearReg a).isolated = d.isolated := rfl
@[simp] theorem Dev.clearReg_inReset (d : Dev) (a : Nat) : (d.clearReg a).inReset = d.inReset := rfl
@[simp] theorem Dev.clearReg_draws (d : Dev) (a : Nat) : (d.clearReg a).draws = d.draws := rfl
@[simp] theorem Dev.clearReg_outs (d : Dev) (a : Nat) : (d.clearReg a).outs = d.outs := rfl
@[simp] theorem Dev.clearReg_tel (d : Dev) (a : Nat) : (d.clearReg a).tel = d.tel := rfl
@[simp] theorem Dev.clearReg_jrnl (d : Dev) (a : Nat) : (d.clearReg a).jrnl = d.jrnl := rfl
@[simp] theorem Dev.clearReg_hif (d : Dev) (a : Nat) : (d.clearReg a).hif = d.hif := rfl
@[simp] theorem Dev.clearReg_bld (d : Dev) (a : Nat) : (d.clearReg a).bld = d.bld := rfl
@[simp] theorem Dev.clearReg_dsp (d : Dev) (a : Nat) : (d.clearReg a).dsp = d.dsp := rfl
@[simp] theorem Dev.clearReg_ports (d : Dev) (a : Nat) : (d.clearReg a).ports = d.ports := rfl
@[simp] theorem Dev.clearReg_hc (d : Dev) (a : Nat) : (d.clearReg a).hc = d.hc := rfl
@[simp] theorem Dev.clearReg_rx (d : Dev) (a : Nat) : (d.clearReg a).rx = d.rx := rfl
@[simp] theorem Dev.clearReg_tx (d : Dev) (a : Nat) : (d.clearReg a).tx = d.tx := rfl
@[simp] theorem Dev.clearReg_pbm (d : Dev) (a : Nat) : (d.clearReg a).pbm = d.pbm := rfl
@[simp] theorem Dev.clearReg_tim (d : Dev) (a : Nat) : (d.clearReg a).tim = d.tim := rfl
@[simp] theorem Dev.clearReg_ktl (d : Dev) (a : Nat) : (d.clearReg a).ktl = d.ktl := rfl
@[simp] theorem Dev.clearReg_ts (d : Dev) (a : Nat) : (d.clearReg a).ts = d.ts := rfl
@[simp] theorem Dev.clearReg_tbl (d : Dev) (a : Nat) : (d.clearReg a).tbl = d.tbl := rfl
@[simp] theorem Dev.clearReg_fwd (d : Dev) (a : Nat) : (d.clearReg a).fwd = d.fwd := rfl
@[simp] theorem Dev.clearReg_vault (d : Dev) (a : Nat) : (d.clearReg a).vault = d.vault := rfl
@[simp] theorem Dev.clearReg_boot (d : Dev) (a : Nat) : (d.clearReg a).boot = d.boot := rfl
@[simp] theorem Dev.clearReg_cmp (d : Dev) (a : Nat) : (d.clearReg a).cmp = d.cmp := rfl
@[simp] theorem Dev.clearReg_res (d : Dev) (a : Nat) : (d.clearReg a).res = d.res := rfl

/-! ### setReg64 -/

@[simp] theorem Dev.setReg64_shadows (d : Dev) (lo v : Nat) : (d.setReg64 lo v).shadows = d.shadows := rfl
@[simp] theorem Dev.setReg64_held (d : Dev) (lo v : Nat) : (d.setReg64 lo v).held = d.held := rfl
@[simp] theorem Dev.setReg64_rdata (d : Dev) (lo v : Nat) : (d.setReg64 lo v).rdata = d.rdata := rfl
@[simp] theorem Dev.setReg64_stage (d : Dev) (lo v : Nat) : (d.setReg64 lo v).stage = d.stage := rfl
@[simp] theorem Dev.setReg64_isolated (d : Dev) (lo v : Nat) : (d.setReg64 lo v).isolated = d.isolated := rfl
@[simp] theorem Dev.setReg64_inReset (d : Dev) (lo v : Nat) : (d.setReg64 lo v).inReset = d.inReset := rfl
@[simp] theorem Dev.setReg64_draws (d : Dev) (lo v : Nat) : (d.setReg64 lo v).draws = d.draws := rfl
@[simp] theorem Dev.setReg64_outs (d : Dev) (lo v : Nat) : (d.setReg64 lo v).outs = d.outs := rfl
@[simp] theorem Dev.setReg64_tel (d : Dev) (lo v : Nat) : (d.setReg64 lo v).tel = d.tel := rfl
@[simp] theorem Dev.setReg64_jrnl (d : Dev) (lo v : Nat) : (d.setReg64 lo v).jrnl = d.jrnl := rfl
@[simp] theorem Dev.setReg64_hif (d : Dev) (lo v : Nat) : (d.setReg64 lo v).hif = d.hif := rfl
@[simp] theorem Dev.setReg64_bld (d : Dev) (lo v : Nat) : (d.setReg64 lo v).bld = d.bld := rfl
@[simp] theorem Dev.setReg64_dsp (d : Dev) (lo v : Nat) : (d.setReg64 lo v).dsp = d.dsp := rfl
@[simp] theorem Dev.setReg64_ports (d : Dev) (lo v : Nat) : (d.setReg64 lo v).ports = d.ports := rfl
@[simp] theorem Dev.setReg64_hc (d : Dev) (lo v : Nat) : (d.setReg64 lo v).hc = d.hc := rfl
@[simp] theorem Dev.setReg64_rx (d : Dev) (lo v : Nat) : (d.setReg64 lo v).rx = d.rx := rfl
@[simp] theorem Dev.setReg64_tx (d : Dev) (lo v : Nat) : (d.setReg64 lo v).tx = d.tx := rfl
@[simp] theorem Dev.setReg64_pbm (d : Dev) (lo v : Nat) : (d.setReg64 lo v).pbm = d.pbm := rfl
@[simp] theorem Dev.setReg64_tim (d : Dev) (lo v : Nat) : (d.setReg64 lo v).tim = d.tim := rfl
@[simp] theorem Dev.setReg64_ktl (d : Dev) (lo v : Nat) : (d.setReg64 lo v).ktl = d.ktl := rfl
@[simp] theorem Dev.setReg64_ts (d : Dev) (lo v : Nat) : (d.setReg64 lo v).ts = d.ts := rfl
@[simp] theorem Dev.setReg64_tbl (d : Dev) (lo v : Nat) : (d.setReg64 lo v).tbl = d.tbl := rfl
@[simp] theorem Dev.setReg64_fwd (d : Dev) (lo v : Nat) : (d.setReg64 lo v).fwd = d.fwd := rfl
@[simp] theorem Dev.setReg64_vault (d : Dev) (lo v : Nat) : (d.setReg64 lo v).vault = d.vault := rfl
@[simp] theorem Dev.setReg64_boot (d : Dev) (lo v : Nat) : (d.setReg64 lo v).boot = d.boot := rfl
@[simp] theorem Dev.setReg64_cmp (d : Dev) (lo v : Nat) : (d.setReg64 lo v).cmp = d.cmp := rfl
@[simp] theorem Dev.setReg64_res (d : Dev) (lo v : Nat) : (d.setReg64 lo v).res = d.res := rfl

/-! ### emit -/

@[simp] theorem Dev.emit_shadows (d : Dev) (o : Output) : (d.emit o).shadows = d.shadows := rfl
@[simp] theorem Dev.emit_held (d : Dev) (o : Output) : (d.emit o).held = d.held := rfl
@[simp] theorem Dev.emit_rdata (d : Dev) (o : Output) : (d.emit o).rdata = d.rdata := rfl
@[simp] theorem Dev.emit_stage (d : Dev) (o : Output) : (d.emit o).stage = d.stage := rfl
@[simp] theorem Dev.emit_isolated (d : Dev) (o : Output) : (d.emit o).isolated = d.isolated := rfl
@[simp] theorem Dev.emit_inReset (d : Dev) (o : Output) : (d.emit o).inReset = d.inReset := rfl
@[simp] theorem Dev.emit_draws (d : Dev) (o : Output) : (d.emit o).draws = d.draws := rfl
@[simp] theorem Dev.emit_tel (d : Dev) (o : Output) : (d.emit o).tel = d.tel := rfl
@[simp] theorem Dev.emit_jrnl (d : Dev) (o : Output) : (d.emit o).jrnl = d.jrnl := rfl
@[simp] theorem Dev.emit_hif (d : Dev) (o : Output) : (d.emit o).hif = d.hif := rfl
@[simp] theorem Dev.emit_bld (d : Dev) (o : Output) : (d.emit o).bld = d.bld := rfl
@[simp] theorem Dev.emit_dsp (d : Dev) (o : Output) : (d.emit o).dsp = d.dsp := rfl
@[simp] theorem Dev.emit_ports (d : Dev) (o : Output) : (d.emit o).ports = d.ports := rfl
@[simp] theorem Dev.emit_hc (d : Dev) (o : Output) : (d.emit o).hc = d.hc := rfl
@[simp] theorem Dev.emit_rx (d : Dev) (o : Output) : (d.emit o).rx = d.rx := rfl
@[simp] theorem Dev.emit_tx (d : Dev) (o : Output) : (d.emit o).tx = d.tx := rfl
@[simp] theorem Dev.emit_pbm (d : Dev) (o : Output) : (d.emit o).pbm = d.pbm := rfl
@[simp] theorem Dev.emit_tim (d : Dev) (o : Output) : (d.emit o).tim = d.tim := rfl
@[simp] theorem Dev.emit_ktl (d : Dev) (o : Output) : (d.emit o).ktl = d.ktl := rfl
@[simp] theorem Dev.emit_ts (d : Dev) (o : Output) : (d.emit o).ts = d.ts := rfl
@[simp] theorem Dev.emit_tbl (d : Dev) (o : Output) : (d.emit o).tbl = d.tbl := rfl
@[simp] theorem Dev.emit_fwd (d : Dev) (o : Output) : (d.emit o).fwd = d.fwd := rfl
@[simp] theorem Dev.emit_vault (d : Dev) (o : Output) : (d.emit o).vault = d.vault := rfl
@[simp] theorem Dev.emit_boot (d : Dev) (o : Output) : (d.emit o).boot = d.boot := rfl
@[simp] theorem Dev.emit_cmp (d : Dev) (o : Output) : (d.emit o).cmp = d.cmp := rfl
@[simp] theorem Dev.emit_res (d : Dev) (o : Output) : (d.emit o).res = d.res := rfl
@[simp] theorem Dev.emit_regs (d : Dev) (o : Output) : (d.emit o).regs = d.regs := rfl

/-! ### answer -/

@[simp] theorem Dev.answer_shadows (d : Dev) (m : Sys2Proof.Master) (w : Nat) : (d.answer m w).shadows = d.shadows := rfl
@[simp] theorem Dev.answer_held (d : Dev) (m : Sys2Proof.Master) (w : Nat) : (d.answer m w).held = d.held := rfl
@[simp] theorem Dev.answer_stage (d : Dev) (m : Sys2Proof.Master) (w : Nat) : (d.answer m w).stage = d.stage := rfl
@[simp] theorem Dev.answer_isolated (d : Dev) (m : Sys2Proof.Master) (w : Nat) : (d.answer m w).isolated = d.isolated := rfl
@[simp] theorem Dev.answer_inReset (d : Dev) (m : Sys2Proof.Master) (w : Nat) : (d.answer m w).inReset = d.inReset := rfl
@[simp] theorem Dev.answer_draws (d : Dev) (m : Sys2Proof.Master) (w : Nat) : (d.answer m w).draws = d.draws := rfl
@[simp] theorem Dev.answer_outs (d : Dev) (m : Sys2Proof.Master) (w : Nat) : (d.answer m w).outs = d.outs := rfl
@[simp] theorem Dev.answer_tel (d : Dev) (m : Sys2Proof.Master) (w : Nat) : (d.answer m w).tel = d.tel := rfl
@[simp] theorem Dev.answer_jrnl (d : Dev) (m : Sys2Proof.Master) (w : Nat) : (d.answer m w).jrnl = d.jrnl := rfl
@[simp] theorem Dev.answer_hif (d : Dev) (m : Sys2Proof.Master) (w : Nat) : (d.answer m w).hif = d.hif := rfl
@[simp] theorem Dev.answer_bld (d : Dev) (m : Sys2Proof.Master) (w : Nat) : (d.answer m w).bld = d.bld := rfl
@[simp] theorem Dev.answer_dsp (d : Dev) (m : Sys2Proof.Master) (w : Nat) : (d.answer m w).dsp = d.dsp := rfl
@[simp] theorem Dev.answer_ports (d : Dev) (m : Sys2Proof.Master) (w : Nat) : (d.answer m w).ports = d.ports := rfl
@[simp] theorem Dev.answer_hc (d : Dev) (m : Sys2Proof.Master) (w : Nat) : (d.answer m w).hc = d.hc := rfl
@[simp] theorem Dev.answer_rx (d : Dev) (m : Sys2Proof.Master) (w : Nat) : (d.answer m w).rx = d.rx := rfl
@[simp] theorem Dev.answer_tx (d : Dev) (m : Sys2Proof.Master) (w : Nat) : (d.answer m w).tx = d.tx := rfl
@[simp] theorem Dev.answer_pbm (d : Dev) (m : Sys2Proof.Master) (w : Nat) : (d.answer m w).pbm = d.pbm := rfl
@[simp] theorem Dev.answer_tim (d : Dev) (m : Sys2Proof.Master) (w : Nat) : (d.answer m w).tim = d.tim := rfl
@[simp] theorem Dev.answer_ktl (d : Dev) (m : Sys2Proof.Master) (w : Nat) : (d.answer m w).ktl = d.ktl := rfl
@[simp] theorem Dev.answer_ts (d : Dev) (m : Sys2Proof.Master) (w : Nat) : (d.answer m w).ts = d.ts := rfl
@[simp] theorem Dev.answer_tbl (d : Dev) (m : Sys2Proof.Master) (w : Nat) : (d.answer m w).tbl = d.tbl := rfl
@[simp] theorem Dev.answer_fwd (d : Dev) (m : Sys2Proof.Master) (w : Nat) : (d.answer m w).fwd = d.fwd := rfl
@[simp] theorem Dev.answer_vault (d : Dev) (m : Sys2Proof.Master) (w : Nat) : (d.answer m w).vault = d.vault := rfl
@[simp] theorem Dev.answer_boot (d : Dev) (m : Sys2Proof.Master) (w : Nat) : (d.answer m w).boot = d.boot := rfl
@[simp] theorem Dev.answer_cmp (d : Dev) (m : Sys2Proof.Master) (w : Nat) : (d.answer m w).cmp = d.cmp := rfl
@[simp] theorem Dev.answer_res (d : Dev) (m : Sys2Proof.Master) (w : Nat) : (d.answer m w).res = d.res := rfl
@[simp] theorem Dev.answer_regs (d : Dev) (m : Sys2Proof.Master) (w : Nat) : (d.answer m w).regs = d.regs := rfl

/-! ### capture -/

@[simp] theorem Dev.capture_held (d : Dev) (m : Sys2Proof.Master) (a : Nat) (w : Word) : (d.capture m a w).held = d.held := rfl
@[simp] theorem Dev.capture_rdata (d : Dev) (m : Sys2Proof.Master) (a : Nat) (w : Word) : (d.capture m a w).rdata = d.rdata := rfl
@[simp] theorem Dev.capture_stage (d : Dev) (m : Sys2Proof.Master) (a : Nat) (w : Word) : (d.capture m a w).stage = d.stage := rfl
@[simp] theorem Dev.capture_isolated (d : Dev) (m : Sys2Proof.Master) (a : Nat) (w : Word) : (d.capture m a w).isolated = d.isolated := rfl
@[simp] theorem Dev.capture_inReset (d : Dev) (m : Sys2Proof.Master) (a : Nat) (w : Word) : (d.capture m a w).inReset = d.inReset := rfl
@[simp] theorem Dev.capture_draws (d : Dev) (m : Sys2Proof.Master) (a : Nat) (w : Word) : (d.capture m a w).draws = d.draws := rfl
@[simp] theorem Dev.capture_outs (d : Dev) (m : Sys2Proof.Master) (a : Nat) (w : Word) : (d.capture m a w).outs = d.outs := rfl
@[simp] theorem Dev.capture_tel (d : Dev) (m : Sys2Proof.Master) (a : Nat) (w : Word) : (d.capture m a w).tel = d.tel := rfl
@[simp] theorem Dev.capture_jrnl (d : Dev) (m : Sys2Proof.Master) (a : Nat) (w : Word) : (d.capture m a w).jrnl = d.jrnl := rfl
@[simp] theorem Dev.capture_hif (d : Dev) (m : Sys2Proof.Master) (a : Nat) (w : Word) : (d.capture m a w).hif = d.hif := rfl
@[simp] theorem Dev.capture_bld (d : Dev) (m : Sys2Proof.Master) (a : Nat) (w : Word) : (d.capture m a w).bld = d.bld := rfl
@[simp] theorem Dev.capture_dsp (d : Dev) (m : Sys2Proof.Master) (a : Nat) (w : Word) : (d.capture m a w).dsp = d.dsp := rfl
@[simp] theorem Dev.capture_ports (d : Dev) (m : Sys2Proof.Master) (a : Nat) (w : Word) : (d.capture m a w).ports = d.ports := rfl
@[simp] theorem Dev.capture_hc (d : Dev) (m : Sys2Proof.Master) (a : Nat) (w : Word) : (d.capture m a w).hc = d.hc := rfl
@[simp] theorem Dev.capture_rx (d : Dev) (m : Sys2Proof.Master) (a : Nat) (w : Word) : (d.capture m a w).rx = d.rx := rfl
@[simp] theorem Dev.capture_tx (d : Dev) (m : Sys2Proof.Master) (a : Nat) (w : Word) : (d.capture m a w).tx = d.tx := rfl
@[simp] theorem Dev.capture_pbm (d : Dev) (m : Sys2Proof.Master) (a : Nat) (w : Word) : (d.capture m a w).pbm = d.pbm := rfl
@[simp] theorem Dev.capture_tim (d : Dev) (m : Sys2Proof.Master) (a : Nat) (w : Word) : (d.capture m a w).tim = d.tim := rfl
@[simp] theorem Dev.capture_ktl (d : Dev) (m : Sys2Proof.Master) (a : Nat) (w : Word) : (d.capture m a w).ktl = d.ktl := rfl
@[simp] theorem Dev.capture_ts (d : Dev) (m : Sys2Proof.Master) (a : Nat) (w : Word) : (d.capture m a w).ts = d.ts := rfl
@[simp] theorem Dev.capture_tbl (d : Dev) (m : Sys2Proof.Master) (a : Nat) (w : Word) : (d.capture m a w).tbl = d.tbl := rfl
@[simp] theorem Dev.capture_fwd (d : Dev) (m : Sys2Proof.Master) (a : Nat) (w : Word) : (d.capture m a w).fwd = d.fwd := rfl
@[simp] theorem Dev.capture_vault (d : Dev) (m : Sys2Proof.Master) (a : Nat) (w : Word) : (d.capture m a w).vault = d.vault := rfl
@[simp] theorem Dev.capture_boot (d : Dev) (m : Sys2Proof.Master) (a : Nat) (w : Word) : (d.capture m a w).boot = d.boot := rfl
@[simp] theorem Dev.capture_cmp (d : Dev) (m : Sys2Proof.Master) (a : Nat) (w : Word) : (d.capture m a w).cmp = d.cmp := rfl
@[simp] theorem Dev.capture_res (d : Dev) (m : Sys2Proof.Master) (a : Nat) (w : Word) : (d.capture m a w).res = d.res := rfl
@[simp] theorem Dev.capture_regs (d : Dev) (m : Sys2Proof.Master) (a : Nat) (w : Word) : (d.capture m a w).regs = d.regs := rfl

/-! ### hold -/

@[simp] theorem Dev.hold_shadows (d : Dev) (m : Sys2Proof.Master) (lo : Nat) (w : Word) : (d.hold m lo w).shadows = d.shadows := rfl
@[simp] theorem Dev.hold_rdata (d : Dev) (m : Sys2Proof.Master) (lo : Nat) (w : Word) : (d.hold m lo w).rdata = d.rdata := rfl
@[simp] theorem Dev.hold_stage (d : Dev) (m : Sys2Proof.Master) (lo : Nat) (w : Word) : (d.hold m lo w).stage = d.stage := rfl
@[simp] theorem Dev.hold_isolated (d : Dev) (m : Sys2Proof.Master) (lo : Nat) (w : Word) : (d.hold m lo w).isolated = d.isolated := rfl
@[simp] theorem Dev.hold_inReset (d : Dev) (m : Sys2Proof.Master) (lo : Nat) (w : Word) : (d.hold m lo w).inReset = d.inReset := rfl
@[simp] theorem Dev.hold_draws (d : Dev) (m : Sys2Proof.Master) (lo : Nat) (w : Word) : (d.hold m lo w).draws = d.draws := rfl
@[simp] theorem Dev.hold_outs (d : Dev) (m : Sys2Proof.Master) (lo : Nat) (w : Word) : (d.hold m lo w).outs = d.outs := rfl
@[simp] theorem Dev.hold_tel (d : Dev) (m : Sys2Proof.Master) (lo : Nat) (w : Word) : (d.hold m lo w).tel = d.tel := rfl
@[simp] theorem Dev.hold_jrnl (d : Dev) (m : Sys2Proof.Master) (lo : Nat) (w : Word) : (d.hold m lo w).jrnl = d.jrnl := rfl
@[simp] theorem Dev.hold_hif (d : Dev) (m : Sys2Proof.Master) (lo : Nat) (w : Word) : (d.hold m lo w).hif = d.hif := rfl
@[simp] theorem Dev.hold_bld (d : Dev) (m : Sys2Proof.Master) (lo : Nat) (w : Word) : (d.hold m lo w).bld = d.bld := rfl
@[simp] theorem Dev.hold_dsp (d : Dev) (m : Sys2Proof.Master) (lo : Nat) (w : Word) : (d.hold m lo w).dsp = d.dsp := rfl
@[simp] theorem Dev.hold_ports (d : Dev) (m : Sys2Proof.Master) (lo : Nat) (w : Word) : (d.hold m lo w).ports = d.ports := rfl
@[simp] theorem Dev.hold_hc (d : Dev) (m : Sys2Proof.Master) (lo : Nat) (w : Word) : (d.hold m lo w).hc = d.hc := rfl
@[simp] theorem Dev.hold_rx (d : Dev) (m : Sys2Proof.Master) (lo : Nat) (w : Word) : (d.hold m lo w).rx = d.rx := rfl
@[simp] theorem Dev.hold_tx (d : Dev) (m : Sys2Proof.Master) (lo : Nat) (w : Word) : (d.hold m lo w).tx = d.tx := rfl
@[simp] theorem Dev.hold_pbm (d : Dev) (m : Sys2Proof.Master) (lo : Nat) (w : Word) : (d.hold m lo w).pbm = d.pbm := rfl
@[simp] theorem Dev.hold_tim (d : Dev) (m : Sys2Proof.Master) (lo : Nat) (w : Word) : (d.hold m lo w).tim = d.tim := rfl
@[simp] theorem Dev.hold_ktl (d : Dev) (m : Sys2Proof.Master) (lo : Nat) (w : Word) : (d.hold m lo w).ktl = d.ktl := rfl
@[simp] theorem Dev.hold_ts (d : Dev) (m : Sys2Proof.Master) (lo : Nat) (w : Word) : (d.hold m lo w).ts = d.ts := rfl
@[simp] theorem Dev.hold_tbl (d : Dev) (m : Sys2Proof.Master) (lo : Nat) (w : Word) : (d.hold m lo w).tbl = d.tbl := rfl
@[simp] theorem Dev.hold_fwd (d : Dev) (m : Sys2Proof.Master) (lo : Nat) (w : Word) : (d.hold m lo w).fwd = d.fwd := rfl
@[simp] theorem Dev.hold_vault (d : Dev) (m : Sys2Proof.Master) (lo : Nat) (w : Word) : (d.hold m lo w).vault = d.vault := rfl
@[simp] theorem Dev.hold_boot (d : Dev) (m : Sys2Proof.Master) (lo : Nat) (w : Word) : (d.hold m lo w).boot = d.boot := rfl
@[simp] theorem Dev.hold_cmp (d : Dev) (m : Sys2Proof.Master) (lo : Nat) (w : Word) : (d.hold m lo w).cmp = d.cmp := rfl
@[simp] theorem Dev.hold_res (d : Dev) (m : Sys2Proof.Master) (lo : Nat) (w : Word) : (d.hold m lo w).res = d.res := rfl
@[simp] theorem Dev.hold_regs (d : Dev) (m : Sys2Proof.Master) (lo : Nat) (w : Word) : (d.hold m lo w).regs = d.regs := rfl

/-! ### setPort -/

@[simp] theorem Dev.setPort_shadows (d : Dev) (p : Nat) (x : Port) : (d.setPort p x).shadows = d.shadows := rfl
@[simp] theorem Dev.setPort_held (d : Dev) (p : Nat) (x : Port) : (d.setPort p x).held = d.held := rfl
@[simp] theorem Dev.setPort_rdata (d : Dev) (p : Nat) (x : Port) : (d.setPort p x).rdata = d.rdata := rfl
@[simp] theorem Dev.setPort_stage (d : Dev) (p : Nat) (x : Port) : (d.setPort p x).stage = d.stage := rfl
@[simp] theorem Dev.setPort_isolated (d : Dev) (p : Nat) (x : Port) : (d.setPort p x).isolated = d.isolated := rfl
@[simp] theorem Dev.setPort_inReset (d : Dev) (p : Nat) (x : Port) : (d.setPort p x).inReset = d.inReset := rfl
@[simp] theorem Dev.setPort_draws (d : Dev) (p : Nat) (x : Port) : (d.setPort p x).draws = d.draws := rfl
@[simp] theorem Dev.setPort_outs (d : Dev) (p : Nat) (x : Port) : (d.setPort p x).outs = d.outs := rfl
@[simp] theorem Dev.setPort_tel (d : Dev) (p : Nat) (x : Port) : (d.setPort p x).tel = d.tel := rfl
@[simp] theorem Dev.setPort_jrnl (d : Dev) (p : Nat) (x : Port) : (d.setPort p x).jrnl = d.jrnl := rfl
@[simp] theorem Dev.setPort_hif (d : Dev) (p : Nat) (x : Port) : (d.setPort p x).hif = d.hif := rfl
@[simp] theorem Dev.setPort_bld (d : Dev) (p : Nat) (x : Port) : (d.setPort p x).bld = d.bld := rfl
@[simp] theorem Dev.setPort_dsp (d : Dev) (p : Nat) (x : Port) : (d.setPort p x).dsp = d.dsp := rfl
@[simp] theorem Dev.setPort_hc (d : Dev) (p : Nat) (x : Port) : (d.setPort p x).hc = d.hc := rfl
@[simp] theorem Dev.setPort_rx (d : Dev) (p : Nat) (x : Port) : (d.setPort p x).rx = d.rx := rfl
@[simp] theorem Dev.setPort_tx (d : Dev) (p : Nat) (x : Port) : (d.setPort p x).tx = d.tx := rfl
@[simp] theorem Dev.setPort_pbm (d : Dev) (p : Nat) (x : Port) : (d.setPort p x).pbm = d.pbm := rfl
@[simp] theorem Dev.setPort_tim (d : Dev) (p : Nat) (x : Port) : (d.setPort p x).tim = d.tim := rfl
@[simp] theorem Dev.setPort_ktl (d : Dev) (p : Nat) (x : Port) : (d.setPort p x).ktl = d.ktl := rfl
@[simp] theorem Dev.setPort_ts (d : Dev) (p : Nat) (x : Port) : (d.setPort p x).ts = d.ts := rfl
@[simp] theorem Dev.setPort_tbl (d : Dev) (p : Nat) (x : Port) : (d.setPort p x).tbl = d.tbl := rfl
@[simp] theorem Dev.setPort_fwd (d : Dev) (p : Nat) (x : Port) : (d.setPort p x).fwd = d.fwd := rfl
@[simp] theorem Dev.setPort_vault (d : Dev) (p : Nat) (x : Port) : (d.setPort p x).vault = d.vault := rfl
@[simp] theorem Dev.setPort_boot (d : Dev) (p : Nat) (x : Port) : (d.setPort p x).boot = d.boot := rfl
@[simp] theorem Dev.setPort_cmp (d : Dev) (p : Nat) (x : Port) : (d.setPort p x).cmp = d.cmp := rfl
@[simp] theorem Dev.setPort_res (d : Dev) (p : Nat) (x : Port) : (d.setPort p x).res = d.res := rfl
@[simp] theorem Dev.setPort_regs (d : Dev) (p : Nat) (x : Port) : (d.setPort p x).regs = d.regs := rfl

/-! ### setHead -/

@[simp] theorem Dev.setHead_shadows (d : Dev) (p : Nat) (h : Head) : (d.setHead p h).shadows = d.shadows := rfl
@[simp] theorem Dev.setHead_held (d : Dev) (p : Nat) (h : Head) : (d.setHead p h).held = d.held := rfl
@[simp] theorem Dev.setHead_rdata (d : Dev) (p : Nat) (h : Head) : (d.setHead p h).rdata = d.rdata := rfl
@[simp] theorem Dev.setHead_stage (d : Dev) (p : Nat) (h : Head) : (d.setHead p h).stage = d.stage := rfl
@[simp] theorem Dev.setHead_isolated (d : Dev) (p : Nat) (h : Head) : (d.setHead p h).isolated = d.isolated := rfl
@[simp] theorem Dev.setHead_inReset (d : Dev) (p : Nat) (h : Head) : (d.setHead p h).inReset = d.inReset := rfl
@[simp] theorem Dev.setHead_draws (d : Dev) (p : Nat) (h : Head) : (d.setHead p h).draws = d.draws := rfl
@[simp] theorem Dev.setHead_outs (d : Dev) (p : Nat) (h : Head) : (d.setHead p h).outs = d.outs := rfl
@[simp] theorem Dev.setHead_tel (d : Dev) (p : Nat) (h : Head) : (d.setHead p h).tel = d.tel := rfl
@[simp] theorem Dev.setHead_jrnl (d : Dev) (p : Nat) (h : Head) : (d.setHead p h).jrnl = d.jrnl := rfl
@[simp] theorem Dev.setHead_hif (d : Dev) (p : Nat) (h : Head) : (d.setHead p h).hif = d.hif := rfl
@[simp] theorem Dev.setHead_bld (d : Dev) (p : Nat) (h : Head) : (d.setHead p h).bld = d.bld := rfl
@[simp] theorem Dev.setHead_dsp (d : Dev) (p : Nat) (h : Head) : (d.setHead p h).dsp = d.dsp := rfl
@[simp] theorem Dev.setHead_ports (d : Dev) (p : Nat) (h : Head) : (d.setHead p h).ports = d.ports := rfl
@[simp] theorem Dev.setHead_rx (d : Dev) (p : Nat) (h : Head) : (d.setHead p h).rx = d.rx := rfl
@[simp] theorem Dev.setHead_tx (d : Dev) (p : Nat) (h : Head) : (d.setHead p h).tx = d.tx := rfl
@[simp] theorem Dev.setHead_pbm (d : Dev) (p : Nat) (h : Head) : (d.setHead p h).pbm = d.pbm := rfl
@[simp] theorem Dev.setHead_tim (d : Dev) (p : Nat) (h : Head) : (d.setHead p h).tim = d.tim := rfl
@[simp] theorem Dev.setHead_ktl (d : Dev) (p : Nat) (h : Head) : (d.setHead p h).ktl = d.ktl := rfl
@[simp] theorem Dev.setHead_ts (d : Dev) (p : Nat) (h : Head) : (d.setHead p h).ts = d.ts := rfl
@[simp] theorem Dev.setHead_tbl (d : Dev) (p : Nat) (h : Head) : (d.setHead p h).tbl = d.tbl := rfl
@[simp] theorem Dev.setHead_fwd (d : Dev) (p : Nat) (h : Head) : (d.setHead p h).fwd = d.fwd := rfl
@[simp] theorem Dev.setHead_vault (d : Dev) (p : Nat) (h : Head) : (d.setHead p h).vault = d.vault := rfl
@[simp] theorem Dev.setHead_boot (d : Dev) (p : Nat) (h : Head) : (d.setHead p h).boot = d.boot := rfl
@[simp] theorem Dev.setHead_cmp (d : Dev) (p : Nat) (h : Head) : (d.setHead p h).cmp = d.cmp := rfl
@[simp] theorem Dev.setHead_res (d : Dev) (p : Nat) (h : Head) : (d.setHead p h).res = d.res := rfl
@[simp] theorem Dev.setHead_regs (d : Dev) (p : Nat) (h : Head) : (d.setHead p h).regs = d.regs := rfl

/-! ### What a command changes -/

theorem State.onDev_up (s : State) (f : Dev → Dev) (h : s.dev.inReset = false) : s.onDev f = .next { s with dev := f s.dev } := by
  simp [State.onDev, h]

theorem State.onDev_down (s : State) (f : Dev → Dev) (h : s.dev.inReset = true) : s.onDev f = .next s := by
  simp [State.onDev, h]

theorem State.onDevF_up (s : State) (f : Fuses → Dev → Dev) (h : s.dev.inReset = false) :
    s.onDevF f = .next { s with dev := f s.fuses s.dev } := by simp [State.onDevF, h]

theorem State.onDevF_down (s : State) (f : Fuses → Dev → Dev) (h : s.dev.inReset = true) : s.onDevF f = .next s := by
  simp [State.onDevF, h]

theorem State.onFuses_up (s : State) (f : Fuses → Dev → Fuses × Dev) (h : s.dev.inReset = false) :
    s.onFuses f = .next { s with dev := (f s.fuses s.dev).2, fuses := (f s.fuses s.dev).1 } := by simp [State.onFuses, h]

theorem State.onFuses_down (s : State) (f : Fuses → Dev → Fuses × Dev) (h : s.dev.inReset = true) : s.onFuses f = .next s := by
  simp [State.onFuses, h]

end Sys2Proof.Machine
end

