-- ==== Sys2Proof/Laws/Events.lean ====
section
/-! SUPPORT. What raising an event and writing the fault journal leave as it was: everything but telemetry, the journal, the record of outputs,
the telemetry registers and the MSI-X pending bits. -/

namespace Sys2Proof.Machine

/-- `e` is `d` but for what events and journal records leave. -/
structure Noted (d e : Dev) : Prop where
  eq : e = { d with regs := e.regs, tel := e.tel, outs := e.outs, jrnl := e.jrnl }
  reg : ∀ a, a < 0xF09000 → a ≠ RES_JRNL_NEWEST → e.reg a = d.reg a

theorem Noted.refl (d : Dev) : Noted d d := ⟨rfl, fun _ _ _ => rfl⟩

theorem Noted.trans {d e f : Dev} (h : Noted d e) (g : Noted e f) : Noted d f :=
  ⟨by rw [g.eq, h.eq], fun a ha hn => (g.reg a ha hn).trans (h.reg a ha hn)⟩

theorem Noted.fld {d e : Dev} (h : Noted d e) (g : Fld) (hg : g.reg < 0xF09000) (hn : g.reg ≠ RES_JRNL_NEWEST) : e.fld g = d.fld g := by
  unfold Dev.fld; rw [h.reg _ hg hn]

theorem Noted.shadows {d e : Dev} (h : Noted d e) : e.shadows = d.shadows := by rw [h.eq]
theorem Noted.held {d e : Dev} (h : Noted d e) : e.held = d.held := by rw [h.eq]
theorem Noted.rdata {d e : Dev} (h : Noted d e) : e.rdata = d.rdata := by rw [h.eq]
theorem Noted.stage {d e : Dev} (h : Noted d e) : e.stage = d.stage := by rw [h.eq]
theorem Noted.isolated {d e : Dev} (h : Noted d e) : e.isolated = d.isolated := by rw [h.eq]
theorem Noted.inReset {d e : Dev} (h : Noted d e) : e.inReset = d.inReset := by rw [h.eq]
theorem Noted.draws {d e : Dev} (h : Noted d e) : e.draws = d.draws := by rw [h.eq]
theorem Noted.hif {d e : Dev} (h : Noted d e) : e.hif = d.hif := by rw [h.eq]
theorem Noted.bld {d e : Dev} (h : Noted d e) : e.bld = d.bld := by rw [h.eq]
theorem Noted.dsp {d e : Dev} (h : Noted d e) : e.dsp = d.dsp := by rw [h.eq]
theorem Noted.ports {d e : Dev} (h : Noted d e) : e.ports = d.ports := by rw [h.eq]
theorem Noted.hc {d e : Dev} (h : Noted d e) : e.hc = d.hc := by rw [h.eq]
theorem Noted.rx {d e : Dev} (h : Noted d e) : e.rx = d.rx := by rw [h.eq]
theorem Noted.tx {d e : Dev} (h : Noted d e) : e.tx = d.tx := by rw [h.eq]
theorem Noted.pbm {d e : Dev} (h : Noted d e) : e.pbm = d.pbm := by rw [h.eq]
theorem Noted.tim {d e : Dev} (h : Noted d e) : e.tim = d.tim := by rw [h.eq]
theorem Noted.ktl {d e : Dev} (h : Noted d e) : e.ktl = d.ktl := by rw [h.eq]
theorem Noted.ts {d e : Dev} (h : Noted d e) : e.ts = d.ts := by rw [h.eq]
theorem Noted.tbl {d e : Dev} (h : Noted d e) : e.tbl = d.tbl := by rw [h.eq]
theorem Noted.fwd {d e : Dev} (h : Noted d e) : e.fwd = d.fwd := by rw [h.eq]
theorem Noted.vault {d e : Dev} (h : Noted d e) : e.vault = d.vault := by rw [h.eq]
theorem Noted.boot {d e : Dev} (h : Noted d e) : e.boot = d.boot := by rw [h.eq]
theorem Noted.cmp {d e : Dev} (h : Noted d e) : e.cmp = d.cmp := by rw [h.eq]
theorem Noted.res {d e : Dev} (h : Noted d e) : e.res = d.res := by rw [h.eq]

/-! ### The operations, from the inside out -/

theorem noted_setReg (d : Dev) (a : Nat) (w : Word) (h : 0xF09000 ≤ a ∨ a = RES_JRNL_NEWEST) : Noted d (d.setReg a w) :=
  ⟨rfl, fun b hb hn => Dev.reg_setReg_other d a b w (by omega)⟩

theorem noted_setFld (d : Dev) (f : Fld) (v : Nat) (h : 0xF09000 ≤ f.reg) : Noted d (d.setFld f v) := noted_setReg _ _ _ (.inl h)
theorem noted_setBit (d : Dev) (f : Fld) (b : Bool) (h : 0xF09000 ≤ f.reg) : Noted d (d.setBit f b) := noted_setFld _ _ _ h
theorem noted_inc (d : Dev) (f : Fld) (h : 0xF09000 ≤ f.reg) : Noted d (d.inc f) := noted_setFld _ _ _ h
theorem noted_tel (d : Dev) (t : Tel) : Noted d { d with tel := t } := ⟨rfl, fun _ _ _ => rfl⟩
theorem noted_jrnl (d : Dev) (j : Journal) : Noted d { d with jrnl := j } := ⟨rfl, fun _ _ _ => rfl⟩
theorem noted_emit (d : Dev) (o : Output) : Noted d (d.emit o) := ⟨rfl, fun _ _ _ => rfl⟩

theorem noted_sendVector (d : Dev) (v : Nat) : Noted d (sendVector d v) := by
  unfold sendVector
  split
  · exact noted_setFld _ _ _ (by show 0xF09000 ≤ MSIX_PBA; decide)
  · exact noted_emit _ _

theorem noted_setPending (d : Dev) (s : Nat) : Noted d (setPending d s) := by
  have h1 : Noted d ((d.setBit (pendFld s) true).setBit (ccPendFld s) true) :=
    (noted_setBit d (pendFld s) true (by simp only [pendFld, TEL_PENDm]; omega)).trans
      (noted_setBit _ _ _ (by simp only [ccPendFld, TEL_CCPENDm]; omega))
  unfold setPending
  simp only
  split
  · exact h1.trans (noted_sendVector _ _)
  · exact h1

theorem noted_offerPath (d : Dev) (p : Nat) (u : TelUnit) : Noted d (offerPath d p u).1 := by
  unfold offerPath
  simp only
  split
  · exact Noted.refl d
  · split
    · unfold setPath; split <;> exact noted_tel _ _
    · refine Noted.trans (e := setPath d p _) ?_ (noted_inc _ _ ?_)
      · unfold setPath; split <;> exact noted_tel _ _
      · unfold lossFld; split <;> try split <;> try split
        · simp only [TEL_LOSSp_A]; omega
        · simp only [TEL_LOSSp_A]; omega
        · simp only [TEL_LOSSp_B]; omega
        · simp only [TEL_LOSSp_B]; omega

theorem noted_offer (d : Dev) (u : TelUnit) : Noted d (offer d u).1 :=
  (noted_offerPath d 0 u).trans (noted_offerPath _ 1 u)

theorem noted_traceRaw (d : Dev) (r : List Byte) : Noted d (traceRaw d r).1 := by
  unfold traceRaw
  split
  · exact Noted.refl d
  · exact ((noted_tel d _).trans (noted_setFld _ _ _ (by decide))).trans (noted_offer _ _)

theorem noted_logEvent (d : Dev) (s cls unit detail : Nat) (alarm : Bool) : Noted d (logEvent d s cls unit detail alarm) := by
  unfold logEvent
  simp only
  split
  · exact noted_tel _ _
  · exact ((noted_tel d _).trans (noted_setReg _ _ _ (.inl (by decide)))).trans (noted_offer _ _)

theorem noted_recordEvent (d : Dev) (s unit detail : Nat) (alarm : Bool) : Noted d (recordEvent d s unit detail alarm) := by
  unfold recordEvent
  simp only
  split
  · exact Noted.refl d
  · split
    · exact noted_traceRaw _ _
    · split
      · exact noted_setPending d s
      · exact (noted_setPending d s).trans (noted_logEvent _ _ _ _ _ _)

theorem noted_alarmPlace (d : Dev) (s unit detail : Nat) : Noted d (alarmPlace d s unit detail).1 := by
  unfold alarmPlace
  simp only
  split
  · exact noted_tel _ _
  · split
    · exact noted_tel _ _
    · split <;> exact noted_tel _ _

theorem noted_raiseRaw (m : Nat) (d : Dev) (s unit detail : Nat) : Noted d (raiseRaw m d s unit detail) := by
  induction m generalizing d s unit detail with
  | zero =>
    unfold raiseRaw
    split
    · exact ((noted_alarmPlace d s unit detail).trans (noted_setFld _ TEL_STATUS_alarms _ (by decide))).trans
        (noted_recordEvent (alarmCount (alarmPlace d s unit detail).1) s unit detail true)
    · exact noted_recordEvent _ _ _ _ _
  | succ n ih =>
    unfold raiseRaw
    split
    · have h := ((noted_alarmPlace d s unit detail).trans (noted_setFld _ TEL_STATUS_alarms _ (by decide))).trans
        (noted_recordEvent (alarmCount (alarmPlace d s unit detail).1) s unit detail true)
      simp only
      generalize (alarmPlace d s unit detail).2 = b at *
      cases b
      · exact h
      · exact h.trans (ih _ _ _ _)
    · exact noted_recordEvent _ _ _ _ _

theorem noted_stormBegin (d : Dev) : Noted d (stormBegin d) := by
  unfold stormBegin
  exact (((noted_tel d _).trans (noted_setBit _ _ _ (by decide))).trans (noted_traceRaw _ _)).trans
    (noted_raiseRaw _ _ _ _ _)

/-- A trace record changes telemetry alone. -/
theorem noted_trace (d : Dev) (r : List Byte) : Noted d (trace d r) := by
  unfold trace
  split
  · simp only
    split
    · exact (noted_tel d _).trans (noted_traceRaw _ _)
    · exact (noted_tel d _).trans (noted_inc _ _ (by decide))
  · simp only
    split
    · exact (noted_traceRaw d r).trans (noted_stormBegin _)
    · exact noted_traceRaw d r

/-- An event changes telemetry alone. -/
theorem noted_raise (d : Dev) (s unit detail : Nat) : Noted d (raise d s unit detail) := by
  unfold raise
  simp only
  split
  · exact Noted.refl d
  · split
    · exact noted_trace _ _
    · exact noted_raiseRaw _ _ _ _ _

theorem noted_jMirror (d : Dev) (r : JRec) : Noted d (jMirror d r) := (noted_jrnl d _).trans (noted_offer _ _)

/-- A new journal record changes the journal and telemetry alone. -/
theorem noted_jWrite (d : Dev) (r : JRec) : Noted d (jWrite d r).2 :=
  ((noted_jrnl d _).trans (noted_setReg _ _ _ (.inr rfl))).trans (noted_jMirror _ _)

theorem noted_jOpen (d : Dev) (kind origin opId total : Nat) (tag : Option Nat) : Noted d (jOpen d kind origin opId total tag).2 :=
  noted_jWrite _ _

theorem noted_jNote (d : Dev) (kind origin outcome cause opId total done detail : Nat) :
    Noted d (jNote d kind origin outcome cause opId total done detail) := noted_jWrite _ _

/-- A changed journal record changes the journal and telemetry alone. -/
theorem noted_jUpdate (d : Dev) (s : Nat) (f : JRec → JRec) : Noted d (jUpdate d s f) := by
  unfold jUpdate
  split
  · exact Noted.refl d
  · exact (noted_jrnl d _).trans (noted_jMirror _ _)

theorem noted_jClose (d : Dev) (s outcome cause : Nat) : Noted d (jClose d s outcome cause) := noted_jUpdate _ _ _
theorem noted_jStepDone (d : Dev) (s : Nat) : Noted d (jStepDone d s) := noted_jUpdate _ _ _


/-! ### raise -/

@[simp] theorem raise_shadows (d : Dev) (s unit detail : Nat) : (raise d s unit detail).shadows = d.shadows := (noted_raise d s unit detail).shadows
@[simp] theorem raise_held (d : Dev) (s unit detail : Nat) : (raise d s unit detail).held = d.held := (noted_raise d s unit detail).held
@[simp] theorem raise_rdata (d : Dev) (s unit detail : Nat) : (raise d s unit detail).rdata = d.rdata := (noted_raise d s unit detail).rdata
@[simp] theorem raise_stage (d : Dev) (s unit detail : Nat) : (raise d s unit detail).stage = d.stage := (noted_raise d s unit detail).stage
@[simp] theorem raise_isolated (d : Dev) (s unit detail : Nat) : (raise d s unit detail).isolated = d.isolated := (noted_raise d s unit detail).isolated
@[simp] theorem raise_inReset (d : Dev) (s unit detail : Nat) : (raise d s unit detail).inReset = d.inReset := (noted_raise d s unit detail).inReset
@[simp] theorem raise_draws (d : Dev) (s unit detail : Nat) : (raise d s unit detail).draws = d.draws := (noted_raise d s unit detail).draws
@[simp] theorem raise_hif (d : Dev) (s unit detail : Nat) : (raise d s unit detail).hif = d.hif := (noted_raise d s unit detail).hif
@[simp] theorem raise_bld (d : Dev) (s unit detail : Nat) : (raise d s unit detail).bld = d.bld := (noted_raise d s unit detail).bld
@[simp] theorem raise_dsp (d : Dev) (s unit detail : Nat) : (raise d s unit detail).dsp = d.dsp := (noted_raise d s unit detail).dsp
@[simp] theorem raise_ports (d : Dev) (s unit detail : Nat) : (raise d s unit detail).ports = d.ports := (noted_raise d s unit detail).ports
@[simp] theorem raise_hc (d : Dev) (s unit detail : Nat) : (raise d s unit detail).hc = d.hc := (noted_raise d s unit detail).hc
@[simp] theorem raise_rx (d : Dev) (s unit detail : Nat) : (raise d s unit detail).rx = d.rx := (noted_raise d s unit detail).rx
@[simp] theorem raise_tx (d : Dev) (s unit detail : Nat) : (raise d s unit detail).tx = d.tx := (noted_raise d s unit detail).tx
@[simp] theorem raise_pbm (d : Dev) (s unit detail : Nat) : (raise d s unit detail).pbm = d.pbm := (noted_raise d s unit detail).pbm
@[simp] theorem raise_tim (d : Dev) (s unit detail : Nat) : (raise d s unit detail).tim = d.tim := (noted_raise d s unit detail).tim
@[simp] theorem raise_ktl (d : Dev) (s unit detail : Nat) : (raise d s unit detail).ktl = d.ktl := (noted_raise d s unit detail).ktl
@[simp] theorem raise_ts (d : Dev) (s unit detail : Nat) : (raise d s unit detail).ts = d.ts := (noted_raise d s unit detail).ts
@[simp] theorem raise_tbl (d : Dev) (s unit detail : Nat) : (raise d s unit detail).tbl = d.tbl := (noted_raise d s unit detail).tbl
@[simp] theorem raise_fwd (d : Dev) (s unit detail : Nat) : (raise d s unit detail).fwd = d.fwd := (noted_raise d s unit detail).fwd
@[simp] theorem raise_vault (d : Dev) (s unit detail : Nat) : (raise d s unit detail).vault = d.vault := (noted_raise d s unit detail).vault
@[simp] theorem raise_boot (d : Dev) (s unit detail : Nat) : (raise d s unit detail).boot = d.boot := (noted_raise d s unit detail).boot
@[simp] theorem raise_cmp (d : Dev) (s unit detail : Nat) : (raise d s unit detail).cmp = d.cmp := (noted_raise d s unit detail).cmp
@[simp] theorem raise_res (d : Dev) (s unit detail : Nat) : (raise d s unit detail).res = d.res := (noted_raise d s unit detail).res
@[simp] theorem raise_fld (d : Dev) (s unit detail : Nat) (g : Fld) (h : g.reg < 0xF09000 ∧ g.reg ≠ RES_JRNL_NEWEST) : (raise d s unit detail).fld g = d.fld g :=
  (noted_raise d s unit detail).fld g h.1 h.2
@[simp] theorem raise_reg (d : Dev) (s unit detail : Nat) (a : Nat) (h : a < 0xF09000 ∧ a ≠ RES_JRNL_NEWEST) : (raise d s unit detail).reg a = d.reg a :=
  (noted_raise d s unit detail).reg a h.1 h.2

/-! ### jNote -/

@[simp] theorem jNote_shadows (d : Dev) (kind origin outcome cause opId total done detail : Nat) : (jNote d kind origin outcome cause opId total done detail).shadows = d.shadows := (noted_jNote d kind origin outcome cause opId total done detail).shadows
@[simp] theorem jNote_held (d : Dev) (kind origin outcome cause opId total done detail : Nat) : (jNote d kind origin outcome cause opId total done detail).held = d.held := (noted_jNote d kind origin outcome cause opId total done detail).held
@[simp] theorem jNote_rdata (d : Dev) (kind origin outcome cause opId total done detail : Nat) : (jNote d kind origin outcome cause opId total done detail).rdata = d.rdata := (noted_jNote d kind origin outcome cause opId total done detail).rdata
@[simp] theorem jNote_stage (d : Dev) (kind origin outcome cause opId total done detail : Nat) : (jNote d kind origin outcome cause opId total done detail).stage = d.stage := (noted_jNote d kind origin outcome cause opId total done detail).stage
@[simp] theorem jNote_isolated (d : Dev) (kind origin outcome cause opId total done detail : Nat) : (jNote d kind origin outcome cause opId total done detail).isolated = d.isolated := (noted_jNote d kind origin outcome cause opId total done detail).isolated
@[simp] theorem jNote_inReset (d : Dev) (kind origin outcome cause opId total done detail : Nat) : (jNote d kind origin outcome cause opId total done detail).inReset = d.inReset := (noted_jNote d kind origin outcome cause opId total done detail).inReset
@[simp] theorem jNote_draws (d : Dev) (kind origin outcome cause opId total done detail : Nat) : (jNote d kind origin outcome cause opId total done detail).draws = d.draws := (noted_jNote d kind origin outcome cause opId total done detail).draws
@[simp] theorem jNote_hif (d : Dev) (kind origin outcome cause opId total done detail : Nat) : (jNote d kind origin outcome cause opId total done detail).hif = d.hif := (noted_jNote d kind origin outcome cause opId total done detail).hif
@[simp] theorem jNote_bld (d : Dev) (kind origin outcome cause opId total done detail : Nat) : (jNote d kind origin outcome cause opId total done detail).bld = d.bld := (noted_jNote d kind origin outcome cause opId total done detail).bld
@[simp] theorem jNote_dsp (d : Dev) (kind origin outcome cause opId total done detail : Nat) : (jNote d kind origin outcome cause opId total done detail).dsp = d.dsp := (noted_jNote d kind origin outcome cause opId total done detail).dsp
@[simp] theorem jNote_ports (d : Dev) (kind origin outcome cause opId total done detail : Nat) : (jNote d kind origin outcome cause opId total done detail).ports = d.ports := (noted_jNote d kind origin outcome cause opId total done detail).ports
@[simp] theorem jNote_hc (d : Dev) (kind origin outcome cause opId total done detail : Nat) : (jNote d kind origin outcome cause opId total done detail).hc = d.hc := (noted_jNote d kind origin outcome cause opId total done detail).hc
@[simp] theorem jNote_rx (d : Dev) (kind origin outcome cause opId total done detail : Nat) : (jNote d kind origin outcome cause opId total done detail).rx = d.rx := (noted_jNote d kind origin outcome cause opId total done detail).rx
@[simp] theorem jNote_tx (d : Dev) (kind origin outcome cause opId total done detail : Nat) : (jNote d kind origin outcome cause opId total done detail).tx = d.tx := (noted_jNote d kind origin outcome cause opId total done detail).tx
@[simp] theorem jNote_pbm (d : Dev) (kind origin outcome cause opId total done detail : Nat) : (jNote d kind origin outcome cause opId total done detail).pbm = d.pbm := (noted_jNote d kind origin outcome cause opId total done detail).pbm
@[simp] theorem jNote_tim (d : Dev) (kind origin outcome cause opId total done detail : Nat) : (jNote d kind origin outcome cause opId total done detail).tim = d.tim := (noted_jNote d kind origin outcome cause opId total done detail).tim
@[simp] theorem jNote_ktl (d : Dev) (kind origin outcome cause opId total done detail : Nat) : (jNote d kind origin outcome cause opId total done detail).ktl = d.ktl := (noted_jNote d kind origin outcome cause opId total done detail).ktl
@[simp] theorem jNote_ts (d : Dev) (kind origin outcome cause opId total done detail : Nat) : (jNote d kind origin outcome cause opId total done detail).ts = d.ts := (noted_jNote d kind origin outcome cause opId total done detail).ts
@[simp] theorem jNote_tbl (d : Dev) (kind origin outcome cause opId total done detail : Nat) : (jNote d kind origin outcome cause opId total done detail).tbl = d.tbl := (noted_jNote d kind origin outcome cause opId total done detail).tbl
@[simp] theorem jNote_fwd (d : Dev) (kind origin outcome cause opId total done detail : Nat) : (jNote d kind origin outcome cause opId total done detail).fwd = d.fwd := (noted_jNote d kind origin outcome cause opId total done detail).fwd
@[simp] theorem jNote_vault (d : Dev) (kind origin outcome cause opId total done detail : Nat) : (jNote d kind origin outcome cause opId total done detail).vault = d.vault := (noted_jNote d kind origin outcome cause opId total done detail).vault
@[simp] theorem jNote_boot (d : Dev) (kind origin outcome cause opId total done detail : Nat) : (jNote d kind origin outcome cause opId total done detail).boot = d.boot := (noted_jNote d kind origin outcome cause opId total done detail).boot
@[simp] theorem jNote_cmp (d : Dev) (kind origin outcome cause opId total done detail : Nat) : (jNote d kind origin outcome cause opId total done detail).cmp = d.cmp := (noted_jNote d kind origin outcome cause opId total done detail).cmp
@[simp] theorem jNote_res (d : Dev) (kind origin outcome cause opId total done detail : Nat) : (jNote d kind origin outcome cause opId total done detail).res = d.res := (noted_jNote d kind origin outcome cause opId total done detail).res
@[simp] theorem jNote_fld (d : Dev) (kind origin outcome cause opId total done detail : Nat) (g : Fld) (h : g.reg < 0xF09000 ∧ g.reg ≠ RES_JRNL_NEWEST) : (jNote d kind origin outcome cause opId total done detail).fld g = d.fld g :=
  (noted_jNote d kind origin outcome cause opId total done detail).fld g h.1 h.2
@[simp] theorem jNote_reg (d : Dev) (kind origin outcome cause opId total done detail : Nat) (a : Nat) (h : a < 0xF09000 ∧ a ≠ RES_JRNL_NEWEST) : (jNote d kind origin outcome cause opId total done detail).reg a = d.reg a :=
  (noted_jNote d kind origin outcome cause opId total done detail).reg a h.1 h.2

/-! ### jUpdate -/

@[simp] theorem jUpdate_shadows (d : Dev) (s : Nat) (f : JRec → JRec) : (jUpdate d s f).shadows = d.shadows := (noted_jUpdate d s f).shadows
@[simp] theorem jUpdate_held (d : Dev) (s : Nat) (f : JRec → JRec) : (jUpdate d s f).held = d.held := (noted_jUpdate d s f).held
@[simp] theorem jUpdate_rdata (d : Dev) (s : Nat) (f : JRec → JRec) : (jUpdate d s f).rdata = d.rdata := (noted_jUpdate d s f).rdata
@[simp] theorem jUpdate_stage (d : Dev) (s : Nat) (f : JRec → JRec) : (jUpdate d s f).stage = d.stage := (noted_jUpdate d s f).stage
@[simp] theorem jUpdate_isolated (d : Dev) (s : Nat) (f : JRec → JRec) : (jUpdate d s f).isolated = d.isolated := (noted_jUpdate d s f).isolated
@[simp] theorem jUpdate_inReset (d : Dev) (s : Nat) (f : JRec → JRec) : (jUpdate d s f).inReset = d.inReset := (noted_jUpdate d s f).inReset
@[simp] theorem jUpdate_draws (d : Dev) (s : Nat) (f : JRec → JRec) : (jUpdate d s f).draws = d.draws := (noted_jUpdate d s f).draws
@[simp] theorem jUpdate_hif (d : Dev) (s : Nat) (f : JRec → JRec) : (jUpdate d s f).hif = d.hif := (noted_jUpdate d s f).hif
@[simp] theorem jUpdate_bld (d : Dev) (s : Nat) (f : JRec → JRec) : (jUpdate d s f).bld = d.bld := (noted_jUpdate d s f).bld
@[simp] theorem jUpdate_dsp (d : Dev) (s : Nat) (f : JRec → JRec) : (jUpdate d s f).dsp = d.dsp := (noted_jUpdate d s f).dsp
@[simp] theorem jUpdate_ports (d : Dev) (s : Nat) (f : JRec → JRec) : (jUpdate d s f).ports = d.ports := (noted_jUpdate d s f).ports
@[simp] theorem jUpdate_hc (d : Dev) (s : Nat) (f : JRec → JRec) : (jUpdate d s f).hc = d.hc := (noted_jUpdate d s f).hc
@[simp] theorem jUpdate_rx (d : Dev) (s : Nat) (f : JRec → JRec) : (jUpdate d s f).rx = d.rx := (noted_jUpdate d s f).rx
@[simp] theorem jUpdate_tx (d : Dev) (s : Nat) (f : JRec → JRec) : (jUpdate d s f).tx = d.tx := (noted_jUpdate d s f).tx
@[simp] theorem jUpdate_pbm (d : Dev) (s : Nat) (f : JRec → JRec) : (jUpdate d s f).pbm = d.pbm := (noted_jUpdate d s f).pbm
@[simp] theorem jUpdate_tim (d : Dev) (s : Nat) (f : JRec → JRec) : (jUpdate d s f).tim = d.tim := (noted_jUpdate d s f).tim
@[simp] theorem jUpdate_ktl (d : Dev) (s : Nat) (f : JRec → JRec) : (jUpdate d s f).ktl = d.ktl := (noted_jUpdate d s f).ktl
@[simp] theorem jUpdate_ts (d : Dev) (s : Nat) (f : JRec → JRec) : (jUpdate d s f).ts = d.ts := (noted_jUpdate d s f).ts
@[simp] theorem jUpdate_tbl (d : Dev) (s : Nat) (f : JRec → JRec) : (jUpdate d s f).tbl = d.tbl := (noted_jUpdate d s f).tbl
@[simp] theorem jUpdate_fwd (d : Dev) (s : Nat) (f : JRec → JRec) : (jUpdate d s f).fwd = d.fwd := (noted_jUpdate d s f).fwd
@[simp] theorem jUpdate_vault (d : Dev) (s : Nat) (f : JRec → JRec) : (jUpdate d s f).vault = d.vault := (noted_jUpdate d s f).vault
@[simp] theorem jUpdate_boot (d : Dev) (s : Nat) (f : JRec → JRec) : (jUpdate d s f).boot = d.boot := (noted_jUpdate d s f).boot
@[simp] theorem jUpdate_cmp (d : Dev) (s : Nat) (f : JRec → JRec) : (jUpdate d s f).cmp = d.cmp := (noted_jUpdate d s f).cmp
@[simp] theorem jUpdate_res (d : Dev) (s : Nat) (f : JRec → JRec) : (jUpdate d s f).res = d.res := (noted_jUpdate d s f).res
@[simp] theorem jUpdate_fld (d : Dev) (s : Nat) (f : JRec → JRec) (g : Fld) (h : g.reg < 0xF09000 ∧ g.reg ≠ RES_JRNL_NEWEST) : (jUpdate d s f).fld g = d.fld g :=
  (noted_jUpdate d s f).fld g h.1 h.2
@[simp] theorem jUpdate_reg (d : Dev) (s : Nat) (f : JRec → JRec) (a : Nat) (h : a < 0xF09000 ∧ a ≠ RES_JRNL_NEWEST) : (jUpdate d s f).reg a = d.reg a :=
  (noted_jUpdate d s f).reg a h.1 h.2

/-! ### jClose -/

@[simp] theorem jClose_shadows (d : Dev) (s outcome cause : Nat) : (jClose d s outcome cause).shadows = d.shadows := (noted_jClose d s outcome cause).shadows
@[simp] theorem jClose_held (d : Dev) (s outcome cause : Nat) : (jClose d s outcome cause).held = d.held := (noted_jClose d s outcome cause).held
@[simp] theorem jClose_rdata (d : Dev) (s outcome cause : Nat) : (jClose d s outcome cause).rdata = d.rdata := (noted_jClose d s outcome cause).rdata
@[simp] theorem jClose_stage (d : Dev) (s outcome cause : Nat) : (jClose d s outcome cause).stage = d.stage := (noted_jClose d s outcome cause).stage
@[simp] theorem jClose_isolated (d : Dev) (s outcome cause : Nat) : (jClose d s outcome cause).isolated = d.isolated := (noted_jClose d s outcome cause).isolated
@[simp] theorem jClose_inReset (d : Dev) (s outcome cause : Nat) : (jClose d s outcome cause).inReset = d.inReset := (noted_jClose d s outcome cause).inReset
@[simp] theorem jClose_draws (d : Dev) (s outcome cause : Nat) : (jClose d s outcome cause).draws = d.draws := (noted_jClose d s outcome cause).draws
@[simp] theorem jClose_hif (d : Dev) (s outcome cause : Nat) : (jClose d s outcome cause).hif = d.hif := (noted_jClose d s outcome cause).hif
@[simp] theorem jClose_bld (d : Dev) (s outcome cause : Nat) : (jClose d s outcome cause).bld = d.bld := (noted_jClose d s outcome cause).bld
@[simp] theorem jClose_dsp (d : Dev) (s outcome cause : Nat) : (jClose d s outcome cause).dsp = d.dsp := (noted_jClose d s outcome cause).dsp
@[simp] theorem jClose_ports (d : Dev) (s outcome cause : Nat) : (jClose d s outcome cause).ports = d.ports := (noted_jClose d s outcome cause).ports
@[simp] theorem jClose_hc (d : Dev) (s outcome cause : Nat) : (jClose d s outcome cause).hc = d.hc := (noted_jClose d s outcome cause).hc
@[simp] theorem jClose_rx (d : Dev) (s outcome cause : Nat) : (jClose d s outcome cause).rx = d.rx := (noted_jClose d s outcome cause).rx
@[simp] theorem jClose_tx (d : Dev) (s outcome cause : Nat) : (jClose d s outcome cause).tx = d.tx := (noted_jClose d s outcome cause).tx
@[simp] theorem jClose_pbm (d : Dev) (s outcome cause : Nat) : (jClose d s outcome cause).pbm = d.pbm := (noted_jClose d s outcome cause).pbm
@[simp] theorem jClose_tim (d : Dev) (s outcome cause : Nat) : (jClose d s outcome cause).tim = d.tim := (noted_jClose d s outcome cause).tim
@[simp] theorem jClose_ktl (d : Dev) (s outcome cause : Nat) : (jClose d s outcome cause).ktl = d.ktl := (noted_jClose d s outcome cause).ktl
@[simp] theorem jClose_ts (d : Dev) (s outcome cause : Nat) : (jClose d s outcome cause).ts = d.ts := (noted_jClose d s outcome cause).ts
@[simp] theorem jClose_tbl (d : Dev) (s outcome cause : Nat) : (jClose d s outcome cause).tbl = d.tbl := (noted_jClose d s outcome cause).tbl
@[simp] theorem jClose_fwd (d : Dev) (s outcome cause : Nat) : (jClose d s outcome cause).fwd = d.fwd := (noted_jClose d s outcome cause).fwd
@[simp] theorem jClose_vault (d : Dev) (s outcome cause : Nat) : (jClose d s outcome cause).vault = d.vault := (noted_jClose d s outcome cause).vault
@[simp] theorem jClose_boot (d : Dev) (s outcome cause : Nat) : (jClose d s outcome cause).boot = d.boot := (noted_jClose d s outcome cause).boot
@[simp] theorem jClose_cmp (d : Dev) (s outcome cause : Nat) : (jClose d s outcome cause).cmp = d.cmp := (noted_jClose d s outcome cause).cmp
@[simp] theorem jClose_res (d : Dev) (s outcome cause : Nat) : (jClose d s outcome cause).res = d.res := (noted_jClose d s outcome cause).res
@[simp] theorem jClose_fld (d : Dev) (s outcome cause : Nat) (g : Fld) (h : g.reg < 0xF09000 ∧ g.reg ≠ RES_JRNL_NEWEST) : (jClose d s outcome cause).fld g = d.fld g :=
  (noted_jClose d s outcome cause).fld g h.1 h.2
@[simp] theorem jClose_reg (d : Dev) (s outcome cause : Nat) (a : Nat) (h : a < 0xF09000 ∧ a ≠ RES_JRNL_NEWEST) : (jClose d s outcome cause).reg a = d.reg a :=
  (noted_jClose d s outcome cause).reg a h.1 h.2

/-! ### jStepDone -/

@[simp] theorem jStepDone_shadows (d : Dev) (s : Nat) : (jStepDone d s).shadows = d.shadows := (noted_jStepDone d s).shadows
@[simp] theorem jStepDone_held (d : Dev) (s : Nat) : (jStepDone d s).held = d.held := (noted_jStepDone d s).held
@[simp] theorem jStepDone_rdata (d : Dev) (s : Nat) : (jStepDone d s).rdata = d.rdata := (noted_jStepDone d s).rdata
@[simp] theorem jStepDone_stage (d : Dev) (s : Nat) : (jStepDone d s).stage = d.stage := (noted_jStepDone d s).stage
@[simp] theorem jStepDone_isolated (d : Dev) (s : Nat) : (jStepDone d s).isolated = d.isolated := (noted_jStepDone d s).isolated
@[simp] theorem jStepDone_inReset (d : Dev) (s : Nat) : (jStepDone d s).inReset = d.inReset := (noted_jStepDone d s).inReset
@[simp] theorem jStepDone_draws (d : Dev) (s : Nat) : (jStepDone d s).draws = d.draws := (noted_jStepDone d s).draws
@[simp] theorem jStepDone_hif (d : Dev) (s : Nat) : (jStepDone d s).hif = d.hif := (noted_jStepDone d s).hif
@[simp] theorem jStepDone_bld (d : Dev) (s : Nat) : (jStepDone d s).bld = d.bld := (noted_jStepDone d s).bld
@[simp] theorem jStepDone_dsp (d : Dev) (s : Nat) : (jStepDone d s).dsp = d.dsp := (noted_jStepDone d s).dsp
@[simp] theorem jStepDone_ports (d : Dev) (s : Nat) : (jStepDone d s).ports = d.ports := (noted_jStepDone d s).ports
@[simp] theorem jStepDone_hc (d : Dev) (s : Nat) : (jStepDone d s).hc = d.hc := (noted_jStepDone d s).hc
@[simp] theorem jStepDone_rx (d : Dev) (s : Nat) : (jStepDone d s).rx = d.rx := (noted_jStepDone d s).rx
@[simp] theorem jStepDone_tx (d : Dev) (s : Nat) : (jStepDone d s).tx = d.tx := (noted_jStepDone d s).tx
@[simp] theorem jStepDone_pbm (d : Dev) (s : Nat) : (jStepDone d s).pbm = d.pbm := (noted_jStepDone d s).pbm
@[simp] theorem jStepDone_tim (d : Dev) (s : Nat) : (jStepDone d s).tim = d.tim := (noted_jStepDone d s).tim
@[simp] theorem jStepDone_ktl (d : Dev) (s : Nat) : (jStepDone d s).ktl = d.ktl := (noted_jStepDone d s).ktl
@[simp] theorem jStepDone_ts (d : Dev) (s : Nat) : (jStepDone d s).ts = d.ts := (noted_jStepDone d s).ts
@[simp] theorem jStepDone_tbl (d : Dev) (s : Nat) : (jStepDone d s).tbl = d.tbl := (noted_jStepDone d s).tbl
@[simp] theorem jStepDone_fwd (d : Dev) (s : Nat) : (jStepDone d s).fwd = d.fwd := (noted_jStepDone d s).fwd
@[simp] theorem jStepDone_vault (d : Dev) (s : Nat) : (jStepDone d s).vault = d.vault := (noted_jStepDone d s).vault
@[simp] theorem jStepDone_boot (d : Dev) (s : Nat) : (jStepDone d s).boot = d.boot := (noted_jStepDone d s).boot
@[simp] theorem jStepDone_cmp (d : Dev) (s : Nat) : (jStepDone d s).cmp = d.cmp := (noted_jStepDone d s).cmp
@[simp] theorem jStepDone_res (d : Dev) (s : Nat) : (jStepDone d s).res = d.res := (noted_jStepDone d s).res
@[simp] theorem jStepDone_fld (d : Dev) (s : Nat) (g : Fld) (h : g.reg < 0xF09000 ∧ g.reg ≠ RES_JRNL_NEWEST) : (jStepDone d s).fld g = d.fld g :=
  (noted_jStepDone d s).fld g h.1 h.2
@[simp] theorem jStepDone_reg (d : Dev) (s : Nat) (a : Nat) (h : a < 0xF09000 ∧ a ≠ RES_JRNL_NEWEST) : (jStepDone d s).reg a = d.reg a :=
  (noted_jStepDone d s).reg a h.1 h.2

/-! ### jOpen -/

@[simp] theorem jOpen_shadows (d : Dev) (kind origin opId total : Nat) (tag : Option Nat) : ((jOpen d kind origin opId total tag).2).shadows = d.shadows := (noted_jOpen d kind origin opId total tag).shadows
@[simp] theorem jOpen_held (d : Dev) (kind origin opId total : Nat) (tag : Option Nat) : ((jOpen d kind origin opId total tag).2).held = d.held := (noted_jOpen d kind origin opId total tag).held
@[simp] theorem jOpen_rdata (d : Dev) (kind origin opId total : Nat) (tag : Option Nat) : ((jOpen d kind origin opId total tag).2).rdata = d.rdata := (noted_jOpen d kind origin opId total tag).rdata
@[simp] theorem jOpen_stage (d : Dev) (kind origin opId total : Nat) (tag : Option Nat) : ((jOpen d kind origin opId total tag).2).stage = d.stage := (noted_jOpen d kind origin opId total tag).stage
@[simp] theorem jOpen_isolated (d : Dev) (kind origin opId total : Nat) (tag : Option Nat) : ((jOpen d kind origin opId total tag).2).isolated = d.isolated := (noted_jOpen d kind origin opId total tag).isolated
@[simp] theorem jOpen_inReset (d : Dev) (kind origin opId total : Nat) (tag : Option Nat) : ((jOpen d kind origin opId total tag).2).inReset = d.inReset := (noted_jOpen d kind origin opId total tag).inReset
@[simp] theorem jOpen_draws (d : Dev) (kind origin opId total : Nat) (tag : Option Nat) : ((jOpen d kind origin opId total tag).2).draws = d.draws := (noted_jOpen d kind origin opId total tag).draws
@[simp] theorem jOpen_hif (d : Dev) (kind origin opId total : Nat) (tag : Option Nat) : ((jOpen d kind origin opId total tag).2).hif = d.hif := (noted_jOpen d kind origin opId total tag).hif
@[simp] theorem jOpen_bld (d : Dev) (kind origin opId total : Nat) (tag : Option Nat) : ((jOpen d kind origin opId total tag).2).bld = d.bld := (noted_jOpen d kind origin opId total tag).bld
@[simp] theorem jOpen_dsp (d : Dev) (kind origin opId total : Nat) (tag : Option Nat) : ((jOpen d kind origin opId total tag).2).dsp = d.dsp := (noted_jOpen d kind origin opId total tag).dsp
@[simp] theorem jOpen_ports (d : Dev) (kind origin opId total : Nat) (tag : Option Nat) : ((jOpen d kind origin opId total tag).2).ports = d.ports := (noted_jOpen d kind origin opId total tag).ports
@[simp] theorem jOpen_hc (d : Dev) (kind origin opId total : Nat) (tag : Option Nat) : ((jOpen d kind origin opId total tag).2).hc = d.hc := (noted_jOpen d kind origin opId total tag).hc
@[simp] theorem jOpen_rx (d : Dev) (kind origin opId total : Nat) (tag : Option Nat) : ((jOpen d kind origin opId total tag).2).rx = d.rx := (noted_jOpen d kind origin opId total tag).rx
@[simp] theorem jOpen_tx (d : Dev) (kind origin opId total : Nat) (tag : Option Nat) : ((jOpen d kind origin opId total tag).2).tx = d.tx := (noted_jOpen d kind origin opId total tag).tx
@[simp] theorem jOpen_pbm (d : Dev) (kind origin opId total : Nat) (tag : Option Nat) : ((jOpen d kind origin opId total tag).2).pbm = d.pbm := (noted_jOpen d kind origin opId total tag).pbm
@[simp] theorem jOpen_tim (d : Dev) (kind origin opId total : Nat) (tag : Option Nat) : ((jOpen d kind origin opId total tag).2).tim = d.tim := (noted_jOpen d kind origin opId total tag).tim
@[simp] theorem jOpen_ktl (d : Dev) (kind origin opId total : Nat) (tag : Option Nat) : ((jOpen d kind origin opId total tag).2).ktl = d.ktl := (noted_jOpen d kind origin opId total tag).ktl
@[simp] theorem jOpen_ts (d : Dev) (kind origin opId total : Nat) (tag : Option Nat) : ((jOpen d kind origin opId total tag).2).ts = d.ts := (noted_jOpen d kind origin opId total tag).ts
@[simp] theorem jOpen_tbl (d : Dev) (kind origin opId total : Nat) (tag : Option Nat) : ((jOpen d kind origin opId total tag).2).tbl = d.tbl := (noted_jOpen d kind origin opId total tag).tbl
@[simp] theorem jOpen_fwd (d : Dev) (kind origin opId total : Nat) (tag : Option Nat) : ((jOpen d kind origin opId total tag).2).fwd = d.fwd := (noted_jOpen d kind origin opId total tag).fwd
@[simp] theorem jOpen_vault (d : Dev) (kind origin opId total : Nat) (tag : Option Nat) : ((jOpen d kind origin opId total tag).2).vault = d.vault := (noted_jOpen d kind origin opId total tag).vault
@[simp] theorem jOpen_boot (d : Dev) (kind origin opId total : Nat) (tag : Option Nat) : ((jOpen d kind origin opId total tag).2).boot = d.boot := (noted_jOpen d kind origin opId total tag).boot
@[simp] theorem jOpen_cmp (d : Dev) (kind origin opId total : Nat) (tag : Option Nat) : ((jOpen d kind origin opId total tag).2).cmp = d.cmp := (noted_jOpen d kind origin opId total tag).cmp
@[simp] theorem jOpen_res (d : Dev) (kind origin opId total : Nat) (tag : Option Nat) : ((jOpen d kind origin opId total tag).2).res = d.res := (noted_jOpen d kind origin opId total tag).res
@[simp] theorem jOpen_fld (d : Dev) (kind origin opId total : Nat) (tag : Option Nat) (g : Fld) (h : g.reg < 0xF09000 ∧ g.reg ≠ RES_JRNL_NEWEST) : ((jOpen d kind origin opId total tag).2).fld g = d.fld g :=
  (noted_jOpen d kind origin opId total tag).fld g h.1 h.2
@[simp] theorem jOpen_reg (d : Dev) (kind origin opId total : Nat) (tag : Option Nat) (a : Nat) (h : a < 0xF09000 ∧ a ≠ RES_JRNL_NEWEST) : ((jOpen d kind origin opId total tag).2).reg a = d.reg a :=
  (noted_jOpen d kind origin opId total tag).reg a h.1 h.2

end Sys2Proof.Machine
end

