-- ==== Sys2Proof/Laws/Fuses.lean ====
section
/-! SUPPORT. What each operation that burns fuses can do to them: one lemma per operation, by the relation that a step keeps. -/

namespace Sys2Proof.Machine

/-- From fuses that fit, only growth, to fuses that fit. -/
def Fuses.Step (f g : Fuses) : Prop := Fuses.fits f → Fuses.fits g ∧ Fuses.Grows f g

theorem Fuses.Grows.refl (f : Fuses) : Fuses.Grows f f :=
  ⟨Nat.le_refl _, Nat.le_refl _, Nat.le_refl _, List.prefix_rfl, List.prefix_rfl, fun _ => ⟨rfl, rfl, rfl, rfl, rfl⟩, rfl⟩

theorem Fuses.Grows.trans {f g h : Fuses} (a : Fuses.Grows f g) (b : Fuses.Grows g h) : Fuses.Grows f h :=
  ⟨Nat.le_trans a.lc b.lc, Nat.le_trans a.sealEpoch b.sealEpoch, Nat.le_trans a.rollback b.rollback, a.owners.trans b.owners,
    a.repairs.trans b.repairs,
    fun hf => by
      have h1 := a.written hf
      have hg : g.lc ≠ 0 := by have := a.lc; omega
      have h2 := b.written hg
      exact ⟨h2.1.trans h1.1, h2.2.1.trans h1.2.1, h2.2.2.1.trans h1.2.2.1, h2.2.2.2.1.trans h1.2.2.2.1, h2.2.2.2.2.trans h1.2.2.2.2⟩,
    b.made.trans a.made⟩

theorem Fuses.Step.refl (f : Fuses) : Fuses.Step f f := fun h => ⟨h, Fuses.Grows.refl f⟩

theorem Fuses.Step.trans {f g h : Fuses} (a : Fuses.Step f g) (b : Fuses.Step g h) : Fuses.Step f h := fun x =>
  ⟨(b (a x).1).1, (a x).2.trans (b (a x).1).2⟩

/-! ### Single burns -/

theorem Fuses.addOwner_step (f : Fuses) (x : List Byte) : Fuses.Step f (f.addOwner x) := by
  unfold Fuses.addOwner
  split
  · rename_i h
    exact fun ⟨a, b, c, d⟩ => ⟨⟨a, b, by simpa using h, d⟩,
      ⟨Nat.le_refl _, Nat.le_refl _, Nat.le_refl _, List.prefix_append _ _, List.prefix_rfl, fun _ => ⟨rfl, rfl, rfl, rfl, rfl⟩, rfl⟩⟩
  · exact Fuses.Step.refl f

theorem Fuses.addRepair_step (f : Fuses) (x : Nat) : Fuses.Step f (f.addRepair x) := by
  unfold Fuses.addRepair
  split
  · rename_i h
    exact fun ⟨a, b, c, d, e, g⟩ => ⟨⟨a, b, c, d, by simpa using h, g⟩,
      ⟨Nat.le_refl _, Nat.le_refl _, Nat.le_refl _, List.prefix_rfl, List.prefix_append _ _, fun _ => ⟨rfl, rfl, rfl, rfl, rfl⟩, rfl⟩⟩
  · exact Fuses.Step.refl f

theorem Fuses.addEpoch_step (f : Fuses) : Fuses.Step f f.addEpoch := fun ⟨a, b, c⟩ =>
  ⟨⟨a, Nat.min_le_right _ _, c⟩,
    ⟨Nat.le_refl _, by show f.sealEpoch ≤ min (f.sealEpoch + 1) 32; omega, Nat.le_refl _, List.prefix_rfl, List.prefix_rfl,
      fun _ => ⟨rfl, rfl, rfl, rfl, rfl⟩, rfl⟩⟩

theorem Fuses.addRollback_step (f : Fuses) (n : Nat) : Fuses.Step f (f.addRollback n) := fun ⟨a, b, c, d, e⟩ =>
  ⟨⟨a, b, c, by show max f.rollback (min n 64) ≤ 64; omega, e⟩,
    ⟨Nat.le_refl _, Nat.le_refl _, Nat.le_max_left _ _, List.prefix_rfl, List.prefix_rfl, fun _ => ⟨rfl, rfl, rfl, rfl, rfl⟩, rfl⟩⟩

theorem Fuses.pend_step (f : Fuses) (l : List Burn) (h : l.all Burn.fits = true) : Fuses.Step f { f with pend := f.pend ++ l } :=
  fun ⟨a, b, c, d, e, g, p⟩ => ⟨⟨a, b, c, d, e, g, by simp [p, h]⟩,
    ⟨Nat.le_refl _, Nat.le_refl _, Nat.le_refl _, List.prefix_rfl, List.prefix_rfl, fun _ => ⟨rfl, rfl, rfl, rfl, rfl⟩, rfl⟩⟩

theorem Fuses.pendNone_step (f : Fuses) : Fuses.Step f { f with pend := [] } :=
  fun ⟨a, b, c, d, e, g, _⟩ => ⟨⟨a, b, c, d, e, g, rfl⟩,
    ⟨Nat.le_refl _, Nat.le_refl _, Nat.le_refl _, List.prefix_rfl, List.prefix_rfl, fun _ => ⟨rfl, rfl, rfl, rfl, rfl⟩, rfl⟩⟩

theorem Fuses.lc_step (f : Fuses) (c : Nat) (h : f.lc ≤ c) (h5 : c ≤ 5) : Fuses.Step f { f with lc := c } := fun ⟨_, b⟩ =>
  ⟨⟨h5, b⟩, ⟨h, Nat.le_refl _, Nat.le_refl _, List.prefix_rfl, List.prefix_rfl, fun _ => ⟨rfl, rfl, rfl, rfl, rfl⟩, rfl⟩⟩

theorem powerCut_fst (f : Fuses) (r : Fuses × Dev) : (powerCut f r).1 = r.1 := by
  unfold powerCut; split <;> rfl

/-! ### Security -/

theorem zeroiseVault_step (p : Bool) (f : Fuses) (d : Dev) : Fuses.Step f (zeroiseVault p f d).1 := by
  unfold zeroiseVault
  simp only
  split
  · exact Fuses.addEpoch_step f
  · exact Fuses.pend_step f [.epoch] rfl

theorem tamperRespond_step (f : Fuses) (d : Dev) (a b c : Nat) : Fuses.Step f (tamperRespond f d a b c).1 := by
  unfold tamperRespond
  simp only
  split
  · split
    · exact zeroiseVault_step _ _ _
    · exact Fuses.Step.refl f
  · split
    · split
      · exact zeroiseVault_step _ _ _
      · exact Fuses.Step.refl f
    · split
      · exact zeroiseVault_step _ _ _
      · exact Fuses.Step.refl f

theorem tamperEvent_step (a b : Nat) (f : Fuses) (d : Dev) : Fuses.Step f (tamperEvent a b f d).1 := by
  unfold tamperEvent
  split
  · exact Fuses.Step.refl f
  · exact tamperRespond_step _ _ _ _ _

theorem secRun_step (w : Sys2Proof.Who) (code : Nat) (ms : List Nat) (arg : List Byte) (used : Nat) (t : Option Nat) (body : SecBody)
    (f : Fuses) (d : Dev) (h : ∀ f d, Fuses.Step f (body f d).2.2.1) : Fuses.Step f (secRun w code ms arg used t body f d).1 := by
  unfold secRun
  split
  · exact Fuses.Step.refl f
  · split
    · exact Fuses.Step.refl f
    · split
      · exact Fuses.Step.refl f
      · split
        · exact Fuses.Step.refl f
        · split
          · exact Fuses.Step.refl f
          · split
            · exact Fuses.Step.refl f
            · split
              · exact tamperRespond_step _ _ _ _ _
              · split
                · exact Fuses.Step.refl f
                · exact h f d

theorem noFuse_step (g : Fuses → Dev → Nat × List Byte × Dev) (f : Fuses) (d : Dev) : Fuses.Step f (noFuse g f d).2.2.1 := Fuses.Step.refl f

theorem enterLc_step (c : Nat) (f : Fuses) (d : Dev) (h : f.lc ≤ c) (h5 : c ≤ 5) : Fuses.Step f (enterLc c f d).1 := by
  unfold enterLc
  simp only
  split
  · exact (Fuses.lc_step f c h h5).trans (zeroiseVault_step _ _ _)
  · exact Fuses.lc_step f c h h5

theorem ownerCommit_step (o c : Nat) (k : List Byte) (f : Fuses) (d : Dev) : Fuses.Step f (ownerCommit o c k f d).1 := Fuses.addOwner_step f _

theorem lcAllowed_le {a b : Nat} (h : lcAllowed a b = true) : a ≤ b ∧ b ≤ 5 := by
  simp only [lcAllowed, within, Bool.or_eq_true, Bool.and_eq_true, beq_iff_eq, decide_eq_true_eq] at h
  omega

theorem evApply_step (o : Nat) (e p : List Byte) (cut : Bool) (f : Fuses) (d : Dev)
    (h : evOp e = 5 → lcAllowed f.lc (field p 0 1) = true) : Fuses.Step f (evApply o e p cut f d).1 := by
  unfold evApply
  simp only
  split
  · exact Fuses.Step.refl f
  · split
    · exact Fuses.Step.refl f
    · split
      · split
        · exact Fuses.pend_step f [_] rfl
        · exact ownerCommit_step _ _ _ _ _
      · split
        · rename_i h5
          have hl := lcAllowed_le (h h5)
          split
          · exact Fuses.pend_step f [_] (by simp [Burn.fits, hl.2])
          · exact enterLc_step _ _ _ hl.1 hl.2
        · exact Fuses.Step.refl f

/-- An envelope that passes the checks asks for a transition that Table KEY-1 has. -/
theorem evCheck_lc {f : Fuses} {d : Dev} {e : List Byte} (h : (evCheck f d e).1 = scOK) (h5 : evOp e = 5) :
    lcAllowed f.lc (field (evCheck f d e).2 0 1) = true := by
  revert h
  unfold evCheck
  split; · simp
  split; · simp
  split; · simp
  split; · simp
  split
  · simp
  · rename_i p _
    rw [if_neg (by omega : ¬ evOp e ≤ 4)]
    split; · simp
    split; · simp
    rename_i h7
    split; · simp
    split; · simp
    split; · simp
    intro _
    simpa using h7

theorem evBody_step (w : Sys2Proof.Who) (e : List Byte) (cut : Bool) (f : Fuses) (d : Dev) : Fuses.Step f (evBody w e cut f d).2.2.1 := by
  unfold evBody
  simp only
  split
  · exact Fuses.Step.refl f
  · rename_i h
    exact evApply_step _ _ _ _ _ _ (fun h5 => evCheck_lc (by simpa using h) h5)

theorem envelope_step (w : Sys2Proof.Who) (e : List Byte) (t : Option Nat) (cut : Bool) (f : Fuses) (d : Dev) :
    Fuses.Step f (envelope w e t cut f d).1 := by
  unfold envelope
  exact secRun_step w 0x01 [31, 28, 29, 32] [] 64 t (evBody w e cut) f d (evBody_step w e cut)

theorem provisionBody_step (arg : List Byte) (cut : Bool) (f : Fuses) (d : Dev) : Fuses.Step f (provisionBody arg cut f d).2.2.1 := by
  unfold provisionBody
  split
  · exact Fuses.Step.refl f
  · rename_i h
    simp only
    split
    · exact Fuses.pend_step f [.owner _, .lifecycle 2] rfl
    have hlc : (f.addOwner (Config.sha384 (arg.take 49))).lc = 1 := by
      unfold Fuses.addOwner; split <;> simpa using h
    exact (Fuses.addOwner_step f _).trans (Fuses.lc_step _ 2 (by omega) (by decide))

theorem secProvision_step (w : Sys2Proof.Who) (a : List Byte) (t : Option Nat) (cut : Bool) (f : Fuses) (d : Dev) :
    Fuses.Step f (secProvision w a t cut f d).1 := secRun_step _ _ _ _ _ _ _ _ _ (provisionBody_step a cut)
theorem secQuote_step (w : Sys2Proof.Who) (a : List Byte) (t : Option Nat) (f : Fuses) (d : Dev) : Fuses.Step f (secQuote w a t f d).1 :=
  secRun_step _ _ _ _ _ _ _ _ _ (noFuse_step _)
theorem secDerive_step (w : Sys2Proof.Who) (a : List Byte) (t : Option Nat) (f : Fuses) (d : Dev) : Fuses.Step f (secDerive w a t f d).1 :=
  secRun_step _ _ _ _ _ _ _ _ _ (noFuse_step _)
theorem secMeasExtend_step (w : Sys2Proof.Who) (a : List Byte) (t : Option Nat) (f : Fuses) (d : Dev) : Fuses.Step f (secMeasExtend w a t f d).1 :=
  secRun_step _ _ _ _ _ _ _ _ _ (noFuse_step _)
theorem secSlotRemap_step (w : Sys2Proof.Who) (a : List Byte) (t : Option Nat) (f : Fuses) (d : Dev) : Fuses.Step f (secSlotRemap w a t f d).1 :=
  secRun_step _ _ _ _ _ _ _ _ _ (noFuse_step _)
theorem secKekRotate_step (w : Sys2Proof.Who) (a : List Byte) (t : Option Nat) (f : Fuses) (d : Dev) : Fuses.Step f (secKekRotate w a t f d).1 :=
  secRun_step _ _ _ _ _ _ _ _ _ (noFuse_step _)
theorem secKekInvalidate_step (w : Sys2Proof.Who) (a : List Byte) (t : Option Nat) (f : Fuses) (d : Dev) :
    Fuses.Step f (secKekInvalidate w a t f d).1 := secRun_step _ _ _ _ _ _ _ _ _ (noFuse_step _)
theorem secKekClear_step (w : Sys2Proof.Who) (a : List Byte) (t : Option Nat) (f : Fuses) (d : Dev) : Fuses.Step f (secKekClear w a t f d).1 :=
  secRun_step _ _ _ _ _ _ _ _ _ (noFuse_step _)
theorem secNodeKeyNew_step (w : Sys2Proof.Who) (a : List Byte) (t : Option Nat) (f : Fuses) (d : Dev) : Fuses.Step f (secNodeKeyNew w a t f d).1 :=
  secRun_step _ _ _ _ _ _ _ _ _ (noFuse_step _)
theorem secNodeKeyRoll_step (w : Sys2Proof.Who) (a : List Byte) (t : Option Nat) (f : Fuses) (d : Dev) : Fuses.Step f (secNodeKeyRoll w a t f d).1 :=
  secRun_step _ _ _ _ _ _ _ _ _ (noFuse_step _)
theorem secNodeKeyGet_step (w : Sys2Proof.Who) (a : List Byte) (t : Option Nat) (f : Fuses) (d : Dev) : Fuses.Step f (secNodeKeyGet w a t f d).1 :=
  secRun_step _ _ _ _ _ _ _ _ _ (noFuse_step _)
theorem secNodeKeyExport_step (w : Sys2Proof.Who) (a : List Byte) (t : Option Nat) (f : Fuses) (d : Dev) :
    Fuses.Step f (secNodeKeyExport w a t f d).1 := secRun_step _ _ _ _ _ _ _ _ _ (noFuse_step _)
theorem secNodeKeyImport_step (w : Sys2Proof.Who) (a : List Byte) (t : Option Nat) (f : Fuses) (d : Dev) :
    Fuses.Step f (secNodeKeyImport w a t f d).1 := secRun_step _ _ _ _ _ _ _ _ _ (noFuse_step _)
theorem secRandom_step (w : Sys2Proof.Who) (a : List Byte) (t : Option Nat) (f : Fuses) (d : Dev) : Fuses.Step f (secRandom w a t f d).1 :=
  secRun_step _ _ _ _ _ _ _ _ _ (noFuse_step _)
theorem secRecovKeyLoad_step (w : Sys2Proof.Who) (a : List Byte) (t : Option Nat) (f : Fuses) (d : Dev) :
    Fuses.Step f (secRecovKeyLoad w a t f d).1 := secRun_step _ _ _ _ _ _ _ _ _ (noFuse_step _)

theorem lifecycleDebug_step (target : Nat) (lock eui cert : List Byte) (policy : Nat) (subsys : Option (Nat × Nat)) (cut : Bool) (f : Fuses) (d : Dev) :
    Fuses.Step f (lifecycleDebug target lock eui cert policy subsys cut f d).1 := by
  unfold lifecycleDebug
  simp only
  split
  · exact Fuses.Step.refl f
  split
  · exact Fuses.Step.refl f
  · split
    · rename_i h
      split
      · exact Fuses.Step.refl f
      · have h1 (root : Option (List Byte)) : Fuses.Step f { f with root := root, lock := lock, eui := fit 8 eui, tamper := policy % 65536,
                                                                              subsys := subsys.map fun x : Nat × Nat => (x.1 % 65536, x.2 % 65536) } :=
          fun ⟨a, b, c, e, g, _, p⟩ => ⟨⟨a, b, c, e, g, Nat.mod_lt _ (by decide), p⟩,
            ⟨Nat.le_refl _, Nat.le_refl _, Nat.le_refl _, List.prefix_rfl, List.prefix_rfl, fun hf => absurd h.1 hf, rfl⟩⟩
        split
        · exact (h1 _).trans (Fuses.pend_step _ [_] rfl)
        · refine (h1 _).trans (Fuses.lc_step _ 1 ?_ (by decide))
          show f.lc ≤ 1
          omega
    · split
      · rename_i h
        split
        · exact Fuses.pend_step f [_] rfl
        · exact enterLc_step _ _ _ (by omega) (by decide)
      · exact Fuses.Step.refl f

/-! ### Power and start -/

theorem supplyTrip_step (v : Bool) (l : Nat) (f : Fuses) (d : Dev) : Fuses.Step f (supplyTrip v l f d).1 := by
  unfold supplyTrip
  split
  · exact Fuses.Step.refl f
  · exact tamperEvent_step _ _ _ _

theorem tamperSeen_step (s l : Nat) (f : Fuses) (d : Dev) : Fuses.Step f (tamperSeen s l f d).1 := by
  unfold tamperSeen
  split
  · exact tamperEvent_step _ _ _ _
  · exact Fuses.Step.refl f

theorem monitorTrip_step (s l : Nat) (f : Fuses) (d : Dev) : Fuses.Step f (monitorTrip s l f d).1 := by
  unfold monitorTrip
  split
  · exact Fuses.Step.refl f
  · exact tamperSeen_step _ _ _ _

theorem completeBurn_step (s : Fuses × Dev) (b : Burn) (h : b.fits = true) : Fuses.Step s.1 (completeBurn s b).1 := by
  obtain ⟨f, d⟩ := s
  unfold completeBurn
  cases b with
  | lifecycle c =>
    simp only
    split
    · rename_i hc
      exact enterLc_step _ _ _ (Nat.le_of_lt hc) (by simpa [Burn.fits] using h)
    · exact Fuses.Step.refl f
  | owner x =>
    simp only
    split
    · exact ownerCommit_step _ _ _ _ _
    · exact Fuses.addOwner_step _ _
  | epoch => exact Fuses.addEpoch_step f
  | rollback n => exact Fuses.addRollback_step f n
  | repair w => exact Fuses.addRepair_step f w

theorem foldBurns_step (l : List Burn) (s : Fuses × Dev) (h : l.all Burn.fits = true) : Fuses.Step s.1 (l.foldl completeBurn s).1 := by
  induction l generalizing s with
  | nil => exact Fuses.Step.refl _
  | cons b l ih =>
    simp only [List.all_cons, Bool.and_eq_true] at h
    exact (completeBurn_step s b h.1).trans (ih _ h.2)

theorem completeBurns_step (f : Fuses) (d : Dev) : Fuses.Step f (completeBurns f d).1 := by
  intro hf
  unfold completeBurns
  simp only
  have hp : f.pend.all Burn.fits = true := hf.2.2.2.2.2.2
  refine Fuses.Step.trans (g := { f with pend := [] }) (Fuses.pendNone_step f) (Fuses.Step.trans
    (foldBurns_step _ ({ f with pend := [] }, d) ?_) (Fuses.addRollback_step _ _)) hf
  simp only [List.all_eq_true] at hp ⊢
  intro b hb
  simp only [List.mem_append, List.mem_filter] at hb
  exact hp b (by rcases hb with hb | hb <;> exact hb.1)

theorem porStart_step (a b : Bool) (f : Fuses) (d : Dev) : Fuses.Step f (porStart a b f d).1 := completeBurns_step _ _

theorem porRelease_step (a b : Bool) (f : Fuses) (d : Dev) : Fuses.Step f (porRelease a b f d).1 := by
  unfold porRelease
  split
  · exact porStart_step _ _ _ _
  · exact Fuses.Step.refl f

theorem actDone_step (f : Fuses) (d : Dev) (w : Sys2Proof.Who) (a : Activation) : Fuses.Step f (actDone f d w a).1 := by
  unfold actDone
  simp only
  split
  · exact porStart_step _ _ _ _
  · exact Fuses.Step.refl f

theorem updActivate_step (w : Sys2Proof.Who) (r : Bool) (st : Option Nat) (f : Fuses) (d : Dev) : Fuses.Step f (updActivate w r st f d).1 := by
  unfold updActivate
  split; · exact Fuses.Step.refl f
  split; · exact Fuses.Step.refl f
  split; · exact Fuses.Step.refl f
  simp only
  split
  · exact actDone_step _ _ _ _
  · exact Fuses.Step.refl f

theorem rollbackBurn_step (g : Nat) (b : Option Nat) (f : Fuses) (d : Dev) : Fuses.Step f (rollbackBurn g b f d).1 := by
  unfold rollbackBurn
  cases b <;>
  · simp only
    split
    · exact (Fuses.addRollback_step _ _).trans (Fuses.pend_step _ [_] rfl)
    · exact Fuses.addRollback_step _ _

theorem updConfirm_step (w : Sys2Proof.Who) (b : Option Nat) (f : Fuses) (d : Dev) : Fuses.Step f (updConfirm w b f d).1 := by
  unfold updConfirm
  split; · exact Fuses.Step.refl f
  split; · exact Fuses.Step.refl f
  split; · exact Fuses.Step.refl f
  exact rollbackBurn_step _ _ _ _

theorem restart_step (w : Sys2Proof.Who) (a b : Bool) (f : Fuses) (d : Dev) : Fuses.Step f (restart w a b f d).1 := by
  unfold restart
  split
  · exact Fuses.Step.refl f
  · exact porStart_step _ _ _ _

theorem trialBrew_step (f : Fuses) (d : Dev) : Fuses.Step f (trialBrew f d).1 := by
  unfold trialBrew
  split
  · exact porStart_step _ _ _ _
  · exact Fuses.Step.refl f

theorem trialConfirm_step (f : Fuses) (d : Dev) : Fuses.Step f (trialConfirm f d).1 := by
  unfold trialConfirm
  split
  · exact porStart_step _ _ _ _
  · exact Fuses.Step.refl f

theorem runFinish_step (x : BootRun) (f : Fuses) (d : Dev) : Fuses.Step f (runFinish x f d).1 := by
  unfold runFinish
  simp only
  split; · exact Fuses.Step.refl f
  split; · exact Fuses.Step.refl f
  split
  · split
    · exact actDone_step _ _ _ _
    · exact Fuses.Step.refl f
  · split <;> exact Fuses.Step.refl f

theorem flashLate_step (again : Bool) (f : Fuses) (d : Dev) : Fuses.Step f (flashLate again f d).1 := by
  unfold flashLate
  split
  · exact Fuses.Step.refl f
  · split
    · exact runFinish_step _ _ _
    · exact Fuses.Step.refl f

theorem repairBurn_step (w : Sys2Proof.Who) (seq : Nat) (cut : Bool) (f : Fuses) (d : Dev) : Fuses.Step f (repairBurn w seq cut f d).1 := by
  unfold repairBurn
  split
  · exact Fuses.Step.refl f
  · split; · exact Fuses.Step.refl f
    split; · exact Fuses.Step.refl f
    split; · exact Fuses.Step.refl f
    split
    · exact Fuses.pend_step f [_] rfl
    · exact Fuses.addRepair_step f _

/-! ### Register writes and the Commit Gate -/

theorem secCmd_step (m : Sys2Proof.Master) (code : Nat) (f : Fuses) (d : Dev) : Fuses.Step f (secCmd m code f d).1 := by
  unfold secCmd
  split
  · exact Fuses.Step.refl f
  · simp only
    split
    · exact envelope_step _ _ _ _ _ _
    · exact secQuote_step _ _ _ _ _
    · exact secDerive_step _ _ _ _ _
    · exact secMeasExtend_step _ _ _ _ _
    · exact secSlotRemap_step _ _ _ _ _
    · exact secKekRotate_step _ _ _ _ _
    · exact secKekInvalidate_step _ _ _ _ _
    · exact secKekClear_step _ _ _ _ _
    · exact secNodeKeyNew_step _ _ _ _ _
    · exact secNodeKeyRoll_step _ _ _ _ _
    · exact secNodeKeyGet_step _ _ _ _ _
    · exact secNodeKeyExport_step _ _ _ _ _
    · exact secNodeKeyImport_step _ _ _ _ _
    · exact secRandom_step _ _ _ _ _
    · exact secRecovKeyLoad_step _ _ _ _ _
    · exact secProvision_step _ _ _ _ _ _
    · exact Fuses.Step.refl f

theorem bootCmd_step (m : Sys2Proof.Master) (code : Nat) (f : Fuses) (d : Dev) : Fuses.Step f (bootCmd m code f d).1 := by
  unfold bootCmd
  simp only
  split
  · exact Fuses.Step.refl f
  · split
    all_goals first
      | exact Fuses.Step.refl f
      | exact updActivate_step _ _ _ _ _
      | exact updConfirm_step _ _ _ _
      | exact restart_step _ _ _ _ _

theorem regWrite_step (f : Fuses) (d : Dev) (m : Sys2Proof.Master) (r : RegDesc) (ix : List Nat) (a : Nat) (w : Word) :
    Fuses.Step f (regWrite f d m r ix a w).1 := by
  unfold regWrite
  simp only
  split
  all_goals first
    | exact Fuses.Step.refl f
    | (unfold writeLow; split <;> first | exact bootCmd_step _ _ _ _ | exact Fuses.Step.refl f)
    | (unfold writeSec; split; · exact Fuses.Step.refl f
       split; · exact secCmd_step _ _ _ _
       split <;> exact Fuses.Step.refl f)
    | (unfold writeRes; simp only; split; · exact Fuses.Step.refl f
       split; · exact Fuses.Step.refl f
       split; · exact Fuses.Step.refl f
       split
       · split <;> first | exact repairBurn_step _ _ _ _ _ | exact Fuses.Step.refl f
       · repeat' split
         all_goals exact Fuses.Step.refl f)

theorem busWrite_step (m : Sys2Proof.Master) (a : Nat) (w : Word) (f : Fuses) (d : Dev) : Fuses.Step f (busWrite m a w f d).1 := by
  unfold busWrite
  split
  · exact Fuses.Step.refl f
  · split; · exact Fuses.Step.refl f
    split
    · exact Fuses.Step.refl f
    · unfold foundWrite
      split; · exact Fuses.Step.refl f
      split; · exact Fuses.Step.refl f
      split; · exact Fuses.Step.refl f
      exact regWrite_step _ _ _ _ _ _ _

theorem regWriteCmd_step (w : Sys2Proof.Who) (a : Nat) (v : Word) (f : Fuses) (d : Dev) : Fuses.Step f (regWriteCmd w a v f d).1 := by
  unfold regWriteCmd
  simp only
  split; · exact Fuses.Step.refl f
  split; · exact Fuses.Step.refl f
  exact busWrite_step _ _ _ _ _

theorem applyItems_step (l : List Item) (f : Fuses) (d : Dev) : Fuses.Step f (applyItems l f d).1 := by
  unfold applyItems
  induction l generalizing f d with
  | nil => exact Fuses.Step.refl f
  | cons i l ih =>
    exact (busWrite_step (.cc i.secure) i.addr (wd i.data) f d).trans
      (ih (busWrite (.cc i.secure) i.addr (wd i.data) f d).1 (busWrite (.cc i.secure) i.addr (wd i.data) f d).2)

theorem release_step (k n : Nat) (f : Fuses) (d : Dev) : Fuses.Step f (release k n f d).1 := applyItems_step _ _ _

theorem testDone_step (a b : Bool) (f : Fuses) (d : Dev) : Fuses.Step f (testDone a b f d).1 := by
  unfold testDone
  split
  · simp only
    split
    · exact release_step _ _ _ _
    · repeat' first | exact release_step _ _ _ _ | split
  · exact Fuses.Step.refl f

theorem tamperResponds_step (l : List Nat) (s : Fuses × Dev) :
    Fuses.Step s.1 (l.foldl (fun s k => tamperRespond s.1 s.2 k (tamperState s.2) (tamperState s.2)) s).1 := by
  induction l generalizing s with
  | nil => exact Fuses.Step.refl _
  | cons k l ih => exact (tamperRespond_step _ _ _ _ _).trans (ih _)

theorem tampersDue_step (f : Fuses) (d : Dev) : Fuses.Step f (tampersDue f d).1 := tamperResponds_step _ (f, _)

theorem testsEnd_step (a b : Bool) (f : Fuses) (d : Dev) : Fuses.Step f (testsEnd a b f d).1 :=
  (testDone_step a b f d).trans (tampersDue_step _ _)

theorem compare_step (a b n : Nat) (f : Fuses) (d : Dev) : Fuses.Step f (compare a b n f d).1 := by
  unfold compare
  simp only
  split
  · exact Fuses.Step.refl f
  · exact release_step _ _ _ _

theorem windowClose_step (f : Fuses) (d : Dev) : Fuses.Step f (windowClose f d).1 := by
  unfold windowClose
  split
  · exact Fuses.Step.refl f
  · split
    · simp only
      split
      · exact compare_step _ _ _ _ _
      · exact Fuses.Step.refl f
    · exact release_step _ _ _ _
    · exact Fuses.Step.refl f

theorem post_step (k : Nat) (b : Bool) (a x y : Nat) (f : Fuses) (d : Dev) : Fuses.Step f (post k b a x y f d).1 := by
  unfold post
  simp only
  repeat' first | exact Fuses.Step.refl f | exact compare_step _ _ _ _ _ | split

/-- A command that burns no fuse. -/
theorem onDev_fuses {s t : State} {g : Dev → Dev} (h : s.onDev g = .next t) : t.fuses = s.fuses := by
  unfold State.onDev at h
  split at h <;> · injection h with h; rw [← h]

theorem onDevF_fuses {s t : State} {g : Fuses → Dev → Dev} (h : s.onDevF g = .next t) : t.fuses = s.fuses := by
  unfold State.onDevF at h
  split at h <;> · injection h with h; rw [← h]

theorem onKettle_fuses {s t : State} {g : Dev → Dev} (h : s.onKettle g = .next t) : t.fuses = s.fuses := by
  unfold State.onKettle at h
  injection h with h; rw [← h]

/-- A command that may burn fuses. -/
theorem onFuses_step {s t : State} {g : Fuses → Dev → Fuses × Dev} (hg : ∀ f d, Fuses.Step f (g f d).1) (h : s.onFuses g = .next t) :
    Fuses.Step s.fuses t.fuses := by
  unfold State.onFuses at h
  split at h <;> injection h with h <;> rw [← h]
  · exact Fuses.Step.refl _
  · exact hg _ _

theorem onKettleF_step {s t : State} {g : Fuses → Dev → Fuses × Dev} (hg : ∀ f d, Fuses.Step f (g f d).1) (h : s.onKettleF g = .next t) :
    Fuses.Step s.fuses t.fuses := by
  unfold State.onKettleF at h
  injection h with h; rw [← h]
  exact hg _ _

end Sys2Proof.Machine
end

