-- ==== Sys2Proof/Laws/Time.lean ====
section
/-! SUPPORT. What a Strainer filter does to its input (18_electrical_and_package.md R493). -/

namespace Sys2Proof.Machine

/-- A sample of the output's level ends a count that runs and leaves the output. -/
@[simp] theorem PinFilter.sample_same (x : PinFilter) (w : Nat) : x.sample w x.level = { x with run := 0 } := by
  simp [PinFilter.sample]

/-- A count that runs goes on under the width it began with, whatever width is in force. -/
theorem PinFilter.count_on (l : Bool) (r k w n : Nat) (hr : r ≠ 0) (h : r + n < k) :
    (List.replicate n (!l)).foldl (fun (y : PinFilter) v => y.sample w v) ⟨l, r, k⟩ = ⟨l, r + n, k⟩ := by
  induction n generalizing r with
  | zero => rfl
  | succ n ih =>
    have hk : ¬ k ≤ r + 1 := by omega
    have hs : PinFilter.sample ⟨l, r, k⟩ w (!l) = ⟨l, r + 1, k⟩ := by
      cases l <;> simp [PinFilter.sample, hr, hk]
    rw [List.replicate_succ, List.foldl_cons, hs, ih (r + 1) (by omega) (by omega), Nat.add_assoc, Nat.add_comm 1 n]

/-- A pulse shorter than the width leaves the output as it is. -/
theorem PinFilter.pulse_removed (x : PinFilter) (w n : Nat) (hx : x.run = 0) (hn : n < w) :
    ((List.replicate n (!x.level)).foldl (fun (y : PinFilter) v => y.sample w v) x).level = x.level := by
  cases n with
  | zero => rfl
  | succ n =>
    have hw : ¬ w ≤ 1 := by omega
    have hs : x.sample w (!x.level) = ⟨x.level, 1, w⟩ := by
      cases hl : x.level <;> simp [PinFilter.sample, hx, hw, hl]
    rw [List.replicate_succ, List.foldl_cons, hs, PinFilter.count_on _ _ _ _ _ (by decide) (by omega)]

end Sys2Proof.Machine
end

