-- ==== Sys2Proof/Tests/Slice0.lean ====
section
/-! SUPPORT. Tests: ill-formed commands, commands on small states, and for every statement with hypotheses a state and operands that meet
them. -/

section
-- one theorem after another: the kernel evaluations below each take a thread otherwise
set_option Elab.async false

open Sys2Proof Sys2Proof.Machine

/-- A device in service, PROVISIONED, nothing configured. -/
def tBase : State := ⟨{ Dev.blank with stage := 3 }, { Fuses.blank with lc := 2 }, []⟩

/-- That device with something changed. -/
def tDev (g : Dev → Dev) : State := { tBase with dev := g tBase.dev }

/-- A task of kind 4 from host software, without flow, successors or notification, standing somewhere. -/
def tTask (i : Nat) (p : TaskPhase) : Task :=
  ⟨⟨i, noTask, noTask, 0, 9, false, 4, 3, noFlow, 0, 0, 0, 0⟩, 0, p, none, false, 0, 0, 0, false, false, 0⟩

/-- That task in service on engine 8. -/
def tServe : State := tDev fun d =>
  ((d.setTask 0xE000 (tTask 0xE000 (.service 8))).setEngine 8 { d.engine 8 with tasks := [0xE000] }).setCaddy 0
    { d.caddy 0 with state := cdRUNNING, logical := some 0 }

/-- The same with its Caddy draining. -/
def tServeD : State := { tServe with dev := tServe.dev.setCaddy 0 { tServe.dev.caddy 0 with state := cdDRAINING } }

/-- A ZDA sentence of 1 January 1970, 00:01:17 UTC, with the last digit of its checksum, right with `4`. -/
def tZda (c : Byte) : List Byte := ascii "$GPZDA,000117,01,01,1970,00,00*" ++ [c, 0x30]

/-- Port p in a state, with something of it changed. -/
def tPort (p st : Nat) (g : Port → Port) : State := tDev fun d => (setState d p st).setPort p (g (d.port p))

/-- A Topology whose every byte that names a role names role 1, and one of role 3. -/
def tTopo1 : List Section := [{ type := 1, inst := 0xFFFF, body := List.replicate 640 1, src := none }]
def tTopo3 : List Section := [{ type := 1, inst := 0xFFFF, body := List.replicate 512 3 ++ List.replicate 128 1, src := none }]

/-- A descriptor with all calibration kinds, two curve points and two sensors. -/
def tDesc : List Byte :=
  List.replicate 85 0xFF ++ [2, 0, 0] ++ List.replicate 64 0 ++ [1, 1, 100, 0, 2, 2, 50, 0] ++ List.replicate 56 0xFF ++ List.replicate 8 0 ++ [1, 3] ++
    List.replicate 30 0

/-- Port p READY with that descriptor, something of its head changed. -/
def tHead (p : Nat) (g : Head → Head) : State := tDev fun d =>
  let d1 := (setState d p ylREADY).setPort p { d.port p with desc := tDesc }
  d1.setHead p (g (d1.head p))

/-- A burst of task 0xE000 on port 2, from 5 µs to 9 µs. -/
def tBurst : Burst := ⟨0xE000, ⟨40, 0, 0, 0, 2, 0, none, 0, 0, 0, 5000, 0⟩, 5000, 9000, 40, 80, 0, false, 0, 0, ⟨0, []⟩, ⟨0, []⟩, 0⟩

/-- Port 2 READY with both sensors just read and one admitted burst. -/
def tReady2 (b : Burst) (g : Head → Head) : State :=
  let s := tHead 2 fun h => g { h with sensors := [(0, ⟨0, 0⟩), (1, ⟨0, 0⟩)] }
  { s with dev := { s.dev with tx := ⟨[(0xE000, b)], []⟩ } }

/-- Port 2 READY, its receive path ready, under a band plan of ones and one PHY mode of id 1. -/
def tRx (g : Dev → Dev) : State := tDev fun d =>
  let d1 := { setState d 2 ylREADY with bld := { d.bld with cfg :=
    [{ type := 2, inst := 0xFFFF, body := List.replicate 1024 0xFF, src := none },
     { type := 3, inst := 0xFFFF, body := [1, 0, 0, 0, 8, 0] ++ List.replicate 26 200, src := none }] } }
  g (d1.setHead 2 { d1.head 2 with rxReady := true })

/-- A context on channel 3 of port 2. -/
def tCtx (st : CtxState) : RxCtx := ⟨2, 3, 1, 2, st, 9, 9, 0, false, none, 5, none, 5, false, false, 0, [], 0⟩

/-- That context, its task in service on engine 8. -/
def tInRx (st : CtxState) : State := { tServe with dev := { tServe.dev with rx := { tServe.dev.rx with ctx := [(0xE000, tCtx st)] } } }

/-- An ended copy that passed. -/
def tCopy : Copy := ⟨2, 3, 2, none, false, true, 9, 5, 5, [1, 2, 3], [], 0, 0, 0, 0, 0, false, false, 0, 0⟩

/-- A transmit task of a data burst at 50 µs on port 5, in service on engine 8; and the device, port 5 of role 3, where it may go. -/
def tSend : Task :=
  ⟨⟨0xE000, noTask, noTask, 0, 9, false, 1, 3, noFlow, 0, 2 ^ 46 + 5 * 2 ^ 32, noCell * 2 ^ 40 + 50000, 0⟩, 0, .service 8, none, false, 0, 0, 0, false, false, 0⟩
def tSending : State := tDev fun d => { (d.setTask 0xE000 tSend) with
  bld := { d.bld with cfg := tTopo3 ++
    [{ type := 2, inst := 0xFFFF, body := List.replicate 1024 0xFF, src := none },
     { type := 3, inst := 0xFFFF, body := [1, 0, 0, 0, 8, 0] ++ List.replicate 26 200, src := none }] }
  pbm := { bufs := [(0, [1, 2, 3])], next := 1 } }

/-- PAN 1 runs with one slotframe of 10 slots, at Full Brew. -/
def tPan (g : Dev → Dev) : State := tDev fun d => g ({ (d.setFld TS_CTRL_pan_run 2) with
  bld := { d.bld with cfg := tTopo3 ++ [{ type := 5, inst := 1, body := [0, 0, 10, 0, 1, 0, 0, 0] ++ List.replicate 24 0, src := none }] } })
def tFrame : SlotframeRec := ⟨0, 0, 0, 10, 1, 0, 0, [0]⟩
/-- A shared rx cell of PAN 1 in slot 3. -/
def tCellWord : Nat := 2 ^ 63 + 2 ^ 60 + 3 * 2 ^ 38 + 2 ^ 28 + 2 ^ 27 + 0xFFFFF
/-- A downlink queue entry of node 9. -/
def tEntry : QEntry := ⟨false, 2, false, false, true, 9, 0, 3, 0, 1, 5, 0, 1, 0, 0, none, 0, some 2, true, [], 0⟩

/-- The tables accept requests; PANs as tPan. -/
def tTbl (g : Dev → Dev) : State := tPan fun d => g (d.setBit TBL_STATUS_accepting true)
/-- A Hearing entry of node 9 in sector 2: where its key's first slot lies. -/
def tHearAt : Nat := bucketEntry tBase.dev 2 2 (candidates tBase.dev 2 (hearKey 2 9)).1
def tHear : State := tTbl fun d => setEntry d 2 tHearAt [9, 0, 0, 0x80]

/-- A configuration whose peer 3 may be joined through port 2: sections of threes and ones with a recovery port. -/
def tCfg : List Section :=
  [{ type := 1, inst := 0xFFFF, body := List.replicate 16 3 ++ [3, 3, 3, 1] ++ List.replicate 492 3 ++ List.replicate 528 1, src := none }]

/-- Ethernet port 0 serves PAN 1, up and untagged; node 9 has the short address 5 there. -/
def tFwd (g : Dev → Dev) : State := tTbl fun d =>
  let d0 : Dev := { d with bld := { d.bld with cfg := tCfg } }
  let d1 := (((d0.setFld (FWD_PANp_CFG_eth_mask 1) 1).setFld FWD_STATUS_link_up 1).setBit (FWD_ETHn_CFG_untag_en 0) true).setFld
    (FWD_ETHn_CFG_untag_pan 0) 1
  g (setEntry d1 1 (bucketEntry d1 1 0 (candidates d1 1 (shortKey 1 5)).1) (addrEntry d1 (shortKey 1 5) 9))

/-- An untagged IPv6 frame of 44 bytes to that address. -/
def tFrame6 : List Byte :=
  List.replicate 12 0 ++ [0x86, 0xDD, 0x60, 0, 0, 0, 0, 4, 59, 64] ++ List.replicate 16 0 ++ List.replicate 8 0 ++ [0, 0, 0, 0xFF, 0xFE, 0, 0, 5, 1, 2, 3, 4]

/-- The backhaul lost in a recovery state, peer 3 TRACKING on port 2. -/
def tRecov (st : Nat) : State := tFwd fun d => 
  (setState ((d.setFld FWD_STATUS_recov st).setBit FWD_CTRL_bh_down true) 2 ylREADY).setPeer 3 ⟨1, 0, false, 0, [], false, 2, []⟩

/-- Base n selected and changed. -/
def tTime (n : Nat) (g : TimeBase → TimeBase) : State := tDev fun d => (d.setFld TIM_TB_SEL_tb n).setTb n (g (d.tb n))


/-- Slot 5, a stored key that may be the KEK of PAN 2 and transfer to the site, with its tag; node 9 of PAN 2 is valid. -/
def tKeyFuses : Fuses := { tBase.fuses with root := some [1, 2] }
def tKeyAttr : Nat := 2 * 2 ^ 60 + 2 ^ 55 + 2 * 2 ^ 52 + 2 ^ 46 + 2 ^ 44 + 2 ^ 35 + 2 ^ 28
def tKek : Slot := ⟨zeros 64, tKeyAttr, slotTag tKeyFuses 5 tKeyAttr (zeros 64), false, false⟩
def tKeys : State :=
  { tPan (fun d => setEntryField (({ d with vault := { d.vault with slots := [(5, tKek)] } }).setFld (SEC_PANp_KEK_active 2) 5) 0 9 0 4 (2 ^ 31 + 2 * 2 ^ 28))
    with fuses := tKeyFuses }

/-- A slot with its own tag that permits an operation may be used. -/
theorem useSlot_own (f : Fuses) (d : Dev) (i op typ attr : Nat) (m : List Byte) (master pan : Option Nat)
    (h : d.slot i = some ⟨m, attr, slotTag f i attr m, false, false⟩) (hk : fixedKey f (ascii "tm.vault-tag") 32 ≠ none) (hi : i ≠ 0)
    (hp : ¬ (atType attr ≠ typ ∨ !nbit attr op ∨ !nbit attr (33 + f.lc) ∨ (master.any fun m => !nbit attr m) ∨
      (nbit attr 55 ∧ pan ≠ some (nbits attr 54 52)))) (hs : atSource attr = 0) :
    useSlot f d i op typ master pan = (scOK, m.take (if typ = 1 then 16 else if typ = 3 then 49 else 32), d) := by
  simp [useSlot, h, slotSound, hk, hi, hs]
  simpa using hp

theorem tKeys_kek : useKek tKeys.fuses tKeys.dev 28 2 5 = (scOK, zeros 32, tKeys.dev) :=
  useSlot_own _ _ _ _ _ tKeyAttr (zeros 64) _ _ rfl (by simp [fixedKey, tKeys, tKeyFuses, tBase]) (by decide) (by decide +kernel) (by decide +kernel)

theorem tKeys_xfer : useSlot tKeys.fuses tKeys.dev 5 46 2 (some 28) (some (nodePan tKeys.dev 9)) = (scOK, zeros 32, tKeys.dev) := by
  rw [show nodePan tKeys.dev 9 = 2 from by decide +kernel]
  exact useSlot_own _ _ _ _ _ tKeyAttr (zeros 64) _ _ rfl (by simp [fixedKey, tKeys, tKeyFuses, tBase]) (by decide) (by decide +kernel) (by decide +kernel)

/-- A secured header under key index 3, level 5; a device that accepts it: record 4 of PSDU buffer 5, node 9's key 0 of index 3 cached by Caddy 1. -/
def tSecHdr : MacHdr := ⟨2, 1, false, some 1, none, 2, 0, 2, 5, 5, 1, 3, some 77, 8, 0, 0, none⟩
def tFsu (psdu : Nat) : State := tPan fun d =>
  let v : Sec := { d.vault with cache := [(cacheSet 1 9, [⟨9, 0, 0, 0, [7]⟩])] }
  let d1 : Dev := { d with rx := { d.rx with hdrs := [(4, tSecHdr)] }, pbm := ⟨[(4, zeros 0x24 ++ le 4 psdu), (psdu, List.replicate 20 6)], 9⟩, vault := v }
  (setEntryField (setEntryField d1 0 9 0 4 (2 ^ 31)) 0 9 0x1C 1 3).setFld (SEC_PANp_CFG_rx_levels 0) 0xEE

/-- A campaign 7 in PAN 1 without Whistles of an image of 1,500 bytes, in a state. -/
def tCampDesc : List Byte := [7, 1, 0, 0, 9, 0, 0, 0, 0xDC, 5, 0, 0, 1, 0, 1, 0, 0, 0, 0, 0, 1, 0, 0, 1] ++ zeros 8
def tCamp : Camp := ⟨tCampDesc, cpREADY, 0, 2, 0, 0, none, false, 0, 0, []⟩
def tCampFlash (st : Nat) : CampFlash := ⟨tCampDesc, fit 1500 [5, 6], st, 0, (cpREADY, 0)⟩
def tCampaign (st : Nat) : State := tPan fun d => { d with cmp := ⟨[(7, { tCamp with state := st })], [(7, tCampFlash st)], []⟩ }

/-- A base image that leaves no room in its ring. -/
def tFullBase (n : Nat) : State := tDev fun d => { d with boot := { d.boot with base := some ⟨1, 0, 0, List.replicate n (0, []), [], []⟩ } }
theorem tFullBase_full (n : Nat) (h : 1100000 ≤ n) : areaSize (tFullBase n).dev 5 <
    (((tFullBase n).dev.boot.base.map baseLength).getD 0) + baseLength (baseNow (tFullBase n).dev ((tFullBase n).dev.boot.imageSeq + 1)) := by
  refine Nat.lt_of_lt_of_le ?_ (Nat.le_add_right _ _)
  have h1 : areaSize (tFullBase n).dev 5 = 117440512 := rfl
  have h2 : (tFullBase n).dev.boot.base.map baseLength = some (64 + 32768 + 112 * (List.replicate n ((0 : Nat), ([] : List Byte))).length + 32 * 0 + 12 * 0) := rfl
  rw [h1, h2, List.length_replicate, Option.getD_some]
  omega

/-- A posted write of 5 to TIM_TB_SEL; CC-A active and CC-B STANDBY with items; the gate changed. -/
def tItem : Item := ⟨TIM_TB_SEL, 5, 0, 0, true, true, 0⟩
def tGate (a b : List Item) : State := tDev fun d =>
  setCc (setCc ((d.setComplex 0 ⟨[], a, 0, 0⟩).setComplex 1 ⟨[], b, 0, 0⟩) 0 ccACTIVE) 1 ccSTANDBY
def tGateG (g : Gate → Gate) : State := { tGate [] [] with dev := (tGate [] []).dev.setGate (g (tGate [] []).dev.res.gate) }

/-- The rotation's Caddy 3, RUNNING and fenced, or in its slice. -/
def tBist (inSlice : Bool) : State := tDev fun d =>
  let e := d.setCaddy 3 { d.caddy 3 with state := if inSlice then cdBIST else cdRUNNING, logical := some 3, fenced := !inSlice }
  { e with res := { e.res with bist := { e.res.bist with pos := 3, current := some 3, inSlice := inSlice } } }

/-- A full Packet Buffer Memory. -/
def tFullPbm : State := tPan fun d => { d with pbm := ⟨[(0, List.replicate 16777216 0)], 1⟩ }
theorem tFullPbm_full (bs : List Byte) (h : 0 < bs.length) : bufPut tFullPbm.dev bs = none := by
  have h1 : ∀ n : Nat, ((([(0, List.replicate n (0 : Byte))] : Tab (List Byte))).map fun b => b.2.length).sum = n := by intro n; simp
  have h2 : pbmUsed tFullPbm.dev = 16777216 := h1 16777216
  have h3 : pbmCap = 16777216 := rfl
  unfold bufPut
  rw [h2, h3, if_neg (by omega)]

/-! ### Ill-formed commands, one for each check -/

theorem test_illformed_objects :
    [(.portEnable 64 : Instr), .ethLinkChange 4 true, .caddyPllLock 34, .engineFault 544, .slotDone 7 3, .deltaPanSwitch 8, .peerHoldExpiry 16,
     .hearMerge (.cc true) 16 9 [] [] 0, .tbCheckFail 8 0 0, .dnReadTimeout 8, .msixUnmask 32, .ccRetest 2, .wqErrClr 256, .shaperRefill 512,
     .taskDispatch 0xFFFF 8, .ackWindowExpiry 65535, .start (.cmd 1) 255, .powerDomainFault 34, .bistSliceEnd false 19, .bankRepairDone 256].all
      (fun c => !c.wellFormed) = true := by decide +kernel

theorem test_illformed_numbers :
    [(.ack 2 0 [] : Instr), .jrnlStep 65536, .cellRead (.cmd 1) 1048576, .fsuParse 8 4294967296 0, .cellWrite (.cmd 1) 3 18446744073709551616,
     .alarmAck (.cmd 1) 512 1, .hcqDoorbell 4096, .regRead (.cmd 1) 2, .registerWrite .host 6 9 0, .ccpendClear 8 1, .fwRaise 8 0,
     .tamperEvent 8 0, .eccError 5 0 0 0 false 0, .funcDisable (.cmd 1) 16 0, .calStart 2 5, .blendLoad (.cmd 1) 0 0 4096,
     .detectionLate 2 256, .tableRead (.cc true) 10 0 0].all (fun c => !c.wellFormed) = true := by decide +kernel

theorem test_illformed_lengths :
    [(.hsubSubmit [] : Instr), .hcqFetch [1, 2], .envelope (.cmd 1) (zeros 335) none false, .quote (.cmd 1) (zeros 64) (some 8),
     .tableLookup (.cc true) 1 (zeros 15) 0, .tableWrite (.cc true) 0 0 (zeros 65), .event 2 (zeros 256), .ethFrameReceived 0 (zeros 13) []].all
      (fun c => !c.wellFormed) = true := by decide +kernel

theorem test_wellformed :
    [(.portEnable 63 : Instr), .slotDone 8 3, .hcqDoorbell 4095, .hsubSubmit (zeros 32), .ethFrameReceived 3 (zeros 14) [], .regRead (.cmd 1) 0xFFFFFC,
     .powerDomainFault 200, .detectionLate 2 255].all Instr.wellFormed = true := by decide +kernel

/-! ### Worked examples of the spec -/

/-- R9 (00_scope.md): TB4 read across a 32-bit boundary. -/
def tR9 (ns : Nat) : State := tTime 4 fun b => { b with sec := ns / 1000000000, ns := ns % 1000000000 }
theorem test_pair_read_lo : (match exec (.pairLoRead .host (TIM_TBn_NS_LO 4) 4) (tR9 0x1FFFFFFF0) with
    | .next t => (Tab.find t.dev.rdata (Master.key .host), Tab.find t.dev.shadows (pairKey .host (TIM_TBn_NS_HI 4)))
    | _ => (none, none)) = (some 0xFFFFFFF0, some 1) := by decide +kernel
theorem test_pair_read_hi : (match exec (.pairHiRead .host (TIM_TBn_NS_HI 4) 4)
      { tR9 0x200000010 with dev := { (tR9 0x200000010).dev with shadows := [(pairKey .host (TIM_TBn_NS_HI 4), 1)] } } with
    | .next t => Tab.find t.dev.rdata (Master.key .host)
    | _ => none) = some 1 := by decide +kernel

/-- 03_caddies_and_dispatch.md: cycles 2 to 4 of the word queue example. -/
def tWq : State := tDev fun d => setWords (((d.setBit (DSP_WQ_CFGn_enable 17) true).setFld (DSP_WQ_CFGn_producer 17) 0x80).setFld
  (DSP_WQ_CFGn_consumer 17) 0x80) 17 [0x0000000100000A01]
theorem test_word_queue_push : (match exec (.wqPush .host 17 0x0000000100000A02) tWq with
    | .next t => wqWords t.dev 17 | _ => []) = [0x0000000100000A01, 0x0000000100000A02] := by decide +kernel
theorem test_word_queue_zero_push : (match exec (.wqPush .host 17 0) tWq with
    | .next t => (wqWords t.dev 17, t.dev.fld (DSP_WQ_ERRn_zero_push 17)) | _ => ([], 0)) = ([0x0000000100000A01], 1) := by decide +kernel

/-- 04_yarlink.md: d_down of HP17, in 0.1 ns. -/
theorem test_down_delay : averageDown (tDev fun d => d.setFld (YL_ASYM_asym 17) 20).dev 17 (List.replicate 64 (29304, 15000)) = 7162 := by decide +kernel

/-- 04_yarlink.md: receive and transmit sample 30,000 of HP17, in 0.1 ns. -/
theorem test_sample_instants : (rxInstant 8120007162 3 2150 30000, txInstant 8120007162 3 3400 30000, txSampleAt 8120007162 3 3400 8123030562) =
    (8123005012, 8123030562, 30000) := by decide +kernel

/-- 05_head_control.md: compensation, predictions and code of HP09. -/
def tPaDesc : List Byte := zeros 0x50 ++ le 2 120 ++ zeros 3 ++ [2] ++ zeros 0x42 ++ le 4 (120 * 65536) ++ le 4 (0x10 + 100 * 65536) ++
  le 4 (0x20 + 80 * 65536) ++ le 4 (0x30 + 60 * 65536) ++ le 4 (0x40 + 40 * 65536) ++ List.replicate 44 0xFF ++ le 2 65516 ++ le 2 5 ++ le 2 250 ++
  le 2 28000 ++ [1, 3] ++ zeros 30
def tPa9 : Dev := (tDev fun d => (d.setPort 9 { d.port 9 with desc := tPaDesc }).setHead 9 { d.head 9 with sensors := [(0, ⟨650, 0⟩), (1, ⟨27400, 0⟩)] }).dev
theorem test_predictions : predicted tPa9 9 = [(0, 116), (0x10, 96), (0x20, 76), (0x30, 56), (0x40, 36)] := by decide +kernel
theorem test_code : chooseCode tPa9 9 80 = some 0x10 := by decide +kernel

/-- 06_receive.md: power, RSSI terms and EVM of the copy on HP05. -/
theorem test_channel_power : quarterDb 148000000000 (10 ^ 18) = -273 := by decide +kernel
theorem test_evm : evmOf 125 10000 = -190 := by decide +kernel

/-- 07_transmit.md: three bursts at −34.00, −39.50 and −51.00 dBFS: A is 0.0572 of full scale; 0.0700 is a peak, 0.0500 is none. -/
def tThree : Nat := ampOf (-136) ^ 2 + ampOf (-158) ^ 2 + ampOf (-204) ^ 2
theorem test_crest : ((ampA tThree * 10000 + 2 ^ 23) / 2 ^ 24, aboveA ⟨(2 ^ 24 * 7 / 100, 0), tThree⟩, aboveA ⟨(2 ^ 24 * 5 / 100, 0), tThree⟩) = (572, true, false) := by
  decide +kernel

/-- 08_tsch.md: the channel of the cell in slot ASN 1,000,037. -/
theorem test_hop : (⟨0, 36 * 2 ^ 38 + 7 * 2 ^ 30,
    { tFrame with hopLen := 16, hop := [5, 40, 17, 88, 63, 2, 121, 30, 77, 10, 99, 54, 26, 112, 45, 71] }⟩ : Due).chan 1000037 = 26 := by decide +kernel

/-- 09_tables.md: where NIX 0x2_F004 lies in the Node Table and in the Policer Table. -/
theorem test_entry_addresses : (entryAddr tBase.dev 0 0x2F004, entryAddr tBase.dev 5 0x2F004) = (11 * 2 ^ 20 + 0xC0100, 54 * 2 ^ 20 + 0xF0040) := by decide +kernel
/-- 09_tables.md: bucket 59,991 of the Address Table lies in bank 23. -/
theorem test_bucket_address : (0x9C3A17E5 * bucketCount tBase.dev 1 / 2 ^ 32, entryAddr tBase.dev 1 (bucketEntry tBase.dev 1 0 59991)) =
    (59991, 23 * 2 ^ 20 + 0x52B80) := by decide +kernel

/-- 10_forwarding.md: a single-rate policer credited for 250 ms colours 600 octets green. -/
theorem test_policer : (credit (2000, 1500, 0, 3000) false 51200 768000 250000, meter false false clGREEN 179200 768000 600) =
    ((179200, 768000), (clGREEN, 25600, 768000)) := by decide +kernel

/-- 11_time.md: the rate word of −0.35 ppm. -/
theorem test_rate_word : (match exec (.rateWrite 0xFFFA20C3) (tTime 4 fun b => { b with counter := some 4, servoEn := false }) with
    | .next t => (t.dev.tb 4).rate | _ => 0) = -384829 := by decide +kernel
/-- 11_time.md: the ASN of a TB0 instant with slots of 10 ms. -/
theorem test_asn : asnOf (tPan fun d => { d with bld := { d.bld with cfg := d.bld.cfg ++
    [{ type := 4, inst := 1, body := [0, 0] ++ le 2 10000 ++ zeros 28, src := none }] } }).dev 1 1735000000123456789 = 173500000012 := by decide +kernel

/-- 12_keys_and_frame_security.md: the nonce of the node's frame, in both modes. -/
theorem test_nonce : nonce tBase.dev 2 [0x00, 0x1B, 0xC5, 0x0A, 0x3F, 0x22, 0x91, 0x07] 0x1A2B 5 0 =
    [0x00, 0x1B, 0xC5, 0x0A, 0x3F, 0x22, 0x91, 0x07, 0x00, 0x00, 0x1A, 0x2B, 0x05] := by decide +kernel

/-- 13_node_campaigns.md: the coefficients of ESI 3 and byte 0 of its block. -/
theorem test_coefficients : coefs 0x12345678 3 3 = [0x70, 0x3B, 0xD6] := by decide +kernel
theorem test_coded_byte : (codedBlock [0x70, 0x3B, 0xD6] [[1], [2], [2]]).head? = some 0xB7 := by decide +kernel

/-- R451 (16_telemetry.md): an acknowledgement of 3 of 4 leaves 1. -/
def tAlarm : State := tDev fun d => { d with tel := { d.tel with alarms := [(300, ⟨48, 17, false, 4, 0, 1, 2, false, false, none, none⟩)] } }
theorem test_alarm_ack : (match exec (.telAlmAck 300 3) tAlarm with
    | .next t => (Tab.find t.dev.tel.alarms 300).map (·.count) | _ => none) = some 1 := by decide +kernel

/-- R476 (17_host_interface.md): entry 4,094 is fetched from 0x12_3403_FF80; the completion at 4,095 wraps the queue and inverts the phase. -/
def tHcq (g : Dev → Dev) : State := tDev fun d => g ((((((d.setFld HIF_HCQ_CFG_size_log2 12).setFld HIF_HCQ_STATUS_state hqENABLED).setFld
  HIF_HCQ_HEAD_index 4094).setFld HIF_HCQ_TAIL_index 1).setReg64 HIF_HCQ_BASE_LO 0x1234000000).setReg HIF_CQ_TAIL (2 ^ 16 + 4095))
theorem test_hcq_fetch : (match exec (.hcqFetch (zeros 64)) (tHcq fun d => d.setFld HIF_CQ_HEAD_index 4000) with
    | .next t => (t.dev.outs, t.dev.fld HIF_HCQ_HEAD_index) | _ => ([], 0)) = ([.hostRead 0x123403FF80 64], 4095) := by decide +kernel
theorem test_completion_wraps : (match exec (.commandComplete 4) (tHcq fun d => { d with hif := { d.hif with
      running := [⟨⟨[2, 0, 0, 0, 9] ++ zeros 59, 4094, none⟩, 4, some 0, []⟩] } }) with
    | .next t => (t.dev.fld HIF_CQ_TAIL_index, t.dev.bit HIF_CQ_TAIL_phase) | _ => (1, true)) = (0, false) := by decide +kernel

/-! ### The step -/

theorem test_step_front : (match step { tBase with pending := [.ringConsWrite 0, .stormEnd] } with
    | .next t => t.pending | _ => []) = [.stormEnd] := by decide +kernel
theorem test_reset_inv : Fuses.fits State.reset.fuses ∧ Memory.wf 0 State.reset.dev.tbl.mem = true := by decide +kernel
theorem test_no_word_is_a_command : decodeTableWord 32 7 = none := by decide +kernel

/-! ### States and operands that meet the hypotheses of the statements -/

theorem witness_StepRunsFrontCommand : ∃ (c : Instr) (rest : List Instr) (s : State), s.pending = c :: rest :=
  ⟨.stormEnd, [.hostReset], { tBase with pending := [.stormEnd, .hostReset] }, rfl⟩

/-- A head left biased with no burst. -/
def tBiased : State := tHead 2 fun h => { h with onCmd := true }
theorem witness_EmptyQueueStepIsOneCycle :
    (∃ s : State, s.pending = [] ∧ s.dev.inReset = true) ∧
    (∃ (s : State) (n : Nat) (b : TimeBase), s.pending = [] ∧ s.dev.inReset = false ∧ (∀ e ∈ s.dev.hc.heads, e.2.onCmd = false) ∧
      s.dev.tim.bases[n]? = some b ∧ b.counter = none) ∧
    (∃ (s : State) (n : Nat) (b : TimeBase), s.pending = [] ∧ s.dev.inReset = false ∧ (∀ e ∈ s.dev.hc.heads, e.2.onCmd = false) ∧
      s.dev.tim.bases[n]? = some b ∧ b.counter ≠ none) ∧
    (∃ (p : Nat) (s : State), s.pending = [] ∧ s.dev.inReset = false ∧ (s.dev.hc.heads.filter fun e => e.2.onCmd) = [(p, s.dev.head p)] ∧
      s.dev.tx.bursts = [] ∧ looped s.dev p = false ∧ within (s.dev.portState p) ylCALIBRATE ylDRAINING = true ∧ (s.dev.port p).reqs = []) :=
  ⟨⟨tDev fun d => { d with inReset := true }, by decide +kernel⟩,
    ⟨tTime 2 fun b => { b with counter := none }, 2, (tTime 2 fun b => { b with counter := none }).dev.tb 2, by decide +kernel⟩,
    ⟨tTime 2 fun b => { b with counter := some 3 }, 2, (tTime 2 fun b => { b with counter := some 3 }).dev.tb 2, by decide +kernel⟩,
    ⟨2, tBiased, by decide +kernel⟩⟩

theorem witness_ResetState : (∃ a, findReg a = none) ∧ ∃ m : Nat, m < 8 := ⟨⟨2, by decide +kernel⟩, ⟨7, by decide⟩⟩

/-- A step that burns: a pending burn of the life cycle completes when POR_N is released. -/
def tBurning : State := { tDev (fun d => { d with inReset := true }) with fuses := { tBase.fuses with pend := [.lifecycle 3] }, pending := [.porRelease true true] }
theorem witness_FusesFitEveryStep : ∃ s t : State, Fuses.fits s.fuses ∧ step s = .next t ∧ s.fuses.lc = 2 ∧ t.fuses.lc = 3 :=
  ⟨tBurning, _, by decide +kernel, rfl, by decide +kernel, by decide +kernel⟩
theorem witness_FusesAreOneWay : ∃ s t : State, Fuses.fits s.fuses ∧ step s = .next t ∧ s.fuses.lc ≠ 0 := ⟨tBurning, _, by decide +kernel, rfl, by decide +kernel⟩

theorem witness_CoreInReset : ∃ (c : Instr) (s : State), s.dev.inReset = true ∧ (match c with
      | .porRelease _ _ | .porAssert | .supplyTrip _ _ | .vbatApply | .kettlePowerLoss | .whistleReceived _ | .pwrTimeout | .rtcSecond
      | .rtcAlarm | .tamperEvent _ _ => False
      | _ => True) := ⟨.updConfirm (.cmd 1) none, tDev fun d => { d with inReset := true }, rfl, trivial⟩

theorem witness_RegisterFieldsApart : ∃ k : Nat, k < 16 ∧ ∃ r ∈ regsOfWindow k, 2 ≤ r.fields.length := ⟨2, by decide, by decide +kernel⟩

/-- A register with a field of each access type and bits without a field. -/
def tRegDesc : RegDesc := ⟨0, [], 0, [⟨31, 28, .rw, [(3, 15)]⟩, ⟨7, 4, .w1c, []⟩, ⟨3, 2, .ro, []⟩, ⟨1, 1, .w1s, []⟩, ⟨0, 0, .wo, []⟩]⟩
theorem witness_FieldwiseWrite :
    (∀ x ∈ tRegDesc.fields, x.lo ≤ x.hi ∧ x.hi < 32) ∧ (tRegDesc.fields.Pairwise fun x y => x.hi < y.lo ∨ y.hi < x.lo) ∧
    (∃ w : Word, ∃ x ∈ tRegDesc.fields, x.acc = .rw ∧ ∀ p ∈ x.reserved, ¬ (p.1 ≤ getBits w x.hi x.lo ∧ getBits w x.hi x.lo ≤ p.2)) ∧
    (∃ w : Word, ∃ x ∈ tRegDesc.fields, x.acc = .rw ∧ ∃ p ∈ x.reserved, p.1 ≤ getBits w x.hi x.lo ∧ getBits w x.hi x.lo ≤ p.2) ∧
    (∃ x ∈ tRegDesc.fields, x.acc = .w1c ∧ x.lo ≤ 4 ∧ 4 ≤ x.hi) ∧ (∃ x ∈ tRegDesc.fields, x.acc ≠ .rw ∧ x.acc ≠ .w1c) ∧
    (∃ k, k < 32 ∧ ∀ x ∈ tRegDesc.fields, ¬ (x.lo ≤ k ∧ k ≤ x.hi)) :=
  ⟨by decide, by decide, ⟨0x20000000, by decide⟩, ⟨0x30000000, by decide⟩, by decide, by decide, ⟨27, by decide, by decide⟩⟩

theorem witness_NarrowAndUnassignedAccesses :
    (∃ (m : Master) (a len : Nat) (s : State), (∀ e, m ≠ .engine e) ∧ len < 4 ∧ (touched a len).any (regStopped s.dev) = false) ∧
    (∃ (m : Master) (a : Nat) (s : State), (∀ e, m ≠ .engine e) ∧ (m = .debug → debugOpen s.fuses.lc = true) ∧ a % 4 = 0 ∧ findReg a = none ∧
      inCreq a = false) ∧
    (∃ (m : Master) (a len : Nat) (s : State), s.dev.inReset = false ∧ (∀ e, m ≠ .engine e) ∧ (m = .debug → debugOpen s.fuses.lc = true) ∧
      s.dev.isolated.contains 200 = false ∧ a % 4 + len ≤ 4 ∧ findReg (wordAt a) = none ∧ inCreq (wordAt a) = false ∧ itemHeld s.dev (wordAt a) = false) ∧
    (∃ (m : Master) (a k len : Nat) (s : State), s.dev.inReset = false ∧ (m = .host ∨ m = .hcq ∨ m = .mgmt ∨ ∃ b, m = .cc b) ∧
      a ∈ [TIM_TB_SEL, RX_SEL, FWD_QSEL, HC_SEL, TBL_SWEEP_CFG, TEL_STORM_CFG] ∧ k + len ≤ 4 ∧ itemHeld s.dev a = false ∧
      s.dev.isolated.contains 200 = false) :=
  ⟨⟨.host, TIM_TB_SEL, 2, tBase, (by intro e h; cases h), by decide +kernel⟩,
    ⟨.cc false, 0xFFFFFC, tBase, (by intro e h; cases h), (by intro h; cases h), by decide +kernel⟩,
    ⟨.mgmt, 0xFFFFFD, 3, tBase, rfl, (by intro e h; cases h), (by intro h; cases h), by decide +kernel⟩,
    ⟨.hcq, RX_SEL, 3, 1, tBase, rfl, .inr (.inl rfl), by decide +kernel⟩⟩

theorem witness_PlainRegisterWrite : ∃ (m : Master) (a : Nat) (s : State), s.dev.inReset = false ∧ (m = .host ∨ m = .hcq ∨ m = .mgmt ∨ ∃ b, m = .cc b) ∧
    a ∈ [TIM_TB_SEL, RX_SEL, FWD_QSEL, HC_SEL, TBL_SWEEP_CFG, TEL_STORM_CFG] ∧ s.dev.isolated.contains 200 = false :=
  ⟨.cc true, RX_SEL, tBase, rfl, .inr (.inr (.inr ⟨true, rfl⟩)), by decide⟩

theorem witness_RegisterPairs :
    (∃ (m : Master) (lo : Nat) (s : State), s.dev.inReset = false ∧ (m = .host ∨ m = .hcq ∨ m = .mgmt ∨ ∃ b, m = .cc b) ∧
      lo ∈ [BLD_SRC_ADDR_LO, CMP_SRC_LO, TEL_RING_BASE_LO] ∧ s.dev.isolated.contains 200 = false) ∧
    (∃ (m : Master) (n : Nat) (s : State), s.dev.inReset = false ∧ n < 8 ∧ (m = .host ∨ m = .hcq ∨ m = .mgmt ∨ ∃ b, m = .cc b) ∧
      itemHeld s.dev (TIM_TBn_NS_LO n) = false ∧ itemHeld s.dev (TIM_TBn_NS_HI n) = false ∧ s.dev.isolated.contains 200 = false) :=
  ⟨⟨.mgmt, CMP_SRC_LO, tBase, rfl, .inr (.inr (.inl rfl)), by decide⟩, ⟨.host, 7, tBase, rfl, by decide, .inl rfl, by decide +kernel⟩⟩

def tExport : State := tDev fun d => (((d.setFld TEL_PATH_CFG_cnt_period_s 9).setFld TEL_PATH_CFG_ring_kinds 15).setBit TEL_RING_CFG_en true).setReg
  (TEL_CNT_LISTm 0) (BitVec.ofNat 32 (2 ^ 31 + TEL_CNT_LOCAL))
theorem tExport_listed : ∀ m : Fin 64, 0 < m.val → (tExport.dev.reg (TEL_CNT_LISTm m.val)).getLsbD 31 = false := by decide +kernel
theorem witness_RegisterCommands :
    (∃ (j : Nat) (s : State), s.dev.inReset = false ∧ (s.dev.hif.mqRunning.any fun x => x.jseq == j) = false) ∧
    (∃ (a : Nat) (s : State), s.dev.inReset = false ∧ s.dev.fld TEL_PATH_CFG_cnt_period_s ≠ 0 ∧ a < 2 ^ 24 ∧
      s.dev.reg (TEL_CNT_LISTm 0) = BitVec.ofNat 32 (2 ^ 31 + a) ∧ (∀ m, 0 < m → m < 64 → (s.dev.reg (TEL_CNT_LISTm m)).getLsbD 31 = false) ∧
      pathTakes s.dev 0 3 = true ∧ pathTakes s.dev 1 3 = false ∧ s.dev.tel.ring.staged = [] ∧ 0 < pathCap s.dev) :=
  ⟨⟨4, tDev fun d => { d with hif := { d.hif with running := [⟨⟨[2], 3, none⟩, 4, none, []⟩] } }, by decide +kernel⟩,
    ⟨TEL_CNT_LOCAL, tExport, rfl, by decide +kernel, by decide, by decide +kernel, fun m h1 h2 => tExport_listed ⟨m, h2⟩ h1, by decide +kernel⟩⟩

/-- States and operands that meet the hypotheses of every clause of PorAssertResetsTheCore. -/
theorem witness_PorAssertResetsTheCore :
    (∃ (s : State), s.dev.inReset = false) ∧
    (∃ (live : Nat) (s : State), s.dev.inReset = false) :=
  ⟨⟨(tBase), by decide +kernel⟩,
    ⟨(32), (tBase), by decide +kernel⟩⟩

/-- A state and operands that meet the hypotheses of PorReleaseStartsTheDevice. -/
theorem witness_PorReleaseStartsTheDevice :
    (∃ (ccA trng : Bool) (s : State), (s.dev.inReset = true ∨ s.dev.boot.started = false)) :=
  ⟨(true), (true), (State.reset), by decide +kernel⟩

/-- States and operands that meet the hypotheses of every clause of TamperEvents. -/
theorem witness_TamperEvents :
    (∃ (live : Nat) (s : State), s.dev.inReset = false ∧ 2 ≤ s.dev.stage ∧ s.dev.res.gate.mismatch = none ∧ tamperEnabled s.fuses 6 = true ∧ nbit s.fuses.tamper 6 = false) ∧
    (∃ (live : Nat) (s : State), s.dev.inReset = false ∧ 2 ≤ s.dev.stage ∧ s.dev.res.gate.mismatch = none ∧ tamperEnabled s.fuses 7 = true ∧ nbit s.fuses.tamper 7 = false) ∧
    (∃ (source live : Nat) (s : State), s.dev.inReset = false ∧ 2 ≤ s.dev.stage ∧ s.dev.res.gate.mismatch = none ∧ tamperEnabled s.fuses source = true ∧ nbit s.fuses.tamper source = false) ∧
    (∃ (source live : Nat) (s : State), s.dev.inReset = false ∧ 2 ≤ s.dev.stage ∧ s.dev.res.gate.mismatch = none ∧ tamperEnabled s.fuses source = true ∧ nbit s.fuses.tamper source = true) ∧
    (∃ (source live : Nat) (x : Mismatch) (s : State), s.dev.inReset = false ∧ s.dev.res.gate.mismatch = some x ∧ tamperEnabled s.fuses source = true) :=
  ⟨⟨(64), ({ tBase with fuses := { tBase.fuses with tamper := 0xFF00 } }), by decide +kernel⟩,
    ⟨(128), ({ tBase with fuses := { tBase.fuses with tamper := 0xFF00 } }), by decide +kernel⟩,
    ⟨(3), (8), ({ tBase with fuses := { tBase.fuses with tamper := 0xFF00 } }), by decide +kernel⟩,
    ⟨(3), (8), ({ tBase with fuses := { tBase.fuses with tamper := 0xFF08 } }), by decide +kernel⟩,
    ⟨(3), (8), (⟨1, 1⟩), ({ tBase with fuses := { tBase.fuses with tamper := 0xFF08 }, dev := tBase.dev.setGate { tBase.dev.res.gate with mismatch := some ⟨1, 1⟩ } }), by decide +kernel⟩⟩

/-- States and operands that meet the hypotheses of every clause of BlendLoading. -/
theorem witness_BlendLoading :
    (∃ (s : State), s.dev.inReset = false ∧ within (bldState s.dev) bsRECEIVING bsAPPLYING = false ∧ s.dev.fld BLD_CTRL_source = 0 ∧ within (s.dev.fld BLD_LENGTH_length) 4096 16777216 = true ∧ s.dev.fld BLD_LENGTH_length % 4 = 0) ∧
    (∃ (w : Word) (l : Load) (s : State), s.dev.inReset = false ∧ bldState s.dev = bsRECEIVING ∧ s.dev.bld.load = some l ∧ l.source = .port ∧ l.bytes.length + 4 ≤ l.length) ∧
    (∃ (bytes : List Byte) (a : Nat) (l : Load) (s : State), s.dev.inReset = false ∧ bldState s.dev = bsRECEIVING ∧ s.dev.bld.load = some l ∧ l.source = .host a ∧ l.bytes.length + bytes.length ≤ l.length) ∧
    (∃ (l : Load) (s : State), s.dev.inReset = false ∧ bldState s.dev = bsRECEIVING ∧ s.dev.bld.load = some l ∧ l.source = .port ∧ l.cmd = none) ∧
    (∃ (a : Nat) (l : Load) (s : State), s.dev.inReset = false ∧ bldState s.dev = bsRECEIVING ∧ s.dev.bld.load = some l ∧ l.source = .host a ∧ l.cmd = none) ∧
    (∃ (a : Nat) (l : Load) (s : State), s.dev.inReset = false ∧ bldState s.dev = bsRECEIVING ∧ s.dev.bld.load = some l ∧ l.source = .flash a ∧ l.cmd = none) ∧
    (∃ (l : Load) (s : State), s.dev.inReset = false ∧ (bldState s.dev = bsRECEIVING ∨ bldState s.dev = bsVALIDATING) ∧ s.dev.bld.load = some l ∧ l.cmd = none ∧ l.source = .port) :=
  ⟨⟨(tDev fun d => d.setFld BLD_LENGTH_length 4096), by decide +kernel⟩,
    ⟨(0x04030201), (⟨.port, 4, [], none⟩), (tDev fun d => ({ d with bld := { d.bld with load := some ⟨.port, 4, [], none⟩ } }).setFld BLD_STATUS_state bsRECEIVING), by decide +kernel⟩,
    ⟨([1, 2]), (64), (⟨.host 64, 4096, [7], none⟩), (tDev fun d => ({ d with bld := { d.bld with load := some ⟨.host 64, 4096, [7], none⟩ } }).setFld BLD_STATUS_state bsRECEIVING), by decide +kernel⟩,
    ⟨(⟨.port, 4096, [7], none⟩), (tDev fun d => ({ d with bld := { d.bld with load := some ⟨.port, 4096, [7], none⟩ } }).setFld BLD_STATUS_state bsRECEIVING), by decide +kernel⟩,
    ⟨(64), (⟨.host 64, 4096, [7], none⟩), (tDev fun d => ({ d with bld := { d.bld with load := some ⟨.host 64, 4096, [7], none⟩ } }).setFld BLD_STATUS_state bsRECEIVING), by decide +kernel⟩,
    ⟨(64), (⟨.flash 64, 4096, [7], none⟩), (tDev fun d => ({ d with bld := { d.bld with load := some ⟨.flash 64, 4096, [7], none⟩ } }).setFld BLD_STATUS_state bsRECEIVING), by decide +kernel⟩,
    ⟨(⟨.port, 4096, [7], none⟩), (tDev fun d => ({ d with bld := { d.bld with load := some ⟨.port, 4096, [7], none⟩ } }).setFld BLD_STATUS_state bsVALIDATING), by decide +kernel⟩⟩

/-- States and operands that meet the hypotheses of every clause of BlendValidationAndSteep. -/
theorem witness_BlendValidationAndSteep :
    (∃ (l : Load) (s : State), s.dev.inReset = false ∧ bldState s.dev = bsVALIDATING ∧ s.dev.bld.load = some l ∧ l.source = .port ∧ l.cmd = none ∧ 2 ≤ s.dev.stage ∧ s.dev.fld BOOT_STATUS_halt ≠ 3 ∧ blKind l.bytes ≠ 2) ∧
    (∃ (p : Nat) (x : PendingDelta) (s : State), s.dev.inReset = false ∧ s.dev.bld.pending = some x ∧ nbit x.affected p = true ∧ nbit x.switched p = false ∧ x.switched + 2 ^ p ≠ x.affected) ∧
    (∃ (bs : List Byte) (s : State), s.dev.inReset = false ∧ s.dev.bld.accepted = some bs ∧ s.dev.stage = 1 ∧ s.dev.vault.hold = false ∧ s.dev.fld BOOT_STATUS_halt = 0) ∧
    (∃ (bad : List Nat) (s : State), s.dev.inReset = false ∧ s.dev.stage = 2 ∧ s.dev.boot.scanned = false) ∧
    (∃ (s : State), s.dev.inReset = false ∧ s.dev.boot.restoreWait = true) :=
  ⟨⟨(⟨.port, 4096, zeros 64, none⟩), (tDev fun d => ({ d with bld := { d.bld with load := some ⟨.port, 4096, zeros 64, none⟩ } }).setFld BLD_STATUS_state bsVALIDATING), by decide +kernel⟩,
    ⟨(0), (⟨1, [], [], 3, 0, 0, []⟩), (tDev fun d => { d with bld := { d.bld with pending := some ⟨1, [], [], 3, 0, 0, []⟩ } }), by decide +kernel⟩,
    ⟨([]), (tDev fun d => { d with stage := 1, bld := { d.bld with accepted := some [] } }), by decide +kernel⟩,
    ⟨([6]), (tDev fun d => { d with stage := 2, boot := { d.boot with brewReady := true } }), by decide +kernel⟩,
    ⟨(tDev fun d => { d with boot := { d.boot with restoreWait := true } }), by decide +kernel⟩⟩

/-- States and operands that meet the hypotheses of every clause of WordQueueStoresInOrder. -/
theorem witness_WordQueueStoresInOrder :
    (∃ (m : Master) (q : Nat) (w : Word64) (s : State), s.dev.inReset = false ∧ s.dev.fld (DSP_WQ_CFGn_enable q) = 1 ∧ s.dev.fld (DSP_WQ_CFGn_producer q) = endpointOf s.dev m ∧ w ≠ 0 ∧ (wqWords s.dev q).length < 32) ∧
    (∃ (m : Master) (q : Nat) (w : Word64) (s : State), s.dev.inReset = false ∧ s.dev.fld (DSP_WQ_CFGn_enable q) = 1 ∧ s.dev.fld (DSP_WQ_CFGn_producer q) = endpointOf s.dev m ∧ w ≠ 0 ∧ 32 ≤ (wqWords s.dev q).length) ∧
    (∃ (m : Master) (q : Nat) (w : Word64) (ws : List Word64) (s : State), s.dev.inReset = false ∧ s.dev.fld (DSP_WQ_CFGn_enable q) = 1 ∧ s.dev.fld (DSP_WQ_CFGn_consumer q) = endpointOf s.dev m ∧ wqWords s.dev q = w :: ws) ∧
    (∃ (q : Nat) (s : State), s.dev.inReset = false) ∧
    (∃ (q : Nat) (w : Word) (s : State), s.dev.inReset = false ∧ s.dev.fld (DSP_WQ_CFGn_enable q) = 0 ∧ endpointOk (getBits w 15 8) = true ∧ endpointOk (getBits w 7 0) = true) ∧
    (∃ (q : Nat) (w : Word) (s : State), s.dev.inReset = false ∧ s.dev.fld (DSP_WQ_CFGn_enable q) = 1 ∧ w.getLsbD 16 = false) :=
  ⟨⟨(.host), (3), (77), (tDev fun d => ((d.setBit (DSP_WQ_CFGn_enable 3) true).setFld (DSP_WQ_CFGn_producer 3) 0x80)), by decide +kernel⟩,
    ⟨(.host), (3), (77), (tDev fun d => setWords ((d.setBit (DSP_WQ_CFGn_enable 3) true).setFld (DSP_WQ_CFGn_producer 3) 0x80) 3 (List.replicate 32 5)), by decide +kernel⟩,
    ⟨(.host), (3), (5), ([6]), (tDev fun d => setWords ((d.setBit (DSP_WQ_CFGn_enable 3) true).setFld (DSP_WQ_CFGn_consumer 3) 0x80) 3 [5, 6]), by decide +kernel⟩,
    ⟨(3), (tDev fun d => d.setReg (DSP_WQ_ERRn 3) 7), by decide +kernel⟩,
    ⟨(3), (0x18040), (tBase), by decide +kernel⟩,
    ⟨(3), (0x40), (tDev fun d => setWords ((d.setBit (DSP_WQ_CFGn_enable 3) true).setFld (DSP_WQ_CFGn_consumer 3) 0x80) 3 [5, 6]), by decide +kernel⟩⟩

/-- States and operands that meet the hypotheses of every clause of IdleWord. -/
theorem witness_IdleWord :
    (∃ (m : Master) (q : Nat) (s : State), s.dev.inReset = false ∧ s.dev.fld (DSP_WQ_CFGn_enable q) = 1 ∧ s.dev.fld (DSP_WQ_CFGn_consumer q) = endpointOf s.dev m ∧ wqWords s.dev q = []) ∧
    (∃ (m : Master) (q : Nat) (s : State), s.dev.inReset = false ∧ s.dev.fld (DSP_WQ_CFGn_enable q) = 1 ∧ s.dev.fld (DSP_WQ_CFGn_producer q) = endpointOf s.dev m) ∧
    (∃ (m : Master) (q : Nat) (w : Word64) (s : State), s.dev.inReset = false ∧ s.dev.fld (DSP_WQ_CFGn_producer q) ≠ endpointOf s.dev m) :=
  ⟨⟨(.host), (3), (tDev fun d => ((d.setBit (DSP_WQ_CFGn_enable 3) true).setFld (DSP_WQ_CFGn_consumer 3) 0x80)), by decide +kernel⟩,
    ⟨(.host), (3), (tDev fun d => ((d.setBit (DSP_WQ_CFGn_enable 3) true).setFld (DSP_WQ_CFGn_producer 3) 0x80)), by decide +kernel⟩,
    ⟨(.host), (3), (0), (tBase), by decide +kernel⟩⟩

/-- States and operands that meet the hypotheses of every clause of TaskSubmission. -/
theorem witness_TaskSubmission :
    (∃ (desc : List Byte) (s : State), s.dev.inReset = false ∧ submitCheck s.dev (descOf (fit 32 desc)) 0xE000 0xFFFE 3 = sbOK ∧ (descOf (fit 32 desc)).dep ≠ 0) ∧
    (∃ (desc : List Byte) (s : State), s.dev.inReset = false ∧ submitCheck s.dev (descOf (fit 32 desc)) 0xA000 0xDFFF 2 = sbOK ∧ (descOf (fit 32 desc)).dep ≠ 0 ∧ s.dev.fwd.recovQ = []) ∧
    (∃ (e n i : Nat) (p : Task) (desc : List Byte) (s : State), s.dev.inReset = false ∧ (s.dev.engine e).tasks = [i] ∧ s.dev.task i = some p ∧ (s.dev.caddy (e / 16)).logical = some n ∧ submitCheck s.dev (descOf (fit 32 desc)) (0x8000 + 256 * n) (0x80FF + 256 * n) p.d.source = sbOK ∧ (descOf (fit 32 desc)).dep ≠ 0) :=
  ⟨⟨([0, 0xE0, 0xFF, 0xFF, 0xFF, 0xFF, 1, 9, 0xFF, 0xFF, 0x6F, 2]), (tDev fun d => { d with dsp := { d.dsp with accepting := true } }), by decide +kernel⟩,
    ⟨([0, 0xA0, 0xFF, 0xFF, 0xFF, 0xFF, 1, 9, 0xFF, 0xFF, 0x4F, 2]), (tDev fun d => { d with dsp := { d.dsp with accepting := true } }), by decide +kernel⟩,
    ⟨(8), (0), (0xE000), (tTask 0xE000 (.service 8)), ([0, 0x80, 0xFF, 0xFF, 0xFF, 0xFF, 1, 9, 0xFF, 0xFF, 0x6F, 2]), (tDev fun d => ((({ d with dsp := { d.dsp with accepting := true } }).setEngine 8 { d.engine 8 with tasks := [0xE000] }).setTask 0xE000 (tTask 0xE000 (.service 8))).setCaddy 0 { d.caddy 0 with logical := some 0 }), by decide +kernel⟩⟩

/-- States and operands that meet the hypotheses of every clause of TaskService. -/
theorem witness_TaskService :
    (∃ (i e : Nat) (p : Task) (s : State), s.dev.inReset = false ∧ s.dev.task i = some p ∧ p.phase = .ready (e / 16) ∧ p.ticket = none ∧ 2 ≤ p.d.kind ∧ 8 ≤ e % 16 ∧ (s.dev.caddy (e / 16)).state = cdRUNNING ∧ (s.dev.engine e).tasks = [] ∧ (s.dev.engine e).disabled = false ∧ (s.dev.engine e).draining = false) ∧
    (∃ (i e r : Nat) (p : Task) (s : State), s.dev.inReset = false ∧ Alone s.dev i e p ∧ p.d.kind = 4 ∧ 8 ≤ e % 16) ∧
    (∃ (i e r : Nat) (p : Task) (s : State), s.dev.inReset = false ∧ Alone s.dev i e p ∧ p.d.kind = 4 ∧ 8 ≤ e % 16) ∧
    (∃ (i e : Nat) (p : Task) (s : State), s.dev.inReset = false ∧ Alone s.dev i e p ∧ p.d.kind = 4 ∧ 8 ≤ e % 16) ∧
    (∃ (i e : Nat) (p : Task) (s : State), s.dev.inReset = false ∧ Alone s.dev i e p ∧ p.d.kind = 4 ∧ 8 ≤ e % 16) ∧
    (∃ (i e : Nat) (p : Task) (s : State), s.dev.inReset = false ∧ Alone s.dev i e p ∧ p.d.kind = 4 ∧ 8 ≤ e % 16 ∧ (s.dev.caddy (e / 16)).state = cdDRAINING) ∧
    (∃ (i : Nat) (p : Task) (s : State), s.dev.inReset = false ∧ s.dev.task i = some p ∧ p.d.id = i ∧ p.phase = .waiting ∧ 0 < p.dep ∧ p.ticket = none ∧ 2 ≤ p.d.kind ∧ p.d.succ0 = noTask ∧ p.d.succ1 = noTask ∧ p.d.notify = false) :=
  ⟨⟨(0xE000), (8), (tTask 0xE000 (.ready 0)), (tDev fun d => (d.setTask 0xE000 (tTask 0xE000 (.ready 0))).setCaddy 0 { d.caddy 0 with state := cdRUNNING, logical := some 0, ready := [0xE000] }), by decide +kernel⟩,
    ⟨(0xE000), (8), (0), (tTask 0xE000 (.service 8)), (tServe), by decide +kernel⟩,
    ⟨(0xE000), (8), (0), (tTask 0xE000 (.service 8)), (tServe), by decide +kernel⟩,
    ⟨(0xE000), (8), (tTask 0xE000 (.service 8)), (tServe), by decide +kernel⟩,
    ⟨(0xE000), (8), (tTask 0xE000 (.service 8)), (tServe), by decide +kernel⟩,
    ⟨(0xE000), (8), (tTask 0xE000 (.service 8)), (tServeD), by decide +kernel⟩,
    ⟨(0xE000), ({ tTask 0xE000 .waiting with dep := 1 }), (tDev fun d => d.setTask 0xE000 { tTask 0xE000 .waiting with dep := 1 }), by decide +kernel⟩⟩

/-- States and operands that meet the hypotheses of every clause of DecrementOutsideRange. -/
theorem witness_DecrementOutsideRange :
    (∃ (d : Dev) (a : Bool) (i : Nat), i ≠ noTask ∧ d.task i = none) ∧
    (∃ (d : Dev) (a : Bool) (i : Nat) (p : Task), i ≠ noTask ∧ d.task i = some p ∧ p.dep = 0) :=
  ⟨⟨(Dev.blank), (true), (5), by decide +kernel⟩,
    ⟨(tServe.dev), (true), (0xE000), (tTask 0xE000 (.service 8)), by decide +kernel⟩⟩

/-- States and operands that meet the hypotheses of every clause of CaddiesAndLists. -/
theorem witness_CaddiesAndLists :
    (∃ (c : Nat) (s : State), s.dev.inReset = false ∧ stopChoice s.dev = some c ∧ s.dev.fld DSP_CTRL_trace_en = 0) ∧
    (∃ (c : Nat) (s : State), s.dev.inReset = false ∧ (s.dev.caddy c).state = cdSTARTING ∧ s.dev.dsp.holding = []) ∧
    (∃ (c : Nat) (s : State), s.dev.inReset = false ∧ (s.dev.caddy c).state = cdSTARTING ∧ (s.dev.caddy c).ready = [] ∧ (s.dev.caddy c).roles = 0 ∧ (s.dev.caddy c).logical = none ∧ (s.dev.dsp.accepting = true → s.dev.warmMin ≤ warmHeld s.dev)) ∧
    (∃ (c : Nat) (s : State), s.dev.inReset = false ∧ (s.dev.caddy c).state = cdDRAINING ∧ caddyIdle s.dev c = true ∧ s.dev.dsp.holding = [] ∧ (s.dev.dsp.accepting = true → s.dev.warmMin ≤ warmHeld s.dev)) ∧
    (∃ (q : Nat) (h : HeldWord) (l : List HeldWord) (s : State), s.dev.inReset = false ∧ takeHeldWord q s.dev.dsp.held = some (h, l) ∧ wqCredit s.dev q = true ∧ h.word ≠ 0) ∧
    (∃ (q : Nat) (h : HeldWord) (l : List HeldWord) (s : State), s.dev.inReset = false ∧ takeHeldWord q s.dev.dsp.held = some (h, l) ∧ q < 256) ∧
    (∃ (i : Nat) (p : Task) (s : State), s.dev.inReset = false ∧ s.dev.task i = some p ∧ p.phase = .holding) ∧
    (∃ (c v n : Nat) (l : List Nat) (s : State), s.dev.inReset = false ∧ (s.dev.caddy c).state = cdRUNNING ∧ (s.dev.caddy c).fenced = false ∧ (s.dev.caddy c).ready = [] ∧ (s.dev.caddy c).logical = some n ∧ s.dev.fld DSP_CTRL_steal_en = 1 ∧ (List.range 16).any (engineIdle s.dev c) = true ∧ v ≠ c ∧ l ≠ [] ∧ (((stealOrder n).filterMap (physOf s.dev)).findSome? fun x => match stealFrom s.dev c x with | [] => none | y => some (x, y)) = some (v, l) ∧ l.Nodup) ∧
    (∃ (c u : Nat) (s : State), s.dev.inReset = false ∧ c ≤ 33 ∧ u < 16) ∧
    (∃ (s : State), s.dev.inReset = false ∧ s.dev.fld DSP_CNT_SEL_unit ≠ 16) ∧
    (∃ (s : State), s.dev.inReset = false) :=
  ⟨⟨(2), (tDev fun d => { ((((d.setCaddy 0 { d.caddy 0 with state := cdRUNNING, logical := some 0, emptySince := 900000 }).setCaddy 1 { d.caddy 1 with state := cdRUNNING, logical := some 1, emptySince := 900000 }).setCaddy 2 { d.caddy 2 with state := cdRUNNING, logical := some 2 }).setTb 4 { d.tb 4 with ns := 900000 }).setFld DSP_CTRL_trace_en 0 with stage := 3 }), by decide +kernel⟩,
    ⟨(2), (tDev fun d => d.setCaddy 2 { d.caddy 2 with state := cdSTARTING }), by decide +kernel⟩,
    ⟨(2), (tDev fun d => (((fun b : Dev => { b with dsp := { b.dsp with accepting := true } }) d).setCaddy 0 { d.caddy 0 with state := cdRUNNING, logical := some 0, roles := 15 }).setCaddy 1 { d.caddy 1 with state := cdRUNNING, logical := some 1, roles := 15 } |>.setCaddy 2 { d.caddy 2 with state := cdSTARTING }), by decide +kernel⟩,
    ⟨(2), (tDev fun d => (((fun b : Dev => { b with dsp := { b.dsp with accepting := true } }) d).setCaddy 0 { d.caddy 0 with state := cdRUNNING, logical := some 0, roles := 15 }).setCaddy 1 { d.caddy 1 with state := cdRUNNING, logical := some 1, roles := 15 } |>.setCaddy 2 { d.caddy 2 with state := cdDRAINING, target := cdDISABLED }), by decide +kernel⟩,
    ⟨(3), (⟨3, 9, 0⟩), ([]), (tDev fun d => { (d.setBit (DSP_WQ_CFGn_enable 3) true).setFld (DSP_WQ_CFGn_producer 3) 0x41 with dsp := { d.dsp with held := [⟨3, 9, 0⟩] } }), by decide +kernel⟩,
    ⟨(3), (⟨3, 9, 0⟩), ([]), (tDev fun d => { d with dsp := { d.dsp with held := [⟨3, 9, 0⟩] } }), by decide +kernel⟩,
    ⟨(0xE000), (tTask 0xE000 .holding), (tDev fun d => { d.setTask 0xE000 (tTask 0xE000 .holding) with dsp := { (d.setTask 0xE000 (tTask 0xE000 .holding)).dsp with holding := [0xE000] } }), by decide +kernel⟩,
    ⟨(0), (1), (0), ([0xE000]), (tDev fun d => (((d.setCaddy 0 { d.caddy 0 with state := cdRUNNING, logical := some 0, roles := 15 }).setCaddy 1 { d.caddy 1 with state := cdRUNNING, logical := some 1, roles := 15, ready := [0xE000, 0xE001] }).setTask 0xE000 (tTask 0xE000 (.ready 1))).setTask 0xE001 (tTask 0xE001 (.ready 1))), by decide +kernel⟩,
    ⟨(2), (8), (tDev fun d => d.setEngine 40 { d.engine 40 with done := 7 }), by decide +kernel⟩,
    ⟨(tDev fun d => d.setEngine 0 { d.engine 0 with waitMax := 7 }), by decide +kernel⟩,
    ⟨(tDev fun d => d.setReg DSP_ERR 7), by decide +kernel⟩⟩

/-- States and operands that meet the hypotheses of every clause of LinkTiming. -/
theorem witness_LinkTiming :
    (∃ (p : Nat) (s : State), s.dev.inReset = false ∧ s.dev.portState p = ylALIGN) ∧
    (∃ (p since samples : Nat) (stamp : List Byte) (s : State), s.dev.inReset = false ∧ s.dev.portState p = ylALIGN ∧ s.dev.fld (YL_TEST_mode p) ≠ 1 ∧ (s.dev.port p).locked = true ∧ (s.dev.port p).stamps = 0) ∧
    (∃ (p samples : Nat) (stamp : List Byte) (s : State), s.dev.inReset = false ∧ s.dev.portState p = ylALIGN ∧ s.dev.fld (YL_TEST_mode p) ≠ 1 ∧ (s.dev.port p).locked = true ∧ (s.dev.port p).stamps = 1 ∧ topRole s.dev.topo p = 3) ∧
    (∃ (p samples : Nat) (stamp : List Byte) (s : State), s.dev.inReset = false ∧ s.dev.portState p = ylALIGN ∧ s.dev.fld (YL_TEST_mode p) ≠ 1 ∧ (s.dev.port p).locked = true ∧ (s.dev.port p).stamps = 1 ∧ topRole s.dev.topo p ≠ 3 ∧ (s.dev.port p).reqs = [] ∧ (s.dev.port p).queued = []) ∧
    (∃ (p since samples : Nat) (stamp : List Byte) (s : State), s.dev.inReset = false ∧ portLive s.dev p = true ∧ topRole s.dev.topo p ≠ 3 ∧ s.dev.fld (YL_TEST_mode p) ≠ 1 ∧ since % 4096 = 0 ∧ ((s.dev.port p).streams = true → ((s.dev.port p).upCount + samples) % 256 = field stamp 6 1) ∧ echoRecent s.dev p (upStampOf stamp) = true ∧ field stamp 4 2 ≤ 43253 ∧ 10 * field stamp 4 2 ≤ rttOf s.dev p (upStampOf stamp) ∧ (s.dev.port p).run.length < 63) ∧
    (∃ (p : Nat) (s : State), s.dev.inReset = false ∧ within (s.dev.portState p) ylALIGN ylDRAINING = true ∧ (s.dev.port p).absent = 0) ∧
    (∃ (p : Nat) (s : State), s.dev.inReset = false ∧ s.dev.portState p = ylDESCRIBE ∧ (s.dev.port p).absent = 1) ∧
    (∃ (p sync line prev since : Nat) (s : State), s.dev.inReset = false ∧ s.dev.portState p ≠ ylDISABLED ∧ sync = 2 ∧ [0x1E, 0x4B, 0x78].contains ((descramble 64 prev line).1 % 256) = false) ∧
    (∃ (p sync line prev since : Nat) (s : State), s.dev.inReset = false ∧ s.dev.portState p ≠ ylDISABLED ∧ (sync = 0 ∨ sync = 3) ∧ (((s.dev.port p).syncWin).filter id).length < 15) ∧
    (∃ (p hist block : Nat) (s : State), s.dev.inReset = false ∧ s.dev.fld (YL_TEST_prbs p) = 1) ∧
    (∃ (p h v : Nat) (s : State), s.dev.inReset = false ∧ s.dev.portState p ≠ ylDISABLED ∧ (s.dev.port p).dPending = some v ∧ v < 2 ^ 32 ∧ (s.dev.port p).loopPending = none) :=
  ⟨⟨(2), (tPort 2 ylALIGN id), by decide +kernel⟩,
    ⟨(2), (9), (0), ([1, 2, 0, 0x20, 9, 0, 0]), (tPort 2 ylALIGN fun x => { x with locked := true }), by decide +kernel⟩,
    ⟨(2), (0), ([1, 2, 0, 0x20, 9, 0, 0]), (tDev fun d => let d1 := setState { d with bld := { d.bld with cfg := tTopo3 } } 2 ylALIGN; d1.setPort 2 { d1.port 2 with locked := true, stamps := 1 }), by decide +kernel⟩,
    ⟨(2), (0), ([1, 2, 0, 0x20, 9, 0, 0]), (tPort 2 ylALIGN fun x => { x with locked := true, stamps := 1 }), by decide +kernel⟩,
    ⟨(2), (4096), (3), ([0, 1, 0, 0x20, 9, 0, 8]), ({ tPort 2 ylREADY (fun x => { x with hyperNum := 1, hyperAt := 0, streams := true, upCount := 5 }) with dev := (tPort 2 ylREADY (fun x => { x with hyperNum := 1, hyperAt := 0, streams := true, upCount := 5 })).dev.setTb 4 { tBase.dev.tb 4 with ns := 20000 } }), by decide +kernel⟩,
    ⟨(2), (tPort 2 ylREADY id), by decide +kernel⟩,
    ⟨(2), (tPort 2 ylDESCRIBE fun x => { x with absent := 1 }), by decide +kernel⟩,
    ⟨(2), (2), (0x21), (0), (3), (tPort 2 ylREADY id), by decide +kernel⟩,
    ⟨(2), (3), (0x21), (0), (3), (tPort 2 ylREADY id), by decide +kernel⟩,
    ⟨(2), (5), (0xFF), (tDev fun d => d.setBit (YL_TEST_prbs 2) true), by decide +kernel⟩,
    ⟨(2), (7), (500), (tPort 2 ylREADY fun x => { x with dPending := some 500 }), by decide +kernel⟩⟩

/-- States and operands that meet the hypotheses of every clause of PortStates. -/
theorem witness_PortStates :
    (∃ (p : Nat) (s : State), s.dev.inReset = false ∧ s.dev.portState p = ylDISABLED) ∧
    (∃ (p : Nat) (s : State), s.dev.inReset = false ∧ s.dev.portState p = ylDOWN ∧ s.dev.isolated.contains (128 + p / 8) = false) ∧
    (∃ (p : Nat) (s : State), s.dev.inReset = false ∧ s.dev.portState p = ylALIGN ∧ s.dev.fld (YL_STATUS_attempts p) < 7) ∧
    (∃ (p : Nat) (s : State), s.dev.inReset = false ∧ s.dev.portState p = ylDESCRIBE ∧ s.dev.fld (YL_STATUS_attempts p) < 7) ∧
    (∃ (p : Nat) (s : State), s.dev.inReset = false ∧ s.dev.portState p = ylCALIBRATE ∧ s.dev.fld (YL_STATUS_attempts p) < 7 ∧ s.dev.rx.ctx = [] ∧ (s.dev.head p).gainPending = none) ∧
    (∃ (p : Nat) (s : State), s.dev.inReset = false ∧ s.dev.portState p = ylALIGN ∧ s.dev.fld (YL_STATUS_attempts p) < 7) ∧
    (∃ (p : Nat) (s : State), s.dev.inReset = false ∧ within (s.dev.portState p) ylDOWN ylDESCRIBE = true ∧ (s.dev.port p).enablePending = false) ∧
    (∃ (p : Nat) (s : State), s.dev.inReset = false ∧ s.dev.portState p = ylDRAINING ∧ s.dev.rx.ctx = [] ∧ s.dev.tx.bursts = [] ∧ (s.dev.head p).gainPending = none ∧ (s.dev.port p).enablePending = false) ∧
    (∃ (p : Nat) (s : State), s.dev.inReset = false) :=
  ⟨⟨(2), (tBase), by decide +kernel⟩,
    ⟨(2), (tPort 2 ylDOWN id), by decide +kernel⟩,
    ⟨(2), (tPort 2 ylALIGN id), by decide +kernel⟩,
    ⟨(2), (tPort 2 ylDESCRIBE id), by decide +kernel⟩,
    ⟨(2), (tPort 2 ylCALIBRATE id), by decide +kernel⟩,
    ⟨(2), (tPort 2 ylALIGN id), by decide +kernel⟩,
    ⟨(2), (tPort 2 ylALIGN id), by decide +kernel⟩,
    ⟨(2), (tPort 2 ylDRAINING id), by decide +kernel⟩,
    ⟨(2), (tDev fun d => (d.setReg (YL_ERR_SYNC 2) 7).setReg (YL_ERR_LINK 2) 9), by decide +kernel⟩⟩

/-- States and operands that meet the hypotheses of every clause of ControlAnswers. -/
theorem witness_ControlAnswers :
    (∃ (c : Instr) (p tag : Nat) (bs : List Byte) (s : State), s.dev.inReset = false ∧ reqOf s.dev p tag = none ∧ (c = .descData p tag bs ∨ c = .synthStatus p tag bs ∨ c = .calDone p tag bs ∨ c = .telem p tag bs ∨ c = .ack p tag bs)) ∧
    (∃ (p : Nat) (msg : List Byte) (s : State), s.dev.inReset = false ∧ ctrlParse msg = none) ∧
    (∃ (p id tag : Nat) (payload : List Byte) (s : State), s.dev.inReset = false ∧ id < 256 ∧ tag < 256 ∧ payload.length < 256 ∧ [0x81, 0x82, 0x83, 0x84, 0x87, 0x88].contains id = false) ∧
    (∃ (p tag : Nat) (r : CtrlReq) (s : State), s.dev.inReset = false ∧ reqOf s.dev p tag = some r ∧ r.resent = false ∧ r.at? = none ∧ r.id ≠ cmHEAD_RESET ∧ ((s.dev.port p).reqs.map (·.tag)).contains (s.dev.port p).nextTag = false) ∧
    (∃ (p tag id : Nat) (r : CtrlReq) (s : State), s.dev.inReset = false ∧ reqOf s.dev p tag = some r ∧ r.id = id ∧ (id = cmPA_BIAS ∨ id = cmTR_SWITCH ∨ id = cmLOOP_SET) ∧ (s.dev.port p).queued = [] ∧ Tab.find (s.dev.head p).undo tag = none) ∧
    (∃ (p tag : Nat) (bs : List Byte) (r : CtrlReq) (s : State), s.dev.inReset = false ∧ reqOf s.dev p tag = some r ∧ r.id = cmSYNTH_TUNE ∧ bs.length = 6 ∧ field bs 0 1 = 0 ∧ field bs 1 1 = 0 ∧ field r.payload 0 1 = 0 ∧ s.dev.portState p = ylREADY ∧ (s.dev.port p).queued = [] ∧ (s.dev.head p).wanted = [] ∧ (∀ n ∈ (s.dev.head p).needs, n / 2 = 0 → n = synthNeed 0)) ∧
    (∃ (p tag k : Nat) (r : CtrlReq) (s : State), s.dev.inReset = false ∧ reqOf s.dev p tag = some r ∧ r.id = cmCAL_RUN ∧ field r.payload 0 1 = k ∧ k < 6 ∧ s.dev.portState p = ylREADY ∧ (s.dev.port p).queued = [] ∧ (s.dev.head p).wanted = [] ∧ (∀ n ∈ (s.dev.head p).needs, n ∈ calNeeds k)) ∧
    (∃ (p tag : Nat) (r : CtrlReq) (s : State), s.dev.inReset = false ∧ reqOf s.dev p tag = some r ∧ r.id = cmTELEM_POLL ∧ dscSensors s.dev p = 0 ∧ (s.dev.port p).queued = []) ∧
    (∃ (p tag o : Nat) (bs : List Byte) (r : CtrlReq) (s : State), s.dev.inReset = false ∧ reqOf s.dev p tag = some r ∧ r.id = cmDESC_READ ∧ field r.payload 0 1 = o ∧ field r.payload 1 1 = 64 ∧ o < 256 ∧ bs.length = 64 ∧ s.dev.portState p = ylDESCRIBE ∧ (s.dev.port p).descParts = [] ∧ (s.dev.port p).queued = []) :=
  ⟨⟨(.calDone 2 9 []), (2), (9), ([]), (tBase), by decide +kernel⟩,
    ⟨(2), ([0x84, 1, 2, 0, 4, 0, 0]), (tBase), by decide +kernel⟩,
    ⟨(2), (0x85), (1), ([0, 4]), (tBase), by decide +kernel⟩,
    ⟨(2), (5), (⟨5, cmTELEM_POLL, [], false, none⟩), (tPort 2 ylREADY fun x => { x with reqs := [⟨5, cmTELEM_POLL, [], false, none⟩], nextTag := 6 }), by decide +kernel⟩,
    ⟨(2), (5), (cmPA_BIAS), (⟨5, cmPA_BIAS, [1], false, none⟩), (tPort 2 ylREADY fun x => { x with reqs := [⟨5, cmPA_BIAS, [1], false, none⟩], fails := 3 }), by decide +kernel⟩,
    ⟨(2), (5), ([0, 0, 0, 0, 0, 0]), (⟨5, cmSYNTH_TUNE, [0], false, none⟩), (tPort 2 ylREADY fun x => { x with reqs := [⟨5, cmSYNTH_TUNE, [0], false, none⟩] }), by decide +kernel⟩,
    ⟨(2), (5), (3), (⟨5, cmCAL_RUN, [3], false, none⟩), (tPort 2 ylREADY fun x => { x with reqs := [⟨5, cmCAL_RUN, [3], false, none⟩] }), by decide +kernel⟩,
    ⟨(2), (5), (⟨5, cmTELEM_POLL, [], false, none⟩), (tPort 2 ylREADY fun x => { x with reqs := [⟨5, cmTELEM_POLL, [], false, none⟩], telFails := 2 }), by decide +kernel⟩,
    ⟨(2), (5), (64), (List.replicate 64 7), (⟨5, cmDESC_READ, [64, 64], false, none⟩), (tPort 2 ylDESCRIBE fun x => { x with reqs := [⟨5, cmDESC_READ, [64, 64], false, none⟩] }), by decide +kernel⟩⟩

/-- States and operands that meet the hypotheses of every clause of HeadEventsAndEmulation. -/
theorem witness_HeadEventsAndEmulation :
    (∃ (p : Nat) (s : State), s.dev.inReset = false ∧ s.dev.tx.bursts = [] ∧ (s.dev.head p).holds = []) ∧
    (∃ (p : Nat) (s : State), s.dev.inReset = false ∧ s.dev.tx.bursts = [] ∧ (s.dev.head p).holds = [] ∧ 1 ≤ dscSensors s.dev p) ∧
    (∃ (s : State), s.dev.inReset = false ∧ (∀ p, p < 64 → portLive s.dev p = false)) ∧
    (∃ (p : Nat) (s : State), s.dev.inReset = false ∧ portLive s.dev p = true ∧ p < 64 ∧ topRole s.dev.topo p ≠ 3 ∧ (∀ q, q < 64 → q ≠ p → portLive s.dev q = false) ∧ (s.dev.port p).reqs = [] ∧ (s.dev.port p).queued = []) ∧
    (∃ (p tag v : Nat) (s : State), s.dev.inReset = false ∧ topRole s.dev.topo p = 3 ∧ s.dev.portState p ≠ ylDISABLED ∧ v < 256) ∧
    (∃ (p tag : Nat) (bs : List Byte) (s : State), s.dev.inReset = false ∧ topRole s.dev.topo p = 3 ∧ s.dev.portState p ≠ ylDISABLED) ∧
    (∃ (p tag : Nat) (a : EmuAnswer) (s : State), s.dev.inReset = false ∧ (s.dev.port p).emu.find? (fun x => x.tag == tag) = some a) :=
  ⟨⟨(2), (tBase), by decide +kernel⟩,
    ⟨(2), (tHead 2 id), by decide +kernel⟩,
    ⟨(tBase), by decide +kernel⟩,
    ⟨(2), (tPort 2 ylREADY id), by decide +kernel⟩,
    ⟨(2), (9), (1), (tDev fun d => setState { d with bld := { d.bld with cfg := tTopo3 } } 2 ylREADY), by decide +kernel⟩,
    ⟨(2), (9), ([0, 1, 2, 3, 4]), (tDev fun d => setState { d with bld := { d.bld with cfg := tTopo3 } } 2 ylREADY), by decide +kernel⟩,
    ⟨(2), (9), (⟨0x82, 9, [0]⟩), (tPort 2 ylREADY fun x => { x with emu := [⟨0x82, 9, [0]⟩] }), by decide +kernel⟩⟩

/-- States and operands that meet the hypotheses of every clause of HeadCalibration. -/
theorem witness_HeadCalibration :
    (∃ (p k : Nat) (s : State), s.dev.inReset = false ∧ s.dev.portState p = ylREADY ∧ k ≤ 4 ∧ nbit (dscCalMask s.dev p) k = true ∧ (s.dev.head p).due.contains k = false) ∧
    (∃ (s : State), s.dev.inReset = false ∧ s.dev.portState (s.dev.fld HC_SEL_head) = ylREADY ∧ (s.dev.head (s.dev.fld HC_SEL_head)).due = [] ∧ s.dev.hc.recals = []) ∧
    (∃ (s : State), s.dev.inReset = false ∧ s.dev.portState (s.dev.fld HC_SEL_head) ≠ ylREADY) ∧
    (∃ (p k : Nat) (s : State), s.dev.inReset = false ∧ (s.dev.head p).due.contains k = true ∧ calAllowed s.dev p k = true ∧ calInstant s.dev p k = true ∧ s.dev.rx.ctx = [] ∧ (s.dev.port p).reqs.length < 16) ∧
    (∃ (p k : Nat) (s : State), s.dev.inReset = false ∧ s.dev.portState p = ylREADY ∧ k < 6 ∧ (s.dev.head p).failed = [k] ∧ calAllowed s.dev p k = true ∧ s.dev.rx.ctx = [] ∧ (s.dev.port p).reqs.length < 16) ∧
    (∃ (p k : Nat) (s : State), s.dev.inReset = false ∧ s.dev.portState p = ylREADY ∧ within k 2 4 = true ∧ (s.dev.head p).failed = [k + 64] ∧ calAllowed s.dev p k = true ∧ (s.dev.port p).reqs.length < 16) :=
  ⟨⟨(2), (3), (tHead 2 id), by decide +kernel⟩,
    ⟨(tHead 0 id), by decide +kernel⟩,
    ⟨(tBase), by decide +kernel⟩,
    ⟨(2), (3), (tHead 2 fun h => { h with due := [3], txReady := true }), by decide +kernel⟩,
    ⟨(2), (3), (tHead 2 fun h => { h with failed := [3] }), by decide +kernel⟩,
    ⟨(2), (3), (tHead 2 fun h => { h with failed := [67] }), by decide +kernel⟩⟩

/-- States and operands that meet the hypotheses of every clause of ReceiveGainAndWake. -/
theorem witness_ReceiveGainAndWake :
    (∃ (p peaks mean : Nat) (s : State), s.dev.inReset = false ∧ s.dev.portState p = ylREADY ∧ peaks ≤ 16 ∧ mean ^ 2 ≤ 10 ^ 21 ∧ 10 ^ 17 ≤ mean ^ 2) ∧
    (∃ (p peaks mean : Nat) (s : State), s.dev.inReset = false ∧ s.dev.portState p = ylREADY ∧ 16 < peaks ∧ 2 ≤ (s.dev.head p).rxGain ∧ (s.dev.head p).gainAt = none ∧ (s.dev.head p).gainPending = none ∧ (s.dev.port p).reqs.length < 16) ∧
    (∃ (p tag : Nat) (r : CtrlReq) (g : GainChange) (s : State), s.dev.inReset = false ∧ reqOf s.dev p tag = some r ∧ r.id = cmGAIN_SET ∧ field r.payload 0 1 = 0 ∧ (s.dev.head p).gainPending = some g ∧ Tab.find (s.dev.head p).undo tag = none) ∧
    (∃ (p tag : Nat) (r : CtrlReq) (s : State), s.dev.inReset = false ∧ reqOf s.dev p tag = some r ∧ r.id = cmTR_SWITCH ∧ field r.payload 0 1 = 0 ∧ Tab.find (s.dev.head p).undo tag = none) ∧
    (∃ (p : Nat) (s : State), s.dev.inReset = false ∧ (s.dev.head p).trTx = false) ∧
    (∃ (s : State), s.dev.fld KTL_WAKE_CTRL_rx_en = 1 ∧ s.dev.fld KTL_WAKE_CODE_code ≠ 0) ∧
    (∃ (s : State), s.dev.fld KTL_WAKE_CTRL_rx_en = 1 ∧ s.dev.fld KTL_WAKE_CODE_code ≠ 0 ∧ s.dev.fld KTL_WAKE_CTRL_max_wakes = 0) ∧
    (∃ (s : State), s.dev.inReset = true ∧ s.dev.fld KTL_WAKE_CTRL_pwr_req = 1) ∧
    (∃ (s : State), s.dev.inReset = false) :=
  ⟨⟨(2), (0), (1000000000), (tHead 2 fun h => { h with loud := 3 }), by decide +kernel⟩,
    ⟨(2), (17), (0), (tHead 2 fun h => { h with rxGain := 9 }), by decide +kernel⟩,
    ⟨(2), (5), (⟨5, cmGAIN_SET, [0, 7, 0], false, some 9⟩), (⟨7, 9, 0, false⟩), (tDev fun d => ((tHead 2 fun h => { h with rxGain := 9, gainPending := some ⟨7, 9, 0, false⟩ }).dev).setPort 2 { d.port 2 with reqs := [⟨5, cmGAIN_SET, [0, 7, 0], false, some 9⟩] }), by decide +kernel⟩,
    ⟨(2), (5), (⟨5, cmTR_SWITCH, [0], false, some 9⟩), (tDev fun d => d.setPort 2 { d.port 2 with reqs := [⟨5, cmTR_SWITCH, [0], false, some 9⟩] }), by decide +kernel⟩,
    ⟨(2), (tHead 2 fun h => { h with blanked := true }), by decide +kernel⟩,
    ⟨(tDev fun d => (d.setBit KTL_WAKE_CTRL_rx_en true).setFld KTL_WAKE_CODE_code 77), by decide +kernel⟩,
    ⟨(tDev fun d => (d.setBit KTL_WAKE_CTRL_rx_en true).setFld KTL_WAKE_CODE_code 77), by decide +kernel⟩,
    ⟨(tDev fun d => { d.setBit KTL_WAKE_CTRL_pwr_req true with inReset := true }), by decide +kernel⟩,
    ⟨(tDev fun d => d.setBit KTL_WAKE_CTRL_pwr_req true), by decide +kernel⟩⟩

/-- States and operands that meet the hypotheses of every clause of HoldsAndDuty. -/
theorem witness_HoldsAndDuty :
    (∃ (p : Nat) (s : State), s.dev.inReset = false ∧ portLive s.dev p = true ∧ telemOlder s.dev p 1000000000 = true ∧ (s.dev.head p).holds = [] ∧ s.dev.tx.bursts = []) ∧
    (∃ (p : Nat) (s : State), s.dev.inReset = false ∧ sensorValue s.dev p (sensorOf s.dev p 1) 0 ≤ 1100) ∧
    (∃ (on : Bool) (s : State), s.dev.inReset = false ∧ s.dev.tx.bursts = []) ∧
    (∃ (i e : Nat) (b : Burst) (q : Task) (s : State), s.dev.inReset = false ∧ Tab.find s.dev.tx.bursts i = some b ∧ b.task = i ∧ b.onAir = false ∧ (s.dev.head b.req.port).txReady = false ∧ needsHead s.dev b.req.port = true ∧ b.req.kind ≠ 3 ∧ attemptOf s.dev i = none ∧ b.req.cell = none ∧ Alone s.dev i e q) ∧
    (∃ (p c : Nat) (b : Burst) (s : State), s.dev.inReset = false ∧ headBursts s.dev p = [b] ∧ b.onAir = false ∧ b.t0 ≤ b.t1 ∧ -1000 ≤ b.pEff ∧ looped s.dev p = false ∧ topRole s.dev.topo p ≠ 3 ∧ b.t0 ≤ s.dev.ns + 256 * 5406720 ∧ chooseCode s.dev p b.pEff = some c ∧ c ≠ (s.dev.head p).txCode ∧ (s.dev.head p).onTo + 2000 ≤ b.t0 - 1000 * dscPaLead s.dev p - dscTrSwitch s.dev p - 4000 ∧ (s.dev.head p).onCmd = true ∧ (s.dev.port p).reqs.length < 16) ∧
    (∃ (p c : Nat) (b : Burst) (s : State), s.dev.inReset = false ∧ headBursts s.dev p = [b] ∧ b.onAir = false ∧ b.t0 ≤ b.t1 ∧ -1000 ≤ b.pEff ∧ looped s.dev p = false ∧ topRole s.dev.topo p ≠ 3 ∧ b.t0 ≤ s.dev.ns + 256 * 5406720 ∧ chooseCode s.dev p b.pEff = some c ∧ c = (s.dev.head p).txCode ∧ (s.dev.head p).onCmd = false ∧ (s.dev.port p).reqs.length < 15) ∧
    (∃ (s : State), s.dev.inReset = false) ∧
    (∃ (s : State), s.dev.inReset = false ∧ (∀ e ∈ s.dev.hc.duty, e.2.length ≤ 61)) ∧
    (∃ (s : State), s.dev.inReset = false) :=
  ⟨⟨(2), (tHead 2 id), by decide +kernel⟩,
    ⟨(2), (tHead 2 fun h => { h with holds := [csTHERMAL, csFAULT] }), by decide +kernel⟩,
    ⟨(true), (tBase), by decide +kernel⟩,
    ⟨(0xE000), (8), (tBurst), (tTask 0xE000 (.service 8)), ({ tServe with dev := { tServe.dev with tx := ⟨[(0xE000, tBurst)], []⟩, bld := { tServe.dev.bld with cfg := tTopo1 } } }), by decide +kernel⟩,
    ⟨(2), (514), ({ tBurst with t0 := 90000000, t1 := 90004000 }), (tReady2 { tBurst with t0 := 90000000, t1 := 90004000 } fun h => { h with onCmd := true }), by decide +kernel⟩,
    ⟨(2), (514), ({ tBurst with t0 := 90000000, t1 := 90004000 }), (tReady2 { tBurst with t0 := 90000000, t1 := 90004000 } fun h => { h with txCode := 514 }), by decide +kernel⟩,
    ⟨(tDev fun d => { d with hc := { d.hc with duty := [(3, [4, 5])] } }), by decide +kernel⟩,
    ⟨(tDev fun d => { d with hc := { d.hc with duty := [(3, [4, 5])] } }), by decide +kernel⟩,
    ⟨(tDev fun d => d.setReg HC_SKIP_A 7), by decide +kernel⟩⟩

/-- States and operands that meet the hypotheses of every clause of ReceiveDetection. -/
theorem witness_ReceiveDetection :
    (∃ (p c x : Nat) (s : State), s.dev.inReset = false ∧ portLive s.dev p = true ∧ ctxOn s.dev p c = [] ∧ (s.dev.chan p c).ran = false ∧ c < bpCount s.dev.band p) ∧
    (∃ (p c m rho w n i : Nat) (s : State), s.dev.inReset = false ∧ detecting s.dev p = true ∧ c < bpCount s.dev.band p ∧ (portModes s.dev p).contains m = true ∧ 600 ≤ rho ∧ noise s.dev p c = some n ∧ atLeastDb w n (((phyFind s.dev.phy m).map (phyDetSnr s.dev.phy)).getD 80) = true ∧ (s.dev.chan p c).refire = [] ∧ channelLoad s.dev p c = [] ∧ s.dev.ts.exps = [] ∧ slotAvailable s.dev m = true ∧ freeTask s.dev 0 0x4000 = some i) ∧
    (∃ (p c : Nat) (x : RxCtx) (s : State), s.dev.inReset = false ∧ s.dev.rx.late.find? (fun y => y.port == p && y.channel == c) = some x ∧ slotAvailable s.dev x.mode = false) ∧
    (∃ (s : State), s.dev.inReset = false) :=
  ⟨⟨(2), (3), (99), (tRx id), by decide +kernel⟩,
    ⟨(2), (3), (1), (700), (10000000), (1), (0), (tRx fun d => (d.setChan 2 3 { d.chan 2 3 with powers := [1] }).setCaddy 0 { d.caddy 0 with state := cdRUNNING, logical := some 0, roles := 255 }), by decide +kernel⟩,
    ⟨(2), (3), (tCtx .preamble), (tRx fun d => { d with rx := { d.rx with late := [tCtx .preamble] } }), by decide +kernel⟩,
    ⟨(tRx fun d => (d.setChan 2 3 { d.chan 2 3 with det := 5, powers := [1] }).setReg RX_CNT_FAIL 3), by decide +kernel⟩⟩

/-- States and operands that meet the hypotheses of every clause of ReceiveContexts. -/
theorem witness_ReceiveContexts :
    (∃ (i ts : Nat) (fec : Bool) (x : RxCtx) (s : State), s.dev.inReset = false ∧ Tab.find s.dev.rx.ctx i = some x ∧ x.st = .preamble ∧ s.dev.rx.groups = []) ∧
    (∃ (i e : Nat) (x : RxCtx) (q : Task) (s : State), s.dev.inReset = false ∧ Tab.find s.dev.rx.ctx i = some x ∧ x.st = .preamble ∧ x.group = none ∧ s.dev.rx.late = [] ∧ Alone s.dev i e q) ∧
    (∃ (i len : Nat) (f4 fec : Bool) (x : RxCtx) (s : State), s.dev.inReset = false ∧ Tab.find s.dev.rx.ctx i = some x ∧ x.st = .header ∧ (if f4 then 5 else 3) ≤ len ∧ len ≤ ((phyFind s.dev.phy x.mode).map (phyMaxPsdu s.dev.phy)).getD 0 ∧ bandOk s.dev x = true) ∧
    (∃ (i : Nat) (x : RxCtx) (s : State), s.dev.inReset = false ∧ Tab.find s.dev.rx.ctx i = some x ∧ x.st = .payload) ∧
    (∃ (i e err sig mcs : Nat) (cfo : Int) (segs : List (Nat × Nat)) (bs soft : List Byte) (x : RxCtx) (q : Task) (s : State), s.dev.inReset = false ∧ Tab.find s.dev.rx.ctx i = some x ∧ x.st = .decode ∧ x.group = none ∧ s.dev.rx.late = [] ∧ s.dev.rx.recent = [] ∧ Alone s.dev i e q) ∧
    (∃ (i e err sig mcs : Nat) (cfo : Int) (segs : List (Nat × Nat)) (bs soft : List Byte) (x : RxCtx) (q : Task) (s : State), s.dev.inReset = false ∧ Tab.find s.dev.rx.ctx i = some x ∧ x.st = .decode ∧ x.group = none ∧ s.dev.rx.late = [] ∧ Alone s.dev i e q) ∧
    (∃ (g : Nat) (x : RxGroup) (c : Copy) (s : State), s.dev.inReset = false ∧ Tab.find s.dev.rx.groups g = some x ∧ x.ended = [c] ∧ c.passed = true ∧ s.dev.rx.recent = []) ∧
    (∃ (s : State), s.dev.inReset = false) :=
  ⟨⟨(0xE000), (4567), (true), (tCtx .preamble), (tRx fun d => { d with rx := { d.rx with ctx := [(0xE000, tCtx .preamble)] } }), by decide +kernel⟩,
    ⟨(0xE000), (8), (tCtx .preamble), (tTask 0xE000 (.service 8)), (tInRx .preamble), by decide +kernel⟩,
    ⟨(0xE000), (100), (true), (false), (tCtx .header), (tRx fun d => { d with rx := { d.rx with ctx := [(0xE000, tCtx .header)] } }), by decide +kernel⟩,
    ⟨(0xE000), (tCtx .payload), (tRx fun d => { d with rx := { d.rx with ctx := [(0xE000, tCtx .payload)] } }), by decide +kernel⟩,
    ⟨(0xE000), (8), (1), (100), (0), (3), ([(8, 5)]), ([1, 2, 3, 4, 5]), ([]), (tCtx .decode), (tTask 0xE000 (.service 8)), (tInRx .decode), by decide +kernel⟩,
    ⟨(0xE000), (8), (1), (100), (0), (3), ([(8, 5)]), ([1, 2, 3, 4, 5]), ([]), (tCtx .decode), (tTask 0xE000 (.service 8)), (tInRx .decode), by decide +kernel⟩,
    ⟨(4), (⟨0, 1, 0, [2], [], [tCopy], []⟩), (tCopy), (tRx fun d => { d with rx := { d.rx with groups := [(4, ⟨0, 1, 0, [2], [], [tCopy], []⟩)] } }), by decide +kernel⟩,
    ⟨(tRx fun d => { d with rx := { d.rx with recent := [⟨0, 1, 5, [9]⟩, ⟨0, 1, 4, [8]⟩] } }), by decide +kernel⟩⟩

/-- States and operands that meet the hypotheses of every clause of FrameRecords. -/
theorem witness_FrameRecords :
    (∃ (changed : Nat) (f : RxFrame) (fs : List RxFrame) (i : Nat) (s : State), s.dev.inReset = false ∧ s.dev.rx.frames = f :: fs ∧ pbmUsed s.dev + f.best.psdu.length + 64 ≤ pbmCap ∧ freeTask s.dev 0 0x4000 = some i ∧ f.copies.length ≤ 4) ∧
    (∃ (f : RxFrame) (fs : List RxFrame) (s : State), s.dev.inReset = false ∧ s.dev.rx.frames = f :: fs) :=
  ⟨⟨(0), (⟨0, 1, tCopy, [tCopy], false⟩), ([]), (0), (tRx fun d => { d with rx := { d.rx with frames := [⟨0, 1, tCopy, [tCopy], false⟩] } }), by decide +kernel⟩,
    ⟨(⟨0, 1, tCopy, [tCopy], false⟩), ([]), (tRx fun d => { d with rx := { d.rx with frames := [⟨0, 1, tCopy, [tCopy], false⟩] } }), by decide +kernel⟩⟩

/-- States and operands that meet the hypotheses of every clause of Bursts. -/
theorem witness_Bursts :
    (∃ (i e : Nat) (q : Task) (s : State), s.dev.inReset = false ∧ s.dev.task i = some q ∧ q.phase = .service e ∧ q.d.kind = 1 ∧ taskBursts s.dev i = [] ∧ attemptOf s.dev i = none ∧ (reqOfTask s.dev q).kind ≠ 3 ∧ refusal s.dev (burstOf s.dev i (reqOfTask s.dev q) (reqOfTask s.dev q).t0) = 0 ∧ headBursts s.dev (reqOfTask s.dev q).port = []) ∧
    (∃ (i : Nat) (q : Task) (s : State), s.dev.inReset = false ∧ s.dev.task i = some q ∧ q.d.id = i ∧ q.phase = .waiting ∧ q.d.kind = 1 ∧ q.ticket = none ∧ q.d.succ0 = noTask ∧ q.d.succ1 = noTask ∧ q.d.notify = false ∧ attemptOf s.dev i = none ∧ (reqOfTask s.dev q).kind ≠ 3 ∧ lowest (csLATE :: txCauses s.dev (reqOfTask s.dev q) ++ if overDuty s.dev (burstOf s.dev i (reqOfTask s.dev q) (reqOfTask s.dev q).t0) then [csDUTY] else []) = csLATE) ∧
    (∃ (i : Nat) (x : Int) (b : Burst) (s : State), s.dev.inReset = false ∧ Tab.find s.dev.tx.bursts i = some b ∧ b.onAir = false ∧ scaleOf s.dev b = (x, false, false, false) ∧ startingBurst s.dev i = some (i, b) ∧ (s.dev.head b.req.port).onTo < b.t0) ∧
    (∃ (i e : Nat) (wave : List (Int × Int × Nat)) (b : Burst) (q : Task) (s : State), s.dev.inReset = false ∧ endingBurst s.dev i = some (i, b) ∧ b.task = i ∧ b.onAir = true ∧ b.cut = 0 ∧ i < 65536 ∧ b.req.kind ≠ 3 ∧ attemptOf s.dev i = none ∧ Alone s.dev i e q) ∧
    (∃ (s : State), s.dev.inReset = false) :=
  ⟨⟨(0xE000), (8), (tSend), (tSending), by decide +kernel⟩,
    ⟨(0xE000), ({ tSend with phase := .waiting }), (tDev fun d => d.setTask 0xE000 { tSend with phase := .waiting }), by decide +kernel⟩,
    ⟨(0xE000), (0), ({ tBurst with req := { tBurst.req with port := 5 } }), (tDev fun d => { d with bld := { d.bld with cfg := tTopo3 }, tx := ⟨[(0xE000, { tBurst with req := { tBurst.req with port := 5 } })], []⟩ }), by decide +kernel⟩,
    ⟨(0xE000), (8), ([(3, 4, 7)]), ({ tBurst with onAir := true }), (tTask 0xE000 (.service 8)), ({ tServe with dev := { tServe.dev with tx := ⟨[(0xE000, { tBurst with onAir := true })], []⟩ } }), by decide +kernel⟩,
    ⟨(tDev fun d => d.setReg TX_CNT_SENT 7), by decide +kernel⟩⟩

/-- States and operands that meet the hypotheses of every clause of SlotEvaluations. -/
theorem witness_SlotEvaluations :
    (∃ (p a : Nat) (s : State), s.dev.inReset = false ∧ p < 8 ∧ nbit (s.dev.fld TS_CTRL_pan_run) p = false) ∧
    (∃ (p a : Nat) (s : State), s.dev.inReset = false ∧ p < 8 ∧ nbit (s.dev.fld TS_CTRL_pan_run) p = true ∧ s.dev.panUsed p = true ∧ 2 ≤ s.dev.stage ∧ s.dev.tbl.mem = [] ∧ s.dev.fwd.entries = [] ∧ s.dev.cmp.camps = [] ∧ s.dev.ts.quiet = [] ∧ s.dev.bld.pending = none) ∧
    (∃ (p a : Nat) (x : Due) (s : State), s.dev.inReset = false ∧ p < 8 ∧ nbit (s.dev.fld TS_CTRL_pan_run) p = true ∧ s.dev.panUsed p = true ∧ 2 ≤ s.dev.stage ∧ s.dev.fwd.entries = [] ∧ s.dev.cmp.camps = [] ∧ s.dev.ts.quiet = [] ∧ s.dev.bld.pending = none ∧ dueCells s.dev p a = [x] ∧ clTarget x.w = 0xFFFFF ∧ clAdv x.w = false) ∧
    (∃ (s : State), s.dev.inReset = false) :=
  ⟨⟨(1), (13), (tDev fun d => d.setFld TS_STATUS_running 255), by decide +kernel⟩,
    ⟨(1), (13), (tPan id), by decide +kernel⟩,
    ⟨(1), (13), (⟨0, tCellWord, tFrame⟩), (tPan fun d => setCell d 0 tCellWord), by decide +kernel⟩,
    ⟨(tDev fun d => d.setReg TS_CNT_ACK 7), by decide +kernel⟩⟩

/-- States and operands that meet the hypotheses of every clause of CellsAndAddresses. -/
theorem witness_CellsAndAddresses :
    (∃ (m : Master) (idx w : Nat) (s : State), s.dev.inReset = false ∧ w < 2 ^ 64 ∧ cellCheck s.dev idx w = tsOK) ∧
    (∃ (m : Master) (idx : Nat) (s : State), s.dev.inReset = false ∧ 2 ≤ s.dev.stage ∧ idx < 1048576) ∧
    (∃ (m : Master) (idx : Nat) (s : State), s.dev.inReset = false ∧ 2 ≤ s.dev.stage ∧ idx < 1048576) ∧
    (∃ (m : Master) (p x : Nat) (s : State), s.dev.inReset = false ∧ p < 8 ∧ 3 ≤ s.dev.stage ∧ s.dev.panUsed p = true ∧ (s.dev.alloc p).used.length < topMaxNodes s.dev.topo p ∧ x < 0xFE00 ∧ x ∉ (s.dev.alloc p).used ∧ x ∉ (s.dev.alloc p).quarantine ∧ (∀ y, y < x → y ∈ (s.dev.alloc p).used ∨ y ∈ (s.dev.alloc p).quarantine)) ∧
    (∃ (m : Master) (p x : Nat) (s : State), s.dev.inReset = false ∧ p < 8 ∧ 3 ≤ s.dev.stage ∧ s.dev.panUsed p = true ∧ x ∈ (s.dev.alloc p).used ∧ x ≤ 0xFDFF) ∧
    (∃ (p x : Nat) (s : State), s.dev.inReset = false) :=
  ⟨⟨(.host), (5), (tCellWord), (tPan id), by decide +kernel⟩,
    ⟨(.host), (5), (tPan fun d => setCell d 5 tCellWord), by decide +kernel⟩,
    ⟨(.host), (5), (tPan fun d => setCell d 5 tCellWord), by decide +kernel⟩,
    ⟨(.host), (1), (2), (tPan fun d => d.setAlloc 1 ⟨[0], [1]⟩), by decide +kernel⟩,
    ⟨(.host), (1), (0), (tPan fun d => d.setAlloc 1 ⟨[0], [1]⟩), by decide +kernel⟩,
    ⟨(1), (1), (tPan fun d => d.setAlloc 1 ⟨[0], [1]⟩), by decide +kernel⟩⟩

/-- States and operands that meet the hypotheses of every clause of AcksAndPeers. -/
theorem witness_AcksAndPeers :
    (∃ (i : Nat) (e : QEntry) (s : State), s.dev.inReset = false ∧ (attemptWaiting s.dev i).isSome = true ∧ Tab.find s.dev.fwd.entries i = some e ∧ e.retries < s.dev.fld TS_CFG_max_retries) ∧
    (∃ (k c a : Nat) (o : OpenBeacon) (s : State), s.dev.inReset = false ∧ (s.dev.peer k).state = 1 ∧ (s.dev.peer k).open_.find? (fun o => o.cell == c && o.asn == a) = some o ∧ o.heard = false ∧ (s.dev.peer k).misses < 2) ∧
    (∃ (k c a : Nat) (o : OpenBeacon) (s : State), s.dev.inReset = false ∧ (s.dev.peer k).state = 1 ∧ (s.dev.peer k).open_.find? (fun o => o.cell == c && o.asn == a) = some o ∧ o.heard = false ∧ (s.dev.peer k).misses = 2 ∧ s.dev.fld TS_RECOV_active = 0) ∧
    (∃ (k : Nat) (s : State), s.dev.inReset = false ∧ (s.dev.peer k).state = 2 ∧ (s.dev.peer k).holding = true ∧ s.dev.tbl.mem = []) :=
  ⟨⟨(7), (tEntry), (tPan fun d => { (d.setFld TS_CFG_max_retries 3) with fwd := { d.fwd with entries := [(7, tEntry)] }, ts := { d.ts with attempts := [⟨none, 0, 5, 9, 1, 13, 2, 0, some 7, 0, none, 0, none, 0⟩] } }), by decide +kernel⟩,
    ⟨(3), (4), (13), (⟨4, 13, 1, 0, 0, 0, false⟩), (tPan fun d => d.setPeer 3 ⟨1, 1, false, 0, [], false, 2, [⟨4, 13, 1, 0, 0, 0, false⟩]⟩), by decide +kernel⟩,
    ⟨(3), (4), (13), (⟨4, 13, 1, 0, 0, 0, false⟩), (tPan fun d => d.setPeer 3 ⟨1, 2, false, 0, [], false, 2, [⟨4, 13, 1, 0, 0, 0, false⟩]⟩), by decide +kernel⟩,
    ⟨(3), (tPan fun d => d.setPeer 3 ⟨2, 3, false, 0, [], true, 2, []⟩), by decide +kernel⟩⟩

/-- States and operands that meet the hypotheses of every clause of TableRequests. -/
theorem witness_TableRequests :
    (∃ (m : Master) (tb i part : Nat) (s : State), s.dev.inReset = false ∧ s.dev.fld TBL_STATUS_accepting = 1 ∧ hasPort m = true ∧ tb ≤ 9 ∧ i < entriesOf s.dev tb ∧ poisoned s.dev tb i = false) ∧
    (∃ (m : Master) (i : Nat) (bs : List Byte) (s : State), s.dev.inReset = false ∧ s.dev.fld TBL_STATUS_accepting = 1 ∧ hasPort m = true ∧ i < s.dev.tableEntries 5 ∧ poisoned s.dev 5 i = false) ∧
    (∃ (c n sec : Nat) (k bs : List Byte) (s : State), s.dev.inReset = false ∧ s.dev.fld TBL_STATUS_accepting = 1 ∧ n < s.dev.tableEntries 0 ∧ poisoned s.dev 0 n = false ∧ nodeValid s.dev n = false ∧ nbit (field bs 0 4) 31 = true ∧ s.dev.panUsed (nbits (field bs 0 4) 30 28) = true ∧ (panNodes s.dev (nbits (field bs 0 4) 30 28)).length < topMaxNodes s.dev.topo (nbits (field bs 0 4) 30 28)) ∧
    (∃ (c n sec e : Nat) (k : List Byte) (s : State), s.dev.inReset = false ∧ s.dev.fld TBL_STATUS_accepting = 1 ∧ sec < 16 ∧ removePoison s.dev 2 n sec k = none ∧ keyFind s.dev 2 (hearKey sec n) = some e) ∧
    (∃ (m : Master) (e ch : Nat) (k : List Byte) (s : State), s.dev.inReset = false ∧ s.dev.fld TBL_STATUS_accepting = 1 ∧ hasPort m = true ∧ keyOk 2 k = true ∧ keyFind s.dev 2 k = some e ∧ poisonIn s.dev 2 (bucketsRead s.dev 2 k) = none) ∧
    (∃ (m : Master) (i off x y : Nat) (wide : Bool) (s : State), s.dev.inReset = false ∧ fieldCheck s.dev m 5 i off wide = tbOK ∧ entryField s.dev 5 i off (if wide then 8 else 4) = x ∧ y < (if wide then 2 ^ 64 else 2 ^ 32)) ∧
    (∃ (m : Master) (i off y : Nat) (wide : Bool) (s : State), s.dev.inReset = false ∧ fieldCheck s.dev m 5 i off wide = tbOK ∧ y < (if wide then 2 ^ 64 else 2 ^ 32)) ∧
    (∃ (m : Master) (i off y : Nat) (wide : Bool) (s : State), s.dev.inReset = false ∧ fieldCheck s.dev m 5 i off wide = tbOK ∧ y < (if wide then 2 ^ 64 else 2 ^ 32)) ∧
    (∃ (m : Master) (s : State), s.dev.inReset = false ∧ hasPort m = true) ∧
    (∃ (s : State), s.dev.inReset = false) ∧
    (∃ (m : Master) (sec n lqi e : Nat) (ps rs : List Byte) (s : State), s.dev.inReset = false ∧ s.dev.fld TBL_STATUS_accepting = 1 ∧ hasPort m = true ∧ sec < 16 ∧ n < s.dev.tableEntries 0 ∧ poisonIn s.dev 2 (bucketsRead s.dev 2 (hearKey sec n)) = none ∧ keyFind s.dev 2 (hearKey sec n) = some e) ∧
    (∃ (h : Bool) (s : State), s.dev.inReset = false ∧ s.dev.fld TBL_CTRL_sweep_en = 1 ∧ nbit (entryField s.dev 2 s.dev.tbl.sweep 0 4) 31 = true ∧ nbit (entryField s.dev 2 s.dev.tbl.sweep 0 4) 30 = true) ∧
    (∃ (h : Bool) (s : State), s.dev.inReset = false ∧ s.dev.fld TBL_CTRL_sweep_en = 1 ∧ nbit (entryField s.dev 2 s.dev.tbl.sweep 0 4) 31 = true ∧ nbit (entryField s.dev 2 s.dev.tbl.sweep 0 4) 30 = false ∧ nbit (entryField s.dev 2 s.dev.tbl.sweep 0 4) 29 = false) ∧
    (∃ (s : State), s.dev.inReset = false ∧ s.dev.fld TBL_CTRL_sweep_en = 1 ∧ nbit (entryField s.dev 2 s.dev.tbl.sweep 0 4) 31 = true ∧ nbit (entryField s.dev 2 s.dev.tbl.sweep 0 4) 30 = false ∧ nbit (entryField s.dev 2 s.dev.tbl.sweep 0 4) 29 = true) :=
  ⟨⟨(.cc 0), (5), (3), (0), (tTbl fun d => setEntry d 5 3 [1, 2, 3]), by decide +kernel⟩,
    ⟨(.engine 8), (3), ([1, 2, 3]), (tTbl id), by decide +kernel⟩,
    ⟨(0), (9), (0), ([]), ([0, 0, 0xC0, 0x90, 5]), (tTbl id), by decide +kernel⟩,
    ⟨(0), (9), (2), (tHearAt), ([]), (tHear), by decide +kernel⟩,
    ⟨(.engine 8), (tHearAt), (1), (hearKey 2 9), (tHear), by decide +kernel⟩,
    ⟨(.engine 8), (3), (4), (5), (9), (false), (tTbl fun d => setEntry d 5 3 [1, 2, 3, 4, 5]), by decide +kernel⟩,
    ⟨(.engine 8), (3), (4), (0xFFFFFFFF), (false), (tTbl fun d => setEntry d 5 3 [1, 2, 3, 4, 5]), by decide +kernel⟩,
    ⟨(.engine 8), (3), (4), (9), (false), (tTbl fun d => setEntry d 5 3 [1, 2, 3, 4, 5]), by decide +kernel⟩,
    ⟨(.engine 8), (tBase), by decide +kernel⟩,
    ⟨(tDev fun d => d.setReg TBL_CNT_AGE 7), by decide +kernel⟩,
    ⟨(.engine 8), (2), (9), (77), (tHearAt), ([2, 0xFF, 0xFF, 0xFF]), ([0, 0xFF]), (tHear), by decide +kernel⟩,
    ⟨(false), (tTbl fun d => setEntry (d.setBit TBL_CTRL_sweep_en true) 2 0 [0, 0, 0, 0xC0]), by decide +kernel⟩,
    ⟨(false), (tTbl fun d => setEntry (d.setBit TBL_CTRL_sweep_en true) 2 0 [0, 0, 0, 0x80]), by decide +kernel⟩,
    ⟨(tTbl fun d => setEntry (d.setBit TBL_CTRL_sweep_en true) 2 0 [0, 0, 0, 0xA0]), by decide +kernel⟩⟩

/-- A state and operands that meet the hypotheses of TableMemoryCanonical. -/
theorem witness_TableMemoryCanonical :
    (∃ (c : Instr) (s t : State), Memory.wf 0 s.dev.tbl.mem = true ∧ exec c s = .next t ∧ ((∃ w i v, c = .cellWrite w i v) ∨ (∃ w i, c = .cellInvalidate w i) ∨ (∃ m a b x, c = .tableRead m a b x) ∨ (∃ m a b x, c = .tableWrite m a b x) ∨ (∃ m a b x, c = .tableLookup m a b x) ∨ (∃ m a b x y z, c = .tableInsert m a b x y z) ∨ (∃ m a b x y, c = .tableRemove m a b x y) ∨ (∃ m a b x y z v, c = .tableCas m a b x y z v) ∨ (∃ m a b x y z, c = .tableAdd m a b x y z) ∨ (∃ m a b x y z, c = .tableMax m a b x y z) ∨ (∃ m a b x y z, c = .hearMerge m a b x y z) ∨ (∃ h, c = .sweepVisit h) ∨ (∃ k, c = .peerHoldExpiry k))) :=
  ⟨(.cellInvalidate (.master .host) 5), (tPan fun d => setCell d 5 tCellWord), ({ (tPan fun d => setCell d 5 tCellWord) with dev := cellInvalidate (tPan fun d => setCell d 5 tCellWord).dev (.master .host) 5 }), by decide +kernel, rfl, .inr (.inl ⟨.master .host, 5, rfl⟩)⟩

/-- States and operands that meet the hypotheses of every clause of UplinkAndIngress. -/
theorem witness_UplinkAndIngress :
    (∃ (port p n i : Nat) (f : List Byte) (changed : List Nat) (s : State), s.dev.inReset = false ∧ port < 4 ∧ ethOff s.dev port = false ∧ ptpOffset f = none ∧ (ethParse f).etype = 0x86DD ∧ s.dev.fld HIF_MGMT_CFG_en = 0 ∧ ethPan s.dev port (ethParse f).tags = some p ∧ ((ethParse f).payload.take (40 + unbe (slice (ethParse f).payload 4 2))).length ≤ 1280 ∧ pbmUsed s.dev + ((ethParse f).payload.take (40 + unbe (slice (ethParse f).payload 4 2))).length ≤ pbmCap ∧ (ipDst ((ethParse f).payload.take (40 + unbe (slice (ethParse f).payload 4 2)))).take 8 = panPrefix s.dev p ∧ (addrLookup s.dev (iidKeys p ((ipDst ((ethParse f).payload.take (40 + unbe (slice (ethParse f).payload 4 2)))).drop 8)) changed).1 = some n ∧ s.dev.fld (FWD_PANp_POL_MODE_en p) = 0 ∧ freeTask s.dev 0x4000 0x2000 = some i) ∧
    (∃ (q i x : Nat) (e : QEntry) (l : List Nat) (full : List Nat) (s : State), s.dev.inReset = false ∧ s.dev.fwd.ptrUp < 128 ∧ q = qNum (s.dev.fwd.ptrUp / 8) 0 (s.dev.fwd.ptrUp % 8) ∧ qList s.dev q = i :: l ∧ Tab.find s.dev.fwd.entries i = some e ∧ e.queue = q ∧ i ∉ l ∧ upEligible s.dev full q = true ∧ e.length ≤ qDeficit s.dev q ∧ tunnelling s.dev = false ∧ ethPort s.dev e.pan = some x) ∧
    (∃ (nix tag : Nat) (r : Reasm) (s : State), s.dev.inReset = false ∧ reasmOf s.dev nix tag = some r ∧ pbmUsed s.dev + (r.frags.headD (0, [])).2.length ≤ pbmCap) ∧
    (∃ (q rate burst refill : Nat) (s : State), s.dev.inReset = false ∧ q < 256 ∧ qShaperCfg s.dev q = (rate, burst, refill) ∧ rate ≠ 0) ∧
    (∃ (n : Nat) (pr : Nat × Nat × Nat × Nat) (s : State), s.dev.inReset = false ∧ (validNodes s.dev).filter (fun k => decide (entryField s.dev 5 k 12 2 < 0x100)) = [n] ∧ entryField s.dev 5 n 12 2 < 0x100 ∧ profileOf s.dev (entryField s.dev 5 n 12 2) = some pr) :=
  ⟨⟨(0), (1), (9), (0x4000), (tFrame6), ([]), (tFwd id), by decide +kernel⟩,
    ⟨(0), (7), (0), ({ tEntry with up := true, cls := 0, out := false, pan := 1 }), ([]), ([]), (tFwd fun d => { d with fwd := { d.fwd with entries := [(7, { tEntry with up := true, cls := 0, out := false, pan := 1 })], queues := [(0, [7])], deficit := [(0, 9)] } }), by decide +kernel⟩,
    ⟨(9), (5), (⟨9, 5, 100, [(0, [1])], []⟩), (tFwd fun d => { d with fwd := { d.fwd with reasm := [⟨9, 5, 100, [(0, [1])], []⟩] } }), by decide +kernel⟩,
    ⟨(3), (0x01010101), (0x01010101), (0x01010101), (tFwd fun d => { d with bld := { d.bld with cfg := d.bld.cfg ++ [{ type := 0x11, inst := 0, body := List.replicate 512 1, src := none }] } }), by decide +kernel⟩,
    ⟨(9), ((0x01010101, 0x01010101, 0x01010101, 0x01010101)), (tFwd fun d => setEntry { d with bld := { d.bld with cfg := d.bld.cfg ++ [{ type := 0x11, inst := 0, body := List.replicate 512 1, src := none }] } } 0 9 [0, 0, 0, 0x90]), by decide +kernel⟩⟩

/-- States and operands that meet the hypotheses of every clause of BackhaulRecovery. -/
theorem witness_BackhaulRecovery :
    (∃ (port : Nat) (up : Bool) (s : State), s.dev.inReset = false ∧ port < 4) ∧
    (∃ (s : State), s.dev.inReset = false ∧ s.dev.fld FWD_STATUS_recov = rvNORMAL ∧ s.dev.fld TS_RECOV_active = 0) ∧
    (∃ (k p : Nat) (s : State), s.dev.inReset = false ∧ s.dev.fld FWD_STATUS_recov = rvWAITING ∧ s.dev.fld TS_RECOV_active = 0 ∧ backhaulLost s.dev = true ∧ (candidatesOf s.dev).head? = some k ∧ recovPort s.dev k = some p ∧ k < 16 ∧ p < 64) ∧
    (∃ (s : State), s.dev.inReset = false ∧ s.dev.fld FWD_STATUS_recov = rvJOINING) ∧
    (∃ (s : State), s.dev.inReset = false ∧ s.dev.fld FWD_STATUS_recov = rvJOINING) ∧
    (∃ (s : State), s.dev.inReset = false ∧ s.dev.fld FWD_STATUS_recov = rvRETURNING) ∧
    (∃ (s : State), s.dev.inReset = false) :=
  ⟨⟨(2), (true), (tFwd id), by decide +kernel⟩,
    ⟨(tFwd id), by decide +kernel⟩,
    ⟨(3), (2), (tRecov rvWAITING), by decide +kernel⟩,
    ⟨(tRecov rvJOINING), by decide +kernel⟩,
    ⟨(tRecov rvJOINING), by decide +kernel⟩,
    ⟨(tRecov rvRETURNING), by decide +kernel⟩,
    ⟨(tFwd fun d => { d.setReg FWD_CNT_UP 7 with fwd := { d.fwd with drops := [(0, (1, 2))] } }), by decide +kernel⟩⟩

/-- States and operands that meet the hypotheses of every clause of TimeBases. -/
theorem witness_TimeBases :
    (∃ (s : State), s.dev.inReset = false ∧ s.dev.tim.bases.length = 8 ∧ roleOf s.dev (s.dev.fld TIM_TB_SEL_tb) ≠ trMONOTONIC ∧ (roleOf s.dev (s.dev.fld TIM_TB_SEL_tb) ≠ trMESH ∨ s.dev.fld TS_CTRL_pan_run = 0)) ∧
    (∃ (s : State), s.dev.inReset = false ∧ s.dev.tim.bases.length = 8 ∧ roleOf s.dev (s.dev.fld TIM_TB_SEL_tb) = trMONOTONIC) ∧
    (∃ (w : Word64) (s : State), s.dev.inReset = false ∧ s.dev.tim.bases.length = 8 ∧ stepAllowed s.dev (s.dev.fld TIM_TB_SEL_tb) = true) ∧
    (∃ (w : Word) (s : State), s.dev.inReset = false ∧ s.dev.tim.bases.length = 8 ∧ (s.dev.tb (s.dev.fld TIM_TB_SEL_tb)).servoEn = false ∧ s.dev.tim.converge = none) ∧
    (∃ (wide : Bool) (w : Word64) (l : Nat) (s : State), s.dev.inReset = false ∧ s.dev.tim.bases.length = 8 ∧ (s.dev.tb (s.dev.fld TIM_TB_SEL_tb)).servoEn = true ∧ (s.dev.tb (s.dev.fld TIM_TB_SEL_tb)).lastSample = some l) ∧
    (∃ (l : Nat) (s : State), s.dev.inReset = false ∧ s.dev.tim.bases.length = 8 ∧ topOwnIndex s.dev.topo = 0 ∧ (s.dev.tb 3).servoEn = true ∧ (s.dev.tb 3).lastSample = some l) ∧
    (∃ (n k main check : Nat) (s : State), s.dev.inReset = false ∧ s.dev.tim.bases.length = 8 ∧ n < 8 ∧ (List.range 8).reverse.find? (fun j => j != n && roleOf s.dev j == trFREE && (s.dev.tb j).counter.isSome) = some k) :=
  ⟨⟨(tTime 1 id), by decide +kernel⟩,
    ⟨(tTime 4 fun b => { b with role := 4 }), by decide +kernel⟩,
    ⟨(65536), (tTime 1 fun b => { b with stepEn := true }), by decide +kernel⟩,
    ⟨(0x7FFFFFFF), (tTime 1 fun b => { b with servoEn := false }), by decide +kernel⟩,
    ⟨(true), (5), (3), (tTime 1 fun b => { b with servoEn := true, lastSample := some 3 }), by decide +kernel⟩,
    ⟨(3), (tTime 3 fun b => { b with servoEn := true, lastSample := some 3 }), by decide +kernel⟩,
    ⟨(1), (7), (5), (6), (tTime 1 id), by decide +kernel⟩⟩

/-- States and operands that meet the hypotheses of every clause of MeshTime. -/
theorem witness_MeshTime :
    (∃ (s : State), s.dev.inReset = false ∧ s.dev.tim.bases.length = 8 ∧ (∀ k, k < 5 → sourceValid s.dev k = false) ∧ s.dev.fld TS_RECOV_active = 0 ∧ s.dev.tim.neighbour = none ∧ meshSel s.dev = 7 ∧ (s.dev.tb 0).servoEn = true ∧ s.dev.tim.converge = none) ∧
    (∃ (k : Nat) (s : State), s.dev.inReset = false ∧ s.dev.fld TIM_CTRL_revert_en = 1 ∧ k < meshSel (updateSources s.dev) ∧ meshSel (updateSources s.dev) ≤ 4 ∧ sourceOk (updateSources s.dev) k = true ∧ ((updateSources s.dev).source k).since + s.dev.fld TIM_MESH_CFG_revert_s * 1000000000 ≤ s.dev.ns) ∧
    (∃ (s : State), s.dev.inReset = false ∧ s.dev.fld TIM_DOMAIN_VALID_a_ok = 1) ∧
    (∃ (h : Word64) (s : State), s.dev.inReset = false) ∧
    (∃ (p : Nat) (e : Word64) (s : State), s.dev.inReset = false ∧ p < 8 ∧ nbit (s.dev.fld TS_CTRL_pan_run) p = false) ∧
    (∃ (p : Nat) (e : Word64) (s : State), s.dev.inReset = false ∧ p < 8 ∧ nbit (s.dev.fld TS_CTRL_pan_run) p = true ∧ s.dev.tim.bases.length = 8) :=
  ⟨⟨(tDev fun d => (d.setTb 0 { d.tb 0 with servoEn := true, integral := 77 }).setFld TIM_STATUS_mesh_src 7), by decide +kernel⟩,
    ⟨(0), (tDev fun d => ((((d.setTb 1 { d.tb 1 with locked := true }).setBit TIM_DOMAIN_VALID_a_ok true).setBit TIM_CTRL_revert_en true).setFld TIM_STATUS_mesh_src 1).setFld TIM_MESH_CFG_src_en 31 |>.setFld TIM_MESH_CFG_revert_s 0), by decide +kernel⟩,
    ⟨(tDev fun d => d.setBit TIM_DOMAIN_VALID_a_ok true), by decide +kernel⟩,
    ⟨(0x1234567890), (tBase), by decide +kernel⟩,
    ⟨(1), (0x1234567890), (tBase), by decide +kernel⟩,
    ⟨(1), (5), (tPan id), by decide +kernel⟩⟩

/-- States and operands that meet the hypotheses of every clause of PpsAndClock. -/
theorem witness_PpsAndClock :
    (∃ (l : Nat) (s : State), s.dev.inReset = false ∧ s.dev.tim.pps.lastEdge = some l ∧ l + 1000000000 = s.dev.ns ∧ s.dev.fld TIM_STATUS_tod_valid = 0) ∧
    (∃ (s : State), s.dev.inReset = false ∧ s.dev.tim.pps.lastEdge = none) ∧
    (∃ (s : State), s.dev.inReset = false) ∧
    (∃ (l u : Nat) (b : List Byte) (s : State), s.dev.inReset = false ∧ isZda b = true ∧ zdaUtc b = some u ∧ s.dev.tim.pps.lastEdge = some l ∧ l + 100000000 ≤ s.dev.ns ∧ s.dev.ns ≤ l + 900000000 ∧ s.dev.tim.pps.todSec = none) ∧
    (∃ (b : List Byte) (s : State), s.dev.inReset = false ∧ isZda b = true ∧ zdaUtc b = none) ∧
    (∃ (s : State), s.dev.inReset = false) ∧
    (∃ (r : Bool) (s : State), s.dev.inReset = false ∧ s.dev.fld TIM_PPS_CFG_out_en = 1) ∧
    (∃ (ppb : Int) (s : State), s.dev.inReset = false ∧ meshValid s.dev = true) ∧
    (∃ (s : State), s.dev.fld KTL_RTC_ALARM_sec ≠ 0 ∧ s.dev.ktl.sec % 2 ^ 32 = s.dev.fld KTL_RTC_ALARM_sec) ∧
    (∃ (s : State), s.dev.inReset = false) :=
  ⟨⟨(0), (tDev fun d => (d.setTb 4 { d.tb 4 with sec := 1 }).setPps { d.tim.pps with lastEdge := some 0, good := 3 }), by decide +kernel⟩,
    ⟨(tBase), by decide +kernel⟩,
    ⟨(tDev fun d => d.setPps { d.tim.pps with good := 3 }), by decide +kernel⟩,
    ⟨(500000000), (77), (tZda 0x34), (tDev fun d => (d.setTb 4 { d.tb 4 with sec := 1 }).setPps { d.tim.pps with lastEdge := some 500000000, todCount := 1 }), by decide +kernel⟩,
    ⟨(tZda 0x35), (tBase), by decide +kernel⟩,
    ⟨(tDev fun d => d.setBit TIM_STATUS_tod_valid true), by decide +kernel⟩,
    ⟨(true), (tDev fun d => d.setBit TIM_PPS_CFG_out_en true), by decide +kernel⟩,
    ⟨(1600), (tDev fun d => d.setFld TIM_STATUS_mesh_src 0), by decide +kernel⟩,
    ⟨(tDev fun d => { d.setReg KTL_RTC_ALARM 9 with ktl := { d.ktl with sec := 9 } }), by decide +kernel⟩,
    ⟨(tTime 1 fun b => { b with refused := 3 }), by decide +kernel⟩⟩

/-- States and operands that meet the hypotheses of every clause of SecurityAnswers. -/
theorem witness_SecurityAnswers :
    (∃ (c : Instr) (k : Nat) (ms : List Nat) (w : Who) (arg : List Byte) (tam : Option Nat) (m : Nat) (s : State), s.dev.inReset = false ∧ (c, k, ms) ∈ secCommands w arg tam ∧ secMaster w = some m ∧ debugClosed s.fuses w = false ∧ m ∉ ms) ∧
    (∃ (c : Instr) (k : Nat) (ms : List Nat) (w : Who) (arg : List Byte) (tam : Option Nat) (m : Nat) (s : State), s.dev.inReset = false ∧ (c, k, ms) ∈ secCommands w arg tam ∧ secMaster w = some m ∧ m ∈ ms ∧ s.fuses.lc = 0 ∧ k ≠ 0x04 ∧ k ≠ 0x0E) ∧
    (∃ (c : Instr) (k : Nat) (ms : List Nat) (w : Who) (arg : List Byte) (tam : Option Nat) (m : Nat) (s : State), s.dev.inReset = false ∧ (c, k, ms) ∈ secCommands w arg tam ∧ secMaster w = some m ∧ m ∈ ms ∧ debugClosed s.fuses w = false ∧ s.fuses.lc ≠ 0 ∧ s.dev.stage < 2 ∧ k ≠ 0x02 ∧ k ≠ 0x10) ∧
    (∃ (c : Instr) (k : Nat) (ms : List Nat) (w : Who) (arg : List Byte) (tam : Option Nat) (m : Nat) (s : State), s.dev.inReset = false ∧ (c, k, ms) ∈ secCommands w arg tam ∧ secMaster w = some m ∧ m ∈ ms ∧ debugClosed s.fuses w = false ∧ s.fuses.lc ≠ 0 ∧ 2 ≤ s.dev.stage ∧ s.dev.vault.hold = true) ∧
    (∃ (c : Instr) (k : Nat) (ms : List Nat) (w : Who) (arg : List Byte) (src m : Nat) (s : State), Serving s ∧ (c, k, ms) ∈ secCommands w arg (some src) ∧ secMaster w = some m ∧ m ∈ ms ∧ debugClosed s.fuses w = false ∧ tamperEnabled s.fuses src = true ∧ nbit s.fuses.tamper src = false) ∧
    (∃ (c : Instr) (k : Nat) (ms : List Nat) (arg : List Byte) (tam : Option Nat) (s : State), (s.dev.inReset = false ∧ debugOpen s.fuses.lc = false) ∧ ((c, k, ms) ∈ secCommands (.master .debug) arg tam ∨ (∃ e cut, c = .envelope (.master .debug) e tam cut))) :=
  ⟨⟨(.random (.master .debug) (zeros 64) none), (14), ([28, 29]), (.master .debug), (zeros 64), (none), (32), ({ tBase with fuses := { tBase.fuses with lc := 4 } }), by decide +kernel⟩,
    ⟨(.quote (.cmd 4) (zeros 64) none), (2), ([31, 28, 29]), (.cmd 4), (zeros 64), (none), (31), ({ tBase with fuses := Fuses.blank }), by decide +kernel⟩,
    ⟨(.random (.master (.cc true)) (zeros 64) none), (14), ([28, 29]), (.master (.cc true)), (zeros 64), (none), (28), (tDev fun d => { d with stage := 1 }), by decide +kernel⟩,
    ⟨(.random (.master (.cc true)) (zeros 64) none), (14), ([28, 29]), (.master (.cc true)), (zeros 64), (none), (28), (tDev fun d => { d with vault := { d.vault with hold := true } }), by decide +kernel⟩,
    ⟨(.random (.master (.cc true)) (zeros 64) (some 1)), (14), ([28, 29]), (.master (.cc true)), (zeros 64), (1), (28), ({ tBase with fuses := { tBase.fuses with tamper := 0x200 } }), by decide +kernel⟩,
    ⟨(.random (.master .debug) (zeros 64) none), (14), ([28, 29]), (zeros 64), (none), (tBase), by decide +kernel, .inl (by decide +kernel)⟩⟩

/-- States and operands that meet the hypotheses of every clause of QuoteDeriveMeasure. -/
theorem witness_QuoteDeriveMeasure :
    (∃ (w : Who) (m : Nat) (arg : List Byte) (tam : Option Nat) (k : List Byte) (s : State), Serving s ∧ Calm s tam ∧ arg.length = 64 ∧ secMaster w = some m ∧ m ∈ [31, 28, 29] ∧ argsOk arg 32 = true ∧ s.dev.fld SEC_STATUS_trng_fail = 0 ∧ s.fuses.root = some k ∧ s.fuses.lc ≠ 5) ∧
    (∃ (arg : List Byte) (tam : Option Nat) (ikm : List Byte) (s : State), (Serving s ∧ Calm s tam ∧ arg.length = 64 ∧ field arg 1 1 = 1 ∧ field arg 2 1 ≠ 0 ∧ within (field arg 3 1) 16 64 = true ∧ within (field arg 8 1) 1 32 = true ∧ argsOk arg (9 + field arg 8 1) = true ∧ (slice arg 9 (field arg 8 1)).take 3 ≠ ascii "tm.") ∧ ((field arg 0 1 = 0xFF ∧ s.fuses.lc ≠ 5 ∧ s.fuses.root = some ikm) ∨ (field arg 0 1 ≤ 127 ∧ useSlot s.fuses s.dev (field arg 0 1) 40 4 (some 28) none = (scOK, ikm, s.dev)))) ∧
    (∃ (r : Nat) (arg : List Byte) (tam : Option Nat) (ikm signer : List Byte) (have_ : Nat) (s : State), (Serving s ∧ Calm s tam ∧ arg.length = 64 ∧ field arg 1 1 = 2 ∧ r < 2 ∧ field arg 2 1 = r + 1 ∧ within (field arg 3 1) 16 64 = true ∧ within (field arg 8 1) 1 32 = true ∧ argsOk arg (9 + field arg 8 1) = true ∧ (slice arg 9 (field arg 8 1)).take 3 ≠ ascii "tm." ∧ Tab.find s.dev.vault.lineage r = some (signer, have_)) ∧ ((field arg 0 1 = 0xFF ∧ s.fuses.lc ≠ 5 ∧ s.fuses.root = some ikm) ∨ (field arg 0 1 ≤ 127 ∧ useSlot s.fuses s.dev (field arg 0 1) 40 4 (some 28) none = (scOK, ikm, s.dev)))) ∧
    (∃ (i : Nat) (arg : List Byte) (tam : Option Nat) (s : State), Serving s ∧ Calm s tam ∧ arg.length = 64 ∧ argsOk arg 49 = true ∧ field arg 0 1 = i ∧ 6 ≤ i ∧ i ≤ 7) ∧
    (∃ (b : Bool) (arg : List Byte) (tam : Option Nat) (s : State), Serving s ∧ Calm s tam ∧ arg.length = 64 ∧ argsOk arg 1 = true ∧ within (field arg 0 1) 1 128 = true ∧ s.dev.fld SEC_STATUS_trng_fail = 0) ∧
    (∃ (arg : List Byte) (tam : Option Nat) (s : State), Serving s ∧ Calm s tam ∧ arg.length = 64 ∧ argsOk arg 17 = true) ∧
    (∃ (w : Who) (m i k : Nat) (arg : List Byte) (tam : Option Nat) (s : State), Serving s ∧ Calm s tam ∧ arg.length = 64 ∧ secMaster w = some m ∧ m ∈ [28, 31] ∧ argsOk arg 1 = true ∧ field arg 0 1 = i ∧ i ≤ 127 ∧ slotState s.fuses s.dev i = 4 ∧ (List.range 8).find? (fun k => !(s.dev.vault.remap.any fun e => e.2 == k) && !(s.dev.res.log.any fun r => r.kind == 8 && r.replacement == k)) = some k) :=
  ⟨⟨(.master (.cc false)), (29), (List.replicate 32 7 ++ zeros 32), (none), ([1, 2]), ({ tBase with fuses := { tBase.fuses with root := some [1, 2] } }), by decide +kernel⟩,
    ⟨([0xFF, 1, 3, 64, 0, 0, 0, 0, 2, 65, 66] ++ zeros 53), (none), ([1, 2]), ({ tBase with fuses := { tBase.fuses with root := some [1, 2] } }), by decide +kernel, .inl (by decide +kernel)⟩,
    ⟨(1), ([0xFF, 2, 2, 16, 5, 0, 0, 0, 1, 65] ++ zeros 54), (none), ([1, 2]), ([9]), (4), ({ tDev (fun d => { d with vault := { d.vault with lineage := [(1, [9], 4)] } }) with fuses := { tBase.fuses with root := some [1, 2] } }), by decide +kernel, .inl (by decide +kernel)⟩,
    ⟨(7), ([7, 1, 2] ++ zeros 61), (some 3), (tBase), by decide +kernel⟩,
    ⟨(false), ([128] ++ zeros 63), (none), (tBase), by decide +kernel⟩,
    ⟨(List.replicate 17 7 ++ zeros 47), (none), (tRecov 3), by decide +kernel⟩,
    ⟨(.cmd 3), (31), (5), (0), ([5] ++ zeros 63), (none), (tDev fun d => { d with vault := { d.vault with slots := [(5, ⟨[1], 0, [], true, false⟩)] } }), by decide +kernel⟩⟩

/-- States and operands that meet the hypotheses of every clause of KeksAndNodeKeys. -/
theorem witness_KeksAndNodeKeys :
    (∃ (p sl : Nat) (arg : List Byte) (tam : Option Nat) (k : List Byte) (x : Slot) (s : State), (Serving s ∧ Calm s tam ∧ arg.length = 64 ∧ argsOk arg 2 = true ∧ field arg 0 1 = p ∧ p < 8 ∧ field arg 1 1 = sl ∧ sl ≤ 127 ∧ Tab.find s.dev.vault.walks p = none ∧ x.kekInvalid = false ∧ nbit x.attr 55 = true) ∧ useKek s.fuses s.dev 28 p sl = (scOK, k, s.dev) ∧ s.dev.slot sl = some x) ∧
    (∃ (p n : Nat) (s : State), s.dev.inReset = false ∧ p < 8 ∧ Tab.find s.dev.vault.walks p = some n) ∧
    (∃ (w : Who) (m p sl : Nat) (arg : List Byte) (tam : Option Nat) (s : State), Serving s ∧ Calm s tam ∧ arg.length = 64 ∧ secMaster w = some m ∧ m ∈ [28, 31] ∧ argsOk arg 2 = true ∧ field arg 0 1 = p ∧ p < 8 ∧ field arg 1 1 = sl ∧ sl ≤ 127 ∧ (kekActive s.dev p = some sl ∨ kekRetiring s.dev p = some sl)) ∧
    (∃ (p : Nat) (arg : List Byte) (tam : Option Nat) (s : State), Serving s ∧ Calm s tam ∧ arg.length = 64 ∧ argsOk arg 1 = true ∧ field arg 0 1 = p ∧ p < 8) ∧
    (∃ (n sl : Nat) (arg : List Byte) (tam : Option Nat) (k : List Byte) (s : State), (Serving s ∧ Calm s tam ∧ arg.length = 64 ∧ argsOk arg 6 = true ∧ field arg 0 4 = n ∧ nodeValid s.dev n = true ∧ s.dev.fld SEC_STATUS_trng_fail = 0 ∧ kekActive s.dev (nodePan s.dev n) = some sl) ∧ useKek s.fuses s.dev 28 (nodePan s.dev n) sl = (scOK, k, s.dev)) ∧
    (∃ (n j r : Nat) (arg pt : List Byte) (tam : Option Nat) (d : Dev) (s : State), (Serving s ∧ Calm s tam ∧ arg.length = 64 ∧ argsOk arg 6 = true ∧ field arg 0 4 = n ∧ nodeValid s.dev n = true ∧ field arg 4 1 = j ∧ j ≤ 1 ∧ nodeTxKey s.dev n ≠ j) ∧ unwrapNode s.fuses s.dev 28 (nodePan s.dev n) n = (r, pt, d)) ∧
    (∃ (n j r : Nat) (arg pt : List Byte) (tam : Option Nat) (d : Dev) (s : State), (Serving s ∧ Calm s tam ∧ arg.length = 64 ∧ argsOk arg 5 = true ∧ field arg 0 4 = n ∧ nodeValid s.dev n = true ∧ field arg 4 1 = j ∧ j ≤ 1) ∧ unwrapNode s.fuses s.dev 28 (nodePan s.dev n) n = (r, pt, d)) ∧
    (∃ (n i r : Nat) (arg k pt : List Byte) (tam : Option Nat) (d : Dev) (s : State), (Serving s ∧ Calm s tam ∧ arg.length = 64 ∧ argsOk arg 5 = true ∧ field arg 0 4 = n ∧ nodeValid s.dev n = true ∧ field arg 4 1 = i ∧ i ≤ 127) ∧ useSlot s.fuses s.dev i 46 2 (some 28) (some (nodePan s.dev n)) = (scOK, k, s.dev) ∧ unwrapNode s.fuses s.dev 28 (nodePan s.dev n) n = (r, pt, d)) ∧
    (∃ (n i sl : Nat) (arg k k' : List Byte) (tam : Option Nat) (s : State), (Serving s ∧ Calm s tam ∧ arg.length = 64 ∧ argsOk arg 40 = true ∧ field arg 0 4 = n ∧ nodeValid s.dev n = true ∧ field arg 4 1 = i ∧ i ≤ 127 ∧ field arg 5 3 = 0 ∧ kekActive s.dev (nodePan s.dev n) = some sl) ∧ useSlot s.fuses s.dev i 46 2 (some 28) (some (nodePan s.dev n)) = (scOK, k, s.dev) ∧ useKek s.fuses s.dev 28 (nodePan s.dev n) sl = (scOK, k', s.dev)) :=
  ⟨⟨(2), (5), ([2, 5] ++ zeros 62), (none), (zeros 32), (tKek), (tKeys), by decide +kernel, tKeys_kek, rfl⟩,
    ⟨(2), (7), (tDev fun d => { d with vault := { d.vault with walks := [(2, 7)] } }), by decide +kernel⟩,
    ⟨(.master (.cc true)), (28), (2), (5), ([2, 5] ++ zeros 62), (none), (tDev fun d => d.setFld (SEC_PANp_KEK_active 2) 5), by decide +kernel⟩,
    ⟨(2), ([2] ++ zeros 63), (none), (tDev fun d => d.setBit (SEC_PANp_KEK_invalid_pending 2) true), by decide +kernel⟩,
    ⟨(9), (5), ([9, 0, 0, 0, 3, 4] ++ zeros 58), (none), (zeros 32), (tKeys), by decide +kernel, tKeys_kek⟩,
    ⟨(9), (1), ((unwrapNode tKeys.fuses tKeys.dev 28 2 9).1), ([9, 0, 0, 0, 1, 4] ++ zeros 58), ((unwrapNode tKeys.fuses tKeys.dev 28 2 9).2.1), (none), ((unwrapNode tKeys.fuses tKeys.dev 28 2 9).2.2), (tKeys), by decide +kernel, rfl⟩,
    ⟨(9), (0), ((unwrapNode tKeys.fuses tKeys.dev 28 2 9).1), ([9] ++ zeros 63), ((unwrapNode tKeys.fuses tKeys.dev 28 2 9).2.1), (none), ((unwrapNode tKeys.fuses tKeys.dev 28 2 9).2.2), (tKeys), by decide +kernel, rfl⟩,
    ⟨(9), (5), ((unwrapNode tKeys.fuses tKeys.dev 28 2 9).1), ([9, 0, 0, 0, 5] ++ zeros 59), (zeros 32), ((unwrapNode tKeys.fuses tKeys.dev 28 2 9).2.1), (none), ((unwrapNode tKeys.fuses tKeys.dev 28 2 9).2.2), (tKeys), by decide +kernel, tKeys_xfer, rfl⟩,
    ⟨(9), (5), (5), ([9, 0, 0, 0, 5] ++ zeros 59), (zeros 32), (zeros 32), (none), (tKeys), by decide +kernel, tKeys_xfer, tKeys_kek⟩⟩

/-- States and operands that meet the hypotheses of every clause of EnvelopesAndLifeCycle. -/
theorem witness_EnvelopesAndLifeCycle :
    (∃ (w : Who) (m : Nat) (e : List Byte) (tam : Option Nat) (cut : Bool) (s : State), s.dev.inReset = false ∧ s.fuses.lc ≠ 0 ∧ Calm s tam ∧ secMaster w = some m ∧ debugClosed s.fuses w = false ∧ (evCheck s.fuses s.dev e).1 ≠ scOK) ∧
    (∃ (w : Who) (m : Nat) (e : List Byte) (tam : Option Nat) (s : State), s.dev.inReset = false ∧ s.fuses.lc ≠ 0 ∧ Calm s tam ∧ secMaster w = some m ∧ debugClosed s.fuses w = false) ∧
    (∃ (w : Who) (m : Nat) (arg : List Byte) (tam : Option Nat) (s : State), s.dev.inReset = false ∧ s.dev.vault.hold = false ∧ Calm s tam ∧ arg.length = 64 ∧ secMaster w = some m ∧ m ∈ [32, 31] ∧ argsOk arg 49 = true ∧ s.fuses.lc = 1 ∧ s.fuses.owners.length < 4) ∧
    (∃ (w : Who) (m : Nat) (arg : List Byte) (tam : Option Nat) (cut : Bool) (s : State), Serving s ∧ Calm s tam ∧ arg.length = 64 ∧ secMaster w = some m ∧ m ∈ [32, 31] ∧ argsOk arg 49 = true ∧ debugClosed s.fuses w = false ∧ s.fuses.lc ≠ 1) ∧
    (∃ (lock eui cert : List Byte) (policy : Nat) (subsys : Option (Nat × Nat)) (s : State), s.dev.inReset = false ∧ s.dev.vault.hold = false ∧ s.fuses.lc = 0 ∧ s.dev.fld SEC_STATUS_trng_fail = 0) ∧
    (∃ (lock eui cert : List Byte) (policy : Nat) (subsys : Option (Nat × Nat)) (s : State), s.dev.inReset = false ∧ s.dev.vault.hold = false ∧ s.fuses.lc = 4) ∧
    (∃ (lock eui cert : List Byte) (policy : Nat) (subsys : Option (Nat × Nat)) (s : State), s.dev.inReset = false ∧ s.dev.vault.hold = false ∧ s.fuses.lc = 4) ∧
    (∃ (target policy : Nat) (lock eui cert : List Byte) (subsys : Option (Nat × Nat)) (cut : Bool) (s : State), s.dev.inReset = false ∧ (debugOpen s.fuses.lc = false ∨ s.dev.vault.hold = false) ∧ (¬ (s.fuses.lc = 0 ∧ target = 1)) ∧ (¬ (s.fuses.lc = 4 ∧ target = 5))) ∧
    (∃ (s : State), s.dev.inReset = false ∧ debugOpen s.fuses.lc = false) ∧
    (∃ (c : Seal) (s : State), s.dev.inReset = false ∧ s.dev.vault.sealing = some c) ∧
    (∃ (p : Nat) (c : Seal) (s : State), s.dev.inReset = false ∧ p < 8 ∧ s.dev.vault.sealing = some c ∧ (Tab.getD s.dev.vault.ceilings p (0, 0)).2 < (c.ceilings[p]?).getD 0) ∧
    (∃ (c : Seal) (s : State), s.dev.inReset = false ∧ s.dev.vault.sealing = some c) :=
  ⟨⟨(.cmd 3), (31), ([]), (none), (false), (tBase), by decide +kernel⟩,
    ⟨(.master (.cc true)), (28), ([1]), (none), (tBase), by decide +kernel⟩,
    ⟨(.master .debug), (32), (List.replicate 49 3 ++ zeros 15), (none), ({ tBase with fuses := { tBase.fuses with lc := 1 } }), by decide +kernel⟩,
    ⟨(.cmd 2), (31), (List.replicate 49 3 ++ zeros 15), (none), (true), (tBase), by decide +kernel⟩,
    ⟨([1]), ([2]), ([3]), (0x300), (some (5, 6)), ({ tBase with fuses := Fuses.blank }), by decide +kernel⟩,
    ⟨([]), ([]), ([]), (0), (none), ({ tBase with fuses := { tBase.fuses with lc := 4 } }), by decide +kernel⟩,
    ⟨([]), ([]), ([]), (0), (none), ({ tBase with fuses := { tBase.fuses with lc := 4 } }), by decide +kernel⟩,
    ⟨(3), (0), ([]), ([]), ([]), (none), (true), (tBase), by decide +kernel⟩,
    ⟨(tBase), by decide +kernel⟩,
    ⟨(⟨1, [], 5, 1, [7]⟩), (tDev fun d => { d with vault := { d.vault with sealing := some ⟨1, [], 5, 1, [7]⟩ } }), by decide +kernel⟩,
    ⟨(0), (⟨1, [], 5, 1, [7]⟩), (tDev fun d => { d with vault := { d.vault with sealing := some ⟨1, [], 5, 1, [7]⟩ } }), by decide +kernel⟩,
    ⟨(⟨1, [], 5, 1, [7]⟩), (tDev fun d => { d with vault := { d.vault with sealing := some ⟨1, [], 5, 1, [7]⟩ } }), by decide +kernel⟩⟩

/-- States and operands that meet the hypotheses of every clause of FrameSecurityAndRandom. -/
theorem witness_FrameSecurityAndRandom :
    (∃ (e b w : Nat) (h : MacHdr) (s : State), s.dev.inReset = false ∧ s.dev.vault.hold = false ∧ Tab.find s.dev.rx.hdrs b = some h) ∧
    (∃ (e b w : Nat) (s : State), s.dev.inReset = false ∧ s.dev.vault.hold = false ∧ Tab.find s.dev.rx.hdrs b = none) ∧
    (∃ (e b w : Nat) (s : State), s.dev.inReset = false ∧ s.dev.vault.hold = false ∧ Tab.find s.dev.rx.hdrs b = none) ∧
    (∃ (e b w j r : Nat) (k : List Byte) (d : Dev) (h : MacHdr) (s : State), (s.dev.inReset = false ∧ s.dev.vault.hold = false ∧ Tab.find s.dev.rx.hdrs b = some h ∧ h.counter.isSome = true ∧ h.keyMode = 1 ∧ levelOk s.dev (nbits w 22 20) h.level = true ∧ keyNumber s.dev (w % 2 ^ 20) h.keyIndex = some j) ∧ obtainKey s.fuses (s.dev.setFsu e { s.dev.fsu e with buf := b, node := w }) (e / 16) j (w % 2 ^ 20) (nbits w 22 20) = (r, k, d)) ∧
    (∃ (e b w fc r : Nat) (k : List Byte) (d : Dev) (s : State), (s.dev.inReset = false ∧ s.dev.vault.hold = false) ∧ obtainKey s.fuses (s.dev.setFsu e { s.dev.fsu e with buf := b, node := w, fc := fc }) (e / 16) (nbits w 24 24) (w % 2 ^ 20) (nbits w 22 20) = (r, k, d)) ∧
    (∃ (c : Instr) (e b w fc : Nat) (s : State), s.dev.inReset = false ∧ s.dev.vault.hold = true ∧ (c = .fsuParse e b w ∨ c = .fsuVerify e b w ∨ c = .fsuSecure e b w fc)) ∧
    (∃ (s : State), s.dev.inReset = false) ∧
    (∃ (pass : Bool) (s : State), s.dev.inReset = false ∧ s.dev.fld SEC_STATUS_trng_fail = 1) ∧
    (∃ (s : State), s.dev.inReset = false) ∧
    (∃ (s : State), s.dev.inReset = false) :=
  ⟨⟨(17), (4), (9), (tSecHdr), (tDev fun d => { d with rx := { d.rx with hdrs := [(4, tSecHdr)] } }), by decide +kernel⟩,
    ⟨(17), (4), (9), (tBase), by decide +kernel⟩,
    ⟨(17), (4), (9), (tBase), by decide +kernel⟩,
    ⟨(17), (4), (9), (0), ((obtainKey (tFsu 5).fuses ((tFsu 5).dev.setFsu 17 { (tFsu 5).dev.fsu 17 with buf := 4, node := 9 }) 1 0 9 0).1), ((obtainKey (tFsu 5).fuses ((tFsu 5).dev.setFsu 17 { (tFsu 5).dev.fsu 17 with buf := 4, node := 9 }) 1 0 9 0).2.1), ((obtainKey (tFsu 5).fuses ((tFsu 5).dev.setFsu 17 { (tFsu 5).dev.fsu 17 with buf := 4, node := 9 }) 1 0 9 0).2.2), (tSecHdr), (tFsu 5), by decide +kernel, rfl⟩,
    ⟨(17), (4), (9), (5), ((obtainKey (tFsu 5).fuses ((tFsu 5).dev.setFsu 17 { (tFsu 5).dev.fsu 17 with buf := 4, node := 9, fc := 5 }) 1 0 9 0).1), ((obtainKey (tFsu 5).fuses ((tFsu 5).dev.setFsu 17 { (tFsu 5).dev.fsu 17 with buf := 4, node := 9, fc := 5 }) 1 0 9 0).2.1), ((obtainKey (tFsu 5).fuses ((tFsu 5).dev.setFsu 17 { (tFsu 5).dev.fsu 17 with buf := 4, node := 9, fc := 5 }) 1 0 9 0).2.2), (tFsu 5), by decide +kernel, rfl⟩,
    ⟨(.fsuSecure 17 4 9 5), (17), (4), (9), (5), (tDev fun d => { d with vault := { d.vault with hold := true } }), by decide +kernel⟩,
    ⟨(tBase), by decide +kernel⟩,
    ⟨(true), (tDev fun d => ({ d with vault := { d.vault with passes := 2 } }).setBit SEC_STATUS_trng_fail true), by decide +kernel⟩,
    ⟨(tBase), by decide +kernel⟩,
    ⟨(tDev fun d => d.setReg SEC_CNT_KEY 5), by decide +kernel⟩⟩

/-- States and operands that meet the hypotheses of every clause of Campaigns. -/
theorem witness_Campaigns :
    (∃ (w : Who) (desc b img : List Byte) (buf : Option Nat) (host : Option (List Byte)) (sp : Nat) (s : State), s.dev.inReset = false ∧ 3 ≤ s.dev.stage ∧ createDesc s.dev w desc = b ∧ descOk s.dev b = true ∧ s.dev.camp (cdCnum b) = none ∧ s.dev.cmp.camps.length < 16 ∧ spoolFit s.dev (blocksOf (cdLen b)) = some sp ∧ campTooLong s.dev b = false ∧ buf.elim host (fun h => some (bufGet s.dev h)) = some img) ∧
    (∃ (c : Instr) (w : Who) (n : Nat) (desc : List Byte) (buf : Option Nat) (host : Option (List Byte)) (ok cut : Bool) (s : State), s.dev.inReset = false ∧ s.dev.stage < 3 ∧ c ∈ [.create w desc buf host ok cut, .start w n, .pause w n, .resume w n, .cancel w n, .delete w n]) ∧
    (∃ (c : Instr) (w : Who) (n : Nat) (s : State), s.dev.inReset = false ∧ 3 ≤ s.dev.stage ∧ s.dev.camp n = none ∧ c ∈ [.start w n, .pause w n, .resume w n, .cancel w n, .delete w n]) ∧
    (∃ (c : Instr) (states : List Nat) (w : Who) (n : Nat) (x : Camp) (s : State), s.dev.inReset = false ∧ 3 ≤ s.dev.stage ∧ s.dev.camp n = some x ∧ (c, states) ∈ [(.start w n, [cpREADY]), (.pause w n, [cpRUNNING]), (.resume w n, [cpPAUSED]), (.cancel w n, [cpREADY, cpRUNNING, cpPAUSED]), (.delete w n, [cpREADY, cpDONE, cpCANCELLED, cpEXHAUSTED])] ∧ x.state ∉ states) ∧
    (∃ (w : Who) (n : Nat) (c : Camp) (x : CampFlash) (s : State), s.dev.inReset = false ∧ 3 ≤ s.dev.stage ∧ s.dev.camp n = some c ∧ c.state = cpREADY ∧ Tab.find s.dev.cmp.flash n = some x) ∧
    (∃ (w : Who) (n : Nat) (c : Camp) (x : CampFlash) (s : State), s.dev.inReset = false ∧ 3 ≤ s.dev.stage ∧ s.dev.camp n = some c ∧ c.state = cpPAUSED ∧ Tab.find s.dev.cmp.flash n = some x) ∧
    (∃ (w : Who) (n : Nat) (c : Camp) (x : CampFlash) (s : State), s.dev.inReset = false ∧ 3 ≤ s.dev.stage ∧ s.dev.camp n = some c ∧ c.state = cpRUNNING ∧ Tab.find s.dev.cmp.flash n = some x) ∧
    (∃ (w : Who) (n : Nat) (c : Camp) (x : CampFlash) (s : State), s.dev.inReset = false ∧ 3 ≤ s.dev.stage ∧ s.dev.camp n = some c ∧ c.state ∈ [cpREADY, cpRUNNING, cpPAUSED] ∧ Tab.find s.dev.cmp.flash n = some x) ∧
    (∃ (w : Who) (n : Nat) (c : Camp) (s : State), s.dev.inReset = false ∧ 3 ≤ s.dev.stage ∧ s.dev.camp n = some c ∧ c.state ∈ [cpREADY, cpDONE, cpCANCELLED, cpEXHAUSTED]) ∧
    (∃ (n : Nat) (c : Camp) (s : State), s.dev.inReset = false ∧ s.dev.camp n = some c ∧ c.state = cpRUNNING ∧ cdWhistle c.desc ≠ 0 ∧ c.session = none) ∧
    (∃ (n : Nat) (c : Camp) (s : State), s.dev.inReset = false ∧ s.dev.cmp.camps = [(n, c)] ∧ c.state ∈ [cpRUNNING, cpPAUSED] ∧ campNodes s.dev n [1, 2, 3, 4, 5] ≠ 0 ∧ campNodes s.dev n [3, 4, 5] = campNodes s.dev n [1, 2, 3, 4, 5]) ∧
    (∃ (n : Nat) (c : Camp) (s : State), s.dev.inReset = false ∧ s.dev.cmp.camps = [(n, c)] ∧ (c.state ∉ [cpRUNNING, cpPAUSED] ∨ campNodes s.dev n [1, 2, 3, 4, 5] = 0 ∨ campNodes s.dev n [3, 4, 5] ≠ campNodes s.dev n [1, 2, 3, 4, 5])) ∧
    (∃ (n : Nat) (x : CampFlash) (s : State), s.dev.inReset = false ∧ Tab.find s.dev.cmp.flash n = some x) ∧
    (∃ (s : State), s.dev.inReset = false) :=
  ⟨⟨(.cmd 4), (tCampDesc), (tCampDesc), ([5, 6]), (none), (some [5, 6]), (0), (tPan fun d => { d with bld := { d.bld with cfg := d.bld.cfg ++ [{ type := 3, inst := 0xFFFF, body := [0, 0, 0, 0, 8, 0, 0, 0, 0xFF, 7] ++ zeros 22, src := none }] } }), by decide +kernel⟩,
    ⟨(.start (.cmd 1) 7), (.cmd 1), (7), ([]), (none), (none), (true), (false), (tDev fun d => { d with stage := 2 }), by decide +kernel⟩,
    ⟨(.pause (.master .host) 7), (.master .host), (7), (tBase), by decide +kernel⟩,
    ⟨(.delete (.cmd 4) 7), ([cpREADY, cpDONE, cpCANCELLED, cpEXHAUSTED]), (.cmd 4), (7), ({ tCamp with state := cpPAUSED }), (tCampaign cpPAUSED), by decide +kernel⟩,
    ⟨(.master (.cc false)), (7), ({ tCamp with state := cpREADY }), (tCampFlash cpREADY), (tCampaign cpREADY), by decide +kernel⟩,
    ⟨(.cmd 4), (7), ({ tCamp with state := cpPAUSED }), (tCampFlash cpPAUSED), (tCampaign cpPAUSED), by decide +kernel⟩,
    ⟨(.cmd 4), (7), ({ tCamp with state := cpRUNNING }), (tCampFlash cpRUNNING), (tCampaign cpRUNNING), by decide +kernel⟩,
    ⟨(.cmd 4), (7), ({ tCamp with state := cpPAUSED }), (tCampFlash cpPAUSED), (tCampaign cpPAUSED), by decide +kernel⟩,
    ⟨(.master .host), (7), ({ tCamp with state := cpDONE }), (tCampaign cpDONE), by decide +kernel⟩,
    ⟨(7), ({ tCamp with state := cpRUNNING, desc := [7, 1, 0, 2] ++ tCampDesc.drop 4 }), (tDev fun d => d.setCamp 7 { tCamp with state := cpRUNNING, desc := [7, 1, 0, 2] ++ tCampDesc.drop 4 }), by decide +kernel⟩,
    ⟨(7), ({ tCamp with state := cpRUNNING }), ({ tCampaign cpRUNNING with dev := setEntryField (setEntryField (setEntryField (tCampaign cpRUNNING).dev 0 9 0 4 (2 ^ 31)) 0 9 0x35 1 7) 0 9 0x38 1 3 }), by decide +kernel⟩,
    ⟨(7), ({ tCamp with state := cpRUNNING }), (tCampaign cpRUNNING), by decide +kernel⟩,
    ⟨(7), (tCampFlash cpREADY), (tCampaign cpREADY), by decide +kernel⟩,
    ⟨(tDev fun d => d.setReg CMP_CNT_SENT 5), by decide +kernel⟩⟩

/-- States and operands that meet the hypotheses of every clause of Updating. -/
theorem witness_Updating :
    (∃ (w : Who) (len : Nat) (s : State), s.dev.inReset = false ∧ s.dev.boot.run = none ∧ updStage s.dev = true ∧ within len 352 (areaSize s.dev 3) = true) ∧
    (∃ (w : Who) (len : Nat) (s : State), s.dev.inReset = false ∧ s.dev.boot.run = none ∧ updStage s.dev = true ∧ within len 352 (areaSize s.dev 3) = true) ∧
    (∃ (w : Who) (off len total : Nat) (data : List Byte) (s : State), s.dev.inReset = false ∧ s.dev.boot.run = none ∧ updStage s.dev = true ∧ s.dev.boot.open_ = true ∧ s.dev.boot.download = some (total, off) ∧ within len 1 1048576 = true ∧ off + len ≤ total ∧ (len % 65536 = 0 ∨ off + len = total)) ∧
    (∃ (w : Who) (off len total at_ : Nat) (buf : Option Nat) (data : List Byte) (stall : Option Nat) (s : State), s.dev.inReset = false ∧ s.dev.boot.run = none ∧ updStage s.dev = true ∧ s.dev.boot.open_ = true ∧ s.dev.boot.download = some (total, at_) ∧ off ≠ at_ ∧ at_ < 2 ^ 32) ∧
    (∃ (w : Who) (s : State), s.dev.inReset = false ∧ s.dev.boot.run = none ∧ updStage s.dev = true ∧ s.dev.vault.hold = false) ∧
    (∃ (w : Who) (s : State), s.dev.inReset = false ∧ s.dev.boot.run = none ∧ updStage s.dev = true ∧ s.dev.fld BOOT_STATUS_staged_ok = 1 ∧ (confNow s.dev).state ≠ cfTRIAL ∧ s.dev.boot.act = none ∧ ConfSlots s.dev ∧ bnLen (bundleArea s.dev 1) = (bundleArea s.dev 1).length ∧ bundleArea s.dev 1 ≠ []) ∧
    (∃ (w : Who) (s : State), s.dev.inReset = false ∧ s.dev.boot.run = none ∧ s.dev.stage = 3 ∧ (confNow s.dev).state = cfTRIAL ∧ ConfSlots s.dev ∧ s.fuses.rollback ≤ 64 ∧ s.dev.bld.svn < 2 ^ 32) ∧
    (∃ (w : Who) (s : State), s.dev.inReset = false ∧ s.dev.boot.run = none ∧ updStage s.dev = true ∧ s.dev.boot.open_ = true) ∧
    (∃ (w : Who) (x : BootRun) (s : State), s.dev.inReset = false ∧ s.dev.boot.run = some x ∧ x.code = 4 ∧ (isMaster w && s.dev.bit BOOT_CMD_STATUS_busy) = false) ∧
    (∃ (w : Who) (ccA trng : Bool) (s : State), s.dev.inReset = false ∧ s.dev.boot.run = none) ∧
    (∃ (j len : Nat) (x : BootRun) (c : Instr) (off : Nat) (data : List Byte) (buf : Option Nat) (stall : Option Nat) (restart : Bool) (s : State), s.dev.inReset = false ∧ s.dev.boot.run = some x ∧ c ∈ [.updBegin (.cmd j) len false, .updWrite (.cmd j) off len buf data stall, .updVerify (.cmd j), .updActivate (.cmd j) restart stall, .restart (.cmd j) true true]) ∧
    (∃ (x : BootRun) (s : State), s.dev.inReset = false ∧ s.dev.boot.run = some x ∧ x.code ≠ 4) ∧
    (∃ (w : Who) (len : Nat) (s : State), s.dev.inReset = false ∧ s.dev.boot.run = some ⟨w, 1, [len], [], 0⟩) ∧
    (∃ (x : BootRun) (s : State), s.dev.inReset = false ∧ s.dev.boot.run = some x ∧ x.code ≠ 4) ∧
    (∃ (w : Who) (len : Nat) (s : State), s.dev.inReset = false ∧ s.dev.boot.run = some ⟨w, 1, [len], [], 0⟩) ∧
    (∃ (x : BootRun) (s : State), s.dev.inReset = false ∧ s.dev.boot.run = some x ∧ (x.code = 2 ∨ x.code = 8)) :=
  ⟨⟨(.master (.cc false)), (1000), (tBase), by decide +kernel⟩,
    ⟨(.master .host), (352), (tBase), by decide +kernel⟩,
    ⟨(.cmd 3), (65536), (10), (65546), ([1, 2]), (tDev fun d => { d with boot := { d.boot with open_ := true, download := some (65546, 65536) } }), by decide +kernel⟩,
    ⟨(.master .host), (0), (10), (65546), (65536), (none), ([1, 2]), (none), (tDev fun d => { d with boot := { d.boot with open_ := true, download := some (65546, 65536) } }), by decide +kernel⟩,
    ⟨(.master (.cc true)), (tBase), by decide +kernel⟩,
    ⟨(.master (.cc true)), (tDev fun d => setArea (d.setBit BOOT_STATUS_staged_ok true) 1 (zeros 8 ++ le 4 400 ++ List.replicate 388 7)), by decide +kernel⟩,
    ⟨(.cmd 2), (tDev fun d => writeConf d ⟨0, cfTRIAL, 1, 5, 0, 0, 9, 8, [], []⟩), by decide +kernel⟩,
    ⟨(.master .host), (tDev fun d => { d with boot := { d.boot with open_ := true, download := some (65546, 65536) } }), by decide +kernel⟩,
    ⟨(.master .host), (⟨.cmd 1, 4, [], [], 0⟩), (tDev fun d => { d with boot := { d.boot with run := some ⟨.cmd 1, 4, [], [], 0⟩ } }), by decide +kernel⟩,
    ⟨(.master .host), (true), (true), (tBase), by decide +kernel⟩,
    ⟨(3), (400), (⟨.cmd 1, 4, [], [], 0⟩), (.updVerify (.cmd 3)), (0), ([]), (none), (none), (false), (tDev fun d => { d with boot := { d.boot with run := some ⟨.cmd 1, 4, [], [], 0⟩ } }), by decide +kernel⟩,
    ⟨(⟨.cmd 1, 2, [0], [5], 0⟩), (tDev fun d => { d with boot := { d.boot with run := some ⟨.cmd 1, 2, [0], [5], 0⟩ } }), by decide +kernel⟩,
    ⟨(.master .host), (400), (tDev fun d => { d with boot := { d.boot with run := some ⟨.master .host, 1, [400], [], 0⟩ } }), by decide +kernel⟩,
    ⟨(⟨.cmd 1, 2, [0], [5], 0⟩), (tDev fun d => { d with boot := { d.boot with run := some ⟨.cmd 1, 2, [0], [5], 0⟩ } }), by decide +kernel⟩,
    ⟨(.master .host), (400), (tDev fun d => { d with boot := { d.boot with run := some ⟨.master .host, 1, [400], [], 0⟩ } }), by decide +kernel⟩,
    ⟨(⟨.master .host, 2, [0], [5], 0⟩), (tDev fun d => { d with boot := { d.boot with run := some ⟨.master .host, 2, [0], [5], 0⟩ } }), by decide +kernel⟩⟩

/-- States and operands that meet the hypotheses of every clause of SettingsSnapshotsAndTrial. -/
theorem witness_SettingsSnapshotsAndTrial :
    (∃ (b : Bool) (key len used : Nat) (data : List Byte) (s : State), s.dev.inReset = false ∧ s.dev.boot.run = none ∧ 2 ≤ s.dev.stage ∧ len ≤ 4080 ∧ key ≤ 65535 ∧ settingsRoom s.dev len = some used) ∧
    (∃ (b : Bool) (ns : Nat) (s : State), s.dev.inReset = false ∧ s.dev.boot.run = none ∧ (confNow s.dev).state = cfCONFIRMED ∧ (∀ k, k ∈ [0, 2] → bundleArea s.dev k = [] ∨ bnNs (bundleArea s.dev k) ≠ ns)) ∧
    (∃ (b st : Bool) (ns : Nat) (s : State), s.dev.inReset = false ∧ s.dev.boot.run = none ∧ ((confNow s.dev).state ≠ cfCONFIRMED ∨ (bundleArea s.dev 0 ≠ [] ∧ bnNs (bundleArea s.dev 0) = ns))) ∧
    (∃ (w : Who) (s : State), s.dev.inReset = false ∧ s.dev.boot.run = none ∧ 2 ≤ s.dev.stage ∧ s.dev.boot.baseWriting = none ∧ ((s.dev.boot.base.map baseLength).getD 0) + baseLength (baseNow s.dev (s.dev.boot.imageSeq + 1)) ≤ areaSize s.dev 5) ∧
    (∃ (w : Who) (s : State), (s.dev.inReset = false ∧ s.dev.boot.run = none ∧ 2 ≤ s.dev.stage ∧ s.dev.boot.baseWriting = none) ∧ areaSize s.dev 5 < ((s.dev.boot.base.map baseLength).getD 0) + baseLength (baseNow s.dev (s.dev.boot.imageSeq + 1))) ∧
    (∃ (s : State), s.dev.inReset = false ∧ 2 ≤ s.dev.stage ∧ s.dev.boot.baseWriting = none ∧ s.dev.boot.base.any (sameTables (baseNow s.dev 0)) = false ∧ ((s.dev.boot.base.map baseLength).getD 0) + baseLength (baseNow s.dev (s.dev.boot.imageSeq + 1)) ≤ areaSize s.dev 5) ∧
    (∃ (s : State), s.dev.inReset = false ∧ 2 ≤ s.dev.stage ∧ s.dev.boot.counterWriting = none ∧ ((s.dev.boot.counter.map counterLength).getD 0) + counterLength (counterNow s.dev (s.dev.boot.imageSeq + 1)) ≤ areaSize s.dev 6) ∧
    (∃ (b : BaseImage) (s : State), s.dev.inReset = false ∧ s.dev.boot.baseWriting = some b) ∧
    (∃ (c : CounterImage) (s : State), s.dev.inReset = false ∧ s.dev.boot.counterWriting = some c) ∧
    (∃ (s : State), s.dev.inReset = false ∧ s.dev.boot.counterWriting.isSome = true) ∧
    (∃ (b : Bool) (s : State), s.dev.inReset = false ∧ s.dev.boot.run = none ∧ s.dev.stage = 2 ∧ s.dev.boot.brewReady = false ∧ s.dev.boot.scanned = false) ∧
    (∃ (b : Bool) (s : State), s.dev.inReset = false ∧ s.dev.boot.run = none ∧ s.dev.stage = 2 ∧ s.dev.boot.brewReady = false ∧ s.dev.boot.scanned = true) ∧
    (∃ (s : State), s.dev.inReset = false ∧ s.dev.boot.trial = true ∧ s.dev.stage < 3 ∧ ConfSlots s.dev ∧ s.dev.boot.act = none) ∧
    (∃ (s : State), s.dev.inReset = false ∧ s.dev.boot.trial = true ∧ s.dev.stage = 3 ∧ ConfSlots s.dev ∧ s.dev.boot.act = none) :=
  ⟨⟨(true), (7), (3), (32), ([1, 2, 3]), (tBase), by decide +kernel⟩,
    ⟨(false), (5), (tDev fun d => { d with boot := { d.boot with settings := [⟨5, 1, [2]⟩] } }), by decide +kernel⟩,
    ⟨(false), (false), (0), (tDev fun d => setArea d 0 (zeros 400)), by decide +kernel⟩,
    ⟨(.cmd 4), (tBase), by decide +kernel⟩,
    ⟨(.cmd 4), (tFullBase 2000000), by decide +kernel, tFullBase_full 2000000 (by omega)⟩,
    ⟨(tBase), by decide +kernel⟩,
    ⟨(tBase), by decide +kernel⟩,
    ⟨(⟨1, 0, 0, [], [], []⟩), (tDev fun d => { d with boot := { d.boot with baseWriting := some ⟨1, 0, 0, [], [], []⟩ } }), by decide +kernel⟩,
    ⟨(⟨1, 0, 0, [], 0⟩), (tDev fun d => { d with boot := { d.boot with counterWriting := some ⟨1, 0, 0, [], 0⟩ } }), by decide +kernel⟩,
    ⟨(tDev fun d => { d with boot := { d.boot with counterWriting := some ⟨1, 0, 0, [], 0⟩ } }), by decide +kernel⟩,
    ⟨(true), (tDev fun d => { d with stage := 2 }), by decide +kernel⟩,
    ⟨(true), (tDev fun d => { d with stage := 2, boot := { d.boot with scanned := true } }), by decide +kernel⟩,
    ⟨(tDev fun d => let e := writeConf d ⟨0, cfTRIAL, 1, 5, 0, 0, 9, 8, [], []⟩; { e with stage := 2, boot := { e.boot with trial := true } }), by decide +kernel⟩,
    ⟨(tDev fun d => let e := writeConf d ⟨0, cfTRIAL, 1, 5, 0, 0, 9, 8, [], []⟩; { e with boot := { e.boot with trial := true } }), by decide +kernel⟩⟩

/-- States and operands that meet the hypotheses of every clause of CommitGate. -/
theorem witness_CommitGate :
    (∃ (k addr data type : Nat) (secure : Bool) (s : State), s.dev.inReset = false ∧ k < 2 ∧ ccState s.dev k ∈ [ccACTIVE, ccSTANDBY] ∧ s.dev.res.gate.mismatch = none ∧ s.dev.res.gate.lag = none ∧ addr ≠ RES_GATE_TAG ∧ addr ≠ RES_JRNL_STEP ∧ (s.dev.cc k).items.length < 4096) ∧
    (∃ (k data type : Nat) (secure : Bool) (s : State), s.dev.inReset = false ∧ k < 2 ∧ ccState s.dev k ∈ [ccACTIVE, ccSTANDBY] ∧ s.dev.res.gate.mismatch = none) ∧
    (∃ (k data type : Nat) (secure : Bool) (s : State), s.dev.inReset = false ∧ k < 2 ∧ ccState s.dev k ∈ [ccACTIVE, ccSTANDBY] ∧ s.dev.res.gate.mismatch = none ∧ s.dev.res.gate.lag = none ∧ (s.dev.cc k).items.length < 4096) ∧
    (∃ (k addr data type : Nat) (secure : Bool) (s : State), s.dev.inReset = false ∧ k < 2 ∧ ccState s.dev k ∈ [ccACTIVE, ccSTANDBY] ∧ s.dev.res.gate.mismatch = none ∧ addr ≠ RES_GATE_TAG ∧ 4096 ≤ (s.dev.cc k).items.length) ∧
    (∃ (a b : Nat) (i j : Item) (s : State), (s.dev.inReset = false ∧ pairCc s.dev = some (a, b) ∧ s.dev.res.gate.mismatch = none ∧ s.dev.res.gate.lag = none ∧ s.dev.hif.itemReads = [] ∧ s.dev.res.gate.isolate = none ∧ s.dev.res.gate.failover = false ∧ s.dev.res.gate.swapDue = false ∧ (s.dev.cc a).items = [i] ∧ (s.dev.cc b).items = [j] ∧ i.free = true ∧ j.free = true ∧ i.addr = TIM_TB_SEL) ∧ digest [i] = digest [j]) ∧
    (∃ (a b n : Nat) (s : State), s.dev.inReset = false ∧ pairCc s.dev = some (a, b) ∧ s.dev.res.gate.mismatch = none ∧ s.dev.res.gate.lag = none ∧ (s.dev.cc a).freeItems.length = n ∧ (s.dev.cc b).freeItems.length = n) ∧
    (∃ (a b : Nat) (s : State), s.dev.inReset = false ∧ pairCc s.dev = some (a, b) ∧ s.dev.res.gate.mismatch = none ∧ s.dev.res.gate.lag = none ∧ (s.dev.cc a).freeItems.length ≠ (s.dev.cc b).freeItems.length) ∧
    (∃ (a : Nat) (i : Item) (s : State), s.dev.inReset = false ∧ activeCc s.dev = some a ∧ pairCc s.dev = none ∧ s.dev.res.gate.mismatch = none ∧ s.dev.res.gate.lag = none ∧ s.dev.hif.itemReads = [] ∧ s.dev.res.gate.isolate = none ∧ (s.dev.cc a).items = [i] ∧ i.free = true ∧ i.addr = TIM_TB_SEL) ∧
    (∃ (n : Nat) (s : State), s.dev.inReset = false ∧ s.dev.res.gate.lag = some n) ∧
    (∃ (a b : Nat) (pa pb : Bool) (x : Mismatch) (i : Item) (s : State), s.dev.inReset = false ∧ s.dev.res.gate.mismatch = some x ∧ s.dev.res.gate.tampers = [] ∧ pairCc s.dev = some (a, b) ∧ (if a = 0 then pa else pb) = false ∧ (if b = 0 then pa else pb) = true ∧ x.n = 1 ∧ (s.dev.cc b).items = [i] ∧ i.free = true ∧ i.addr = TIM_TB_SEL ∧ s.dev.res.func.disabled = [] ∧ s.dev.hif.itemReads = []) ∧
    (∃ (a b : Nat) (pa pb : Bool) (x : Mismatch) (s : State), s.dev.inReset = false ∧ s.dev.res.gate.mismatch = some x ∧ s.dev.res.gate.tampers = [] ∧ pairCc s.dev = some (a, b) ∧ (if a = 0 then pa else pb) = true ∧ x.n = 0 ∧ s.dev.res.func.disabled = [] ∧ s.dev.hif.itemReads = []) ∧
    (∃ (a b : Nat) (x : Mismatch) (s : State), s.dev.inReset = false ∧ s.dev.res.gate.mismatch = some x ∧ s.dev.res.gate.tampers = [] ∧ pairCc s.dev = some (a, b) ∧ x.n = 0 ∧ s.dev.res.func.disabled = [] ∧ s.dev.hif.itemReads = []) ∧
    (∃ (k : Nat) (s : State), s.dev.inReset = false ∧ k < 2 ∧ ccState s.dev (1 - k) = ccSTANDBY ∧ activeCc s.dev = some k ∧ s.dev.res.func.disabled = []) ∧
    (∃ (k : Nat) (s : State), s.dev.inReset = false ∧ k < 2 ∧ ccState s.dev (1 - k) = ccSTANDBY) ∧
    (∃ (k : Nat) (s : State), s.dev.inReset = false ∧ k < 2 ∧ ccState s.dev (1 - k) ≠ ccSTANDBY) ∧
    (∃ (s : State), s.dev.inReset = false ∧ s.dev.stage = 3 ∧ s.dev.fld RES_CTRL_swap_en = 1 ∧ s.dev.res.gate.failover = false) ∧
    (∃ (s : State), s.dev.inReset = false ∧ s.dev.res.gate.failover = true ∧ ccState s.dev 0 = ccSTANDBY ∧ s.dev.res.gate.holdoffDone = false) ∧
    (∃ (k : Nat) (pass : Bool) (s : State), s.dev.inReset = false ∧ k < 2 ∧ ccState s.dev k = ccTESTING) ∧
    (∃ (k : Nat) (s : State), s.dev.inReset = false ∧ k < 2 ∧ ccState s.dev k = ccISOLATED ∧ s.dev.res.func.disabled = [] ∧ (s.dev.cc k).retests < 6 ∧ s.dev.hif.crossing = []) ∧
    (∃ (k : Nat) (s : State), s.dev.inReset = false ∧ k < 2 ∧ ccState s.dev k = ccISOLATED ∧ 6 ≤ (s.dev.cc k).retests) ∧
    (∃ (k : Nat) (s : State), s.dev.inReset = false ∧ k < 2 ∧ ccState s.dev k = ccISOLATED ∧ s.dev.res.func.disabled = []) ∧
    (∃ (k a : Nat) (s : State), s.dev.inReset = false ∧ k < 2 ∧ activeCc s.dev = some a ∧ ccState s.dev k = ccSYNCING) :=
  ⟨⟨(1), (64), (5), (1), (true), (tGate [] []), by decide +kernel⟩,
    ⟨(0), (9), (0), (false), (tGate [] []), by decide +kernel⟩,
    ⟨(0), (9), (0), (true), (tGate [{ tItem with tag := 9, free := false }] []), by decide +kernel⟩,
    ⟨(1), (64), (5), (1), (true), (tGate [] (List.replicate 4096 tItem)), by decide +kernel⟩,
    ⟨(0), (1), (tItem), (tItem), (tGate [tItem] [tItem]), by decide +kernel, rfl⟩,
    ⟨(0), (1), (1), (tGate [tItem] [{ tItem with data := 4 }]), by decide +kernel⟩,
    ⟨(0), (1), (tGate [tItem] []), by decide +kernel⟩,
    ⟨(0), (tItem), ({ tGate [tItem] [] with dev := setCc (tGate [tItem] []).dev 1 ccTESTING }), by decide +kernel⟩,
    ⟨(3), (tGateG fun g => { g with lag := some 3 }), by decide +kernel⟩,
    ⟨(0), (1), (false), (true), (⟨1, 1⟩), (tItem), ({ tGate [tItem] [tItem] with dev := (tGate [tItem] [tItem]).dev.setGate { (tGate [tItem] [tItem]).dev.res.gate with mismatch := some ⟨1, 1⟩ } }), by decide +kernel⟩,
    ⟨(0), (1), (true), (false), (⟨2, 0⟩), (tGateG fun g => { g with mismatch := some ⟨2, 0⟩ }), by decide +kernel⟩,
    ⟨(0), (1), (⟨2, 0⟩), (tGateG fun g => { g with mismatch := some ⟨2, 0⟩ }), by decide +kernel⟩,
    ⟨(0), (tGate [] []), by decide +kernel⟩,
    ⟨(1), ({ tGate [] [] with dev := setCc (setCc (tGate [] []).dev 0 ccSTANDBY) 1 ccACTIVE }), by decide +kernel⟩,
    ⟨(1), (tGate [] []), by decide +kernel⟩,
    ⟨(tDev fun d => d.setBit RES_CTRL_swap_en true), by decide +kernel⟩,
    ⟨(tDev fun d => setCc (d.setGate { d.res.gate with failover := true }) 0 ccSTANDBY), by decide +kernel⟩,
    ⟨(1), (false), ({ tGate [] [] with dev := setCc (tGate [] []).dev 1 ccTESTING }), by decide +kernel⟩,
    ⟨(1), ({ tGate [] [] with dev := setCc (tGate [] []).dev 1 ccISOLATED }), by decide +kernel⟩,
    ⟨(0), ({ tGate [] [] with dev := setCc ((tGate [] []).dev.setComplex 0 ⟨[], [], 0, 6⟩) 0 ccISOLATED }), by decide +kernel⟩,
    ⟨(1), ({ tGate [] [] with dev := setCc (tGate [] []).dev 1 ccISOLATED }), by decide +kernel⟩,
    ⟨(1), (0), ({ tGate [tItem] [] with dev := setCc (tGate [tItem] []).dev 1 ccSYNCING }), by decide +kernel⟩⟩

/-- States and operands that meet the hypotheses of every clause of JournalRepairsAndSelfTest. -/
theorem witness_JournalRepairsAndSelfTest :
    (∃ (w : Word) (s : State), s.dev.inReset = false ∧ jTag s.dev ((s.dev.reg (RES_JRNL_OPENm 0)).toNat % 65536) = none ∧ fwOpen s.dev < 64) ∧
    (∃ (w : Word) (s : State), s.dev.inReset = false ∧ (jTag s.dev ((s.dev.reg (RES_JRNL_OPENm 0)).toNat % 65536)).isSome = true) ∧
    (∃ (tag : Nat) (r : JRec) (s : State), s.dev.inReset = false ∧ jTag s.dev tag = some r ∧ (∀ x ∈ s.dev.jrnl.ring, x.seq = r.seq → x = r)) ∧
    (∃ (w : Word) (r : JRec) (s : State), s.dev.inReset = false ∧ jTag s.dev (getBits w 15 0) = some r ∧ (∀ x ∈ s.dev.jrnl.ring, x.seq = r.seq → x = r) ∧ within (getBits w 23 16) 1 4 = true) ∧
    (∃ (q : Nat) (r : JRec) (s : State), s.dev.inReset = false ∧ s.dev.jrnl.ring.find? (fun x => x.seq == q) = some r) ∧
    (∃ (q : Nat) (s : State), s.dev.inReset = false ∧ s.dev.jrnl.ring.find? (fun x => x.seq == q) = none) ∧
    (∃ (q : Nat) (r : JRec) (s : State), s.dev.inReset = false ∧ s.dev.res.fetching = some q ∧ Tab.find s.dev.jrnl.mirror q = some r) ∧
    (∃ (mem array row col at_ : Nat) (s : State), s.dev.inReset = false ∧ mem < 5 ∧ s.dev.res.errors = []) ∧
    (∃ (array row col at_ : Nat) (s : State), s.dev.inReset = false ∧ s.dev.res.errors = [] ∧ s.dev.res.rowCopies = [] ∧ s.dev.tbl.poison = [] ∧ sparesUsed s.dev array false < 8) ∧
    (∃ (s : State), s.dev.inReset = false ∧ s.dev.res.scrub + 1 < scrubWords) ∧
    (∃ (array index spare : Nat) (column : Bool) (s : State), s.dev.inReset = false ∧ s.dev.res.rowCopies = [⟨array, column, index, spare⟩] ∧ s.dev.res.log.length < 8192) ∧
    (∃ (bank b : Nat) (s : State), s.dev.inReset = false ∧ Tab.find s.dev.res.bankCopies bank = some b) ∧
    (∃ (c : Nat) (s : State), s.dev.inReset = false ∧ 3 ≤ s.dev.stage ∧ s.dev.bistOn = true ∧ s.dev.fld RES_CTRL_bist_run = 1 ∧ s.dev.res.bist.current = none ∧ s.dev.res.bist.pos < 34 ∧ rotation s.dev s.dev.res.bist.pos = some c ∧ c < 34 ∧ (s.dev.caddy c).state = cdSTOPPED) ∧
    (∃ (c : Nat) (s : State), s.dev.inReset = false ∧ s.dev.res.bist.current = some c ∧ s.dev.res.bist.inSlice = false ∧ (s.dev.caddy c).fenced = true ∧ caddyIdle s.dev c = true) ∧
    (∃ (c : Nat) (s : State), s.dev.inReset = false ∧ s.dev.res.bist.current = some c ∧ s.dev.res.bist.inSlice = false ∧ s.dev.dsp.holding = []) ∧
    (∃ (c part : Nat) (s : State), s.dev.inReset = false ∧ s.dev.res.bist.current = some c ∧ s.dev.res.bist.inSlice = true ∧ s.dev.dsp.holding = []) ∧
    (∃ (c part : Nat) (s : State), s.dev.inReset = false ∧ s.dev.res.bist.current = some c ∧ s.dev.res.bist.inSlice = true ∧ s.dev.res.bist.rerun = false) ∧
    (∃ (k c : Nat) (x : SpareTest) (s : State), s.dev.inReset = false ∧ k < 34 ∧ s.dev.res.spareTests = [x] ∧ x.spare = k ∧ (s.dev.caddy k).state = cdBIST ∧ (List.range 34).find? (fun c => c != k && (s.dev.caddy c).logical == some x.logical) = some c ∧ (s.dev.caddy c).state = cdDISABLED ∧ s.dev.dsp.holding = []) ∧
    (∃ (w : Who) (cls i : Nat) (c : Instr) (s : State), s.dev.inReset = false ∧ fnRange cls i = false ∧ c ∈ [.funcDisable w cls i, .funcEnable w cls i]) ∧
    (∃ (w : Who) (e : Nat) (s : State), s.dev.inReset = false ∧ e < 544 ∧ (s.dev.engine e).draining = false ∧ (s.dev.engine e).disabled = false ∧ (s.dev.engine e).prefetch = none) ∧
    (∃ (w : Who) (u : Nat) (s : State), s.dev.inReset = false ∧ u < 68 ∧ u ∈ s.dev.res.trellisOff ∧ fnKey 5 u ∉ s.dev.res.func.draining) ∧
    (∃ (u : Nat) (s : State), s.dev.inReset = false ∧ u < 68 ∧ fnKey 5 u ∈ s.dev.res.func.draining ∧ fnKey 5 u ∉ s.dev.res.func.enabling ∧ u ∈ s.dev.res.trellisOff) ∧
    (∃ (w : Who) (q : Nat) (r : Repair) (s : State), s.dev.inReset = false ∧ s.dev.res.log.find? (fun x => x.seq == q) = some r ∧ r.kind ≠ 8 ∧ r.unit < 2 ^ 20 ∧ r.location < 2 ^ 16 ∧ r.replacement < 2 ^ 16 ∧ r.fused = false ∧ repairWord r ∉ s.fuses.repairs ∧ fusesUsed s.fuses < 256 ∧ s.dev.res.log.length < 8192) ∧
    (∃ (w : Who) (q : Nat) (r : Repair) (s : State), s.dev.inReset = false ∧ s.dev.res.log.find? (fun x => x.seq == q) = some r ∧ r.kind ≠ 8 ∧ r.unit < 2 ^ 20 ∧ r.location < 2 ^ 16 ∧ r.replacement < 2 ^ 16 ∧ r.fused = false ∧ repairWord r ∉ s.fuses.repairs ∧ fusesUsed s.fuses < 256) ∧
    (∃ (r : Repair) (s : State), s.dev.inReset = false ∧ s.dev.res.log.getLast? = some r) ∧
    (∃ (s : State), s.dev.inReset = false) ∧
    (∃ (s : State), s.dev.inReset = false ∧ 200 ∉ s.dev.isolated) :=
  ⟨⟨(3), (tDev fun d => d.setReg (RES_JRNL_OPENm 0) 0x30009), by decide +kernel⟩,
    ⟨(3), (tDev fun d => (jOpen (d.setReg (RES_JRNL_OPENm 0) 0x30009) 5 1 7 3 (some 9)).2), by decide +kernel⟩,
    ⟨(9), (⟨0, 5, 1, jOPEN, 0, 7, 3, 0, 0, 0, 0, some 9⟩), (tDev fun d => (jOpen d 5 1 7 3 (some 9)).2), by decide +kernel⟩,
    ⟨(0x07020009), (⟨0, 5, 1, jOPEN, 0, 7, 3, 0, 0, 0, 0, some 9⟩), (tDev fun d => (jOpen d 5 1 7 3 (some 9)).2), by decide +kernel⟩,
    ⟨(0), (⟨0, 5, 1, jOPEN, 0, 7, 3, 0, 0, 0, 0, some 9⟩), (tDev fun d => (jOpen d 5 1 7 3 (some 9)).2), by decide +kernel⟩,
    ⟨(4), (tBase), by decide +kernel⟩,
    ⟨(0), (⟨0, 5, 1, jOPEN, 0, 7, 3, 0, 0, 0, 0, some 9⟩), (tDev fun d => let e := (jOpen d 5 1 7 3 (some 9)).2; { e with res := { e.res with fetching := some 0 } }), by decide +kernel⟩,
    ⟨(1), (2), (3), (4), (64), (tBase), by decide +kernel⟩,
    ⟨(2), (3), (4), (65), (tBase), by decide +kernel⟩,
    ⟨(tBase), by decide +kernel⟩,
    ⟨(2), (3), (0), (false), (tDev fun d => { d with res := { d.res with rowCopies := [⟨2, false, 3, 0⟩] } }), by decide +kernel⟩,
    ⟨(7), (64), (tDev fun d => { d with res := { d.res with bankCopies := [(7, 64)] } }), by decide +kernel⟩,
    ⟨(0), (tDev fun d => (d.setBit RES_CTRL_bist_run true).setCaddy 0 { d.caddy 0 with state := cdSTOPPED, logical := some 0 }), by decide +kernel⟩,
    ⟨(3), (tBist false), by decide +kernel⟩,
    ⟨(3), (tBist false), by decide +kernel⟩,
    ⟨(3), (0), (tBist true), by decide +kernel⟩,
    ⟨(3), (0), (tBist true), by decide +kernel⟩,
    ⟨(33), (2), (⟨33, 2, 18⟩), (tDev fun d => let e := (d.setCaddy 33 { d.caddy 33 with state := cdBIST, logical := none }).setCaddy 2 { d.caddy 2 with state := cdDISABLED, logical := some 2, roles := 5 }; { e with res := { e.res with spareTests := [⟨33, 2, 18⟩] } }), by decide +kernel⟩,
    ⟨(.cmd 3), (7), (0), (.funcEnable (.cmd 3) 7 0), (tBase), by decide +kernel⟩,
    ⟨(.master .host), (40), (tBase), by decide +kernel⟩,
    ⟨(.master .host), (5), (tDev fun d => { d with res := { d.res with trellisOff := [5] } }), by decide +kernel⟩,
    ⟨(5), (tDev fun d => { d with res := { d.res with trellisOff := [5], func := { d.res.func with draining := [fnKey 5 5] } } }), by decide +kernel⟩,
    ⟨(.cmd 3), (4), (⟨4, 1, false, 2, 3, 0, 9⟩), (tDev fun d => { d with res := { d.res with log := [⟨4, 1, false, 2, 3, 0, 9⟩] } }), by decide +kernel⟩,
    ⟨(.cmd 3), (4), (⟨4, 1, false, 2, 3, 0, 9⟩), (tDev fun d => { d with res := { d.res with log := [⟨4, 1, false, 2, 3, 0, 9⟩] } }), by decide +kernel⟩,
    ⟨(⟨4, 1, false, 2, 3, 0, 9⟩), (tDev fun d => { d with res := { d.res with log := [⟨4, 1, false, 2, 3, 0, 9⟩] } }), by decide +kernel⟩,
    ⟨(tDev fun d => d.setReg RES_SRAM_CNT 5), by decide +kernel⟩,
    ⟨(tDev fun d => d.setBit HIF_STATUS_link_up true), by decide +kernel⟩⟩

/-- States and operands that meet the hypotheses of every clause of TelemetryEventsAndAlarms. -/
theorem witness_TelemetryEventsAndAlarms :
    (∃ (fw unit : Nat) (s : State), s.dev.inReset = false ∧ (sourceOf s.dev (248 + fw % 8)).enable = true ∧ ((sourceOf s.dev (248 + fw % 8)).cls = 1 ∨ (sourceOf s.dev (248 + fw % 8)).cls = 2) ∧ Tab.find s.dev.tel.logged ((248 + fw % 8) * 65536 + unit % 65536) = none) ∧
    (∃ (fw unit : Nat) (s : State), s.dev.inReset = false ∧ (sourceOf s.dev (248 + fw % 8)).enable = false) ∧
    (∃ (fw unit k : Nat) (s : State), s.dev.inReset = false ∧ sourceOf s.dev (248 + fw % 8) = ⟨true, 0, (sourceOf s.dev (248 + fw % 8)).vector⟩ ∧ s.dev.tel.alarms.all (fun e => e.2.source != 248 + fw % 8) = true ∧ Tab.freeKey s.dev.tel.alarms 256 256 = some k) ∧
    (∃ (m : Nat) (w : Word) (s : State), s.dev.inReset = false ∧ m < 8 ∧ (vectorsOf s.dev m (s.dev.reg (TEL_PENDm m) &&& w)).all (fun v => !vectorPending (s.dev.setReg (TEL_PENDm m) (s.dev.reg (TEL_PENDm m) &&& ~~~w)) v) = true) ∧
    (∃ (m v : Nat) (w : Word) (s : State), s.dev.inReset = false ∧ m < 8 ∧ v < 32 ∧ vectorsOf s.dev m (s.dev.reg (TEL_PENDm m) &&& w) = [v] ∧ vectorPending (s.dev.setReg (TEL_PENDm m) (s.dev.reg (TEL_PENDm m) &&& ~~~w)) v = true ∧ nbit (s.dev.reg (MSIX_TABLE v 3)).toNat 0 = false) ∧
    (∃ (m v : Nat) (w : Word) (s : State), s.dev.inReset = false ∧ m < 8 ∧ v < 32 ∧ nbit (s.dev.reg (MSIX_TABLE v 3)).toNat 0 = false ∧ (vectorsOf s.dev m (s.dev.reg (TEL_MASKm m) &&& ~~~w &&& s.dev.reg (TEL_PENDm m)) = [v] ∨ vectorsOf s.dev m (s.dev.reg (TEL_MASKm m) &&& ~~~w &&& s.dev.reg (TEL_PENDm m)) = [])) ∧
    (∃ (m : Nat) (w : Word) (s : State), s.dev.inReset = false ∧ m < 8) ∧
    (∃ (k seen : Nat) (a : Alarm) (s : State), s.dev.inReset = false ∧ k < 512 ∧ seen < 65536 ∧ Tab.find s.dev.tel.alarms k = some a ∧ a.overrun = false ∧ 0 < seen ∧ seen ≤ a.count) ∧
    (∃ (k seen : Nat) (a : Alarm) (s : State), s.dev.inReset = false ∧ k < 512 ∧ seen < 65536 ∧ Tab.find s.dev.tel.alarms k = some a ∧ a.overrun = true ∧ seen ≤ a.count) ∧
    (∃ (k seen : Nat) (s : State), s.dev.inReset = false ∧ k < 512 ∧ seen < 65536 ∧ (Tab.find s.dev.tel.alarms k).all (fun a => decide (a.count < seen)) = true) ∧
    (∃ (j k seen : Nat) (s : State), s.dev.inReset = false) :=
  ⟨⟨(3), (70000), (tBase), by decide +kernel⟩,
    ⟨(3), (7), (tDev fun d => { d with tel := { d.tel with sources := List.replicate 256 ⟨false, 1, 0⟩ } }), by decide +kernel⟩,
    ⟨(3), (7), (256), (tDev fun d => { d with tel := { d.tel with sources := List.replicate 256 ⟨true, 0, 2⟩ } }), by decide +kernel⟩,
    ⟨(7), (0xF0000000), (tDev fun d => d.setReg (TEL_PENDm 7) 0xC0000001), by decide +kernel⟩,
    ⟨(7), (0), (0x40000000), (tDev fun d => ((d.setReg (TEL_PENDm 7) 0xC0000000).setReg (TEL_MASKm 7) 0).setReg (MSIX_TABLE 0 3) 0), by decide +kernel⟩,
    ⟨(7), (0), (0), (tDev fun d => ((d.setReg (TEL_PENDm 7) 0xC0000000).setReg (TEL_MASKm 7) 0xFFFFFFFF).setReg (MSIX_TABLE 0 3) 0), by decide +kernel⟩,
    ⟨(2), (5), (tDev fun d => d.setReg (TEL_CCPENDm 2) 7), by decide +kernel⟩,
    ⟨(300), (3), (⟨48, 17, false, 4, 0, 1, 2, false, false, none, none⟩), (tDev fun d => { d with tel := { d.tel with alarms := [(300, ⟨48, 17, false, 4, 0, 1, 2, false, false, none, none⟩)] } }), by decide +kernel⟩,
    ⟨(16), (65535), (⟨16, 0xFFFF, true, 65535, 0, 1, 2, false, false, none, none⟩), (tDev fun d => { d with tel := { d.tel with alarms := [(16, ⟨16, 0xFFFF, true, 65535, 0, 1, 2, false, false, none, none⟩)] } }), by decide +kernel⟩,
    ⟨(300), (5), (tDev fun d => { d with tel := { d.tel with alarms := [(300, ⟨48, 17, false, 4, 0, 1, 2, false, false, none, none⟩)] } }), by decide +kernel⟩,
    ⟨(5), (300), (5), (tBase), by decide +kernel⟩⟩

/-- States and operands that meet the hypotheses of every clause of TelemetryDelivery. -/
theorem witness_TelemetryDelivery :
    (∃ (u : TelUnit) (s : State), s.dev.inReset = false ∧ s.dev.bit TEL_RING_CFG_en = true ∧ s.dev.tel.ring.staged = [u] ∧ within u.kind 2 5 = true ∧ s.dev.tel.alarms = [] ∧ ringFull s.dev = false ∧ s.dev.fld TEL_RING_CFG_size_log2 ≤ 16 ∧ Tab.find s.dev.hif.intervals (s.dev.fld TEL_RING_CFG_vector) = none ∧ nbit (s.dev.reg (MSIX_TABLE (s.dev.fld TEL_RING_CFG_vector) 3)).toNat 0 = false) ∧
    (∃ (s : State), s.dev.inReset = false ∧ s.dev.bit TEL_RING_CFG_en = false) ∧
    (∃ (i : Nat) (s : State), s.dev.inReset = false ∧ i < ringSize s.dev TEL_RING_CFG_size_log2 ∧ i < 65536) ∧
    (∃ (i : Nat) (s : State), s.dev.inReset = false ∧ ringSize s.dev TEL_RING_CFG_size_log2 ≤ i) ∧
    (∃ (u : TelUnit) (e : Nat) (s : State), s.dev.inReset = false ∧ s.dev.bit TEL_ETH_CFG_en = true ∧ s.dev.tel.eth.staged = [u] ∧ within u.kind 2 5 = true ∧ s.dev.tel.alarms = [] ∧ s.dev.tel.dgramFrom ≤ s.dev.ns ∧ (List.range 4).find? (fun k => nbit (s.dev.fld TEL_ETH_CFG_eth_mask) k && ethUp s.dev k) = some e) ∧
    (∃ (s : State), s.dev.inReset = false ∧ (s.dev.bit TEL_ETH_CFG_en = false ∨ ∀ e, e < 4 → (nbit (s.dev.fld TEL_ETH_CFG_eth_mask) e && ethUp s.dev e) = false)) ∧
    (∃ (st : Storm) (s : State), s.dev.inReset = false ∧ s.dev.tel.storm = some st ∧ 4 * s.dev.tel.ring.staged.length < pathCap s.dev ∧ 4 * s.dev.tel.eth.staged.length < pathCap s.dev) ∧
    (∃ (s : State), s.dev.inReset = false ∧ (s.dev.tel.storm = none ∨ pathCap s.dev ≤ 4 * s.dev.tel.ring.staged.length)) ∧
    (∃ (s : State), s.dev.inReset = false) :=
  ⟨⟨(⟨4, [1, 2]⟩), (tDev fun d => (((({ d with tel := { d.tel with ring := ⟨[⟨4, [1, 2]⟩], [(4, 9)], []⟩ } }).setBit TEL_RING_CFG_en true).setFld TEL_RING_CFG_size_log2 10).setFld TEL_RING_PROD_index 1023).setReg (MSIX_TABLE 0 3) 0 |> fun d => d.setFld TEL_RING_CONS_index 5), by decide +kernel⟩,
    ⟨(tBase), by decide +kernel⟩,
    ⟨(1023), (tDev fun d => d.setFld TEL_RING_CFG_size_log2 10), by decide +kernel⟩,
    ⟨(1024), (tDev fun d => d.setFld TEL_RING_CFG_size_log2 10), by decide +kernel⟩,
    ⟨(⟨2, [1, 2]⟩), (1), (tDev fun d => ((({ d with tel := { d.tel with eth := ⟨[⟨2, [1, 2]⟩], [], []⟩ } }).setBit TEL_ETH_CFG_en true).setFld TEL_ETH_CFG_eth_mask 14).setFld FWD_STATUS_link_up 15), by decide +kernel⟩,
    ⟨(tBase), by decide +kernel⟩,
    ⟨(⟨100, [], 7⟩), (tDev fun d => ({ d with tel := { d.tel with storm := some ⟨100, [], 7⟩ } }).setBit TEL_STATUS_storm true), by decide +kernel⟩,
    ⟨(tBase), by decide +kernel⟩,
    ⟨(tDev fun d => d.setReg TEL_CNT_LOCAL 7), by decide +kernel⟩⟩

/-- States and operands that meet the hypotheses of every clause of HostEndpoint. -/
theorem witness_HostEndpoint :
    (∃ (s : State), s.dev.inReset = false) ∧
    (∃ (off : Nat) (read : Bool) (s : State), s.dev.inReset = false ∧ s.dev.isolated.contains 200 = false) ∧
    (∃ (off : Nat) (s : State), s.dev.inReset = false ∧ s.dev.isolated.contains 200 = false) ∧
    (∃ (off len : Nat) (changed : Bool) (s : State), s.dev.inReset = false ∧ s.dev.isolated.contains 200 = false ∧ (changed && keyedRegion s.dev off) = false ∧ (∀ x ∈ s.dev.tbl.poison, ¬ (x < off + len ∧ off < x + 8))) ∧
    (∃ (off len : Nat) (s : State), s.dev.inReset = false ∧ s.dev.isolated.contains 200 = false ∧ keyedRegion s.dev off = true) ∧
    (∃ (off len x : Nat) (s : State), s.dev.inReset = false ∧ s.dev.isolated.contains 200 = false ∧ x ∈ s.dev.tbl.poison ∧ x < off + len ∧ off < x + 8) ∧
    (∃ (k : Nat) (x : Crossing) (s : State), s.dev.inReset = false ∧ k < 2 ∧ s.dev.hif.crossing = [x] ∧ x.m = .host ∧ x.touches (HIF_CCA_TICK + 4 * k) = true ∧ x.addr < 2 ^ 28) ∧
    (∃ (v : Nat) (s : State), s.dev.inReset = false ∧ s.dev.isolated.contains 200 = false ∧ v < 32 ∧ s.dev.fld ⟨MSIX_TABLE v 3, 0, 0⟩ = 1) ∧
    (∃ (v : Nat) (late : Bool) (s : State), s.dev.inReset = false ∧ v < 32 ∧ Tab.find s.dev.hif.intervals v = some late ∧ nbit (s.dev.reg (MSIX_TABLE v 3)).toNat 0 = false) ∧
    (∃ (up : Bool) (width speed : Nat) (s : State), s.dev.inReset = false ∧ s.dev.isolated.contains 200 = false ∧ width < 8 ∧ speed < 16) ∧
    (∃ (s : State), s.dev.inReset = false) :=
  ⟨⟨(tDev fun d => ({ d with hif := { d.hif with waiting := [⟨[], 0, none⟩], running := [⟨⟨[], 0, none⟩, 4, none, []⟩], reserved := 2 } }).setFld HIF_HCQ_STATUS_state hqENABLED), by decide +kernel⟩,
    ⟨(20), (true), (tBase), by decide +kernel⟩,
    ⟨(64), (tBase), by decide +kernel⟩,
    ⟨(0x4000001), (4), (true), (tDev fun d => { d with pbm := ⟨[(0, [1, 2, 3])], 1⟩ }), by decide +kernel⟩,
    ⟨(entryAddr tBase.dev 1 0), (8), (tBase), by decide +kernel⟩,
    ⟨(20), (8), (16), (tDev fun d => { d with tbl := { d.tbl with poison := [16] } }), by decide +kernel⟩,
    ⟨(1), (⟨.host, true, HIF_CCB_TICK, 4⟩), (tDev fun d => { d with hif := { d.hif with crossing := [⟨.host, true, HIF_CCB_TICK, 4⟩] } }), by decide +kernel⟩,
    ⟨(31), (tDev fun d => (d.setFld ⟨MSIX_TABLE 31 3, 0, 0⟩ 1).setFld ⟨MSIX_PBA, 31, 31⟩ 1), by decide +kernel⟩,
    ⟨(3), (true), (tDev fun d => ({ d with hif := { d.hif with intervals := [(3, true)] } }).setReg (MSIX_TABLE 3 3) 0), by decide +kernel⟩,
    ⟨(true), (4), (3), (tBase), by decide +kernel⟩,
    ⟨(tDev fun d => d.setReg HIF_ERR 7), by decide +kernel⟩⟩

/-- States and operands that meet the hypotheses of every clause of HostCommands. -/
theorem witness_HostCommands :
    (∃ (s : State), s.dev.inReset = false ∧ s.dev.isolated.contains 200 = false ∧ hqState s.dev = hqDISABLED) ∧
    (∃ (tail : Nat) (s : State), s.dev.inReset = false ∧ s.dev.isolated.contains 200 = false ∧ hqState s.dev = hqENABLED ∧ tail < hqSize s.dev ∧ tail < 4096) ∧
    (∃ (tail : Nat) (s : State), s.dev.inReset = false ∧ s.dev.isolated.contains 200 = false ∧ hqState s.dev = hqENABLED ∧ hqSize s.dev ≤ tail) ∧
    (∃ (entry : List Byte) (s : State), s.dev.inReset = false ∧ s.dev.isolated.contains 200 = false ∧ fetchPossible s.dev = true ∧ cqRoom s.dev = true ∧ s.dev.fld HIF_HCQ_CFG_size_log2 ≤ 12) ∧
    (∃ (entry : List Byte) (s : State), s.dev.inReset = false ∧ s.dev.isolated.contains 200 = false ∧ (fetchPossible s.dev = false ∨ cqRoom s.dev = false)) ∧
    (∃ (s : State), s.dev.inReset = false ∧ fetchPossible s.dev = true ∧ cqRoom s.dev = true) ∧
    (∃ (s : State), s.dev.inReset = false ∧ fetchPossible s.dev = true ∧ cqRoom s.dev = false ∧ s.dev.bit HIF_HCQ_STATUS_cq_stall = false) ∧
    (∃ (head : Nat) (s : State), s.dev.inReset = false ∧ s.dev.isolated.contains 200 = false ∧ head < hqSize s.dev ∧ head < 4096) ∧
    (∃ (k : Nat) (c : HostCmd) (s : State), s.dev.inReset = false ∧ s.dev.hif.waiting[k]? = some c ∧ mayStart s.dev s.dev.hif.waiting s.dev.hif.running k c = true ∧ hcRefusal c = none) ∧
    (∃ (k : Nat) (c : HostCmd) (s : State), s.dev.inReset = false ∧ s.dev.hif.mqWaiting[k]? = some c ∧ mayStart s.dev s.dev.hif.mqWaiting s.dev.hif.mqRunning k c = true ∧ hcRefusal c = none) ∧
    (∃ (k r : Nat) (c : HostCmd) (s : State), s.dev.inReset = false ∧ s.dev.hif.waiting[k]? = some c ∧ mayStart s.dev s.dev.hif.waiting s.dev.hif.running k c = true ∧ hcRefusal c = some r ∧ c.handle = none ∧ hcFlag c 1 = false) ∧
    (∃ (j r : Nat) (x : RunCmd) (y : JRec) (s : State), s.dev.inReset = false ∧ (s.dev.hif.running ++ s.dev.hif.mqRunning).find? (fun z => z.jseq == j && z.result.isSome) = some x ∧ x.result = some r ∧ x.cmd.handle = none ∧ s.dev.fld HIF_HCQ_CFG_size_log2 ≤ 12 ∧ s.dev.jrnl.ring.find? (fun z => z.seq == j && z.outcome == jOPEN) = some y ∧ Tab.find s.dev.hif.intervals (s.dev.fld HIF_HCQ_CFG_vector) = none ∧ nbit (s.dev.reg (MSIX_TABLE (s.dev.fld HIF_HCQ_CFG_vector) 3)).toNat 0 = false) ∧
    (∃ (j r : Nat) (x : RunCmd) (s : State), s.dev.inReset = false ∧ (s.dev.hif.running ++ s.dev.hif.mqRunning).find? (fun z => z.jseq == j && z.result.isSome) = none ∧ s.dev.hif.orphaned.find? (fun z => z.jseq == j && z.result.isSome) = some x ∧ x.result = some r) ∧
    (∃ (j : Nat) (x : RunCmd) (s : State), s.dev.inReset = false ∧ s.dev.hif.running.find? (fun z => z.jseq == j && z.result.isNone) = some x) ∧
    (∃ (c : HostCmd) (s : State), s.dev.inReset = false ∧ s.dev.isolated.contains 200 = false ∧ hqState s.dev = hqENABLED ∧ s.dev.hif.waiting = [c] ∧ c.handle = none ∧ hcFlag c 1 = false) ∧
    (∃ (s : State), s.dev.inReset = false ∧ s.dev.isolated.contains 200 = false ∧ hqState s.dev = hqENABLED ∧ s.dev.hif.waiting = []) ∧
    (∃ (j : Nat) (s : State), s.dev.inReset = false) ∧
    (∃ (j seq : Nat) (s : State), s.dev.inReset = false) ∧
    (∃ (j source addr len : Nat) (s : State), s.dev.inReset = false ∧ within (bldState s.dev) bsRECEIVING bsAPPLYING = false ∧ within len 4096 16777216 = true ∧ len % 4 = 0) ∧
    (∃ (j : Nat) (desc : List Byte) (s : State), s.dev.inReset = false ∧ submitCheck s.dev (descOf (fit 32 desc)) 0xE000 0xFFFE 3 = sbOK ∧ (descOf (fit 32 desc)).dep ≠ 0) ∧
    (∃ (j : Nat) (desc : List Byte) (s : State), s.dev.inReset = false ∧ s.dev.dsp.accepting = false) :=
  ⟨⟨(tDev fun d => d.setReg HIF_HCQ_TAIL 7), by decide +kernel⟩,
    ⟨(63), (tDev fun d => (d.setFld HIF_HCQ_CFG_size_log2 6).setFld HIF_HCQ_STATUS_state hqENABLED), by decide +kernel⟩,
    ⟨(64), (tDev fun d => (d.setFld HIF_HCQ_CFG_size_log2 6).setFld HIF_HCQ_STATUS_state hqENABLED), by decide +kernel⟩,
    ⟨([1]), (tDev fun d => ((d.setFld HIF_HCQ_CFG_size_log2 6).setFld HIF_HCQ_STATUS_state hqENABLED).setFld HIF_HCQ_TAIL_index 1), by decide +kernel⟩,
    ⟨([1]), (tBase), by decide +kernel⟩,
    ⟨(tDev fun d => ((d.setFld HIF_HCQ_CFG_size_log2 6).setFld HIF_HCQ_STATUS_state hqENABLED).setFld HIF_HCQ_TAIL_index 1), by decide +kernel⟩,
    ⟨(tDev fun d => (((d.setFld HIF_HCQ_CFG_size_log2 6).setFld HIF_HCQ_STATUS_state hqENABLED).setFld HIF_HCQ_TAIL_index 1).setFld HIF_CQ_TAIL_index 63), by decide +kernel⟩,
    ⟨(63), (tDev fun d => ((d.setFld HIF_HCQ_CFG_size_log2 6).setFld HIF_CQ_TAIL_index 63).setBit HIF_HCQ_STATUS_cq_stall true), by decide +kernel⟩,
    ⟨(0), (⟨[1, 0, 0, 0, 9] ++ zeros 59, 3, none⟩), (tDev fun d => { d with hif := { d.hif with waiting := [⟨[1, 0, 0, 0, 9] ++ zeros 59, 3, none⟩] } }), by decide +kernel⟩,
    ⟨(0), (⟨[1, 0, 0, 0, 9] ++ zeros 59, 0, some 4⟩), (tDev fun d => { d with hif := { d.hif with mqWaiting := [⟨[1, 0, 0, 0, 9] ++ zeros 59, 0, some 4⟩] } }), by decide +kernel⟩,
    ⟨(0), (hrBAD_OPCODE), (⟨[9, 9, 0, 0, 9] ++ zeros 59, 3, none⟩), (tDev fun d => { d with hif := { d.hif with waiting := [⟨[9, 9, 0, 0, 9] ++ zeros 59, 3, none⟩] } }), by decide +kernel⟩,
    ⟨(4), (2), (⟨⟨[4, 0, 2, 0, 9] ++ zeros 59, 3, none⟩, 4, some 2, []⟩), (⟨4, 1, 0, 0, 0, 9, 1, 0, 0, 0, 0, none⟩), (tDev fun d => ((({ d with hif := { d.hif with running := [⟨⟨[4, 0, 2, 0, 9] ++ zeros 59, 3, none⟩, 4, some 2, []⟩], reserved := 1 }, jrnl := { d.jrnl with ring := [⟨4, 1, 0, 0, 0, 9, 1, 0, 0, 0, 0, none⟩] } }).setFld HIF_HCQ_CFG_size_log2 6).setFld HIF_CQ_TAIL_index 63).setReg (MSIX_TABLE 0 3) 0 |> fun d => d.setFld HIF_HCQ_STATUS_state hqDRAINING), by decide +kernel⟩,
    ⟨(4), (0), (⟨⟨[1], 3, none⟩, 4, some 0, []⟩), (tDev fun d => { d with hif := { d.hif with orphaned := [⟨⟨[1], 3, none⟩, 4, some 0, []⟩] }, jrnl := { d.jrnl with ring := [⟨4, 1, 0, 0, 0, 9, 1, 0, 0, 0, 0, none⟩] } }), by decide +kernel⟩,
    ⟨(4), (⟨⟨[1, 3], 3, none⟩, 4, none, []⟩), (tDev fun d => { d with hif := { d.hif with running := [⟨⟨[1, 3], 3, none⟩, 4, none, []⟩] } }), by decide +kernel⟩,
    ⟨(⟨[1, 0, 0, 0, 9] ++ zeros 59, 3, none⟩), (tDev fun d => ({ d with hif := { d.hif with waiting := [⟨[1, 0, 0, 0, 9] ++ zeros 59, 3, none⟩], reserved := 1 } }).setFld HIF_HCQ_STATUS_state hqENABLED), by decide +kernel⟩,
    ⟨(tDev fun d => d.setFld HIF_HCQ_STATUS_state hqENABLED), by decide +kernel⟩,
    ⟨(4), (tDev fun d => { d with hif := { d.hif with running := [⟨⟨[1], 3, none⟩, 4, none, []⟩] } }), by decide +kernel⟩,
    ⟨(4), (2), (tDev fun d => { d with hif := { d.hif with running := [⟨⟨[4], 3, none⟩, 4, none, []⟩] }, jrnl := { d.jrnl with ring := [⟨2, 1, 0, 0, 0, 9, 1, 0, 0, 0, 0, none⟩] } }), by decide +kernel⟩,
    ⟨(4), (2), (64), (4096), (tBase), by decide +kernel⟩,
    ⟨(4), ([0, 0xE0, 0xFF, 0xFF, 0xFF, 0xFF, 1, 9, 0xFF, 0xFF, 0x6F, 2]), (tDev fun d => { d with dsp := { d.dsp with accepting := true } }), by decide +kernel⟩,
    ⟨(4), ([0, 0xE0]), (tBase), by decide +kernel⟩⟩

/-- States and operands that meet the hypotheses of every clause of HostRingsAndChannel. -/
theorem witness_HostRingsAndChannel :
    (∃ (r tail : Nat) (descs : List (Nat × Nat)) (s : State), s.dev.inReset = false ∧ s.dev.isolated.contains 200 = false ∧ r < 8 ∧ s.dev.bit (HIF_FRr_UP_CFG_en r) = true ∧ tail < ringSize s.dev (HIF_FRr_UP_CFG_size_log2 r) ∧ tail < 4096 ∧ s.dev.fld (HIF_FRr_UP_TAIL_index r) < ringSize s.dev (HIF_FRr_UP_CFG_size_log2 r) ∧ descs.length = (tail + ringSize s.dev (HIF_FRr_UP_CFG_size_log2 r) - s.dev.fld (HIF_FRr_UP_TAIL_index r)) % ringSize s.dev (HIF_FRr_UP_CFG_size_log2 r)) ∧
    (∃ (r tail : Nat) (descs : List (Nat × Nat)) (s : State), s.dev.inReset = false ∧ s.dev.isolated.contains 200 = false ∧ (ringSize s.dev (HIF_FRr_UP_CFG_size_log2 r) ≤ tail ∨ s.dev.bit (HIF_FRr_UP_CFG_en r) = false)) ∧
    (∃ (r tail : Nat) (s : State), s.dev.inReset = false ∧ s.dev.isolated.contains 200 = false ∧ r < 8 ∧ s.dev.bit (HIF_FRr_DN_CFG_en r) = true ∧ tail < ringSize s.dev (HIF_FRr_DN_CFG_size_log2 r) ∧ tail < 4096) ∧
    (∃ (r tail : Nat) (s : State), s.dev.inReset = false ∧ s.dev.isolated.contains 200 = false ∧ (ringSize s.dev (HIF_FRr_DN_CFG_size_log2 r) ≤ tail ∨ s.dev.bit (HIF_FRr_DN_CFG_en r) = false)) ∧
    (∃ (r : Nat) (desc data : List Byte) (s : State), s.dev.inReset = false ∧ s.dev.isolated.contains 200 = false ∧ dnWaits s.dev r = true ∧ dnRange s.dev (fit 32 desc) = true ∧ field (fit 32 desc) 0x0A 1 = 2 ∧ s.dev.fld (HIF_FRr_DN_CFG_size_log2 r) ≤ 12 ∧ Tab.find s.dev.hif.intervals (s.dev.fld (HIF_FRr_DN_CFG_vector r)) = none ∧ nbit (s.dev.reg (MSIX_TABLE (s.dev.fld (HIF_FRr_DN_CFG_vector r)) 3)).toNat 0 = false) ∧
    (∃ (r : Nat) (s : State), s.dev.inReset = false ∧ dnWaits s.dev r = true ∧ s.dev.fld (HIF_FRr_DN_CFG_size_log2 r) ≤ 12 ∧ Tab.find s.dev.hif.intervals (s.dev.fld (HIF_FRr_DN_CFG_vector r)) = none ∧ nbit (s.dev.reg (MSIX_TABLE (s.dev.fld (HIF_FRr_DN_CFG_vector r)) 3)).toNat 0 = false) ∧
    (∃ (r : Nat) (desc data : List Byte) (s : State), s.dev.inReset = false ∧ s.dev.isolated.contains 200 = false ∧ dnWaits s.dev r = true ∧ s.dev.fld (HIF_FRr_DN_CFG_size_log2 r) ≤ 12 ∧ dnRange s.dev (fit 32 desc) = false ∧ Tab.find s.dev.hif.intervals (s.dev.fld (HIF_FRr_DN_CFG_vector r)) = none ∧ nbit (s.dev.reg (MSIX_TABLE (s.dev.fld (HIF_FRr_DN_CFG_vector r)) 3)).toNat 0 = false) ∧
    (∃ (r h : Nat) (desc data : List Byte) (d1 : Dev) (s : State), s.dev.inReset = false ∧ s.dev.isolated.contains 200 = false ∧ dnWaits s.dev r = true ∧ dnRange s.dev (fit 32 desc) = true ∧ field (fit 32 desc) 0x0A 1 = 0 ∧ bufPut s.dev (fit (field (fit 32 desc) 8 2) data) = some (h, d1)) ∧
    (∃ (r h : Nat) (desc data : List Byte) (d1 : Dev) (s : State), s.dev.inReset = false ∧ s.dev.isolated.contains 200 = false ∧ dnWaits s.dev r = true ∧ dnRange s.dev (fit 32 desc) = true ∧ field (fit 32 desc) 0x0A 1 = 1 ∧ bufPut s.dev (fit (field (fit 32 desc) 8 2) data) = some (h, d1)) ∧
    (∃ (r : Nat) (desc data : List Byte) (s : State), (s.dev.inReset = false ∧ s.dev.isolated.contains 200 = false ∧ dnRange s.dev (fit 32 desc) = true ∧ field (fit 32 desc) 0x0A 1 < 2) ∧ bufPut s.dev (fit (field (fit 32 desc) 8 2) data) = none) ∧
    (∃ (r : Nat) (s : State), s.dev.inReset = false ∧ s.dev.isolated.contains 200 = false ∧ dnWaits s.dev r = false) ∧
    (∃ (h : Nat) (s : State), s.dev.inReset = false ∧ s.dev.hif.mqWaiting.length + s.dev.hif.mqRunning.length < 256) ∧
    (∃ (h : Nat) (s : State), s.dev.inReset = false ∧ 256 ≤ s.dev.hif.mqWaiting.length + s.dev.hif.mqRunning.length) ∧
    (∃ (h : Nat) (s : State), s.dev.inReset = false ∧ ethOff s.dev (s.dev.fld HIF_MGMT_TX_CTL_port) = false ∧ (ptpOffset (fit (s.dev.fld HIF_MGMT_TX_CTL_length) (bufGet s.dev h))).all (fun o => !ptpStamped (fit (s.dev.fld HIF_MGMT_TX_CTL_length) (bufGet s.dev h)) o) = true) ∧
    (∃ (h o : Nat) (s : State), s.dev.inReset = false ∧ ethOff s.dev (s.dev.fld HIF_MGMT_TX_CTL_port) = false ∧ ptpOffset (fit (s.dev.fld HIF_MGMT_TX_CTL_length) (bufGet s.dev h)) = some o ∧ ptpStamped (fit (s.dev.fld HIF_MGMT_TX_CTL_length) (bufGet s.dev h)) o = true) ∧
    (∃ (h : Nat) (s : State), s.dev.inReset = false ∧ ethOff s.dev (s.dev.fld HIF_MGMT_TX_CTL_port) = true) ∧
    (∃ (h : Nat) (s : State), s.dev.inReset = false ∧ s.dev.hif.mgmtTx.contains h = true) :=
  ⟨⟨(7), (1), ([(64, 1536), (128, 1536)]), (tDev fun d => ((d.setFld (HIF_FRr_UP_CFG_size_log2 7) 4).setBit (HIF_FRr_UP_CFG_en 7) true).setFld (HIF_FRr_UP_TAIL_index 7) 15), by decide +kernel⟩,
    ⟨(7), (1), ([(64, 1536)]), (tDev fun d => d.setFld (HIF_FRr_UP_CFG_size_log2 7) 4), by decide +kernel⟩,
    ⟨(7), (15), (tDev fun d => (d.setFld (HIF_FRr_DN_CFG_size_log2 7) 4).setBit (HIF_FRr_DN_CFG_en 7) true), by decide +kernel⟩,
    ⟨(7), (16), (tDev fun d => (d.setFld (HIF_FRr_DN_CFG_size_log2 7) 4).setBit (HIF_FRr_DN_CFG_en 7) true), by decide +kernel⟩,
    ⟨(7), (zeros 8 ++ [60, 0, 2, 0, 0, 3]), ([1, 2]), (tDev fun d => (((d.setFld (HIF_FRr_DN_CFG_size_log2 7) 4).setBit (HIF_FRr_DN_CFG_en 7) true).setFld (HIF_FRr_DN_HEAD_index 7) 15).setReg (MSIX_TABLE 8 3) 0), by decide +kernel⟩,
    ⟨(7), (tDev fun d => (((d.setFld (HIF_FRr_DN_CFG_size_log2 7) 4).setBit (HIF_FRr_DN_CFG_en 7) true).setFld (HIF_FRr_DN_HEAD_index 7) 15).setReg (MSIX_TABLE 8 3) 0), by decide +kernel⟩,
    ⟨(7), ([]), ([]), (tDev fun d => (((d.setFld (HIF_FRr_DN_CFG_size_log2 7) 4).setBit (HIF_FRr_DN_CFG_en 7) true).setFld (HIF_FRr_DN_HEAD_index 7) 15).setReg (MSIX_TABLE 8 3) 0), by decide +kernel⟩,
    ⟨(7), (0), (zeros 8 ++ [40, 0, 0, 1]), ([1, 2]), ({ (tPan fun d => ((d.setFld (HIF_FRr_DN_CFG_size_log2 7) 4).setBit (HIF_FRr_DN_CFG_en 7) true).setFld (HIF_FRr_DN_HEAD_index 7) 15).dev with pbm := ⟨[(0, fit 40 [1, 2])], 1⟩ }), (tPan fun d => ((d.setFld (HIF_FRr_DN_CFG_size_log2 7) 4).setBit (HIF_FRr_DN_CFG_en 7) true).setFld (HIF_FRr_DN_HEAD_index 7) 15), by decide +kernel⟩,
    ⟨(7), (0), (zeros 8 ++ [40, 0, 1, 1, 9, 15]), ([1, 2]), ({ (tPan fun d => ((d.setFld (HIF_FRr_DN_CFG_size_log2 7) 4).setBit (HIF_FRr_DN_CFG_en 7) true).setFld (HIF_FRr_DN_HEAD_index 7) 15).dev with pbm := ⟨[(0, fit 40 [1, 2])], 1⟩ }), (tPan fun d => ((d.setFld (HIF_FRr_DN_CFG_size_log2 7) 4).setBit (HIF_FRr_DN_CFG_en 7) true).setFld (HIF_FRr_DN_HEAD_index 7) 15), by decide +kernel⟩,
    ⟨(7), (zeros 8 ++ [40, 0, 1, 1, 9, 15]), ([1, 2]), (tFullPbm), by decide +kernel, tFullPbm_full _ (by decide)⟩,
    ⟨(3), (tBase), by decide +kernel⟩,
    ⟨(4), (tDev fun d => { d with pbm := ⟨[(4, zeros 96)], 5⟩ }), by decide +kernel⟩,
    ⟨(4), (tDev fun d => { d with hif := { d.hif with mqWaiting := List.replicate 256 ⟨[], 0, some 4⟩ } }), by decide +kernel⟩,
    ⟨(4), (tDev fun d => ({ d with pbm := ⟨[(4, zeros 96)], 5⟩ }).setFld HIF_MGMT_TX_CTL_length 60), by decide +kernel⟩,
    ⟨(4), (14), (tDev fun d => ({ d with pbm := ⟨[(4, zeros 12 ++ [0x88, 0xF7] ++ zeros 46)], 5⟩ }).setFld HIF_MGMT_TX_CTL_length 60), by decide +kernel⟩,
    ⟨(4), (tDev fun d => { d with isolated := [192] }), by decide +kernel⟩,
    ⟨(4), (tDev fun d => { d with pbm := ⟨[(4, zeros 96)], 5⟩, hif := { d.hif with mgmtTx := [4] } }), by decide +kernel⟩⟩

end
end

section
/-! PROOF. What each bit of a register's word is after a write (00_scope.md R4 to R6). -/

namespace Sys2Proof.Machine

/-- A field covers a bit. -/
abbrev FieldDesc.Covers (x : FieldDesc) (k : Nat) : Prop := x.lo ≤ k ∧ k ≤ x.hi

/-- Two fields of one register share no bit. -/
abbrev FieldDesc.Apart (x y : FieldDesc) : Prop := x.hi < y.lo ∨ y.hi < x.lo

/-- The value a write carries for a field is listed as reserved (R6). -/
abbrev FieldDesc.Refuses (x : FieldDesc) (w : Word) : Prop := ∃ p ∈ x.reserved, p.1 ≤ getBits w x.hi x.lo ∧ getBits w x.hi x.lo ≤ p.2

/-- Bit `k` of a field after a write of `w`, from the bit it held (R4, R6). -/
def FieldDesc.bitAfter (x : FieldDesc) (w : Word) (k : Nat) (b : Bool) : Bool :=
  match x.acc with
  | .rw => if x.Refuses w then b else w.getLsbD k
  | .w1c => b && !w.getLsbD k
  | _ => b

/-- A write stores nothing in an RO, W1S or WO field. -/
theorem FieldDesc.bitAfter_unstored {x : FieldDesc} (hrw : x.acc ≠ .rw) (hw1c : x.acc ≠ .w1c) (w : Word) (k : Nat) (b : Bool) :
    x.bitAfter w k b = b := by
  unfold FieldDesc.bitAfter
  cases h : x.acc with
  | rw => exact absurd h hrw
  | w1c => exact absurd h hw1c
  | ro | w1s | wo => rfl

/-- A field's write changes the bits it covers, each by itself, and no other. -/
theorem writeField_getLsbD (w u : Word) (x : FieldDesc) (k : Nat) (hk : k < 32) :
    (writeField w u x).getLsbD k = if x.Covers k then x.bitAfter w k (u.getLsbD k) else u.getLsbD k := by
  have hres : (x.reserved.any fun r => decide (r.1 ≤ getBits w x.hi x.lo) && decide (getBits w x.hi x.lo ≤ r.2)) = decide (x.Refuses w) := by
    rw [Bool.eq_iff_iff]; simp
  unfold writeField FieldDesc.bitAfter
  cases x.acc with
  | rw =>
    simp only [hres, decide_eq_true_eq]
    by_cases hr : x.Refuses w
    · simp [hr]
    · rw [if_neg hr, if_neg hr, setBits_getLsbD]
      by_cases hc : x.Covers k
      · have hw : k - x.lo < x.hi + 1 - x.lo := by omega
        rw [if_pos ⟨hk, hc⟩, if_pos hc, getBits_testBit, Nat.add_sub_cancel' hc.1]
        simp [hw]
      · rw [if_neg (fun h => hc h.2), if_neg hc]
  | w1c =>
    have hm : (bitMask x.hi x.lo).getLsbD k = decide (x.Covers k) := by
      rw [bitMask_getLsbD, decide_eq_decide]
      omega
    simp only [BitVec.getLsbD_and, BitVec.getLsbD_not, hm]
    by_cases hc : x.Covers k <;> simp [hc, hk]
  | ro | w1s | wo => simp

/-- The fields that do not cover a bit leave it. -/
theorem foldl_writeField_uncovered (w : Word) (l : List FieldDesc) (u : Word) (k : Nat) (hk : k < 32) (h : ∀ x ∈ l, ¬ x.Covers k) :
    (l.foldl (writeField w) u).getLsbD k = u.getLsbD k := by
  induction l generalizing u with
  | nil => rfl
  | cons y l ih =>
    rw [List.foldl_cons, ih _ fun x hx => h x (List.mem_cons_of_mem y hx), writeField_getLsbD w u y k hk, if_neg (h y List.mem_cons_self)]

/-- Of fields that lie apart, the one that covers a bit alone decides it. -/
theorem foldl_writeField_covered (w : Word) (l : List FieldDesc) (u : Word) (x : FieldDesc) (k : Nat) (hk : k < 32)
    (hl : l.Pairwise FieldDesc.Apart) (hx : x ∈ l) (hc : x.Covers k) :
    (l.foldl (writeField w) u).getLsbD k = x.bitAfter w k (u.getLsbD k) := by
  induction l generalizing u with
  | nil => cases hx
  | cons y l ih =>
    obtain ⟨hy, hl⟩ := List.pairwise_cons.mp hl
    rw [List.foldl_cons]
    rcases List.mem_cons.mp hx with rfl | hx
    · have hrest : ∀ z ∈ l, ¬ z.Covers k := fun z hz => by have := hy z hz; omega
      rw [foldl_writeField_uncovered w l _ k hk hrest, writeField_getLsbD w u x k hk, if_pos hc]
    · have hyk : ¬ y.Covers k := by have := hy x hx; omega
      rw [ih _ hl hx, writeField_getLsbD w u y k hk, if_neg hyk]

/-- Words that agree in a field's bits have the same value in it. -/
theorem getBits_eq_of_getLsbD (u w : Word) (hi lo : Nat) (h : ∀ k, lo ≤ k → k ≤ hi → u.getLsbD k = w.getLsbD k) :
    getBits u hi lo = getBits w hi lo := by
  apply Nat.eq_of_testBit_eq
  intro i
  rw [getBits_testBit, getBits_testBit]
  by_cases hi' : i < hi + 1 - lo
  · rw [h (lo + i) (by omega) (by omega)]
  · simp [hi']

/-- Settles O9: each bit of the word is decided by the one field that covers it, or by none. -/
theorem fieldwiseWrite : Obligations.FieldwiseWrite := by
  unfold Obligations.FieldwiseWrite
  intro r old w hfit hapart
  have hbit : ∀ x ∈ r.fields, ∀ k, x.lo ≤ k → k ≤ x.hi → (writeWord r old w).getLsbD k = x.bitAfter w k (old.getLsbD k) :=
    fun x hx k hlo hhi => foldl_writeField_covered w r.fields old x k (by have := hfit x hx; omega) hapart hx ⟨hlo, hhi⟩
  refine ⟨fun x hx hacc hfree => ?_, fun x hx hacc hres => ?_, fun x hx hacc k hlo hhi => ?_, fun x hx hrw hw1c => ?_, fun k hk hnone => ?_⟩
  · have hr : ¬ x.Refuses w := fun ⟨p, hp, hv⟩ => hfree p hp hv
    exact getBits_eq_of_getLsbD _ _ _ _ fun k hlo hhi => by simp [hbit x hx k hlo hhi, FieldDesc.bitAfter, hacc, hr]
  · have hr : x.Refuses w := hres
    exact getBits_eq_of_getLsbD _ _ _ _ fun k hlo hhi => by simp [hbit x hx k hlo hhi, FieldDesc.bitAfter, hacc, hr]
  · simp [hbit x hx k hlo hhi, FieldDesc.bitAfter, hacc]
  · exact getBits_eq_of_getLsbD _ _ _ _ fun k hlo hhi => by rw [hbit x hx k hlo hhi, FieldDesc.bitAfter_unstored hrw hw1c]
  · exact foldl_writeField_uncovered w r.fields old k hk hnone

/-- Settles O8, by evaluation of the register map. -/
theorem registerFieldsApart : Obligations.RegisterFieldsApart := by
  unfold Obligations.RegisterFieldsApart
  decide +kernel

end Sys2Proof.Machine
end

section
/-! SUPPORT. How a command of each kind completes, and the parts of the device that an access changes. -/

namespace Sys2Proof.Machine

/-! ### What a command that completes leaves -/

theorem Part.agree_refl (p : Part) (d : Dev) : p.agree d d := by cases p <;> rfl

theorem Part.agree_trans {p : Part} {d e f : Dev} (h : p.agree d e) (g : p.agree e f) : p.agree d f := by
  cases p <;> exact Eq.trans g h

/-- A command of the core that reads the fuses. -/
theorem completes_of_onDevF {c : Instr} {s : State} {g : Fuses → Dev → Dev} {ps : List Part} {rs : Nat → Bool} {P : State → Prop}
    (hc : exec c s = s.onDevF g) (hup : s.dev.inReset = false) (hparts : ∀ p, p ∉ ps → p.agree s.dev (g s.fuses s.dev))
    (hregs : ∀ a, rs a = false → (g s.fuses s.dev).reg a = s.dev.reg a) (hP : P { s with dev := g s.fuses s.dev }) :
    Completes c s ps rs P :=
  ⟨_, hc.trans (s.onDevF_up g hup), ⟨rfl, rfl, hparts, hregs⟩, hP⟩

/-- A command of the core that may burn fuses, and here burns none. -/
theorem completes_of_onFuses {c : Instr} {s : State} {g : Fuses → Dev → Fuses × Dev} {d : Dev} {ps : List Part} {rs : Nat → Bool}
    {P : State → Prop} (hc : exec c s = s.onFuses g) (hup : s.dev.inReset = false) (hg : g s.fuses s.dev = (s.fuses, d))
    (hparts : ∀ p, p ∉ ps → p.agree s.dev d) (hregs : ∀ a, rs a = false → d.reg a = s.dev.reg a) (hP : P { s with dev := d }) :
    Completes c s ps rs P :=
  ⟨{ s with dev := d }, by rw [hc, s.onFuses_up g hup, hg], ⟨rfl, rfl, hparts, hregs⟩, hP⟩

/-- A command that the Kettle or the monitors answer. -/
theorem completes_of_onKettle {c : Instr} {s : State} {g : Dev → Dev} {ps : List Part} {rs : Nat → Bool} {P : State → Prop}
    (hc : exec c s = s.onKettle g) (hparts : ∀ p, p ∉ ps → p.agree s.dev (g s.dev))
    (hregs : ∀ a, rs a = false → (g s.dev).reg a = s.dev.reg a) (hP : P { s with dev := g s.dev }) : Completes c s ps rs P :=
  ⟨_, hc, ⟨rfl, rfl, hparts, hregs⟩, hP⟩

/-! ### The parts that an access changes -/

theorem Part.agree_answer {p : Part} (h : p ≠ .rdata) (d : Dev) (m : Sys2Proof.Master) (v : Nat) : p.agree d (d.answer m v) := by
  cases p with
  | rdata => exact absurd rfl h
  | _ => rfl

theorem Part.agree_capture {p : Part} (h : p ≠ .shadows) (d : Dev) (m : Sys2Proof.Master) (a : Nat) (w : Word) :
    p.agree d (d.capture m a w) := by
  cases p with
  | shadows => exact absurd rfl h
  | _ => rfl

theorem Part.agree_hold {p : Part} (h : p ≠ .held) (d : Dev) (m : Sys2Proof.Master) (a : Nat) (w : Word) : p.agree d (d.hold m a w) := by
  cases p with
  | held => exact absurd rfl h
  | _ => rfl

theorem Part.agree_setReg (p : Part) (d : Dev) (a : Nat) (w : Word) : p.agree d (d.setReg a w) := by cases p <;> rfl

theorem Part.agree_takeHeld {p : Part} (h : p ≠ .held) (d : Dev) (m : Sys2Proof.Master) (a : Nat) : p.agree d (d.takeHeld m a).2 := by
  cases p with
  | held => exact absurd rfl h
  | _ => rfl

theorem Part.agree_takeShadow {p : Part} (h : p ≠ .shadows) (d : Dev) (m : Sys2Proof.Master) (a : Nat) (w : Word) :
    p.agree d (d.takeShadow m a w).2 := by
  unfold Dev.takeShadow
  cases Tab.find d.shadows (pairKey m a) with
  | none => exact p.agree_refl d
  | some v =>
    cases p with
    | shadows => exact absurd rfl h
    | _ => rfl

/-! ### What a master reads, holds and has captured -/

theorem Dev.find_answer (d : Dev) (m : Sys2Proof.Master) (v k : Nat) :
    Tab.find (d.answer m v).rdata k = if k = Master.key m then some (BitVec.ofNat 64 v) else Tab.find d.rdata k := Tab.find_put _ _ _ _

theorem Dev.find_capture (d : Dev) (m : Sys2Proof.Master) (a : Nat) (w : Word) (k : Nat) :
    Tab.find (d.capture m a w).shadows k = if k = pairKey m a then some w else Tab.find d.shadows k := Tab.find_put _ _ _ _

theorem Dev.find_hold (d : Dev) (m : Sys2Proof.Master) (lo : Nat) (w : Word) (k : Nat) :
    Tab.find (d.hold m lo w).held k = if k = pairKey m lo then some w else Tab.find d.held k := Tab.find_put _ _ _ _

theorem Dev.find_takeHeld (d : Dev) (m : Sys2Proof.Master) (lo k : Nat) :
    Tab.find (d.takeHeld m lo).2.held k = if k = pairKey m lo then none else Tab.find d.held k := Tab.find_del _ _ _

theorem Dev.takeShadow_word (d : Dev) (m : Sys2Proof.Master) (a : Nat) (w : Word) :
    (d.takeShadow m a w).1 = (Tab.find d.shadows (pairKey m a)).getD w := by
  unfold Dev.takeShadow
  cases Tab.find d.shadows (pairKey m a) <;> rfl

theorem Dev.takeShadow_regs (d : Dev) (m : Sys2Proof.Master) (a : Nat) (w : Word) : (d.takeShadow m a w).2.regs = d.regs := by
  unfold Dev.takeShadow
  cases Tab.find d.shadows (pairKey m a) <;> rfl

theorem Dev.find_takeShadow (d : Dev) (m : Sys2Proof.Master) (a : Nat) (w : Word) (k : Nat) :
    Tab.find (d.takeShadow m a w).2.shadows k = if k = pairKey m a then none else Tab.find d.shadows k := by
  unfold Dev.takeShadow
  cases h : Tab.find d.shadows (pairKey m a) with
  | none => by_cases hk : k = pairKey m a <;> simp [hk, h]
  | some v => exact Tab.find_del _ _ _

end Sys2Proof.Machine
end

section
/-! PROOF. The machine after reset, after POR_N falls and after the Kettle loses its power (R11, R485). -/

namespace Sys2Proof.Machine

/-! ### Reset values -/

theorem Dev.blank_reg (a : Nat) : Dev.blank.reg a = regReset a := rfl

/-- No register stands at an unassigned offset, so its reset value is 0 (R7). -/
theorem regReset_unassigned {a : Nat} (h : findReg a = none) : regReset a = 0 := by simp [regReset, h]

theorem regReset_TEL_MASKm : ∀ m, m < 8 → regReset (TEL_MASKm m) = 0xFFFFFFFF := by decide +kernel

/-- Settles O3: a register that no write has reached holds its reset value. -/
theorem resetState : Obligations.ResetState := by
  unfold Obligations.ResetState
  have hreg : ∀ a, State.reset.dev.reg a = regReset a := Dev.blank_reg
  refine ⟨hreg, fun a ha => (hreg a).trans (regReset_unassigned ha), ?_, ?_, ?_, fun m hm => (hreg _).trans (regReset_TEL_MASKm m hm), ?_,
    rfl, rfl, rfl, rfl, rfl, rfl, rfl⟩ <;>
  · rw [hreg]; decide +kernel

/-! ### Registers when some go back to reset -/

/-- A device that keeps the listed registers of some addresses: there they read as before, elsewhere as after reset. -/
theorem Dev.reg_of_regs_filter {d e : Dev} (q : Nat → Bool) (h : e.regs = d.regs.filter fun x => q x.1) (a : Nat) :
    e.reg a = if q a then d.reg a else regReset a := by
  unfold Dev.reg Tab.getD
  rw [h, Tab.find_filter]
  split <;> rfl

/-- The core's reset keeps the Kettle's registers alone (R11). -/
theorem coreReset_reg (d : Dev) (a : Nat) : (coreReset d).reg a = if within a 0x100000 0x1FFFFF then d.reg a else regReset a :=
  Dev.reg_of_regs_filter (within · 0x100000 0x1FFFFF) rfl a

/-- The Kettle's reset values, but for the bit it sets. -/
theorem kettleReset_reg (d : Dev) (a : Nat) (ha : a ≠ KTL_RTC_STATUS) :
    (kettleReset d).reg a = if within a 0x100000 0x1FFFFF then regReset a else d.reg a := by
  unfold kettleReset
  simp only
  rw [Dev.setBit, Dev.reg_setFld, if_neg ha, Dev.reg_of_regs_filter (d := d) (fun b => !within b 0x100000 0x1FFFFF) rfl a]
  cases within a 0x100000 0x1FFFFF <;> rfl

theorem kettleReset_fresh (d : Dev) : (kettleReset d).fld KTL_RTC_STATUS_fresh = 1 := Dev.fld_setFld_same _ _ _ (by decide)

theorem porAssert_up (d : Dev) (h : d.inReset = false) : porAssert d = { coreReset d with inReset := true } := by simp [porAssert, h]

theorem porAssert_inReset (d : Dev) : (porAssert d).inReset = true := by
  cases h : d.inReset <;> simp [porAssert, h]

/-- What the core's reset keeps beside the Kettle. -/
theorem Part.agree_coreReset {p : Part} (h : p ∈ [Part.draws, .outs, .jrnl, .ktl]) (d : Dev) : p.agree d (coreReset d) := by
  fin_cases h <;> rfl

theorem Part.agree_inReset_other {p : Part} (h : p ≠ .inReset) (d : Dev) (b : Bool) : p.agree d { d with inReset := b } := by
  cases p with
  | inReset => exact absurd rfl h
  | _ => rfl

theorem Part.agree_kettleReset {p : Part} (h : p ∉ [Part.ktl, .vault, .jrnl]) (d : Dev) : p.agree d (kettleReset d) := by
  cases p with
  | ktl | vault | jrnl => simp at h
  | _ => rfl

/-! ### The owner records (R333) in a tamper response -/

theorem zeroiseVault_owners (b : Bool) (f : Fuses) (d : Dev) : (zeroiseVault b f d).1.owners = f.owners := by
  cases b <;> rfl

theorem tamperRespond_owners (f : Fuses) (d : Dev) (source state logged : Nat) : (tamperRespond f d source state logged).1.owners = f.owners := by
  have hz : ∀ (z b : Bool) (e e' : Dev), (if z then zeroiseVault b f e else (f, e')).1.owners = f.owners := fun z b e e' => by
    cases z
    · rfl
    · exact zeroiseVault_owners b f e
  unfold tamperRespond
  simp only
  split
  · exact hz _ _ _ _
  · split <;> exact hz _ _ _ _

theorem tamperEvent_owners (source live : Nat) (f : Fuses) (d : Dev) : (tamperEvent source live f d).1.owners = f.owners := by
  unfold tamperEvent
  split
  · rfl
  · exact tamperRespond_owners _ _ _ _ _

/-! ### The four commands -/

/-- Settles O14: the core's reset and the Kettle's each clear what is theirs and keep the rest. -/
theorem porAssertResetsTheCore : Obligations.PorAssertResetsTheCore := by
  unfold Obligations.PorAssertResetsTheCore
  refine ⟨fun s hup => ?_, fun s => ?_, fun s => ?_, fun live s hup => ?_⟩
  · have hd := porAssert_up s.dev hup
    refine completes_of_onKettle rfl (fun p hp => ?_) (fun a ha => ?_) ⟨porAssert_inReset _, fun a ha => ?_, ?_⟩
    · rw [hd]
      have hkeep : p ∈ [Part.draws, .outs, .jrnl, .ktl] := by cases p <;> simp at hp ⊢
      exact Part.agree_trans (Part.agree_coreReset hkeep _) (Part.agree_inReset_other (by rintro rfl; simp at hp) _ _)
    · rw [hd]
      exact (coreReset_reg s.dev a).trans (if_pos (by simpa using ha))
    · simp only [hd]
      exact (coreReset_reg s.dev a).trans (by rw [ha]; rfl)
    · simp only [hd]
      exact ⟨rfl, rfl, rfl, rfl⟩
  · refine completes_of_onKettle rfl (fun p hp => Part.agree_kettleReset hp _) (fun a ha => ?_)
      ⟨rfl, kettleReset_fresh _, fun a ha hne => (kettleReset_reg s.dev a hne).trans (if_pos ha), rfl, rfl, rfl⟩
    have hne : a ≠ KTL_RTC_STATUS := fun h => absurd (h ▸ ha) (by decide)
    rw [kettleReset_reg s.dev a hne, ha]
    rfl
  · refine completes_of_onKettle (g := fun d => kettleReset { coreReset d with inReset := true }) rfl (fun p hp => ?_) (fun a ha => nomatch ha)
      ⟨rfl, rfl, kettleReset_fresh _, fun a hne => ?_, rfl⟩
    · have hkeep : p = .draws ∨ p = .outs := by cases p <;> simp at hp ⊢
      rcases hkeep with rfl | rfl <;> rfl
    · rw [kettleReset_reg _ a hne]
      split
      · rfl
      · rename_i hout
        exact (coreReset_reg s.dev a).trans (if_neg hout)
  · have htrip : supplyTrip false live s.fuses s.dev =
        ((tamperEvent 5 live s.fuses s.dev).1, porAssert (tamperEvent 5 live s.fuses s.dev).2) := by simp [supplyTrip, hup]
    refine ⟨_, rfl, ?_, rfl, ?_⟩
    · exact (congrArg (·.2.inReset) htrip).trans (porAssert_inReset _)
    · exact (congrArg (·.1.owners) htrip).trans (tamperEvent_owners _ _ _ _)

end Sys2Proof.Machine
end

section
/-! SUPPORT. What an access by a master comes to: the words it touches, the register found, the read or the write made (R3 to R9). -/

namespace Sys2Proof.Machine

/-- A master of BAR0 other than the debug master. -/
abbrev OnBar0 (m : Sys2Proof.Master) : Prop := m = .host ∨ m = .hcq ∨ m = .mgmt ∨ ∃ b, m = .cc b

theorem OnBar0.not_engine {m : Sys2Proof.Master} (h : OnBar0 m) (e : Nat) : m ≠ .engine e := by
  rcases h with rfl | rfl | rfl | ⟨b, rfl⟩ <;> exact nofun

theorem OnBar0.not_debug {m : Sys2Proof.Master} (h : OnBar0 m) : m ≠ .debug := by
  rcases h with rfl | rfl | rfl | ⟨b, rfl⟩ <;> exact nofun

/-! ### The words an access touches -/

theorem wordAt_of_aligned {a : Nat} (h : a % 4 = 0) : wordAt a = a := by unfold wordAt; omega

theorem touched_of_fit {a len : Nat} (h : a % 4 + len ≤ 4) : touched a len = [wordAt a] := if_pos h

theorem touched_word {a : Nat} (h : a % 4 = 0) : touched a 4 = [a] := by rw [touched_of_fit (by omega), wordAt_of_aligned h]

/-- A narrow access covers no whole register (R3). -/
theorem covered32_narrow {a len : Nat} (h : len < 4) (v : Nat) : covered32 a len v = [] := by
  have : ∀ r, ¬ (a ≤ r ∧ r + 4 ≤ a + len) := fun r => by omega
  simp [covered32, this]

theorem covered32_word {a : Nat} (h : a % 4 = 0) (v : Nat) : covered32 a 4 v = [(a, BitVec.ofNat 32 v)] := by
  simp [covered32, touched_word h]

/-- No register of a complex's clock stands at an unassigned offset. -/
theorem regStopped_unassigned {a : Nat} (h : findReg a = none) (d : Dev) : regStopped d a = false := by
  have hA : findReg HIF_CCA_TICK ≠ none := by decide +kernel
  have hB : findReg HIF_CCB_TICK ≠ none := by decide +kernel
  have ha : a ≠ HIF_CCA_TICK := fun e => hA (e ▸ h)
  have hb : a ≠ HIF_CCB_TICK := fun e => hB (e ▸ h)
  simp [regStopped, tickOf, ha, hb]

theorem regStopped_of_tickOf {a : Nat} (h : tickOf a = none) (d : Dev) : regStopped d a = false := by simp [regStopped, h]

theorem pcieCut_false {d : Dev} (h : d.isolated.contains 200 = false) (m : Sys2Proof.Master) : pcieCut d m = false := by
  simp only [pcieCut, h, Bool.and_false]

theorem waits_none {d : Dev} {a len : Nat} (h : (touched a len).any (regStopped d) = false) (m : Sys2Proof.Master) (b : Bool) :
    waits d m b a len = none := by simp [waits, h]

/-! ### Writes -/

/-- What a write comes to, for a master that is no engine and registers in running domains. -/
theorem writeAccess_eq {m : Sys2Proof.Master} (hm : ∀ e, m ≠ .engine e) {d : Dev} {a len : Nat}
    (hrun : (touched a len).any (regStopped d) = false) (v : Nat) (f : Fuses) :
    writeAccess m a len v f d =
      if pcieCut d m then (f, d) else (covered32 a len v).foldl (fun s x => busWrite m x.1 x.2 s.1 s.2) (f, d) := by
  unfold writeAccess
  cases m with
  | engine e => exact absurd rfl (hm e)
  | host | hcq | mgmt | cc | debug => simp only [waits_none hrun]

/-- A write narrower than a register is discarded (R3). -/
theorem writeAccess_narrow {m : Sys2Proof.Master} (hm : ∀ e, m ≠ .engine e) {d : Dev} {a len : Nat} (hlen : len < 4)
    (hrun : (touched a len).any (regStopped d) = false) (v : Nat) (f : Fuses) : writeAccess m a len v f d = (f, d) := by
  rw [writeAccess_eq hm hrun, covered32_narrow hlen]
  exact ite_self _

/-- A write of one whole register. -/
theorem writeAccess_word {m : Sys2Proof.Master} (hm : ∀ e, m ≠ .engine e) {d : Dev} {a : Nat} (ha : a % 4 = 0)
    (hrun : regStopped d a = false) (v : Nat) (f : Fuses) :
    writeAccess m a 4 v f d = if pcieCut d m then (f, d) else busWrite m a (BitVec.ofNat 32 v) f d := by
  rw [writeAccess_eq hm (by simp [touched_word ha, hrun]), covered32_word ha]
  rfl

/-- A write at an unassigned offset is ignored (R7). -/
theorem busWrite_unassigned {m : Sys2Proof.Master} {f : Fuses} (hdbg : m = .debug → debugOpen f.lc = true) {a : Nat} (hreg : findReg a = none)
    (hreq : inCreq a = false) (w : Word) (d : Dev) : busWrite m a w f d = (f, d) := by
  have hopen : ¬ (m = .debug ∧ !debugOpen f.lc) := fun ⟨h, hn⟩ => by simp [hdbg h] at hn
  simp only [busWrite, if_neg hopen, hreq, hreg, Bool.false_eq_true, if_false]

theorem busWrite_found {m : Sys2Proof.Master} (hm : m ≠ .debug) {a : Nat} {r : RegDesc} {ix : List Nat} (hreg : findReg a = some (r, ix))
    (hreq : inCreq a = false) (w : Word) (f : Fuses) (d : Dev) : busWrite m a w f d = foundWrite f d m r ix a w := by
  simp [busWrite, hm, hreq, hreg]

/-! ### Reads -/

/-- A read within one word that waits for nothing: the bytes addressed of the word go to the master. -/
theorem readAccess_word {m : Sys2Proof.Master} (hm : ∀ e, m ≠ .engine e) {f : Fuses} {d d' : Dev} {a len : Nat} {w : Word}
    (hcut : d.isolated.contains 200 = false) (hfit : a % 4 + len ≤ 4) (hrun : regStopped d (wordAt a) = false)
    (hitem : readWaits d m a len = false) (hbus : busRead f d m (wordAt a) = (some w, d')) :
    readAccess f d m a len = d'.answer m (w.toNat / 256 ^ (a % 4) % 256 ^ len) := by
  have hregs : readRegs f m d (touched a len) = (some w.toNat, d') := by simp [touched_of_fit hfit, readRegs, hbus]
  unfold readAccess
  cases m with
  | engine e => exact absurd rfl (hm e)
  | host | hcq | mgmt | cc | debug =>
    simp only [pcieCut_false hcut, waits_none (show (touched a len).any (regStopped d) = false by simp [touched_of_fit hfit, hrun]), hitem, hregs]
    rfl

/-- A read within one word waits for no item when none is held for that word. -/
theorem readWaits_false {d : Dev} {a len : Nat} (hfit : a % 4 + len ≤ 4) (hheld : itemHeld d (wordAt a) = false)
    (hreq : inCreq (wordAt a) = false) (m : Sys2Proof.Master) : readWaits d m a len = false := by
  have hst : wordAt a ≠ 0x901020 := fun h => by simp [h, inCreq] at hreq
  simp [readWaits, touched_of_fit hfit, hheld, hst]

theorem busRead_unassigned {m : Sys2Proof.Master} {f : Fuses} (hdbg : m = .debug → debugOpen f.lc = true) {d : Dev} {a : Nat}
    (hreg : findReg a = none) (hreq : inCreq a = false) (hheld : itemHeld d a = false) : busRead f d m a = (some 0, d) := by
  have hopen : ¬ (m = .debug ∧ !debugOpen f.lc) := fun ⟨h, hn⟩ => by simp [hdbg h] at hn
  have hst : a ≠ 0x901020 := fun h => by simp [h, inCreq] at hreq
  rw [busRead, if_neg hopen]
  simp [hreq, hreg, hheld, hst]

theorem busRead_found {m : Sys2Proof.Master} (hm : m ≠ .debug) {a : Nat} {r : RegDesc} {ix : List Nat} (hreg : findReg a = some (r, ix))
    (hreq : inCreq a = false) {d : Dev} (hheld : itemHeld d a = false) (f : Fuses) :
    busRead f d m a = (some (regRead f d m r ix a).1, (regRead f d m r ix a).2) := by
  have hst : a ≠ 0x901020 := fun h => by simp [h, inCreq] at hreq
  simp [busRead, hm, hreq, hreg, hheld, hst]

/-! ### Registers found: what kind of write and read each takes -/

theorem foundWrite_single {m : Sys2Proof.Master} {r : RegDesc} (hw : r.writable = true) (hfw : fwOnly r = false) (hlo : isLo r = false)
    (hhi : isHi r = false) (f : Fuses) (d : Dev) (ix : List Nat) (a : Nat) (w : Word) :
    foundWrite f d m r ix a w = regWrite f d m r ix a w := by simp [foundWrite, hw, hfw, hlo, hhi]

theorem foundWrite_lo {m : Sys2Proof.Master} {r : RegDesc} (hw : r.writable = true) (hfw : fwOnly r = false) (hlo : isLo r = true)
    (f : Fuses) (d : Dev) (ix : List Nat) (a : Nat) (w : Word) : foundWrite f d m r ix a w = (f, d.hold m a w) := by
  simp [foundWrite, hw, hfw, hlo]

theorem foundWrite_hi {m : Sys2Proof.Master} {r : RegDesc} (hw : r.writable = true) (hfw : fwOnly r = false) (hlo : isLo r = false)
    (hhi : isHi r = true) (f : Fuses) (d : Dev) (ix : List Nat) (a : Nat) (w : Word) :
    foundWrite f d m r ix a w =
      (f, pairWrite (d.takeHeld m (a - 4)).2 m r (ix.getD 0 0) (a - 4) (Word64.ofHalves w (d.takeHeld m (a - 4)).1)) := by
  simp [foundWrite, hw, hfw, hlo, hhi]

/-- The offset of a word, outside the tick registers of the complexes and the request port of firmware. -/
abbrev PlainOffset (a : Nat) : Prop := a % 4 = 0 ∧ tickOf a = none ∧ inCreq a = false

/-- A whole register written by a master of BAR0 other than the debug master. -/
theorem writeAccess_found {m : Sys2Proof.Master} (hm : OnBar0 m) {d : Dev} (hcut : d.isolated.contains 200 = false) {a : Nat}
    (ha : PlainOffset a) {r : RegDesc} {ix : List Nat} (hreg : findReg a = some (r, ix)) (w : Word) (f : Fuses) :
    writeAccess m a 4 w.toNat f d = foundWrite f d m r ix a w := by
  obtain ⟨hal, htick, hreq⟩ := ha
  rw [writeAccess_word hm.not_engine hal (regStopped_of_tickOf htick d), pcieCut_false hcut, BitVec.ofNat_toNat, BitVec.setWidth_eq,
    busWrite_found hm.not_debug hreg hreq]
  rfl

/-! ### Reads of a found register -/

/-- A read of bytes of a register that no item is held for. -/
theorem readAccess_found {m : Sys2Proof.Master} (hm : OnBar0 m) {d : Dev} (hcut : d.isolated.contains 200 = false) {a : Nat}
    (ha : PlainOffset a) (hheld : itemHeld d a = false) {r : RegDesc} {ix : List Nat} (hreg : findReg a = some (r, ix)) (f : Fuses)
    {k len : Nat} (hk : k < 4) (hfit : k + len ≤ 4) :
    readAccess f d m (a + k) len =
      (regRead f d m r ix a).2.answer m ((regRead f d m r ix a).1.toNat / 256 ^ k % 256 ^ len) := by
  obtain ⟨hal, htick, hreq⟩ := ha
  have hword : wordAt (a + k) = a := by unfold wordAt; omega
  have hoff : (a + k) % 4 = k := by omega
  have hfit' : (a + k) % 4 + len ≤ 4 := by omega
  rw [readAccess_word hm.not_engine hcut hfit' (by rw [hword]; exact regStopped_of_tickOf htick d)
    (readWaits_false hfit' (by rw [hword]; exact hheld) (by rw [hword]; exact hreq) m)
    (by rw [hword]; exact busRead_found hm.not_debug hreg hreq hheld f), hoff]

/-- A read of the whole register. -/
theorem readAccess_whole {m : Sys2Proof.Master} (hm : OnBar0 m) {d : Dev} (hcut : d.isolated.contains 200 = false) {a : Nat}
    (ha : PlainOffset a) (hheld : itemHeld d a = false) {r : RegDesc} {ix : List Nat} (hreg : findReg a = some (r, ix)) (f : Fuses) :
    readAccess f d m a 4 = (regRead f d m r ix a).2.answer m (regRead f d m r ix a).1.toNat := by
  have h := readAccess_found hm hcut ha hheld hreg f (k := 0) (len := 4) (by decide) (by decide)
  have hlt : (regRead f d m r ix a).1.toNat % 256 ^ 4 = (regRead f d m r ix a).1.toNat := Nat.mod_eq_of_lt (BitVec.isLt _)
  rwa [Nat.add_zero, Nat.pow_zero, Nat.div_one, hlt] at h

/-- A read that answers completes: beside the answer it changes what its capture or its shadow changes. -/
theorem read_completes {c : Instr} {m : Sys2Proof.Master} {s : State} {a len v : Nat} {d : Dev} {ps : List Part} {P : State → Prop}
    (hc : exec c s = s.onDevF fun f d => readAccess f d m a len) (hup : s.dev.inReset = false)
    (hd : readAccess s.fuses s.dev m a len = d.answer m v) (hparts : ∀ p, p ∉ ps → p.agree s.dev d) (hregs : d.regs = s.dev.regs)
    (hP : P { s with dev := d.answer m v }) : Completes c s (.rdata :: ps) (fun _ => false) P := by
  refine completes_of_onDevF hc hup (fun p hp => ?_) (fun b _ => ?_) ?_
  · obtain ⟨hrd, hps⟩ : p ≠ .rdata ∧ p ∉ ps := by simpa using hp
    rw [hd]
    exact Part.agree_trans (hparts p hps) (Part.agree_answer hrd d m v)
  · rw [hd]
    exact Dev.reg_congr hregs b
  · rwa [hd]

end Sys2Proof.Machine
end

section
/-! PROOF. Registers whose write acts on nothing else, narrow accesses and unassigned offsets (R3, R6, R7). -/

namespace Sys2Proof.Machine

/-! ### Registers whose write acts on nothing else -/

/-- The registers that O10 and O11 name. -/
abbrev plainRegs : List Nat := [TIM_TB_SEL, RX_SEL, FWD_QSEL, HC_SEL, TBL_SWEEP_CFG, TEL_STORM_CFG]

theorem plainRegs_offset : ∀ a ∈ plainRegs, PlainOffset a := by decide

theorem plainRegs_write {a : Nat} (ha : a ∈ plainRegs) : ∃ r, findReg a = some (r, []) ∧ r.writable = true ∧ fwOnly r = false ∧
    isLo r = false ∧ isHi r = false ∧ ∀ f d m w, regWrite f d m r [] a w = (f, plainWrite d r a w) := by
  fin_cases ha <;>
  exact ⟨_, rfl, by decide, by decide, by decide, by decide, fun _ _ _ _ => rfl⟩

/-- Settles O11: the write reaches the register's plain fields and nothing beside them. -/
theorem plainRegisterWrite : Obligations.PlainRegisterWrite := by
  unfold Obligations.PlainRegisterWrite
  intro m a w s hup hm ha hcut
  obtain ⟨r, hreg, hw, hfw, hlo, hhi, hplain⟩ := plainRegs_write ha
  have hv : (BitVec.ofNat 64 w.toNat).toNat = w.toNat := by
    rw [BitVec.toNat_ofNat]
    exact Nat.mod_eq_of_lt (by have := w.isLt; omega)
  refine ⟨r, hreg, completes_of_onFuses (d := plainWrite s.dev r a w) rfl hup ?_ (fun p _ => p.agree_setReg _ _ _) (fun b hb => ?_)
    (Dev.reg_setReg_same _ _ _)⟩
  · rw [hv, writeAccess_found hm hcut (plainRegs_offset a ha) hreg, foundWrite_single hw hfw hlo hhi, hplain]
  · exact Dev.reg_setReg_other _ _ _ _ (by simpa using hb)

/-! ### Narrow and unassigned accesses -/

theorem narrowWrite_discarded {m : Sys2Proof.Master} (hm : ∀ e, m ≠ .engine e) {a len : Nat} (hlen : len < 4) {s : State}
    (hrun : (touched a len).any (regStopped s.dev) = false) (w : Word64) : exec (.registerWrite m a len w) s = .next s := by
  show Host.Outcome.next _ = _
  rw [writeAccess_narrow hm hlen hrun]
  exact congrArg _ (ite_self s)

theorem unassignedWrite_ignored {m : Sys2Proof.Master} (hm : ∀ e, m ≠ .engine e) {s : State} (hdbg : m = .debug → debugOpen s.fuses.lc = true)
    {a : Nat} (ha : a % 4 = 0) (hreg : findReg a = none) (hreq : inCreq a = false) (w : Word64) :
    exec (.registerWrite m a 4 w) s = .next s := by
  show Host.Outcome.next _ = _
  rw [writeAccess_word hm ha (regStopped_unassigned hreg s.dev), busWrite_unassigned hdbg hreg hreq, ite_self]
  exact congrArg _ (ite_self s)

theorem unassignedRead_completes {m : Sys2Proof.Master} (hm : ∀ e, m ≠ .engine e) {s : State} (hup : s.dev.inReset = false)
    (hdbg : m = .debug → debugOpen s.fuses.lc = true) (hcut : s.dev.isolated.contains 200 = false) {a len : Nat} (hfit : a % 4 + len ≤ 4)
    (hreg : findReg (wordAt a) = none) (hreq : inCreq (wordAt a) = false) (hheld : itemHeld s.dev (wordAt a) = false) :
    Completes (.pairLoRead m a len) s [.rdata] (fun _ => false) fun t =>
      Tab.find t.dev.rdata (Master.key m) = some 0 ∧ ∀ k, k ≠ Master.key m → Tab.find t.dev.rdata k = Tab.find s.dev.rdata k := by
  have hd : readAccess s.fuses s.dev m a len = s.dev.answer m 0 := by
    rw [readAccess_word hm hcut hfit (regStopped_unassigned hreg s.dev) (readWaits_false hfit hheld hreq m)
      (busRead_unassigned hdbg hreg hreq hheld)]
    simp
  exact read_completes rfl hup hd (fun p _ => p.agree_refl _) rfl
    ⟨(Dev.find_answer _ _ _ _).trans (if_pos rfl), fun k hk => (Dev.find_answer _ _ _ _).trans (if_neg hk)⟩

theorem plainRegs_read {a : Nat} (ha : a ∈ plainRegs) :
    ∃ r, findReg a = some (r, []) ∧ ∀ f d m, regRead f d m r [] a = (d.reg a &&& r.shown, d) := by
  fin_cases ha <;> exact ⟨_, rfl, fun _ _ _ => rfl⟩

/-- The bytes a read returns are those of the bits that the register's fields show (R5). -/
theorem plainRead_completes {m : Sys2Proof.Master} (hm : OnBar0 m) {s : State} (hup : s.dev.inReset = false) {a k len : Nat}
    (ha : a ∈ plainRegs) (hk : k < 4) (hfit : k + len ≤ 4) (hheld : itemHeld s.dev a = false)
    (hcut : s.dev.isolated.contains 200 = false) :
    ∃ r, findReg a = some (r, []) ∧ Completes (.pairLoRead m (a + k) len) s [.rdata] (fun _ => false) fun t =>
      Tab.find t.dev.rdata (Master.key m) = some (BitVec.ofNat 64 ((s.dev.reg a &&& r.shown).toNat / 256 ^ k % 256 ^ len)) := by
  obtain ⟨r, hreg, hread⟩ := plainRegs_read ha
  have hd : readAccess s.fuses s.dev m (a + k) len = s.dev.answer m ((s.dev.reg a &&& r.shown).toNat / 256 ^ k % 256 ^ len) := by
    rw [readAccess_found hm hcut (plainRegs_offset a ha) hheld hreg s.fuses hk hfit, hread]
  exact ⟨r, hreg, read_completes rfl hup hd (fun p _ => p.agree_refl _) rfl ((Dev.find_answer _ _ _ _).trans (if_pos rfl))⟩

/-- The machine after reset, but for a bit of TIM_TB_SEL that none of its fields covers. -/
def reservedBitSet : State := { State.reset with dev := Dev.blank.setReg TIM_TB_SEL 8 }

/-- The read shows the fields of the register, all 0, and not the word it holds. -/
theorem read_hides_reservedBit : exec (.pairLoRead .host TIM_TB_SEL 4) reservedBitSet =
    .next { reservedBitSet with dev := reservedBitSet.dev.answer .host 0 } := by
  rfl

/-- Refutes O10, for its last clause alone: a read shows no bit outside the register's fields (R5), and the clause asks for every bit of the
word held, in states that hold such a bit too. `narrowWrite_discarded`, `unassignedWrite_ignored` and `unassignedRead_completes` are the
other clauses, which hold; `plainRead_completes` is what holds of the last one. (It leaves out k = 4 as well, where a read of no byte
falls on the next register and, by firmware, may wait for an item held there.) -/
theorem not_narrowAndUnassignedAccesses : ¬ Obligations.NarrowAndUnassignedAccesses := by
  unfold Obligations.NarrowAndUnassignedAccesses
  rintro ⟨-, -, -, hread⟩
  obtain ⟨t, ht, -, hval⟩ := hread .host TIM_TB_SEL 0 4 reservedBitSet rfl (.inl rfl) (by decide) (by decide) (by decide) (by decide)
  cases read_hides_reservedBit.symm.trans ht
  exact absurd hval (by decide)

end Sys2Proof.Machine
end

section
/-! PROOF. Pairs written whole and views read whole (R9). -/

namespace Sys2Proof.Machine

/-! ### Pairs (R9) -/

/-- The low registers of the pairs that O12 names. -/
abbrev storedPairs : List Nat := [BLD_SRC_ADDR_LO, CMP_SRC_LO, TEL_RING_BASE_LO]

theorem storedPairs_offset : ∀ lo ∈ storedPairs, PlainOffset lo ∧ PlainOffset (lo + 4) := by decide

theorem storedPairs_lo {lo : Nat} (h : lo ∈ storedPairs) :
    ∃ r, findReg lo = some (r, []) ∧ r.writable = true ∧ fwOnly r = false ∧ isLo r = true := by
  fin_cases h <;> exact ⟨_, rfl, by decide, by decide, by decide⟩

theorem storedPairs_hi {lo : Nat} (h : lo ∈ storedPairs) :
    ∃ r, findReg (lo + 4) = some (r, []) ∧ r.writable = true ∧ fwOnly r = false ∧ isLo r = false ∧ isHi r = true ∧
      ∀ d m v, pairWrite d m r 0 lo v = d.setReg64 lo v.toNat := by
  fin_cases h <;> exact ⟨_, rfl, by decide, by decide, by decide, by decide, fun _ _ _ => rfl⟩

theorem Dev.reg_setReg64 (d : Dev) (lo v a : Nat) : (d.setReg64 lo v).reg a =
    if a = lo + 4 then BitVec.ofNat 32 (v / 2 ^ 32) else if a = lo then BitVec.ofNat 32 v else d.reg a := by
  rw [Dev.setReg64, Dev.reg_setReg, Dev.reg_setReg]

theorem ofHalves_toNat (hi lo : Word) : (Word64.ofHalves hi lo).toNat = hi.toNat * 2 ^ 32 + lo.toNat := by
  rw [Word64.ofHalves, BitVec.toNat_append, ← Nat.shiftLeft_add_eq_or_of_lt lo.isLt, Nat.shiftLeft_eq]

theorem ofHalves_low (hi lo : Word) : BitVec.ofNat 32 (Word64.ofHalves hi lo).toNat = lo := by
  rw [ofHalves_toNat]
  bv_omega

theorem ofHalves_high (hi lo : Word) : BitVec.ofNat 32 ((Word64.ofHalves hi lo).toNat / 2 ^ 32) = hi := by
  rw [ofHalves_toNat]
  bv_omega

/-! ### The nanoseconds views (Table TIME-1) -/

/-- The two registers of a time base's nanoseconds view. -/
def nsLoDesc : RegDesc := ⟨0xB00200, [(0x20, 8)], 0x0, [⟨31, 0, .ro, []⟩]⟩
def nsHiDesc : RegDesc := ⟨0xB00204, [(0x20, 8)], 0x0, [⟨31, 0, .ro, []⟩]⟩

theorem findReg_nsLo : ∀ n, n < 8 → findReg (TIM_TBn_NS_LO n) = some (nsLoDesc, [n]) := by decide +kernel
theorem findReg_nsHi : ∀ n, n < 8 → findReg (TIM_TBn_NS_HI n) = some (nsHiDesc, [n]) := by decide +kernel

theorem nsView_offset : ∀ n, n < 8 → PlainOffset (TIM_TBn_NS_LO n) ∧ PlainOffset (TIM_TBn_NS_HI n) := by decide +kernel

theorem nsDesc_shown : nsLoDesc.shown = BitVec.allOnes 32 ∧ nsHiDesc.shown = BitVec.allOnes 32 := by decide +kernel

theorem liveWord_nsLo {n : Nat} (hn : n < 8) (f : Fuses) (d : Dev) (m : Sys2Proof.Master) :
    liveWord f d m (TIM_TBn_NS_LO n) = half false (d.tb n).nanos := by
  simp only [liveWord, findReg_nsLo n hn, nsDesc_shown.1, BitVec.and_allOnes]
  rfl

theorem liveWord_nsHi {n : Nat} (hn : n < 8) (f : Fuses) (d : Dev) (m : Sys2Proof.Master) :
    liveWord f d m (TIM_TBn_NS_HI n) = half true (d.tb n).nanos := by
  simp only [liveWord, findReg_nsHi n hn, nsDesc_shown.2, BitVec.and_allOnes]
  rfl

theorem half_low_toNat (v : Nat) : (half false v).toNat = v % 2 ^ 32 := BitVec.toNat_ofNat _ _

theorem half_high (v : Nat) : half true v = BitVec.ofNat 32 (v / 2 ^ 32) :=
  BitVec.eq_of_toNat_eq (by simp [half, wd])

theorem tickOf_nsView {n : Nat} (hn : n < 8) : tickOf (TIM_TBn_NS_LO n) = none ∧ tickOf (TIM_TBn_NS_HI n) = none := by
  obtain ⟨⟨-, hlo, -⟩, -, hhi, -⟩ := nsView_offset n hn
  exact ⟨hlo, hhi⟩

/-- A read of _LO shows the low half and captures the high one (R9). -/
theorem regRead_nsLo {n : Nat} (hn : n < 8) (f : Fuses) (d : Dev) (m : Sys2Proof.Master) :
    regRead f d m nsLoDesc [n] (TIM_TBn_NS_LO n) =
      (half false (d.tb n).nanos, d.capture m (TIM_TBn_NS_HI n) (half true (d.tb n).nanos)) := by
  have hlo : isLo nsLoDesc = true := by decide
  have hnext : TIM_TBn_NS_LO n + 4 = TIM_TBn_NS_HI n := by simp only [TIM_TBn_NS_LO, TIM_TBn_NS_HI]; omega
  simp only [regRead, (tickOf_nsView hn).1, hlo, hnext, liveWord_nsLo hn, liveWord_nsHi hn]
  rfl

/-- A read of _HI takes the shadow, or the live high half (R9). -/
theorem regRead_nsHi {n : Nat} (hn : n < 8) (f : Fuses) (d : Dev) (m : Sys2Proof.Master) :
    regRead f d m nsHiDesc [n] (TIM_TBn_NS_HI n) = d.takeShadow m (TIM_TBn_NS_HI n) (half true (d.tb n).nanos) := by
  have hlo : isLo nsHiDesc = false := by decide
  have hhi : isHi nsHiDesc = true := by decide
  simp only [regRead, (tickOf_nsView hn).2, hlo, hhi, liveWord_nsHi hn]
  rfl

/-! ### The four accesses of O12 -/

theorem pairLoWrite_completes {m : Sys2Proof.Master} (hm : OnBar0 m) {lo : Nat} (hlo : lo ∈ storedPairs) (w : Word) {s : State}
    (hup : s.dev.inReset = false) (hcut : s.dev.isolated.contains 200 = false) :
    Completes (.pairLoWrite m lo w) s [.held] (fun _ => false) fun t => t.dev.inReset = false ∧
      Tab.find t.dev.held (pairKey m lo) = some w ∧ ∀ k, k ≠ pairKey m lo → Tab.find t.dev.held k = Tab.find s.dev.held k := by
  obtain ⟨r, hreg, hw, hfw, hisLo⟩ := storedPairs_lo hlo
  refine completes_of_onFuses (d := s.dev.hold m lo w) rfl hup ?_ (fun p hp => Part.agree_hold (by simpa using hp) _ _ _ _) (fun _ _ => rfl)
    ⟨hup, ?_, fun k hk => ?_⟩
  · rw [writeAccess_found hm hcut (storedPairs_offset lo hlo).1 hreg, foundWrite_lo hw hfw hisLo]
  · rw [Dev.find_hold, if_pos rfl]
  · rw [Dev.find_hold, if_neg hk]

theorem pairHiWrite_completes {m : Sys2Proof.Master} (hm : OnBar0 m) {lo : Nat} (hlo : lo ∈ storedPairs) (w : Word) {s : State}
    (hup : s.dev.inReset = false) (hcut : s.dev.isolated.contains 200 = false) :
    Completes (.pairHiWrite m (lo + 4) w) s [.held] (fun a => a == lo || a == lo + 4) fun t =>
      t.dev.reg lo = (Tab.find s.dev.held (pairKey m lo)).getD 0 ∧ t.dev.reg (lo + 4) = w ∧
      Tab.find t.dev.held (pairKey m lo) = none ∧ ∀ k, k ≠ pairKey m lo → Tab.find t.dev.held k = Tab.find s.dev.held k := by
  obtain ⟨r, hreg, hw, hfw, hisLo, hisHi, hpair⟩ := storedPairs_hi hlo
  refine completes_of_onFuses (d := (s.dev.takeHeld m lo).2.setReg64 lo (Word64.ofHalves w (s.dev.takeHeld m lo).1).toNat) rfl hup ?_
    (fun p hp => ?_) (fun a ha => ?_) ⟨?_, ?_, ?_, fun k hk => ?_⟩
  · rw [writeAccess_found hm hcut (storedPairs_offset lo hlo).2 hreg, foundWrite_hi hw hfw hisLo hisHi]
    exact congrArg (Prod.mk s.fuses) (hpair _ _ _)
  · exact Part.agree_trans (Part.agree_takeHeld (by simpa using hp) _ _ _) (Part.agree_trans (p.agree_setReg _ _ _) (p.agree_setReg _ _ _))
  · obtain ⟨hne, hne4⟩ : a ≠ lo ∧ a ≠ lo + 4 := by simpa using ha
    rw [Dev.reg_setReg64, if_neg hne4, if_neg hne]
    rfl
  · rw [Dev.reg_setReg64, if_neg (by omega), if_pos rfl, ofHalves_low]
    rfl
  · rw [Dev.reg_setReg64, if_pos rfl, ofHalves_high]
  · exact (Dev.find_takeHeld s.dev m lo _).trans (if_pos rfl)
  · exact (Dev.find_takeHeld s.dev m lo k).trans (if_neg hk)

theorem nsLoRead_completes {m : Sys2Proof.Master} (hm : OnBar0 m) {n : Nat} (hn : n < 8) {s : State} (hup : s.dev.inReset = false)
    (hcut : s.dev.isolated.contains 200 = false) (hheld : itemHeld s.dev (TIM_TBn_NS_LO n) = false) :
    Completes (.pairLoRead m (TIM_TBn_NS_LO n) 4) s [.rdata, .shadows] (fun _ => false) fun t =>
      Tab.find t.dev.rdata (Master.key m) = some (BitVec.ofNat 64 ((s.dev.tb n).nanos % 2 ^ 32)) ∧
      Tab.find t.dev.shadows (pairKey m (TIM_TBn_NS_HI n)) = some (BitVec.ofNat 32 ((s.dev.tb n).nanos / 2 ^ 32)) ∧
      ∀ k, k ≠ pairKey m (TIM_TBn_NS_HI n) → Tab.find t.dev.shadows k = Tab.find s.dev.shadows k := by
  have hd : readAccess s.fuses s.dev m (TIM_TBn_NS_LO n) 4 =
      (s.dev.capture m (TIM_TBn_NS_HI n) (half true (s.dev.tb n).nanos)).answer m (half false (s.dev.tb n).nanos).toNat := by
    rw [readAccess_whole hm hcut (nsView_offset n hn).1 hheld (findReg_nsLo n hn), regRead_nsLo hn]
  refine read_completes (ps := [.shadows]) rfl hup hd (fun p hp => Part.agree_capture (by simpa using hp) _ _ _ _) rfl ⟨?_, ?_, fun k hk => ?_⟩
  · rw [Dev.find_answer, if_pos rfl, half_low_toNat]
  · rw [← half_high]
    exact (Dev.find_capture _ _ _ _ _).trans (if_pos rfl)
  · exact (Dev.find_capture _ _ _ _ _).trans (if_neg hk)

theorem nsHiRead_completes {m : Sys2Proof.Master} (hm : OnBar0 m) {n : Nat} (hn : n < 8) {s : State} (hup : s.dev.inReset = false)
    (hcut : s.dev.isolated.contains 200 = false) (hheld : itemHeld s.dev (TIM_TBn_NS_HI n) = false) :
    Completes (.pairHiRead m (TIM_TBn_NS_HI n) 4) s [.rdata, .shadows] (fun _ => false) fun t =>
      Tab.find t.dev.rdata (Master.key m) = some (BitVec.ofNat 64 ((Tab.find s.dev.shadows (pairKey m (TIM_TBn_NS_HI n))).getD
        (BitVec.ofNat 32 ((s.dev.tb n).nanos / 2 ^ 32))).toNat) ∧
      Tab.find t.dev.shadows (pairKey m (TIM_TBn_NS_HI n)) = none ∧
      ∀ k, k ≠ pairKey m (TIM_TBn_NS_HI n) → Tab.find t.dev.shadows k = Tab.find s.dev.shadows k := by
  have hd : readAccess s.fuses s.dev m (TIM_TBn_NS_HI n) 4 =
      (s.dev.takeShadow m (TIM_TBn_NS_HI n) (half true (s.dev.tb n).nanos)).2.answer m
        (s.dev.takeShadow m (TIM_TBn_NS_HI n) (half true (s.dev.tb n).nanos)).1.toNat := by
    rw [readAccess_whole hm hcut (nsView_offset n hn).2 hheld (findReg_nsHi n hn), regRead_nsHi hn]
  refine read_completes (ps := [.shadows]) rfl hup hd (fun p hp => Part.agree_takeShadow (by simpa using hp) _ _ _ _)
    (Dev.takeShadow_regs _ _ _ _) ⟨?_, ?_, fun k hk => ?_⟩
  · rw [Dev.find_answer, if_pos rfl, Dev.takeShadow_word, half_high]
  · exact (Dev.find_takeShadow _ _ _ _ _).trans (if_pos rfl)
  · exact (Dev.find_takeShadow _ _ _ _ _).trans (if_neg hk)

/-- Settles O12: the low half waits in the held value on a write and the high half in the shadow on a read. -/
theorem registerPairs : Obligations.RegisterPairs := by
  unfold Obligations.RegisterPairs
  exact ⟨fun m lo w w' s hup hm hlo hcut => ⟨pairLoWrite_completes hm hlo w hup hcut, pairHiWrite_completes hm hlo w' hup hcut⟩,
    fun m n s hup hn hm hheldLo hheldHi hcut => ⟨nsLoRead_completes hm hn hup hcut hheldLo, nsHiRead_completes hm hn hup hcut hheldHi⟩⟩

end Sys2Proof.Machine
end

section
/-! SUPPORT. The parts and the registers that a chain of updates leaves as they were. -/

namespace Sys2Proof.Machine

/-- `e` is `d` but for the parts `ps` and the registers `rs`. -/
structure Keeps (ps : List Part) (rs : Nat → Bool) (d e : Dev) : Prop where
  parts : ∀ p : Part, p ∉ ps → p.agree d e
  regs : ∀ a, rs a = false → e.reg a = d.reg a

/-- A command of the core that changes the device alone. -/
theorem completes_of_onDev {c : Instr} {s : State} {g : Dev → Dev} {d : Dev} {ps : List Part} {rs : Nat → Bool} {P : State → Prop}
    (hc : exec c s = s.onDev g) (hup : s.dev.inReset = false) (hg : g s.dev = d) (hk : Keeps ps rs s.dev d) (hP : P { s with dev := d }) :
    Completes c s ps rs P :=
  ⟨{ s with dev := d }, by rw [hc, s.onDev_up g hup, hg], ⟨rfl, rfl, hk.parts, hk.regs⟩, hP⟩

section
variable {ps : List Part} {rs : Nat → Bool} {d e f : Dev}

theorem Keeps.refl (d : Dev) : Keeps ps rs d d := ⟨fun p _ => p.agree_refl d, fun _ _ => rfl⟩

theorem Keeps.trans (h : Keeps ps rs d e) (g : Keeps ps rs e f) : Keeps ps rs d f :=
  ⟨fun p hp => Part.agree_trans (h.parts p hp) (g.parts p hp), fun a ha => (g.regs a ha).trans (h.regs a ha)⟩

theorem Keeps.mono {qs : List Part} {us : Nat → Bool} (h : Keeps ps rs d e) (hps : ps ⊆ qs) (hrs : ∀ a, rs a = true → us a = true) :
    Keeps qs us d e :=
  ⟨fun p hp => h.parts p fun hq => hp (hps hq), fun a ha => h.regs a (Bool.eq_false_iff.mpr fun hb => by rw [hrs a hb] at ha; cases ha)⟩

/-! ### Registers and fields -/

theorem Keeps.setReg (h : Keeps ps rs d e) {a : Nat} (ha : rs a = true) (w : Word) : Keeps ps rs d (e.setReg a w) :=
  h.trans ⟨fun p _ => p.agree_setReg _ _ _, fun b hb => Dev.reg_setReg_other _ _ _ _ fun hba => by rw [hba, ha] at hb; cases hb⟩

theorem Keeps.setFld (h : Keeps ps rs d e) {x : Fld} (hx : rs x.reg = true) (v : Nat) : Keeps ps rs d (e.setFld x v) := h.setReg hx _

theorem Keeps.setBit (h : Keeps ps rs d e) {x : Fld} (hx : rs x.reg = true) (b : Bool) : Keeps ps rs d (e.setBit x b) := h.setFld hx _

theorem Keeps.inc (h : Keeps ps rs d e) {x : Fld} (hx : rs x.reg = true) : Keeps ps rs d (e.inc x) := h.setFld hx _

/-- Registers set in turn. -/
theorem Keeps.foldl_setReg {l : List Nat} {g : Nat → Nat} (h : Keeps ps rs d e) (hg : ∀ m ∈ l, rs (g m) = true) (v : Nat → Word) :
    Keeps ps rs d (l.foldl (fun x m => x.setReg (g m) (v m)) e) := by
  induction l generalizing e with
  | nil => exact h
  | cons m l ih => exact ih (h.setReg (hg m List.mem_cons_self) _) fun k hk => hg k (List.mem_cons_of_mem m hk)

/-! ### Parts -/

theorem Keeps.res (h : Keeps ps rs d e) (hp : Part.res ∈ ps) (r : Res) : Keeps ps rs d { e with res := r } :=
  h.trans ⟨fun p hn => by cases p with | res => exact absurd hp hn | _ => rfl, fun _ _ => rfl⟩

theorem Keeps.dsp (h : Keeps ps rs d e) (hp : Part.dsp ∈ ps) (x : Dsp) : Keeps ps rs d { e with dsp := x } :=
  h.trans ⟨fun p hn => by cases p with | dsp => exact absurd hp hn | _ => rfl, fun _ _ => rfl⟩

theorem Keeps.tbl (h : Keeps ps rs d e) (hp : Part.tbl ∈ ps) (x : Tbl) : Keeps ps rs d { e with tbl := x } :=
  h.trans ⟨fun p hn => by cases p with | tbl => exact absurd hp hn | _ => rfl, fun _ _ => rfl⟩

theorem Keeps.vault (h : Keeps ps rs d e) (hp : Part.vault ∈ ps) (x : Sec) : Keeps ps rs d { e with vault := x } :=
  h.trans ⟨fun p hn => by cases p with | vault => exact absurd hp hn | _ => rfl, fun _ _ => rfl⟩

theorem Keeps.isolated (h : Keeps ps rs d e) (hp : Part.isolated ∈ ps) (x : List Nat) : Keeps ps rs d { e with isolated := x } :=
  h.trans ⟨fun p hn => by cases p with | isolated => exact absurd hp hn | _ => rfl, fun _ _ => rfl⟩

theorem Keeps.tbl_res (h : Keeps ps rs d e) (ht : Part.tbl ∈ ps) (hr : Part.res ∈ ps) (x : Tbl) (r : Res) :
    Keeps ps rs d { e with tbl := x, res := r } := (h.tbl ht x).res hr r

/-- A result handed to who asked. -/
theorem Keeps.toCmd (h : Keeps ps rs d e) (hp : Part.hif ∈ ps) (w : Sys2Proof.Who) (code : Nat) (data : List Byte) :
    Keeps ps rs d (e.toCmd w code data) := by
  refine h.trans ?_
  cases w with
  | master m => exact Keeps.refl e
  | cmd j => exact ⟨fun p hn => by cases p with | hif => exact absurd hp hn | _ => rfl, fun _ _ => rfl⟩

theorem Keeps.setCaddy (h : Keeps ps rs d e) (hp : Part.dsp ∈ ps) (c : Nat) (x : Caddy) : Keeps ps rs d (e.setCaddy c x) := h.dsp hp _

theorem Keeps.setEngine (h : Keeps ps rs d e) (hp : Part.dsp ∈ ps) (k : Nat) (x : Engine) : Keeps ps rs d (e.setEngine k x) := h.dsp hp _

/-- Events and journal records. -/
theorem Keeps.noted (h : Keeps ps rs d e) (hn : Noted e f) (hps : noteParts ⊆ ps) (hrs : ∀ a, noteRegs a = true → rs a = true) :
    Keeps ps rs d f := by
  refine h.trans ⟨fun p hp => ?_, fun a ha => ?_⟩
  · have hq : p ∉ noteParts := fun hq => hp (hps hq)
    cases p with
    | tel | jrnl | outs => simp [noteParts] at hq
    | shadows => exact hn.shadows
    | held => exact hn.held
    | rdata => exact hn.rdata
    | stage => exact hn.stage
    | isolated => exact hn.isolated
    | inReset => exact hn.inReset
    | draws => exact hn.draws
    | hif => exact hn.hif
    | bld => exact hn.bld
    | dsp => exact hn.dsp
    | ports => exact hn.ports
    | hc => exact hn.hc
    | rx => exact hn.rx
    | tx => exact hn.tx
    | pbm => exact hn.pbm
    | tim => exact hn.tim
    | ktl => exact hn.ktl
    | ts => exact hn.ts
    | tbl => exact hn.tbl
    | fwd => exact hn.fwd
    | vault => exact hn.vault
    | boot => exact hn.boot
    | cmp => exact hn.cmp
    | res => exact hn.res
  · have hb : ¬ noteRegs a = true := fun hb => by rw [hrs a hb] at ha; cases ha
    have hb' : a < 0xF09000 ∧ a ≠ RES_JRNL_NEWEST := by simpa [noteRegs] using hb
    exact hn.reg a hb'.1 hb'.2

end

end Sys2Proof.Machine
end

section
/-! SUPPORT. What the functions of the journal, the repairs, the self-test and the functions taken out of service leave. -/

namespace Sys2Proof.Machine

/-! ### The registers of a fetched record -/

theorem Dev.reg_foldl_setReg_other {l : List Nat} {g : Nat → Nat} {a : Nat} (ha : ∀ m ∈ l, a ≠ g m) (v : Nat → Word) (d : Dev) :
    (l.foldl (fun x m => x.setReg (g m) (v m)) d).reg a = d.reg a := by
  induction l generalizing d with
  | nil => rfl
  | cons m l ih =>
    rw [List.foldl_cons, ih (fun k hk => ha k (List.mem_cons_of_mem m hk)), Dev.reg_setReg_other _ _ _ _ (ha m List.mem_cons_self)]

theorem Dev.reg_foldl_setReg_mem {l : List Nat} {g : Nat → Nat} (hg : Function.Injective g) {k : Nat} (hk : k ∈ l) (v : Nat → Word) (d : Dev) :
    (l.foldl (fun x m => x.setReg (g m) (v m)) d).reg (g k) = v k := by
  induction l generalizing d with
  | nil => cases hk
  | cons m l ih =>
    rw [List.foldl_cons]
    by_cases hkl : k ∈ l
    · exact ih hkl _
    · obtain rfl : k = m := (List.mem_cons.mp hk).resolve_right hkl
      rw [Dev.reg_foldl_setReg_other (fun j hj hkj => hkl (by rwa [hg hkj])), Dev.reg_setReg_same]

theorem RES_JRNL_RECm_injective : Function.Injective RES_JRNL_RECm := fun a b h => by simp only [RES_JRNL_RECm] at h; omega

/-- The registers that a fetch may change. -/
def fetchRegs (a : Nat) : Bool := a == RES_JRNL_SEL || a == RES_JRNL_STATUS || decide (RES_JRNL_RECm 0 ≤ a ∧ a < RES_JRNL_RECm 8)

theorem RES_JRNL_RECm_fetchRegs {m : Nat} (hm : m < 8) : fetchRegs (RES_JRNL_RECm m) = true := by
  have h : RES_JRNL_RECm 0 ≤ RES_JRNL_RECm m ∧ RES_JRNL_RECm m < RES_JRNL_RECm 8 := by simp only [RES_JRNL_RECm]; omega
  simp [fetchRegs, h]

theorem fetchEnd_keeps (d : Dev) (r : Option JRec) : Keeps [.res] fetchRegs d (fetchEnd d r) := by
  unfold fetchEnd
  exact ((((Keeps.refl d).res List.mem_cons_self _).setBit rfl _).setBit rfl _).foldl_setReg
    (fun _ hm => RES_JRNL_RECm_fetchRegs (List.mem_range.mp hm)) _

/-- The status register after a fetch, the record registers being others. -/
theorem fetchEnd_status_reg (d : Dev) (r : Option JRec) :
    (fetchEnd d r).reg RES_JRNL_STATUS =
      ((d.setBit RES_JRNL_STATUS_busy false).setBit RES_JRNL_STATUS_found r.isSome).reg RES_JRNL_STATUS :=
  Dev.reg_foldl_setReg_other (fun m _ => by simp only [RES_JRNL_STATUS, RES_JRNL_RECm]; omega) _ _

theorem fetchEnd_status (d : Dev) (r : Option JRec) :
    (fetchEnd d r).fld RES_JRNL_STATUS_found = b2n r.isSome ∧ (fetchEnd d r).fld RES_JRNL_STATUS_busy = 0 := by
  have hfld : ∀ x : Fld, x.reg = RES_JRNL_STATUS →
      (fetchEnd d r).fld x = ((d.setBit RES_JRNL_STATUS_busy false).setBit RES_JRNL_STATUS_found r.isSome).fld x := fun x hx => by
    simp only [Dev.fld, hx, fetchEnd_status_reg]
  rw [hfld _ rfl, hfld _ rfl]
  constructor
  · rw [Dev.setBit, Dev.fld_setFld_same _ _ _ (by decide)]
    cases r <;> rfl
  · rw [Dev.setBit, Dev.fld_setFld_other _ _ _ _ (by decide), Dev.setBit, Dev.fld_setFld_same _ _ _ (by decide)]
    rfl

theorem fetchEnd_rec (d : Dev) (r : JRec) {m : Nat} (hm : m < 8) :
    (fetchEnd d (some r)).reg (RES_JRNL_RECm m) = BitVec.ofNat 32 (field r.bytes (4 * m) 4) := by
  unfold fetchEnd
  exact Dev.reg_foldl_setReg_mem RES_JRNL_RECm_injective (List.mem_range.mpr hm) (fun k => BitVec.ofNat 32 (field r.bytes (4 * k) 4)) _

theorem fetchEnd_fetching (d : Dev) (r : Option JRec) : (fetchEnd d r).res.fetching = none := by
  have hk : Keeps [] (fun _ => true) { d with res := { d.res with fetching := none } } (fetchEnd d r) :=
    (((Keeps.refl _).setBit rfl _).setBit rfl _).foldl_setReg (fun _ _ => rfl) _
  exact congrArg Res.fetching (hk.parts .res List.not_mem_nil)

/-! ### The ring of the journal -/

theorem offerPath_jrnl (d : Dev) (p : Nat) (u : TelUnit) : (offerPath d p u).1.jrnl = d.jrnl := by
  unfold offerPath
  simp only
  split
  · rfl
  · split <;> rfl

theorem offer_jrnl (d : Dev) (u : TelUnit) : (offer d u).1.jrnl = d.jrnl :=
  (offerPath_jrnl (offerPath d 0 u).1 1 u).trans (offerPath_jrnl d 0 u)

theorem jMirror_ring (d : Dev) (r : JRec) : (jMirror d r).jrnl.ring = d.jrnl.ring := by
  rw [jMirror, offer_jrnl]

theorem jOpen_ring (d : Dev) (kind origin opId total : Nat) (tag : Option Nat) :
    (jOpen d kind origin opId total tag).2.jrnl.ring =
      jRoom d.jrnl.ring ++ [⟨d.jrnl.next, kind, origin, jOPEN, 0, opId, total, 0, d.ms % 2 ^ 32, d.ms % 2 ^ 32, 0, tag⟩] :=
  jMirror_ring _ _

theorem jTag_mem {d : Dev} {tag : Nat} {r : JRec} (h : jTag d tag = some r) : r ∈ d.jrnl.ring ∧ r.outcome = jOPEN := by
  have hp := List.find?_some h
  simp only [Bool.and_eq_true, beq_iff_eq] at hp
  exact ⟨List.mem_of_find?_eq_some h, hp.1.1⟩

/-- The one record of its seq, still OPEN, changes, and no other. -/
theorem jUpdate_ring {d : Dev} {r : JRec} (hr : r ∈ d.jrnl.ring) (ho : r.outcome = jOPEN)
    (hu : ∀ x ∈ d.jrnl.ring, x.seq = r.seq → x = r) (f : JRec → JRec) :
    (jUpdate d r.seq f).jrnl.ring = d.jrnl.ring.map fun x => if x = r then { f r with tUpd := d.ms % 2 ^ 32 } else x := by
  have hfind : d.jrnl.ring.find? (fun x => x.seq == r.seq && x.outcome == jOPEN) = some r := by
    cases hx : d.jrnl.ring.find? (fun x => x.seq == r.seq && x.outcome == jOPEN) with
    | none => exact absurd (List.find?_eq_none.mp hx r hr) (by simp [ho])
    | some x =>
      have hp := List.find?_some hx
      simp only [Bool.and_eq_true, beq_iff_eq] at hp
      rw [hu x (List.mem_of_find?_eq_some hx) hp.1]
  unfold jUpdate
  rw [hfind]
  refine (jMirror_ring _ _).trans (List.map_congr_left fun x hx => ?_)
  by_cases h : x = r
  · rw [if_pos h, if_pos (congrArg JRec.seq h)]
  · rw [if_neg h, if_neg fun hs => h (hu x hx hs)]

/-! ### The bytes of RES_JRNL_OPEN0 to 3 -/

theorem openBytes_fields (a b c e : Word) :
    let bs := le 4 a.toNat ++ (le 4 b.toNat ++ (le 4 c.toNat ++ le 4 e.toNat))
    field bs 0 2 = a.toNat % 65536 ∧ field bs 2 2 = a.toNat / 65536 ∧ field bs 4 1 = b.toNat % 256 ∧
      field bs 8 8 = c.toNat + 2 ^ 32 * e.toNat := by
  have ha := a.isLt
  have hc := c.isLt
  have he := e.isLt
  simp only [le, List.cons_append, List.nil_append, field, slice, List.drop_succ_cons, List.drop_zero, List.take_succ_cons,
    List.take_zero, unle, BitVec.toNat_ofNat]
  omega

theorem openBytes_setReg (d : Dev) (w : Word) :
    ((List.range 4).flatMap fun m => le 4 ((d.setReg (RES_JRNL_OPENm 3) w).reg (RES_JRNL_OPENm m)).toNat) =
      le 4 (d.reg (RES_JRNL_OPENm 0)).toNat ++ (le 4 (d.reg (RES_JRNL_OPENm 1)).toNat ++
        (le 4 (d.reg (RES_JRNL_OPENm 2)).toNat ++ le 4 w.toNat)) := by
  simp [List.range_succ]

/-- The tag's open writes a record of what OPEN0 to 3 hold. -/
theorem jrnlOpen_eq {d : Dev} {w : Word} (hopen : fwOpen d < 64) (htag : jTag d ((d.reg (RES_JRNL_OPENm 0)).toNat % 65536) = none) :
    jrnlOpen d w = (jOpen (d.setReg (RES_JRNL_OPENm 3) w) ((d.reg (RES_JRNL_OPENm 1)).toNat % 256) 1
      ((d.reg (RES_JRNL_OPENm 2)).toNat + 2 ^ 32 * w.toNat) ((d.reg (RES_JRNL_OPENm 0)).toNat / 65536)
      (some ((d.reg (RES_JRNL_OPENm 0)).toNat % 65536))).2 := by
  obtain ⟨ftag, ftotal, fkind, fop⟩ := openBytes_fields (d.reg (RES_JRNL_OPENm 0)) (d.reg (RES_JRNL_OPENm 1)) (d.reg (RES_JRNL_OPENm 2)) w
  have ht : (jTag (d.setReg (RES_JRNL_OPENm 3) w) ((d.reg (RES_JRNL_OPENm 0)).toNat % 65536)).isSome = false := congrArg Option.isSome htag
  have ho : ¬ 64 ≤ fwOpen (d.setReg (RES_JRNL_OPENm 3) w) := Nat.not_le.mpr hopen
  unfold jrnlOpen
  simp only [openBytes_setReg, ftag, ftotal, fkind, fop, ht, ho, if_false, Bool.false_eq_true]

/-- The tag of an OPEN record is refused. -/
theorem jrnlOpen_eq_refused {d : Dev} {w : Word} (htag : (jTag d ((d.reg (RES_JRNL_OPENm 0)).toNat % 65536)).isSome = true) :
    jrnlOpen d w = (d.setReg (RES_JRNL_OPENm 3) w).inc RES_JRNL_STATUS_refused := by
  obtain ⟨ftag, -⟩ := openBytes_fields (d.reg (RES_JRNL_OPENm 0)) (d.reg (RES_JRNL_OPENm 1)) (d.reg (RES_JRNL_OPENm 2)) w
  have ht : (jTag (d.setReg (RES_JRNL_OPENm 3) w) ((d.reg (RES_JRNL_OPENm 0)).toNat % 65536)).isSome = true := htag
  unfold jrnlOpen
  simp only [openBytes_setReg, ftag, ht, if_true]

/-! ### Results handed to a host command -/

theorem RunCmd.note_told (j r : Nat) (data : List Byte) (c : RunCmd) :
    ((RunCmd.note j r data c).jseq != j || ((RunCmd.note j r data c).result == some r && (RunCmd.note j r data c).data == data)) = true := by
  unfold RunCmd.note
  split
  · simp
  · rename_i h
    simp [h]

theorem told_toCmd (d : Dev) (j r : Nat) (data : List Byte) : told (d.toCmd (.cmd j) r data) (.cmd j) r data = true := by
  have hall : ∀ l : List RunCmd, (l.map (RunCmd.note j r data)).all (fun c => c.jseq != j || (c.result == some r && c.data == data)) = true :=
    fun l => by
      rw [List.all_map]
      exact List.all_eq_true.mpr fun c _ => RunCmd.note_told j r data c
  show ((d.hif.running.map _ ++ d.hif.orphaned.map _ ++ d.hif.mqRunning.map _).all _) = true
  rw [List.all_append, List.all_append, hall, hall, hall]
  rfl

end Sys2Proof.Machine
end

section
/-! PROOF. The fault journal of firmware, and a record fetched (R441 to R444). -/

namespace Sys2Proof.Machine

theorem jrnlOpen_completes {w : Word} {s : State} (hup : s.dev.inReset = false)
    (htag : jTag s.dev ((s.dev.reg (RES_JRNL_OPENm 0)).toNat % 65536) = none) (hopen : fwOpen s.dev < 64) :
    Completes (.jrnlOpen w) s noteParts (fun a => a == RES_JRNL_OPENm 3 || noteRegs a) fun t =>
      (∃ r, t.dev.jrnl.ring.getLast? = some r ∧ r.seq = s.dev.jrnl.next ∧ r.outcome = jOPEN ∧ r.origin = 1 ∧ r.done = 0 ∧
        r.tag = some ((s.dev.reg (RES_JRNL_OPENm 0)).toNat % 65536) ∧ r.total = (s.dev.reg (RES_JRNL_OPENm 0)).toNat / 65536 ∧
        r.kind = (s.dev.reg (RES_JRNL_OPENm 1)).toNat % 256 ∧ r.opId = (s.dev.reg (RES_JRNL_OPENm 2)).toNat + 2 ^ 32 * w.toNat) := by
  refine completes_of_onDev (g := fun d => jrnlOpen d w) rfl hup (jrnlOpen_eq hopen htag)
    (((Keeps.refl _).setReg (by simp) _).noted (noted_jOpen _ _ _ _ _ _) (fun _ h => h) fun a ha => by simp [ha]) ?_
  exact ⟨_, by rw [jOpen_ring, List.getLast?_concat], rfl, rfl, rfl, rfl, rfl, rfl, rfl, rfl⟩

theorem jrnlOpen_refused {w : Word} {s : State} (hup : s.dev.inReset = false)
    (htag : (jTag s.dev ((s.dev.reg (RES_JRNL_OPENm 0)).toNat % 65536)).isSome = true) :
    Completes (.jrnlOpen w) s [] (fun a => a == RES_JRNL_OPENm 3 || a == RES_JRNL_STATUS) fun t =>
      t.dev.fld RES_JRNL_STATUS_refused = min (s.dev.fld RES_JRNL_STATUS_refused + 1) RES_JRNL_STATUS_refused.max := by
  refine completes_of_onDev (g := fun d => jrnlOpen d w) rfl hup (jrnlOpen_eq_refused htag)
    (((Keeps.refl _).setReg rfl _).inc rfl) ?_
  rw [Dev.fld_inc_same _ _ (by decide)]
  exact congrArg (fun n => min (n + 1) _) (Dev.fld_setReg _ _ _ _)

theorem jrnlStep_completes {tag : Nat} {r : JRec} {s : State} (hup : s.dev.inReset = false) (htag : jTag s.dev tag = some r)
    (hu : ∀ x ∈ s.dev.jrnl.ring, x.seq = r.seq → x = r) :
    Completes (.jrnlStep tag) s noteParts noteRegs fun t =>
      t.dev.jrnl.ring = s.dev.jrnl.ring.map fun x => if x = r then { r with done := r.done + 1, tUpd := s.dev.ms % 2 ^ 32 } else x := by
  obtain ⟨hr, ho⟩ := jTag_mem htag
  exact completes_of_onDev (g := fun d => jrnlStep d tag) (d := jStepDone s.dev r.seq) rfl hup (by simp only [jrnlStep, htag])
    ((Keeps.refl _).noted (noted_jStepDone _ _) (fun _ h => h) fun _ h => h) (jUpdate_ring hr ho hu _)

theorem jrnlClose_completes {w : Word} {r : JRec} {s : State} (hup : s.dev.inReset = false) (htag : jTag s.dev (getBits w 15 0) = some r)
    (hu : ∀ x ∈ s.dev.jrnl.ring, x.seq = r.seq → x = r) (hout : within (getBits w 23 16) 1 4 = true) :
    Completes (.jrnlClose w) s noteParts noteRegs fun t => t.dev.jrnl.ring = s.dev.jrnl.ring.map fun x =>
      if x = r then { r with outcome := getBits w 23 16, cause := getBits w 31 24, tag := none, tUpd := s.dev.ms % 2 ^ 32 } else x := by
  obtain ⟨hr, ho⟩ := jTag_mem htag
  exact completes_of_onDev (g := fun d => jrnlClose d w) (d := jClose s.dev r.seq (getBits w 23 16) (getBits w 31 24)) rfl hup
    (by simp only [jrnlClose, htag, hout, if_true])
    ((Keeps.refl _).noted (noted_jClose _ _ _ _) (fun _ h => h) fun _ h => h) (jUpdate_ring hr ho hu _)

theorem jrnlFetch_found {q : Nat} {r : JRec} {s : State} (hup : s.dev.inReset = false)
    (hq : s.dev.jrnl.ring.find? (fun x => x.seq == q) = some r) :
    Completes (.jrnlFetch q) s [.res] fetchRegs fun t =>
      t.dev.fld RES_JRNL_STATUS_found = 1 ∧ t.dev.fld RES_JRNL_STATUS_busy = 0 ∧
      ∀ m, m < 8 → t.dev.reg (RES_JRNL_RECm m) = BitVec.ofNat 32 (field r.bytes (4 * m) 4) := by
  obtain ⟨hfound, hbusy⟩ := fetchEnd_status (s.dev.setReg RES_JRNL_SEL (BitVec.ofNat 32 q)) (some r)
  exact completes_of_onDev (g := fun d => jrnlFetch d q) rfl hup (by simp only [jrnlFetch, hq])
    (((Keeps.refl _).setReg rfl _).trans (fetchEnd_keeps _ (some r))) ⟨hfound, hbusy, fun m hm => fetchEnd_rec _ r hm⟩

/-- A record that the ring does not hold is fetched from flash. -/
theorem jrnlFetch_eq_fromFlash {d : Dev} {q : Nat} (hq : d.jrnl.ring.find? (fun x => x.seq == q) = none) :
    jrnlFetch d q =
      (let e := fetchEnd (d.setReg RES_JRNL_SEL (BitVec.ofNat 32 q)) none
       ({ e with res := { e.res with fetching := some q } }).setBit RES_JRNL_STATUS_busy true) := by
  simp only [jrnlFetch, hq]

theorem jrnlFetch_fromFlash {q : Nat} {s : State} (hup : s.dev.inReset = false)
    (hq : s.dev.jrnl.ring.find? (fun x => x.seq == q) = none) :
    Completes (.jrnlFetch q) s [.res] fetchRegs fun t =>
      t.dev.fld RES_JRNL_STATUS_found = 0 ∧ t.dev.fld RES_JRNL_STATUS_busy = 1 ∧ t.dev.res.fetching = some q := by
  have hother : ∀ (e : Dev) (x : Res), (({ e with res := x }).setBit RES_JRNL_STATUS_busy true).fld RES_JRNL_STATUS_found =
      e.fld RES_JRNL_STATUS_found := fun _ _ => Dev.fld_setFld_other _ _ _ _ (by decide)
  obtain ⟨hfound, -⟩ := fetchEnd_status (s.dev.setReg RES_JRNL_SEL (BitVec.ofNat 32 q)) none
  refine completes_of_onDev (g := fun d => jrnlFetch d q) rfl hup (jrnlFetch_eq_fromFlash hq)
    (((((Keeps.refl _).setReg rfl _).trans (fetchEnd_keeps _ none)).res List.mem_cons_self _).setBit rfl _) ⟨?_, ?_, rfl⟩
  · exact (hother _ _).trans hfound
  · exact Dev.fld_setFld_same _ _ _ (by decide)

theorem jrnlFetchDone_completes {q : Nat} {r : JRec} {s : State} (hup : s.dev.inReset = false) (hq : s.dev.res.fetching = some q)
    (hr : Tab.find s.dev.jrnl.mirror q = some r) :
    Completes .jrnlFetchDone s [.res] fetchRegs fun t =>
      t.dev.fld RES_JRNL_STATUS_found = 1 ∧ t.dev.fld RES_JRNL_STATUS_busy = 0 ∧ t.dev.res.fetching = none ∧
      ∀ m, m < 8 → t.dev.reg (RES_JRNL_RECm m) = BitVec.ofNat 32 (field r.bytes (4 * m) 4) := by
  obtain ⟨hfound, hbusy⟩ := fetchEnd_status s.dev (some r)
  exact completes_of_onDev (g := jrnlFetchDone) rfl hup (by simp only [jrnlFetchDone, hq, hr])
    (fetchEnd_keeps _ (some r)) ⟨hfound, hbusy, fetchEnd_fetching _ _, fun m hm => fetchEnd_rec _ r hm⟩

end Sys2Proof.Machine
end

section
/-! PROOF. SRAM errors, row and bank repairs, repair fuses (R432, R433, R437, R439). -/

namespace Sys2Proof.Machine

/-! ### The first error -/

/-- The first error of the log calls for a row repair when it is uncorrectable, and for nothing else. -/
theorem judgeErrors_first {d : Dev} {e : SramErr} (he : d.res.errors = [e]) :
    judgeErrors d e = if e.uncorrectable then rowRepair d e.array false e.row e.bank else d := by
  have hrecent : (recentErrors d).length ≤ 1 := by
    rw [recentErrors, he]
    exact List.length_filter_le _ _
  have htwo : ∀ p, ¬ 2 ≤ ((recentErrors d).filter p).length := fun p => by
    have := List.length_filter_le p (recentErrors d)
    omega
  have hthree : ∀ p q, ¬ 3 ≤ (((recentErrors d).filter p).filter q).length := fun p q => by
    have := List.length_filter_le q ((recentErrors d).filter p)
    have := htwo p
    omega
  have hrows : ¬ 4 ≤ ((d.res.errors.filter fun x => x.array == e.array && x.col == e.col).map (·.row)).eraseDups.length := by simp [he, List.eraseDups_cons]
  simp only [judgeErrors, htwo, hthree, hrows, decide_false, Bool.or_false, if_false]
  split <;> rfl

/-- A row repair takes the next spare of an array that has one left and no copy under way. -/
theorem rowRepair_begins {d : Dev} {array : Nat} (hcopies : d.res.rowCopies = []) (hspare : sparesUsed d array false < 8) (index : Nat)
    (bank : Option Nat) :
    rowRepair d array false index bank =
      { d with res := { d.res with rowCopies := [⟨array, false, index, sparesUsed d array false⟩] } } := by
  simp [rowRepair, hcopies, hspare]

/-- The device with an error logged, the first of its log, and counted in a field. -/
def firstError (d : Dev) (e : SramErr) (x : Fld) : Dev := ({ d with res := { d.res with errors := [e] } }).inc x

theorem firstError_res (d : Dev) (e : SramErr) (x : Fld) : (firstError d e x).res = { d.res with errors := [e] } := rfl

theorem firstError_fld (d : Dev) (e : SramErr) {x : Fld} (hx : x.hi < 32) : (firstError d e x).fld x = min (d.fld x + 1) x.max :=
  Dev.fld_inc_same _ _ hx

theorem firstError_keeps {ps : List Part} {rs : Nat → Bool} (hres : Part.res ∈ ps) (d : Dev) (e : SramErr) {x : Fld} (hx : rs x.reg = true) :
    Keeps ps rs d (firstError d e x) := ((Keeps.refl d).res hres _).inc hx

theorem judgeErrors_firstError (d : Dev) {e : SramErr} (x : Fld) (he : e.uncorrectable = false) :
    judgeErrors (firstError d e x) e = firstError d e x := by
  rw [judgeErrors_first (firstError_res _ _ _ ▸ rfl), he]
  rfl

/-- A correctable error, the first of the log, is logged and counted. -/
theorem eccError_eq_corrected {d : Dev} {mem : Nat} (hmem : mem < 5) (herr : d.res.errors = []) (array row col at_ : Nat) :
    eccError d mem array row col false at_ =
      firstError d ⟨mem * 65536 + array, row, col, d.secs, false, if mem = 0 then some (at_ / 0x100000) else none⟩
        RES_SRAM_CNT_corrected := by
  have hlow : ¬ 5 ≤ mem := Nat.not_le.mpr hmem
  simp only [eccError, hlow, herr, List.nil_append, if_false, Bool.false_eq_true]
  exact judgeErrors_firstError _ _ rfl

/-- An uncorrectable table word, the first error of the log, is poisoned, and its row copied to the next spare. -/
theorem eccError_eq_poisoned {d : Dev} (herr : d.res.errors = []) (hcopies : d.res.rowCopies = []) (hpoison : d.tbl.poison = [])
    {array : Nat} (hspare : sparesUsed d array false < 8) (row col at_ : Nat) :
    eccError d 0 array row col true at_ =
      (let d1 := firstError d ⟨array, row, col, d.secs, true, some (at_ / 0x100000)⟩ RES_SRAM_CNT_uncorrectable
       { d1 with tbl := { d1.tbl with poison := [at_ - at_ % 8] },
                 res := { d1.res with rowCopies := [⟨array, false, row, sparesUsed d array false⟩] } }) := by
  have hlow : ¬ 5 ≤ 0 := by decide
  simp only [eccError, poisonEffect, Dev.inc_tbl, hlow, herr, hpoison, List.nil_append, List.contains_nil, Nat.zero_mul, Nat.zero_add, if_true,
    if_false, Bool.false_eq_true]
  rw [judgeErrors_first rfl, if_pos rfl]
  exact rowRepair_begins (by exact hcopies) (by exact hspare) row _

theorem eccError_corrected {mem array row col at_ : Nat} {s : State} (hup : s.dev.inReset = false) (hmem : mem < 5)
    (herr : s.dev.res.errors = []) :
    Completes (.eccError mem array row col false at_) s [.res] (fun a => a == RES_SRAM_CNT) fun t =>
      t.dev.res = { s.dev.res with errors := [⟨mem * 65536 + array, row, col, s.dev.secs, false, if mem = 0 then some (at_ / 0x100000) else none⟩] } ∧
      t.dev.fld RES_SRAM_CNT_corrected = min (s.dev.fld RES_SRAM_CNT_corrected + 1) RES_SRAM_CNT_corrected.max :=
  completes_of_onDev (g := fun d => eccError d mem array row col false at_) rfl hup (eccError_eq_corrected hmem herr _ _ _ _)
    (firstError_keeps (by decide) _ _ rfl) ⟨rfl, firstError_fld _ _ (by decide)⟩

theorem eccError_poisoned {array row col at_ : Nat} {s : State} (hup : s.dev.inReset = false) (herr : s.dev.res.errors = [])
    (hcopies : s.dev.res.rowCopies = []) (hpoison : s.dev.tbl.poison = []) (hspare : sparesUsed s.dev array false < 8) :
    Completes (.eccError 0 array row col true at_) s [.res, .tbl] (fun a => a == RES_SRAM_CNT) fun t =>
      t.dev.tbl = { s.dev.tbl with poison := [at_ - at_ % 8] } ∧
      t.dev.res.rowCopies = [⟨array, false, row, sparesUsed s.dev array false⟩] ∧
      t.dev.fld RES_SRAM_CNT_uncorrectable = min (s.dev.fld RES_SRAM_CNT_uncorrectable + 1) RES_SRAM_CNT_uncorrectable.max := by
  have hk : Keeps [.res, .tbl] (fun a => a == RES_SRAM_CNT) s.dev
      (firstError s.dev ⟨array, row, col, s.dev.secs, true, some (at_ / 0x100000)⟩ RES_SRAM_CNT_uncorrectable) :=
    firstError_keeps (by decide) _ _ rfl
  exact completes_of_onDev (g := fun d => eccError d 0 array row col true at_) rfl hup
    (eccError_eq_poisoned herr hcopies hpoison hspare _ _ _) (hk.tbl_res (by decide) (by decide) _ _) ⟨rfl, rfl, firstError_fld _ _ (by decide)⟩

theorem scrubRead_completes {s : State} (hup : s.dev.inReset = false) (hscrub : s.dev.res.scrub + 1 < scrubWords) :
    Completes .scrubRead s [.res] (fun _ => false) fun t => t.dev.res = { s.dev.res with scrub := s.dev.res.scrub + 1 } :=
  completes_of_onDev (g := scrubRead) rfl hup (by rw [scrubRead, Nat.mod_eq_of_lt hscrub]) ((Keeps.refl _).res List.mem_cons_self _) rfl

/-! ### Replacements -/

/-- The record that a replacement appends to a repair log with room. -/
theorem repairLog_log {d : Dev} (hlen : d.res.log.length < 8192) (kind unit location replacement : Nat) (fused : Bool) :
    (repairLog d kind unit location replacement fused).2.res.log =
      d.res.log ++ [⟨d.res.nextSeq, kind, fused, unit, location, replacement, d.secs % 2 ^ 32⟩] := by
  simp only [repairLog, hlen, if_true]

theorem repairLog_getLast? (d : Dev) (kind unit location replacement : Nat) (fused : Bool) :
    (repairLog d kind unit location replacement fused).2.res.log.getLast? =
      some ⟨d.res.nextSeq, kind, fused, unit, location, replacement, d.secs % 2 ^ 32⟩ := List.getLast?_concat

theorem noted_replaced (d : Dev) (kind unit location replacement : Nat) :
    Noted (repairLog d kind unit location replacement false).2 (replaced d kind unit location replacement) :=
  (noted_jNote _ _ _ _ _ _ _ _ _).trans (noted_raise _ _ _ _)

theorem Keeps.replaced {ps : List Part} {rs : Nat → Bool} {d e : Dev} (h : Keeps ps rs d e) (hres : Part.res ∈ ps)
    (hps : noteParts ⊆ ps) (hrs : ∀ a, noteRegs a = true → rs a = true) (kind unit location replacement : Nat) :
    Keeps ps rs d (Machine.replaced e kind unit location replacement) :=
  (h.res hres _).noted (noted_replaced e kind unit location replacement) hps hrs

/-- A replacement appends to the repair log, and its event and journal record leave the repairs alone. -/
theorem replaced_res (d : Dev) (kind unit location replacement : Nat) :
    (replaced d kind unit location replacement).res = (repairLog d kind unit location replacement false).2.res :=
  (noted_replaced d kind unit location replacement).res

theorem replaced_dsp (d : Dev) (kind unit location replacement : Nat) : (replaced d kind unit location replacement).dsp = d.dsp :=
  (noted_replaced d kind unit location replacement).dsp

/-- The one copy under way gives its spare the address. -/
theorem rowRepairDone_eq {d : Dev} {array index spare : Nat} {column : Bool} (hcopies : d.res.rowCopies = [⟨array, column, index, spare⟩]) :
    rowRepairDone d array column index =
      replaced (({ d with res := { d.res with rowCopies := [], errors := d.res.errors.filter fun e =>
        !(e.array == array && (if column then e.col else e.row) == index) } }).inc RES_SRAM_CNT_repaired)
        (if column then 2 else 1) array index spare := by
  simp [rowRepairDone, hcopies]

theorem rowRepairDone_completes {array index spare : Nat} {column : Bool} {s : State} (hup : s.dev.inReset = false)
    (hcopies : s.dev.res.rowCopies = [⟨array, column, index, spare⟩]) (hlen : s.dev.res.log.length < 8192) :
    Completes (.rowRepairDone array column index) s ([.res] ++ noteParts) (fun a => a == RES_SRAM_CNT || noteRegs a) fun t =>
      t.dev.res.rowCopies = [] ∧
      t.dev.res.log = s.dev.res.log ++ [⟨s.dev.res.nextSeq, if column then 2 else 1, false, array, index, spare, s.dev.secs % 2 ^ 32⟩] ∧
      t.dev.fld RES_SRAM_CNT_repaired = min (s.dev.fld RES_SRAM_CNT_repaired + 1) RES_SRAM_CNT_repaired.max := by
  refine completes_of_onDev (g := fun d => rowRepairDone d array column index) rfl hup (rowRepairDone_eq hcopies)
    ((((Keeps.refl _).res (by decide) _).inc rfl).replaced (by decide) (by decide) (fun a ha => by simp [ha]) _ _ _ _) ⟨?_, ?_, ?_⟩
  · exact congrArg Res.rowCopies (replaced_res _ _ _ _ _)
  · exact (congrArg Res.log (replaced_res _ _ _ _ _)).trans (repairLog_log hlen _ _ _ _ _)
  · exact ((noted_replaced _ _ _ _ _).fld _ (by decide) (by decide)).trans (Dev.fld_inc_same { s.dev with res := _ } _ (by decide))

theorem bankRepairDone_eq {d : Dev} {bank b : Nat} (hb : Tab.find d.res.bankCopies bank = some b) :
    bankRepairDone d bank =
      replaced { d with res := { d.res with bankCopies := Tab.del d.res.bankCopies bank, bankMap := Tab.put d.res.bankMap bank b,
                                            errors := d.res.errors.filter fun e => e.bank != some bank } }
        3 bank (Tab.getD d.res.bankMap bank bank) b := by
  simp only [bankRepairDone, hb]

theorem bankRepairDone_completes {bank b : Nat} {s : State} (hup : s.dev.inReset = false) (hb : Tab.find s.dev.res.bankCopies bank = some b) :
    Completes (.bankRepairDone bank) s ([.res] ++ noteParts) noteRegs fun t => Tab.find t.dev.res.bankMap bank = some b ∧
      Tab.find t.dev.res.bankCopies bank = none ∧
      (t.dev.res.log.getLast?.any fun r => r.kind == 3 && r.unit == bank && r.replacement == b) = true := by
  refine completes_of_onDev (g := fun d => bankRepairDone d bank) rfl hup (bankRepairDone_eq hb)
    (((Keeps.refl _).res (by decide) _).replaced (by decide) (by decide) (fun _ h => h) _ _ _ _) ?_
  rw [replaced_res]
  refine ⟨(Tab.find_put _ _ _ _).trans (if_pos rfl), (Tab.find_del _ _ _).trans (if_pos rfl), ?_⟩
  rw [repairLog_getLast?]
  simp

/-! ### Repair fuses -/

/-- The conditions under which a repair record can be burnt (R439). -/
structure Burnable (f : Fuses) (r : Repair) : Prop where
  kind : r.kind ≠ 8
  unit : r.unit < 2 ^ 20
  location : r.location < 2 ^ 16
  replacement : r.replacement < 2 ^ 16
  fresh : r.fused = false
  notBurnt : repairWord r ∉ f.repairs
  room : fusesUsed f < 256

theorem repairBurn_eq {w : Sys2Proof.Who} {q : Nat} {r : Repair} {f : Fuses} {d : Dev} (hq : d.res.log.find? (fun x => x.seq == q) = some r)
    (h : Burnable f r) (cut : Bool) :
    repairBurn w q cut f d = if cut then ({ f with pend := f.pend ++ [.repair (repairWord r)] }, d)
      else ({ f with repairs := f.repairs ++ [repairWord r] },
        repairEnd (repairLog d r.kind r.unit r.location r.replacement true).2 w rpOK) := by
  have hrange : ¬ (r.kind = 8 ∨ 2 ^ 20 ≤ r.unit ∨ 2 ^ 16 ≤ r.location ∨ 2 ^ 16 ≤ r.replacement) := by
    have hk := h.kind
    have hu := h.unit
    have hl := h.location
    have hr := h.replacement
    omega
  have hburnt : ¬ (r.fused = true ∨ f.repairs.contains (repairWord r) = true) := by simp [h.fresh, h.notBurnt]
  have hroom : ¬ 256 ≤ fusesUsed f := Nat.not_le.mpr h.room
  have hadd : f.addRepair (repairWord r) = { f with repairs := f.repairs ++ [repairWord r] } :=
    if_pos (Nat.lt_of_le_of_lt (Nat.le_add_right _ _) h.room)
  simp only [repairBurn, hq, if_neg hrange, if_neg hburnt, if_neg hroom, hadd]

theorem repTold_repairEnd (d : Dev) (w : Sys2Proof.Who) : repTold (repairEnd d w rpOK) w rpOK = true := by
  cases w with
  | cmd j => exact told_toCmd d j rpOK []
  | master m => exact beq_of_eq (Dev.fld_setFld_same d RES_REPAIR_STATUS_result rpOK (by decide))

theorem repairEnd_res (d : Dev) (w : Sys2Proof.Who) (r : Nat) : (repairEnd d w r).res = d.res := by cases w <;> rfl

/-- A burn that power does not fail in appends the fuse record and the log record (R439). -/
theorem repairBurn_burns {w : Sys2Proof.Who} {q : Nat} {r : Repair} {s : State} (hup : s.dev.inReset = false)
    (hq : s.dev.res.log.find? (fun x => x.seq == q) = some r) (h : Burnable s.fuses r) (hlen : s.dev.res.log.length < 8192) :
    ∃ t, exec (.repairBurn w q false) s = .next t ∧ t.fuses = { s.fuses with repairs := s.fuses.repairs ++ [repairWord r] } ∧
      repTold t.dev w rpOK = true ∧
      t.dev.res.log = s.dev.res.log ++ [{ r with seq := s.dev.res.nextSeq, fused := true, time := s.dev.secs % 2 ^ 32 }] ∧
      t.pending = s.pending := by
  have hburn := repairBurn_eq (w := w) hq h false
  rw [if_neg Bool.false_ne_true] at hburn
  refine ⟨_, s.onFuses_up (fun f d => powerCut f (repairBurn w q false f d)) hup, ?_⟩
  simp only [hburn, powerCut, lt_irrefl, if_false]
  exact ⟨trivial, repTold_repairEnd _ _, (congrArg Res.log (repairEnd_res _ _ _)).trans (repairLog_log hlen _ _ _ _ _), trivial⟩

/-- A burn that power fails in is pending, and the core is in reset (R439). -/
theorem repairBurn_cut {w : Sys2Proof.Who} {q : Nat} {r : Repair} {s : State} (hup : s.dev.inReset = false)
    (hq : s.dev.res.log.find? (fun x => x.seq == q) = some r) (h : Burnable s.fuses r) :
    ∃ t, exec (.repairBurn w q true) s = .next t ∧ t.fuses = { s.fuses with pend := s.fuses.pend ++ [.repair (repairWord r)] } ∧
      t.dev.inReset = true := by
  have hburn := repairBurn_eq (w := w) hq h true
  rw [if_pos rfl] at hburn
  refine ⟨_, s.onFuses_up (fun f d => powerCut f (repairBurn w q true f d)) hup, ?_⟩
  simp only [hburn, powerCut, List.length_append, List.length_singleton, Nat.lt_add_one, if_true]
  exact ⟨trivial, porAssert_inReset _⟩

theorem repairLate_completes {r : Repair} {s : State} (hup : s.dev.inReset = false) (hr : s.dev.res.log.getLast? = some r) :
    Completes .repairLogTimeout s ([.res] ++ noteParts) noteRegs fun t => t.dev.res = { s.dev.res with logLate := true } :=
  completes_of_onDev (g := repairLate) rfl hup (by simp only [repairLate, hr])
    (((Keeps.refl _).res (by decide) _).noted (noted_raise _ 226 r.kind 0) (by decide) fun _ h => h) (noted_raise _ _ _ _).res

end Sys2Proof.Machine
end

section
/-! PROOF. Self-test in service and the test of a spare Caddy (R429, R430, R435, R436). -/

namespace Sys2Proof.Machine

/-- The registers of the self-test in service. -/
def bistRegs (a : Nat) : Bool := a == RES_STATUS || a == RES_BIST_STATUS

theorem Dev.caddy_setCaddy (d : Dev) (c k : Nat) (x : Caddy) : (d.setCaddy c x).caddy k = if k = c then x else d.caddy k := Tab.getD_put _ _ _ _ _

/-! ### A Caddy taken into the rotation -/

theorem bistTake_keeps (d : Dev) (c : Nat) (b : Bool) : Keeps [.res, .dsp] bistRegs d (bistTake d c b) := by
  unfold bistTake
  exact ((((((((Keeps.refl d).res (by decide) _).setFld rfl _).setFld rfl _).setBit rfl _).setBit rfl _).setBit rfl _).setCaddy (by decide) _ _)

theorem bistTake_caddy (d : Dev) (c : Nat) (b : Bool) :
    (bistTake d c b).caddy c = { d.caddy c with state := if b then cdBIST else (d.caddy c).state, fenced := !b } :=
  (Dev.caddy_setCaddy _ _ _ _).trans (if_pos rfl)

theorem bistTake_status (d : Dev) (c : Nat) (b : Bool) :
    (bistTake d c b).fld RES_STATUS_bist_running = 1 ∧ (bistTake d c b).fld RES_BIST_STATUS_caddy = c % 64 ∧
      (bistTake d c b).fld RES_BIST_STATUS_in_slice = b2n b ∧ (bistTake d c b).fld RES_BIST_STATUS_fenced = b2n !b := by
  have hfld : ∀ x, (bistTake d c b).fld x =
      (((((d.setFld RES_BIST_STATUS_caddy c).setFld RES_BIST_STATUS_slice (Tab.getD d.res.bist.slices c 0)).setFld RES_STATUS_bist_running 1).setFld
        RES_BIST_STATUS_in_slice (b2n b)).setFld RES_BIST_STATUS_fenced (b2n !b)).fld x := fun _ => rfl
  have hbit : ∀ v : Bool, b2n v % 2 = b2n v := fun v => by cases v <;> rfl
  simp (disch := decide) only [hfld, Dev.fld_setFld_other, Dev.fld_setFld_same]
  exact ⟨rfl, rfl, hbit _, hbit _⟩

/-- The rotation's next Caddy, STOPPED, is taken at once (R435). -/
theorem bistStart_stopped {d : Dev} {c : Nat} (hstage : 3 ≤ d.stage) (hon : d.bistOn = true) (hrun : d.fld RES_CTRL_bist_run = 1)
    (hnone : d.res.bist.current = none) (hpos : d.res.bist.pos < 34) (hrot : rotation d d.res.bist.pos = some c)
    (hstate : (d.caddy c).state = cdSTOPPED) : bistStart d = bistTake d c true := by
  have hgo : ¬ (d.stage < 3 ∨ (!d.bistOn) = true ∨ (!d.bit RES_CTRL_bist_run) = true ∨ d.res.bist.current.isSome = true) := by
    simp [Nat.not_lt.mpr hstage, hon, Dev.bit_eq, hrun, hnone]
  have htest : testable d c = true := by simp [testable, hstate]
  have hrunning : ¬ (d.caddy c).state = cdRUNNING := by simp [hstate]
  have hrange : List.range 34 = 0 :: (List.range 33).map Nat.succ := List.range_succ_eq_map
  simp only [bistStart, if_neg hgo, hrange, List.map_cons, List.findSome?_cons, Nat.add_zero, Nat.mod_eq_of_lt hpos, hrot, htest, if_true]
  exact if_neg hrunning

theorem bistSliceStart_completes {c : Nat} {s : State} (hup : s.dev.inReset = false) (hstage : 3 ≤ s.dev.stage) (hon : s.dev.bistOn = true)
    (hrun : s.dev.fld RES_CTRL_bist_run = 1) (hnone : s.dev.res.bist.current = none) (hpos : s.dev.res.bist.pos < 34)
    (hrot : rotation s.dev s.dev.res.bist.pos = some c) (hc : c < 34) (hstate : (s.dev.caddy c).state = cdSTOPPED) :
    Completes .bistSliceStart s [.res, .dsp] bistRegs fun t => t.dev.res.bist.current = some c ∧ t.dev.res.bist.inSlice = true ∧
      (t.dev.caddy c).state = cdBIST ∧ t.dev.fld RES_STATUS_bist_running = 1 ∧ t.dev.fld RES_BIST_STATUS_in_slice = 1 ∧ t.dev.fld RES_BIST_STATUS_caddy = c := by
  obtain ⟨hbist, hcaddy, hslice, -⟩ := bistTake_status s.dev c true
  exact completes_of_onDev (g := bistStart) rfl hup (bistStart_stopped hstage hon hrun hnone hpos hrot hstate) (bistTake_keeps _ _ _)
    ⟨rfl, rfl, congrArg Caddy.state (bistTake_caddy _ _ _), hbist, hslice, hcaddy.trans (Nat.mod_eq_of_lt (by omega))⟩

theorem bistFenceIdle_completes {c : Nat} {s : State} (hup : s.dev.inReset = false) (hcur : s.dev.res.bist.current = some c)
    (hslice : s.dev.res.bist.inSlice = false) (hfence : (s.dev.caddy c).fenced = true) (hidle : caddyIdle s.dev c = true) :
    Completes .bistFenceIdle s [.res, .dsp] bistRegs fun t => t.dev.res.bist.current = some c ∧ t.dev.res.bist.inSlice = true ∧
      (t.dev.caddy c).state = cdBIST ∧ (t.dev.caddy c).fenced = false ∧ t.dev.fld RES_BIST_STATUS_in_slice = 1 ∧ t.dev.fld RES_BIST_STATUS_fenced = 0 := by
  obtain ⟨-, -, hin, hout⟩ := bistTake_status s.dev c true
  exact completes_of_onDev (g := fenceIdle) rfl hup (by simp [fenceIdle, hcur, hslice, hfence, hidle]) (bistTake_keeps _ _ _)
    ⟨rfl, rfl, congrArg Caddy.state (bistTake_caddy _ _ _), congrArg Caddy.fenced (bistTake_caddy _ _ _), hin, hout⟩

/-! ### The rotation moves on -/

/-- The fence or the slice of the Caddy under test is over. -/
theorem bistLeave_eq {d : Dev} {c : Nat} (hc : d.res.bist.current = some c) :
    bistLeave d c =
      ((((({ d with res := { d.res with bist := { d.res.bist with current := none, inSlice := false, rerun := false, wasStopped := false, spare := false } } }).setCaddy c
        { d.caddy c with fenced := false }).setBit RES_STATUS_bist_running false).setBit RES_BIST_STATUS_in_slice false).setBit
        RES_BIST_STATUS_fenced false) := by
  unfold bistLeave
  rw [if_neg (fun h => h hc)]
  rfl

/-- Nothing waits for a Caddy of its role. -/
theorem placeHolding_eq {d : Dev} (h : d.dsp.holding = []) : placeHolding d = d.setBit DSP_STATUS_role_wait false := by
  have hd : { d with dsp := { d.dsp with holding := [] } } = d := by rw [← h]
  simp only [placeHolding, h, List.foldl_nil, hd, List.isEmpty_nil, if_true]

theorem bistLeave_keeps {d : Dev} {c : Nat} (hc : d.res.bist.current = some c) : Keeps [.res, .dsp] bistRegs d (bistLeave d c) := by
  rw [bistLeave_eq hc]
  exact ((((((Keeps.refl d).res (by decide) _).setCaddy (by decide) _ _).setBit rfl _).setBit rfl _).setBit rfl _)

theorem bistLeave_res {d : Dev} {c : Nat} (hc : d.res.bist.current = some c) :
    (bistLeave d c).res =
      { d.res with bist := { d.res.bist with current := none, inSlice := false, rerun := false, wasStopped := false, spare := false } } := by
  rw [bistLeave_eq hc]
  rfl

theorem bistLeave_caddy {d : Dev} {c : Nat} (hc : d.res.bist.current = some c) :
    (bistLeave d c).caddy c = { d.caddy c with fenced := false } := by
  rw [bistLeave_eq hc]
  exact (Dev.caddy_setCaddy _ _ _ _).trans (if_pos rfl)

theorem bistLeave_holding {d : Dev} {c : Nat} (hc : d.res.bist.current = some c) : (bistLeave d c).dsp.holding = d.dsp.holding := by
  rw [bistLeave_eq hc]
  rfl

theorem bistFenceTimeout_completes {c : Nat} {s : State} (hup : s.dev.inReset = false) (hcur : s.dev.res.bist.current = some c)
    (hslice : s.dev.res.bist.inSlice = false) (hhold : s.dev.dsp.holding = []) :
    Completes .bistFenceTimeout s [.res, .dsp] (fun a => a == RES_STATUS || a == RES_BIST_STATUS || a == RES_BIST_CNT || a == DSP_STATUS) fun t =>
      t.dev.res.bist.current = none ∧ (t.dev.caddy c).fenced = false ∧ (t.dev.caddy c).state = (s.dev.caddy c).state ∧
      t.dev.fld RES_BIST_CNT_deferred = min (s.dev.fld RES_BIST_CNT_deferred + 1) RES_BIST_CNT_deferred.max := by
  have hk := bistLeave_keeps hcur
  have hcaddy := bistLeave_caddy hcur
  have hend : fenceTimeout s.dev = ((bistLeave s.dev c).inc RES_BIST_CNT_deferred).setBit DSP_STATUS_role_wait false := by
    simp only [fenceTimeout, hcur, hslice, Bool.false_eq_true, if_false]
    exact placeHolding_eq ((bistLeave_holding hcur).trans hhold)
  refine completes_of_onDev (g := fenceTimeout) rfl hup hend
    (((hk.mono (List.Subset.refl _) fun a ha => ?_).inc rfl).setBit rfl _)
    ⟨congrArg (·.bist.current) (bistLeave_res hcur), congrArg Caddy.fenced hcaddy, (congrArg Caddy.state hcaddy).trans rfl, ?_⟩
  · have hor : a = RES_STATUS ∨ a = RES_BIST_STATUS := by simpa [bistRegs] using ha
    simp [hor]
  · have hcnt : (bistLeave s.dev c).fld RES_BIST_CNT_deferred = s.dev.fld RES_BIST_CNT_deferred := by
      simp only [Dev.fld, hk.regs RES_BIST_CNT rfl]
    exact (Dev.fld_setFld_other _ _ _ _ (by decide)).trans ((Dev.fld_inc_same _ _ (by decide)).trans (by rw [hcnt]))

/-- The Caddy under test returns to what it was, nothing waiting for one. -/
theorem bistReturn_eq {d : Dev} (hhold : d.dsp.holding = []) {c : Nat} (hc : d.res.bist.current = some c) :
    bistReturn d c =
      (let d1 := bistLeave d c
       ({ d1 with res := { d1.res with bist := { d1.res.bist with pos := (d.res.bist.pos + 1) % 34 } } }.setCaddy c
         { d1.caddy c with state := if d.res.bist.wasStopped then cdSTOPPED else if d.res.bist.spare then cdSPARE else cdRUNNING,
                           emptySince := d.ns }).setBit DSP_STATUS_role_wait false) := by
  simp only [bistReturn]
  exact placeHolding_eq (by exact (bistLeave_holding hc).trans hhold)

/-- The registers that the end of a slice may change. -/
def sliceEndRegs (a : Nat) : Bool := a == RES_STATUS || a == RES_BIST_STATUS || a == DSP_STATUS

theorem sliceEndRegs_of_bistRegs {a : Nat} (h : bistRegs a = true) : sliceEndRegs a = true := by
  have hor : a = RES_STATUS ∨ a = RES_BIST_STATUS := by simpa [bistRegs] using h
  simp [sliceEndRegs, hor]

theorem bistReturn_keeps {d : Dev} (hhold : d.dsp.holding = []) {c : Nat} (hc : d.res.bist.current = some c) :
    Keeps [.res, .dsp] sliceEndRegs d (bistReturn d c) := by
  rw [bistReturn_eq hhold hc]
  have hk : Keeps [.res, .dsp] sliceEndRegs d (bistLeave d c) :=
    (bistLeave_keeps hc).mono (List.Subset.refl _) fun _ => sliceEndRegs_of_bistRegs
  exact ((hk.res (by decide) _).setCaddy (by decide) _ _).setBit rfl _

theorem bistReturn_bist {d : Dev} (hhold : d.dsp.holding = []) {c : Nat} (hc : d.res.bist.current = some c) :
    (bistReturn d c).res.bist =
      ⟨(d.res.bist.pos + 1) % 34, none, false, false, false, false, d.res.bist.slices⟩ := by
  rw [bistReturn_eq hhold hc]
  exact congrArg (fun r : Res => { r.bist with pos := (d.res.bist.pos + 1) % 34 }) (bistLeave_res hc)

theorem bistReturn_state {d : Dev} (hhold : d.dsp.holding = []) {c : Nat} (hc : d.res.bist.current = some c) :
    ((bistReturn d c).caddy c).state = if d.res.bist.wasStopped then cdSTOPPED else if d.res.bist.spare then cdSPARE else cdRUNNING := by
  rw [bistReturn_eq hhold hc]
  exact congrArg Caddy.state ((Dev.caddy_setCaddy _ _ _ _).trans (if_pos rfl))

/-- The device with a passed slice counted, which its Caddy then leaves. -/
def slicePassed (d : Dev) (c : Nat) : Dev :=
  let n := (Tab.getD d.res.bist.slices c 0 + 1) % 64
  ({ d with res := { d.res with bist := { d.res.bist with slices := Tab.put d.res.bist.slices c n } } }).setFld RES_BIST_STATUS_slice n

theorem sliceEnd_passed {d : Dev} {c : Nat} (hcur : d.res.bist.current = some c) (hslice : d.res.bist.inSlice = true) (part : Nat) :
    sliceEnd d true part = bistReturn (slicePassed d c) c := by
  simp only [sliceEnd, hcur, hslice, Bool.not_true, Bool.false_eq_true, if_false, if_true, slicePassed]

theorem sliceEnd_firstFailure {d : Dev} {c : Nat} (hcur : d.res.bist.current = some c) (hslice : d.res.bist.inSlice = true)
    (hrerun : d.res.bist.rerun = false) (part : Nat) :
    sliceEnd d false part =
      (let d1 := d.inc RES_BIST_CNT_failed
       { d1 with res := { d1.res with bist := { d.res.bist with rerun := true } } }) := by
  simp only [sliceEnd, hcur, hslice, hrerun, Bool.not_true, Bool.false_eq_true, if_false]

theorem bistSliceEnd_passed {c part : Nat} {s : State} (hup : s.dev.inReset = false) (hcur : s.dev.res.bist.current = some c)
    (hslice : s.dev.res.bist.inSlice = true) (hhold : s.dev.dsp.holding = []) :
    Completes (.bistSliceEnd true part) s [.res, .dsp] sliceEndRegs fun t =>
      t.dev.res.bist.current = none ∧
      Tab.getD t.dev.res.bist.slices c 0 = (Tab.getD s.dev.res.bist.slices c 0 + 1) % 64 ∧ t.dev.res.bist.pos = (s.dev.res.bist.pos + 1) % 34 ∧
      (t.dev.caddy c).state = (if s.dev.res.bist.wasStopped then cdSTOPPED else if s.dev.res.bist.spare then cdSPARE else cdRUNNING) := by
  have hcur' : (slicePassed s.dev c).res.bist.current = some c := hcur
  have hhold' : (slicePassed s.dev c).dsp.holding = [] := hhold
  have hbist := bistReturn_bist hhold' hcur'
  have hk : Keeps [.res, .dsp] sliceEndRegs s.dev (slicePassed s.dev c) := ((Keeps.refl _).res (by decide) _).setFld rfl _
  exact completes_of_onDev (g := fun d => sliceEnd d true part) rfl hup (sliceEnd_passed hcur hslice part)
    (hk.trans (bistReturn_keeps hhold' hcur'))
    ⟨congrArg Bist.current hbist, (congrArg (fun b : Bist => Tab.getD b.slices c 0) hbist).trans ((Tab.getD_put _ _ _ _ _).trans (if_pos rfl)),
      congrArg Bist.pos hbist, bistReturn_state hhold' hcur'⟩

theorem bistSliceEnd_firstFailure {c part : Nat} {s : State} (hup : s.dev.inReset = false) (hcur : s.dev.res.bist.current = some c)
    (hslice : s.dev.res.bist.inSlice = true) (hrerun : s.dev.res.bist.rerun = false) :
    Completes (.bistSliceEnd false part) s [.res] (fun a => a == RES_BIST_CNT) fun t =>
      t.dev.res.bist = { s.dev.res.bist with rerun := true } ∧
      t.dev.fld RES_BIST_CNT_failed = min (s.dev.fld RES_BIST_CNT_failed + 1) RES_BIST_CNT_failed.max :=
  completes_of_onDev (g := fun d => sliceEnd d false part) rfl hup (sliceEnd_firstFailure hcur hslice hrerun part)
    (((Keeps.refl _).inc rfl).res (by decide) _) ⟨rfl, Dev.fld_inc_same _ _ (by decide)⟩

/-! ### A spare Caddy takes a logical number (R429, R430) -/

/-- The device with the spare of a test in the logical place of Caddy `c`: its number, role mask and engine images, and an empty key cache. -/
def spareInPlace (d : Dev) (x : SpareTest) (c : Nat) : Dev :=
  let d1 := d.setCaddy c { d.caddy c with logical := none }
  let d2 := d1.setCaddy x.spare { d1.caddy x.spare with logical := some x.logical, roles := (d.caddy c).roles, state := cdRUNNING, emptySince := d.ns }
  loadImages { d2 with vault := { d2.vault with cache := d2.vault.cache.filter fun e => e.1 / 256 != x.spare } } x.spare

theorem spareInPlace_keeps (d : Dev) (x : SpareTest) (c : Nat) {ps : List Part} (hdsp : Part.dsp ∈ ps) (hvault : Part.vault ∈ ps)
    (rs : Nat → Bool) : Keeps ps rs d (spareInPlace d x c) :=
  ((((Keeps.refl d).setCaddy hdsp _ _).setCaddy hdsp _ _).vault hvault _).setCaddy hdsp _ _

theorem spareInPlace_holding (d : Dev) (x : SpareTest) (c : Nat) : (spareInPlace d x c).dsp.holding = d.dsp.holding := rfl

theorem Dev.caddy_congr {d e : Dev} (h : d.dsp = e.dsp) (c : Nat) : d.caddy c = e.caddy c := by rw [Dev.caddy, Dev.caddy, h]

theorem loadImages_caddy (d : Dev) (c k : Nat) :
    (loadImages d c).caddy k = if k = c then { d.caddy c with seImage := imageRole (images (d.sec 13 0xFFFF)) 0 (d.caddy c).roles,
                                                              peImage := imageRole (images (d.sec 13 0xFFFF)) 1 (d.caddy c).roles }
      else d.caddy k := Dev.caddy_setCaddy _ _ _ _

theorem Dev.caddy_vault (d : Dev) (v : Sec) (k : Nat) : ({ d with vault := v } : Dev).caddy k = d.caddy k := rfl

theorem spareInPlace_spare (d : Dev) (x : SpareTest) (c : Nat) :
    ((spareInPlace d x c).caddy x.spare).logical = some x.logical ∧ ((spareInPlace d x c).caddy x.spare).state = cdRUNNING ∧
      ((spareInPlace d x c).caddy x.spare).roles = (d.caddy c).roles := by
  simp only [spareInPlace, loadImages_caddy, Dev.caddy_vault, Dev.caddy_setCaddy, if_true, and_self]

theorem spareInPlace_replaced (d : Dev) {x : SpareTest} {c : Nat} (hc : c ≠ x.spare) :
    (spareInPlace d x c).caddy c = { d.caddy c with logical := none } := by
  simp only [spareInPlace, loadImages_caddy, Dev.caddy_vault, Dev.caddy_setCaddy, if_neg hc, if_true]

/-- The Caddy that a spare is to replace is another one. -/
theorem ne_spare_of_find? {d : Dev} {x : SpareTest} {c : Nat}
    (hc : (List.range 34).find? (fun c => c != x.spare && (d.caddy c).logical == some x.logical) = some c) : c ≠ x.spare := by
  have hp := List.find?_some hc
  simp only [Bool.and_eq_true, bne_iff_ne] at hp
  exact hp.1

/-- A spare that takes the number of a DISABLED Caddy, nothing waiting for one, is put in its place and the replacement noted. -/
theorem spareTakes_eq {d : Dev} {x : SpareTest} {c : Nat}
    (hc : (List.range 34).find? (fun c => c != x.spare && (d.caddy c).logical == some x.logical) = some c)
    (hstate : (d.caddy c).state = cdDISABLED) (hhold : d.dsp.holding = []) :
    spareTakes d x = (replaced (spareInPlace d x c) 4 c c x.spare).setBit DSP_STATUS_role_wait false := by
  have hne : c ≠ x.spare := ne_spare_of_find? hc
  have hoff : ((spareInPlace d x c).caddy c).state = cdDISABLED := by rw [spareInPlace_replaced d hne, hstate]
  have htakes : spareTakes d x = placeHolding (replaced (spareInPlace d x c) 4 c c x.spare) := by
    simp only [spareTakes, hc]
    exact congrArg (fun e => placeHolding (replaced e 4 c c x.spare)) (if_pos hoff)
  rw [htakes, placeHolding_eq]
  rw [replaced_dsp, spareInPlace_holding, hhold]

theorem spareTestDone_passed {d : Dev} {x : SpareTest} (htests : d.res.spareTests = [x]) (hbist : (d.caddy x.spare).state = cdBIST) :
    spareTestDone d x.spare true = spareTakes { d with res := { d.res with spareTests := [] } } x := by
  have hfind : d.res.spareTests.find? (fun t => t.spare == x.spare) = some x := by simp [htests]
  have hrest : d.res.spareTests.filter (fun t => t.spare != x.spare) = [] := by simp [htests]
  simp only [spareTestDone, hfind, hrest]
  exact if_pos (beq_of_eq hbist)

theorem spareCaddyTestDone_completes {k c : Nat} {x : SpareTest} {s : State} (hup : s.dev.inReset = false)
    (htests : s.dev.res.spareTests = [x]) (hk : x.spare = k) (hbist : (s.dev.caddy k).state = cdBIST)
    (hc : (List.range 34).find? (fun c => c != k && (s.dev.caddy c).logical == some x.logical) = some c)
    (hstate : (s.dev.caddy c).state = cdDISABLED) (hhold : s.dev.dsp.holding = []) :
    Completes (.spareCaddyTestDone k true) s ([.res, .dsp, .vault] ++ noteParts) (fun a => a == DSP_STATUS || noteRegs a) fun t =>
      (t.dev.caddy k).logical = some x.logical ∧ (t.dev.caddy k).state = cdRUNNING ∧ (t.dev.caddy k).roles = (s.dev.caddy c).roles ∧
      (t.dev.caddy c).logical = none ∧ t.dev.res.spareTests = [] := by
  subst hk
  let d1 : Dev := { s.dev with res := { s.dev.res with spareTests := [] } }
  have hdone : spareTestDone s.dev x.spare true = (replaced (spareInPlace d1 x c) 4 c c x.spare).setBit DSP_STATUS_role_wait false :=
    (spareTestDone_passed htests hbist).trans (spareTakes_eq hc hstate hhold)
  have hcaddy : ∀ j, (replaced (spareInPlace d1 x c) 4 c c x.spare).caddy j = (spareInPlace d1 x c).caddy j := Dev.caddy_congr (replaced_dsp _ _ _ _ _)
  obtain ⟨hlogical, hrunning, hroles⟩ := spareInPlace_spare d1 x c
  have hold : ((spareInPlace d1 x c).caddy c).logical = none := congrArg Caddy.logical (spareInPlace_replaced d1 (ne_spare_of_find? hc))
  have hk : Keeps ([.res, .dsp, .vault] ++ noteParts) (fun a => a == DSP_STATUS || noteRegs a) s.dev (spareInPlace d1 x c) :=
    ((Keeps.refl _).res (by decide) _).trans (spareInPlace_keeps d1 x c (by decide) (by decide) _)
  exact completes_of_onDev (g := fun d => spareTestDone d x.spare true) rfl hup hdone
    ((hk.replaced (by decide) (by decide) (fun a ha => by simp [ha]) _ _ _ _).setBit rfl _)
    ⟨(congrArg Caddy.logical (hcaddy _)).trans hlogical, (congrArg Caddy.state (hcaddy _)).trans hrunning,
      (congrArg Caddy.roles (hcaddy _)).trans hroles, (congrArg Caddy.logical (hcaddy _)).trans hold,
      congrArg Res.spareTests (replaced_res _ _ _ _ _)⟩

end Sys2Proof.Machine
end

section
/-! PROOF. Functions taken out of service and brought back, the counters cleared, the PCI Express domain isolated (R27, R440). -/

namespace Sys2Proof.Machine

/-! ### States of an engine and of a Trellis Unit -/

theorem fnState_engine (d : Dev) (e : Nat) :
    fnState d 2 e = if (d.engine e).draining then 1 else if (d.engine e).disabled then 2 else 0 := rfl

theorem fnState_trellis (d : Dev) (u : Nat) :
    fnState d 5 u = if d.res.func.draining.contains (fnKey 5 u) then 1 else if d.res.trellisOff.contains u then 2 else 0 := rfl

/-! ### The result of a command on a function -/

theorem fnEnd_told (d : Dev) (w : Sys2Proof.Who) {r : Nat} (hr : r < 256) (cls i : Nat) : fnTold (fnEnd d w r cls i) w r cls i = true := by
  cases w with
  | cmd j => exact told_toCmd d j r _
  | master m => exact beq_of_eq ((Dev.fld_setFld_same _ RES_FUNC_STATUS_result r (by decide)).trans (Nat.mod_eq_of_lt hr))

theorem fnEnd_keeps {ps : List Part} {rs : Nat → Bool} {d e : Dev} (h : Keeps ps rs d e) (hhif : Part.hif ∈ ps) (hres : Part.res ∈ ps)
    (hrs : rs RES_FUNC_STATUS = true) (w : Sys2Proof.Who) (r cls i : Nat) : Keeps ps rs d (fnEnd e w r cls i) := by
  cases w with
  | cmd j => exact h.toCmd hhif (.cmd j) r (le 4 (if r = fnRANGE then 0 else fnState e cls i))
  | master m => exact (h.res hres _).setFld hrs _

/-- A command's end leaves the engines and what drains or is off as it was. -/
theorem fnEnd_state (d : Dev) (w : Sys2Proof.Who) (r cls i k : Nat) :
    fnState (fnEnd d w r cls i) 2 k = fnState d 2 k ∧ fnState (fnEnd d w r cls i) 5 k = fnState d 5 k := by
  cases w <;> exact ⟨rfl, rfl⟩

/-- A function out of range changes nothing but the result (R440). -/
theorem fnEnd_range_res (d : Dev) (w : Sys2Proof.Who) (cls i : Nat) : (fnEnd d w fnRANGE cls i).res = d.res := by
  cases w <;> rfl

theorem func_outOfRange {w : Sys2Proof.Who} {cls i : Nat} {c : Instr} {s : State} (hup : s.dev.inReset = false) (hrange : fnRange cls i = false)
    (hc : c ∈ [.funcDisable w cls i, .funcEnable w cls i]) :
    Completes c s [.hif, .res] (fun a => a == RES_FUNC_STATUS) fun t => fnTold t.dev w fnRANGE cls i = true ∧ t.dev.res = s.dev.res := by
  have hk : Keeps [.hif, .res] (fun a => a == RES_FUNC_STATUS) s.dev (fnEnd s.dev w fnRANGE cls i) :=
    fnEnd_keeps (Keeps.refl _) (by decide) (by decide) rfl _ _ _ _
  have hP := And.intro (fnEnd_told s.dev w (r := fnRANGE) (by decide) cls i) (fnEnd_range_res s.dev w cls i)
  have hout : (!fnRange cls i) = true := by rw [hrange]; rfl
  rcases List.mem_pair.mp hc with rfl | rfl
  · exact completes_of_onDev (g := fun d => funcDisable d w cls i) rfl hup (if_pos hout) hk hP
  · exact completes_of_onDev (g := fun d => funcEnable d w cls i) rfl hup (if_pos hout) hk hP

/-! ### An engine begins to drain -/

theorem Dev.engine_setEngine_same (d : Dev) (e : Nat) (x : Engine) : (d.setEngine e x).engine e = x := (Tab.getD_put _ _ _ _ _).trans (if_pos rfl)

theorem funcDisable_eq_engine {d : Dev} {e : Nat} (he : e < 544) (hdrain : (d.engine e).draining = false) (hoff : (d.engine e).disabled = false)
    (hpre : (d.engine e).prefetch = none) (w : Sys2Proof.Who) :
    funcDisable d w 2 e = fnEnd (d.setEngine e { d.engine e with draining := true, prefetch := none }) w fnOK 2 e := by
  have hrange : fnRange 2 e = true := decide_eq_true he
  have hstate : fnState d 2 e = 0 := by simp [fnState_engine, hdrain, hoff]
  have hbegin : fnBegin d 2 e = d.setEngine e { d.engine e with draining := true, prefetch := none } := by
    simp [fnBegin, engineDrain, hpre]
  simp [funcDisable, hrange, hstate, hbegin]

theorem funcDisable_engine {w : Sys2Proof.Who} {e : Nat} {s : State} (hup : s.dev.inReset = false) (he : e < 544)
    (hdrain : (s.dev.engine e).draining = false) (hoff : (s.dev.engine e).disabled = false) (hpre : (s.dev.engine e).prefetch = none) :
    Completes (.funcDisable w 2 e) s [.hif, .res, .dsp] (fun a => a == RES_FUNC_STATUS) fun t =>
      fnTold t.dev w fnOK 2 e = true ∧ fnState t.dev 2 e = 1 := by
  refine completes_of_onDev (g := fun d => funcDisable d w 2 e) rfl hup (funcDisable_eq_engine he hdrain hoff hpre w)
    (fnEnd_keeps ((Keeps.refl _).setEngine (by decide) _ _) (by decide) (by decide) rfl _ _ _ _) ⟨fnEnd_told _ _ (by decide) _ _, ?_⟩
  refine (fnEnd_state _ _ _ _ _ _).1.trans ?_
  rw [fnState_engine, Dev.engine_setEngine_same]
  rfl

/-! ### A Trellis Unit returns, and ends its draining -/

theorem funcEnable_eq_trellis {d : Dev} {u : Nat} (hu : u < 68) (hoff : u ∈ d.res.trellisOff) (hdrain : fnKey 5 u ∉ d.res.func.draining)
    (w : Sys2Proof.Who) :
    funcEnable d w 5 u = fnEnd { d with res := { d.res with trellisOff := d.res.trellisOff.filter (· != u) } } w fnOK 5 u := by
  have hrange : fnRange 5 u = true := decide_eq_true hu
  have hstate : fnState d 5 u = 2 := by simp [fnState_trellis, hdrain, hoff]
  simp [funcEnable, hrange, hstate, fnReturn]

theorem funcEnable_trellis {w : Sys2Proof.Who} {u : Nat} {s : State} (hup : s.dev.inReset = false) (hu : u < 68) (hoff : u ∈ s.dev.res.trellisOff)
    (hdrain : fnKey 5 u ∉ s.dev.res.func.draining) :
    Completes (.funcEnable w 5 u) s [.hif, .res] (fun a => a == RES_FUNC_STATUS) fun t => fnTold t.dev w fnOK 5 u = true ∧ fnState t.dev 5 u = 0 := by
  refine completes_of_onDev (g := fun d => funcEnable d w 5 u) rfl hup (funcEnable_eq_trellis hu hoff hdrain w)
    (fnEnd_keeps ((Keeps.refl _).res (by decide) _) (by decide) (by decide) rfl _ _ _ _) ⟨fnEnd_told _ _ (by decide) _ _, ?_⟩
  refine (fnEnd_state _ _ _ _ _ _).2.trans ?_
  simp [fnState_trellis, hdrain]

theorem funcDrainEnd_eq_trellis {d : Dev} {u : Nat} (hu : u < 68) (hdrain : fnKey 5 u ∈ d.res.func.draining)
    (henable : fnKey 5 u ∉ d.res.func.enabling) :
    funcDrainEnd d 5 u =
      { d with res := { d.res with func := { d.res.func with
          draining := d.res.func.draining.filter (· != fnKey 5 u), enabling := d.res.func.enabling.filter (· != fnKey 5 u) } } } := by
  have hrange : fnRange 5 u = true := decide_eq_true hu
  have hstate : fnState d 5 u = 1 := by simp [fnState_trellis, hdrain]
  simp [funcDrainEnd, hrange, hstate, fnDrained, henable]

theorem funcDrainEnd_trellis {u : Nat} {s : State} (hup : s.dev.inReset = false) (hu : u < 68) (hdrain : fnKey 5 u ∈ s.dev.res.func.draining)
    (henable : fnKey 5 u ∉ s.dev.res.func.enabling) (hoff : u ∈ s.dev.res.trellisOff) :
    Completes (.funcDrainEnd 5 u) s [.res] (fun _ => false) fun t => fnState s.dev 5 u = 1 ∧ fnState t.dev 5 u = 2 :=
  completes_of_onDev (g := fun d => funcDrainEnd d 5 u) rfl hup (funcDrainEnd_eq_trellis hu hdrain henable)
    ((Keeps.refl _).res (by decide) _) ⟨by simp [fnState_trellis, hdrain], by simp [fnState_trellis, hoff]⟩

/-! ### Counters and the PCI Express domain -/

theorem resCntClear_completes {s : State} (hup : s.dev.inReset = false) :
    Completes .resCntClear s [] (fun a => a ∈ [RES_GATE_CNT, RES_GATE_LAT, RES_BIST_CNT, RES_SRAM_CNT]) fun t =>
      t.dev.reg RES_GATE_CNT = 0 ∧ t.dev.reg RES_GATE_LAT = 0 ∧ t.dev.reg RES_BIST_CNT = 0 ∧ t.dev.reg RES_SRAM_CNT = 0 := by
  have hclear : ∀ a ∈ [RES_GATE_CNT, RES_GATE_LAT, RES_BIST_CNT, RES_SRAM_CNT], (resCntClear s.dev).reg a = 0 := fun a ha =>
    (Dev.reg_clearRegs _ _ _).trans (if_pos ha)
  exact completes_of_onDev (g := resCntClear) rfl hup rfl ((((((Keeps.refl _).setReg rfl _).setReg rfl _).setReg rfl _).setReg rfl _))
    ⟨hclear _ (by simp), hclear _ (by simp), hclear _ (by simp), hclear _ (by simp)⟩

theorem powerDomainFault_pcie {s : State} (hup : s.dev.inReset = false) (hon : 200 ∉ s.dev.isolated) :
    Completes (.powerDomainFault 200) s [.isolated] (fun a => a == HIF_STATUS) fun t =>
      t.dev.isolated = 200 :: s.dev.isolated ∧ t.dev.fld HIF_STATUS_link_up = 0 := by
  have hfault : powerFault s.dev 200 = ({ s.dev with isolated := 200 :: s.dev.isolated }).setFld HIF_STATUS_link_up 0 := by
    simp [powerFault, hon]
  exact completes_of_onDev (g := fun d => powerFault d 200) rfl hup hfault (((Keeps.refl _).isolated (by decide) _).setFld rfl _)
    ⟨rfl, Dev.fld_setFld_same _ _ _ (by decide)⟩

end Sys2Proof.Machine
end

section
/-! PROOF. The journal, repairs, self-test and functions taken out of service, as one statement. -/

namespace Sys2Proof.Machine

/-- Settles O55: each of its commands completes by the lemma of its own function. -/
theorem journalRepairsAndSelfTest : Obligations.JournalRepairsAndSelfTest := by
  unfold Obligations.JournalRepairsAndSelfTest
  refine ⟨fun _ _ => jrnlOpen_completes, fun _ _ => jrnlOpen_refused, fun _ _ _ => jrnlStep_completes, fun _ _ _ => jrnlClose_completes,
    fun _ _ _ => jrnlFetch_found, fun _ _ => jrnlFetch_fromFlash, fun _ _ _ => jrnlFetchDone_completes,
    fun _ _ _ _ _ _ => eccError_corrected, fun _ _ _ _ _ => eccError_poisoned, fun _ => scrubRead_completes,
    fun _ _ _ _ _ => rowRepairDone_completes, fun _ _ _ => bankRepairDone_completes, fun _ _ => bistSliceStart_completes,
    fun _ _ => bistFenceIdle_completes, fun _ _ => bistFenceTimeout_completes, fun _ _ _ => bistSliceEnd_passed,
    fun _ _ _ => bistSliceEnd_firstFailure, fun _ _ _ _ hup _ => spareCaddyTestDone_completes hup, fun _ _ _ _ _ => func_outOfRange,
    fun _ _ _ => funcDisable_engine, fun _ _ _ => funcEnable_trellis, fun _ _ => funcDrainEnd_trellis, ?burn, ?cut,
    fun _ _ => repairLate_completes, fun _ => resCntClear_completes, fun _ => powerDomainFault_pcie⟩
  case burn =>
    intro w q r s hup hq hkind hunit hloc hrepl hfresh hburnt hroom hlen
    exact repairBurn_burns hup hq ⟨hkind, hunit, hloc, hrepl, hfresh, hburnt, hroom⟩ hlen
  case cut =>
    intro w q r s hup hq hkind hunit hloc hrepl hfresh hburnt hroom
    exact repairBurn_cut hup hq ⟨hkind, hunit, hloc, hrepl, hfresh, hburnt, hroom⟩

end Sys2Proof.Machine
end

section
/-! SUPPORT. Updates of one more part each, and a chain of updates along a list. -/

namespace Sys2Proof.Machine

section
variable {ps : List Part} {rs : Nat → Bool} {d e : Dev}

theorem Keeps.bld (h : Keeps ps rs d e) (hp : Part.bld ∈ ps) (x : Bld) : Keeps ps rs d { e with bld := x } :=
  h.trans ⟨fun p hn => by cases p with | bld => exact absurd hp hn | _ => rfl, fun _ _ => rfl⟩

theorem Keeps.setLoad (h : Keeps ps rs d e) (hp : Part.bld ∈ ps) (l : Option Load) : Keeps ps rs d (setLoad e l) := h.bld hp _

theorem Keeps.boot (h : Keeps ps rs d e) (hp : Part.boot ∈ ps) (x : Boot) : Keeps ps rs d { e with boot := x } :=
  h.trans ⟨fun p hn => by cases p with | boot => exact absurd hp hn | _ => rfl, fun _ _ => rfl⟩

theorem Keeps.ite {f : Dev} {c : Prop} [Decidable c] (he : Keeps ps rs d e) (hf : Keeps ps rs d f) : Keeps ps rs d (if c then e else f) := by
  split
  · exact he
  · exact hf

/-- Updates along a list, each of which keeps what the chain keeps. -/
theorem Keeps.foldl {α : Type} (h : Keeps ps rs d e) {g : Dev → α → Dev} (hg : ∀ x a, Keeps ps rs x (g x a)) (l : List α) :
    Keeps ps rs d (l.foldl g e) :=
  List.foldlRecOn l g h fun _ hb a _ => hb.trans (hg _ a)

end

end Sys2Proof.Machine
end

section
/-! PROOF. Loads of a Blend: begun, received, timed out, aborted (02_blend.md R52 to R55). -/

namespace Sys2Proof.Machine

/-! ### A load that ends FAILED -/

/-- The registers in which the end of a load shows (R46, R53). -/
def loadEndRegs (a : Nat) : Bool := a == BLD_STATUS || a == BLD_ERR_OFFSET || a == BLD_REFUSED

/-- A load that no host command asked for hands its result to the registers alone. -/
theorem loadFail_eq {d : Dev} (hcmd : d.bld.load.bind (·.cmd) = none) (code entry off : Nat) :
    loadFail d code entry off =
      setLoad ((((d.setFld BLD_STATUS_state bsFAILED).setFld BLD_STATUS_code code).setFld BLD_STATUS_entry entry).setFld
        BLD_ERR_OFFSET_offset off) none := by
  simp only [loadFail, hcmd]

theorem loadRefused_keeps {d : Dev} (hcmd : d.bld.load.bind (·.cmd) = none) (code entry off : Nat) :
    Keeps [.bld] loadEndRegs d (blRefuse (loadFail d code entry off)) := by
  rw [loadFail_eq hcmd]
  exact ((((((Keeps.refl d).setFld rfl _).setFld rfl _).setFld rfl _).setFld rfl _).setLoad (by decide) _).inc rfl

theorem loadRefused_bld {d : Dev} (hcmd : d.bld.load.bind (·.cmd) = none) (code entry off : Nat) :
    (blRefuse (loadFail d code entry off)).bld = { d.bld with load := none } := by
  rw [loadFail_eq hcmd]
  rfl

/-- What the status and the count show of a refused load. -/
theorem loadRefused_status {d : Dev} (hcmd : d.bld.load.bind (·.cmd) = none) (code entry off : Nat) :
    bldState (blRefuse (loadFail d code entry off)) = bsFAILED ∧
      (blRefuse (loadFail d code entry off)).fld BLD_STATUS_code = code % 256 ∧
      (blRefuse (loadFail d code entry off)).fld BLD_STATUS_entry = entry % 256 ∧
      (blRefuse (loadFail d code entry off)).fld BLD_REFUSED_count = min (d.fld BLD_REFUSED_count + 1) BLD_REFUSED_count.max := by
  have hload : ∀ (e : Dev) (x : Fld), (setLoad e none).fld x = e.fld x := fun _ _ => rfl
  rw [loadFail_eq hcmd, blRefuse, bldState]
  simp (disch := decide) only [Dev.fld_inc_same, Dev.fld_inc_other, hload, Dev.fld_setFld_other, Dev.fld_setFld_same]
  exact ⟨rfl, rfl, rfl, trivial⟩

/-- Sources whose failed load begins no other one. -/
theorem loadEnd_eq {d : Dev} {l : Load} (hl : d.bld.load = some l) (hsrc : ∀ b, l.source ≠ .start b) (code entry off : Nat) :
    loadEnd d code entry off = loadFail d code entry off := by
  unfold loadEnd
  rw [hl]
  cases hs : l.source with
  | start b => exact absurd hs (hsrc b)
  | _ => simp only [hs]

theorem loadRefused_failed {s : State} {d : Dev} (hcmd : d.bld.load.bind (·.cmd) = none) (hbld : d.bld = s.dev.bld)
    (hcount : d.fld BLD_REFUSED_count = s.dev.fld BLD_REFUSED_count) {code : Nat} (hcode : code < 256) :
    LoadFailed s code { s with dev := blRefuse (loadFail d code 0xFF 0) } := by
  obtain ⟨hstate, hc, hentry, hrefused⟩ := loadRefused_status hcmd code 0xFF 0
  exact ⟨hstate, hc.trans (Nat.mod_eq_of_lt hcode), hentry, by rw [hrefused, hcount], by rw [loadRefused_bld hcmd, hbld]⟩

theorem receiving_eq {d : Dev} (hst : bldState d = bsRECEIVING) : receiving d = d.bld.load := if_pos hst

/-- A command that is the time-out of a load's source ends the load FAILED. -/
theorem loadTimeout_completes {c : Instr} {p : LoadSource → Bool} {src : LoadSource} {l : Load} {s : State}
    (hc : exec c s = s.onDev fun d => loadTimeout d p)
    (hup : s.dev.inReset = false) (hst : bldState s.dev = bsRECEIVING) (hl : s.dev.bld.load = some l) (hsrc : l.source = src)
    (hcmd : l.cmd = none) (hp : p src = true) (hstart : ∀ b, src ≠ .start b) :
    Completes c s [.bld] (fun a => a == BLD_STATUS || a == BLD_ERR_OFFSET || a == BLD_REFUSED) fun t => LoadFailed s blTimeout t := by
  have hnone : s.dev.bld.load.bind (·.cmd) = none := by rw [hl]; exact hcmd
  have hend : loadTimeout s.dev p = blRefuse (loadFail s.dev blTimeout 0xFF 0) := by
    simp only [loadTimeout, receiving_eq hst, hl, hsrc, hp, if_true, loadEnd_eq hl (hsrc ▸ hstart)]
  exact completes_of_onDev hc hup hend (loadRefused_keeps hnone _ _ _) (loadRefused_failed hnone rfl rfl (by decide))

/-- An abort before the load has ended (R53). -/
theorem blendAbort_completes {l : Load} {s : State} (hup : s.dev.inReset = false)
    (hst : bldState s.dev = bsRECEIVING ∨ bldState s.dev = bsVALIDATING) (hl : s.dev.bld.load = some l) (hcmd : l.cmd = none)
    (hsrc : l.source = .port) :
    Completes .blendAbort s [.bld] (fun a => a == BLD_STATUS || a == BLD_ERR_OFFSET || a == BLD_CTRL || a == BLD_REFUSED) fun t =>
      LoadFailed s blAborted t := by
  have hst' : bldState (s.dev.setFld BLD_CTRL_abort 0) = bsRECEIVING ∨ bldState (s.dev.setFld BLD_CTRL_abort 0) = bsVALIDATING := by
    rwa [bldState, Dev.fld_setFld_other _ _ _ _ (by decide)]
  have hl' : (s.dev.setFld BLD_CTRL_abort 0).bld.load = some l := hl
  have hnone : (s.dev.setFld BLD_CTRL_abort 0).bld.load.bind (·.cmd) = none := by rw [hl']; exact hcmd
  have hend : blendAbort (s.dev.setFld BLD_CTRL_abort 0) = blRefuse (loadFail (s.dev.setFld BLD_CTRL_abort 0) blAborted 0xFF 0) := by
    rw [← loadEnd_eq hl' (fun _ => by simp [hsrc])]
    exact if_pos hst'
  refine completes_of_onDev (g := fun d => blendAbort (d.setFld BLD_CTRL_abort 0)) rfl hup hend
    (((Keeps.refl _).setFld rfl _).trans ((loadRefused_keeps hnone _ _ _).mono (fun _ h => h) fun a ha => ?_))
    (loadRefused_failed hnone rfl (Dev.fld_setFld_other _ _ _ _ (by decide)) (by decide))
  simp only [loadEndRegs, Bool.or_eq_true] at ha ⊢
  tauto

/-! ### A load begun and received -/

theorem loadBegin_port (d : Dev) (len : Nat) (cmd : Option Nat) :
    loadBegin d .port len cmd =
      ((setLoad d (some ⟨.port, len, [], cmd⟩)).setFld BLD_STATUS_state bsRECEIVING).setFld BLD_STATUS_refusal 0 := rfl

theorem blendStart_completes {s : State} (hup : s.dev.inReset = false) (hidle : within (bldState s.dev) bsRECEIVING bsAPPLYING = false)
    (hsrc : s.dev.fld BLD_CTRL_source = 0) (hlen : within (s.dev.fld BLD_LENGTH_length) 4096 16777216 = true)
    (hmod : s.dev.fld BLD_LENGTH_length % 4 = 0) :
    Completes .blendStart s [.bld] (fun a => a == BLD_CTRL || a == BLD_STATUS) fun t =>
      bldState t.dev = bsRECEIVING ∧ t.dev.fld BLD_STATUS_refusal = 0 ∧ t.dev.fld BLD_CTRL_start = 0 ∧
      t.dev.bld = { s.dev.bld with load := some ⟨.port, s.dev.fld BLD_LENGTH_length, [], none⟩ } := by
  have hidle' : within (bldState (s.dev.setFld BLD_CTRL_start 0)) bsRECEIVING bsAPPLYING = false := by
    rwa [bldState, Dev.fld_setFld_other _ _ _ _ (by decide)]
  have hbegin : blendStart s.dev = loadBegin (s.dev.setFld BLD_CTRL_start 0) .port (s.dev.fld BLD_LENGTH_length) none := by
    simp [blendStart, blendLoad, hsrc, hidle', hlen, hmod]
  have hload : ∀ (e : Dev) (l : Option Load) (x : Fld), (setLoad e l).fld x = e.fld x := fun _ _ _ => rfl
  rw [loadBegin_port] at hbegin
  refine completes_of_onDev (g := blendStart) rfl hup hbegin
    (((((Keeps.refl _).setFld rfl _).setLoad (by decide) _).setFld rfl _).setFld rfl _) ?_
  simp (disch := decide) only [bldState, hload, Dev.fld_setFld_other, Dev.fld_setFld_same]
  exact ⟨rfl, rfl, rfl, rfl⟩

/-- Bytes that do not pass the load's length are all taken; the last of them starts validation. -/
theorem loadBytes_eq {d : Dev} {l : Load} {bs : List Byte} (h : l.bytes.length + bs.length ≤ l.length) :
    loadBytes d l bs =
      (let e := setLoad d (some { l with bytes := l.bytes ++ bs })
       if l.bytes.length + bs.length = l.length then e.setFld BLD_STATUS_state bsVALIDATING else e) := by
  have hall : (l.bytes ++ bs).take l.length = l.bytes ++ bs := List.take_of_length_le (by rwa [List.length_append])
  have hlast : l.length ≤ l.bytes.length + bs.length ↔ l.bytes.length + bs.length = l.length := by omega
  simp only [loadBytes, hall, List.length_append, hlast]

theorem loadBytes_keeps {d : Dev} {l : Load} {bs : List Byte} (h : l.bytes.length + bs.length ≤ l.length) :
    Keeps [.bld] (fun a => a == BLD_STATUS) d (loadBytes d l bs) := by
  have hload : Keeps [.bld] (fun a => a == BLD_STATUS) d (setLoad d (some { l with bytes := l.bytes ++ bs })) :=
    (Keeps.refl d).setLoad (by decide) _
  rw [loadBytes_eq h]
  dsimp only
  split
  · exact hload.setFld rfl _
  · exact hload

theorem loadBytes_taken {d : Dev} {l : Load} {bs : List Byte} (h : l.bytes.length + bs.length ≤ l.length) (hst : bldState d = bsRECEIVING) :
    (loadBytes d l bs).bld = { d.bld with load := some { l with bytes := l.bytes ++ bs } } ∧
      bldState (loadBytes d l bs) = if l.bytes.length + bs.length = l.length then bsVALIDATING else bsRECEIVING := by
  rw [loadBytes_eq h]
  dsimp only
  split
  · exact ⟨rfl, Dev.fld_setFld_same _ _ _ (by decide)⟩
  · exact ⟨rfl, hst⟩

theorem bldData_completes {w : Word} {l : Load} {s : State} (hup : s.dev.inReset = false) (hst : bldState s.dev = bsRECEIVING)
    (hl : s.dev.bld.load = some l) (hsrc : l.source = .port) (hroom : l.bytes.length + 4 ≤ l.length) :
    Completes (.bldData w) s [.bld] (fun a => a == BLD_STATUS) fun t =>
      t.dev.bld = { s.dev.bld with load := some { l with bytes := l.bytes ++ le 4 w.toNat } } ∧
      bldState t.dev = if l.bytes.length + 4 = l.length then bsVALIDATING else bsRECEIVING :=
  completes_of_onDev (g := fun d => bldData d w) rfl hup (by simp only [bldData, receiving_eq hst, hl, hsrc, if_true])
    (loadBytes_keeps hroom) (loadBytes_taken hroom hst)

theorem blendReadCompletion_completes {bytes : List Byte} {a : Nat} {l : Load} {s : State} (hup : s.dev.inReset = false)
    (hst : bldState s.dev = bsRECEIVING) (hl : s.dev.bld.load = some l) (hsrc : l.source = .host a)
    (hroom : l.bytes.length + bytes.length ≤ l.length) :
    Completes (.blendReadCompletion bytes) s [.bld] (fun a => a == BLD_STATUS) fun t =>
      t.dev.bld = { s.dev.bld with load := some { l with bytes := l.bytes ++ bytes } } ∧
      bldState t.dev = if l.bytes.length + bytes.length = l.length then bsVALIDATING else bsRECEIVING :=
  completes_of_onDev (g := fun d => blendRead d bytes) rfl hup (by simp only [blendRead, receiving_eq hst, hl, hsrc])
    (loadBytes_keeps hroom) (loadBytes_taken hroom hst)

/-- Settles O17: a load's end and its bytes have a lemma each, and every clause is one of the two. -/
theorem blendLoading : Obligations.BlendLoading := by
  unfold Obligations.BlendLoading
  exact ⟨fun _ => blendStart_completes, fun _ _ _ => bldData_completes, fun _ _ _ _ => blendReadCompletion_completes,
    fun _ _ hup hst hl hsrc hcmd => loadTimeout_completes rfl hup hst hl hsrc hcmd rfl nofun,
    fun _ _ _ hup hst hl hsrc hcmd => loadTimeout_completes rfl hup hst hl hsrc hcmd rfl nofun,
    fun _ _ _ hup hst hl hsrc hcmd => loadTimeout_completes rfl hup hst hl hsrc hcmd rfl nofun, fun _ _ => blendAbort_completes⟩

end Sys2Proof.Machine
end

section
/-! PROOF. Validation ends, a pending delta switches a PAN, the restore record is written (02_blend.md R46, R50; 14_start_and_self_update.md
R403). -/

namespace Sys2Proof.Machine

/-! ### What check 7 leaves of the device -/

theorem markBad_keeps (d : Dev) (i : Nat) : Keeps (.vault :: noteParts) noteRegs d (markBad d i) :=
  ((Keeps.refl d).vault List.mem_cons_self _).noted (noted_raise _ _ _ _) (List.subset_cons_self _ _) fun _ h => h

/-- A slot that is used is marked when it is found bad, and nothing else changes (R335, R337). -/
theorem useSlot_keeps (f : Fuses) (d : Dev) (i op typ : Nat) (master pan : Option Nat) :
    Keeps (.vault :: noteParts) noteRegs d (useSlot f d i op typ master pan).2.2 := by
  unfold useSlot
  cases d.slot i with
  | none => exact Keeps.refl d
  | some x =>
    dsimp only
    split
    · split
      · exact Keeps.refl d
      · exact markBad_keeps d i
    · split
      · exact Keeps.refl d
      · split
        · exact Keeps.refl d
        · split <;> exact Keeps.refl d

theorem blendVerdict_keeps (f : Fuses) (d : Dev) (bs : List Byte) : Keeps (.vault :: noteParts) noteRegs d (blendVerdict f d bs).2 := by
  have henv : Keeps (.vault :: noteParts) noteRegs d (blendEnv f d bs).2 := useSlot_keeps f d _ _ _ _ _
  unfold blendVerdict
  dsimp only
  split
  · exact henv
  · exact Keeps.refl d

/-! ### A load that ends DONE -/

/-- A load that no host command asked for shows its success in the registers alone. -/
theorem loadOk_eq {d : Dev} (hcmd : d.bld.load.bind (·.cmd) = none) (st : Nat) :
    loadOk d st =
      setLoad ((((d.setFld BLD_STATUS_state st).setFld BLD_STATUS_code blOk).setFld BLD_STATUS_entry 0xFF).setFld BLD_ERR_OFFSET_offset 0)
        none := by
  simp only [loadOk, hcmd]

theorem loadOk_keeps {d : Dev} (hcmd : d.bld.load.bind (·.cmd) = none) (st : Nat) : Keeps [.bld] loadEndRegs d (loadOk d st) := by
  rw [loadOk_eq hcmd]
  exact (((((Keeps.refl d).setFld rfl _).setFld rfl _).setFld rfl _).setFld rfl _).setLoad (by decide) _

theorem loadOk_status {d : Dev} (hcmd : d.bld.load.bind (·.cmd) = none) (st : Nat) :
    bldState (loadOk d st) = st % 16 ∧ (loadOk d st).fld BLD_STATUS_code = blOk ∧ (loadOk d st).bld = { d.bld with load := none } := by
  have hload : ∀ (e : Dev) (x : Fld), (setLoad e none).fld x = e.fld x := fun _ _ => rfl
  rw [loadOk_eq hcmd, bldState]
  simp (disch := decide) only [hload, Dev.fld_setFld_other, Dev.fld_setFld_same]
  exact ⟨rfl, rfl, rfl⟩

/-! ### Validation -/

/-- What follows from the verdict on a full Blend that is only judged (R46). -/
def judged (d : Dev) (v : Verdict) : Dev := if v.code = blOk then loadOk d bsDONE else blRefuse (loadFail d v.code v.entry v.offset)

theorem blendValidated_judged {f : Fuses} {d : Dev} {l : Load} (hst : bldState d = bsVALIDATING) (hl : d.bld.load = some l)
    (hsrc : l.source = .port) (hstage : 2 ≤ d.stage) (hkind : blKind l.bytes ≠ 2) :
    blendValidated f d = judged (blendVerdict f d l.bytes).2 (blendVerdict f d l.bytes).1 := by
  have hbld : (blendVerdict f d l.bytes).2.bld = d.bld := (blendVerdict_keeps f d l.bytes).parts .bld (by decide)
  have hend := loadEnd_eq (d := (blendVerdict f d l.bytes).2) (by rw [hbld, hl]) (by simp [hsrc])
  have hlate : ¬ d.stage < 2 := Nat.not_lt.mpr hstage
  simp only [blendValidated, hl, hst, judged, hend, hlate, hkind, ne_eq, not_true, ite_not, if_false, decide_false, Bool.false_and,
    Bool.false_eq_true]

theorem judged_keeps {d : Dev} (hcmd : d.bld.load.bind (·.cmd) = none) (v : Verdict) : Keeps [.bld] loadEndRegs d (judged d v) := by
  unfold judged
  split
  · exact loadOk_keeps hcmd _
  · exact loadRefused_keeps hcmd _ _ _

theorem judged_status {d : Dev} (hcmd : d.bld.load.bind (·.cmd) = none) (v : Verdict) :
    bldState (judged d v) = (if v.code = blOk then bsDONE else bsFAILED) ∧ (judged d v).fld BLD_STATUS_code = v.code % 256 ∧
      (judged d v).bld = { d.bld with load := none } := by
  unfold judged
  split
  case isTrue hok =>
    obtain ⟨hstate, hcode, hbld⟩ := loadOk_status hcmd bsDONE
    exact ⟨hstate, by rw [hcode, hok]; rfl, hbld⟩
  case isFalse =>
    obtain ⟨hstate, hcode, -, -⟩ := loadRefused_status hcmd v.code v.entry v.offset
    exact ⟨hstate, hcode, loadRefused_bld hcmd _ _ _⟩

theorem blendValidationDone_completes {l : Load} {s : State} (hup : s.dev.inReset = false) (hst : bldState s.dev = bsVALIDATING)
    (hl : s.dev.bld.load = some l) (hsrc : l.source = .port) (hcmd : l.cmd = none) (hstage : 2 ≤ s.dev.stage) (hkind : blKind l.bytes ≠ 2) :
    Completes .blendValidationDone s [.bld, .vault, .tel, .outs, .jrnl]
      (fun a => a / 0x100000 == 2 || a == RES_JRNL_NEWEST || decide (0xF09000 ≤ a)) fun t =>
      bldState t.dev = (if (blendVerdict s.fuses s.dev l.bytes).1.code = blOk then bsDONE else bsFAILED) ∧
      t.dev.fld BLD_STATUS_code = (blendVerdict s.fuses s.dev l.bytes).1.code % 256 ∧ t.dev.bld = { s.dev.bld with load := none } := by
  have hverdict := blendVerdict_keeps s.fuses s.dev l.bytes
  have hbld : (blendVerdict s.fuses s.dev l.bytes).2.bld = s.dev.bld := hverdict.parts .bld (by decide)
  have hnone : (blendVerdict s.fuses s.dev l.bytes).2.bld.load.bind (·.cmd) = none := by rw [hbld, hl]; exact hcmd
  obtain ⟨hstate, hcode, hload⟩ := judged_status hnone (blendVerdict s.fuses s.dev l.bytes).1
  have hkeeps : Keeps [.bld, .vault, .tel, .outs, .jrnl] (fun a => a / 0x100000 == 2 || a == RES_JRNL_NEWEST || decide (0xF09000 ≤ a))
      s.dev (judged (blendVerdict s.fuses s.dev l.bytes).2 (blendVerdict s.fuses s.dev l.bytes).1) := by
    refine (hverdict.mono (by decide) fun a ha => ?_).trans ((judged_keeps hnone _).mono (by decide) fun a ha => ?_)
    · simp only [noteRegs, Bool.or_eq_true] at ha ⊢
      tauto
    · simp only [loadEndRegs, Bool.or_eq_true, beq_iff_eq] at ha
      rcases ha with (rfl | rfl) | rfl <;> rfl
  rw [← blendValidated_judged hst hl hsrc hstage hkind] at hkeeps hstate hcode hload
  exact completes_of_onDevF (g := blendValidated) rfl hup hkeeps.parts hkeeps.regs ⟨hstate, hcode, by rw [hload, hbld]⟩

/-! ### The switch of a PAN -/

/-- A PAN of a pending delta that is not the last to switch (R50, R52). -/
theorem deltaSwitch_eq {d : Dev} {p : Nat} {x : PendingDelta} (hx : d.bld.pending = some x) (haff : nbit x.affected p = true)
    (hleft : nbit x.switched p = false) (hmore : x.switched + 2 ^ p ≠ x.affected) :
    deltaSwitch d p =
      jStepDone ((setPendingDelta (panApply d x.sections p) (some { x with switched := x.switched + 2 ^ p })).setFld BLD_STATUS_state bsAPPLYING)
        x.jseq := by
  simp only [deltaSwitch, hx, haff, hleft, hmore, Bool.not_true, Bool.or_self, Bool.false_eq_true, if_false]

theorem deltaPanSwitch_applies {p : Nat} {x : PendingDelta} {s : State} (hup : s.dev.inReset = false) (hx : s.dev.bld.pending = some x)
    (haff : nbit x.affected p = true) (hleft : nbit x.switched p = false) (hmore : x.switched + 2 ^ p ≠ x.affected) :
    ∃ t, exec (.deltaPanSwitch p) s = .next t ∧ t.fuses = s.fuses ∧ t.pending = s.pending ∧ bldState t.dev = bsAPPLYING ∧
      t.dev.bld.pending = some { x with switched := x.switched + 2 ^ p } := by
  refine ⟨_, s.onDev_up (fun d => deltaSwitch d p) hup, rfl, rfl, ?_⟩
  dsimp only
  rw [deltaSwitch_eq hx haff hleft hmore]
  constructor
  · rw [bldState, jStepDone_fld _ _ _ (by decide)]
    exact Dev.fld_setFld_same _ _ _ (by decide)
  · rw [jStepDone_bld]
    rfl

/-! ### The restore record -/

theorem restoreRecordDone_completes {s : State} (hup : s.dev.inReset = false) (hwait : s.dev.boot.restoreWait = true) :
    Completes (.restoreRecordDone true) s [.boot] (fun _ => false) fun t =>
      t.dev.boot = { s.dev.boot with restoreWait := false, counter := s.dev.boot.counter.map fun c => { c with restores := c.restores + 1 } } :=
  completes_of_onDev (g := fun d => restoreRecord d true) rfl hup (by simp [restoreRecord, hwait]) ((Keeps.refl _).boot (by decide) _) rfl

end Sys2Proof.Machine
end

section
/-! SUPPORT. What the dispatcher, the tables, the ports and the campaigns leave of the start and of the Blend loader. -/

namespace Sys2Proof.Machine

/-- The parts that the units in service may change: the start stage, the Blend loader's state and the record of the start are none of them. -/
def unitParts : List Part :=
  [.dsp, .rx, .pbm, .tim, .ts, .tbl, .fwd, .ports, .vault, .cmp, .tel, .outs, .jrnl]

/-- Every register. -/
def anyReg : Nat → Bool := fun _ => true

section
variable {ps : List Part} {rs : Nat → Bool} {d e f : Dev}

theorem Keeps.rx (h : Keeps ps rs d e) (hp : Part.rx ∈ ps) (x : Rx) : Keeps ps rs d { e with rx := x } :=
  h.trans ⟨fun p hn => by cases p with | rx => exact absurd hp hn | _ => rfl, fun _ _ => rfl⟩

theorem Keeps.pbm (h : Keeps ps rs d e) (hp : Part.pbm ∈ ps) (x : Pbm) : Keeps ps rs d { e with pbm := x } :=
  h.trans ⟨fun p hn => by cases p with | pbm => exact absurd hp hn | _ => rfl, fun _ _ => rfl⟩

theorem Keeps.tim (h : Keeps ps rs d e) (hp : Part.tim ∈ ps) (x : Tim) : Keeps ps rs d { e with tim := x } :=
  h.trans ⟨fun p hn => by cases p with | tim => exact absurd hp hn | _ => rfl, fun _ _ => rfl⟩

theorem Keeps.ts (h : Keeps ps rs d e) (hp : Part.ts ∈ ps) (x : Ts) : Keeps ps rs d { e with ts := x } :=
  h.trans ⟨fun p hn => by cases p with | ts => exact absurd hp hn | _ => rfl, fun _ _ => rfl⟩

theorem Keeps.tel (h : Keeps ps rs d e) (hp : Part.tel ∈ ps) (x : Tel) : Keeps ps rs d { e with tel := x } :=
  h.trans ⟨fun p hn => by cases p with | tel => exact absurd hp hn | _ => rfl, fun _ _ => rfl⟩

theorem Keeps.ktl (h : Keeps ps rs d e) (hp : Part.ktl ∈ ps) (x : Kettle) : Keeps ps rs d { e with ktl := x } :=
  h.trans ⟨fun p hn => by cases p with | ktl => exact absurd hp hn | _ => rfl, fun _ _ => rfl⟩

theorem Keeps.draws (h : Keeps ps rs d e) (hp : Part.draws ∈ ps) (n : Nat) : Keeps ps rs d { e with draws := n } :=
  h.trans ⟨fun p hn => by cases p with | draws => exact absurd hp hn | _ => rfl, fun _ _ => rfl⟩

theorem Keeps.cmp (h : Keeps ps rs d e) (hp : Part.cmp ∈ ps) (x : Cmp) : Keeps ps rs d { e with cmp := x } :=
  h.trans ⟨fun p hn => by cases p with | cmp => exact absurd hp hn | _ => rfl, fun _ _ => rfl⟩

theorem Keeps.setPort (h : Keeps ps rs d e) (hp : Part.ports ∈ ps) (p : Nat) (x : Port) : Keeps ps rs d (e.setPort p x) :=
  h.trans ⟨fun q hn => by cases q with | ports => exact absurd hp hn | _ => rfl, fun _ _ => rfl⟩

theorem Keeps.setTask (h : Keeps ps rs d e) (hp : Part.dsp ∈ ps) (i : Nat) (t : Task) : Keeps ps rs d (e.setTask i t) := h.dsp hp _

theorem Keeps.setCamp (h : Keeps ps rs d e) (hp : Part.cmp ∈ ps) (n : Nat) (c : Camp) : Keeps ps rs d (e.setCamp n c) := h.cmp hp _

theorem Keeps.setAlloc (h : Keeps ps rs d e) (hp : Part.ts ∈ ps) (p : Nat) (a : Alloc) : Keeps ps rs d (e.setAlloc p a) := h.ts hp _

theorem Keeps.stage_eq (h : Keeps ps rs d e) (hp : Part.stage ∉ ps) : e.stage = d.stage := h.parts .stage hp

theorem Keeps.bld_eq (h : Keeps ps rs d e) (hp : Part.bld ∉ ps) : e.bld = d.bld := h.parts .bld hp

theorem Keeps.boot_eq (h : Keeps ps rs d e) (hp : Part.boot ∉ ps) : e.boot = d.boot := h.parts .boot hp

theorem Keeps.dsp_eq (h : Keeps ps rs d e) (hp : Part.dsp ∉ ps) : e.dsp = d.dsp := h.parts .dsp hp

/-- Events and journal records of a unit in service. -/
theorem Keeps.unitNoted (h : Keeps unitParts anyReg d e) (hn : Noted e f) : Keeps unitParts anyReg d f :=
  h.noted hn (by decide) fun _ _ => rfl

end

/-! ### Tasks placed on Caddies (R60, R73) -/

theorem startCaddy_keeps (d : Dev) (c : Nat) : Keeps unitParts anyReg d (startCaddy d c) := by
  have hset : Keeps unitParts anyReg d (d.setCaddy c { d.caddy c with state := cdSTARTING }) := (Keeps.refl d).setCaddy (by decide) _ _
  unfold startCaddy
  exact (hset.unitNoted (noted_trace _ _)).ite hset

theorem startIfNeeded_keeps (d : Dev) (kind slots : Nat) (tr : Bool) : Keeps unitParts anyReg d (startIfNeeded d kind slots tr) := by
  unfold startIfNeeded
  split
  · exact Keeps.refl d
  · cases startable d kind tr with
    | none => exact Keeps.refl d
    | some c => exact startCaddy_keeps d c

theorem dropContext_keeps (d : Dev) (i : Nat) : Keeps unitParts anyReg d (dropContext d i) :=
  (((Keeps.refl d).dsp (by decide) { d.dsp with tasks := Tab.del d.dsp.tasks i }).rx (by decide) { d.rx with ctx := Tab.del d.rx.ctx i }).inc rfl

theorem putReady_keeps (d : Dev) (i c : Nat) (t : Task) : Keeps unitParts anyReg d (putReady d i c t) :=
  ((Keeps.refl d).setCaddy (by decide) _ _).setTask (by decide) _ _

theorem place_keeps (d : Dev) (i : Nat) : Keeps unitParts anyReg d (place d i) := by
  unfold place
  cases d.task i with
  | none => exact Keeps.refl d
  | some t =>
    have hstart := startIfNeeded_keeps d t.d.kind t.slots (needsTrellis d t)
    dsimp only
    split
    · exact hstart.trans (putReady_keeps _ _ _ _)
    · split
      · exact hstart.trans (dropContext_keeps _ _)
      · exact (hstart.setTask (by decide) _ _).dsp (by decide) _

theorem placeHolding_keeps (d : Dev) : Keeps unitParts anyReg d (placeHolding d) := by
  have hall : Keeps unitParts anyReg d (d.dsp.holding.foldl place { d with dsp := { d.dsp with holding := [] } }) :=
    ((Keeps.refl d).dsp (by decide) _).foldl place_keeps _
  unfold placeHolding
  exact (hall.setBit rfl _).ite hall

theorem warmStart_keeps (n : Nat) (d : Dev) : Keeps unitParts anyReg d (warmStart n d) := by
  induction n generalizing d with
  | zero => exact Keeps.refl d
  | succ n ih =>
    unfold warmStart
    split
    · exact Keeps.refl d
    · split
      · exact Keeps.refl d
      · exact (startCaddy_keeps d _).trans (ih _)

theorem keepWarm_keeps (d : Dev) : Keeps unitParts anyReg d (keepWarm d) := by
  unfold keepWarm
  exact ((warmStart_keeps 32 d).trans (placeHolding_keeps _)).ite (Keeps.refl d)

theorem makeReady_keeps (d : Dev) (i : Nat) : Keeps unitParts anyReg d (makeReady d i) := by
  unfold makeReady
  cases d.task i with
  | none => exact Keeps.refl d
  | some t =>
    dsimp only
    split
    · exact ((Keeps.refl d).setTask (by decide) _ _).trans (place_keeps _ _)
    · exact (((Keeps.refl d).dsp (by decide) _).setTask (by decide) _ _).trans (place_keeps _ _)

theorem enterTask_keeps (d : Dev) (x : Desc) (slots : Nat) : Keeps unitParts anyReg d (enterTask d x slots) := by
  have hset : ∀ t : Task, Keeps unitParts anyReg d (d.setTask x.id t) := (Keeps.refl d).setTask (by decide) x.id
  unfold enterTask
  exact ((hset _).trans (makeReady_keeps _ _)).ite (hset _)

theorem hwSubmit_keeps {d e : Dev} {lo n kind source flow handler arg0 arg1 slots i : Nat}
    (h : hwSubmit d lo n kind source flow handler arg0 arg1 slots = some (i, e)) : Keeps unitParts anyReg d e := by
  obtain ⟨j, -, hj⟩ := Option.map_eq_some_iff.mp h
  obtain ⟨-, rfl⟩ := Prod.mk.inj hj
  exact enterTask_keeps _ _ _

/-! ### Table memory (R236 to R245) -/

theorem setEntryAt_keeps (d : Dev) (t i off : Nat) (bs : List Byte) : Keeps unitParts anyReg d (setEntryAt d t i off bs) :=
  (Keeps.refl d).tbl (by decide) _

theorem setEntry_keeps (d : Dev) (t i : Nat) (bs : List Byte) : Keeps unitParts anyReg d (setEntry d t i bs) := setEntryAt_keeps d t i 0 _

theorem setEntryField_keeps (d : Dev) (t i off len v : Nat) : Keeps unitParts anyReg d (setEntryField d t i off len v) :=
  setEntryAt_keeps d t i off _

theorem setNodeCtrl_keeps (d : Dev) (n hi lo v : Nat) : Keeps unitParts anyReg d (setNodeCtrl d n hi lo v) := setEntryField_keeps _ _ _ _ _ _

theorem bumpVersion_keeps (d : Dev) (t sector b : Nat) : Keeps unitParts anyReg d (bumpVersion d t sector b) := (Keeps.refl d).tbl (by decide) _

theorem relocate_keeps (d : Dev) (e y : Nat) : Keeps unitParts anyReg d (relocate d e y) := by
  unfold relocate
  cases freeSlot d 1 0 y with
  | none => exact Keeps.refl d
  | some f =>
    exact (((setEntry_keeps d _ _ _).trans (bumpVersion_keeps _ _ _ _)).trans (setEntry_keeps _ _ _ _)).trans (bumpVersion_keeps _ _ _ _)

theorem placeIn_keeps {d e : Dev} {t sector b i : Nat} {bs : List Byte} (h : placeIn d t sector b bs = some (i, e)) :
    Keeps unitParts anyReg d e := by
  obtain ⟨f, -, hf⟩ := Option.map_eq_some_iff.mp h
  obtain ⟨-, rfl⟩ := Prod.mk.inj hf
  exact (setEntry_keeps d _ _ _).trans (bumpVersion_keeps _ _ _ _)

/-- An entry placed in one bucket or else in the other. -/
theorem placeIn_or_keeps {d e : Dev} {t sector b c i : Nat} {bs : List Byte}
    (h : (placeIn d t sector b bs).or (placeIn d t sector c bs) = some (i, e)) : Keeps unitParts anyReg d e := by
  rcases Option.or_eq_some_iff.mp h with hb | ⟨-, hc⟩
  · exact placeIn_keeps hb
  · exact placeIn_keeps hc

theorem memFail_keeps (d : Dev) (t i : Nat) : Keeps unitParts anyReg d (memFail d t i).2.2 :=
  ((Keeps.refl d).inc rfl).unitNoted (noted_raise _ _ _ _)

theorem insertAddr_keeps (d : Dev) (k : List Byte) (nix : Nat) : Keeps unitParts anyReg d (insertAddr d k nix).2.2 := by
  unfold insertAddr
  dsimp only
  split
  · exact memFail_keeps _ _ _
  · split
    · exact Keeps.refl d
    · split
      · exact memFail_keeps _ _ _
      · split
        · exact Keeps.refl d
        · split
          next h => exact (placeIn_or_keeps h).trans (setNodeCtrl_keeps _ _ _ _ _)
          next =>
            split
            · exact memFail_keeps _ _ _
            · exact (Keeps.refl d).inc rfl
            next path _ _ =>
              have hpath : Keeps unitParts anyReg d (path.foldl (fun a mv => relocate a mv.1 mv.2) d) :=
                (Keeps.refl d).foldl (fun _ _ => relocate_keeps _ _ _) _
              split
              next h => exact (hpath.trans (placeIn_or_keeps h)).trans (setNodeCtrl_keeps _ _ _ _ _)
              next => exact hpath

/-! ### Campaigns restored (R383, R386) -/

theorem campStore_keeps (d : Dev) (n : Nat) : Keeps unitParts anyReg d (campStore d n) := by
  unfold campStore
  cases d.camp n with
  | none => exact Keeps.refl d
  | some c => exact (Keeps.refl d).cmp (by decide) _

theorem bufPut_keeps {d e : Dev} {bs : List Byte} {h : Nat} (hput : bufPut d bs = some (h, e)) : Keeps unitParts anyReg d e := by
  unfold bufPut at hput
  split at hput
  · obtain ⟨-, rfl⟩ := Prod.mk.inj (Option.some.inj hput)
    exact (Keeps.refl d).pbm (by decide) _
  · cases hput

/-- One block more built ahead, `go` going on from it. -/
def aheadBlock (n : Nat) (block : List Byte) (go : Dev → Dev) (d : Dev) : Dev :=
  match d.camp n with
  | none => d
  | some c =>
    if c.state ≠ cpRUNNING ∨ 4 ≤ c.built.length ∨ (c.built.getLast?.any fun x => x.esi == 0xFFFFFFFF) then d
    else
      let e := match c.built.getLast? with
        | none => c.esi
        | some x => esiFrom (cdImage c.desc) c.k 64 (x.esi + 1)
      match bufPut d block with
      | none => d
      | some (h, d1) =>
        match hwSubmit d1 0x7C00 0x400 3 5 noFlow 8 (n * 2 ^ 32 + e) h 0 with
        | none => bufFree d1 h
        | some (t, d2) => go (d2.setCamp n { c with built := c.built ++ [⟨e, h, some t⟩] })

/-- The equation of `buildAhead` for one more block. Unfolding it as it stands evaluates the 1024 zeros of the buffer, so they are made a
variable first. -/
theorem buildAhead_succ (n m : Nat) (d : Dev) : buildAhead n (m + 1) d = aheadBlock n (zeros 1024) (buildAhead n m) d := by
  delta buildAhead buildAhead._f aheadBlock
  generalize zeros 1024 = block
  rfl

theorem aheadBlock_keeps {go : Dev → Dev} (hgo : ∀ x, Keeps unitParts anyReg x (go x)) (n : Nat) (block : List Byte) (d : Dev) :
    Keeps unitParts anyReg d (aheadBlock n block go d) := by
  unfold aheadBlock
  cases d.camp n with
  | none => exact Keeps.refl d
  | some c =>
    dsimp only
    split
    · exact Keeps.refl d
    · split
      · exact Keeps.refl d
      next h d1 hput =>
        have hbuf : Keeps unitParts anyReg d d1 := bufPut_keeps hput
        split
        · exact hbuf.pbm (by decide) _
        next t d2 hsub => exact ((hbuf.trans (hwSubmit_keeps hsub)).setCamp (by decide) _ _).trans (hgo _)

theorem buildAhead_keeps (n m : Nat) (d : Dev) : Keeps unitParts anyReg d (buildAhead n m d) := by
  induction m generalizing d with
  | zero => exact Keeps.refl d
  | succ m ih =>
    rw [buildAhead_succ]
    exact aheadBlock_keeps ih n _ d

theorem dropBuilt_keeps (d : Dev) (l : List Built) : Keeps unitParts anyReg d (dropBuilt d l) :=
  (Keeps.refl d).foldl (fun x _ => (Keeps.refl x).pbm (by decide) _) _

theorem campEnter_keeps (d : Dev) (n st : Nat) : Keeps unitParts anyReg d (campEnter d n st) := by
  unfold campEnter
  cases d.camp n with
  | none => exact Keeps.refl d
  | some c =>
    dsimp only
    split
    · exact (((Keeps.refl d).setCamp (by decide) _ _).trans (campStore_keeps _ _)).trans (buildAhead_keeps _ _ _)
    · exact ((dropBuilt_keeps d _).setCamp (by decide) _ _).trans (campStore_keeps _ _)

theorem spoolLoad_keeps (d : Dev) (s k : Nat) (image : List Byte) : Keeps unitParts anyReg d (spoolLoad d s k image) :=
  (Keeps.refl d).foldl (fun _ _ => setEntry_keeps _ _ _ _) _

theorem campRestore_keeps (d : Dev) (n : Nat) (x : CampFlash) : Keeps unitParts anyReg d (campRestore d n x) := by
  unfold campRestore
  split
  · exact ((Keeps.refl d).cmp (by decide) _).unitNoted (noted_jNote _ _ _ _ _ _ _ _ _)
  · cases spoolFit d (blocksOf (cdLen x.desc)) with
    | none => exact Keeps.refl d
    | some s =>
      dsimp only
      split
      · exact ((spoolLoad_keeps d _ _ _).setCamp (by decide) _ _).trans (campEnter_keeps _ _ _)
      · exact (spoolLoad_keeps d _ _ _).setCamp (by decide) _ _

theorem campRestoreAll_keeps (d : Dev) : Keeps unitParts anyReg d (campRestoreAll d) :=
  (Keeps.refl d).foldl (fun _ _ => campRestore_keeps _ _ _) _

end Sys2Proof.Machine
end

section
/-! SUPPORT. What the sections of a Blend, the snapshot and the ports leave as they take effect (02_blend.md R31, R57, 14_start_and_self_update.md
R397, R404), and the beacons and the summary that are built from them (R220, R391). -/

namespace Sys2Proof.Machine

/-! ### Sections taking effect -/

theorem baseRoles_keeps (d : Dev) : Keeps unitParts anyReg d (baseRoles d) := (Keeps.refl d).tim (by decide) _

theorem loadImages_keeps (d : Dev) (c : Nat) : Keeps unitParts anyReg d (loadImages d c) := (Keeps.refl d).setCaddy (by decide) _ _

theorem partition_keeps (f : Fuses) (d : Dev) : Keeps unitParts anyReg d (partition f d) := by
  unfold partition
  refine (Keeps.refl d).foldl (fun x c => Keeps.trans ?_ (loadImages_keeps _ c)) _
  dsimp only
  split <;> exact (Keeps.refl x).setCaddy (by decide) _ _

theorem recovMode_keeps (d : Dev) (on : Bool) : Keeps unitParts anyReg d (recovMode d on) := by
  unfold recovMode
  split
  · exact Keeps.refl d
  · dsimp only
    split
    · exact (((Keeps.refl d).setBit rfl _).setBit rfl _).ts (by decide) _
    · exact ((((Keeps.refl d).setBit rfl _).setBit rfl _).ts (by decide) _).setFld rfl _

theorem setRecov_keeps (d : Dev) (st : Nat) : Keeps unitParts anyReg d (setRecov d st) :=
  (((Keeps.refl d).setFld rfl _).unitNoted (noted_raise _ _ _ _)).trans (recovMode_keeps _ _)

theorem backhaulChanged_keeps (d : Dev) : Keeps unitParts anyReg d (backhaulChanged d) := by
  unfold backhaulChanged
  have hset : ∀ st, Keeps unitParts anyReg d (setRecov d st) := setRecov_keeps d
  exact ((hset _).ite ((hset _).ite (Keeps.refl d))).ite ((hset _).ite ((hset _).ite (Keeps.refl d)))

/-- A limit register that a section's limit may lower. -/
theorem Keeps.setFld_if {ps : List Part} {d e : Dev} (h : Keeps ps anyReg d e) (c : Prop) [Decidable c] (x : Fld) (v : Nat) :
    Keeps ps anyReg d (if c then e.setFld x v else e) := (h.setFld rfl v).ite h

theorem liveApply_keeps (d : Dev) : Keeps unitParts anyReg d (liveApply d) := by
  unfold liveApply
  dsimp only
  exact (((((((((Keeps.refl d).setFld_if _ _ _).setFld_if _ _ _).setFld rfl _).setFld rfl _).setFld rfl _).setBit rfl _).tel (by decide) _).trans
    (keepWarm_keeps _)).trans (backhaulChanged_keeps _)

theorem deriveAll_keeps (f : Fuses) (d : Dev) : Keeps unitParts anyReg d (deriveAll f d) := (Keeps.refl d).vault (by decide) _

theorem setState_keeps (d : Dev) (p st : Nat) : Keeps unitParts anyReg d (setState d p st) :=
  ((Keeps.refl d).setPort (by decide) _ _).setFld rfl _

theorem portEnable_keeps (d : Dev) (p : Nat) : Keeps unitParts anyReg d (portEnable d p) := by
  have hset : Keeps unitParts anyReg d (d.setBit (YL_CTRL_enable p) true) := (Keeps.refl d).setBit rfl _
  unfold portEnable
  exact (hset.setPort (by decide) _ _).ite (hset.ite ((hset.setPort (by decide) _ _).trans (setState_keeps _ _ _)))

/-! ### The snapshot restored -/

theorem restoreNode_keeps (d : Dev) (x : Nat × List Byte) : Keeps unitParts anyReg d (restoreNode d x) := by
  unfold restoreNode
  split
  · exact Keeps.refl d
  · exact (((setEntry_keeps d _ _ _).trans (setNodeCtrl_keeps _ _ _ _ _)).trans (setEntry_keeps _ _ _ _)).trans (setEntry_keeps _ _ _ _)

theorem restoreAddr_keeps (d : Dev) (b : List Byte) : Keeps unitParts anyReg d (restoreAddr d b) := by
  unfold restoreAddr
  exact (insertAddr_keeps d _ _).ite ((insertAddr_keeps d _ _).unitNoted (noted_raise _ _ _ _))

theorem restoreCounters_keeps (d : Dev) (n : Nat) (cs : List Nat) (k : Nat) : Keeps unitParts anyReg d (restoreCounters d n cs k) := by
  have htx : ∀ (x : Dev) (o1 n1 v1 o2 n2 v2 : Nat), Keeps unitParts anyReg x (setEntryField (setEntryField x 0 n o1 n1 v1) 0 n o2 n2 v2) :=
    fun x _ _ _ _ _ _ => (setEntryField_keeps x _ _ _ _ _).trans (setEntryField_keeps _ _ _ _ _ _)
  unfold restoreCounters
  exact ((htx d _ _ _ _ _ _).trans (htx _ _ _ _ _ _ _)).trans (htx _ _ _ _ _ _ _)

/-- The tables as the images hold them; of the start's record only the waits of the restore change. -/
theorem restoreTables_keeps (d : Dev) : Keeps (.boot :: unitParts) anyReg d (restoreTables d) := by
  unfold restoreTables
  cases d.boot.base with
  | none => exact Keeps.refl d
  | some b =>
    have hmono : ∀ {x y : Dev}, Keeps unitParts anyReg x y → Keeps (.boot :: unitParts) anyReg x y :=
      fun h => h.mono (List.subset_cons_self _ _) fun _ h => h
    have hcell : ∀ (x : Dev) (c : Nat × List Byte), Keeps unitParts anyReg x (if c.1 < 1048576 then setEntry x 4 c.1 c.2 else x) :=
      fun x _ => (setEntry_keeps x _ _ _).ite (Keeps.refl x)
    have hnode : ∀ (k : Nat) (x : Dev) (c : Nat × List Nat),
        Keeps unitParts anyReg x (if nodeValid x c.1 then restoreCounters x c.1 c.2 k else x) :=
      fun _ x _ => (restoreCounters_keeps x _ _ _).ite (Keeps.refl x)
    have htables : ∀ g : Dev → Nat → Alloc, Keeps unitParts anyReg d ((List.range 8).foldl (fun x p => x.setAlloc p (g x p))
        (b.cells.foldl (fun x c => if c.1 < 1048576 then setEntry x 4 c.1 c.2 else x) (b.addrs.foldl restoreAddr (b.nodes.foldl restoreNode d)))) :=
      fun g => ((((Keeps.refl d).foldl restoreNode_keeps b.nodes).foldl restoreAddr_keeps b.addrs).foldl hcell b.cells).foldl
        (fun x p => (Keeps.refl x).setAlloc (by decide) p (g x p)) _
    dsimp only
    split
    · split
      · exact (hmono ((htables _).foldl (hnode _) _)).boot (by decide) _
      · exact (hmono (htables _)).boot (by decide) _
    · exact (hmono (htables _)).boot (by decide) _

/-! ### Beacons, summary and broadcast ceilings -/

/-- The parts in which beacons, the summary, the ceilings and an alarm that is owed are held. -/
def beaconParts : List Part := [.ts, .ktl, .draws, .vault, .tel, .outs, .jrnl]

theorem buildBeacon_keeps (d : Dev) (p : Nat) : Keeps beaconParts anyReg d (buildBeacon d p) := by
  unfold buildBeacon
  split
  · exact Keeps.refl d
  · exact ((Keeps.refl d).setFld rfl _).ts (by decide) _

theorem buildSummary_keeps (d : Dev) : Keeps beaconParts anyReg d (buildSummary d) :=
  ((Keeps.refl d).draws (by decide) _).ktl (by decide) _

theorem sealVault_keeps (f : Fuses) (d : Dev) : Keeps beaconParts anyReg d (sealVault f d) := by
  unfold sealVault
  dsimp only
  split <;> exact (Keeps.refl d).vault (by decide) _

theorem raiseCeiling_keeps (f : Fuses) (d : Dev) (p : Nat) : Keeps beaconParts anyReg d (raiseCeiling f d p) := by
  unfold raiseCeiling
  dsimp only
  split
  · exact Keeps.refl d
  · exact ((Keeps.refl d).vault (by decide) _).trans (sealVault_keeps f _)

theorem oweAlarm_keeps (d : Dev) : Keeps beaconParts anyReg d (oweAlarm d) := by
  unfold oweAlarm
  split
  · exact ((Keeps.refl d).vault (by decide) _).noted (noted_raise _ _ _ _) (by decide) fun _ _ => rfl
  · exact Keeps.refl d

end Sys2Proof.Machine
end

section
/-! PROOF. Second Steep and Full Brew are reached; validation and the steeps as one statement (02_blend.md R46 to R50, 14_start_and_self_update.md
R397 to R403). -/

namespace Sys2Proof.Machine

/-! ### The start stage -/

theorem stageReached_stage (d : Dev) (n time : Nat) : (stageReached d n time).stage = n := by
  rw [stageReached, Dev.setReg_stage, Dev.setFld_stage]

theorem stageReached_bld (d : Dev) (n time : Nat) : (stageReached d n time).bld = d.bld := by
  rw [stageReached, Dev.setReg_bld, Dev.setFld_bld]

theorem stageReached_dsp (d : Dev) (n time : Nat) : (stageReached d n time).dsp = d.dsp := by
  rw [stageReached, Dev.setReg_dsp, Dev.setFld_dsp]

theorem stageReached_boot (d : Dev) (n time : Nat) : (stageReached d n time).boot = d.boot := by
  rw [stageReached, Dev.setReg_boot, Dev.setFld_boot]

/-! ### Second Steep -/

/-- The accepted Blend is taken, its deltas applied again. -/
def blendTaken (d : Dev) (bs : List Byte) : Dev := reapplyDeltas (takeFull (discardDeltas d) bs)

theorem blendTaken_accepted (d : Dev) (bs : List Byte) : (blendTaken d bs).bld.accepted = none :=
  List.foldlRecOn _ _ (motive := fun x : Dev => x.bld.accepted = none) rfl fun _ h _ _ => h

/-- The sections taken take effect: tables restored, keys derived, the ports of the Blend enabled. -/
def steepUnits (f : Fuses) (d : Dev) : Dev :=
  let d2 := deriveAll f (restoreTables (liveApply (partition f (baseRoles d))))
  ((List.range 64).filter fun p => topUsed d2.topo p).foldl portEnable d2

theorem steepUnits_bld (f : Fuses) (d : Dev) : (steepUnits f d).bld = d.bld := by
  have hlive := ((baseRoles_keeps d).trans (partition_keeps f _)).trans (liveApply_keeps _)
  have hports := fun x => (deriveAll_keeps f x).foldl portEnable_keeps ((List.range 64).filter fun p => topUsed (deriveAll f x).topo p)
  exact ((hports _).bld_eq (by decide)).trans (((restoreTables_keeps _).bld_eq (by decide)).trans (hlive.bld_eq (by decide)))

/-- The stage is reached and requests are accepted; beacons, summary and ceilings follow. -/
def steepService (f : Fuses) (d : Dev) : Dev :=
  let d4 := oweAlarm (stageReached (acceptAll d) 2 BOOT_T_SECOND)
  let pans := (List.range 8).filter d4.panUsed
  pans.foldl (raiseCeiling f) (buildSummary (pans.foldl buildBeacon d4))

theorem steepService_keeps (f : Fuses) (d : Dev) :
    Keeps beaconParts anyReg (stageReached (acceptAll d) 2 BOOT_T_SECOND) (steepService f d) :=
  (((oweAlarm_keeps _).foldl buildBeacon_keeps _).trans (buildSummary_keeps _)).foldl (raiseCeiling_keeps f) _

theorem steepService_status (f : Fuses) (d : Dev) :
    (steepService f d).stage = 2 ∧ (steepService f d).dsp.accepting = true ∧ (steepService f d).bld = d.bld := by
  have hk := steepService_keeps f d
  rw [hk.stage_eq (by decide), hk.dsp_eq (by decide), hk.bld_eq (by decide), stageReached_stage, stageReached_dsp, stageReached_bld]
  exact ⟨rfl, rfl, rfl⟩

theorem secondSteep_eq {f : Fuses} {d : Dev} {bs : List Byte} (hacc : d.bld.accepted = some bs) (hstage : d.stage = 1)
    (hhold : d.vault.hold = false) (hhalt : d.fld BOOT_STATUS_halt = 0) :
    secondSteep f d = steepService f (steepUnits f (blendTaken d bs)) := by
  have hgo : ¬ (d.stage ≠ 1 ∨ d.vault.hold = true ∨ d.fld BOOT_STATUS_halt ≠ 0) := by simp [hstage, hhold, hhalt]
  simp only [secondSteep, hacc, if_neg hgo, steepService, steepUnits, blendTaken]

theorem secondSteepReached_stage {bs : List Byte} {s : State} (hup : s.dev.inReset = false) (hacc : s.dev.bld.accepted = some bs)
    (hstage : s.dev.stage = 1) (hhold : s.dev.vault.hold = false) (hhalt : s.dev.fld BOOT_STATUS_halt = 0) :
    ∃ t, exec .secondSteepReached s = .next t ∧ t.fuses = s.fuses ∧ t.pending = s.pending ∧ t.dev.stage = 2 ∧
      t.dev.dsp.accepting = true ∧ t.dev.bld.accepted = none := by
  obtain ⟨hreached, haccepting, hbld⟩ := steepService_status s.fuses (steepUnits s.fuses (blendTaken s.dev bs))
  rw [← secondSteep_eq hacc hstage hhold hhalt] at hreached haccepting hbld
  exact ⟨_, s.onDevF_up secondSteep hup, rfl, rfl, hreached, haccepting, by rw [hbld, steepUnits_bld, blendTaken_accepted]⟩

/-! ### Full Brew -/

theorem flashScan_keeps (d : Dev) (bad : List Nat) : Keeps unitParts anyReg d (flashScan d bad) := by
  unfold flashScan
  refine (Keeps.refl d).foldl (fun x k => ?_) _
  have hraised : Keeps unitParts anyReg x (raise x 19 k 0) := (Keeps.refl x).unitNoted (noted_raise _ _ _ _)
  exact (Keeps.refl x).ite ((hraised.setBit rfl _).ite ((hraised.setBit rfl _).ite hraised))

/-- The campaigns restored after the time of Full Brew is noted. -/
theorem campRestoreAll_noted (e : Dev) (ns : Nat) (r : Res) :
    (campRestoreAll { e with boot := { e.boot with brewAt := ns }, res := r }).stage = e.stage ∧
      (campRestoreAll { e with boot := { e.boot with brewAt := ns }, res := r }).boot.scanned = e.boot.scanned := by
  rw [(campRestoreAll_keeps _).stage_eq (by decide), (campRestoreAll_keeps _).boot_eq (by decide)]
  exact ⟨rfl, rfl⟩

theorem fullBrew_status (d : Dev) : (fullBrew d).stage = 3 ∧ (fullBrew d).boot.scanned = d.boot.scanned := by
  obtain ⟨hstage, hscanned⟩ := campRestoreAll_noted (stageReached d 3 BOOT_T_FULL) (stageReached d 3 BOOT_T_FULL).ns
    { (stageReached d 3 BOOT_T_FULL).res with
      gate := { (stageReached d 3 BOOT_T_FULL).res.gate with swapFrom := (stageReached d 3 BOOT_T_FULL).ns } }
  have hboot : (stageReached d 3 BOOT_T_FULL).boot.scanned = d.boot.scanned := by rw [stageReached_boot]
  exact ⟨hstage.trans (stageReached_stage d 3 BOOT_T_FULL), hscanned.trans hboot⟩

theorem flashScanDone_status {d : Dev} (hstage : d.stage = 2) (hscan : d.boot.scanned = false) (bad : List Nat) :
    (flashScanDone d bad).boot.scanned = true ∧ (flashScanDone d bad).stage = if d.boot.brewReady then 3 else 2 := by
  have hk := flashScan_keeps { d with boot := { d.boot with scanned := true } } bad
  have hboot := hk.boot_eq (by decide)
  have hst := (hk.stage_eq (by decide)).trans hstage
  have hgo : ¬ (d.stage ≠ 2 ∨ d.boot.scanned = true) := by simp [hstage, hscan]
  unfold flashScanDone
  rw [if_neg hgo]
  generalize flashScan { d with boot := { d.boot with scanned := true } } bad = e at hboot hst ⊢
  have hscanned : e.boot.scanned = true := by rw [hboot]
  have hready : e.boot.brewReady = d.boot.brewReady := by rw [hboot]
  dsimp only
  rw [hready]
  cases d.boot.brewReady with
  | false => exact ⟨hscanned, hst⟩
  | true =>
    obtain ⟨hbrew, hkept⟩ := fullBrew_status e
    exact ⟨hkept.trans hscanned, hbrew⟩

theorem flashScanDone_stage {bad : List Nat} {s : State} (hup : s.dev.inReset = false) (hstage : s.dev.stage = 2)
    (hscan : s.dev.boot.scanned = false) :
    ∃ t, exec (.flashScanDone bad) s = .next t ∧ t.fuses = s.fuses ∧ t.pending = s.pending ∧ t.dev.boot.scanned = true ∧
      t.dev.stage = if s.dev.boot.brewReady then 3 else 2 := by
  obtain ⟨hscanned, hst⟩ := flashScanDone_status hstage hscan bad
  exact ⟨_, s.onDev_up (fun d => flashScanDone d bad) hup, rfl, rfl, hscanned, hst⟩

/-- Settles O18: each of its commands by the lemma of its own function. -/
theorem blendValidationAndSteep : Obligations.BlendValidationAndSteep := by
  unfold Obligations.BlendValidationAndSteep
  exact ⟨fun _ _ hup hst hl hsrc hcmd hstage _ => blendValidationDone_completes hup hst hl hsrc hcmd hstage,
    fun _ _ _ => deltaPanSwitch_applies, fun _ _ => secondSteepReached_stage, fun _ _ => flashScanDone_stage,
    fun _ => restoreRecordDone_completes⟩

end Sys2Proof.Machine
end

section
/-! PROOF. Submissions and decrements (03_caddies_and_dispatch.md R64 to R67). -/

namespace Sys2Proof.Machine

theorem Dev.task_setTask (d : Dev) (i k : Nat) (t : Task) : (d.setTask i t).task k = if k = i then some t else d.task k := Tab.find_put _ _ _ _

/-! ### An accepted descriptor -/

/-- The task of a descriptor entered at `now`, as it waits for its predecessors (R66). -/
abbrev Desc.waiting (x : Desc) (now : Nat) : Task := ⟨x, x.dep, .waiting, none, false, now, 0, 0, false, false, 0⟩

theorem submit_accepted {d : Dev} {x : Desc} {lo hi src : Nat} (hok : submitCheck d x lo hi src = sbOK) (hdep : x.dep ≠ 0) :
    submit d x lo hi src = (sbOK, d.setTask x.id (x.waiting d.ns)) := by
  simp only [submit, enterTask, hok, if_true, if_neg hdep]

/-- A device whose task table is that of `d` with one more task waiting. -/
theorem task_of_submitted {d e : Dev} {x : Desc} {now : Nat} (h : e.dsp.tasks = (d.setTask x.id (x.waiting now)).dsp.tasks) :
    e.task x.id = some (x.waiting now) ∧ ∀ k, k ≠ x.id → e.task k = d.task k := by
  have htask : ∀ k, e.task k = if k = x.id then some (x.waiting now) else d.task k := fun k => by
    rw [← Dev.task_setTask]
    exact congrArg (Tab.find · k) h
  exact ⟨(htask _).trans (if_pos rfl), fun k hk => (htask k).trans (if_neg hk)⟩

theorem hsubSubmit_completes {desc : List Byte} {s : State} (hup : s.dev.inReset = false)
    (hok : submitCheck s.dev (descOf (fit 32 desc)) 0xE000 0xFFFE 3 = sbOK) (hdep : (descOf (fit 32 desc)).dep ≠ 0) :
    Completes (.hsubSubmit desc) s [.dsp] (fun a => a == DSP_HSUB_STATUS) fun t =>
      t.dev.fld DSP_HSUB_STATUS_result = sbOK ∧
      t.dev.task (descOf (fit 32 desc)).id = some ((descOf (fit 32 desc)).waiting s.dev.ns) ∧
      ∀ i, i ≠ (descOf (fit 32 desc)).id → t.dev.task i = s.dev.task i := by
  generalize hx : descOf (fit 32 desc) = x at hok hdep ⊢
  have hsub : hsubSubmit s.dev desc = (s.dev.setTask x.id (x.waiting s.dev.ns)).setFld DSP_HSUB_STATUS_result sbOK := by
    simp only [hsubSubmit, hx, submit_accepted hok hdep]
  exact completes_of_onDev (g := fun d => hsubSubmit d desc) rfl hup hsub (((Keeps.refl _).setTask (by decide) _ _).setFld rfl _)
    ⟨Dev.fld_setFld_same _ _ _ (by decide), task_of_submitted rfl⟩

theorem csubSubmit_completes {desc : List Byte} {s : State} (hup : s.dev.inReset = false)
    (hok : submitCheck s.dev (descOf (fit 32 desc)) 0xA000 0xDFFF 2 = sbOK) (hdep : (descOf (fit 32 desc)).dep ≠ 0)
    (hrecov : s.dev.fwd.recovQ = []) :
    Completes (.csubSubmit desc) s [.dsp] (fun a => a == DSP_CSUB_STATUS) fun t =>
      t.dev.fld DSP_CSUB_STATUS_result = sbOK ∧
      t.dev.task (descOf (fit 32 desc)).id = some ((descOf (fit 32 desc)).waiting s.dev.ns) ∧
      ∀ i, i ≠ (descOf (fit 32 desc)).id → t.dev.task i = s.dev.task i := by
  generalize hx : descOf (fit 32 desc) = x at hok hdep ⊢
  have hnone : takeRecov (s.dev.setTask x.id (x.waiting s.dev.ns)) x = s.dev.setTask x.id (x.waiting s.dev.ns) := by
    have hq : (s.dev.setTask x.id (x.waiting s.dev.ns)).fwd.recovQ = [] := hrecov
    simp only [takeRecov, hq, List.find?_nil]
  have hsub : csubSubmit s.dev desc = (s.dev.setTask x.id (x.waiting s.dev.ns)).setFld DSP_CSUB_STATUS_result sbOK := by
    simp only [csubSubmit, hx, submit_accepted hok hdep, if_true, hnone]
  exact completes_of_onDev (g := fun d => csubSubmit d desc) rfl hup hsub (((Keeps.refl _).setTask (by decide) _ _).setFld rfl _)
    ⟨Dev.fld_setFld_same _ _ _ (by decide), task_of_submitted rfl⟩

theorem slotSubmit_completes {e n i : Nat} {p : Task} {desc : List Byte} {s : State} (hup : s.dev.inReset = false)
    (htasks : (s.dev.engine e).tasks = [i]) (hi : s.dev.task i = some p) (hn : (s.dev.caddy (e / 16)).logical = some n)
    (hok : submitCheck s.dev (descOf (fit 32 desc)) (0x8000 + 256 * n) (0x80FF + 256 * n) p.d.source = sbOK)
    (hdep : (descOf (fit 32 desc)).dep ≠ 0) :
    Completes (.slotSubmit e desc) s [.dsp] (fun _ => false) fun t =>
      (t.dev.engine e).subStatus = sbOK ∧ (t.dev.engine e).tasks = [i] ∧
      t.dev.task (descOf (fit 32 desc)).id = some ((descOf (fit 32 desc)).waiting s.dev.ns) ∧
      ∀ k, k ≠ (descOf (fit 32 desc)).id → t.dev.task k = s.dev.task k := by
  generalize hx : descOf (fit 32 desc) = x at hok hdep ⊢
  have hserved : ((s.dev.engine e).tasks.head?).bind s.dev.task = some p := by simp [htasks, hi]
  have hsub : slotSubmit s.dev e desc =
      (s.dev.setTask x.id (x.waiting s.dev.ns)).setEngine e { s.dev.engine e with subStatus := sbOK } := by
    simp only [slotSubmit, hserved, hn, hx, submit_accepted hok hdep]
    rfl
  have hengine := Dev.engine_setEngine_same (s.dev.setTask x.id (x.waiting s.dev.ns)) e { s.dev.engine e with subStatus := sbOK }
  exact completes_of_onDev (g := fun d => slotSubmit d e desc) rfl hup hsub
    (((Keeps.refl _).setTask (by decide) _ _).setEngine (by decide) _ _)
    ⟨congrArg Engine.subStatus hengine, (congrArg Engine.tasks hengine).trans htasks, task_of_submitted rfl⟩

/-- Settles O21: the three ports differ in where the result is read, the task entered is the same. -/
theorem taskSubmission : Obligations.TaskSubmission := by
  unfold Obligations.TaskSubmission
  exact ⟨fun _ _ => hsubSubmit_completes, fun _ _ => csubSubmit_completes, fun _ _ _ _ _ _ => slotSubmit_completes⟩

/-! ### A decrement outside its range -/

theorem decrement_unknown {d : Dev} {i : Nat} (hi : i ≠ noTask) (hnone : d.task i = none) (a : Bool) :
    decrement d a i = d.inc DSP_ERR_dep_unknown := by
  simp only [decrement, if_neg hi, hnone]

theorem decrement_underflow {d : Dev} {i : Nat} {p : Task} (hi : i ≠ noTask) (hp : d.task i = some p) (hdep : p.dep = 0) (a : Bool) :
    decrement d a i = d.inc DSP_ERR_dep_underflow := by
  simp only [decrement, if_neg hi, hp, hdep, if_true]

/-- Settles O23: such a decrement is one count in DSP_ERR. -/
theorem decrementOutsideRange : Obligations.DecrementOutsideRange := by
  unfold Obligations.DecrementOutsideRange
  refine ⟨fun d a i hi hnone => ?_, fun d a i p hi hp hdep => ?_⟩
  · rw [decrement_unknown hi hnone]
    exact ⟨Dev.fld_inc_same _ _ (by decide), rfl, fun b hb => Dev.reg_inc_other _ _ b hb, Dev.fld_inc_other _ _ _ (by decide)⟩
  · rw [decrement_underflow hi hp hdep]
    exact ⟨Dev.fld_inc_same _ _ (by decide), rfl, fun b hb => Dev.reg_inc_other _ _ b hb, Dev.fld_inc_other _ _ _ (by decide)⟩

end Sys2Proof.Machine
end

section
/-! PROOF. Word queues: where an engine's pop captures the upper half, and pushes to a disabled queue (03_caddies_and_dispatch.md R69, R81 to
R88). -/

namespace Sys2Proof.Machine

/-- The state a command of the core answers while POR_N is high. -/
theorem State.onDev_next {c : Instr} {s t : State} {g : Dev → Dev} (hc : exec c s = s.onDev g) (hup : s.dev.inReset = false)
    (ht : exec c s = .next t) : t = { s with dev := g s.dev } := by
  cases (s.onDev_up g hup).symm.trans (hc.symm.trans ht)
  rfl

/-! ### An engine's pop -/

theorem wqPop_shadows (d : Dev) (q ep : Nat) : (wqPop d q ep).2.shadows = d.shadows := by
  unfold wqPop
  split
  · rfl
  · split
    · rfl
    · cases wqWords d q <;> rfl

theorem wqPopLo_find_shadow (d : Dev) (m : Sys2Proof.Master) (q k : Nat) :
    Tab.find (wqPopLo d m q).2.shadows k =
      if k = pairKey m (popHiAddr m q) then some (wqPop d q (endpointOf d m)).1.hi else Tab.find d.shadows k := by
  have hcapture : (wqPopLo d m q).2 = (wqPop d q (endpointOf d m)).2.capture m (popHiAddr m q) (wqPop d q (endpointOf d m)).1.hi := rfl
  rw [hcapture, Dev.find_capture, wqPop_shadows]

/-- The upper half that an engine's pop captures is for its slot register (R88), which lies below the queues' registers. -/
theorem wqPop_engine_shadow {e q : Nat} {s t : State} (hup : s.dev.inReset = false) (ht : exec (.wqPop (.engine e) q) s = .next t) :
    Tab.find t.dev.shadows (pairKey (.engine e) (DSP_WQ_POPn_HI q)) = Tab.find s.dev.shadows (pairKey (.engine e) (DSP_WQ_POPn_HI q)) := by
  have hapart : pairKey (.engine e) (DSP_WQ_POPn_HI q) ≠ pairKey (.engine e) (popHiAddr (.engine e) q) := by
    simp only [pairKey, popHiAddr, DSP_WQ_POPn_HI]
    omega
  rw [State.onDev_next (g := fun d => (wqPopLo d (.engine e) q).2.answer (.engine e) (wqPopLo d (.engine e) q).1.toNat) rfl hup ht,
    Dev.answer_shadows, wqPopLo_find_shadow, if_neg hapart]

/-- The machine after reset, but for Caddy 0 in its logical place and queue 3 enabled with words stored: its consumer is then Caddy 0. -/
def caddyQueue (ws : List Word64) : State :=
  { State.reset with dev := setWords ((Dev.blank.setCaddy 0 { Caddy.init with logical := some 0 }).setBit (DSP_WQ_CFGn_enable 3) true) 3 ws }

/-- Refutes O19, for its clause about a pop: an engine is a consumer too, and its pop captures the upper half for the slot register
DSP_SLOT_WQ_POP_HI (R85, R88), not for DSP_WQ_POPn_HI as the clause asks of every master. -/
theorem not_wordQueueStoresInOrder : ¬ Obligations.WordQueueStoresInOrder := by
  unfold Obligations.WordQueueStoresInOrder
  rintro ⟨-, -, hpop, -⟩
  obtain ⟨t, ht, -, -, -, hshadow, -⟩ := hpop (.engine 8) 3 5 [] (caddyQueue [5]) rfl (by decide +kernel) (by decide +kernel) (by decide +kernel)
  cases (wqPop_engine_shadow rfl ht).symm.trans hshadow

/-- Refutes O20, for its clause about a pop from an empty queue: an engine's pop captures the idle word's upper half for its slot register
(R85, R88), not for DSP_WQ_POPn_HI. -/
theorem not_idleWord : ¬ Obligations.IdleWord := by
  unfold Obligations.IdleWord
  rintro ⟨-, hpop, -⟩
  obtain ⟨t, ht, -, -, hshadow⟩ := hpop (.engine 8) 3 (caddyQueue []) rfl (by decide +kernel) (by decide +kernel) (by decide +kernel)
  cases (wqPop_engine_shadow rfl ht).symm.trans hshadow

/-! ### A held completion word for a disabled queue -/

theorem wqPush_disabled {d : Dev} {q : Nat} (hoff : d.fld (DSP_WQ_CFGn_enable q) = 0) (ep : Nat) (w : Word64) :
    wqPush d q ep w = (d.inc (DSP_WQ_ERRn_foreign q), false) := by
  simp only [wqPush, Dev.bit_eq, hoff, bne_self_eq_false, Bool.not_false, Bool.true_or, if_true]

/-- A word held for a queue that is disabled is stored nowhere: its push counts as foreign (R81, R82). -/
theorem heldPush_disabled_words {d : Dev} {q : Nat} (hoff : d.fld (DSP_WQ_CFGn_enable q) = 0) :
    wqWords (heldPush d q) q = wqWords d q := by
  unfold heldPush
  cases takeHeldWord q d.dsp.held with
  | none => rfl
  | some x =>
    dsimp only
    split
    · rw [wqPush_disabled (by exact hoff)]
      rfl
    · rfl

/-- The machine after reset, every queue disabled, but for a completion word held for queue 3, which was disabled while it waited. -/
def heldForDisabled : State := { State.reset with dev := { Dev.blank with dsp := { Dev.blank.dsp with held := [⟨3, 9, 0⟩] } } }

/-- Refutes O24, for its clause about COMPLETION_WORD_PUSH: the clause does not ask that the queue is enabled with the dispatcher as its
producer, and a queue may be disabled while a word is held for it; the word is then dropped and counted as foreign. -/
theorem not_caddiesAndLists : ¬ Obligations.CaddiesAndLists := by
  unfold Obligations.CaddiesAndLists
  rintro ⟨-, -, -, -, hpush, -⟩
  obtain ⟨t, ht, -, -, hwords⟩ := hpush 3 ⟨3, 9, 0⟩ [] heldForDisabled rfl rfl rfl (by decide)
  rw [State.onDev_next (g := fun d => heldPush d 3) rfl rfl ht, heldPush_disabled_words (by decide +kernel)] at hwords
  cases hwords

end Sys2Proof.Machine
end

section
/-! PROOF. The end of a task lets a waiting detection open its context (03_caddies_and_dispatch.md R66, 06_receive.md R160). -/

namespace Sys2Proof.Machine

/-- A task of kind 4 of host software, in service on engine 8, with no flow, successor or notification. -/
def serviceTask : Task := ⟨⟨0xE000, noTask, noTask, 0, 9, false, 4, 3, noFlow, 0, 0, 0, 0⟩, 0, .service 8, none, false, 0, 0, 0, false, false, 0⟩

/-- The machine after reset, but for that task, Caddy 0 RUNNING with every role, and a detection that waits for its context. -/
def detectionWaits : State :=
  let d := ((Dev.blank.setTask 0xE000 serviceTask).setEngine 8 { Engine.init with tasks := [0xE000] }).setCaddy 0
    { Caddy.init with state := cdRUNNING, logical := some 0, roles := 15 }
  { State.reset with dev := { d with rx := { d.rx with late := [⟨2, 3, 1, 2, .preamble, 9, 9, 0, false, none, 5, none, 5, false, false, 0, [], 0⟩] } } }

/-- The detection takes identifier 0, the lowest of the receive chain's range, as the task ends. -/
theorem taskComplete_opens_detection :
    ((taskComplete 0xE000 (some 0) detectionWaits.fuses detectionWaits.dev).task 0).isSome = true := by decide +kernel

/-- Refutes O22, for its clause about TASK_COMPLETE (its clauses about the other ends of tasks fail alike): each end of a task lets the
detections that wait open their contexts (R160), whose tasks enter the task table, and the clause asks that no other task changes in states
where detections wait too. -/
theorem not_taskService : ¬ Obligations.TaskService := by
  unfold Obligations.TaskService
  rintro ⟨-, hcomplete, -⟩
  obtain ⟨t, ht, -, hother⟩ := hcomplete 0xE000 8 0 serviceTask detectionWaits rfl (by decide +kernel) rfl (by decide)
  cases (detectionWaits.onDevF_up _ rfl).symm.trans ht
  exact absurd (taskComplete_opens_detection.symm.trans (congrArg Option.isSome (hother 0 (by decide)))) (by decide +kernel)

end Sys2Proof.Machine
end

section
/-! SUPPORT. What an update of a port or a head gives and leaves, a request sent, and an answer taken (04_yarlink.md R106, R110). -/

namespace Sys2Proof.Machine

/-! ### A port and a head after an update -/

theorem Tab.del_ins {α : Type} (t : Tab α) (k : Nat) (v : α) : Tab.del (Tab.ins t k v) k = Tab.del t k := by
  induction t with
  | nil => simp [Tab.ins, Tab.del]
  | cons e t ih =>
    obtain ⟨i, w⟩ := e
    simp only [Tab.del] at ih
    simp only [Tab.ins]
    split
    · simp [Tab.del]
    · simp [Tab.del, List.filter_cons, ih]

/-- Of two values set under one key the second stands. -/
theorem Tab.put_put {α : Type} (t : Tab α) (k : Nat) (v w : α) : Tab.put (Tab.put t k v) k w = Tab.put t k w := by
  rw [Tab.put, Tab.put, Tab.del_ins, Tab.put, Tab.del, Tab.del, List.filter_filter]
  simp only [Bool.and_self]

@[simp] theorem Dev.setPort_setPort (d : Dev) (p : Nat) (x y : Port) : (d.setPort p x).setPort p y = d.setPort p y := by
  simp [Dev.setPort, Tab.put_put]

@[simp] theorem Dev.setHead_setHead (d : Dev) (p : Nat) (h i : Head) : (d.setHead p h).setHead p i = d.setHead p i := by
  simp [Dev.setHead, Tab.put_put]

theorem Dev.port_setPort (d : Dev) (p q : Nat) (x : Port) : (d.setPort p x).port q = if q = p then x else d.port q := Tab.getD_put _ _ _ _ _

@[simp] theorem Dev.port_setPort_same (d : Dev) (p : Nat) (x : Port) : (d.setPort p x).port p = x := by simp [Dev.port_setPort]

theorem Dev.port_setPort_other (d : Dev) {p q : Nat} (h : q ≠ p) (x : Port) : (d.setPort p x).port q = d.port q := by
  simp [Dev.port_setPort, h]

@[simp] theorem Dev.head_setHead_same (d : Dev) (p : Nat) (h : Head) : (d.setHead p h).head p = h := by
  simp [Dev.head, Dev.setHead]

@[simp] theorem Dev.port_setFld (d : Dev) (f : Fld) (v p : Nat) : (d.setFld f v).port p = d.port p := rfl
@[simp] theorem Dev.port_inc (d : Dev) (f : Fld) (p : Nat) : (d.inc f).port p = d.port p := rfl
@[simp] theorem Dev.port_setHead (d : Dev) (p q : Nat) (h : Head) : (d.setHead p h).port q = d.port q := rfl
@[simp] theorem Dev.port_emit (d : Dev) (o : Output) (p : Nat) : (d.emit o).port p = d.port p := rfl
@[simp] theorem Dev.head_setPort (d : Dev) (p q : Nat) (x : Port) : (d.setPort p x).head q = d.head q := rfl
@[simp] theorem Dev.fld_setPort (d : Dev) (p : Nat) (x : Port) (f : Fld) : (d.setPort p x).fld f = d.fld f := rfl
@[simp] theorem Dev.portState_setPort (d : Dev) (p q : Nat) (x : Port) : (d.setPort p x).portState q = d.portState q := rfl
@[simp] theorem Dev.portState_setHead (d : Dev) (p q : Nat) (h : Head) : (d.setHead p h).portState q = d.portState q := rfl
@[simp] theorem portLive_setPort (d : Dev) (p q : Nat) (x : Port) : portLive (d.setPort p x) q = portLive d q := rfl

section
variable {ps : List Part} {rs : Nat → Bool} {d e : Dev}

theorem Keeps.setHead (h : Keeps ps rs d e) (hp : Part.hc ∈ ps) (p : Nat) (x : Head) : Keeps ps rs d (e.setHead p x) :=
  h.trans ⟨fun q hn => by cases q with | hc => exact absurd hp hn | _ => rfl, fun _ _ => rfl⟩

theorem Keeps.emit (h : Keeps ps rs d e) (hp : Part.outs ∈ ps) (o : Output) : Keeps ps rs d (e.emit o) :=
  h.trans ⟨fun q hn => by cases q with | outs => exact absurd hp hn | _ => rfl, fun _ _ => rfl⟩

theorem Keeps.setState (h : Keeps ps rs d e) (hp : Part.ports ∈ ps) (p st : Nat) (hr : rs (YL_STATUS p) = true) :
    Keeps ps rs d (setState e p st) := (h.setPort hp _ _).setFld hr _

theorem Keeps.clearHold (h : Keeps ps rs d e) (hp : Part.hc ∈ ps) (p c : Nat) : Keeps ps rs d (clearHold e p c) := h.setHead hp _ _

theorem Keeps.ctrlNow (h : Keeps ps rs d e) (hp : Part.ports ∈ ps) (ho : Part.outs ∈ ps) (p : Nat) (r : CtrlReq) :
    Keeps ps rs d (ctrlNow e p r) := (h.setPort hp _ _).emit ho _

theorem Keeps.ctrlSend (h : Keeps ps rs d e) (hp : Part.ports ∈ ps) (ho : Part.outs ∈ ps) (p id : Nat) (payload : List Byte)
    (at? : Option Nat) : Keeps ps rs d (ctrlSend e p id payload at?) := by
  unfold Machine.ctrlSend
  exact (h.ctrlNow hp ho _ _).ite (h.setPort hp _ _)

end

/-- The state of a port after it is set; other ports stay. -/
@[simp] theorem portState_setState (d : Dev) (p st : Nat) (h : st < 16) : (setState d p st).portState p = st :=
  (Dev.fld_setFld_same _ _ _ (show 3 < 32 by decide)).trans (Nat.mod_eq_of_lt h)

@[simp] theorem port_setState (d : Dev) (p st : Nat) :
    (setState d p st).port p = { d.port p with shown := shownState d p, stateAt := d.ts100 } := Dev.port_setPort_same _ _ _

theorem port_setState_other (d : Dev) {p q : Nat} (h : q ≠ p) (st : Nat) : (setState d p st).port q = d.port q :=
  Dev.port_setPort_other d h _

@[simp] theorem port_setCause (d : Dev) (p c q : Nat) : (setCause d p c).port q = d.port q := rfl

/-- The cause of a port stands beside its state. -/
@[simp] theorem portState_setCause (d : Dev) (p c : Nat) : (setCause d p c).portState p = d.portState p :=
  Dev.fld_setFld_other _ _ _ _ (.inr (.inl (show 3 < 16 by decide)))

theorem cause_setCause (d : Dev) (p : Nat) {c : Nat} (h : c < 256) : (setCause d p c).fld (YL_STATUS_cause p) = c :=
  (Dev.fld_setFld_same _ _ _ (show 23 < 32 by decide)).trans (Nat.mod_eq_of_lt h)

theorem portState_inc_other (d : Dev) {f : Fld} {p : Nat} (h : YL_STATUS p ≠ f.reg) : (d.inc f).portState p = d.portState p :=
  Dev.fld_inc_other _ _ _ (.inl h)

/-! ### Requests sent -/

theorem freeTag_unused {used : List Nat} {t : Nat} (h : used.contains t = false) (n : Nat) : freeTag used (n + 1) t = t := by
  simp only [freeTag, h, Bool.false_eq_true, if_false]

theorem ctrlSend_room {d : Dev} {p : Nat} (h : (d.port p).reqs.length < 16) (id : Nat) (payload : List Byte) (at? : Option Nat) :
    ctrlSend d p id payload at? = ctrlNow d p ⟨0, id, payload, false, at?⟩ := if_pos h

/-- With none outstanding a request takes the port's next tag. -/
theorem ctrlSend_first {d : Dev} {p : Nat} (h : (d.port p).reqs = []) (id : Nat) (payload : List Byte) (at? : Option Nat) :
    ctrlSend d p id payload at? =
      (d.setPort p { d.port p with reqs := [⟨(d.port p).nextTag, id, payload, false, at?⟩], nextTag := (d.port p).nextTag % 255 + 1 }).emit
        (.control p id (d.port p).nextTag payload) := by
  rw [ctrlSend_room (by rw [h]; decide), ctrlNow, h]
  rfl

/-- What a port has asked for: id and payload of its outstanding requests, oldest first. -/
def asked (d : Dev) (p : Nat) : List (Nat × List Byte) := (d.port p).reqs.map fun r => (r.id, r.payload)

theorem asked_length (d : Dev) (p : Nat) : (asked d p).length = (d.port p).reqs.length := List.length_map _

theorem asked_ctrlSend {d : Dev} {p : Nat} (h : (asked d p).length < 16) (id : Nat) (payload : List Byte) (at? : Option Nat) :
    asked (ctrlSend d p id payload at?) p = asked d p ++ [(id, payload)] := by
  rw [asked_length] at h
  rw [ctrlSend_room h]
  simp [asked, ctrlNow]

theorem portState_ctrlSend (d : Dev) (p id : Nat) (payload : List Byte) (at? : Option Nat) (q : Nat) :
    (ctrlSend d p id payload at?).portState q = d.portState q := by
  dsimp only [ctrlSend]
  split <;> rfl

/-- Requests sent in turn while they find room. -/
theorem asked_foldl_ctrlSend {α : Type} (p id : Nat) (g : α → List Byte) (l : List α) {d : Dev} (h : (asked d p).length + l.length ≤ 16) :
    asked (l.foldl (fun a o => ctrlSend a p id (g o) none) d) p = asked d p ++ l.map fun o => (id, g o) := by
  induction l generalizing d with
  | nil => simp
  | cons o l ih =>
    rw [List.length_cons] at h
    have hsent := asked_ctrlSend (d := d) (p := p) (by omega) id (g o) none
    rw [List.foldl_cons, ih (by rw [hsent, List.length_append, List.length_singleton]; omega), hsent]
    simp

theorem portState_foldl_ctrlSend {α : Type} (p id : Nat) (g : α → List Byte) (l : List α) (d : Dev) (q : Nat) :
    (l.foldl (fun a o => ctrlSend a p id (g o) none) d).portState q = d.portState q := by
  induction l generalizing d with
  | nil => rfl
  | cons o l ih => rw [List.foldl_cons, ih, portState_ctrlSend]

/-! ### Answers taken -/

theorem reqOf_tag {d : Dev} {p tag : Nat} {r : CtrlReq} (h : reqOf d p tag = some r) : r.tag = tag := by
  have hp := List.find?_some h
  simpa using hp

/-- The port when a request of it is answered and none waits for the place. -/
def Port.answered (x : Port) (r : CtrlReq) : Port :=
  { x with reqs := x.reqs.filter fun q => q.tag != r.tag, fails := 0, telFails := if r.id = cmTELEM_POLL then 0 else x.telFails }

theorem answered_unqueued {d : Dev} {p : Nat} (h : (d.port p).queued = []) (r : CtrlReq) :
    answered d p r = d.setPort p ((d.port p).answered r) := by
  simp only [answered, reqDone, h, Dev.port_setPort_same, Dev.setPort_setPort, Port.answered]

end Sys2Proof.Machine
end

section
/-! PROOF. STAMPs, blocks and hyperframes of a port (04_yarlink.md R94, R100, R102, R115, R117, R118). -/

namespace Sys2Proof.Machine

/-! ### STAMPs in ALIGN (R115) -/

/-- The port at a STAMP in its block: it is not absent, and its cal_valid is kept. -/
def Port.stamped (x : Port) (stamp : List Byte) : Port := { x with absent := 0, calValid := (upStampOf stamp).calValid }

theorem stampReceived_align_first {d : Dev} {p : Nat} (hst : d.portState p = ylALIGN) (hmode : d.fld (YL_TEST_mode p) ≠ 1)
    (hlock : (d.port p).locked = true) (hnone : (d.port p).stamps = 0) (since samples : Nat) (stamp : List Byte) :
    stampReceived d p since samples stamp = d.setPort p { (d.port p).stamped stamp with stamps := 1 } := by
  simp [stampReceived, hst, hmode, hlock, hnone, Port.stamped]

theorem stampReceived_align_second {d : Dev} {p : Nat} (hst : d.portState p = ylALIGN) (hmode : d.fld (YL_TEST_mode p) ≠ 1)
    (hlock : (d.port p).locked = true) (hone : (d.port p).stamps = 1) (samples : Nat) (stamp : List Byte) :
    stampReceived d p 4096 samples stamp = toDescribe (d.setPort p ((d.port p).stamped stamp)) p := by
  simp [stampReceived, hst, hmode, hlock, hone, Port.stamped]

/-- The port in DESCRIBE, before anything is asked of the head. -/
def describing (d : Dev) (p : Nat) : Dev :=
  (setState d p ylDESCRIBE).setPort p { (setState d p ylDESCRIBE).port p with descParts := [], absent := 0, mismatched := 0 }

theorem toDescribe_role3 {d : Dev} {p : Nat} (h : topRole d.topo p = 3) : toDescribe d p = describing d p := if_pos h

theorem toDescribe_asks {d : Dev} {p : Nat} (h : topRole d.topo p ≠ 3) :
    toDescribe d p = [0, 64, 128, 192].foldl (fun a o => ctrlSend a p cmDESC_READ (le 1 o ++ le 1 64) none) (describing d p) := if_neg h

theorem describing_keeps (d : Dev) (p : Nat) : Keeps [.ports] (fun a => a == YL_STATUS p) d (describing d p) :=
  ((Keeps.refl d).setState (by decide) _ _ (by simp)).setPort (by decide) _ _

theorem portState_describing (d : Dev) (p : Nat) : (describing d p).portState p = ylDESCRIBE := portState_setState d p _ (by decide)

theorem port_describing (d : Dev) (p : Nat) :
    (describing d p).port p =
      { d.port p with descParts := [], absent := 0, mismatched := 0, shown := shownState d p, stateAt := d.ts100 } := by
  rw [describing, Dev.port_setPort_same, port_setState]

/-- The four parts of the descriptor are asked for. -/
theorem asked_toDescribe {d : Dev} {p : Nat} (h : topRole d.topo p ≠ 3) (hreqs : (d.port p).reqs = []) :
    asked (toDescribe d p) p = [0, 64, 128, 192].map fun o => (cmDESC_READ, [BitVec.ofNat 8 o, 64]) := by
  have hidle : asked (describing d p) p = [] := by rw [asked, port_describing, hreqs]; rfl
  rw [toDescribe_asks h, asked_foldl_ctrlSend p cmDESC_READ (fun o => le 1 o ++ le 1 64) _ (by rw [hidle]; decide), hidle]
  rfl

theorem portState_toDescribe {d : Dev} {p : Nat} (h : topRole d.topo p ≠ 3) : (toDescribe d p).portState p = ylDESCRIBE := by
  rw [toDescribe_asks h, portState_foldl_ctrlSend, portState_describing]

theorem toDescribe_keeps {d : Dev} {p : Nat} (h : topRole d.topo p ≠ 3) :
    Keeps [.ports, .outs] (fun a => a == YL_STATUS p) d (toDescribe d p) := by
  rw [toDescribe_asks h]
  exact ((describing_keeps d p).mono (by decide) fun _ ha => ha).foldl
    (fun x _ => (Keeps.refl x).ctrlSend (by decide) (by decide) _ _ _ _) _

theorem port_describing_other (d : Dev) {p q : Nat} (h : q ≠ p) : (describing d p).port q = d.port q :=
  (Dev.port_setPort_other _ h _).trans (port_setState_other d h _)

theorem stampReceived_first_completes {p since samples : Nat} {stamp : List Byte} {s : State} (hup : s.dev.inReset = false)
    (hst : s.dev.portState p = ylALIGN) (hmode : s.dev.fld (YL_TEST_mode p) ≠ 1) (hlock : (s.dev.port p).locked = true)
    (hnone : (s.dev.port p).stamps = 0) :
    Completes (.stampReceived p since samples stamp) s [.ports] (fun _ => false) fun t => (t.dev.port p).stamps = 1 ∧
      (t.dev.port p).absent = 0 ∧ (t.dev.port p).calValid = nbit (field stamp 3 1) 5 ∧ ∀ q, q ≠ p → t.dev.port q = s.dev.port q := by
  refine completes_of_onDev (g := fun d => stampReceived d p since samples stamp) rfl hup
    (stampReceived_align_first hst hmode hlock hnone since samples stamp) ((Keeps.refl _).setPort (by decide) _ _) ?_
  have hport := Dev.port_setPort_same s.dev p { (s.dev.port p).stamped stamp with stamps := 1 }
  exact ⟨congrArg Port.stamps hport, congrArg Port.absent hport, congrArg Port.calValid hport, fun q hq => Dev.port_setPort_other _ hq _⟩

theorem stampReceived_second_role3_completes {p samples : Nat} {stamp : List Byte} {s : State} (hup : s.dev.inReset = false)
    (hst : s.dev.portState p = ylALIGN) (hmode : s.dev.fld (YL_TEST_mode p) ≠ 1) (hlock : (s.dev.port p).locked = true)
    (hone : (s.dev.port p).stamps = 1) (hrole : topRole s.dev.topo p = 3) :
    Completes (.stampReceived p 4096 samples stamp) s [.ports] (fun a => a == YL_STATUS p) fun t => t.dev.portState p = ylDESCRIBE ∧
      (t.dev.port p).descParts = [] ∧ ∀ q, q ≠ p → t.dev.port q = s.dev.port q := by
  refine completes_of_onDev (g := fun d => stampReceived d p 4096 samples stamp) rfl hup
    ((stampReceived_align_second hst hmode hlock hone samples stamp).trans (toDescribe_role3 hrole))
    (((Keeps.refl _).setPort (by decide) _ _).trans (describing_keeps _ _)) ⟨portState_describing _ _, ?_, fun q hq => ?_⟩
  · exact congrArg Port.descParts (port_describing _ _)
  · exact (port_describing_other _ hq).trans (Dev.port_setPort_other _ hq _)

theorem stampReceived_second_completes {p samples : Nat} {stamp : List Byte} {s : State} (hup : s.dev.inReset = false)
    (hst : s.dev.portState p = ylALIGN) (hmode : s.dev.fld (YL_TEST_mode p) ≠ 1) (hlock : (s.dev.port p).locked = true)
    (hone : (s.dev.port p).stamps = 1) (hrole : topRole s.dev.topo p ≠ 3) (hreqs : (s.dev.port p).reqs = []) :
    Completes (.stampReceived p 4096 samples stamp) s [.ports, .outs] (fun a => a == YL_STATUS p) fun t => t.dev.portState p = ylDESCRIBE ∧
      (t.dev.port p).reqs.map (fun r => (r.id, r.payload)) = [0, 64, 128, 192].map (fun o => (cmDESC_READ, [BitVec.ofNat 8 o, 64])) := by
  refine completes_of_onDev (g := fun d => stampReceived d p 4096 samples stamp) rfl hup
    (stampReceived_align_second hst hmode hlock hone samples stamp)
    (((Keeps.refl _).setPort (by decide) _ _).trans (toDescribe_keeps hrole)) ⟨portState_toDescribe hrole, asked_toDescribe hrole ?_⟩
  rw [Dev.port_setPort_same]
  exact hreqs

/-! ### A measurement (R102) -/

/-- The count of upstream samples agrees with the STAMP's, or no stream runs. -/
theorem sampleCount_agrees {d : Dev} {p n : Nat} {u : UpStamp} (hlive : portLive d p = true)
    (hcount : (d.port p).streams = true → ((d.port p).upCount + n) % 256 = u.count) :
    sampleCount d p n u =
      d.setPort p { d.port p with upCount := if (d.port p).streams then (d.port p).upCount + n else (d.port p).upCount, mismatched := 0 } := by
  cases hs : (d.port p).streams with
  | false => simp [sampleCount, hs]
  | true => simp [sampleCount, hs, hlive, hcount hs]

section
variable {d : Dev} {p : Nat} {x : Port} (hnum : x.hyperNum = (d.port p).hyperNum) (hat : x.hyperAt = (d.port p).hyperAt)
include hnum

/-! What a measurement is taken from is the hyperframe of the port alone. -/

theorem echoIndex_setPort (u : UpStamp) : echoIndex (d.setPort p x) p u = echoIndex d p u := by
  rw [echoIndex, Dev.port_setPort_same, hnum, echoIndex]

include hat

theorem rttOf_setPort (u : UpStamp) : rttOf (d.setPort p x) p u = rttOf d p u := by
  rw [rttOf, echoDeparture, echoIndex_setPort hnum, Dev.port_setPort_same, hat]
  rfl

theorem echoRecent_setPort (u : UpStamp) : echoRecent (d.setPort p x) p u = echoRecent d p u := by
  have hnow : superframeNow (d.setPort p x) p = superframeNow d p := by
    rw [superframeNow, Dev.port_setPort_same, hat]
    rfl
  rw [echoRecent, echoIndex_setPort hnum, hnow, echoRecent]

end

theorem measure_kept {d : Dev} {p : Nat} {u : UpStamp} (hlive : portLive d p = true) (hecho : echoRecent d p u = true)
    (hturn : u.turn ≤ 43253) (hrtt : 10 * u.turn ≤ rttOf d p u) (hrun : (d.port p).run.length < 63) :
    measure d p u = d.setPort p { d.port p with run := (rttOf d p u, 10 * u.turn) :: (d.port p).run } := by
  have hroom : (d.port p).run.length + 1 < 64 := Nat.succ_lt_succ hrun
  simp [measure, hlive, hecho, hturn, hrtt, hroom]

/-- A STAMP in its block, on a port whose streams run. -/
theorem stampReceived_live {d : Dev} {p since : Nat} (hlive : portLive d p = true) (hrole : topRole d.topo p ≠ 3)
    (hmode : d.fld (YL_TEST_mode p) ≠ 1) (hsince : since % 4096 = 0) (samples : Nat) (stamp : List Byte) :
    stampReceived d p since samples stamp =
      (let e := sampleCount (d.setPort p ((d.port p).stamped stamp)) p samples (upStampOf stamp)
       if portLive e p && decide (3 ≤ (e.port p).mismatched) then relink e p ylALIGN yeSAMPLE else measure e p (upStampOf stamp)) := by
  have hst : d.portState p = ylCALIBRATE ∨ d.portState p = ylREADY := by simpa [portLive] using hlive
  have hbelow : ¬ (d.portState p = ylDISABLED ∨ d.portState p = ylDOWN) := by rcases hst with h | h <;> rw [h] <;> decide
  have halign : d.portState p ≠ ylALIGN := by rcases hst with h | h <;> rw [h] <;> decide
  simp only [stampReceived, hmode, hbelow, halign, hsince, if_false, ne_eq, not_true]
  exact if_neg hrole

theorem stampReceived_measured {d : Dev} {p since samples : Nat} {stamp : List Byte} (hlive : portLive d p = true)
    (hrole : topRole d.topo p ≠ 3) (hmode : d.fld (YL_TEST_mode p) ≠ 1) (hsince : since % 4096 = 0)
    (hcount : (d.port p).streams = true → ((d.port p).upCount + samples) % 256 = field stamp 6 1)
    (hecho : echoRecent d p (upStampOf stamp) = true) (hturn : field stamp 4 2 ≤ 43253)
    (hrtt : 10 * field stamp 4 2 ≤ rttOf d p (upStampOf stamp)) (hrun : (d.port p).run.length < 63) :
    stampReceived d p since samples stamp = d.setPort p { (d.port p).stamped stamp with
      upCount := if (d.port p).streams then (d.port p).upCount + samples else (d.port p).upCount, mismatched := 0,
      run := (rttOf d p (upStampOf stamp), 10 * field stamp 4 2) :: (d.port p).run } := by
  have hcounted := sampleCount_agrees (d := d.setPort p ((d.port p).stamped stamp)) (p := p) (n := samples) (u := upStampOf stamp) hlive
    (by rw [Dev.port_setPort_same]; exact hcount)
  rw [Dev.port_setPort_same, Dev.setPort_setPort] at hcounted
  rw [stampReceived_live hlive hrole hmode hsince, hcounted]
  dsimp only
  rw [Dev.port_setPort_same, if_neg (by simp), measure_kept, rttOf_setPort, Dev.port_setPort_same, Dev.setPort_setPort]
  · rfl
  · rfl
  · rfl
  · exact hlive
  · rwa [echoRecent_setPort (by rfl) (by rfl)]
  · exact hturn
  · rwa [rttOf_setPort (by rfl) (by rfl)]
  · rw [Dev.port_setPort_same]; exact hrun

theorem stampReceived_measured_completes {p since samples : Nat} {stamp : List Byte} {s : State} (hup : s.dev.inReset = false)
    (hlive : portLive s.dev p = true) (hrole : topRole s.dev.topo p ≠ 3) (hmode : s.dev.fld (YL_TEST_mode p) ≠ 1)
    (hsince : since % 4096 = 0) (hcount : (s.dev.port p).streams = true → ((s.dev.port p).upCount + samples) % 256 = field stamp 6 1)
    (hecho : echoRecent s.dev p (upStampOf stamp) = true) (hturn : field stamp 4 2 ≤ 43253)
    (hrtt : 10 * field stamp 4 2 ≤ rttOf s.dev p (upStampOf stamp)) (hrun : (s.dev.port p).run.length < 63) :
    Completes (.stampReceived p since samples stamp) s [.ports] (fun _ => false) fun t =>
      (t.dev.port p).run = (rttOf s.dev p (upStampOf stamp), 10 * field stamp 4 2) :: (s.dev.port p).run ∧ (t.dev.port p).mismatched = 0 ∧
      (t.dev.port p).absent = 0 ∧ ∀ q, q ≠ p → t.dev.port q = s.dev.port q := by
  have hport := fun x => Dev.port_setPort_same s.dev p x
  exact completes_of_onDev (g := fun d => stampReceived d p since samples stamp) rfl hup
    (stampReceived_measured hlive hrole hmode hsince hcount hecho hturn hrtt hrun) ((Keeps.refl _).setPort (by decide) _ _)
    ⟨congrArg Port.run (hport _), congrArg Port.mismatched (hport _), congrArg Port.absent (hport _),
      fun q hq => Dev.port_setPort_other _ hq _⟩

/-! ### A STAMP absent (R117, R118) -/

theorem stampAbsent_once {d : Dev} {p : Nat} (hst : within (d.portState p) ylALIGN ylDRAINING = true) (habsent : (d.port p).absent = 0) :
    stampAbsent d p = (d.inc (YL_ERR_LINK_stamp_err p)).setPort p { d.port p with absent := 1, stamps := 0 } := by
  simp [stampAbsent, hst, habsent]

/-- Below CALIBRATE a port carries nothing that ends with its state. -/
theorem leaveFor_below {d : Dev} {p : Nat} (h : d.portState p < ylCALIBRATE) (st : Nat) : leaveFor d p st = setState d p st := by
  have hready : d.portState p ≠ ylREADY := Nat.ne_of_lt (h.trans (by decide))
  have hcal : d.portState p ≠ ylCALIBRATE := Nat.ne_of_lt h
  have hdrain : d.portState p ≠ ylDRAINING := Nat.ne_of_lt (h.trans (by decide))
  simp only [leaveFor, h, hready, hcal, hdrain, or_self, or_true, if_true, if_false]

theorem relink_align_below {d : Dev} {p : Nat} (h : d.portState p < ylCALIBRATE) (cause : Nat) :
    relink d p ylALIGN cause =
      (setCause (setState d p ylALIGN) p cause).setPort p (freshLink ((setCause (setState d p ylALIGN) p cause).port p)) := by
  have hdrain : d.portState p ≠ ylDRAINING := Nat.ne_of_lt (h.trans (by decide))
  have hdown : ylALIGN ≠ ylDOWN := by decide
  simp only [relink, leaveFor_below h, hdrain, hdown, if_false]

theorem stampAbsent_again {d : Dev} {p : Nat} (hst : d.portState p = ylDESCRIBE) (habsent : (d.port p).absent = 1) :
    stampAbsent d p = relink (d.inc (YL_ERR_LINK_stamp_err p)) p ylALIGN yeSTAMP := by
  have hin : within ylDESCRIBE ylALIGN ylDRAINING = true ∧ within ylDESCRIBE ylDESCRIBE ylDRAINING = true := by decide
  simp [stampAbsent, hst, habsent, hin]

theorem stampAbsent_once_completes {p : Nat} {s : State} (hup : s.dev.inReset = false)
    (hst : within (s.dev.portState p) ylALIGN ylDRAINING = true) (habsent : (s.dev.port p).absent = 0) :
    Completes (.stampAbsent p) s [.ports] (fun a => a == YL_ERR_LINK p) fun t =>
      t.dev.fld (YL_ERR_LINK_stamp_err p) = min (s.dev.fld (YL_ERR_LINK_stamp_err p) + 1) (YL_ERR_LINK_stamp_err p).max ∧
      (t.dev.port p).absent = 1 ∧ t.dev.portState p = s.dev.portState p := by
  refine completes_of_onDev (g := fun d => stampAbsent d p) rfl hup (stampAbsent_once hst habsent)
    (((Keeps.refl _).inc (by simp)).setPort (by decide) _ _) ⟨?_, ?_, ?_⟩
  · exact Dev.fld_inc_same _ _ (show 15 < 32 by decide)
  · exact congrArg Port.absent (Dev.port_setPort_same _ _ _)
  · exact portState_inc_other _ (by simp)

theorem stampAbsent_again_completes {p : Nat} {s : State} (hup : s.dev.inReset = false) (hst : s.dev.portState p = ylDESCRIBE)
    (habsent : (s.dev.port p).absent = 1) :
    Completes (.stampAbsent p) s [.ports] (fun a => a == YL_ERR_LINK p || a == YL_STATUS p) fun t => t.dev.portState p = ylALIGN ∧
      t.dev.fld (YL_STATUS_cause p) = yeSTAMP ∧ (t.dev.port p).absent = 0 := by
  have hbelow : (s.dev.inc (YL_ERR_LINK_stamp_err p)).portState p < ylCALIBRATE := by
    rw [portState_inc_other _ (by simp), hst]
    decide
  refine completes_of_onDev (g := fun d => stampAbsent d p) rfl hup ((stampAbsent_again hst habsent).trans (relink_align_below hbelow _))
    (((((Keeps.refl _).inc (by simp)).setState (by decide) _ _ (by simp)).setFld (by simp) _).setPort (by decide) _ _) ⟨?_, ?_, ?_⟩
  · rw [Dev.portState_setPort, portState_setCause, portState_setState _ _ _ (by decide)]
  · rw [Dev.fld_setPort, cause_setCause _ _ (by decide)]
  · rw [Dev.port_setPort_same, freshLink]

/-! ### Blocks, lock and hyperframes (R94, R100, R115) -/

theorem blockOf_unknown {payload : Nat} (h : [0x1E, 0x4B, 0x78].contains (payload % 256) = false) : blockOf 2 payload = .typeError := by
  simp only [List.contains_cons, List.contains_nil, Bool.or_false, Bool.or_eq_false_iff, beq_eq_false_iff_ne] at h
  obtain ⟨hfill, hctrl, hstamp⟩ := h
  simp [blockOf, hfill, hctrl, hstamp]

theorem blockOf_badSync {sync : Nat} (h : sync = 0 ∨ sync = 3) (payload : Nat) : blockOf sync payload = .syncError := by
  rcases h with rfl | rfl <;> rfl

/-- The window of 64 blocks after a sync error `since` blocks after the one before. -/
def nextSyncWin (win : List Bool) (since : Nat) : List Bool := (true :: (List.replicate (min since 64) false ++ win)).take 64

/-- One sync error is at most one more in the window. -/
theorem count_nextSyncWin_le (win : List Bool) (since : Nat) : ((nextSyncWin win since).filter id).length ≤ (win.filter id).length + 1 :=
  calc ((nextSyncWin win since).filter id).length
      ≤ ((true :: (List.replicate (min since 64) false ++ win)).filter id).length := ((List.take_sublist _ _).filter id).length_le
    _ = (win.filter id).length + 1 := by simp

theorem blockError_type {d : Dev} {p line prev : Nat} (hst : d.portState p ≠ ylDISABLED)
    (htype : [0x1E, 0x4B, 0x78].contains ((descramble 64 prev line).1 % 256) = false) (since : Nat) :
    blockError d p 2 line prev since = d.inc (YL_ERR_SYNC_type_err p) := by
  simp [blockError, hst, blockOf_unknown htype]

theorem blockError_sync {d : Dev} {p sync : Nat} (hst : d.portState p ≠ ylDISABLED) (hsync : sync = 0 ∨ sync = 3)
    (hfew : ((d.port p).syncWin.filter id).length < 15) (line prev since : Nat) :
    blockError d p sync line prev since = (d.inc (YL_ERR_SYNC_sync_err p)).setPort p
      { d.port p with syncWin := nextSyncWin (d.port p).syncWin since, locked := (d.port p).locked && d.portState p != ylALIGN } := by
  have hwin : ¬ 16 ≤ ((nextSyncWin (d.port p).syncWin since).filter id).length := by
    have := count_nextSyncWin_le (d.port p).syncWin since
    omega
  unfold nextSyncWin at hwin
  simp only [blockError, hst, if_false, blockOf_badSync hsync, hwin, decide_false, Bool.and_false, Bool.false_eq_true, Dev.port_inc,
    nextSyncWin]

theorem blockLock_completes {p : Nat} {s : State} (hup : s.dev.inReset = false) (hst : s.dev.portState p = ylALIGN) :
    Completes (.blockLock p) s [.ports] (fun _ => false) fun t => (t.dev.port p).locked = true ∧ (t.dev.port p).stamps = 0 ∧
      ∀ q, q ≠ p → t.dev.port q = s.dev.port q := by
  have hport := Dev.port_setPort_same s.dev p { s.dev.port p with locked := true, stamps := 0 }
  exact completes_of_onDev (g := fun d => blockLock d p) rfl hup (if_pos hst) ((Keeps.refl _).setPort (by decide) _ _)
    ⟨congrArg Port.locked hport, congrArg Port.stamps hport, fun q hq => Dev.port_setPort_other _ hq _⟩

theorem blockError_type_completes {p line prev since : Nat} {s : State} (hup : s.dev.inReset = false)
    (hst : s.dev.portState p ≠ ylDISABLED) (htype : [0x1E, 0x4B, 0x78].contains ((descramble 64 prev line).1 % 256) = false) :
    Completes (.blockError p 2 line prev since) s [] (fun a => a == YL_ERR_SYNC p) fun t =>
      t.dev.fld (YL_ERR_SYNC_type_err p) = min (s.dev.fld (YL_ERR_SYNC_type_err p) + 1) (YL_ERR_SYNC_type_err p).max :=
  completes_of_onDev (g := fun d => blockError d p 2 line prev since) rfl hup (blockError_type hst htype since)
    ((Keeps.refl _).inc (by simp)) (Dev.fld_inc_same _ _ (show 15 < 32 by decide))

theorem blockError_sync_completes {p sync line prev since : Nat} {s : State} (hup : s.dev.inReset = false)
    (hst : s.dev.portState p ≠ ylDISABLED) (hsync : sync = 0 ∨ sync = 3) (hfew : ((s.dev.port p).syncWin.filter id).length < 15) :
    Completes (.blockError p sync line prev since) s [.ports] (fun a => a == YL_ERR_SYNC p) fun t =>
      t.dev.fld (YL_ERR_SYNC_sync_err p) = min (s.dev.fld (YL_ERR_SYNC_sync_err p) + 1) (YL_ERR_SYNC_sync_err p).max ∧
      t.dev.portState p = s.dev.portState p :=
  completes_of_onDev (g := fun d => blockError d p sync line prev since) rfl hup (blockError_sync hst hsync hfew line prev since)
    (((Keeps.refl _).inc (by simp)).setPort (by decide) _ _)
    ⟨Dev.fld_inc_same _ _ (show 31 < 32 by decide), portState_inc_other _ (by simp)⟩

theorem prbsError_completes {p hist block : Nat} {s : State} (hup : s.dev.inReset = false) (hprbs : s.dev.fld (YL_TEST_prbs p) = 1) :
    Completes (.prbsError p hist block) s [] (fun a => a == YL_PRBS_ERR p) fun t =>
      t.dev.fld (YL_PRBS_ERR_errors p) = min (s.dev.fld (YL_PRBS_ERR_errors p) + bitErrors (prbs31 64 hist).1 block) (YL_PRBS_ERR_errors p).max := by
  have hon : s.dev.bit (YL_TEST_prbs p) = true := by simp [Dev.bit_eq, hprbs]
  refine completes_of_onDev (g := fun d => prbsCheck d p hist block) rfl hup (if_pos hon) ((Keeps.refl _).setFld (by simp) _) ?_
  refine (Dev.fld_setFld_same _ _ _ (show 31 < 32 by decide)).trans (Nat.mod_eq_of_lt (lt_of_le_of_lt (min_le_right _ _) ?_))
  exact Nat.sub_one_lt (Nat.two_pow_pos _).ne'

theorem hyperframe_averaged {d : Dev} {p v : Nat} (hst : d.portState p ≠ ylDISABLED) (hv : (d.port p).dPending = some v)
    (hloop : (d.port p).loopPending = none) (h : Nat) :
    let run := shownState d p == ylCALIBRATE || shownState d p == ylREADY
    hyperframe d p h = (d.setFld (YL_DLY_DOWN_value p) v).setPort p { d.port p with
      dPending := none, streams := run, hyperNum := h % 2 ^ 24, hyperAt := d.ts100,
      upCount := if run && !(d.port p).streams then 0 else (d.port p).upCount } := by
  simp [hyperframe, hst, hv, hloop]

theorem hyperframeBoundary_completes {p h v : Nat} {s : State} (hup : s.dev.inReset = false) (hst : s.dev.portState p ≠ ylDISABLED)
    (hv : (s.dev.port p).dPending = some v) (hloop : (s.dev.port p).loopPending = none) :
    Completes (.hyperframeBoundary p h) s [.ports] (fun a => a == YL_DLY_DOWN p) fun t => t.dev.fld (YL_DLY_DOWN_value p) = v % 2 ^ 24 ∧
      (t.dev.port p).dPending = none ∧ (t.dev.port p).hyperNum = h % 2 ^ 24 ∧ (t.dev.port p).hyperAt = s.dev.ts100 ∧
      (t.dev.port p).streams = (shownState s.dev p == ylCALIBRATE || shownState s.dev p == ylREADY) := by
  have hport := fun x => Dev.port_setPort_same (s.dev.setFld (YL_DLY_DOWN_value p) v) p x
  exact completes_of_onDev (g := fun d => hyperframe d p h) rfl hup (hyperframe_averaged hst hv hloop h)
    (((Keeps.refl _).setFld (by simp) _).setPort (by decide) _ _)
    ⟨Dev.fld_setFld_same _ _ _ (show 23 < 32 by decide), congrArg Port.dPending (hport _), congrArg Port.hyperNum (hport _),
      congrArg Port.hyperAt (hport _), congrArg Port.streams (hport _)⟩

/-- Settles O25: each command's clause is its completion above. -/
theorem linkTiming : Obligations.LinkTiming := by
  unfold Obligations.LinkTiming
  refine ⟨?lock, ?first, ?second3, ?second, ?measured, ?absent, ?again, ?type, ?sync, ?prbs, ?hyper⟩
  case lock => exact fun _ _ => blockLock_completes
  case first => exact fun _ _ _ _ _ => stampReceived_first_completes
  case second3 => exact fun _ _ _ _ => stampReceived_second_role3_completes
  case second => exact fun _ _ _ _ hup hst hmode hlock hone hrole hreqs _ =>
    stampReceived_second_completes hup hst hmode hlock hone hrole hreqs
  case measured => exact fun _ _ _ _ _ => stampReceived_measured_completes
  case absent => exact fun _ _ => stampAbsent_once_completes
  case again => exact fun _ _ => stampAbsent_again_completes
  case type =>
    rintro p _ line prev since s hup hst rfl htype
    exact blockError_type_completes hup hst htype
  case sync => exact fun _ _ _ _ _ _ => blockError_sync_completes
  case prbs => exact fun _ _ _ _ => prbsError_completes
  case hyper => exact fun _ _ _ _ hup hst hv _ hloop => hyperframeBoundary_completes hup hst hv hloop

end Sys2Proof.Machine
end

section
/-! PROOF. Events of a head, the poll and the emulated head (04_yarlink.md R106, R123, 05_head_control.md R142). -/

namespace Sys2Proof.Machine

/-! ### Holds (R142) -/

theorem head_raise (d : Dev) (s unit detail p : Nat) : (raise d s unit detail).head p = d.head p := by
  rw [Dev.head, raise_hc, Dev.head]

theorem headHeld_idle {d : Dev} (h : d.tx.bursts = []) (p c : Nat) : headHeld d p c = d := by
  rw [headHeld, h]
  rfl

/-- The first hold of a head that carries no burst. -/
theorem setHold_first {d : Dev} {p : Nat} (hbursts : d.tx.bursts = []) (hnone : (d.head p).holds = []) (c : Nat) :
    setHold d p c = raise (d.setHead p { d.head p with holds := [c] }) 66 p c := by
  have hidle : (raise (d.setHead p { d.head p with holds := [c] }) 66 p c).tx.bursts = [] := by rw [raise_tx]; exact hbursts
  simp only [setHold, hnone, List.contains_nil, Bool.false_eq_true, if_false, List.nil_append, headHeld_idle hidle]

theorem event_holds {p c : Nat} {payload : List Byte} {s : State} (hup : s.dev.inReset = false) (hbursts : s.dev.tx.bursts = [])
    (hnone : (s.dev.head p).holds = []) (hevent : headEvent s.dev p payload = setHold s.dev p c) :
    Completes (.event p payload) s ([.hc] ++ noteParts) noteRegs fun t => t.dev.head p = { s.dev.head p with holds := [c] } :=
  completes_of_onDev (g := fun d => headEvent d p payload) rfl hup (hevent.trans (setHold_first hbursts hnone c))
    (((Keeps.refl _).setHead (by decide) _ _).noted (noted_raise _ _ _ _) (by decide) fun _ ha => ha)
    ((head_raise _ _ _ _ _).trans (Dev.head_setHead_same _ _ _))

theorem headEvent_fault (d : Dev) (p : Nat) : headEvent d p [4, 1, 0, 0] = setHold d p csFAULT := rfl

theorem headEvent_overTemperature {d : Dev} {p : Nat} (h : 1 ≤ dscSensors d p) : headEvent d p [3, 0, 0, 0] = setHold d p csTHERMAL := by
  have hrange : eventRange d p 3 0 = true := decide_eq_true h
  exact if_neg (by simpa [field, slice, unle] using hrange)

/-! ### The poll (R106) -/

/-- The poll of one port. -/
def pollPort (d : Dev) (p : Nat) : Dev :=
  if portLive d p && topRole d.topo p != 3 && ((d.port p).reqs ++ (d.port p).queued).all (fun r => r.id != cmTELEM_POLL)
  then ctrlSend d p cmTELEM_POLL [] none else d

theorem telemPoll_eq (d : Dev) : telemPoll d = (List.range 64).foldl pollPort d := rfl

theorem pollPort_dead {d : Dev} {p : Nat} (h : portLive d p = false) : pollPort d p = d := by simp [pollPort, h]

theorem pollPort_idle {d : Dev} {p : Nat} (hlive : portLive d p = true) (hrole : topRole d.topo p ≠ 3) (hreqs : (d.port p).reqs = [])
    (hqueued : (d.port p).queued = []) : pollPort d p = ctrlSend d p cmTELEM_POLL [] none := by
  simp [pollPort, hlive, hrole, hreqs, hqueued]

theorem portLive_pollPort (d : Dev) (p q : Nat) : portLive (pollPort d p) q = portLive d q := by
  unfold pollPort
  split
  · rw [portLive, portState_ctrlSend, portLive]
  · rfl

theorem foldl_pollPort_dead {d : Dev} {l : List Nat} (h : ∀ q ∈ l, portLive d q = false) : l.foldl pollPort d = d := by
  induction l with
  | nil => rfl
  | cons q l ih =>
    rw [List.foldl_cons, pollPort_dead (h q List.mem_cons_self)]
    exact ih fun x hx => h x (List.mem_cons_of_mem q hx)

/-- Of ports of which one is live, that one alone is polled. -/
theorem foldl_pollPort_one {d : Dev} {p : Nat} {l : List Nat} (hnodup : l.Nodup) (hp : p ∈ l) (h : ∀ q ∈ l, q ≠ p → portLive d q = false) :
    l.foldl pollPort d = pollPort d p := by
  obtain ⟨l₁, l₂, rfl⟩ := List.append_of_mem hp
  rw [List.nodup_middle, List.nodup_cons, List.mem_append, not_or] at hnodup
  obtain ⟨⟨hp₁, hp₂⟩, -⟩ := hnodup
  rw [List.foldl_append, foldl_pollPort_dead fun q hq => h q (by simp [hq]) fun he => hp₁ (he ▸ hq), List.foldl_cons,
    foldl_pollPort_dead fun q hq => (portLive_pollPort d p q).trans (h q (by simp [hq]) fun he => hp₂ (he ▸ hq))]

theorem telemPoll_noneLive {s : State} (hup : s.dev.inReset = false) (h : ∀ p, p < 64 → portLive s.dev p = false) :
    exec .telemPoll s = .next s := by
  have hsame : telemPoll s.dev = s.dev := foldl_pollPort_dead fun q hq => h q (List.mem_range.mp hq)
  exact (s.onDev_up telemPoll hup).trans (by rw [hsame])

theorem telemPoll_completes {p : Nat} {s : State} (hup : s.dev.inReset = false) (hlive : portLive s.dev p = true) (hp : p < 64)
    (hrole : topRole s.dev.topo p ≠ 3) (hothers : ∀ q, q < 64 → q ≠ p → portLive s.dev q = false) (hreqs : (s.dev.port p).reqs = [])
    (hqueued : (s.dev.port p).queued = []) :
    Completes .telemPoll s [.ports, .outs] (fun _ => false) fun t =>
      t.dev.outs = .control p cmTELEM_POLL (s.dev.port p).nextTag [] :: s.dev.outs ∧
      (t.dev.port p).reqs = [⟨(s.dev.port p).nextTag, cmTELEM_POLL, [], false, none⟩] := by
  have hpolled : telemPoll s.dev = ctrlSend s.dev p cmTELEM_POLL [] none :=
    (foldl_pollPort_one List.nodup_range (List.mem_range.mpr hp) fun q hq => hothers q (List.mem_range.mp hq)).trans
      (pollPort_idle hlive hrole hreqs hqueued)
  exact completes_of_onDev (g := telemPoll) rfl hup (hpolled.trans (ctrlSend_first hreqs _ _ _))
    (((Keeps.refl _).setPort (by decide) _ _).emit (by decide) _) ⟨rfl, congrArg Port.reqs (Dev.port_setPort_same s.dev p _)⟩

/-! ### The emulated head (R123) -/

theorem field_ofNat_byte {v : Nat} (h : v < 256) (bs : List Byte) : field (BitVec.ofNat 8 v :: bs) 0 1 = v := by
  simp [field, slice, unle, Nat.mod_eq_of_lt h]

section
variable {d : Dev} {p : Nat} (hrole : topRole d.topo p = 3) (hst : d.portState p ≠ ylDISABLED) (tag : Nat) (payload : List Byte)
include hrole hst

theorem emuRequest_loopSet :
    emuRequest d p cmLOOP_SET tag payload =
      (d.setPort p { d.port p with loopApplied := field payload 0 1 }).emit (.emulated p 0x84 tag [0, 8]) := by
  simp [emuRequest, hrole, hst, cmLOOP_SET, cmDESC_READ, cmSYNTH_TUNE, cmCAL_RUN, cmTELEM_POLL, le]

theorem emuRequest_synthTune :
    emuRequest d p cmSYNTH_TUNE tag payload =
      d.setPort p { d.port p with emu := (d.port p).emu ++ [⟨0x82, tag, le 1 0 ++ slice payload 0 5⟩] } := by
  simp [emuRequest, hrole, hst, cmSYNTH_TUNE, cmDESC_READ]

end

theorem emuRequest_loopSet_completes {p tag v : Nat} {s : State} (hup : s.dev.inReset = false) (hrole : topRole s.dev.topo p = 3)
    (hst : s.dev.portState p ≠ ylDISABLED) (hv : v < 256) :
    Completes (.emuRequest p cmLOOP_SET tag [BitVec.ofNat 8 v]) s [.ports, .outs] (fun _ => false) fun t => (t.dev.port p).loopApplied = v ∧
      t.dev.outs = .emulated p 0x84 tag [0, 8] :: s.dev.outs :=
  completes_of_onDev (g := fun d => emuRequest d p cmLOOP_SET tag [BitVec.ofNat 8 v]) rfl hup (emuRequest_loopSet hrole hst tag _)
    (((Keeps.refl _).setPort (by decide) _ _).emit (by decide) _)
    ⟨(congrArg Port.loopApplied (Dev.port_setPort_same s.dev p _)).trans (field_ofNat_byte hv []), rfl⟩

theorem emuRequest_synthTune_completes {p tag : Nat} {bs : List Byte} {s : State} (hup : s.dev.inReset = false)
    (hrole : topRole s.dev.topo p = 3) (hst : s.dev.portState p ≠ ylDISABLED) :
    Completes (.emuRequest p cmSYNTH_TUNE tag bs) s [.ports] (fun _ => false) fun t =>
      (t.dev.port p).emu = (s.dev.port p).emu ++ [⟨0x82, tag, le 1 0 ++ slice bs 0 5⟩] :=
  completes_of_onDev (g := fun d => emuRequest d p cmSYNTH_TUNE tag bs) rfl hup (emuRequest_synthTune hrole hst tag bs)
    ((Keeps.refl _).setPort (by decide) _ _) (congrArg Port.emu (Dev.port_setPort_same s.dev p _))

theorem emuAnswerDue_owed {d : Dev} {p tag : Nat} {a : EmuAnswer} (ha : (d.port p).emu.find? (fun x => x.tag == tag) = some a) :
    emuAnswerDue d p tag =
      (d.setPort p { d.port p with emu := (d.port p).emu.filter fun x => x.tag != tag }).emit (.emulated p a.id a.tag a.payload) := by
  simp only [emuAnswerDue, ha]

theorem emuAnswerDue_completes {p tag : Nat} {a : EmuAnswer} {s : State} (hup : s.dev.inReset = false)
    (ha : (s.dev.port p).emu.find? (fun x => x.tag == tag) = some a) :
    Completes (.emuAnswerDue p tag) s [.ports, .outs] (fun _ => false) fun t =>
      (t.dev.port p).emu = (s.dev.port p).emu.filter (fun x => x.tag != tag) ∧ t.dev.outs = .emulated p a.id a.tag a.payload :: s.dev.outs :=
  completes_of_onDev (g := fun d => emuAnswerDue d p tag) rfl hup (emuAnswerDue_owed ha)
    (((Keeps.refl _).setPort (by decide) _ _).emit (by decide) _) ⟨congrArg Port.emu (Dev.port_setPort_same s.dev p _), rfl⟩

/-- Settles O28: each command's clause is its completion above. -/
theorem headEventsAndEmulation : Obligations.HeadEventsAndEmulation := by
  unfold Obligations.HeadEventsAndEmulation
  refine ⟨?fault, ?thermal, ?none, ?poll, ?loop, ?tune, ?due⟩
  case fault => exact fun p s hup hbursts hnone => event_holds hup hbursts hnone (headEvent_fault s.dev p)
  case thermal => exact fun _ _ hup hbursts hnone hsensor => event_holds hup hbursts hnone (headEvent_overTemperature hsensor)
  case none => exact fun _ => telemPoll_noneLive
  case poll => exact fun _ _ => telemPoll_completes
  case loop => exact fun _ _ _ _ => emuRequest_loopSet_completes
  case tune => exact fun _ _ _ _ => emuRequest_synthTune_completes
  case due => exact fun _ _ _ _ => emuAnswerDue_completes

end Sys2Proof.Machine
end

section
/-! PROOF. A head whose receive path is ready keeps it ready when CALIBRATE times out (04_yarlink.md R115, R120, 05_head_control.md R128). -/

namespace Sys2Proof.Machine

/-- The machine after reset, but for port 0 in CALIBRATE, the receive path of its head tuned and calibrated. -/
def receivePathReady : State :=
  { State.reset with dev := (Dev.blank.setFld (YL_STATUS_state 0) ylCALIBRATE).setHead 0 { Head.init with rxReady := true } }

/-- The timeout ends requests and turns the PA off; the readiness of the paths is none of what it changes. -/
theorem calTimeout_leaves_rxReady :
    ((stateTimeout receivePathReady.dev 0 ylCALIBRATE yeCAL_TIMEOUT).head 0).rxReady = true := by decide +kernel

/-- Refutes O26, for its clause about CAL_TIMEOUT: a path that was tuned and calibrated before the timeout stays marked ready (the next
CALIBRATE marks it anew), and the clause asks that the receive path is not ready. -/
theorem not_portStates : ¬ Obligations.PortStates := by
  unfold Obligations.PortStates
  rintro ⟨-, -, -, -, htimeout, -⟩
  obtain ⟨t, ht, -, -, -, -, -, -, hready, -⟩ :=
    htimeout 0 receivePathReady rfl (by decide +kernel) (by decide +kernel) rfl (by decide +kernel)
  rw [State.onDev_next (g := fun d => stateTimeout d 0 ylCALIBRATE yeCAL_TIMEOUT) rfl rfl ht, calTimeout_leaves_rxReady] at hready
  cases hready

end Sys2Proof.Machine
end

section
/-! PROOF. Messages that the Strainer drops and counts, and a request sent once more (04_yarlink.md R105, R109 to R111). -/

namespace Sys2Proof.Machine

/-! ### Counted and dropped -/

/-- A message is counted in one field of YL_ERR_CTRL, and changes nothing else. -/
theorem counted_completes {c : Instr} {g : Dev → Dev} {p : Nat} {f x : Fld} {s : State} (hc : exec c s = s.onDev g)
    (hup : s.dev.inReset = false) (hg : g s.dev = s.dev.inc f) (hreg : f.reg = YL_ERR_CTRL p) (hf : f.hi < 32)
    (hx : x.hi < f.lo ∨ f.hi < x.lo) :
    Completes c s [] (fun a => a == YL_ERR_CTRL p) fun t =>
      t.dev.fld f = min (s.dev.fld f + 1) f.max ∧ t.dev.fld x = s.dev.fld x :=
  completes_of_onDev hc hup hg ((Keeps.refl _).inc (by simp [hreg])) ⟨Dev.fld_inc_same _ _ hf, Dev.fld_inc_other _ _ _ (.inr hx)⟩

section
variable {d : Dev} {p tag : Nat} (h : reqOf d p tag = none) (bs : List Byte)
include h

theorem dropMessage_stale : dropMessage d p tag = d.inc (YL_ERR_CTRL_stale p) := by simp [dropMessage, h]

theorem descData_stale : descData d p tag bs = d.inc (YL_ERR_CTRL_stale p) := by simp only [descData, h, dropMessage_stale]

theorem synthStatus_stale : synthStatus d p tag bs = d.inc (YL_ERR_CTRL_stale p) := by simp only [synthStatus, h, dropMessage_stale]

theorem calDone_stale : calDone d p tag bs = d.inc (YL_ERR_CTRL_stale p) := by simp only [calDone, h, dropMessage_stale]

theorem telem_stale : telem d p tag bs = d.inc (YL_ERR_CTRL_stale p) := by simp only [telem, h]

theorem ackMessage_stale : ackMessage d p tag bs = d.inc (YL_ERR_CTRL_stale p) := by simp only [ackMessage, h, dropMessage_stale]

end

theorem answer_stale_completes {c : Instr} {p tag : Nat} {bs : List Byte} {s : State} (hup : s.dev.inReset = false)
    (h : reqOf s.dev p tag = none)
    (hc : c = .descData p tag bs ∨ c = .synthStatus p tag bs ∨ c = .calDone p tag bs ∨ c = .telem p tag bs ∨ c = .ack p tag bs) :
    Completes c s [] (fun a => a == YL_ERR_CTRL p) fun t =>
      t.dev.fld (YL_ERR_CTRL_stale p) = min (s.dev.fld (YL_ERR_CTRL_stale p) + 1) (YL_ERR_CTRL_stale p).max ∧
      t.dev.fld (YL_ERR_CTRL_bad_field p) = s.dev.fld (YL_ERR_CTRL_bad_field p) := by
  have hcount : ∀ {g : Dev → Dev}, exec c s = s.onDev g → g s.dev = s.dev.inc (YL_ERR_CTRL_stale p) → _ := fun hg he =>
    counted_completes (x := YL_ERR_CTRL_bad_field p) hg hup he rfl (show 15 < 32 by decide) (.inr (show 15 < 16 by decide))
  rcases hc with rfl | rfl | rfl | rfl | rfl
  · exact hcount (g := fun d => descData d p tag bs) rfl (descData_stale h bs)
  · exact hcount (g := fun d => synthStatus d p tag bs) rfl (synthStatus_stale h bs)
  · exact hcount (g := fun d => calDone d p tag bs) rfl (calDone_stale h bs)
  · exact hcount (g := fun d => telem d p tag bs) rfl (telem_stale h bs)
  · exact hcount (g := fun d => ackMessage d p tag bs) rfl (ackMessage_stale h bs)

theorem ctrlMessage_badCrc {d : Dev} {p : Nat} {msg : List Byte} (h : ctrlParse msg = none) :
    ctrlMessage d p msg = d.inc (YL_ERR_CTRL_crc_err p) := by simp only [ctrlMessage, h]

/-! ### A message parsed (R105) -/

theorem crcStep_lt {poly reg : Nat} (hpoly : poly < 2 ^ 16) : crcStep 16 poly reg < 2 ^ 16 := by
  have hshift : reg * 2 % 2 ^ 16 < 2 ^ 16 := Nat.mod_lt _ (by decide)
  unfold crcStep
  split
  · exact Nat.xor_lt_two_pow hshift hpoly
  · exact hshift

theorem crcSteps_lt {poly : Nat} (hpoly : poly < 2 ^ 16) (n : Nat) {reg : Nat} (hreg : reg < 2 ^ 16) : crcSteps 16 poly n reg < 2 ^ 16 := by
  induction n generalizing reg with
  | zero => exact hreg
  | succ n ih => exact ih (crcStep_lt hpoly)

theorem crcMsb_lt {poly : Nat} (hpoly : poly < 2 ^ 16) (bs : List Byte) {init : Nat} (hinit : init < 2 ^ 16) :
    crcMsb 16 poly init bs < 2 ^ 16 := by
  induction bs generalizing init with
  | nil => exact hinit
  | cons b bs ih =>
    have hb : b.toNat <<< (16 - 8) < 2 ^ 16 := by
      have := b.isLt
      rw [Nat.shiftLeft_eq]
      omega
    exact ih (crcSteps_lt hpoly 8 (Nat.xor_lt_two_pow hinit hb))

theorem crc16_lt (bs : List Byte) : crc16 bs < 2 ^ 16 := crcMsb_lt (by decide) bs (by decide)

theorem unbe_be_two {v : Nat} (h : v < 2 ^ 16) : unbe (be 2 v) = v := by
  simp only [be, le, List.reverse_cons, List.reverse_nil, List.nil_append, List.cons_append, unbe, List.foldl_cons, List.foldl_nil,
    BitVec.toNat_ofNat]
  omega

/-- What a message's bytes spell is what it was made of. -/
theorem ctrlParse_msgBytes {id tag : Nat} {payload : List Byte} (hid : id < 256) (htag : tag < 256) (hlen : payload.length < 256) :
    ctrlParse (msgBytes id tag payload) = some (id, tag, payload) := by
  have hhead : le 1 id ++ le 1 tag ++ le 1 payload.length ++ payload =
      BitVec.ofNat 8 id :: BitVec.ofNat 8 tag :: BitVec.ofNat 8 payload.length :: payload := rfl
  have hcrc := unbe_be_two (crc16_lt (BitVec.ofNat 8 id :: BitVec.ofNat 8 tag :: BitVec.ofNat 8 payload.length :: payload))
  have hbe : ∀ v, (be 2 v).length = 2 := fun _ => rfl
  simp only [msgBytes, hhead]
  generalize hc : crc16 (BitVec.ofNat 8 id :: BitVec.ofNat 8 tag :: BitVec.ofNat 8 payload.length :: payload) = c at hcrc ⊢
  have hn : field ((BitVec.ofNat 8 id :: BitVec.ofNat 8 tag :: BitVec.ofNat 8 payload.length :: payload) ++ be 2 c) 2 1 = payload.length := by
    simp [field, slice, unle, Nat.mod_eq_of_lt hlen]
  have htail : slice ((BitVec.ofNat 8 id :: BitVec.ofNat 8 tag :: BitVec.ofNat 8 payload.length :: payload) ++ be 2 c) (payload.length + 3) 2 =
      be 2 c := by
    simp [slice, List.take_of_length_le, hbe]
  simp only [ctrlParse, hn, htail, hcrc]
  rw [if_neg]
  · simp [field, slice, unle, Nat.mod_eq_of_lt hid, Nat.mod_eq_of_lt htag]
  · simp [hbe, hc]

theorem ctrlMessage_unknown {d : Dev} {p id tag : Nat} {payload : List Byte} (hid : id < 256) (htag : tag < 256)
    (hlen : payload.length < 256) (h : [0x81, 0x82, 0x83, 0x84, 0x87, 0x88].contains id = false) :
    ctrlMessage d p (msgBytes id tag payload) = d.inc (YL_ERR_CTRL_bad_field p) := by
  simp only [List.contains_cons, List.contains_nil, Bool.or_false, Bool.or_eq_false_iff, beq_eq_false_iff_ne] at h
  obtain ⟨hdesc, hsynth, hcal, hack, htelem, hevent⟩ := h
  simp only [ctrlMessage, ctrlParse_msgBytes hid htag hlen, hdesc, hsynth, hcal, hack, htelem, hevent, if_false, false_and]

theorem badCrc_completes {p : Nat} {msg : List Byte} {s : State} (hup : s.dev.inReset = false) (h : ctrlParse msg = none) :
    Completes (.ctrlMessageDropped p msg) s [] (fun a => a == YL_ERR_CTRL p) fun t =>
      t.dev.fld (YL_ERR_CTRL_crc_err p) = min (s.dev.fld (YL_ERR_CTRL_crc_err p) + 1) (YL_ERR_CTRL_crc_err p).max ∧
      t.dev.fld (YL_ERR_CTRL_bad_field p) = s.dev.fld (YL_ERR_CTRL_bad_field p) :=
  counted_completes (g := fun d => ctrlMessage d p msg) rfl hup (ctrlMessage_badCrc h) rfl (show 31 < 32 by decide)
    (.inl (show 23 < 24 by decide))

theorem unknownId_completes {p id tag : Nat} {payload : List Byte} {s : State} (hup : s.dev.inReset = false) (hid : id < 256)
    (htag : tag < 256) (hlen : payload.length < 256) (h : [0x81, 0x82, 0x83, 0x84, 0x87, 0x88].contains id = false) :
    Completes (.ctrlMessageDropped p (msgBytes id tag payload)) s [] (fun a => a == YL_ERR_CTRL p) fun t =>
      t.dev.fld (YL_ERR_CTRL_bad_field p) = min (s.dev.fld (YL_ERR_CTRL_bad_field p) + 1) (YL_ERR_CTRL_bad_field p).max ∧
      t.dev.fld (YL_ERR_CTRL_crc_err p) = s.dev.fld (YL_ERR_CTRL_crc_err p) :=
  counted_completes (g := fun d => ctrlMessage d p (msgBytes id tag payload)) rfl hup (ctrlMessage_unknown hid htag hlen h) rfl
    (show 23 < 32 by decide) (.inr (show 23 < 24 by decide))

/-! ### A timeout (R110) -/

/-- The port when a request of it has been sent once more, under the next tag. -/
def Port.resend (x : Port) (r : CtrlReq) : Port :=
  { x with reqs := x.reqs.filter (fun q => q.tag != r.tag) ++ [{ r with tag := x.nextTag, resent := true }], nextTag := x.nextTag % 255 + 1 }

theorem Port.resend_reqs (x : Port) {r : CtrlReq} {tag : Nat} (h : r.tag = tag) :
    (x.resend r).reqs = x.reqs.filter (fun q => q.tag != tag) ++ [{ r with tag := x.nextTag, resent := true }] := by rw [Port.resend, h]

theorem requestTimeout_resent {d : Dev} {p tag : Nat} {r : CtrlReq} (hr : reqOf d p tag = some r) (honce : r.resent = false)
    (huntimed : r.at? = none) (hid : r.id ≠ cmHEAD_RESET) (hfree : ((d.port p).reqs.map (·.tag)).contains (d.port p).nextTag = false) :
    requestTimeout d p tag = (d.setPort p ((d.port p).resend r)).emit (.control p r.id (d.port p).nextTag r.payload) := by
  have htag : freeTag ((d.port p).reqs.map (·.tag)) 255 (d.port p).nextTag = (d.port p).nextTag := freeTag_unused hfree 254
  simp [requestTimeout, hr, honce, huntimed, hid, htag, Port.resend, reqOf_tag hr]

theorem requestTimeout_completes {p tag : Nat} {r : CtrlReq} {s : State} (hup : s.dev.inReset = false) (hr : reqOf s.dev p tag = some r)
    (honce : r.resent = false) (huntimed : r.at? = none) (hid : r.id ≠ cmHEAD_RESET)
    (hfree : ((s.dev.port p).reqs.map (·.tag)).contains (s.dev.port p).nextTag = false) :
    Completes (.ctrlRequestTimeout p tag) s [.ports, .outs] (fun _ => false) fun t =>
      (t.dev.port p).reqs = (s.dev.port p).reqs.filter (fun q => q.tag != tag) ++ [{ r with tag := (s.dev.port p).nextTag, resent := true }] ∧
      (t.dev.port p).fails = (s.dev.port p).fails ∧
      t.dev.outs = .control p r.id (s.dev.port p).nextTag r.payload :: s.dev.outs ∧ ∀ q, q ≠ p → t.dev.port q = s.dev.port q := by
  have hport := Dev.port_setPort_same s.dev p ((s.dev.port p).resend r)
  exact completes_of_onDev (g := fun d => requestTimeout d p tag) rfl hup (requestTimeout_resent hr honce huntimed hid hfree)
    (((Keeps.refl _).setPort (by decide) _ _).emit (by decide) _)
    ⟨(congrArg Port.reqs hport).trans (Port.resend_reqs _ (reqOf_tag hr)), (congrArg Port.fails hport :), rfl, fun q hq => Dev.port_setPort_other _ hq _⟩

end Sys2Proof.Machine
end

section
/-! PROOF. Answers of a head taken by tag, and the answers to control requests as one statement (04_yarlink.md R106, R109, R114, R122,
05_head_control.md R128). -/

namespace Sys2Proof.Machine

/-! ### What an answer's shared work leaves -/

theorem Tab.del_put {α : Type} (t : Tab α) (k : Nat) (v : α) : Tab.del (Tab.put t k v) k = Tab.del t k := by
  rw [Tab.put, Tab.del_ins, Tab.del, Tab.del, List.filter_filter]
  simp only [Bool.and_self]

theorem answered_reqs {x : Port} {r : CtrlReq} {tag : Nat} (h : r.tag = tag) :
    (x.answered r).reqs = x.reqs.filter fun q => q.tag != tag := by rw [Port.answered, h]

/-- Success changes the failure record and the hold CAL of the head alone. -/
theorem workOk_eq (d : Dev) (p key : Nat) : ∃ f l, workOk d p key = d.setHead p { d.head p with failed := f, holds := l } := by
  unfold workOk
  dsimp only
  split
  · exact ⟨_, (d.head p).holds, rfl⟩
  · exact ⟨_, _, by rw [clearHold, Dev.head_setHead_same, Dev.setHead_setHead]⟩

theorem nextTune_none {d : Dev} {p : Nat} (h : (d.head p).wanted = []) : nextTune d p = d := by
  simp only [nextTune, h, List.find?_nil]

theorem calStep_other {d : Dev} {p : Nat} (h : d.portState p ≠ ylCALIBRATE) : calStep d p = d := if_pos h

/-- A path that awaits nothing else is ready when what it awaited arrives (R128). -/
theorem Head.arrived_rxReady {h : Head} {ns : List Nat} (hns : ns.any (· / 2 == 0) = true)
    (hneeds : ∀ n ∈ h.needs, n / 2 = 0 → n ∈ ns) : (h.arrived ns).rxReady = true := by
  simp only [Head.arrived, hns, if_true, Bool.not_eq_true', List.any_eq_false, List.mem_filter, beq_iff_eq]
  exact fun n ⟨hn, hout⟩ hpath => by simp [hneeds n hn hpath] at hout

theorem Head.arrived_txReady {h : Head} {ns : List Nat} (hns : ns.any (· / 2 == 1) = true)
    (hneeds : ∀ n ∈ h.needs, n / 2 = 1 → n ∈ ns) : (h.arrived ns).txReady = true := by
  simp only [Head.arrived, hns, if_true, Bool.not_eq_true', List.any_eq_false, List.mem_filter, beq_iff_eq]
  exact fun n ⟨hn, hout⟩ hpath => by simp [hneeds n hn hpath] at hout

/-! ### ACK (R106, R122) -/

theorem headApply_paBias {d : Dev} {p : Nat} {r : CtrlReq} (hid : r.id = cmPA_BIAS) (hundo : Tab.find (d.head p).undo r.tag = none) :
    headApply d p r = d.setHead p
      { d.head p with undo := Tab.put (d.head p).undo r.tag (b2n (d.head p).paOn), paOn := field r.payload 0 1 == 1 } := by
  have hgain : cmPA_BIAS ≠ cmGAIN_SET := by decide
  simp only [headApply, hundo, hid, hgain, Option.isSome_none, Bool.false_eq_true, if_false, if_true]

theorem headApply_trSwitch {d : Dev} {p : Nat} {r : CtrlReq} (hid : r.id = cmTR_SWITCH) (hundo : Tab.find (d.head p).undo r.tag = none) :
    headApply d p r = d.setHead p
      { d.head p with undo := Tab.put (d.head p).undo r.tag (b2n (d.head p).trTx), trTx := field r.payload 0 1 == 1 } := by
  have hgain : cmTR_SWITCH ≠ cmGAIN_SET := by decide
  have hbias : cmTR_SWITCH ≠ cmPA_BIAS := by decide
  simp only [headApply, hundo, hid, hgain, hbias, Option.isSome_none, Bool.false_eq_true, if_false, if_true]

section
variable {d : Dev} {p tag : Nat} {r : CtrlReq} (hr : reqOf d p tag = some r) (hqueued : (d.port p).queued = [])
include hr hqueued

/-- A good ACK of a request other than GAIN_SET. -/
theorem ackMessage_good {id : Nat} (hid : r.id = id) (hkind : id = cmPA_BIAS ∨ id = cmTR_SWITCH ∨ id = cmLOOP_SET) :
    ackMessage d p tag [0, BitVec.ofNat 8 id] =
      if id = cmLOOP_SET then d.setPort p { (d.port p).answered r with loopApplied := field r.payload 0 1 }
      else (let e := headApply (d.setPort p ((d.port p).answered r)) p r
            e.setHead p { e.head p with undo := Tab.del (e.head p).undo tag }) := by
  have hcode : field [0, BitVec.ofNat 8 id] 1 1 = id := by rcases hkind with rfl | rfl | rfl <;> rfl
  have hstatus : field [0, BitVec.ofNat 8 id] 0 1 = 0 := rfl
  have hacked : [cmGAIN_SET, cmPA_BIAS, cmTR_SWITCH, cmLOOP_SET].contains id = true := by rcases hkind with rfl | rfl | rfl <;> rfl
  have hgain : id ≠ cmGAIN_SET := by rcases hkind with rfl | rfl | rfl <;> decide
  have hanswer : answerOk d p tag 0x84 2 [0, BitVec.ofNat 8 id] = true := by simp only [answerOk, hr, hid, hacked, hstatus]; rfl
  simp only [ackMessage, hr, hanswer, hcode, hacked, hstatus, hid, hgain, answered_unqueued hqueued, reqOf_tag hr, false_and, if_false,
    Bool.not_true, Bool.or_self, Bool.false_eq_true, beq_self_eq_true, Dev.port_setPort_same, Dev.setPort_setPort]

theorem ackMessage_loopSet (hid : r.id = cmLOOP_SET) :
    ackMessage d p tag [0, BitVec.ofNat 8 cmLOOP_SET] = d.setPort p { (d.port p).answered r with loopApplied := field r.payload 0 1 } :=
  (ackMessage_good hr hqueued hid (.inr (.inr rfl))).trans (if_pos rfl)

theorem ackMessage_paBias (hid : r.id = cmPA_BIAS) (hundo : Tab.find (d.head p).undo tag = none) :
    ackMessage d p tag [0, BitVec.ofNat 8 cmPA_BIAS] = (d.setPort p ((d.port p).answered r)).setHead p
      { d.head p with paOn := field r.payload 0 1 == 1, undo := Tab.del (d.head p).undo tag } := by
  have htag := reqOf_tag hr
  rw [ackMessage_good hr hqueued hid (.inl rfl), if_neg (by decide), headApply_paBias hid (by rw [htag]; exact hundo)]
  simp only [Dev.head_setHead_same, Dev.setHead_setHead, Dev.head_setPort, htag, Tab.del_put]

theorem ackMessage_trSwitch (hid : r.id = cmTR_SWITCH) (hundo : Tab.find (d.head p).undo tag = none) :
    ackMessage d p tag [0, BitVec.ofNat 8 cmTR_SWITCH] = (d.setPort p ((d.port p).answered r)).setHead p
      { d.head p with trTx := field r.payload 0 1 == 1, undo := Tab.del (d.head p).undo tag } := by
  have htag := reqOf_tag hr
  rw [ackMessage_good hr hqueued hid (.inr (.inl rfl)), if_neg (by decide), headApply_trSwitch hid (by rw [htag]; exact hundo)]
  simp only [Dev.head_setHead_same, Dev.setHead_setHead, Dev.head_setPort, htag, Tab.del_put]

/-! ### SYNTH_STATUS, CAL_DONE and TELEM (R128) -/

/-- What the head is when a path is tuned. -/
def Head.tuned (h : Head) (path : Nat) : Head := ({ h with tuning := h.tuning.filter (· != path) } : Head).arrived [synthNeed path]

theorem synthStatus_receive {bs : List Byte} (hid : r.id = cmSYNTH_TUNE) (hlen : bs.length = 6) (hok : field bs 0 1 = 0)
    (hpath : field bs 1 1 = 0) (hasked : field r.payload 0 1 = 0) (hst : d.portState p ≠ ylCALIBRATE) (hwanted : (d.head p).wanted = []) :
    ∃ f l, synthStatus d p tag bs =
      (d.setPort p ((d.port p).answered r)).setHead p { (d.head p).tuned 0 with failed := f, holds := l } := by
  obtain ⟨f, l, hdone⟩ := workOk_eq ((d.setPort p ((d.port p).answered r)).setHead p ((d.head p).tuned 0)) p 16
  rw [Dev.head_setHead_same, Dev.setHead_setHead] at hdone
  refine ⟨f, l, ?_⟩
  have hanswer : answerOk d p tag 0x82 6 bs = true := by simp [answerOk, hr, hid, hlen, hok]
  have hidle : (d.head p).wanted.contains 0 = false := by rw [hwanted]; rfl
  simp only [synthStatus, hr, hanswer, hpath, hok, hasked, answered_unqueued hqueued, Dev.head_setPort, hidle,
    Bool.not_true, Bool.false_or, decide_eq_true_eq, Nat.not_lt_zero, ne_eq, not_true, if_false, Bool.false_eq_true, Nat.add_zero]
  rw [← Head.tuned, hdone, nextTune_none, if_neg]
  · exact hst
  · rw [Dev.head_setHead_same]
    exact hwanted

/-- What the head is when a calibration kind is done. -/
def Head.calibrated (h : Head) (k ms : Nat) (temp : Option Int) : Head :=
  { ({ h with calRunning := none } : Head).arrived (calNeeds k) with
    lastRun := Tab.put h.lastRun k ⟨ms, temp⟩, due := h.due.filter (· != k),
    excess := if within k 2 4 then 0 else h.excess, excessPolls := if within k 2 4 then 0 else h.excessPolls }

theorem calDone_good {k : Nat} (hid : r.id = cmCAL_RUN) (hasked : field r.payload 0 1 = k) (hk : k < 6) (hst : d.portState p ≠ ylCALIBRATE)
    (hwanted : (d.head p).wanted = []) :
    ∃ temp f l, calDone d p tag [0, BitVec.ofNat 8 k, 0, 0] = (d.setPort p ((d.port p).answered r)).setHead p
      { (d.head p).calibrated k d.ms temp with failed := f, holds := l } := by
  obtain ⟨f, l, hdone⟩ := workOk_eq ((d.setPort p ((d.port p).answered r)).setHead p
    ((d.head p).calibrated k d.ms (kindTemp (d.setPort p ((d.port p).answered r)) p k))) p k
  rw [Dev.head_setHead_same, Dev.setHead_setHead] at hdone
  refine ⟨kindTemp (d.setPort p ((d.port p).answered r)) p k, f, l, ?_⟩
  have hstatus : field [0, BitVec.ofNat 8 k, 0, 0] 0 1 = 0 := rfl
  have hkind : field [0, BitVec.ofNat 8 k, 0, 0] 1 1 = k := field_ofNat_byte (by omega) _
  have hms : (d.setPort p ((d.port p).answered r)).ms = d.ms := rfl
  have hanswer : answerOk d p tag 0x83 4 [0, BitVec.ofNat 8 k, 0, 0] = true := by simp only [answerOk, hr, hid, hstatus]; rfl
  have hrange : ¬ 5 < k := by omega
  simp only [calDone, hr, hanswer, hkind, hstatus, hasked, hrange, hms, answered_unqueued hqueued, Dev.head_setPort,
    Bool.not_true, Bool.false_or, decide_eq_true_eq, ne_eq, not_true, if_false]
  rw [← Head.calibrated, hdone, nextTune_none, calStep_other]
  · exact hst
  · rw [Dev.head_setHead_same]
    exact hwanted

theorem telem_refused (hid : r.id = cmTELEM_POLL) (hsensors : dscSensors d p = 0) :
    telem d p tag [3, 0] = d.setPort p ((d.port p).answered r) := by
  simp [telem, hr, hid, hsensors, answered_unqueued hqueued, field, slice, unle]

end

/-! ### The descriptor's first part (R114) -/

/-- One part of 64 bytes is not the whole descriptor. -/
theorem descByte_part_lacks {o : Nat} {bs : List Byte} (hlen : bs.length = 64) :
    ((List.range 256).filterMap (descByte [(o, bs)])).length ≠ 256 := by
  intro hall
  have hsome := List.filterMap_length_eq_length.mp (hall.trans List.length_range.symm)
  have hbyte : ∀ a, a < 256 → o ≤ a ∧ a ≤ o + 63 := fun a ha => by
    have h := hsome a (List.mem_range.mpr ha)
    by_contra hout
    have hwithin : within a o (o + bs.length - 1) = false := decide_eq_false (by omega)
    simp [descByte, hwithin] at h
  have hfirst := hbyte 0 (by decide)
  have hlast := hbyte 255 (by decide)
  omega

theorem descComplete_part {d : Dev} {p o : Nat} {bs : List Byte} (h : (d.port p).descParts = [(o, bs)]) (hlen : bs.length = 64) :
    descComplete d p = d := by
  unfold descComplete
  rw [h]
  exact if_pos (descByte_part_lacks hlen)

theorem descData_first {d : Dev} {p tag o : Nat} {r : CtrlReq} {bs : List Byte} (hr : reqOf d p tag = some r)
    (hqueued : (d.port p).queued = []) (hid : r.id = cmDESC_READ) (ho : o < 256) (hlen : bs.length = 64)
    (hst : d.portState p = ylDESCRIBE) (hparts : (d.port p).descParts = []) :
    descData d p tag ([0, BitVec.ofNat 8 o, 64] ++ bs) = d.setPort p { (d.port p).answered r with descParts := [(o, bs)] } := by
  have hstatus : field ([0, BitVec.ofNat 8 o, 64] ++ bs) 0 1 = 0 := rfl
  have hoffset : field ([0, BitVec.ofNat 8 o, 64] ++ bs) 1 1 = o := field_ofNat_byte ho _
  have hcount : field ([0, BitVec.ofNat 8 o, 64] ++ bs) 2 1 = 64 := rfl
  have hanswer : answerOk d p tag 0x81 (3 + 64) ([0, BitVec.ofNat 8 o, 64] ++ bs) = true := by
    simp only [answerOk, hr, hid, hstatus, List.length_append, hlen]
    rfl
  have hnone : ((d.port p).answered r).descParts = [] := hparts
  simp only [descData, hr, hcount, hanswer, hstatus, hoffset, answered_unqueued hqueued, Dev.portState_setPort, hst, Dev.port_setPort_same,
    Dev.setPort_setPort, hnone, Bool.not_true, Bool.false_eq_true, ne_eq, not_true, or_self, if_false]
  have hkept : Tab.put ([] : Tab (List Byte)) o (([0, BitVec.ofNat 8 o, 64] ++ bs).drop 3) = [(o, bs)] := rfl
  rw [hkept]
  exact descComplete_part (congrArg Port.descParts (Dev.port_setPort_same d p _) :) hlen

/-! ### The commands -/

theorem ack_completes {p tag id : Nat} {r : CtrlReq} {s : State} (hup : s.dev.inReset = false) (hr : reqOf s.dev p tag = some r)
    (hid : r.id = id) (hkind : id = cmPA_BIAS ∨ id = cmTR_SWITCH ∨ id = cmLOOP_SET) (hqueued : (s.dev.port p).queued = [])
    (hundo : Tab.find (s.dev.head p).undo tag = none) :
    Completes (.ack p tag [0, BitVec.ofNat 8 id]) s [.ports, .hc] (fun _ => false) fun t =>
      (t.dev.port p).reqs = (s.dev.port p).reqs.filter (fun q => q.tag != tag) ∧ (t.dev.port p).fails = 0 ∧
      (id = cmPA_BIAS → t.dev.head p = { s.dev.head p with paOn := field r.payload 0 1 == 1, undo := (t.dev.head p).undo }) ∧
      (id = cmTR_SWITCH → t.dev.head p = { s.dev.head p with trTx := field r.payload 0 1 == 1, undo := (t.dev.head p).undo }) ∧
      Tab.find (t.dev.head p).undo tag = none ∧
      (id = cmLOOP_SET → (t.dev.port p).loopApplied = field r.payload 0 1) := by
  have hexec : exec (.ack p tag [0, BitVec.ofNat 8 id]) s = s.onDev fun d => ackMessage d p tag [0, BitVec.ofNat 8 id] := rfl
  have hport : (s.dev.setPort p ((s.dev.port p).answered r)).port p = (s.dev.port p).answered r := Dev.port_setPort_same _ _ _
  have hreqs := answered_reqs (x := s.dev.port p) (reqOf_tag hr)
  have hreleased : Tab.find (Tab.del (s.dev.head p).undo tag) tag = none := by simp [Tab.find_del]
  rcases hkind with rfl | rfl | rfl
  · have hhead := Dev.head_setHead_same (s.dev.setPort p ((s.dev.port p).answered r)) p
      { s.dev.head p with paOn := field r.payload 0 1 == 1, undo := Tab.del (s.dev.head p).undo tag }
    refine completes_of_onDev hexec hup (ackMessage_paBias hr hqueued hid hundo)
      (((Keeps.refl _).setPort (by decide) _ _).setHead (by decide) _ _) ⟨?_, ?_, fun _ => ?_, fun h => ?_, ?_, fun h => ?_⟩
    · exact (congrArg Port.reqs hport).trans hreqs
    · exact (congrArg Port.fails hport :)
    · dsimp only; rw [hhead]
    · exact absurd h (by decide)
    · exact (congrArg (fun x => Tab.find (Head.undo x) tag) hhead).trans hreleased
    · exact absurd h (by decide)
  · have hhead := Dev.head_setHead_same (s.dev.setPort p ((s.dev.port p).answered r)) p
      { s.dev.head p with trTx := field r.payload 0 1 == 1, undo := Tab.del (s.dev.head p).undo tag }
    refine completes_of_onDev hexec hup (ackMessage_trSwitch hr hqueued hid hundo)
      (((Keeps.refl _).setPort (by decide) _ _).setHead (by decide) _ _) ⟨?_, ?_, fun h => ?_, fun _ => ?_, ?_, fun h => ?_⟩
    · exact (congrArg Port.reqs hport).trans hreqs
    · exact (congrArg Port.fails hport :)
    · exact absurd h (by decide)
    · dsimp only; rw [hhead]
    · exact (congrArg (fun x => Tab.find (Head.undo x) tag) hhead).trans hreleased
    · exact absurd h (by decide)
  · have hlooped := Dev.port_setPort_same s.dev p { (s.dev.port p).answered r with loopApplied := field r.payload 0 1 }
    refine completes_of_onDev hexec hup (ackMessage_loopSet hr hqueued hid) ((Keeps.refl _).setPort (by decide) _ _)
      ⟨?_, ?_, fun h => ?_, fun h => ?_, hundo, fun _ => ?_⟩
    · exact (congrArg Port.reqs hlooped).trans hreqs
    · exact (congrArg Port.fails hlooped :)
    · exact absurd h (by decide)
    · exact absurd h (by decide)
    · exact (congrArg Port.loopApplied hlooped :)

theorem synthStatus_completes {p tag : Nat} {bs : List Byte} {r : CtrlReq} {s : State} (hup : s.dev.inReset = false)
    (hr : reqOf s.dev p tag = some r) (hid : r.id = cmSYNTH_TUNE) (hlen : bs.length = 6) (hok : field bs 0 1 = 0)
    (hpath : field bs 1 1 = 0) (hasked : field r.payload 0 1 = 0) (hst : s.dev.portState p = ylREADY)
    (hqueued : (s.dev.port p).queued = []) (hwanted : (s.dev.head p).wanted = [])
    (hneeds : ∀ n ∈ (s.dev.head p).needs, n / 2 = 0 → n = synthNeed 0) :
    Completes (.synthStatus p tag bs) s [.ports, .hc] (fun _ => false) fun t => (t.dev.head p).rxReady = true ∧
      (t.dev.head p).tuning = (s.dev.head p).tuning.filter (· != 0) ∧
      (t.dev.port p).reqs = (s.dev.port p).reqs.filter (fun q => q.tag != tag) := by
  obtain ⟨f, l, hdone⟩ := synthStatus_receive hr hqueued hid hlen hok hpath hasked (by rw [hst]; decide) hwanted
  have hhead := Dev.head_setHead_same (s.dev.setPort p ((s.dev.port p).answered r)) p { (s.dev.head p).tuned 0 with failed := f, holds := l }
  have hport : (s.dev.setPort p ((s.dev.port p).answered r)).port p = (s.dev.port p).answered r := Dev.port_setPort_same _ _ _
  have hready : ((s.dev.head p).tuned 0).rxReady = true :=
    Head.arrived_rxReady rfl fun n hn hpath => List.mem_singleton.mpr (hneeds n hn hpath)
  exact completes_of_onDev (g := fun d => synthStatus d p tag bs) rfl hup hdone
    (((Keeps.refl _).setPort (by decide) _ _).setHead (by decide) _ _)
    ⟨(congrArg Head.rxReady hhead).trans hready, (congrArg Head.tuning hhead :),
      (congrArg Port.reqs hport).trans (answered_reqs (reqOf_tag hr))⟩

theorem calNeeds_receive {k : Nat} (h : k ≤ 1) : (calNeeds k).any (· / 2 == 0) = true := by
  rw [calNeeds, calPaths, if_pos h]
  rfl

theorem calNeeds_transmit {k : Nat} (h : 1 < k) : (calNeeds k).any (· / 2 == 1) = true := by
  rw [calNeeds, calPaths, if_neg (Nat.not_le.mpr h)]
  split <;> rfl

theorem calDone_completes {p tag k : Nat} {r : CtrlReq} {s : State} (hup : s.dev.inReset = false) (hr : reqOf s.dev p tag = some r)
    (hid : r.id = cmCAL_RUN) (hasked : field r.payload 0 1 = k) (hk : k < 6) (hst : s.dev.portState p = ylREADY)
    (hqueued : (s.dev.port p).queued = []) (hwanted : (s.dev.head p).wanted = []) (hneeds : ∀ n ∈ (s.dev.head p).needs, n ∈ calNeeds k) :
    Completes (.calDone p tag [0, BitVec.ofNat 8 k, 0, 0]) s [.ports, .hc] (fun _ => false) fun t => (t.dev.head p).calRunning = none ∧
      (1 < k → (t.dev.head p).txReady = true) ∧ (k ≤ 1 → (t.dev.head p).rxReady = true) ∧
      (t.dev.head p).due = (s.dev.head p).due.filter (· != k) := by
  obtain ⟨temp, f, l, hdone⟩ := calDone_good hr hqueued hid hasked hk (by rw [hst]; decide) hwanted
  have hhead := Dev.head_setHead_same (s.dev.setPort p ((s.dev.port p).answered r)) p
    { (s.dev.head p).calibrated k s.dev.ms temp with failed := f, holds := l }
  have htx : 1 < k → ((s.dev.head p).calibrated k s.dev.ms temp).txReady = true := fun h =>
    Head.arrived_txReady (calNeeds_transmit h) fun n hn _ => hneeds n hn
  have hrx : k ≤ 1 → ((s.dev.head p).calibrated k s.dev.ms temp).rxReady = true := fun h =>
    Head.arrived_rxReady (calNeeds_receive h) fun n hn _ => hneeds n hn
  exact completes_of_onDev (g := fun d => calDone d p tag [0, BitVec.ofNat 8 k, 0, 0]) rfl hup hdone
    (((Keeps.refl _).setPort (by decide) _ _).setHead (by decide) _ _)
    ⟨(congrArg Head.calRunning hhead :), fun h => (congrArg Head.txReady hhead).trans (htx h),
      fun h => (congrArg Head.rxReady hhead).trans (hrx h), (congrArg Head.due hhead :)⟩

theorem telem_refused_completes {p tag : Nat} {r : CtrlReq} {s : State} (hup : s.dev.inReset = false) (hr : reqOf s.dev p tag = some r)
    (hid : r.id = cmTELEM_POLL) (hsensors : dscSensors s.dev p = 0) (hqueued : (s.dev.port p).queued = []) :
    Completes (.telem p tag [3, 0]) s [.ports] (fun _ => false) fun t => (t.dev.port p).telFails = 0 ∧ (t.dev.port p).fails = 0 ∧
      (t.dev.port p).reqs = (s.dev.port p).reqs.filter (fun q => q.tag != tag) := by
  have hport : (s.dev.setPort p ((s.dev.port p).answered r)).port p = (s.dev.port p).answered r := Dev.port_setPort_same _ _ _
  exact completes_of_onDev (g := fun d => telem d p tag [3, 0]) rfl hup (telem_refused hr hqueued hid hsensors)
    ((Keeps.refl _).setPort (by decide) _ _)
    ⟨(congrArg Port.telFails hport).trans (if_pos hid), (congrArg Port.fails hport :),
      (congrArg Port.reqs hport).trans (answered_reqs (reqOf_tag hr))⟩

theorem descData_first_completes {p tag o : Nat} {bs : List Byte} {r : CtrlReq} {s : State} (hup : s.dev.inReset = false)
    (hr : reqOf s.dev p tag = some r) (hid : r.id = cmDESC_READ) (ho : o < 256) (hlen : bs.length = 64)
    (hst : s.dev.portState p = ylDESCRIBE) (hparts : (s.dev.port p).descParts = []) (hqueued : (s.dev.port p).queued = []) :
    Completes (.descData p tag ([0, BitVec.ofNat 8 o, 64] ++ bs)) s [.ports] (fun _ => false) fun t =>
      (t.dev.port p).descParts = [(o, bs)] ∧ (t.dev.port p).reqs = (s.dev.port p).reqs.filter (fun q => q.tag != tag) := by
  have hport := Dev.port_setPort_same s.dev p { (s.dev.port p).answered r with descParts := [(o, bs)] }
  exact completes_of_onDev (g := fun d => descData d p tag ([0, BitVec.ofNat 8 o, 64] ++ bs)) rfl hup
    (descData_first hr hqueued hid ho hlen hst hparts) ((Keeps.refl _).setPort (by decide) _ _)
    ⟨(congrArg Port.descParts hport :), (congrArg Port.reqs hport).trans (answered_reqs (reqOf_tag hr))⟩

/-- Settles O27: each command's clause is its completion above. -/
theorem controlAnswers : Obligations.ControlAnswers := by
  unfold Obligations.ControlAnswers
  refine ⟨?stale, ?crc, ?unknown, ?timeout, ?ack, ?synth, ?cal, ?telem, ?desc⟩
  case stale => exact fun _ _ _ _ _ => answer_stale_completes
  case crc => exact fun _ _ _ => badCrc_completes
  case unknown => exact fun _ _ _ _ _ => unknownId_completes
  case timeout => exact fun _ _ _ _ => requestTimeout_completes
  case ack => exact fun _ _ _ _ _ => ack_completes
  case synth => exact fun _ _ _ _ _ => synthStatus_completes
  case cal => exact fun _ _ _ _ _ => calDone_completes
  case telem => exact fun _ _ _ _ => telem_refused_completes
  case desc => exact fun _ _ _ _ _ _ hup hr hid _ _ ho hlen hst hparts hqueued =>
    descData_first_completes hup hr hid ho hlen hst hparts hqueued

end Sys2Proof.Machine
end

section
/-! SUPPORT. What head control's shared operations leave of a head and of the other heads: kinds scheduled, a calibration run, a change of gain
(05_head_control.md R126, R129, R130, R133). -/

namespace Sys2Proof.Machine

/-! ### Heads, fields and requests -/

theorem Dev.head_setHead_other (d : Dev) {p q : Nat} (h : q ≠ p) (x : Head) : (d.setHead p x).head q = d.head q := by
  simp [Dev.head, Dev.setHead, h]

theorem Dev.fld_setBit_same (d : Dev) {f : Fld} (hlo : f.lo ≤ f.hi) (hhi : f.hi < 32) (b : Bool) : (d.setBit f b).fld f = b2n b := by
  have hpow : 2 ^ 1 ≤ 2 ^ (f.hi + 1 - f.lo) := Nat.pow_le_pow_right (by decide) (by omega)
  have hb : b2n b < 2 := by cases b <;> decide
  rw [Dev.setBit, Dev.fld_setFld_same _ _ _ hhi, Nat.mod_eq_of_lt (by omega)]

theorem Keeps.hc {ps : List Part} {rs : Nat → Bool} {d e : Dev} (h : Keeps ps rs d e) (hp : Part.hc ∈ ps) (x : Hc) :
    Keeps ps rs d { e with hc := x } :=
  h.trans ⟨fun p hn => by cases p with | hc => exact absurd hp hn | _ => rfl, fun _ _ => rfl⟩

theorem head_ctrlSend (d : Dev) (p id : Nat) (payload : List Byte) (at? : Option Nat) (q : Nat) :
    (ctrlSend d p id payload at?).head q = d.head q := by
  dsimp only [ctrlSend]
  split <;> rfl

theorem outs_ctrlSend {d : Dev} {p : Nat} (h : (d.port p).reqs.length < 16) (id : Nat) (payload : List Byte) (at? : Option Nat) :
    ∃ x, (ctrlSend d p id payload at?).outs = .control p id x payload :: d.outs :=
  ⟨_, congrArg Dev.outs (ctrlSend_room h id payload at?)⟩

theorem endPort_idle {d : Dev} (h : d.rx.ctx = []) (p r : Nat) : endPort d p r = d := by
  rw [endPort, h]
  rfl

/-! ### Kinds scheduled (R129, R153) -/

theorem scheduleKinds_keeps (d : Dev) (p : Nat) (ks : List Nat) : Keeps [.hc] (fun _ => false) d (scheduleKinds d p ks) :=
  (Keeps.refl d).setHead (by decide) _ _

theorem head_scheduleKinds_other (d : Dev) {p q : Nat} (h : q ≠ p) (ks : List Nat) : (scheduleKinds d p ks).head q = d.head q :=
  Dev.head_setHead_other d h _

theorem due_scheduleKinds {d : Dev} {p : Nat} (h : (d.head p).due = []) (ks : List Nat) :
    ((scheduleKinds d p ks).head p).due = ks.filter fun k => nbit (dscCalMask d p) k := by
  simp [scheduleKinds, h]

theorem scheduleKinds_one {d : Dev} {p k : Nat} (hmask : nbit (dscCalMask d p) k = true) (hdue : (d.head p).due.contains k = false) :
    scheduleKinds d p [k] =
      d.setHead p { d.head p with due := (d.head p).due ++ [k], dueAt := Tab.put (d.head p).dueAt k d.ns } := by
  simp only [scheduleKinds, List.filter_cons, hmask, hdue, Bool.not_false, Bool.and_self, if_true, List.filter_nil, List.foldl_cons,
    List.foldl_nil]

/-! ### A kind awaited and run (R126, R128, R130) -/

theorem calNeeds_not_transmit {k : Nat} (h : k ≤ 1) : (calNeeds k).any (· / 2 == 1) = false := by
  rw [calNeeds, calPaths, if_pos h]
  rfl

theorem calNeeds_not_receive {k : Nat} (h : 1 < k) (h4 : k ≤ 4) : (calNeeds k).any (· / 2 == 0) = false := by
  rw [calNeeds, calPaths, if_neg (Nat.not_le.mpr h), if_pos h4]
  rfl

/-- What a head is while a kind runs on it. -/
def Head.running (h : Head) (k : Nat) : Head := { h.await (calNeeds k) with calRunning := some k }

theorem Head.running_rxReady (h : Head) (k : Nat) : (h.running k).rxReady = (h.rxReady && !(calNeeds k).any (· / 2 == 0)) := rfl
theorem Head.running_txReady (h : Head) (k : Nat) : (h.running k).txReady = (h.txReady && !(calNeeds k).any (· / 2 == 1)) := rfl

/-- No context ends as a kind begins where the port feeds none, or where the kind leaves the receive path alone. -/
theorem calRun_eq {d : Dev} {p k : Nat} (h : d.rx.ctx = [] ∨ (calNeeds k).any (· / 2 == 0) = false) :
    calRun d p k = ctrlSend (d.setHead p ((d.head p).running k)) p cmCAL_RUN (le 1 k) none := by
  have hpaths : pathsDown d p (calNeeds k) = d.setHead p ((d.head p).await (calNeeds k)) := by
    rcases h with hctx | hreceive
    · have hsame := endPort_idle (d := d.setHead p ((d.head p).await (calNeeds k))) hctx p rxLOST_HEAD
      simp only [pathsDown, hsame, ite_self]
    · simp only [pathsDown, hreceive, Bool.false_eq_true, if_false]
  rw [calRun, hpaths, Dev.head_setHead_same, Dev.setHead_setHead, Head.running]

section
variable {d : Dev} {p k : Nat} (h : d.rx.ctx = [] ∨ (calNeeds k).any (· / 2 == 0) = false)
include h

theorem head_calRun : (calRun d p k).head p = (d.head p).running k := by
  rw [calRun_eq h, head_ctrlSend, Dev.head_setHead_same]

theorem outs_calRun (hroom : (d.port p).reqs.length < 16) : ∃ x, (calRun d p k).outs = .control p cmCAL_RUN x (le 1 k) :: d.outs := by
  rw [calRun_eq h]
  exact outs_ctrlSend (d := d.setHead p ((d.head p).running k)) hroom _ _ _

theorem calRun_keeps : Keeps [.ports, .hc, .outs] (fun _ => false) d (calRun d p k) := by
  rw [calRun_eq h]
  exact ((Keeps.refl d).setHead (by decide) _ _).ctrlSend (by decide) (by decide) _ _ _ _

end

/-! ### Whether a kind may run (R126, R129) -/

theorem calRunning_setHead {d : Dev} {p : Nat} {x : Head} (h : x.calRunning = (d.head p).calRunning) (q : Nat) :
    ((d.setHead p x).head q).calRunning = (d.head q).calRunning := by
  by_cases hq : q = p
  · rw [hq, Dev.head_setHead_same, h]
  · rw [Dev.head_setHead_other d hq]

theorem Head.busy_congr {x y : Head} (hrunning : x.calRunning = y.calRunning) (htuning : x.tuning = y.tuning) (path : Nat) :
    x.busy path = y.busy path := by
  rw [Head.busy, hrunning, htuning, Head.busy]

/-- Of a head it matters what runs and is tuned there. -/
theorem calAllowed_setHead {d : Dev} {p : Nat} {x : Head} (hrunning : x.calRunning = (d.head p).calRunning)
    (htuning : x.tuning = (d.head p).tuning) (k : Nat) : calAllowed (d.setHead p x) p k = calAllowed d p k := by
  have hcalibrating : calibrating (d.setHead p x) = calibrating d := by
    simp only [calibrating, calRunning_setHead hrunning, Dev.portState_setHead]
  have htopo : (d.setHead p x).topo = d.topo := rfl
  simp only [calAllowed, hcalibrating, calRunning_setHead hrunning, Dev.portState_setHead, Dev.head_setHead_same,
    Head.busy_congr hrunning htuning, hrunning, htopo]

end Sys2Proof.Machine
end

section
/-! PROOF. Calibration of a head in service (05_head_control.md R126, R128 to R131). -/

namespace Sys2Proof.Machine

/-! ### Kinds that become due (R129, R153) -/

theorem calAge_due {d : Dev} {p k : Nat} (hst : d.portState p = ylREADY) (hk : k ≤ 4) : calAge d p k = scheduleKinds d p [k] :=
  if_pos ⟨hst, hk⟩

theorem calAgeExpiry_completes {p k : Nat} {s : State} (hup : s.dev.inReset = false) (hst : s.dev.portState p = ylREADY) (hk : k ≤ 4)
    (hmask : nbit (dscCalMask s.dev p) k = true) (hdue : (s.dev.head p).due.contains k = false) :
    Completes (.calAgeExpiry p k) s [.hc] (fun _ => false) fun t =>
      t.dev.head p = { s.dev.head p with due := (s.dev.head p).due ++ [k], dueAt := Tab.put (s.dev.head p).dueAt k s.dev.ns } ∧
      ∀ q, q ≠ p → t.dev.head q = s.dev.head q :=
  completes_of_onDev (g := fun d => calAge d p k) rfl hup ((calAge_due hst hk).trans (scheduleKinds_one hmask hdue))
    ((Keeps.refl _).setHead (by decide) _ _) ⟨Dev.head_setHead_same _ _ _, fun _ hq => Dev.head_setHead_other _ hq _⟩

/-- The device when the recalibration asked for is taken up: no head waits for one. -/
def recalsTaken (d : Dev) : Dev := ({ d with hc := { d.hc with recals := [] } }).setBit HC_CTRL_recal_req false

theorem recalRequest_ready {d : Dev} (hst : d.portState (d.fld HC_SEL_head) = ylREADY) (hnone : d.hc.recals = []) :
    recalRequest d = scheduleKinds (recalsTaken d) (d.fld HC_SEL_head) [0, 1, 2, 3, 4] := by
  simp [recalRequest, recalSchedule, recalsTaken, hst, hnone]

theorem recalRequest_waits {d : Dev} (hst : d.portState (d.fld HC_SEL_head) ≠ ylREADY) :
    recalRequest d = ({ d with hc := { d.hc with recals := d.fld HC_SEL_head :: d.hc.recals.filter (· != d.fld HC_SEL_head) } }).setBit
      HC_CTRL_recal_req true := if_neg hst

theorem recalRequest_ready_completes {s : State} (hup : s.dev.inReset = false) (hst : s.dev.portState (s.dev.fld HC_SEL_head) = ylREADY)
    (hdue : (s.dev.head (s.dev.fld HC_SEL_head)).due = []) (hnone : s.dev.hc.recals = []) :
    Completes .recalRequest s [.hc] (fun a => a == HC_CTRL) fun t => t.dev.fld HC_CTRL_recal_req = 0 ∧ t.dev.hc.recals = [] ∧
      (t.dev.head (s.dev.fld HC_SEL_head)).due = [0, 1, 2, 3, 4].filter (fun k => nbit (dscCalMask s.dev (s.dev.fld HC_SEL_head)) k) ∧
      ∀ q, q ≠ s.dev.fld HC_SEL_head → t.dev.head q = s.dev.head q := by
  have htaken : Keeps [.hc] (fun a => a == HC_CTRL) s.dev (recalsTaken s.dev) := ((Keeps.refl _).hc (by decide) _).setBit rfl _
  exact completes_of_onDev (g := recalRequest) rfl hup (recalRequest_ready hst hnone)
    (htaken.trans ((scheduleKinds_keeps _ _ _).mono (by decide) fun _ ha => nomatch ha))
    ⟨Dev.fld_setBit_same _ (by decide) (by decide) false, rfl, due_scheduleKinds (d := recalsTaken s.dev) hdue _,
      fun _ hq => head_scheduleKinds_other (recalsTaken s.dev) hq _⟩

theorem recalRequest_waits_completes {s : State} (hup : s.dev.inReset = false) (hst : s.dev.portState (s.dev.fld HC_SEL_head) ≠ ylREADY) :
    Completes .recalRequest s [.hc] (fun a => a == HC_CTRL) fun t => t.dev.fld HC_CTRL_recal_req = 1 ∧
      t.dev.hc = { s.dev.hc with recals := s.dev.fld HC_SEL_head :: s.dev.hc.recals.filter (· != s.dev.fld HC_SEL_head) } :=
  completes_of_onDev (g := recalRequest) rfl hup (recalRequest_waits hst) (((Keeps.refl _).hc (by decide) _).setBit rfl _)
    ⟨Dev.fld_setBit_same _ (by decide) (by decide) true, rfl⟩

/-! ### A kind that starts (R129, R130) -/

theorem calStart_due {d : Dev} {p k : Nat} (hdue : (d.head p).due.contains k = true) (hallowed : calAllowed d p k = true)
    (hinstant : calInstant d p k = true) :
    calStart d p k = calRun (d.setHead p { d.head p with due := (d.head p).due.filter (· != k) }) p k :=
  if_pos (by rw [hdue, hallowed, hinstant]; rfl)

theorem calStart_completes {p k : Nat} {s : State} (hup : s.dev.inReset = false) (hdue : (s.dev.head p).due.contains k = true)
    (hallowed : calAllowed s.dev p k = true) (hinstant : calInstant s.dev p k = true) (hctx : s.dev.rx.ctx = [])
    (hroom : (s.dev.port p).reqs.length < 16) :
    Completes (.calStart p k) s [.ports, .hc, .outs] (fun _ => false) fun t => (t.dev.head p).calRunning = some k ∧
      (t.dev.head p).due = (s.dev.head p).due.filter (· != k) ∧
      (k ≤ 1 → (t.dev.head p).rxReady = false ∧ (t.dev.head p).txReady = (s.dev.head p).txReady) ∧
      (1 < k ∧ k ≤ 4 → (t.dev.head p).txReady = false ∧ (t.dev.head p).rxReady = (s.dev.head p).rxReady) ∧
      ∃ x, t.dev.outs = .control p cmCAL_RUN x (le 1 k) :: s.dev.outs := by
  have hidle : (s.dev.setHead p { s.dev.head p with due := (s.dev.head p).due.filter (· != k) }).rx.ctx = [] := hctx
  have hhead := head_calRun (k := k) (p := p) (.inl hidle)
  rw [Dev.head_setHead_same] at hhead
  refine completes_of_onDev (g := fun d => calStart d p k) rfl hup (calStart_due hdue hallowed hinstant)
    (((Keeps.refl _).setHead (by decide) _ _).trans (calRun_keeps (.inl hidle))) ?_
  simp only [hhead]
  refine ⟨rfl, rfl, fun hreceive => ⟨?_, ?_⟩, fun ⟨hlow, hhigh⟩ => ⟨?_, ?_⟩, outs_calRun (.inl hidle) hroom⟩
  · rw [Head.running_rxReady, calNeeds_receive hreceive, Bool.not_true, Bool.and_false]
  · rw [Head.running_txReady, calNeeds_not_transmit hreceive, Bool.not_false, Bool.and_true]
  · rw [Head.running_txReady, calNeeds_transmit hlow, Bool.not_true, Bool.and_false]
  · rw [Head.running_rxReady, calNeeds_not_receive hlow hhigh, Bool.not_false, Bool.and_true]

/-! ### A kind that failed and runs again (R131) -/

theorem runAgain_kind {d : Dev} {p k : Nat} (hk : k < 16) (hallowed : calAllowed d p k = true) : runAgain d p k = calRun d p k := by
  rw [runAgain, if_neg (Nat.not_le.mpr hk), if_pos hallowed]

theorem calRetry_once {d : Dev} {p k : Nat} (hst : d.portState p = ylREADY) (hk : k < 16) (hfailed : (d.head p).failed = [k])
    (hallowed : calAllowed d p k = true) : calRetry d p k = calRun (d.setHead p { d.head p with failed := [k + 32] }) p k := by
  have hfirst : d.portState p = ylREADY ∧ (d.head p).failed.contains k ∧ k < 32 := ⟨hst, by simp [hfailed], by omega⟩
  have hrecord : (k + 32) :: (d.head p).failed.filter (· != k) = [k + 32] := by simp [hfailed]
  have hagain := (calAllowed_setHead (x := { d.head p with failed := [k + 32] }) rfl rfl k).trans hallowed
  rw [calRetry, if_pos hfirst, hrecord]
  exact runAgain_kind hk hagain

theorem calRetry_completes {p k : Nat} {s : State} (hup : s.dev.inReset = false) (hst : s.dev.portState p = ylREADY) (hk : k < 6)
    (hfailed : (s.dev.head p).failed = [k]) (hallowed : calAllowed s.dev p k = true) (hctx : s.dev.rx.ctx = [])
    (hroom : (s.dev.port p).reqs.length < 16) :
    Completes (.calRetry p k) s [.ports, .hc, .outs] (fun _ => false) fun t => (t.dev.head p).calRunning = some k ∧
      (t.dev.head p).failed = [k + 32] ∧ ∃ x, t.dev.outs = .control p cmCAL_RUN x (le 1 k) :: s.dev.outs := by
  have hidle : (s.dev.setHead p { s.dev.head p with failed := [k + 32] }).rx.ctx = [] := hctx
  have hhead := head_calRun (k := k) (p := p) (.inl hidle)
  rw [Dev.head_setHead_same] at hhead
  refine completes_of_onDev (g := fun d => calRetry d p k) rfl hup (calRetry_once hst (by omega) hfailed hallowed)
    (((Keeps.refl _).setHead (by decide) _ _).trans (calRun_keeps (.inl hidle))) ?_
  simp only [hhead]
  exact ⟨rfl, rfl, outs_calRun (.inl hidle) hroom⟩

theorem calHoldRetry_one {d : Dev} {p k : Nat} (hst : d.portState p = ylREADY) (hk : k < 16) (hfailed : (d.head p).failed = [k + 64])
    (hallowed : calAllowed d p k = true) : calHoldRetry d p = calRun d p k := by
  have hheld : (d.head p).failed.filter (fun k => decide (64 ≤ k)) = [k + 64] := by simp [hfailed]
  rw [calHoldRetry, if_neg (not_not.mpr hst), hheld, List.foldl_cons, List.foldl_nil, Nat.add_sub_cancel, runAgain_kind hk hallowed]

theorem calHoldRetry_completes {p k : Nat} {s : State} (hup : s.dev.inReset = false) (hst : s.dev.portState p = ylREADY)
    (hk : within k 2 4 = true) (hfailed : (s.dev.head p).failed = [k + 64]) (hallowed : calAllowed s.dev p k = true)
    (hroom : (s.dev.port p).reqs.length < 16) :
    Completes (.calHoldRetry p) s [.ports, .hc, .outs] (fun _ => false) fun t => (t.dev.head p).calRunning = some k ∧
      (t.dev.head p).txReady = false ∧ ∃ x, t.dev.outs = .control p cmCAL_RUN x (le 1 k) :: s.dev.outs := by
  obtain ⟨h2, h4⟩ : 2 ≤ k ∧ k ≤ 4 := of_decide_eq_true hk
  have htransmit := calNeeds_not_receive h2 h4
  refine completes_of_onDev (g := fun d => calHoldRetry d p) rfl hup (calHoldRetry_one hst (by omega) hfailed hallowed)
    (calRun_keeps (.inr htransmit)) ?_
  simp only [head_calRun (.inr htransmit)]
  refine ⟨rfl, ?_, outs_calRun (.inr htransmit) hroom⟩
  rw [Head.running_txReady, calNeeds_transmit h2, Bool.not_true, Bool.and_false]

/-- Settles O29: each command's clause is its completion above. -/
theorem headCalibration : Obligations.HeadCalibration := by
  unfold Obligations.HeadCalibration
  refine ⟨?age, ?recal, ?waits, ?start, ?retry, ?hold⟩
  case age => exact fun _ _ _ => calAgeExpiry_completes
  case recal => exact fun _ => recalRequest_ready_completes
  case waits => exact fun _ => recalRequest_waits_completes
  case start => exact fun _ _ _ => calStart_completes
  case retry => exact fun _ _ _ => calRetry_completes
  case hold => exact fun _ _ _ => calHoldRetry_completes

end Sys2Proof.Machine
end

section
/-! PROOF. The receive gain, the instants of timed commands and the wake receiver (05_head_control.md R132, R133, R140, R149 to R151). -/

namespace Sys2Proof.Machine

/-! ### A window of the receive gain (R132) -/

theorem gainWindow_inside {d : Dev} {p peaks mean : Nat} (hst : d.portState p = ylREADY) (hpeaks : peaks ≤ 16) (hhigh : mean ^ 2 ≤ 10 ^ 21)
    (hlow : 10 ^ 17 ≤ mean ^ 2) : gainWindow d p peaks mean = d.setHead p { d.head p with loud := 0, quiet := 0 } := by
  have hloud : ¬ 10 ^ 21 < mean ^ 2 := Nat.not_lt.mpr hhigh
  have hquiet : ¬ mean ^ 2 < 10 ^ 17 := Nat.not_lt.mpr hlow
  simp only [gainWindow, hst, ne_eq, not_true, if_false, hloud, hquiet, Nat.not_lt.mpr hpeaks]
  rfl

/-- The head when a change of its receive gain has been sent. -/
def Head.gainSent (h : Head) (code now : Nat) : Head :=
  { h with gainPending := some ⟨code, h.rxGain, h.gainComp, false⟩, gainAt := some now, loud := 0, quiet := 0 }

theorem gainChange_sent {d : Dev} {p code : Nat} (hcode : code ≠ (d.head p).rxGain) (hpending : (d.head p).gainPending = none) :
    gainChange d p code = ctrlSend (d.setHead p ((d.head p).gainSent code d.ns)) p cmGAIN_SET
      (le 1 0 ++ le 2 code ++ le 5 (atField d p (d.ns + 20000))) (some (d.ns + 20000)) :=
  if_neg (by simp [hcode, hpending])

theorem gainDown2_first {d : Dev} {p : Nat} (h : (d.head p).gainAt = none) : gainDown2 d p = gainChange d p ((d.head p).rxGain - 2) := by
  simp only [gainDown2, h]

theorem gainWindow_peaks {d : Dev} {p peaks : Nat} (hst : d.portState p = ylREADY) (hpeaks : 16 < peaks) (mean : Nat) :
    ∃ loud quiet, gainWindow d p peaks mean = gainDown2 (d.setHead p { d.head p with loud := loud, quiet := quiet }) p :=
  ⟨_, _, (if_neg (not_not.mpr hst)).trans (if_pos hpeaks)⟩

theorem gainWindow_falls {d : Dev} {p peaks mean : Nat} (hst : d.portState p = ylREADY) (hpeaks : 16 < peaks)
    (hgain : 2 ≤ (d.head p).rxGain) (hat : (d.head p).gainAt = none) (hpending : (d.head p).gainPending = none) :
    gainWindow d p peaks mean = ctrlSend (d.setHead p ((d.head p).gainSent ((d.head p).rxGain - 2) d.ns)) p cmGAIN_SET
      (le 1 0 ++ le 2 ((d.head p).rxGain - 2) ++ le 5 (atField d p (d.ns + 20000))) (some (d.ns + 20000)) := by
  obtain ⟨loud, quiet, hwindow⟩ := gainWindow_peaks hst hpeaks mean
  have hhead := Dev.head_setHead_same d p { d.head p with loud := loud, quiet := quiet }
  rw [hwindow, gainDown2_first (by rw [hhead]; exact hat),
    gainChange_sent (by rw [hhead]; dsimp only; omega) (by rw [hhead]; exact hpending), hhead, Dev.setHead_setHead]
  rfl

theorem gainWindow_inside_completes {p peaks mean : Nat} {s : State} (hup : s.dev.inReset = false) (hst : s.dev.portState p = ylREADY)
    (hpeaks : peaks ≤ 16) (hhigh : mean ^ 2 ≤ 10 ^ 21) (hlow : 10 ^ 17 ≤ mean ^ 2) :
    Completes (.gainWindow p peaks mean) s [.hc] (fun _ => false) fun t => t.dev.head p = { s.dev.head p with loud := 0, quiet := 0 } :=
  completes_of_onDev (g := fun d => gainWindow d p peaks mean) rfl hup (gainWindow_inside hst hpeaks hhigh hlow)
    ((Keeps.refl _).setHead (by decide) _ _) (Dev.head_setHead_same _ _ _)

theorem gainWindow_falls_completes {p peaks mean : Nat} {s : State} (hup : s.dev.inReset = false) (hst : s.dev.portState p = ylREADY)
    (hpeaks : 16 < peaks) (hgain : 2 ≤ (s.dev.head p).rxGain) (hat : (s.dev.head p).gainAt = none)
    (hpending : (s.dev.head p).gainPending = none) (hroom : (s.dev.port p).reqs.length < 16) :
    Completes (.gainWindow p peaks mean) s [.ports, .hc, .outs] (fun _ => false) fun t => (t.dev.head p).rxGain = (s.dev.head p).rxGain ∧
      (t.dev.head p).gainPending = some ⟨(s.dev.head p).rxGain - 2, (s.dev.head p).rxGain, (s.dev.head p).gainComp, false⟩ ∧
      (t.dev.head p).gainAt = some s.dev.ns ∧
      ∃ x, t.dev.outs = .control p cmGAIN_SET x (le 1 0 ++ le 2 ((s.dev.head p).rxGain - 2) ++ le 5 (atField s.dev p (s.dev.ns + 20000))) :: s.dev.outs := by
  refine completes_of_onDev (g := fun d => gainWindow d p peaks mean) rfl hup (gainWindow_falls hst hpeaks hgain hat hpending)
    (((Keeps.refl _).setHead (by decide) _ _).ctrlSend (by decide) (by decide) _ _ _ _) ?_
  simp only [head_ctrlSend, Dev.head_setHead_same]
  exact ⟨rfl, rfl, rfl, outs_ctrlSend (d := s.dev.setHead p _) hroom _ _ _⟩

/-! ### The instant of a timed command (R133, R140) -/

/-- The head when a change of its receive gain acts, of the old curve value minus the new. -/
def Head.gainActs (h : Head) (g : GainChange) (comp : Int) : Head :=
  { h with rxGain := g.code, gainComp := comp, gainPending := some { g with applied := true } }

theorem gainApply_pending {d : Dev} {p : Nat} {g : GainChange} (h : (d.head p).gainPending = some g) :
    gainApply d p = noteGain (d.setHead p ((d.head p).gainActs g (dscRxGain d p g.prevCode - dscRxGain d p g.code))) p := by
  simp only [gainApply, h, Head.gainActs]

theorem noteGain_keeps (d : Dev) (p : Nat) : Keeps [.rx] (fun _ => false) d (noteGain d p) := (Keeps.refl d).rx (by decide) _

/-- A new gain changes no context's key. -/
theorem keys_noteGain (d : Dev) (p : Nat) : (noteGain d p).rx.ctx.map (·.1) = d.rx.ctx.map (·.1) := by
  simp only [noteGain, List.map_map]
  refine List.map_congr_left fun e _ => ?_
  dsimp only [Function.comp]
  split <;> rfl

section
variable {d : Dev} {p tag : Nat} {r : CtrlReq} (hr : reqOf d p tag = some r) (hundo : Tab.find (d.head p).undo tag = none)
include hr

/-- Only the switch to transmit blanks the detectors. -/
theorem atInstant_other (h : ¬ (r.id = cmTR_SWITCH ∧ field r.payload 0 1 = 1)) : atInstant d p tag = headApply d p r := by
  simp only [atInstant, hr, h, if_false]

include hundo

theorem atInstant_gainSet {g : GainChange} (hid : r.id = cmGAIN_SET) (hpath : field r.payload 0 1 = 0)
    (hpending : (d.head p).gainPending = some g) :
    atInstant d p tag = noteGain (d.setHead p ((d.head p).gainActs g (dscRxGain d p g.prevCode - dscRxGain d p g.code))) p := by
  have hfresh : Tab.find (d.head p).undo r.tag = none := (reqOf_tag hr).symm ▸ hundo
  rw [atInstant_other hr (by rw [hpath]; simp), ← gainApply_pending hpending]
  simp only [headApply, hfresh, hid, hpath, Option.isSome_none, Bool.false_eq_true, if_false, if_true]

theorem atInstant_toReceive (hid : r.id = cmTR_SWITCH) (hto : field r.payload 0 1 = 0) :
    atInstant d p tag = d.setHead p { d.head p with undo := Tab.put (d.head p).undo tag (b2n (d.head p).trTx), trTx := false } := by
  have htag := reqOf_tag hr
  rw [atInstant_other hr (by rw [hto]; simp), headApply_trSwitch hid (htag.symm ▸ hundo), hto, htag]
  rfl

end

theorem atInstant_gainSet_completes {p tag : Nat} {r : CtrlReq} {g : GainChange} {s : State} (hup : s.dev.inReset = false)
    (hr : reqOf s.dev p tag = some r) (hid : r.id = cmGAIN_SET) (hpath : field r.payload 0 1 = 0)
    (hpending : (s.dev.head p).gainPending = some g) (hundo : Tab.find (s.dev.head p).undo tag = none) :
    Completes (.atInstant p tag) s [.hc, .rx] (fun _ => false) fun t => (t.dev.head p).rxGain = g.code ∧
      t.dev.rx.ctx.map (·.1) = s.dev.rx.ctx.map (·.1) ∧
      (t.dev.head p).gainComp = dscRxGain s.dev p g.prevCode - dscRxGain s.dev p g.code ∧
      (t.dev.head p).gainPending = some { g with applied := true } := by
  have hhead := Dev.head_setHead_same s.dev p
    ((s.dev.head p).gainActs g (dscRxGain s.dev p g.prevCode - dscRxGain s.dev p g.code))
  exact completes_of_onDev (g := fun d => atInstant d p tag) rfl hup (atInstant_gainSet hr hundo hid hpath hpending)
    (((Keeps.refl _).setHead (by decide) _ _).trans ((noteGain_keeps _ _).mono (by decide) fun _ ha => ha))
    ⟨(congrArg Head.rxGain hhead :), keys_noteGain _ _, (congrArg Head.gainComp hhead :), (congrArg Head.gainPending hhead :)⟩

theorem atInstant_toReceive_completes {p tag : Nat} {r : CtrlReq} {s : State} (hup : s.dev.inReset = false)
    (hr : reqOf s.dev p tag = some r) (hid : r.id = cmTR_SWITCH) (hto : field r.payload 0 1 = 0)
    (hundo : Tab.find (s.dev.head p).undo tag = none) :
    Completes (.atInstant p tag) s [.hc] (fun _ => false) fun t =>
      t.dev.head p = { s.dev.head p with trTx := false, undo := (t.dev.head p).undo } := by
  refine completes_of_onDev (g := fun d => atInstant d p tag) rfl hup (atInstant_toReceive hr hundo hid hto)
    ((Keeps.refl _).setHead (by decide) _ _) ?_
  dsimp only
  rw [Dev.head_setHead_same]

theorem blankingEnd_receiving {d : Dev} {p : Nat} (h : (d.head p).trTx = false) :
    blankingEnd d p = d.setHead p { d.head p with blanked := false } := if_neg (by rw [h]; decide)

theorem blankingEnd_completes {p : Nat} {s : State} (hup : s.dev.inReset = false) (htx : (s.dev.head p).trTx = false) :
    Completes (.blankingEnd p) s [.hc] (fun _ => false) fun t => t.dev.head p = { s.dev.head p with blanked := false } :=
  completes_of_onDev (g := fun d => blankingEnd d p) rfl hup (blankingEnd_receiving htx) ((Keeps.refl _).setHead (by decide) _ _)
    (Dev.head_setHead_same _ _ _)

/-! ### The wake receiver (R149 to R151) -/

/-- A command that the Kettle answers and whose device is known. -/
theorem completes_of_onKettle_eq {c : Instr} {s : State} {g : Dev → Dev} {d : Dev} {ps : List Part} {rs : Nat → Bool} {P : State → Prop}
    (hc : exec c s = s.onKettle g) (hg : g s.dev = d) (hk : Keeps ps rs s.dev d) (hP : P { s with dev := d }) : Completes c s ps rs P := by
  subst hg
  exact completes_of_onKettle hc hk.parts hk.regs hP

/-- While POR_N is low an event is not recorded. -/
theorem raise_down {d : Dev} (h : d.inReset = true) (s unit detail : Nat) : raise d s unit detail = d := if_pos (by rw [h]; rfl)

theorem codeDiff_self (c : Nat) : codeDiff c c = 0 := by
  simp [codeDiff, nbit]

theorem whistleReceived_noCode {d : Dev} (hen : d.fld KTL_WAKE_CTRL_rx_en = 1) (hcode : d.fld KTL_WAKE_CODE_code ≠ 0) :
    whistleReceived d none = d.inc KTL_WAKE_COUNT_false_starts := by
  simp [whistleReceived, Dev.bit_eq, hen, hcode]

/-- The device when an accepted wake has been counted and its time noted. -/
def wakeCounted (d : Dev) : Dev :=
  { (d.inc KTL_WAKE_COUNT_wakes).setFld KTL_WAKE_TIME_seconds d.ktl.sec with ktl := { d.ktl with wakes := d.ktl.sec :: d.ktl.wakes } }

/-- The device when that wake asks for power. -/
def wakeTaken (d : Dev) : Dev := ((wakeCounted d).setBit KTL_WAKE_CTRL_pwr_req true).setBit KTL_WAKE_STATUS_woke true

theorem whistleReceived_ownCode {d : Dev} (hen : d.fld KTL_WAKE_CTRL_rx_en = 1) (hcode : d.fld KTL_WAKE_CODE_code ≠ 0)
    (hlimit : d.fld KTL_WAKE_CTRL_max_wakes = 0) :
    whistleReceived d (some (d.fld KTL_WAKE_CODE_code)) = raise (wakeTaken d) 0 0 0 := by
  simp only [whistleReceived, Dev.bit_eq, hen, beq_eq_false_iff_ne.mpr hcode, codeDiff_self, Option.map_some, Option.getD_some,
    Nat.zero_le, decide_true, hlimit, true_or, if_true]
  rfl

section
variable (d : Dev)

theorem wakeTaken_keeps : Keeps [.ktl] (fun a => a == KTL_WAKE_COUNT || a == KTL_WAKE_TIME || a == KTL_WAKE_CTRL || a == KTL_WAKE_STATUS)
    d (wakeTaken d) :=
  (((((Keeps.refl d).inc rfl).setFld rfl _).ktl (by decide) _).setBit rfl _).setBit rfl _

theorem wakeTaken_pwrReq : (wakeTaken d).fld KTL_WAKE_CTRL_pwr_req = 1 :=
  (Dev.fld_setFld_other _ _ _ _ (by decide)).trans (Dev.fld_setBit_same _ (by decide) (by decide) true)

theorem wakeTaken_woke : (wakeTaken d).fld KTL_WAKE_STATUS_woke = 1 := Dev.fld_setBit_same _ (by decide) (by decide) true

/-- Neither the time of the wake nor the power request touches the count. -/
theorem wakeTaken_wakes : (wakeTaken d).fld KTL_WAKE_COUNT_wakes = min (d.fld KTL_WAKE_COUNT_wakes + 1) KTL_WAKE_COUNT_wakes.max :=
  calc (wakeTaken d).fld KTL_WAKE_COUNT_wakes
      = ((wakeCounted d).setBit KTL_WAKE_CTRL_pwr_req true).fld KTL_WAKE_COUNT_wakes := Dev.fld_setFld_other _ _ _ _ (by decide)
    _ = (wakeCounted d).fld KTL_WAKE_COUNT_wakes := Dev.fld_setFld_other _ _ _ _ (by decide)
    _ = (d.inc KTL_WAKE_COUNT_wakes).fld KTL_WAKE_COUNT_wakes :=
      Dev.fld_setFld_other (d.inc KTL_WAKE_COUNT_wakes) KTL_WAKE_TIME_seconds _ _ (by decide)
    _ = min (d.fld KTL_WAKE_COUNT_wakes + 1) KTL_WAKE_COUNT_wakes.max := Dev.fld_inc_same _ _ (by decide)

theorem wakeTaken_rxEn : (wakeTaken d).fld KTL_WAKE_CTRL_rx_en = d.fld KTL_WAKE_CTRL_rx_en :=
  calc (wakeTaken d).fld KTL_WAKE_CTRL_rx_en
      = ((wakeCounted d).setBit KTL_WAKE_CTRL_pwr_req true).fld KTL_WAKE_CTRL_rx_en := Dev.fld_setFld_other _ _ _ _ (by decide)
    _ = (wakeCounted d).fld KTL_WAKE_CTRL_rx_en := Dev.fld_setFld_other _ _ _ _ (by decide)
    _ = (d.inc KTL_WAKE_COUNT_wakes).fld KTL_WAKE_CTRL_rx_en :=
      Dev.fld_setFld_other (d.inc KTL_WAKE_COUNT_wakes) KTL_WAKE_TIME_seconds _ _ (by decide)
    _ = d.fld KTL_WAKE_CTRL_rx_en := Dev.fld_inc_other _ _ _ (by decide)

end

theorem whistleReceived_noCode_completes {s : State} (hen : s.dev.fld KTL_WAKE_CTRL_rx_en = 1) (hcode : s.dev.fld KTL_WAKE_CODE_code ≠ 0) :
    Completes (.whistleReceived none) s [] (fun a => a == KTL_WAKE_COUNT) fun t =>
      t.dev.fld KTL_WAKE_COUNT_false_starts = min (s.dev.fld KTL_WAKE_COUNT_false_starts + 1) KTL_WAKE_COUNT_false_starts.max ∧
      t.dev.fld KTL_WAKE_COUNT_wakes = s.dev.fld KTL_WAKE_COUNT_wakes :=
  completes_of_onKettle_eq (g := fun d => whistleReceived d none) rfl (whistleReceived_noCode hen hcode) ((Keeps.refl _).inc rfl)
    ⟨Dev.fld_inc_same _ _ (by decide), Dev.fld_inc_other _ _ _ (by decide)⟩

theorem whistleReceived_ownCode_completes {s : State} (hen : s.dev.fld KTL_WAKE_CTRL_rx_en = 1) (hcode : s.dev.fld KTL_WAKE_CODE_code ≠ 0)
    (hlimit : s.dev.fld KTL_WAKE_CTRL_max_wakes = 0) :
    Completes (.whistleReceived (some (s.dev.fld KTL_WAKE_CODE_code))) s ([.ktl] ++ noteParts)
        (fun a => a == KTL_WAKE_COUNT || a == KTL_WAKE_TIME || a == KTL_WAKE_CTRL || a == KTL_WAKE_STATUS || noteRegs a) fun t =>
      t.dev.fld KTL_WAKE_CTRL_pwr_req = 1 ∧ t.dev.fld KTL_WAKE_STATUS_woke = 1 ∧
      t.dev.fld KTL_WAKE_COUNT_wakes = min (s.dev.fld KTL_WAKE_COUNT_wakes + 1) KTL_WAKE_COUNT_wakes.max ∧
      t.dev.ktl.wakes = s.dev.ktl.sec :: s.dev.ktl.wakes ∧ t.dev.fld KTL_WAKE_CTRL_rx_en = 1 :=
  completes_of_onKettle_eq (g := fun d => whistleReceived d (some (s.dev.fld KTL_WAKE_CODE_code))) rfl
    (whistleReceived_ownCode hen hcode hlimit)
    (((wakeTaken_keeps s.dev).mono (by decide) fun _ ha => by rw [ha]; rfl).noted (noted_raise _ _ _ _) (by decide)
      fun _ ha => by rw [ha, Bool.or_true])
    ⟨(raise_fld _ _ _ _ _ (by decide)).trans (wakeTaken_pwrReq _), (raise_fld _ _ _ _ _ (by decide)).trans (wakeTaken_woke _),
      (raise_fld _ _ _ _ _ (by decide)).trans (wakeTaken_wakes _), congrArg Kettle.wakes (raise_ktl (wakeTaken s.dev) 0 0 0),
      (raise_fld _ _ _ _ _ (by decide)).trans ((wakeTaken_rxEn _).trans hen)⟩

/-- The device when POR_N was not released in time. -/
def pwrTimedOut (d : Dev) : Dev := (d.setBit KTL_WAKE_CTRL_pwr_req false).setBit KTL_WAKE_STATUS_pwr_timeout true

theorem pwrTimeout_down {d : Dev} (hdown : d.inReset = true) (hreq : d.fld KTL_WAKE_CTRL_pwr_req = 1) : pwrTimeout d = pwrTimedOut d := by
  have hboth : (d.bit KTL_WAKE_CTRL_pwr_req && d.inReset) = true := by rw [Dev.bit_eq, hreq, hdown]; rfl
  exact (if_pos hboth).trans (raise_down (d := pwrTimedOut d) hdown 2 0 0)

theorem pwrTimeout_completes {s : State} (hdown : s.dev.inReset = true) (hreq : s.dev.fld KTL_WAKE_CTRL_pwr_req = 1) :
    Completes .pwrTimeout s [] (fun a => a == KTL_WAKE_CTRL || a == KTL_WAKE_STATUS) fun t =>
      t.dev.fld KTL_WAKE_CTRL_pwr_req = 0 ∧ t.dev.fld KTL_WAKE_STATUS_pwr_timeout = 1 :=
  completes_of_onKettle_eq (g := pwrTimeout) rfl (pwrTimeout_down hdown hreq) (((Keeps.refl _).setBit rfl _).setBit rfl _)
    ⟨(Dev.fld_setFld_other _ _ _ _ (by decide)).trans (Dev.fld_setBit_same _ (by decide) (by decide) false),
      Dev.fld_setBit_same _ (by decide) (by decide) true⟩

theorem pwrRelease_completes {s : State} (hup : s.dev.inReset = false) :
    Completes .pwrRelease s [] (fun a => a == KTL_WAKE_CTRL) fun t => t.dev.fld KTL_WAKE_CTRL_pwr_req = 0 ∧
      t.dev.fld KTL_WAKE_CTRL_rx_en = s.dev.fld KTL_WAKE_CTRL_rx_en :=
  completes_of_onDev (g := pwrRelease) rfl hup rfl ((Keeps.refl _).setBit rfl _)
    ⟨Dev.fld_setBit_same _ (by decide) (by decide) false, Dev.fld_setFld_other _ _ _ _ (by decide)⟩

/-- Settles O30: each command's clause is its completion above. -/
theorem receiveGainAndWake : Obligations.ReceiveGainAndWake := by
  unfold Obligations.ReceiveGainAndWake
  refine ⟨?inside, ?falls, ?gain, ?switch, ?blanking, ?noCode, ?ownCode, ?timeout, ?release⟩
  case inside => exact fun _ _ _ _ => gainWindow_inside_completes
  case falls => exact fun _ _ _ _ => gainWindow_falls_completes
  case gain => exact fun _ _ _ _ _ => atInstant_gainSet_completes
  case switch => exact fun _ _ _ _ => atInstant_toReceive_completes
  case blanking => exact fun _ _ => blankingEnd_completes
  case noCode => exact fun _ => whistleReceived_noCode_completes
  case ownCode => exact fun _ => whistleReceived_ownCode_completes
  case timeout => exact fun _ => pwrTimeout_completes
  case release => exact fun _ => pwrRelease_completes

end Sys2Proof.Machine
end

section
/-! PROOF. A burst of a task beyond the identifiers there are is none that starts (05_head_control.md R143, 03_caddies_and_dispatch.md R64). -/

namespace Sys2Proof.Machine

/-- The lowest number that a burst's key, the task identifier in its low 17 bits, cannot name as its task. -/
def wideId : Nat := 131072

/-- A data burst of that task on port 0, admitted and not on air; and the task, in service on engine 8. -/
def wideBurst : Burst := ⟨wideId, ⟨40, 0, 0, 0, 0, 0, none, 0, 0, 0, 5000, 0⟩, 5000, 9000, 40, 80, 0, false, 0, 0, ⟨0, []⟩, ⟨0, []⟩, 0⟩
def wideTask : Task := ⟨⟨wideId, noTask, noTask, 0, 9, false, 1, 3, noFlow, 0, 0, 0, 0⟩, 0, .service 8, none, false, 0, 0, 0, false, false, 0⟩

/-- The machine after reset, but for a Topology that puts a head on port 0, that task and its burst. -/
def wideBurstWaits : State :=
  let d := (Dev.blank.setTask wideId wideTask).setEngine 8 { Engine.init with tasks := [wideId] }
  { State.reset with dev := { d with tx := { d.tx with bursts := [(wideId, wideBurst)] },
                                     bld := { d.bld with cfg := [⟨1, 0xFFFF, [0, 0, 0], none⟩] } } }

/-- No key has that number in its low 17 bits. -/
theorem startingBurst_wideId (d : Dev) : startingBurst d wideId = none := by
  have hnone : taskBursts d wideId = [] := List.filter_eq_nil_iff.mpr fun e _ => by
    have hlt : e.1 % 131072 < wideId := Nat.mod_lt _ (by decide)
    simpa using Nat.ne_of_lt hlt
  rw [startingBurst, hnone, List.find?_nil]

theorem synthDeadline_wideId (d : Dev) : synthDeadline d wideId = d := by
  simp only [synthDeadline, startingBurst_wideId]

/-- Refutes O31, for its clause about SYNTH_DEADLINE: the clause leaves the task identifier unbounded where identifiers have 16 bits (R64).
The key of a burst holds its task in the low 17 bits, so that for a wider number the deadline finds no burst and leaves the one
listed under it, and the clause asks that it is gone. -/
theorem not_holdsAndDuty : ¬ Obligations.HoldsAndDuty := by
  unfold Obligations.HoldsAndDuty
  rintro ⟨-, -, -, hdeadline, -⟩
  obtain ⟨t, ht, -, -, hgone, -⟩ := hdeadline wideId 8 wideBurst wideTask wideBurstWaits rfl rfl rfl rfl (by decide +kernel)
    (by decide +kernel) (by decide) rfl rfl (by decide +kernel)
  rw [State.onDev_next (g := fun d => synthDeadline d wideId) rfl rfl ht, synthDeadline_wideId] at hgone
  exact absurd hgone (by decide +kernel)

end Sys2Proof.Machine
end

section
/-! SUPPORT. What the entry of a task by a hardware source leaves (03_caddies_and_dispatch.md R60, R64, R66, R73), and channels of a port. -/

namespace Sys2Proof.Machine

/-! ### Tables -/

theorem Tab.find_mapVals {α β : Type} (t : Tab α) (f : α → β) (k : Nat) :
    Tab.find (t.map fun e => (e.1, f e.2)) k = (Tab.find t k).map f := by
  induction t with
  | nil => rfl
  | cons e t ih =>
    obtain ⟨j, v⟩ := e
    simp only [List.map_cons, Tab.find_cons, ih]
    split <;> rfl

/-! ### Channels -/

@[simp] theorem Dev.chan_setChan_same (d : Dev) (p c : Nat) (x : RxChannel) : (d.setChan p c x).chan p c = x := by
  simp [Dev.chan, Dev.setChan]

theorem Keeps.setChan {ps : List Part} {rs : Nat → Bool} {d e : Dev} (h : Keeps ps rs d e) (hp : Part.rx ∈ ps) (p c : Nat) (x : RxChannel) :
    Keeps ps rs d (e.setChan p c x) := h.rx hp _

theorem Keeps.setLock {ps : List Part} {rs : Nat → Bool} {d e : Dev} (h : Keeps ps rs d e) (hp : Part.dsp ∈ ps) (k : Nat) (l : FlowLock) :
    Keeps ps rs d (e.setLock k l) := h.dsp hp _

/-! ### A Caddy started for a task (R60) -/

/-- The parts that the placing of a task may change: the dispatcher's, and what a trace record leaves. -/
def placeParts : List Part := .dsp :: noteParts

theorem startCaddy_eq (d : Dev) (c : Nat) : Noted (d.setCaddy c { d.caddy c with state := cdSTARTING }) (startCaddy d c) := by
  unfold startCaddy
  split
  · exact noted_trace _ _
  · exact Noted.refl _

theorem startCaddy_placeParts (d : Dev) (c : Nat) : Keeps placeParts noteRegs d (startCaddy d c) :=
  ((Keeps.refl d).setCaddy (by decide) _ _).noted (startCaddy_eq d c) (by decide) fun _ h => h

theorem caddy_startCaddy (d : Dev) (c k : Nat) :
    (startCaddy d c).caddy k = if k = c then { d.caddy c with state := cdSTARTING } else d.caddy k := by
  rw [Dev.caddy, (startCaddy_eq d c).dsp]
  exact Dev.caddy_setCaddy _ _ _ _

theorem noTrellis_startCaddy (d : Dev) (c k : Nat) : noTrellis (startCaddy d c) k = noTrellis d k := by
  simp only [noTrellis, (startCaddy_eq d c).res]
  rfl

/-- A Caddy that starts keeps its logical number. -/
theorem logicalOrder_startCaddy (d : Dev) (c : Nat) : logicalOrder (startCaddy d c) = logicalOrder d := by
  have hlogical : ∀ k, ((startCaddy d c).caddy k).logical = (d.caddy k).logical := fun k => by
    rw [caddy_startCaddy]
    split
    next h => rw [h]
    next => rfl
  simp only [logicalOrder, hlogical]

/-- A Caddy that can be started takes tasks once it starts. -/
theorem mem_placeable_startCaddy {d : Dev} {kind c : Nat} {tr : Bool} (h : startable d kind tr = some c) :
    c ∈ placeable (startCaddy d c) kind tr := by
  have hmem : c ∈ logicalOrder d := List.mem_of_find?_eq_some h
  have hfit := List.find?_some h
  simp only [Bool.and_eq_true] at hfit
  obtain ⟨⟨⟨-, haccepts⟩, hfence⟩, htrellis⟩ := hfit
  have haccepts' : accepts { d.caddy c with state := cdSTARTING } kind = true := haccepts
  simp only [placeable, logicalOrder_startCaddy, List.mem_filter, caddy_startCaddy, noTrellis_startCaddy, if_true, Bool.and_eq_true]
  exact ⟨hmem, ⟨⟨by decide, hfence⟩, haccepts'⟩, htrellis⟩

/-- Some Caddy takes tasks of a kind, or can be started for them (R60, R73). -/
def Takes (d : Dev) (kind : Nat) (tr : Bool) : Prop := placeable d kind tr ≠ [] ∨ (startable d kind tr).isSome = true

/-- It is a matter of the Caddies and their Trellis Units alone. -/
theorem Takes.congr {d e : Dev} {kind : Nat} {tr : Bool} (h : Takes d kind tr) (hc : e.dsp.caddies = d.dsp.caddies) (hr : e.res = d.res) :
    Takes e kind tr := by
  have hcaddy : e.caddy = d.caddy := by funext c; rw [Dev.caddy, Dev.caddy, hc]
  simp only [Takes, placeable, startable, logicalOrder, noTrellis, hcaddy, hr]
  exact h

theorem takes_of_slotAvailable {d : Dev} {m : Nat} (h : slotAvailable d m = true) : Takes d 0 (trellisMode d m) := by
  rcases Bool.or_eq_true_iff.mp h with hany | hstart
  · obtain ⟨c, hc, -⟩ := List.any_eq_true.mp hany
    exact .inl (List.ne_nil_of_mem hc)
  · exact .inr hstart

section
variable (d : Dev) (kind slots : Nat) (tr : Bool)

/-- A Caddy starts, or nothing changes. -/
theorem startIfNeeded_cases : startIfNeeded d kind slots tr = d ∨ ∃ c, startIfNeeded d kind slots tr = startCaddy d c := by
  unfold startIfNeeded
  split
  · exact .inl rfl
  · split
    · exact .inr ⟨_, rfl⟩
    · exact .inl rfl

theorem startIfNeeded_placeParts : Keeps placeParts noteRegs d (startIfNeeded d kind slots tr) := by
  rcases startIfNeeded_cases d kind slots tr with h | ⟨c, h⟩ <;> rw [h]
  · exact Keeps.refl d
  · exact startCaddy_placeParts d c

end

theorem placeable_startIfNeeded {d : Dev} {kind : Nat} {tr : Bool} (h : Takes d kind tr) (slots : Nat) :
    placeable (startIfNeeded d kind slots tr) kind tr ≠ [] := by
  unfold startIfNeeded
  split
  next hany =>
    obtain ⟨c, hc, -⟩ := List.any_eq_true.mp hany
    exact List.ne_nil_of_mem hc
  next =>
    split
    next c hc => exact List.ne_nil_of_mem (mem_placeable_startCaddy hc)
    next hnone => exact h.resolve_right (by simp [hnone])

/-! ### A task placed (R73) -/

/-- A choice among some candidates that each step keeps or replaces is some choice. -/
theorem foldl_isSome {α : Type} {g : Option α → α → Option α} (hg : ∀ b c, (g b c).isSome = true) {cs : List α}
    (h : cs ≠ []) (b : Option α) :
    (cs.foldl g b).isSome = true := by
  induction cs generalizing b with
  | nil => exact absurd rfl h
  | cons c cs ih =>
    cases cs with
    | nil => exact hg b c
    | cons y ys => exact ih (by simp) (g b c)

theorem rankPlace_isSome (d : Dev) (t : Task) {cs : List Nat} (h : cs ≠ []) : (rankPlace d t cs).isSome = true := by
  unfold rankPlace
  split
  · have hlt : t.d.flow % cs.length < cs.length := Nat.mod_lt _ (List.length_pos_of_ne_nil h)
    simp [hlt]
  · refine foldl_isSome (fun b c => ?_) h none
    cases b with
    | none => rfl
    | some b =>
      dsimp only
      split <;> rfl

theorem choosePlace_isSome (d : Dev) (t : Task) {cs : List Nat} (h : cs ≠ []) : (choosePlace d t cs).isSome = true := by
  unfold choosePlace
  dsimp only
  split
  next hfree => exact rankPlace_isSome d t fun hnil => by rw [hnil] at hfree; simp at hfree
  next => exact rankPlace_isSome d t h

/-- `e` is `d` but for the placing of task `i`, whose descriptor is `x`. -/
structure Entered (x : Desc) (d e : Dev) : Prop where
  keeps : Keeps placeParts noteRegs d e
  desc : (e.task x.id).map Task.d = some x

/-- A task is placed or held; a receive context is placed where a Caddy takes it. -/
theorem place_entered {d : Dev} {t : Task} (ht : d.task t.d.id = some t)
    (hroom : t.d.kind = 0 → Takes d 0 (needsTrellis d t)) : Entered t.d d (place d t.d.id) := by
  have hstart := startIfNeeded_placeParts d t.d.kind t.slots (needsTrellis d t)
  unfold place
  rw [ht]
  dsimp only
  split
  next c _ => exact ⟨(hstart.setCaddy (by decide) _ _).setTask (by decide) _ _, by simp [putReady, Dev.task_setTask]⟩
  next hnone =>
    have hkind : t.d.kind ≠ 0 := fun h0 => by
      rw [h0] at hnone
      have hsome := choosePlace_isSome (startIfNeeded d 0 t.slots (needsTrellis d t)) t (placeable_startIfNeeded (hroom h0) t.slots)
      rw [hnone] at hsome
      cases hsome
    rw [if_neg hkind]
    exact ⟨(hstart.setTask (by decide) _ _).dsp (by decide) _, by
      show Option.map Task.d (((startIfNeeded d _ _ _).setTask t.d.id _).task t.d.id) = _
      simp [Dev.task_setTask]⟩

theorem makeReady_noFlow {d : Dev} {i : Nat} {t : Task} (ht : d.task i = some t) (hflow : t.d.flow = noFlow) :
    makeReady d i = place (d.setTask i { t with readyAt := d.ns }) i := by
  simp only [makeReady, ht, if_pos hflow]

/-- The device when a task has its ticket. -/
def takeTicket (d : Dev) (t : Task) : Dev :=
  d.setLock t.d.flow { d.lock t.d.flow with next := ((d.lock t.d.flow).next + 1) % 65536 }

theorem makeReady_flow {d : Dev} {i : Nat} {t : Task} (ht : d.task i = some t) (hflow : t.d.flow ≠ noFlow) :
    makeReady d i = place ((takeTicket d t).setTask i { t with ticket := some (d.lock t.d.flow).next, readyAt := d.ns }) i := by
  simp only [makeReady, ht, if_neg hflow, takeTicket]

/-- A task placed from a device that differs from `d` in the dispatcher alone, its Caddies the same. -/
theorem place_entered_of {d e : Dev} {x : Desc} {t : Task} (hk : Keeps [.dsp] (fun _ => false) d e) (hcaddies : e.dsp.caddies = d.dsp.caddies)
    (ht : t.d = x) (hroom : x.kind = 0 → Takes d 0 (trellisMode d x.arg1)) : Entered x d (place (e.setTask x.id t) x.id) := by
  subst ht
  have hset : (e.setTask t.d.id t).task t.d.id = some t := by simp [Dev.task_setTask]
  have hphy : trellisMode e t.d.arg1 = trellisMode d t.d.arg1 := by
    have hbld : e.bld = d.bld := hk.bld_eq (by decide)
    simp only [trellisMode, Dev.phy, Dev.sec, hbld]
  have hres : e.res = d.res := hk.parts .res (by decide)
  have hneeds : t.d.kind = 0 → Takes (e.setTask t.d.id t) 0 (needsTrellis (e.setTask t.d.id t) t) := fun h0 => by
    have hsame : needsTrellis (e.setTask t.d.id t) t = trellisMode d t.d.arg1 := by
      rw [← hphy, needsTrellis, h0]
      rfl
    rw [hsame]
    exact (hroom h0).congr hcaddies hres
  obtain ⟨hplace, hd⟩ := place_entered hset hneeds
  exact ⟨((hk.mono (by decide) (fun _ h => by cases h)).setTask (by decide) _ _).trans hplace, hd⟩

/-- A task that becomes ready takes its ticket and is placed (R66, R70). -/
theorem makeReady_entered {d : Dev} {t : Task} (ht : d.task t.d.id = some t)
    (hroom : t.d.kind = 0 → Takes d 0 (trellisMode d t.d.arg1)) : Entered t.d d (makeReady d t.d.id) := by
  by_cases hflow : t.d.flow = noFlow
  · rw [makeReady_noFlow ht hflow]
    exact place_entered_of (Keeps.refl d) rfl rfl hroom
  · rw [makeReady_flow ht hflow]
    exact place_entered_of (e := takeTicket d t) ((Keeps.refl d).setLock (by decide) _ _) rfl rfl hroom

/-- A task of a descriptor without predecessors is ready at once (R66). -/
theorem enterTask_entered {d : Dev} {x : Desc} {slots : Nat} (hdep : x.dep = 0)
    (hroom : x.kind = 0 → Takes d 0 (trellisMode d x.arg1)) : Entered x d (enterTask d x slots) := by
  obtain ⟨t, hx, hset⟩ : ∃ t : Task, t.d = x ∧ enterTask d x slots = makeReady (d.setTask x.id t) x.id :=
    ⟨_, rfl, if_pos hdep⟩
  subst hx
  rw [hset]
  obtain ⟨hready, hd⟩ := makeReady_entered (d := d.setTask t.d.id t) (by simp [Dev.task_setTask]) fun h0 => (hroom h0).congr rfl rfl
  exact ⟨((Keeps.refl d).setTask (by decide) _ _).trans hready, hd⟩

/-- The descriptor that a hardware source submits (R64). -/
def hwDesc (i kind source flow handler arg0 arg1 : Nat) : Desc :=
  ⟨i, noTask, noTask, 0, handler, false, kind, source, flow, 0, arg0, arg1, 0⟩

theorem hwSubmit_free {d : Dev} {lo n i : Nat} (h : freeTask d lo n = some i) (kind source flow handler arg0 arg1 slots : Nat) :
    hwSubmit d lo n kind source flow handler arg0 arg1 slots = some (i, enterTask d (hwDesc i kind source flow handler arg0 arg1) slots) := by
  rw [hwSubmit, h]
  rfl

end Sys2Proof.Machine
end

section
/-! PROOF. Noise floors, detections and the channel counters (06_receive.md R159 to R166, R181). -/

namespace Sys2Proof.Machine

/-! ### Every channel changed alike -/

/-- The device with every listed channel changed by `f`. -/
def Dev.mapChans (d : Dev) (f : RxChannel → RxChannel) : Dev :=
  { d with rx := { d.rx with channels := d.rx.channels.map fun e => (e.1, f e.2) } }

/-- A channel not listed reads as one that nothing has happened to, which `f` leaves as it is. -/
theorem Dev.chan_mapChans (d : Dev) {f : RxChannel → RxChannel} (hf : f ⟨[], 0, 0, 0, 0, 0, false, []⟩ = ⟨[], 0, 0, 0, 0, 0, false, []⟩)
    (p c : Nat) : (d.mapChans f).chan p c = f (d.chan p c) := by
  simp only [Dev.chan, Dev.mapChans, Tab.getD, Tab.find_mapVals]
  cases Tab.find d.rx.channels (chKey p c) with
  | none => exact hf.symm
  | some x => rfl

theorem Keeps.mapChans {ps : List Part} {rs : Nat → Bool} {d e : Dev} (h : Keeps ps rs d e) (hp : Part.rx ∈ ps) (f : RxChannel → RxChannel) :
    Keeps ps rs d (e.mapChans f) := h.rx hp _

/-! ### Noise windows (R159) -/

/-- A channel in a new millisecond, in which no context has run on it yet. -/
def RxChannel.nextWindow (x : RxChannel) : RxChannel := { x with ran := false }

theorem noiseWindow_idle {d : Dev} {p c : Nat} (hlive : portLive d p = true) (hidle : ctxOn d p c = []) (hran : (d.chan p c).ran = false)
    (hc : c < bpCount d.band p) (x : Nat) :
    noiseWindow d [(p, c, x)] =
      (d.setChan p c { d.chan p c with powers := (x :: (d.chan p c).powers).take 16 }).mapChans RxChannel.nextWindow := by
  simp only [noiseWindow, List.foldl_cons, List.foldl_nil, hlive, hidle, hran, hc, List.isEmpty_nil, Bool.not_false, Bool.and_true, decide_true,
    if_true]
  rfl

theorem noiseWindow_completes {p c x : Nat} {s : State} (hup : s.dev.inReset = false) (hlive : portLive s.dev p = true)
    (hidle : ctxOn s.dev p c = []) (hran : (s.dev.chan p c).ran = false) (hc : c < bpCount s.dev.band p) :
    Completes (.noiseWindow [(p, c, x)]) s [.rx] (fun _ => false) fun t =>
      (t.dev.chan p c).powers = (x :: (s.dev.chan p c).powers).take 16 ∧ t.dev.rx.ctx = s.dev.rx.ctx :=
  completes_of_onDev (g := fun d => noiseWindow d [(p, c, x)]) rfl hup (noiseWindow_idle hlive hidle hran hc x)
    (((Keeps.refl _).setChan (by decide) _ _ _).mapChans (by decide) _)
    ⟨congrArg RxChannel.powers ((Dev.chan_mapChans _ rfl p c).trans (congrArg RxChannel.nextWindow (Dev.chan_setChan_same _ _ _ _))), rfl⟩

/-! ### A detection opens its context (R160 to R163) -/

/-- The context that a detection of class 2 opens: the first of its channel, its powers those of the window. -/
def firstCtx (p c m w now : Nat) : RxCtx := ⟨p, c, m, 2, .preamble, w, w, now, false, none, 0, none, 0, false, false, 0, [], 0⟩

/-- The device when a detection has been counted, the mode's detector held for one window `u`. -/
def detected (d : Dev) (p c m u : Nat) : Dev :=
  d.setChan p c { d.chan p c with det := min ((d.chan p c).det + 1) 0xFFFF, refire := Tab.put (d.chan p c).refire (detectorOf d p m) (d.ns + u) }

/-- The device when the first context of a channel stands under a task that has been entered. -/
def opened (d : Dev) (i : Nat) (x : RxCtx) : Dev :=
  let e := enterTask d (hwDesc i 0 0 noFlow 0 (chKey x.port x.channel) x.mode) (modeSlots d x.mode)
  { e with rx := { e.rx with ctx := Tab.put e.rx.ctx i x } }

theorem openDetection_first {d : Dev} {x : RxCtx} {i : Nat} (hslot : slotAvailable d x.mode = true) (hfree : freeTask d 0 0x4000 = some i)
    (hfirst : x.second = false) (run : Nat → Nat → Nat) : openDetection d x run = opened d i x := by
  have hopen : openCtx d x = some (opened d i x) := by
    simp only [openCtx, hwSubmit_free hfree, Option.map_some, hfirst]
    rfl
  simp only [openDetection, hslot, if_true, hopen]

theorem detection_first {d : Dev} {p c m rho w n i : Nat} (hdet : detecting d p = true) (hc : c < bpCount d.band p)
    (hmode : (portModes d p).contains m = true) (hrho : 600 ≤ rho) (hnoise : noise d p c = some n)
    (hsnr : atLeastDb w n (((phyFind d.phy m).map (phyDetSnr d.phy)).getD 80) = true) (hrefire : (d.chan p c).refire = [])
    (hload : channelLoad d p c = []) (hexps : d.ts.exps = []) (hslot : slotAvailable d m = true) (hfree : freeTask d 0 0x4000 = some i) :
    detection d p c m rho w [] = opened (detected d p c m (symbolsNs d m (winSymbols d m))) i (firstCtx p c m w d.ns) := by
  have hload' : channelLoad (detected d p c m (symbolsNs d m (winSymbols d m))) p c = [] := hload
  have hexpect : ∀ t, expectAt (detected d p c m (symbolsNs d m (winSymbols d m))) p c t = none := fun t => by
    have hnone : (detected d p c m (symbolsNs d m (winSymbols d m))).ts.exps = [] := hexps
    simp only [expectAt, hnone, List.find?_nil, Option.or_none, Option.map_none]
  have hopen := openDetection_first (d := detected d p c m (symbolsNs d m (winSymbols d m))) (x := firstCtx p c m w d.ns) hslot hfree rfl
  simp only [detection, hdet, hc, hmode, hrho, hnoise, hsnr, hrefire, Option.map_some, Option.getD_some, Tab.find_nil, Option.map_none,
    Option.getD_none, decide_true, Bool.and_true, Bool.not_true, Bool.false_eq_true, if_false]
  simp only [detected, hrefire] at hload' hexpect hopen ⊢
  simp only [hload', hexpect, Option.map_none, Option.getD_none]
  exact hopen _

theorem opened_spec {d : Dev} {x : RxCtx} (hslot : slotAvailable d x.mode = true) (i : Nat) :
    Tab.find (opened d i x).rx.ctx i = some x ∧ (∀ p c, (opened d i x).chan p c = d.chan p c) ∧
      ((opened d i x).task i).map Task.d = some (hwDesc i 0 0 noFlow 0 (chKey x.port x.channel) x.mode) := by
  have hin : Entered (hwDesc i 0 0 noFlow 0 (chKey x.port x.channel) x.mode) d _ :=
    enterTask_entered (slots := modeSlots d x.mode) rfl fun _ => takes_of_slotAvailable hslot
  have hrx : (enterTask d (hwDesc i 0 0 noFlow 0 (chKey x.port x.channel) x.mode) (modeSlots d x.mode)).rx = d.rx :=
    hin.keeps.parts .rx (by decide)
  refine ⟨(Tab.find_put _ _ _ _).trans (if_pos rfl), fun p c => ?_, hin.desc⟩
  simp only [Dev.chan, opened, hrx]

theorem detection_completes {p c m rho w n i : Nat} {s : State} (hup : s.dev.inReset = false) (hdet : detecting s.dev p = true)
    (hc : c < bpCount s.dev.band p) (hmode : (portModes s.dev p).contains m = true) (hrho : 600 ≤ rho) (hnoise : noise s.dev p c = some n)
    (hsnr : atLeastDb w n (((phyFind s.dev.phy m).map (phyDetSnr s.dev.phy)).getD 80) = true) (hrefire : (s.dev.chan p c).refire = [])
    (hload : channelLoad s.dev p c = []) (hexps : s.dev.ts.exps = []) (hslot : slotAvailable s.dev m = true)
    (hfree : freeTask s.dev 0 0x4000 = some i) :
    ∃ t, exec (.detection p c m rho w []) s = .next t ∧ t.fuses = s.fuses ∧ t.pending = s.pending ∧
      Tab.find t.dev.rx.ctx i = some (firstCtx p c m w s.dev.ns) ∧
      (t.dev.chan p c).det = min ((s.dev.chan p c).det + 1) 0xFFFF ∧ (t.dev.task i).isSome = true ∧
      (t.dev.task i).map (fun x => x.d.kind) = some 0 := by
  have hg := detection_first hdet hc hmode hrho hnoise hsnr hrefire hload hexps hslot hfree
  obtain ⟨hctx, hchan, hdesc⟩ := opened_spec (d := detected s.dev p c m (symbolsNs s.dev m (winSymbols s.dev m)))
    (x := firstCtx p c m w s.dev.ns) hslot i
  obtain ⟨q, hq, hqd⟩ := Option.map_eq_some_iff.mp hdesc
  rw [← hg] at hctx hchan hq
  refine ⟨_, s.onDev_up (fun d => detection d p c m rho w []) hup, rfl, rfl, hctx, ?_, ?_, ?_⟩
  · rw [hchan, detected, Dev.chan_setChan_same]
  · rw [hq]; rfl
  · rw [hq, Option.map_some, hqd]; rfl

/-! ### A detection that waited too long (R160) -/

theorem detectionLate_dropped {d : Dev} {p c : Nat} {x : RxCtx} (hlate : d.rx.late.find? (fun y => y.port == p && y.channel == c) = some x)
    (hslot : slotAvailable d x.mode = false) :
    detectionLate d p c = ({ d with rx := { d.rx with late := d.rx.late.erase x } }).inc RX_CNT_DROP_ctx_late := by
  simp only [detectionLate, hlate, openOne, hslot, Bool.false_eq_true, if_false, Option.getD_none]

theorem detectionLate_completes {p c : Nat} {x : RxCtx} {s : State} (hup : s.dev.inReset = false)
    (hlate : s.dev.rx.late.find? (fun y => y.port == p && y.channel == c) = some x) (hslot : slotAvailable s.dev x.mode = false) :
    Completes (.detectionLate p c) s [.rx] (fun a => a == RX_CNT_DROP) fun t => t.dev.rx.late = s.dev.rx.late.erase x ∧ t.dev.rx.ctx = s.dev.rx.ctx ∧
      t.dev.fld RX_CNT_DROP_ctx_late = min (s.dev.fld RX_CNT_DROP_ctx_late + 1) RX_CNT_DROP_ctx_late.max :=
  completes_of_onDev (g := fun d => detectionLate d p c) rfl hup (detectionLate_dropped hlate hslot) (((Keeps.refl _).rx (by decide) _).inc rfl)
    ⟨rfl, rfl, Dev.fld_inc_same _ _ (by decide)⟩

/-! ### Counters cleared (R181) -/

/-- The counter registers of the receive chain. -/
def rxCounters : List Nat := [RX_CNT_CTX, RX_CNT_LOST, RX_CNT_DELIV, RX_CNT_FAIL, RX_CNT_COMB, RX_CNT_DUP, RX_CNT_DROP]

/-- A channel with its counters cleared. -/
def RxChannel.cleared (x : RxChannel) : RxChannel := { x with det := 0, false_ := 0, opened := 0, replaced := 0, ignored := 0 }

theorem rxCntClear_eq (d : Dev) : rxCntClear d = (d.clearRegs rxCounters).mapChans RxChannel.cleared := rfl

theorem Keeps.clearRegs {ps : List Part} {rs : Nat → Bool} {d : Dev} {l : List Nat} (h : ∀ a ∈ l, rs a = true) :
    Keeps ps rs d (d.clearRegs l) :=
  (Keeps.refl d).foldl_setReg (g := id) h _

theorem rxCntClear_completes {s : State} (hup : s.dev.inReset = false) :
    Completes .rxCntClear s [.rx] (fun a => a == RX_CNT_CTX || a == RX_CNT_LOST || a == RX_CNT_DELIV || a == RX_CNT_FAIL || a == RX_CNT_COMB ||
        a == RX_CNT_DUP || a == RX_CNT_DROP) fun t => t.dev.reg RX_CNT_FAIL = 0 ∧ t.dev.reg RX_CNT_DROP = 0 ∧
      (∀ p c, (t.dev.chan p c).det = 0 ∧ (t.dev.chan p c).ignored = 0 ∧ (t.dev.chan p c).powers = (s.dev.chan p c).powers) ∧
      t.dev.rx.ctx = s.dev.rx.ctx ∧ t.dev.rx.frames = s.dev.rx.frames := by
  have hclear : Keeps [.rx] (fun a => a == RX_CNT_CTX || a == RX_CNT_LOST || a == RX_CNT_DELIV || a == RX_CNT_FAIL || a == RX_CNT_COMB ||
      a == RX_CNT_DUP || a == RX_CNT_DROP) s.dev (s.dev.clearRegs rxCounters) := Keeps.clearRegs (by decide)
  have hrx : (s.dev.clearRegs rxCounters).rx = s.dev.rx :=
    (Keeps.clearRegs (ps := []) (rs := fun _ => true) fun _ _ => rfl).parts .rx (by decide)
  have hctx : (s.dev.clearRegs rxCounters).rx.ctx = s.dev.rx.ctx := congrArg Rx.ctx hrx
  have hframes : (s.dev.clearRegs rxCounters).rx.frames = s.dev.rx.frames := congrArg Rx.frames hrx
  have hreg : ∀ a ∈ rxCounters, ((s.dev.clearRegs rxCounters).mapChans RxChannel.cleared).reg a = 0 := fun a ha =>
    (Dev.reg_clearRegs s.dev rxCounters a).trans (if_pos ha)
  have hchan : ∀ p c, ((s.dev.clearRegs rxCounters).mapChans RxChannel.cleared).chan p c = (s.dev.chan p c).cleared :=
    fun p c => (Dev.chan_mapChans _ rfl p c).trans (congrArg (fun r : Rx => (Tab.getD r.channels (chKey p c) _).cleared) hrx)
  exact completes_of_onDev (g := rxCntClear) rfl hup (rxCntClear_eq _) (hclear.mapChans (by decide) _)
    ⟨hreg _ (by decide), hreg _ (by decide), fun p c => ⟨congrArg RxChannel.det (hchan p c), congrArg RxChannel.ignored (hchan p c),
      (congrArg RxChannel.powers (hchan p c) :)⟩, hctx, hframes⟩

/-- Settles O32: each command's clause is its completion above. -/
theorem receiveDetection : Obligations.ReceiveDetection := by
  unfold Obligations.ReceiveDetection
  refine ⟨?noise, ?opens, ?late, ?clear⟩
  case noise => exact fun _ _ _ _ => noiseWindow_completes
  case opens => exact fun _ _ _ _ _ _ _ _ => detection_completes
  case late => exact fun _ _ _ _ => detectionLate_completes
  case clear => exact fun _ => rxCntClear_completes

end Sys2Proof.Machine
end

section
/-! PROOF. The frame record: posted with its PSDU and a frame task, or dropped after 1 ms (06_receive.md R178 to R180). -/

namespace Sys2Proof.Machine

/-! ### Little-endian bytes -/

@[simp] theorem length_le (n v : Nat) : (le n v).length = n := by
  induction n generalizing v with
  | zero => rfl
  | succ n ih => simp [le, ih]

theorem unle_le (n v : Nat) : unle (le n v) = v % 256 ^ n := by
  induction n generalizing v with
  | zero => simp [le, unle, Nat.mod_one]
  | succ n ih =>
    have hbyte : (BitVec.ofNat 8 v).toNat = v % 256 := BitVec.toNat_ofNat _ _
    rw [le, unle, ih, hbyte, Nat.pow_succ', Nat.mod_mul]

/-- A field that stands behind `off` bytes. -/
theorem field_append (pre post : List Byte) (n v : Nat) : field (pre ++ (le n v ++ post)) pre.length n = v % 256 ^ n := by
  rw [field, slice, List.drop_left, List.take_left' (length_le n v), unle_le]

/-! ### Packet Buffer Memory (R21) -/

/-- The device with bytes in a new buffer. -/
def withBuf (d : Dev) (bs : List Byte) : Dev := { d with pbm := { bufs := Tab.put d.pbm.bufs d.pbm.next bs, next := d.pbm.next + 1 } }

theorem bufPut_room {d : Dev} {bs : List Byte} (h : pbmUsed d + bs.length ≤ pbmCap) : bufPut d bs = some (d.pbm.next, withBuf d bs) := if_pos h

theorem sum_ins (t : Tab (List Byte)) (k : Nat) (bs : List Byte) :
    ((Tab.ins t k bs).map fun b => b.2.length).sum = bs.length + (t.map fun b => b.2.length).sum := by
  induction t with
  | nil => rfl
  | cons e t ih =>
    obtain ⟨j, v⟩ := e
    simp only [Tab.ins]
    split
    · rfl
    · simp only [List.map_cons, List.sum_cons, ih]
      omega

/-- A buffer takes no more room than its bytes. -/
theorem pbmUsed_withBuf (d : Dev) (bs : List Byte) : pbmUsed (withBuf d bs) ≤ pbmUsed d + bs.length := by
  have hdel : ((Tab.del d.pbm.bufs d.pbm.next).map fun b => b.2.length).sum ≤ (d.pbm.bufs.map fun b => b.2.length).sum :=
    (List.filter_sublist.map _).sum_le_sum fun _ _ => Nat.zero_le _
  have hput : pbmUsed (withBuf d bs) = bs.length + ((Tab.del d.pbm.bufs d.pbm.next).map fun b => b.2.length).sum := sum_ins _ _ _
  have hused : pbmUsed d = (d.pbm.bufs.map fun b => b.2.length).sum := rfl
  omega

theorem bufGet_withBuf (d : Dev) (bs : List Byte) (h : Nat) : bufGet (withBuf d bs) h = if h = d.pbm.next then bs else bufGet d h :=
  Tab.getD_put _ _ _ _ _

theorem bufGet_congr {d e : Dev} (h : e.pbm = d.pbm) (k : Nat) : bufGet e k = bufGet d k := by rw [bufGet, bufGet, h]

/-! ### The record's bytes (Table RECV-4) -/

section
variable (d : Dev) (f : RxFrame) (pan : Nat) (fromPort : Bool) (buf flow : Nat)

theorem append_behind {α : Type} (a b c e f g : List α) : a ++ b ++ c ++ e ++ f ++ g = a ++ (b ++ (c ++ (e ++ (f ++ g)))) := by
  simp only [List.append_assoc]

/-- The PSDU's handle stands behind 36 bytes of a record, and 24 follow it. -/
theorem recordBytes_split : ∃ pre post : List Byte, recordBytes d f pan fromPort buf flow = pre ++ (le 4 buf ++ post) ∧
    pre.length = 36 ∧ post.length = 24 := by
  refine ⟨_, _, append_behind _ _ _ _ _ _, ?_, ?_⟩
  · simp only [List.length_append, length_le]
  · simp only [List.length_append, length_le, List.length_take, List.length_map, List.length_replicate, List.length_flatMap, List.map_const',
      List.sum_replicate, zeros, Nat.min_eq_left (Nat.le_add_left 4 _), smul_eq_mul]

theorem length_recordBytes : (recordBytes d f pan fromPort buf flow).length = 64 := by
  obtain ⟨pre, post, h, hpre, hpost⟩ := recordBytes_split d f pan fromPort buf flow
  simp [h, hpre, hpost]

theorem field_recordBytes_buf : field (recordBytes d f pan fromPort buf flow) 36 4 = buf % 2 ^ 32 := by
  obtain ⟨pre, post, h, hpre, -⟩ := recordBytes_split d f pan fromPort buf flow
  rw [h, ← hpre, field_append]
  rfl

end

/-! ### A record posted (R179) -/

/-- The device when the source address of a header, where it gives a key, has been looked up. -/
def lookedUp (d : Dev) (key : Option (List Byte)) (changed : Nat) : Dev := (key.map fun k => (keyedLookup d 1 k changed).2).getD d

theorem keyedLookup_keeps (d : Dev) (t : Nat) (k : List Byte) (changed : Nat) :
    Keeps [.tbl] (fun a => a == TBL_CNT_LOOKUP || a == TBL_CNT_RETRY) d (keyedLookup d t k changed).2 := by
  have hcount : Keeps [.tbl] (fun a => a == TBL_CNT_LOOKUP || a == TBL_CNT_RETRY) d
      ((d.setReg TBL_CNT_LOOKUP (d.reg TBL_CNT_LOOKUP + 1)).addFld TBL_CNT_RETRY_retries (min changed 4)) :=
    ((Keeps.refl d).setReg rfl _).setFld rfl _
  unfold keyedLookup
  dsimp only
  split
  · exact hcount
  · exact ((hcount.inc rfl).tbl (by decide) _).tbl (by decide) _

theorem lookedUp_keeps (d : Dev) (key : Option (List Byte)) (changed : Nat) :
    Keeps [.tbl] (fun a => a == TBL_CNT_LOOKUP || a == TBL_CNT_RETRY) d (lookedUp d key changed) := by
  cases key with
  | none => exact Keeps.refl d
  | some k => exact keyedLookup_keeps d 1 k changed

/-- The device when a frame has left the list and what the receive chain keeps of it stands under its record's handle. -/
def headed (d : Dev) (f : RxFrame) (rest : List RxFrame) (rec : Nat) (h : Sys2Proof.MacHdr) : Dev :=
  { d with rx := { d.rx with frames := rest, hdrs := Tab.put d.rx.hdrs rec h, ends := Tab.put d.rx.ends rec f.best.lastAt,
                             starts := Tab.put d.rx.starts rec (f.copies.map (·.start)) } }

/-- The device when a delivered frame has been counted. -/
def delivCounted (d : Dev) : Dev := d.setReg RX_CNT_DELIV (d.reg RX_CNT_DELIV + 1)

/-- With room and an identifier, the record and its PSDU are put, the header's source is looked up, and the frame task is entered. -/
theorem recordPost_posted {d : Dev} {f : RxFrame} {fs : List RxFrame} {i : Nat} (hframes : d.rx.frames = f :: fs)
    (hroom : pbmUsed d + f.best.psdu.length + 64 ≤ pbmCap) (hfree : freeTask d 0 0x4000 = some i) (changed : Nat) :
    ∃ h key pan b flow handler,
      recordPost d changed = delivCounted (enterTask
        (headed (lookedUp (withBuf (withBuf d f.best.psdu) (recordBytes d f pan b d.pbm.next flow)) key changed) f fs (d.pbm.next + 1) h)
        (hwDesc i 2 0 flow handler (d.pbm.next + 1) 0) 0) := by
  have hpsdu : bufPut d f.best.psdu = some (d.pbm.next, withBuf d f.best.psdu) := bufPut_room (by omega)
  have hrec : ∀ pan b flow, bufPut (withBuf d f.best.psdu) (recordBytes d f pan b d.pbm.next flow) =
      some (d.pbm.next + 1, withBuf (withBuf d f.best.psdu) (recordBytes d f pan b d.pbm.next flow)) := fun pan b flow => by
    have hused := pbmUsed_withBuf d f.best.psdu
    exact bufPut_room (by rw [length_recordBytes]; omega)
  simp only [recordPost, hframes]
  generalize macHdr (f.best.psdu.take (f.best.psdu.length - if f.best.fcs4 then 4 else 2)) = h
  obtain ⟨pan, b⟩ := recordPan d f h
  dsimp only
  obtain ⟨flow, handler⟩ := recordFlow d f h pan
  refine ⟨h, srcKey pan h, pan, b, flow, handler, ?_⟩
  have hdsp : (lookedUp (withBuf (withBuf d f.best.psdu) (recordBytes d f pan b d.pbm.next flow)) (srcKey pan h) changed).dsp = d.dsp :=
    (lookedUp_keeps _ _ _).dsp_eq (by decide)
  have hsub := hwSubmit_free (i := i) (lo := 0) (n := 0x4000)
    (d := headed (lookedUp (withBuf (withBuf d f.best.psdu) (recordBytes d f pan b d.pbm.next flow)) (srcKey pan h) changed) f fs (d.pbm.next + 1) h)
    (by simpa only [freeTask, headed, hdsp] using hfree) 2 0 flow handler (d.pbm.next + 1) 0 0
  simp only [headed, lookedUp] at hsub ⊢
  simp only [hpsdu, hrec, hsub, delivCounted]

/-- What the task's entry leaves of the buffers, the list and the count, and the task that carries the record. -/
theorem frameTask_spec {d : Dev} {i flow handler rec : Nat} :
    let e := delivCounted (enterTask d (hwDesc i 2 0 flow handler rec 0) 0)
    e.rx = d.rx ∧ e.pbm = d.pbm ∧ e.reg RX_CNT_DELIV = d.reg RX_CNT_DELIV + 1 ∧ (e.task i).map (fun x => (x.d.kind, x.d.arg0)) = some (2, rec) := by
  obtain ⟨hkeeps, hdesc⟩ : Entered (hwDesc i 2 0 flow handler rec 0) d (enterTask d (hwDesc i 2 0 flow handler rec 0) 0) :=
    enterTask_entered rfl fun h => by cases h
  obtain ⟨q, hq, hqd⟩ := Option.map_eq_some_iff.mp hdesc
  refine ⟨hkeeps.parts .rx (by decide), hkeeps.parts .pbm (by decide), ?_, ?_⟩
  · rw [delivCounted, Dev.reg_setReg_same, hkeeps.regs RX_CNT_DELIV rfl]
  · have htask : (delivCounted (enterTask d (hwDesc i 2 0 flow handler rec 0) 0)).task i = some q := hq
    rw [htask, Option.map_some, hqd]
    rfl

theorem recordPost_completes {changed i : Nat} {f : RxFrame} {fs : List RxFrame} {s : State} (hup : s.dev.inReset = false)
    (hframes : s.dev.rx.frames = f :: fs) (hroom : pbmUsed s.dev + f.best.psdu.length + 64 ≤ pbmCap) (hfree : freeTask s.dev 0 0x4000 = some i) :
    ∃ t, exec (.recordPost changed) s = .next t ∧ t.fuses = s.fuses ∧ t.pending = s.pending ∧ t.dev.rx.frames = fs ∧
      bufGet t.dev s.dev.pbm.next = f.best.psdu ∧ (bufGet t.dev (s.dev.pbm.next + 1)).length = 64 ∧
      field (bufGet t.dev (s.dev.pbm.next + 1)) 36 4 = s.dev.pbm.next % 2 ^ 32 ∧
      (t.dev.task i).map (fun x => (x.d.kind, x.d.arg0)) = some (2, s.dev.pbm.next + 1) ∧
      t.dev.reg RX_CNT_DELIV = s.dev.reg RX_CNT_DELIV + 1 := by
  obtain ⟨h, key, pan, b, flow, handler, hpost⟩ := recordPost_posted hframes hroom hfree changed
  have hlook := lookedUp_keeps (withBuf (withBuf s.dev f.best.psdu) (recordBytes s.dev f pan b s.dev.pbm.next flow)) key changed
  obtain ⟨hrx, hpbm, hreg, htask⟩ := frameTask_spec (i := i) (flow := flow) (handler := handler) (rec := s.dev.pbm.next + 1)
    (d := headed (lookedUp (withBuf (withBuf s.dev f.best.psdu) (recordBytes s.dev f pan b s.dev.pbm.next flow)) key changed) f fs
      (s.dev.pbm.next + 1) h)
  rw [← hpost] at hrx hpbm hreg htask
  have hbuf : ∀ k, bufGet (recordPost s.dev changed) k =
      bufGet (withBuf (withBuf s.dev f.best.psdu) (recordBytes s.dev f pan b s.dev.pbm.next flow)) k :=
    bufGet_congr (hpbm.trans (hlook.parts .pbm (by decide)))
  have hpsdu : bufGet (recordPost s.dev changed) s.dev.pbm.next = f.best.psdu := by
    have hother : s.dev.pbm.next ≠ (withBuf s.dev f.best.psdu).pbm.next := Nat.ne_of_lt (Nat.lt_succ_self _)
    rw [hbuf, bufGet_withBuf, if_neg hother, bufGet_withBuf, if_pos rfl]
  have hrec : bufGet (recordPost s.dev changed) (s.dev.pbm.next + 1) = recordBytes s.dev f pan b s.dev.pbm.next flow := by
    rw [hbuf, bufGet_withBuf]
    exact if_pos rfl
  refine ⟨_, s.onDev_up (fun d => recordPost d changed) hup, rfl, rfl, congrArg Rx.frames hrx, hpsdu, ?_, ?_, htask, ?_⟩
  · exact (congrArg List.length hrec).trans (length_recordBytes _ _ _ _ _ _)
  · exact (congrArg (field · 36 4) hrec).trans (field_recordBytes_buf _ _ _ _ _ _)
  · exact hreg.trans (congrArg (· + 1) (hlook.regs RX_CNT_DELIV rfl))

/-! ### A record held too long (R180) -/

theorem recordHoldTimeout_completes {f : RxFrame} {fs : List RxFrame} {s : State} (hup : s.dev.inReset = false)
    (hframes : s.dev.rx.frames = f :: fs) :
    Completes .recordHoldTimeout s [.rx] (fun a => a == RX_CNT_DROP) fun t => t.dev.rx.frames = fs ∧
      t.dev.fld RX_CNT_DROP_rec_drop = min (s.dev.fld RX_CNT_DROP_rec_drop + 1) RX_CNT_DROP_rec_drop.max := by
  have hdrop : recordHoldTimeout s.dev = ({ s.dev with rx := { s.dev.rx with frames := fs } }).inc RX_CNT_DROP_rec_drop := by
    simp only [recordHoldTimeout, hframes]
  exact completes_of_onDev (g := recordHoldTimeout) rfl hup hdrop (((Keeps.refl _).rx (by decide) _).inc rfl)
    ⟨rfl, Dev.fld_inc_same _ _ (by decide)⟩

/-- Settles O34: a frame with room is posted, one without is dropped. -/
theorem frameRecords : Obligations.FrameRecords := by
  unfold Obligations.FrameRecords
  exact ⟨fun _ _ _ _ _ hup hframes hroom hfree _ => recordPost_completes hup hframes hroom hfree, fun _ _ _ => recordHoldTimeout_completes⟩

end Sys2Proof.Machine
end

section
/-! PROOF. The end of a context where a task stands under the identifier that names no task (06_receive.md R164, 03_caddies_and_dispatch.md R64,
R66). -/

namespace Sys2Proof.Machine

/-- A receive context in PREAMBLE, its task in service on engine 8 with no successor; and a second context's task under 0xFFFF, its counter 0. -/
def unsyncedCtx : RxCtx := ⟨2, 3, 1, 2, .preamble, 9, 9, 0, false, none, 0, none, 0, false, false, 0, [], 0⟩
def ctxTask : Task := ⟨hwDesc 5 0 0 noFlow 0 0x203 1, 0, .service 8, none, false, 0, 0, 0, false, false, 1⟩
def unnamedTask : Task := ⟨hwDesc noTask 0 0 noFlow 0 0x204 1, 0, .waiting, none, false, 0, 0, 0, false, false, 1⟩

/-- The machine after reset, but for that context and the two tasks. -/
def unsynced : State :=
  let d := ((Dev.blank.setTask 5 ctxTask).setTask noTask unnamedTask).setEngine 8 { Engine.init with tasks := [5] }
  { State.reset with dev := { d with rx := { d.rx with ctx := [(5, unsyncedCtx)] } } }

/-- "No successor" is looked up as one: the task under 0xFFFF becomes ready, finds no Caddy and is dropped, counted in ctx_full. -/
theorem noSfd_counts_ctxFull : (noSfd unsynced.dev 5).reg RX_CNT_CTX ≠ unsynced.dev.reg RX_CNT_CTX := by decide +kernel

/-- Refutes O33, for its clause about NO_SFD (its clauses about DECODE_DONE fail alike): the clause leaves the task table free to hold a task
under 0xFFFF, which no submitter may use (R64) and which stands for "no successor" in a descriptor. Where such a task has its counter at 0, the
end of any task without successors makes it ready; a receive context that then finds no Caddy is counted in RX_CNT_CTX, and the clause asks
that this register stays. -/
theorem not_receiveContexts : ¬ Obligations.ReceiveContexts := by
  unfold Obligations.ReceiveContexts
  rintro ⟨-, hnoSfd, -⟩
  obtain ⟨t, ht, hframe, -⟩ := hnoSfd 5 8 unsyncedCtx ctxTask unsynced rfl rfl rfl rfl rfl (by decide +kernel)
  have hreg : t.dev.reg RX_CNT_CTX = unsynced.dev.reg RX_CNT_CTX := hframe.regs RX_CNT_CTX rfl
  rw [State.onDev_next (g := fun d => noSfd d 5) rfl rfl ht] at hreg
  exact noSfd_counts_ctxFull hreg

end Sys2Proof.Machine
end

section
/-! PROOF. The end of a burst where a task stands under the identifier that names no task (07_transmit.md R187, 03_caddies_and_dispatch.md R64,
R66). -/

namespace Sys2Proof.Machine

/-- A transmit task in service on engine 0 with no successor, and its data burst on port 0, on air and not cut short. -/
def sendingTask : Task := ⟨hwDesc 5 1 0 noFlow 0 0 0, 0, .service 0, none, false, 0, 0, 0, false, false, 0⟩
def burstOnAir : Burst := ⟨5, ⟨40, 0, 0, 0, 0, 0, none, 0, 0, 0, 5000, 0⟩, 5000, 9000, 40, 80, 0, true, 0, 0, ⟨0, []⟩, ⟨0, []⟩, 0⟩

/-- The machine after reset, but for that task, its burst and the task under 0xFFFF, which waits with its counter at 0. -/
def burstEnding : State :=
  let d := ((Dev.blank.setTask 5 sendingTask).setTask noTask unnamedTask).setEngine 0 { Engine.init with tasks := [5] }
  { State.reset with dev := { d with tx := { d.tx with bursts := [(5, burstOnAir)] } } }

/-- "No successor" is looked up as one: the task under 0xFFFF becomes ready, finds no Caddy and leaves the task table. -/
theorem burstEnd_drops_unnamedTask : (burstEnd burstEnding.dev 5 []).task noTask = none := by decide +kernel

/-- Refutes O35, for its clause about BURST_END: the clause leaves the task table free to hold a task under 0xFFFF, which no submitter may
use (R64) and which stands for "no successor" in a descriptor. Where such a task waits with its counter at 0, the end of the burst's task,
which has no successor, makes it ready (here it finds no Caddy and is dropped), and the clause asks that every other task stays. -/
theorem not_bursts : ¬ Obligations.Bursts := by
  unfold Obligations.Bursts
  rintro ⟨-, -, -, hend, -⟩
  obtain ⟨t, ht, -, -, -, -, hother, -⟩ := hend 5 0 [] burstOnAir sendingTask burstEnding rfl (by decide +kernel) rfl rfl rfl (by decide)
    (by decide) rfl (by decide +kernel)
  have hstays : t.dev.task noTask = some unnamedTask := hother noTask (by decide)
  rw [State.onDev_next (g := fun d => burstEnd d 5 []) rfl rfl ht, burstEnd_drops_unnamedTask] at hstays
  cases hstays

end Sys2Proof.Machine
end

section
/-! SUPPORT. Fields of table entries, register pairs and allocators after a write, and the lowest number that a list leaves free. -/

namespace Sys2Proof.Machine

/-! ### What a byte string written reads as -/

theorem Memory.readN_writeN_same (blank : Byte) (m : Memory) (a : Nat) (bs : List Byte) :
    Memory.readN blank (Memory.writeN blank m a bs) a bs.length = bs := by
  refine List.ext_getElem (by simp [Memory.readN]) fun k _ hk => ?_
  simp only [Memory.readN, List.getElem_map, List.getElem_range]
  exact Memory.read_writeN blank m a k bs hk

@[simp] theorem Memory.length_readN (blank : Byte) (m : Memory) (a n : Nat) : (Memory.readN blank m a n).length = n := by simp [Memory.readN]

theorem unle_lt (bs : List Byte) : unle bs < 256 ^ bs.length := by
  induction bs with
  | nil => exact Nat.one_pos
  | cons b bs ih =>
    have hb : b.toNat < 256 := b.isLt
    rw [unle, List.length_cons, Nat.pow_succ']
    omega

/-! ### Fields of a table entry (R238) -/

theorem entryField_lt (d : Dev) (t i off len : Nat) : entryField d t i off len < 256 ^ len := by
  simpa [entryField] using unle_lt (Memory.readN 0 d.tbl.mem (entryAddr d t i + off) len)

theorem entryField_setEntryField_same (d : Dev) (t i off len v : Nat) :
    entryField (setEntryField d t i off len v) t i off len = v % 256 ^ len := by
  have hread := Memory.readN_writeN_same 0 d.tbl.mem (entryAddr d t i + off) (le len v)
  rw [length_le] at hread
  exact (congrArg unle hread).trans (unle_le len v)

/-- A field's write leaves every byte outside the field. -/
theorem read_setEntryField_other (d : Dev) (t i off len v : Nat) {a : Nat}
    (ha : a < entryAddr d t i + off ∨ entryAddr d t i + off + len ≤ a) :
    Memory.read 0 (setEntryField d t i off len v).tbl.mem a = Memory.read 0 d.tbl.mem a :=
  Memory.read_writeN_other 0 d.tbl.mem _ a (le len v) (by rwa [length_le])

theorem Keeps.setEntryField {ps : List Part} {rs : Nat → Bool} {d e : Dev} (h : Keeps ps rs d e) (hp : Part.tbl ∈ ps)
    (t i off len v : Nat) : Keeps ps rs d (setEntryField e t i off len v) := h.tbl hp _

/-! ### Cells (Table TSCH-3) -/

theorem cellWord_lt (d : Dev) (c : Nat) : cellWord d c < 2 ^ 64 := entryField_lt d 4 c 0 8

theorem cellWord_setCell_same (d : Dev) {c w : Nat} (hw : w < 2 ^ 64) : cellWord (setCell d c w) c = w :=
  (entryField_setEntryField_same d 4 c 0 8 w).trans (Nat.mod_eq_of_lt hw)

theorem read_setCell_other (d : Dev) (c w : Nat) {a : Nat} (ha : a < entryAddr d 4 c ∨ entryAddr d 4 c + 8 ≤ a) :
    Memory.read 0 (setCell d c w).tbl.mem a = Memory.read 0 d.tbl.mem a :=
  read_setEntryField_other d 4 c 0 8 w (by rwa [Nat.add_zero])

@[simp] theorem cellWord_setFld (d : Dev) (f : Fld) (v c : Nat) : cellWord (d.setFld f v) c = cellWord d c := rfl

theorem Keeps.setCell {ps : List Part} {rs : Nat → Bool} {d e : Dev} (h : Keeps ps rs d e) (hp : Part.tbl ∈ ps) (c w : Nat) :
    Keeps ps rs d (setCell e c w) := h.setEntryField hp 4 c 0 8 w

/-- The low 63 bits of a word are those of a cell that is not valid. -/
theorem clValid_mod (w : Nat) : clValid (w % 2 ^ 63) = false := by
  rw [clValid, nbit, Nat.testBit_mod_two_pow]
  rfl

/-! ### Register pairs (R9) -/

theorem Dev.reg64_setReg64_same (d : Dev) (lo : Nat) {v : Nat} (hv : v < 2 ^ 64) : (d.setReg64 lo v).reg64 lo = v := by
  rw [Dev.reg64, Dev.reg_setReg64, Dev.reg_setReg64, if_pos rfl, if_neg (by omega), if_pos rfl, BitVec.toNat_ofNat, BitVec.toNat_ofNat]
  omega

/-- A pair after a field of another register is set. -/
theorem Dev.reg64_setFld_other (d : Dev) {f : Fld} {lo : Nat} (hlo : lo ≠ f.reg) (hhi : lo + 4 ≠ f.reg) (v : Nat) :
    (d.setFld f v).reg64 lo = d.reg64 lo := by
  rw [Dev.reg64, Dev.reg_setFld, Dev.reg_setFld, if_neg hlo, if_neg hhi, Dev.reg64]

theorem Keeps.setReg64 {ps : List Part} {rs : Nat → Bool} {d e : Dev} (h : Keeps ps rs d e) {lo : Nat} (hlo : rs lo = true)
    (hhi : rs (lo + 4) = true) (v : Nat) : Keeps ps rs d (e.setReg64 lo v) := (h.setReg hlo _).setReg hhi _

/-! ### Allocators (R230) -/

theorem Dev.alloc_setAlloc (d : Dev) (p q : Nat) (a : Alloc) : (d.setAlloc p a).alloc q = if q = p then a else d.alloc q :=
  Tab.getD_put _ _ _ _ _

@[simp] theorem Dev.alloc_setAlloc_same (d : Dev) (p : Nat) (a : Alloc) : (d.setAlloc p a).alloc p = a := by simp [Dev.alloc_setAlloc]

theorem Dev.alloc_setAlloc_other (d : Dev) {p q : Nat} (h : q ≠ p) (a : Alloc) : (d.setAlloc p a).alloc q = d.alloc q := by
  simp [Dev.alloc_setAlloc, h]

/-- The search finds the first number of its range that the list does not hold. -/
theorem lowestFree_eq {l : List Nat} {n a x : Nat} (hax : a ≤ x) (hxn : x < a + n) (hx : x ∉ l) (hbelow : ∀ y, a ≤ y → y < x → y ∈ l) :
    lowestFree l n a = some x := by
  induction n generalizing a with
  | zero => omega
  | succ n ih =>
    rw [lowestFree]
    rcases Nat.lt_or_eq_of_le hax with hlt | rfl
    · have ha : l.contains a = true := List.contains_iff_mem.mpr (hbelow a le_rfl hlt)
      rw [if_pos ha]
      exact ih hlt (by omega) fun y hy => hbelow y (by omega)
    · rw [if_neg fun h => hx (List.contains_iff_mem.mp h)]

end Sys2Proof.Machine
end

section
/-! PROOF. The cell port and the short-address allocators (08_tsch.md R207, R209, R210, R230). -/

namespace Sys2Proof.Machine

/-! ### Cells (R209, R210) -/

/-- A cell stored for a master, with the result it reads. -/
def cellStored (d : Dev) (c w : Nat) : Dev := (setCell d c w).setFld TS_CELL_STATUS_result tsOK

theorem cellStored_keeps (d : Dev) (c w : Nat) : Keeps [.tbl] (fun r => r == TS_CELL_STATUS) d (cellStored d c w) :=
  ((Keeps.refl d).setCell (by decide) c w).setFld (by decide) _

theorem cellStored_word (d : Dev) {c w : Nat} (hw : w < 2 ^ 64) : cellWord (cellStored d c w) c = w := by
  rw [cellStored, cellWord_setFld, cellWord_setCell_same d hw]

theorem cellStored_result (d : Dev) (c w : Nat) : (cellStored d c w).fld TS_CELL_STATUS_result = tsOK := Dev.fld_setFld_same _ _ _ (by decide)

/-- From Second Steep on every index below 2^20 may be read and invalidated. -/
theorem cellIndexCheck_ok {d : Dev} {idx : Nat} (hstage : 2 ≤ d.stage) (hidx : idx < 1048576) : cellIndexCheck d idx = tsOK := by
  rw [cellIndexCheck, if_neg (by omega), if_neg (by omega)]

theorem cellWrite_ok {d : Dev} {idx w : Nat} (hcheck : cellCheck d idx w = tsOK) (m : Master) :
    cellWrite d (.master m) idx w = cellStored d idx w := by
  simp [cellWrite, hcheck, cellResult, isMaster, cellStored]

theorem cellInvalidate_ok {d : Dev} {idx : Nat} (hcheck : cellIndexCheck d idx = tsOK) (m : Master) :
    cellInvalidate d (.master m) idx = cellStored d idx (cellWord d idx % 2 ^ 63) := by
  simp [cellInvalidate, hcheck, cellResult, isMaster, cellStored]

theorem cellRead_ok {d : Dev} {idx : Nat} (hcheck : cellIndexCheck d idx = tsOK) (m : Master) :
    cellRead d (.master m) idx = (d.setReg64 TS_CELL_DATA_LO (cellWord d idx)).setFld TS_CELL_STATUS_result tsOK := by
  simp [cellRead, hcheck, cellResult, isMaster]

theorem cellWrite_completes {m : Master} {idx w : Nat} {s : State} (hup : s.dev.inReset = false) (hw : w < 2 ^ 64)
    (hcheck : cellCheck s.dev idx w = tsOK) :
    Completes (.cellWrite (.master m) idx w) s [.tbl] (fun r => r == TS_CELL_STATUS) fun t => cellWord t.dev idx = w ∧
      t.dev.fld TS_CELL_STATUS_result = tsOK ∧
      ∀ a, a < entryAddr s.dev 4 idx ∨ entryAddr s.dev 4 idx + 8 ≤ a → Memory.read 0 t.dev.tbl.mem a = Memory.read 0 s.dev.tbl.mem a :=
  completes_of_onDev (g := fun d => cellWrite d (.master m) idx (w % 2 ^ 64)) rfl hup
    (by rw [Nat.mod_eq_of_lt hw, cellWrite_ok hcheck]) (cellStored_keeps _ _ _)
    ⟨cellStored_word _ hw, cellStored_result _ _ _, fun _ ha => read_setCell_other _ _ _ ha⟩

theorem cellInvalidate_completes {m : Master} {idx : Nat} {s : State} (hup : s.dev.inReset = false) (hstage : 2 ≤ s.dev.stage)
    (hidx : idx < 1048576) :
    Completes (.cellInvalidate (.master m) idx) s [.tbl] (fun r => r == TS_CELL_STATUS) fun t =>
      cellWord t.dev idx = cellWord s.dev idx % 2 ^ 63 ∧ clValid (cellWord t.dev idx) = false ∧
      ∀ a, a < entryAddr s.dev 4 idx ∨ entryAddr s.dev 4 idx + 8 ≤ a → Memory.read 0 t.dev.tbl.mem a = Memory.read 0 s.dev.tbl.mem a := by
  have hword : cellWord (cellStored s.dev idx (cellWord s.dev idx % 2 ^ 63)) idx = cellWord s.dev idx % 2 ^ 63 :=
    cellStored_word _ (by omega)
  exact completes_of_onDev (g := fun d => cellInvalidate d (.master m) idx) rfl hup (cellInvalidate_ok (cellIndexCheck_ok hstage hidx) m)
    (cellStored_keeps _ _ _) ⟨hword, by rw [hword, clValid_mod], fun _ ha => read_setCell_other _ _ _ ha⟩

theorem cellRead_completes {m : Master} {idx : Nat} {s : State} (hup : s.dev.inReset = false) (hstage : 2 ≤ s.dev.stage)
    (hidx : idx < 1048576) :
    Completes (.cellRead (.master m) idx) s [] (fun r => r == TS_CELL_STATUS || r == TS_CELL_DATA_LO || r == TS_CELL_DATA_HI) fun t =>
      t.dev.reg64 TS_CELL_DATA_LO = cellWord s.dev idx ∧ t.dev.fld TS_CELL_STATUS_result = tsOK := by
  refine completes_of_onDev (g := fun d => cellRead d (.master m) idx) rfl hup (cellRead_ok (cellIndexCheck_ok hstage hidx) m)
    (((Keeps.refl _).setReg64 (by decide) (by decide) _).setFld (by decide) _) ⟨?_, Dev.fld_setFld_same _ _ _ (by decide)⟩
  exact (Dev.reg64_setFld_other _ (by decide) (by decide) _).trans (Dev.reg64_setReg64_same _ _ (cellWord_lt _ _))

/-! ### Short addresses (R230) -/

/-- An allocator changed for a master, with the result and the address it reads. -/
def allocated (d : Dev) (p x : Nat) (a : Alloc) : Dev :=
  ((d.setAlloc p a).setFld TS_ALLOC_RESULT_result tsOK).setFld TS_ALLOC_RESULT_address x

section
variable (d : Dev) (p x : Nat) (a : Alloc)

theorem allocated_keeps : Keeps [.ts] (fun r => r == TS_ALLOC_RESULT) d (allocated d p x a) :=
  (((Keeps.refl d).setAlloc (by decide) p a).setFld (by decide) _).setFld (by decide) _

theorem allocated_result : (allocated d p x a).fld TS_ALLOC_RESULT_result = tsOK :=
  (Dev.fld_setFld_other _ _ _ _ (by decide)).trans (Dev.fld_setFld_same _ _ _ (by decide))

theorem allocated_address : (allocated d p x a).fld TS_ALLOC_RESULT_address = x % 2 ^ 16 := Dev.fld_setFld_same _ _ _ (by decide)

theorem allocated_alloc (q : Nat) : (allocated d p x a).alloc q = if q = p then a else d.alloc q := Dev.alloc_setAlloc d p q a

end

theorem addrAlloc_lowest {d : Dev} {p x : Nat} (hp : p < 8) (hstage : 3 ≤ d.stage) (hpan : d.panUsed p = true)
    (hroom : (d.alloc p).used.length < topMaxNodes d.topo p) (hfree : lowestFree ((d.alloc p).used ++ (d.alloc p).quarantine) 0xFE00 0 = some x)
    (m : Master) : addrAlloc d (.master m) p = allocated d p x ⟨x :: (d.alloc p).used, (d.alloc p).quarantine⟩ := by
  have hready : ¬ (d.stage < 3 ∨ (!d.panUsed p) = true) := by simp [hpan, hstage]
  rw [addrAlloc, if_neg (by omega), if_neg hready, if_neg (by omega), hfree]
  rfl

theorem addrFree_used {d : Dev} {p x : Nat} (hp : p < 8) (hstage : 3 ≤ d.stage) (hpan : d.panUsed p = true)
    (hused : x ∈ (d.alloc p).used) (hx : x ≤ 0xFDFF) (m : Master) :
    addrFree d (.master m) p x = allocated d p x ⟨(d.alloc p).used.erase x, (d.alloc p).quarantine ++ [x]⟩ := by
  have hready : ¬ (d.stage < 3 ∨ (!d.panUsed p) = true) := by simp [hpan, hstage]
  rw [addrFree, if_neg (by omega), if_neg hready, if_neg (by simp [hused])]
  rfl

theorem addrAlloc_completes {m : Master} {p x : Nat} {s : State} (hup : s.dev.inReset = false) (hp : p < 8) (hstage : 3 ≤ s.dev.stage)
    (hpan : s.dev.panUsed p = true) (hroom : (s.dev.alloc p).used.length < topMaxNodes s.dev.topo p) (hx : x < 0xFE00)
    (hused : x ∉ (s.dev.alloc p).used) (hquar : x ∉ (s.dev.alloc p).quarantine)
    (hbelow : ∀ y, y < x → y ∈ (s.dev.alloc p).used ∨ y ∈ (s.dev.alloc p).quarantine) :
    Completes (.addrAlloc (.master m) p) s [.ts] (fun r => r == TS_ALLOC_RESULT) fun t => t.dev.fld TS_ALLOC_RESULT_result = tsOK ∧
      t.dev.fld TS_ALLOC_RESULT_address = x ∧ t.dev.alloc p = ⟨x :: (s.dev.alloc p).used, (s.dev.alloc p).quarantine⟩ ∧
      ∀ q, q ≠ p → t.dev.alloc q = s.dev.alloc q := by
  have hfree : lowestFree ((s.dev.alloc p).used ++ (s.dev.alloc p).quarantine) 0xFE00 0 = some x :=
    lowestFree_eq (Nat.zero_le x) (by omega) (by simp [hused, hquar]) fun y _ hy => List.mem_append.mpr (hbelow y hy)
  have haddr : x % 2 ^ 16 = x := Nat.mod_eq_of_lt (by omega)
  exact completes_of_onDev (g := fun d => addrAlloc d (.master m) p) rfl hup (addrAlloc_lowest hp hstage hpan hroom hfree m)
    (allocated_keeps _ _ _ _) ⟨allocated_result _ _ _ _, (allocated_address _ _ _ _).trans haddr, (allocated_alloc _ _ _ _ p).trans (if_pos rfl),
      fun q hq => (allocated_alloc _ _ _ _ q).trans (if_neg hq)⟩

theorem addrFree_completes {m : Master} {p x : Nat} {s : State} (hup : s.dev.inReset = false) (hp : p < 8) (hstage : 3 ≤ s.dev.stage)
    (hpan : s.dev.panUsed p = true) (hused : x ∈ (s.dev.alloc p).used) (hx : x ≤ 0xFDFF) :
    Completes (.addrFree (.master m) p x) s [.ts] (fun r => r == TS_ALLOC_RESULT) fun t => t.dev.fld TS_ALLOC_RESULT_result = tsOK ∧
      t.dev.alloc p = ⟨(s.dev.alloc p).used.erase x, (s.dev.alloc p).quarantine ++ [x]⟩ ∧ ∀ q, q ≠ p → t.dev.alloc q = s.dev.alloc q :=
  completes_of_onDev (g := fun d => addrFree d (.master m) p x) rfl hup (addrFree_used hp hstage hpan hused hx m)
    (allocated_keeps _ _ _ _) ⟨allocated_result _ _ _ _, (allocated_alloc _ _ _ _ p).trans (if_pos rfl),
      fun q hq => (allocated_alloc _ _ _ _ q).trans (if_neg hq)⟩

theorem quarantineExpiry_completes {p x : Nat} {s : State} (hup : s.dev.inReset = false) :
    Completes (.quarantineExpiry p x) s [.ts] (fun _ => false) fun t =>
      t.dev.alloc p = ⟨(s.dev.alloc p).used, (s.dev.alloc p).quarantine.erase x⟩ ∧ ∀ q, q ≠ p → t.dev.alloc q = s.dev.alloc q :=
  completes_of_onDev (g := fun d => quarantineExpiry d p x) rfl hup rfl ((Keeps.refl _).setAlloc (by decide) _ _)
    ⟨Dev.alloc_setAlloc_same _ _ _, fun _ hq => Dev.alloc_setAlloc_other _ hq _⟩

/-- Settles O37: each command stores one cell, fills one register pair or changes one PAN's allocator, and reports OK. -/
theorem cellsAndAddresses : Obligations.CellsAndAddresses := by
  unfold Obligations.CellsAndAddresses
  exact ⟨fun _ _ _ _ hup hw hcheck => cellWrite_completes hup hw hcheck,
    fun _ _ _ hup hstage hidx => cellInvalidate_completes hup hstage hidx,
    fun _ _ _ hup hstage hidx => cellRead_completes hup hstage hidx,
    fun _ _ _ _ hup hp hstage hpan hroom hx hused hquar hbelow => addrAlloc_completes hup hp hstage hpan hroom hx hused hquar hbelow,
    fun _ _ _ _ hup hp hstage hpan hused hx => addrFree_completes hup hp hstage hpan hused hx,
    fun _ _ _ hup => quarantineExpiry_completes hup⟩

end Sys2Proof.Machine
end

section
/-! PROOF. Table memory keeps its canonical form under the cell and table commands (09_tables.md R236, R238, R257). -/

namespace Sys2Proof.Machine

/-- Shared Table Memory lists its bytes in canonical form: what an unlisted byte reads as is 0. -/
def TableCanonical (d : Dev) : Prop := Memory.wf 0 d.tbl.mem = true

/-! ### Writes of bytes, entries and fields -/

section
variable {d e : Dev}

theorem TableCanonical.of_tbl (h : TableCanonical d) (htbl : e.tbl = d.tbl) : TableCanonical e := by
  rw [TableCanonical, htbl]
  exact h

theorem TableCanonical.setEntryAt (h : TableCanonical d) (t i off : Nat) (bs : List Byte) : TableCanonical (setEntryAt d t i off bs) :=
  Memory.wf_writeN 0 d.tbl.mem _ bs h

theorem TableCanonical.setEntry (h : TableCanonical d) (t i : Nat) (bs : List Byte) : TableCanonical (setEntry d t i bs) :=
  h.setEntryAt t i 0 _

theorem TableCanonical.setEntryField (h : TableCanonical d) (t i off len v : Nat) : TableCanonical (setEntryField d t i off len v) :=
  h.setEntryAt t i off _

theorem TableCanonical.setCell (h : TableCanonical d) (c w : Nat) : TableCanonical (setCell d c w) := h.setEntryField 4 c 0 8 w

theorem TableCanonical.setNodeCtrl (h : TableCanonical d) (n hi lo v : Nat) : TableCanonical (setNodeCtrl d n hi lo v) :=
  h.setEntryField 0 n 0 4 _

/-! ### Versions, results, events and queues, which leave table memory -/

theorem TableCanonical.bumpVersion (h : TableCanonical d) (t sector b : Nat) : TableCanonical (bumpVersion d t sector b) := h

theorem TableCanonical.inc (h : TableCanonical d) (f : Fld) : TableCanonical (d.inc f) := h

theorem TableCanonical.setReqPort (h : TableCanonical d) (m : Sys2Proof.Master) (x : ReqPort) : TableCanonical (d.setReqPort m x) := by
  unfold Dev.setReqPort
  split <;> exact h

theorem TableCanonical.reqEnd (h : TableCanonical d) (m : Sys2Proof.Master) (r found : Nat) (data : List Byte) :
    TableCanonical (reqEnd d m r found data) := h.setReqPort m _

theorem TableCanonical.reqFail (h : TableCanonical d) (m : Sys2Proof.Master) (r : Nat) : TableCanonical (reqFail d m r) := h.setReqPort m _

theorem TableCanonical.reqFound (h : TableCanonical d) (m : Sys2Proof.Master) (r found : Nat) : TableCanonical (reqFound d m r found) :=
  h.setReqPort m _

theorem TableCanonical.raise (h : TableCanonical d) (k unit detail : Nat) : TableCanonical (raise d k unit detail) :=
  h.of_tbl (raise_tbl d k unit detail)

theorem TableCanonical.noteMemErr (h : TableCanonical d) (t i : Nat) : TableCanonical (noteMemErr d t i) :=
  (h.inc TBL_CNT_ERR_mem_err).raise 128 _ 0

theorem TableCanonical.memErr (h : TableCanonical d) (m : Sys2Proof.Master) (t i : Nat) : TableCanonical (memErr d m t i) :=
  (h.reqFail m _).noteMemErr t i

theorem TableCanonical.memFail (h : TableCanonical d) (t i : Nat) : TableCanonical (memFail d t i).2.2 := h.noteMemErr t i

theorem TableCanonical.cellResult (h : TableCanonical d) (who : Sys2Proof.Who) (code : Nat) (data : List Byte) :
    TableCanonical (cellResult d who code data) := by
  unfold Machine.cellResult
  split
  · exact h
  · cases who <;> exact h

theorem moveSector_tbl (d : Dev) (nix new : Nat) : (moveSector d nix new).tbl = d.tbl := by
  refine List.foldlRecOn (motive := fun a : Dev => a.tbl = d.tbl) _ _ rfl fun a ha k _ => ?_
  refine List.foldlRecOn (motive := fun b : Dev => b.tbl = d.tbl) _ _ ha fun b hb i _ => ?_
  dsimp only
  split <;> exact hb

theorem TableCanonical.sectorMoved (h : TableCanonical d) (n old : Nat) : TableCanonical (sectorMoved d n old) := by
  unfold Machine.sectorMoved
  split
  · exact h
  · exact h.of_tbl (moveSector_tbl d n _)

theorem TableCanonical.wqPush (h : TableCanonical d) (q ep : Nat) (w : Word64) : TableCanonical (wqPush d q ep w).1 := by
  unfold Machine.wqPush
  split_ifs <;> exact h

/-! ### Keyed tables (R240 to R246) -/

theorem TableCanonical.keyedLookup (h : TableCanonical d) (t : Nat) (k : List Byte) (changed : Nat) :
    TableCanonical (keyedLookup d t k changed).2 := by
  unfold Machine.keyedLookup
  dsimp only
  split <;> exact h

theorem TableCanonical.placeIn (h : TableCanonical d) {t sector b i : Nat} {bs : List Byte} (hp : placeIn d t sector b bs = some (i, e)) :
    TableCanonical e := by
  obtain ⟨f, -, hf⟩ := Option.map_eq_some_iff.mp hp
  obtain ⟨-, rfl⟩ := Prod.mk.inj hf
  exact (h.setEntry t f bs).bumpVersion t sector b

/-- An entry placed in one bucket or else in the other. -/
theorem TableCanonical.placeIn_or (h : TableCanonical d) {t sector b c i : Nat} {bs : List Byte}
    (hp : (Machine.placeIn d t sector b bs).or (Machine.placeIn d t sector c bs) = some (i, e)) : TableCanonical e := by
  rcases Option.or_eq_some_iff.mp hp with hb | ⟨-, hc⟩
  · exact h.placeIn hb
  · exact h.placeIn hc

theorem TableCanonical.relocate (h : TableCanonical d) (x y : Nat) : TableCanonical (relocate d x y) := by
  unfold Machine.relocate
  split
  next => exact h
  next f _ => exact (((h.setEntry 1 f _).bumpVersion 1 0 y).setEntry 1 x _).bumpVersion 1 0 _

theorem TableCanonical.insertAddr (h : TableCanonical d) (k : List Byte) (nix : Nat) : TableCanonical (insertAddr d k nix).2.2 := by
  unfold Machine.insertAddr
  dsimp only
  split
  · exact h.memFail 0 nix
  · split
    · exact h
    · split
      · exact h.memFail 1 _
      · split
        · exact h
        · split
          next hp => exact (h.placeIn_or hp).setNodeCtrl nix 23 22 _
          next =>
            split
            · exact h.memFail 1 _
            · exact h
            next path _ _ =>
              have hpath : TableCanonical (path.foldl (fun a mv => Machine.relocate a mv.1 mv.2) d) :=
                List.foldlRecOn path _ h fun _ ha mv _ => ha.relocate mv.1 mv.2
              split
              next hp => exact (hpath.placeIn_or hp).setNodeCtrl nix 23 22 _
              next => exact hpath

theorem TableCanonical.insertHear (h : TableCanonical d) (sector nix : Nat) (bs : List Byte) :
    TableCanonical (insertHear d sector nix bs).2.2 := by
  unfold Machine.insertHear
  dsimp only
  split
  · exact h.memFail 2 _
  · split
    · exact h
    · split
      next hp => exact h.placeIn_or hp
      next => exact ((h.setEntry 2 _ _).inc TBL_CNT_INSERT_evicted).bumpVersion 2 sector _

theorem TableCanonical.insertNode (h : TableCanonical d) (n : Nat) (bs : List Byte) : TableCanonical (insertNode d n bs).2.2 := by
  unfold Machine.insertNode
  dsimp only
  split_ifs
  · exact h
  · exact h.memFail 0 n
  · exact h
  · exact h
  · exact h
  · exact (h.setEntry 0 n bs).setNodeCtrl n 23 22 0

theorem TableCanonical.clearHear (h : TableCanonical d) (sector nix : Nat) : TableCanonical (clearHear d sector nix) := by
  unfold Machine.clearHear
  split
  · exact h
  · exact h.setEntry 2 _ _

theorem TableCanonical.removeEntry (h : TableCanonical d) (t index sector : Nat) (k : List Byte) :
    TableCanonical (removeEntry d t index sector k).2 := by
  unfold Machine.removeEntry
  split
  next x _ => exact h.noteMemErr x.1 x.2
  next =>
    split_ifs
    · exact h
    · exact h
    · exact h
    · exact List.foldlRecOn _ _ (h.setNodeCtrl index 31 31 0) fun _ ha s _ => ha.clearHear s index
    · exact h
    · split
      next => exact h
      next i _ => exact ((h.setEntry 1 i _).bumpVersion 1 0 _).setNodeCtrl _ 23 22 _
    · exact h
    · exact h
    · exact h.clearHear sector index

/-! ### Merges and learning (R248, R249) -/

theorem TableCanonical.learnNotice (h : TableCanonical d) (sector nix lqi : Nat) (best : Nat × Nat) :
    TableCanonical (learnNotice d sector nix lqi best) := by
  unfold Machine.learnNotice
  dsimp only
  split_ifs
  · exact h
  · exact h
  · exact h.wqPush _ epDispatcher _

theorem TableCanonical.hearMerge (h : TableCanonical d) (sector nix : Nat) (ports rssis : List Byte) (lqi : Nat) :
    TableCanonical (hearMerge d sector nix ports rssis lqi).2 := by
  unfold Machine.hearMerge
  dsimp only
  split
  · exact h.noteMemErr 2 _
  · split
    · split
      · exact h
      · exact h.learnNotice sector nix lqi _
    · exact h.setEntry 2 _ _

end

/-! ### The commands -/

section
variable {d : Dev}

theorem TableCanonical.cellWrite (h : TableCanonical d) (who : Sys2Proof.Who) (idx w : Nat) : TableCanonical (cellWrite d who idx w) := by
  unfold Machine.cellWrite
  dsimp only
  split
  · exact (h.setCell idx w).cellResult who _ _
  · exact h.cellResult who _ _

theorem TableCanonical.cellInvalidate (h : TableCanonical d) (who : Sys2Proof.Who) (idx : Nat) : TableCanonical (cellInvalidate d who idx) := by
  unfold Machine.cellInvalidate
  dsimp only
  split
  · exact (h.setCell idx _).cellResult who _ _
  · exact h.cellResult who _ _

theorem TableCanonical.tableRead (h : TableCanonical d) (m : Sys2Proof.Master) (t i part : Nat) : TableCanonical (tableRead d m t i part) := by
  unfold Machine.tableRead
  split_ifs
  · exact h.reqFail m _
  · exact h.reqFail m _
  · exact h.reqFail m _
  · exact h.memErr m t i
  · exact h.reqEnd m _ i _
  · exact h.reqEnd m _ i _

theorem TableCanonical.writeNode (h : TableCanonical d) (n : Nat) (bs : List Byte) : TableCanonical (writeNode d n bs) :=
  (h.setEntry 0 n _).sectorMoved n _

theorem TableCanonical.tableWrite (h : TableCanonical d) (m : Sys2Proof.Master) (t i : Nat) (bs : List Byte) :
    TableCanonical (tableWrite d m t i bs) := by
  unfold Machine.tableWrite
  split_ifs
  · exact h.reqFail m _
  · exact h.reqFail m _
  · exact h.reqFail m _
  · exact h.memErr m t i
  · exact (h.writeNode i bs).reqFound m _ i
  · exact (h.setEntry 5 i bs).reqFound m _ i

theorem TableCanonical.tableLookup (h : TableCanonical d) (m : Sys2Proof.Master) (t : Nat) (k : List Byte) (changed : Nat) :
    TableCanonical (tableLookup d m t k changed) := by
  have hlooked := h.keyedLookup t k changed
  unfold Machine.tableLookup
  split
  · exact h.reqFail m _
  · split
    · exact h.reqFail m _
    · split
      · exact h.reqFail m _
      · dsimp only
        split
        · exact hlooked.memErr m t _
        · exact hlooked.reqFail m _
        · exact hlooked.reqEnd m _ _ _

/-- An INSERT ends with the index written, or with the cause of its failure. -/
theorem TableCanonical.insertEnd (m : Sys2Proof.Master) {x : Nat × Nat × Dev} (h : TableCanonical x.2.2) :
    TableCanonical (if x.1 = tbOK then Machine.reqFound x.2.2 m x.1 x.2.1 else Machine.reqFail x.2.2 m x.1) := by
  split
  · exact h.reqFound m _ _
  · exact h.reqFail m _

theorem TableCanonical.tableInsert (h : TableCanonical d) (m : Sys2Proof.Master) (t index sector : Nat) (k data : List Byte) :
    TableCanonical (tableInsert d m t index sector k data) := by
  have hinserted : TableCanonical (if t = 0 then Machine.insertNode d index data
      else if t = 1 then (if keyOk 1 k then Machine.insertAddr d k index else (tbRANGE, 0, d))
      else if 16 ≤ sector ∨ d.tableEntries 0 ≤ index then (tbRANGE, 0, d) else Machine.insertHear d sector index data).2.2 := by
    split_ifs
    · exact h.insertNode index data
    · exact h.insertAddr k index
    · exact h
    · exact h
    · exact h.insertHear sector index data
  unfold Machine.tableInsert
  split
  · exact h.reqFail m _
  · split
    · exact h.reqFail m _
    · exact TableCanonical.insertEnd m hinserted

theorem TableCanonical.tableRemove (h : TableCanonical d) (m : Sys2Proof.Master) (t index sector : Nat) (k : List Byte) :
    TableCanonical (tableRemove d m t index sector k) := by
  unfold Machine.tableRemove
  split_ifs
  · exact h.reqFail m _
  · exact h.reqFail m _
  · exact (h.removeEntry t index sector k).reqFail m _

/-- CAS, ADD and MAX alike (R257). -/
theorem TableCanonical.fieldOp (h : TableCanonical d) (m : Sys2Proof.Master) (t i off : Nat) (wide : Bool)
    (f : Nat → Nat × Nat × List Byte) : TableCanonical (fieldOp d m t i off wide f) := by
  unfold Machine.fieldOp
  dsimp only
  split
  · exact h.memErr m t i
  · split
    · exact h.reqFail m _
    · have hset := h.setEntryField t i off (if wide then 8 else 4) (f (entryField d t i off (if wide then 8 else 4))).2.1
      split
      · exact (hset.sectorMoved i _).reqEnd m _ i _
      · exact hset.reqEnd m _ i _

theorem TableCanonical.hearMergeOp (h : TableCanonical d) (m : Sys2Proof.Master) (sector nix : Nat) (ports rssis : List Byte) (lqi : Nat) :
    TableCanonical (hearMergeOp d m sector nix ports rssis lqi) := by
  unfold Machine.hearMergeOp
  split_ifs
  · exact h.reqFail m _
  · exact h.reqFail m _
  · exact h.reqFail m _
  · exact (h.hearMerge sector nix ports rssis lqi).reqFail m _

theorem TableCanonical.sweepVisit (h : TableCanonical d) (hitNow : Bool) : TableCanonical (sweepVisit d hitNow) := by
  have hmoved : TableCanonical { d with tbl := { d.tbl with sweep := (d.tbl.sweep + 1) % d.tableEntries 2 } } := h
  unfold Machine.sweepVisit
  split
  · exact h
  · dsimp only
    split_ifs
    · exact hmoved
    · exact hmoved.setEntryField 2 _ 0 4 _
    · exact hmoved.setEntryField 2 _ 0 4 _
    · exact hmoved.setEntryField 2 _ 0 4 _
    · exact hmoved.setEntry 2 _ _

theorem TableCanonical.peerHoldExpiry (h : TableCanonical d) (k : Nat) : TableCanonical (peerHoldExpiry d k) := by
  unfold Machine.peerHoldExpiry
  dsimp only
  split
  · exact h
  · have hcleared : ∀ l : List Nat, TableCanonical (l.foldl (fun a c => Machine.setCell a c (cellWord a c % 2 ^ 63)) d) := fun l =>
      List.foldlRecOn l _ h fun _ ha c _ => ha.setCell c _
    exact TableCanonical.raise (d := Dev.setPeer _ k _) (hcleared _) 114 k 0

end

/-- A command of the core keeps the canonical form when its operation on the device does. -/
theorem TableCanonical.onDev {c : Instr} {s t : State} (hs : TableCanonical s.dev) (ht : exec c s = .next t) (g : Dev → Dev)
    (hc : exec c s = s.onDev g) (hg : TableCanonical (g s.dev)) : TableCanonical t.dev := by
  cases hreset : s.dev.inReset with
  | true =>
    cases (s.onDev_down g hreset).symm.trans (hc.symm.trans ht)
    exact hs
  | false =>
    rw [State.onDev_next hc hreset ht]
    exact hg

/-- Settles O40: every such command reaches table memory through byte writes alone, each of which keeps the canonical form. -/
theorem tableMemoryCanonical : Obligations.TableMemoryCanonical := by
  unfold Obligations.TableMemoryCanonical
  refine ⟨rfl, fun c s t hs ht hc => ?_⟩
  have h : TableCanonical s.dev := hs
  have step := h.onDev ht
  rcases hc with ⟨w, i, v, rfl⟩ | ⟨w, i, rfl⟩ | ⟨m, a, b, x, rfl⟩ | ⟨m, a, b, x, rfl⟩ | ⟨m, a, b, x, rfl⟩ | ⟨m, a, b, x, y, z, rfl⟩ |
    ⟨m, a, b, x, y, rfl⟩ | ⟨m, a, b, x, y, z, v, rfl⟩ | ⟨m, a, b, x, y, z, rfl⟩ | ⟨m, a, b, x, y, z, rfl⟩ | ⟨m, a, b, x, y, z, rfl⟩ |
    ⟨hitNow, rfl⟩ | ⟨k, rfl⟩
  · exact step (cellWrite · w i (v % 2 ^ 64)) rfl (h.cellWrite w i _)
  · exact step (cellInvalidate · w i) rfl (h.cellInvalidate w i)
  · exact step (tableRead · m a b x) rfl (h.tableRead m a b x)
  · exact step (tableWrite · m a b x) rfl (h.tableWrite m a b x)
  · exact step (tableLookup · m a b x) rfl (h.tableLookup m a b x)
  · exact step (tableInsert · m a b x y z) rfl (h.tableInsert m a b x y z)
  · exact step (tableRemove · m a b x y) rfl (h.tableRemove m a b x y)
  · exact step (casField · m a b x y z v) rfl (h.fieldOp m a b x y _)
  · exact step (addField · m a b x y z) rfl (h.fieldOp m a b x y _)
  · exact step (maxField · m a b x y z) rfl (h.fieldOp m a b x y _)
  · exact step (hearMergeOp · m a b x y z) rfl (h.hearMergeOp m a b x y z)
  · exact step (sweepVisit · hitNow) rfl (h.sweepVisit hitNow)
  · exact step (peerHoldExpiry · k) rfl (h.peerHoldExpiry k)

end Sys2Proof.Machine
end

section
/-! PROOF. One cycle of SYSCLK: the time bases advance, and a head left biased is sent its OFFs (11_time.md R293, R295, 05_head_control.md R126,
R140). -/

namespace Sys2Proof.Machine

/-! ### A time base after a cycle (R293, R295) -/

/-- The three views of a counter together hold the whole counter, within the range of the seconds view. -/
theorem TimeBase.raw_setRaw (b : TimeBase) (v : Int) : ((b.setRaw v).raw : Int) = v % ((2 ^ 48 * 1000000000 * 2 ^ 48 : Nat) : Int) := by
  have hnonneg := Int.emod_nonneg v (show ((2 ^ 48 * 1000000000 * 2 ^ 48 : Nat) : Int) ≠ 0 by decide)
  simp only [TimeBase.raw, TimeBase.setRaw]
  omega

theorem TimeBase.ns_setRaw_lt (b : TimeBase) (v : Int) : (b.setRaw v).ns < 1000000000 := Nat.mod_lt _ (by decide)

theorem TimeBase.frac_setRaw_lt (b : TimeBase) (v : Int) : (b.setRaw v).frac < 2 ^ 48 := Nat.mod_lt _ (by decide)

theorem TimeBase.tick_none {b : TimeBase} (h : b.counter = none) : b.tick = b := if_pos (by rw [h]; rfl)

theorem TimeBase.tick_counter {b : TimeBase} (h : b.counter ≠ none) :
    b.tick = b.setRaw ((b.raw : Int) + 625 * 2 ^ 8 * (2 ^ 40 + b.rate) / 24) := if_neg (by simpa using h)

/-! ### The device after a cycle -/

theorem step_emptyQueue {s : State} (h : s.pending = []) : step s = .next { s with dev := cycle s.dev } := by
  rw [step, h]

section
variable {d : Dev}

theorem cycle_down (h : d.inReset = true) : cycle d = d := if_pos h

theorem cycle_up (h : d.inReset = false) : cycle d = headsDue (tickTime d) := if_neg (by rw [h]; decide)

theorem tickTime_up (h : d.inReset = false) : tickTime d = { d with tim := { d.tim with bases := d.tim.bases.map TimeBase.tick } } :=
  if_neg (by rw [h]; decide)

theorem tickTime_keeps (d : Dev) : Keeps [.tim] (fun _ => false) d (tickTime d) := (Keeps.refl d).ite ((Keeps.refl d).tim (by decide) _)

end

/-! ### Heads whose PA is biased (R126, R140) -/

section
variable {d : Dev} {p : Nat}

theorem Keeps.timed {ps : List Part} {rs : Nat → Bool} {e : Dev} (h : Keeps ps rs d e) (hp : Part.ports ∈ ps) (ho : Part.outs ∈ ps)
    (p id : Nat) (payload : List Byte) (t : Nat) : Keeps ps rs d (timed e p id payload t) := h.ctrlSend hp ho _ _ _ _

theorem offsDue_keeps (d : Dev) (p : Nat) : Keeps [.ports, .hc, .outs] (fun _ => false) d (offsDue d p) := by
  unfold offsDue
  exact (Keeps.refl d).ite ((((Keeps.refl d).timed (by decide) (by decide) _ _ _ _).timed (by decide) (by decide) _ _ _ _).setHead
    (by decide) _ _)

theorem headsDue_keeps (d : Dev) : Keeps [.ports, .hc, .outs] (fun _ => false) d (headsDue d) :=
  Keeps.foldl (Keeps.refl d) (fun x (e : Nat × Head) => offsDue_keeps x e.1) _

theorem headsDue_unbiased (h : ∀ e ∈ d.hc.heads, e.2.onCmd = false) : headsDue d = d := by
  have hnone : (d.hc.heads.filter fun e => e.2.onCmd) = [] := List.filter_eq_nil_iff.mpr fun e he => by simp [h e he]
  rw [headsDue, hnone, List.foldl_nil]

theorem headsDue_one {e : Nat × Head} (h : (d.hc.heads.filter fun e => e.2.onCmd) = [e]) : headsDue d = offsDue d e.1 := by
  rw [headsDue, h, List.foldl_cons, List.foldl_nil]

/-- Without bursts no chain extends its instant. -/
theorem chainEnd_nil (gap n t : Nat) : chainEnd [] gap n t = t := by
  induction n with
  | zero => rfl
  | succ n ih => exact ih

theorem biasedUntil_idle (h : d.tx.bursts = []) (p : Nat) : biasedUntil d p = d.ns := by
  rw [biasedUntil, headBursts, h]
  exact chainEnd_nil _ _ _

theorem timed_ahead {t : Nat} (h : d.ns + 20000 ≤ t) (p id : Nat) (payload : List Byte) :
    timed d p id payload t = ctrlSend d p id (payload ++ le 5 (atField d p t)) (some t) := by
  rw [timed, max_eq_left h]

theorem ns_ctrlSend (d : Dev) (p id : Nat) (payload : List Byte) (at? : Option Nat) : (ctrlSend d p id payload at?).ns = d.ns := by
  dsimp only [ctrlSend]
  split <;> rfl

/-- A request sent leaves the hyperframe that instants are measured from. -/
theorem atField_ctrlSend (d : Dev) (p id : Nat) (payload : List Byte) (at? : Option Nat) (t : Nat) :
    atField (ctrlSend d p id payload at?) p t = atField d p t := by
  have hport : ((ctrlSend d p id payload at?).port p).hyperAt = (d.port p).hyperAt ∧
      ((ctrlSend d p id payload at?).port p).hyperNum = (d.port p).hyperNum := by
    dsimp only [ctrlSend]
    split <;> simp [ctrlNow]
  have hfld : (ctrlSend d p id payload at?).fld (YL_DLY_DOWN_value p) = d.fld (YL_DLY_DOWN_value p) := by
    dsimp only [ctrlSend]
    split <;> rfl
  simp only [atField, hport, hfld]

/-- A tag that no outstanding request carries is taken as it is. -/
theorem outs_ctrlSend_nextTag (hroom : (d.port p).reqs.length < 16) (hfree : ((d.port p).reqs.map (·.tag)).contains (d.port p).nextTag = false)
    (id : Nat) (payload : List Byte) (at? : Option Nat) :
    (ctrlSend d p id payload at?).outs = .control p id (d.port p).nextTag payload :: d.outs := by
  rw [ctrlSend_room hroom, ctrlNow, freeTag_unused hfree]
  rfl

/-- Two requests of a port with none outstanding take its next two tags. -/
theorem outs_ctrlSend_two (h : (d.port p).reqs = []) (id id' : Nat) (payload payload' : List Byte) (at? at?' : Option Nat) :
    (ctrlSend (ctrlSend d p id payload at?) p id' payload' at?').outs =
      .control p id' ((d.port p).nextTag % 255 + 1) payload' :: .control p id (d.port p).nextTag payload :: d.outs := by
  have hnext : (d.port p).nextTag % 255 + 1 ≠ (d.port p).nextTag := by omega
  rw [ctrlSend_first h, outs_ctrlSend_nextTag (by simp) (by simp [hnext])]
  rw [Dev.port_emit, Dev.port_setPort_same]
  rfl

/-- PA_BIAS 0 and TR_SWITCH 0 of a head sent 20 µs ahead. -/
def offsSent (d : Dev) (p : Nat) : Dev :=
  timed (timed d p cmPA_BIAS (le 1 0) (d.ns + 20000)) p cmTR_SWITCH (le 1 0) (d.ns + 21000)

theorem offsDue_idle (hon : (d.head p).onCmd = true) (hbursts : d.tx.bursts = []) (hloop : looped d p = false)
    (hlink : within (d.portState p) ylCALIBRATE ylDRAINING = true) :
    offsDue d p = (offsSent d p).setHead p { (offsSent d p).head p with onCmd := false } := by
  simp [offsDue, hon, hloop, hlink, biasedUntil_idle hbursts, offsSent]

theorem outs_offsSent (h : (d.port p).reqs = []) :
    (offsSent d p).outs =
      [.control p cmTR_SWITCH ((d.port p).nextTag % 255 + 1) (0 :: le 5 (atField d p (d.ns + 21000))),
        .control p cmPA_BIAS (d.port p).nextTag (0 :: le 5 (atField d p (d.ns + 20000)))] ++ d.outs := by
  rw [offsSent, timed_ahead le_rfl, timed_ahead (by rw [ns_ctrlSend]; omega), atField_ctrlSend, outs_ctrlSend_two h]
  rfl

end

/-! ### The step -/

theorem step_emptyQueue_down {s : State} (hq : s.pending = []) (hdown : s.dev.inReset = true) : step s = .next s := by
  rw [step_emptyQueue hq, cycle_down hdown]

theorem tim_cycle {d : Dev} (hup : d.inReset = false) : (cycle d).tim = { d.tim with bases := d.tim.bases.map TimeBase.tick } := by
  rw [cycle_up hup, (headsDue_keeps (tickTime d)).parts .tim (by decide), tickTime_up hup]

theorem frame_cycle_unbiased {s : State} (hup : s.dev.inReset = false) (h : ∀ e ∈ s.dev.hc.heads, e.2.onCmd = false) :
    Frame [.tim] (fun _ => false) s { s with dev := cycle s.dev } := by
  have hheads : ∀ e ∈ (tickTime s.dev).hc.heads, e.2.onCmd = false := by rw [tickTime_up hup]; exact h
  have hcycle : cycle s.dev = tickTime s.dev := (cycle_up hup).trans (headsDue_unbiased hheads)
  exact ⟨rfl, rfl, hcycle ▸ (tickTime_keeps s.dev).parts, hcycle ▸ (tickTime_keeps s.dev).regs⟩

theorem cycle_biasedIdle {d : Dev} {p : Nat} (hup : d.inReset = false) (hone : (d.hc.heads.filter fun e => e.2.onCmd) = [(p, d.head p)])
    (hbursts : d.tx.bursts = []) (hloop : looped d p = false) (hlink : within (d.portState p) ylCALIBRATE ylDRAINING = true) :
    cycle d = (offsSent (tickTime d) p).setHead p { (offsSent (tickTime d) p).head p with onCmd := false } := by
  have hmem : (p, d.head p) ∈ d.hc.heads.filter fun e => e.2.onCmd := by rw [hone]; exact List.mem_singleton_self _
  have hon : (d.head p).onCmd = true := (List.mem_filter.mp hmem).2
  have htick := tickTime_up hup
  rw [cycle_up hup, headsDue_one (e := (p, d.head p)) (by rw [htick]; exact hone)]
  exact offsDue_idle (by rw [htick]; exact hon) (by rw [htick]; exact hbursts) (by rw [htick]; exact hloop) (by rw [htick]; exact hlink)

/-- Settles O2: the counters of the bases tick, and only a head that is biased is sent anything. -/
theorem emptyQueueStepIsOneCycle : Obligations.EmptyQueueStepIsOneCycle := by
  unfold Obligations.EmptyQueueStepIsOneCycle
  refine ⟨fun s => step_emptyQueue_down, fun s hq hup => ?tick, fun p s hq hup hone hbursts hloop hlink hreqs => ?offs⟩
  case tick =>
    have htim := tim_cycle hup
    refine ⟨_, step_emptyQueue hq, rfl, hq, frame_cycle_unbiased hup, by rw [htim], by rw [htim]; exact List.length_map _, fun n b hb => ?_⟩
    refine ⟨b.tick, by rw [htim]; simp [hb], TimeBase.tick_none, fun hcounter => ?_⟩
    rw [TimeBase.tick_counter hcounter]
    exact ⟨rfl, b.ns_setRaw_lt _, b.frac_setRaw_lt _, b.raw_setRaw _⟩
  case offs =>
    have hcycle := cycle_biasedIdle hup hone hbursts hloop hlink
    have htick := tickTime_up hup
    have houts : (cycle s.dev).outs = (offsSent (tickTime s.dev) p).outs := (congrArg Dev.outs hcycle :)
    refine ⟨_, step_emptyQueue hq, by rw [hcycle, Dev.head_setHead_same], houts.trans ((outs_offsSent (by rw [htick]; exact hreqs)).trans ?_)⟩
    rw [htick]
    rfl

end Sys2Proof.Machine
end

section
/-! PROOF. The mesh source, its hold and the epochs of PANs (11_time.md R303 to R310). -/

namespace Sys2Proof.Machine

/-! ### A base set, and its rate (R295) -/

theorem Dev.tb_setTb (d : Dev) {n : Nat} (h : n < d.tim.bases.length) (b : TimeBase) (k : Nat) :
    (d.setTb n b).tb k = if k = n then b else d.tb k := by
  by_cases hk : k = n
  · simp [Dev.tb, Dev.setTb, hk, List.getElem?_set_self h]
  · simp [Dev.tb, Dev.setTb, hk, List.getElem?_set_ne (Ne.symm hk)]

theorem Keeps.setTb {ps : List Part} {rs : Nat → Bool} {d e : Dev} (h : Keeps ps rs d e) (hp : Part.tim ∈ ps) (n : Nat) (b : TimeBase) :
    Keeps ps rs d (e.setTb n b) := h.tim hp _

/-- Where no convergence limits it, a base's rate is held within ±200 ppm alone. -/
theorem setRate_free {d : Dev} (h : d.tim.converge = none) (n : Nat) (r : Int) : ∃ c, setRate d n r =
    d.setTb n { d.tb n with rate := clampInt r (-rateLimit) rateLimit, clamped := c } := by
  rw [setRate, h]
  exact ⟨_, rfl⟩

/-! ### Validity of sources (R303) -/

/-- One source brought up to date with what is valid of `d`. -/
def refreshSource (d a : Dev) (k : Nat) : Dev :=
  a.setSource k { a.source k with
    valid := sourceValid d k, since := if sourceValid d k && !(a.source k).valid then d.ns else (a.source k).since,
    diffs := if sourceValid d k then (a.source k).diffs else [] }

theorem updateSources_eq (d : Dev) : updateSources d =
    ((((List.range 5).foldl (refreshSource d) d).setBit TIM_STATUS_a_valid (sourceValid d 0)).setBit
      TIM_STATUS_b_valid (sourceValid d 1)).setBit TIM_STATUS_site_valid (sourceValid d 2) := rfl

theorem Dev.source_setSource (d : Dev) (k j : Nat) (x : MeshSource) : (d.setSource k x).source j = if j = k then x else d.source j :=
  Tab.getD_put _ _ _ _ _

/-- The sources alone change as they are brought up to date. -/
theorem foldl_refreshSource (d a : Dev) (l : List Nat) :
    ∃ x, l.foldl (refreshSource d) a = { a with tim := { a.tim with sources := x } } :=
  List.foldlRecOn l (refreshSource d) (motive := fun e => ∃ x, e = { a with tim := { a.tim with sources := x } }) ⟨_, rfl⟩
    fun _ ⟨_, he⟩ _ _ => he ▸ ⟨_, rfl⟩

theorem valid_foldl_refreshSource (d a : Dev) (l : List Nat) (k : Nat) :
    ((l.foldl (refreshSource d) a).source k).valid = if k ∈ l then sourceValid d k else (a.source k).valid := by
  induction l generalizing a with
  | nil => rfl
  | cons j l ih =>
    rw [List.foldl_cons, ih, refreshSource, Dev.source_setSource]
    by_cases hk : k = j
    · subst hk; simp
    · simp [hk]

section
variable (d : Dev)

theorem valid_updateSources {k : Nat} (hk : k < 5) : ((updateSources d).source k).valid = sourceValid d k :=
  (valid_foldl_refreshSource d d (List.range 5) k).trans (if_pos (List.mem_range.mpr hk))

theorem tim_updateSources : ∃ x, (updateSources d).tim = { d.tim with sources := x } := by
  obtain ⟨x, hx⟩ := foldl_refreshSource d d (List.range 5)
  exact ⟨x, congrArg Dev.tim hx⟩

theorem bases_updateSources : (updateSources d).tim.bases = d.tim.bases := by
  obtain ⟨x, hx⟩ := tim_updateSources d
  rw [hx]

theorem tb_updateSources (k : Nat) : (updateSources d).tb k = d.tb k := by rw [Dev.tb, bases_updateSources, Dev.tb]

theorem updateSources_keeps : Keeps [.tim] (fun r => r == TIM_STATUS) d (updateSources d) := by
  obtain ⟨x, hx⟩ := foldl_refreshSource d d (List.range 5)
  rw [updateSources_eq, hx]
  exact ((((Keeps.refl d).tim (by decide) _).setBit rfl _).setBit rfl _).setBit rfl _

theorem fld_updateSources {f : Fld} (h : f.reg ≠ TIM_STATUS) : (updateSources d).fld f = d.fld f := by
  rw [Dev.fld, (updateSources_keeps d).regs _ (by simpa using h), Dev.fld]

/-- The selected source stands beside the validity of the sources. -/
theorem meshSrc_updateSources : (updateSources d).fld TIM_STATUS_mesh_src = d.fld TIM_STATUS_mesh_src := by
  obtain ⟨x, hx⟩ := foldl_refreshSource d d (List.range 5)
  rw [updateSources_eq, hx]
  exact ((Dev.fld_setFld_other _ _ _ _ (by decide)).trans (Dev.fld_setFld_other _ _ _ _ (by decide))).trans
    (Dev.fld_setFld_other _ _ _ _ (by decide))

theorem meshSel_updateSources : meshSel (updateSources d) = meshSel d := by rw [meshSel, meshSrc_updateSources, meshSel]

theorem recoveryNode_updateSources : recoveryNode (updateSources d) = recoveryNode d := by
  rw [recoveryNode, Dev.bit_eq, fld_updateSources d (by decide), recoveryNode, Dev.bit_eq]

end

/-! ### The mesh sample in holdover (R303) -/

theorem neighbourChanged_same {d : Dev} (hrec : recoveryNode d = false) (h : d.tim.neighbour = none) : neighbourChanged d = d := by
  simp [neighbourChanged, hrec, h]

/-- With no source valid and none selected, holdover stays selected. -/
theorem selectSource_none {d : Dev} (hsel : meshSel d = 7) (h : ∀ k, k < 5 → (d.source k).valid = false) : selectSource d = 7 := by
  have hnone : (List.range 5).find? (sourceOk d) = none :=
    List.find?_eq_none.mpr fun k hk => by simp [sourceOk, h k (List.mem_range.mp hk)]
  simp [selectSource, hsel, hnone]

/-- In holdover with no source valid a mesh sample only shows holdover and sets TB0's rate to its integral. -/
theorem meshSample_holdover {d : Dev} (hvalid : ∀ k, k < 5 → sourceValid d k = false) (hrec : recoveryNode d = false)
    (hneighbour : d.tim.neighbour = none) (hsel : meshSel d = 7) (hservo : (d.tb 0).servoEn = true) :
    meshSample d = setRate (showSel (updateSources d) 7) 0 (d.tb 0).integral := by
  have hvalid1 : ∀ k, k < 5 → ((updateSources d).source k).valid = false := fun k hk => (valid_updateSources d hk).trans (hvalid k hk)
  have hsel1 : meshSel (updateSources d) = 7 := (meshSel_updateSources d).trans hsel
  have hsame : neighbourChanged (updateSources d) = updateSources d := by
    obtain ⟨x, hx⟩ := tim_updateSources d
    exact neighbourChanged_same ((recoveryNode_updateSources d).trans hrec) (by rw [hx]; exact hneighbour)
  have hdue : ∀ b, ((List.range 5).filter fun k => ((updateSources d).source k).valid && k != 3 && (k != 4 || b)) = [] := fun b =>
    List.filter_eq_nil_iff.mpr fun k hk => by simp [hvalid1 k (List.mem_range.mp hk)]
  have htb : (showSel (updateSources d) 7).tb 0 = d.tb 0 := tb_updateSources d 0
  simp only [meshSample, hsame, hdue, List.filter_nil, List.append_nil, List.foldl_nil, selectSource_none hsel1 hvalid1, hsel1, if_true, htb,
    hservo]

theorem meshSample_holdover_completes {s : State} (hup : s.dev.inReset = false) (hlen : s.dev.tim.bases.length = 8)
    (hvalid : ∀ k, k < 5 → sourceValid s.dev k = false) (hrec : s.dev.fld TS_RECOV_active = 0) (hneighbour : s.dev.tim.neighbour = none)
    (hsel : meshSel s.dev = 7) (hservo : (s.dev.tb 0).servoEn = true) (hconverge : s.dev.tim.converge = none) :
    Completes .meshSample s [.tim] (fun r => r == TIM_STATUS) fun t =>
      (t.dev.tb 0).rate = clampInt (s.dev.tb 0).integral (-rateLimit) rateLimit ∧ t.dev.fld TIM_STATUS_mesh_src = 7 ∧
      (∀ k, k ≠ 0 → t.dev.tb k = s.dev.tb k) ∧ ∀ k, (t.dev.source k).valid = true → 5 ≤ k := by
  have hfree : (showSel (updateSources s.dev) 7).tim.converge = none := by
    obtain ⟨x, hx⟩ := tim_updateSources s.dev
    exact (congrArg Tim.converge hx).trans hconverge
  have hroom : 0 < (showSel (updateSources s.dev) 7).tim.bases.length := by
    have hbases : (showSel (updateSources s.dev) 7).tim.bases = s.dev.tim.bases := bases_updateSources s.dev
    rw [hbases, hlen]; decide
  obtain ⟨c, hrate⟩ := setRate_free hfree 0 (s.dev.tb 0).integral
  refine completes_of_onDev (g := meshSample) rfl hup
    ((meshSample_holdover hvalid (by rw [recoveryNode, Dev.bit_eq, hrec]; rfl) hneighbour hsel hservo).trans hrate)
    (((updateSources_keeps s.dev).setFld rfl _).setTb (by decide) _ _) ⟨?_, ?_, fun k hk => ?_, fun k hk => ?_⟩
  · rw [Dev.tb_setTb _ hroom, if_pos rfl]
  · exact Dev.fld_setFld_same _ _ _ (by decide)
  · rw [Dev.tb_setTb _ hroom, if_neg hk]
    exact tb_updateSources s.dev k
  · by_contra hlt
    have hk5 : k < 5 := by omega
    have hnow : ((updateSources s.dev).source k).valid = true := hk
    rw [valid_updateSources s.dev hk5, hvalid k hk5] at hnow
    cases hnow

/-! ### The selection changes (R304, R306) -/

theorem Dev.fld_setReg64_other (d : Dev) {f : Fld} {lo : Nat} (hlo : f.reg ≠ lo) (hhi : f.reg ≠ lo + 4) (v : Nat) :
    (d.setReg64 lo v).fld f = d.fld f := by
  rw [Dev.fld, Dev.reg_setReg64, if_neg hhi, if_neg hlo, Dev.fld]

/-- The registers that a change of the selection reaches, those of events among them. -/
def switchRegs (r : Nat) : Bool := r == TIM_STATUS || r == TIM_CNT_SWITCH || r == TIM_MESH_HOLD_LO || r == TIM_MESH_HOLD_HI || noteRegs r

section
variable {d e : Dev}

theorem Keeps.switchRaise (h : Keeps ([.tim] ++ noteParts) switchRegs d e) (code : Nat) :
    Keeps ([.tim] ++ noteParts) switchRegs d (raise e code 0 0) :=
  h.noted (noted_raise _ _ _ _) (by decide) fun _ ha => by rw [switchRegs, ha, Bool.or_true]

theorem Keeps.clearDiffs {ps : List Part} {rs : Nat → Bool} (h : Keeps ps rs d e) (hp : Part.tim ∈ ps) :
    Keeps ps rs d (clearDiffs e) := h.tim hp _

theorem switchTo_keeps (d : Dev) (k : Nat) : Keeps ([.tim] ++ noteParts) switchRegs d (switchTo d k) := by
  have hshown : Keeps ([.tim] ++ noteParts) switchRegs d (raise ((showSel d k).inc TIM_CNT_SWITCH_switches) 160 0 0) :=
    (((Keeps.refl d).setFld rfl _).inc rfl).switchRaise 160
  unfold switchTo
  dsimp only
  split
  · exact hshown.clearDiffs (by decide)
  · split
    · exact (hshown.setReg64 rfl rfl _).clearDiffs (by decide)
    · exact (hshown.switchRaise 161).clearDiffs (by decide)

/-- Beside the hold, a change of the selection shows in the selection and its count alone. -/
theorem fld_switchTo (d : Dev) (k : Nat) {f : Fld} (hev : f.reg < 0xF09000 ∧ f.reg ≠ RES_JRNL_NEWEST)
    (hlo : f.reg ≠ TIM_MESH_HOLD_LO) (hhi : f.reg ≠ TIM_MESH_HOLD_HI) :
    (switchTo d k).fld f = ((showSel d k).inc TIM_CNT_SWITCH_switches).fld f := by
  have hraise : (raise ((showSel d k).inc TIM_CNT_SWITCH_switches) 160 0 0).fld f = ((showSel d k).inc TIM_CNT_SWITCH_switches).fld f :=
    raise_fld _ _ _ _ _ hev
  unfold switchTo
  dsimp only
  split
  · exact hraise
  · split
    · exact (Dev.fld_setReg64_other _ hlo hhi _).trans hraise
    · exact (raise_fld _ _ _ _ _ hev).trans hraise

theorem meshSrc_switchTo (d : Dev) {k : Nat} (hk : k < 4) : (switchTo d k).fld TIM_STATUS_mesh_src = k := by
  have hsource : ¬ (k = 4 ∧ recoveryNode d = true) := by omega
  rw [fld_switchTo d k (by decide) (by decide) (by decide), Dev.fld_inc_other _ _ _ (by decide), showSel,
    Dev.fld_setFld_same _ _ _ (by decide), if_neg hsource]
  exact Nat.mod_eq_of_lt (show k < 2 ^ 3 by omega)

theorem switches_switchTo (d : Dev) (k : Nat) :
    (switchTo d k).fld TIM_CNT_SWITCH_switches = min (d.fld TIM_CNT_SWITCH_switches + 1) TIM_CNT_SWITCH_switches.max := by
  rw [fld_switchTo d k (by decide) (by decide) (by decide), Dev.fld_inc_same _ _ (by decide), showSel,
    Dev.fld_setFld_other _ _ _ _ (by decide)]

end

/-! ### The revert time (R306) -/

theorem ns_updateSources (d : Dev) : (updateSources d).ns = d.ns := congrArg TimeBase.nanos (tb_updateSources d 4)

theorem revertExpiry_reverts {d : Dev} {k : Nat} (hen : d.fld TIM_CTRL_revert_en = 1) (hearlier : k < meshSel (updateSources d))
    (hsel : meshSel (updateSources d) ≤ 4) (hok : sourceOk (updateSources d) k = true)
    (hsince : ((updateSources d).source k).since + d.fld TIM_MESH_CFG_revert_s * 1000000000 ≤ d.ns) :
    revertExpiry d k = switchTo (updateSources d) k := by
  have hbit : (updateSources d).bit TIM_CTRL_revert_en = true := by rw [Dev.bit_eq, fld_updateSources d (by decide), hen]; rfl
  simp only [revertExpiry, hbit, hearlier, hsel, hok, fld_updateSources d (f := TIM_MESH_CFG_revert_s) (by decide), ns_updateSources, hsince,
    decide_true, Bool.and_self, if_true]

theorem revertExpiry_completes {k : Nat} {s : State} (hup : s.dev.inReset = false) (hen : s.dev.fld TIM_CTRL_revert_en = 1)
    (hearlier : k < meshSel (updateSources s.dev)) (hsel : meshSel (updateSources s.dev) ≤ 4) (hok : sourceOk (updateSources s.dev) k = true)
    (hsince : ((updateSources s.dev).source k).since + s.dev.fld TIM_MESH_CFG_revert_s * 1000000000 ≤ s.dev.ns) :
    Completes (.revertExpiry k) s ([.tim] ++ noteParts) switchRegs fun t => t.dev.fld TIM_STATUS_mesh_src = k ∧
      t.dev.fld TIM_CNT_SWITCH_switches = min (s.dev.fld TIM_CNT_SWITCH_switches + 1) TIM_CNT_SWITCH_switches.max :=
  completes_of_onDev (g := fun d => revertExpiry d k) rfl hup (revertExpiry_reverts hen hearlier hsel hok hsince)
    (((updateSources_keeps s.dev).mono (by decide) fun a ha => by simp [switchRegs, eq_of_beq ha]).trans (switchTo_keeps _ k))
    ⟨meshSrc_switchTo _ (by omega), (switches_switchTo _ k).trans (by rw [fld_updateSources s.dev (by decide)])⟩

/-! ### A domain without samples (R308) -/

/-- Domain A without samples: no longer ok, counted. -/
def domainALost (d : Dev) : Dev := (d.setBit TIM_DOMAIN_VALID_a_ok false).inc TIM_CNT_SWITCH_timeouts

theorem domainTimeout_a {d : Dev} (h : d.fld TIM_DOMAIN_VALID_a_ok = 1) : domainTimeout d false = updateSources (domainALost d) :=
  if_pos (show d.bit TIM_DOMAIN_VALID_a_ok = true by rw [Dev.bit_eq, h]; rfl)

theorem domainATimeout_completes {s : State} (hup : s.dev.inReset = false) (hok : s.dev.fld TIM_DOMAIN_VALID_a_ok = 1) :
    Completes (.domainSampleTimeout false) s [.tim] (fun r => r == TIM_DOMAIN_VALID || r == TIM_CNT_SWITCH || r == TIM_STATUS) fun t =>
      t.dev.fld TIM_DOMAIN_VALID_a_ok = 0 ∧ t.dev.fld TIM_DOMAIN_VALID_b_ok = s.dev.fld TIM_DOMAIN_VALID_b_ok ∧
      t.dev.fld TIM_CNT_SWITCH_timeouts = min (s.dev.fld TIM_CNT_SWITCH_timeouts + 1) TIM_CNT_SWITCH_timeouts.max ∧
      t.dev.tim.bases = s.dev.tim.bases := by
  refine completes_of_onDev (g := fun d => domainTimeout d false) rfl hup (domainTimeout_a hok)
    ((((Keeps.refl _).setBit rfl _).inc rfl).trans ((updateSources_keeps _).mono (by decide) fun a ha => by simp [eq_of_beq ha]))
    ⟨?aOk, ?bOk, ?timeouts, bases_updateSources _⟩
  all_goals dsimp only; rw [fld_updateSources _ (by decide), domainALost]
  case aOk => exact (Dev.fld_inc_other _ _ _ (by decide)).trans (Dev.fld_setBit_same _ (by decide) (by decide) false)
  case bOk => exact (Dev.fld_inc_other _ _ _ (by decide)).trans (Dev.fld_setFld_other _ _ _ _ (by decide))
  case timeouts =>
    rw [Dev.fld_inc_same _ _ (by decide), Dev.setBit, Dev.fld_setFld_other _ _ _ _ (by decide)]

/-! ### The hold and the epochs (R307, R310) -/

theorem holdWrite_completes {h : Word64} {s : State} (hup : s.dev.inReset = false) :
    Completes (.holdWrite h) s [] (fun r => r == TIM_MESH_HOLD_LO || r == TIM_MESH_HOLD_HI) fun t => t.dev.reg64 TIM_MESH_HOLD_LO = h.toNat :=
  completes_of_onDev (g := fun d => holdWrite d h.toNat) rfl hup rfl ((Keeps.refl _).setReg64 rfl rfl _) (Dev.reg64_setReg64_same _ _ h.isLt)

/-- A pair after another pair is set. -/
theorem Dev.reg64_setReg64_other (d : Dev) {lo lo' : Nat} (h : lo' + 4 < lo ∨ lo + 4 < lo') (v : Nat) :
    (d.setReg64 lo v).reg64 lo' = d.reg64 lo' := by
  rw [Dev.reg64, Dev.reg_setReg64, Dev.reg_setReg64, if_neg (by omega), if_neg (by omega), if_neg (by omega), if_neg (by omega), Dev.reg64]

theorem panEpochWrite_stopped {d : Dev} {p : Nat} (hp : p < 8) (hrun : nbit (d.fld TS_CTRL_pan_run) p = false) (e : Nat) :
    panEpochWrite d p e = d.setReg64 (TIM_PANp_EPOCH_LO p) e := by
  rw [panEpochWrite, if_neg (by omega), if_neg (by rw [hrun]; decide)]

theorem panEpochWrite_running {d : Dev} {p : Nat} (hp : p < 8) (hrun : nbit (d.fld TS_CTRL_pan_run) p = true) (e : Nat) :
    panEpochWrite d p e = tbRefuse d 0 := by
  rw [panEpochWrite, if_neg (by omega), if_pos hrun]

theorem panEpochWrite_stopped_completes {p : Nat} {e : Word64} {s : State} (hup : s.dev.inReset = false) (hp : p < 8)
    (hrun : nbit (s.dev.fld TS_CTRL_pan_run) p = false) :
    Completes (.panEpochWrite p e) s [] (fun r => r == TIM_PANp_EPOCH_LO p || r == TIM_PANp_EPOCH_LO p + 4) fun t =>
      panEpoch t.dev p = e.toNat ∧ ∀ q, q < 8 → q ≠ p → panEpoch t.dev q = panEpoch s.dev q :=
  completes_of_onDev (g := fun d => panEpochWrite d p e.toNat) rfl hup (panEpochWrite_stopped hp hrun _)
    ((Keeps.refl _).setReg64 (by simp) (by simp) _)
    ⟨Dev.reg64_setReg64_same _ _ e.isLt, fun q _ hq => Dev.reg64_setReg64_other _ (by simp only [TIM_PANp_EPOCH_LO]; omega) _⟩

theorem panEpochWrite_running_completes {p : Nat} {e : Word64} {s : State} (hup : s.dev.inReset = false) (hp : p < 8)
    (hrun : nbit (s.dev.fld TS_CTRL_pan_run) p = true) (hlen : s.dev.tim.bases.length = 8) :
    Completes (.panEpochWrite p e) s [.tim] (fun _ => false) fun t => (t.dev.tb 0).refused = min ((s.dev.tb 0).refused + 1) 255 :=
  completes_of_onDev (g := fun d => panEpochWrite d p e.toNat) rfl hup (panEpochWrite_running hp hrun _)
    ((Keeps.refl _).setTb (by decide) _ _) (by simp [tbRefuse, Dev.tb_setTb _ (show 0 < s.dev.tim.bases.length by omega)])

/-- Settles O44: each clause is the completion of its command, PAN_EPOCH_WRITE apart for a PAN that runs. -/
theorem meshTime : Obligations.MeshTime := by
  unfold Obligations.MeshTime
  refine ⟨?holdover, ?revert, ?domain, ?hold, ?stopped, ?running⟩
  case holdover => exact fun _ => meshSample_holdover_completes
  case revert => exact fun _ _ => revertExpiry_completes
  case domain => exact fun _ => domainATimeout_completes
  case hold => exact fun _ _ => holdWrite_completes
  case stopped => exact fun _ _ _ => panEpochWrite_stopped_completes
  case running => exact fun _ _ _ => panEpochWrite_running_completes

end Sys2Proof.Machine
end

section
/-! PROOF. What the fuses hold and how a step changes them; every command completes; a core in reset (12_keys_and_frame_security.md R331 to
R349, 18_electrical_and_package.md R485). -/

namespace Sys2Proof.Machine

/-! ### Accesses of the bus, and power cuts -/

theorem powerCut_step {f : Fuses} {r : Fuses × Dev} (h : Fuses.Step f r.1) : Fuses.Step f (powerCut f r).1 := (powerCut_fst f r).symm ▸ h

theorem busWrites_step (m : Sys2Proof.Master) (l : List (Nat × Word)) (s : Fuses × Dev) :
    Fuses.Step s.1 (l.foldl (fun s x => busWrite m x.1 x.2 s.1 s.2) s).1 := by
  induction l generalizing s with
  | nil => exact Fuses.Step.refl _
  | cons x l ih => exact (busWrite_step m x.1 x.2 s.1 s.2).trans (ih _)

theorem writeAccess_step (m : Sys2Proof.Master) (a len v : Nat) (f : Fuses) (d : Dev) : Fuses.Step f (writeAccess m a len v f d).1 := by
  unfold writeAccess
  split
  · exact Fuses.Step.refl f
  · split
    · exact Fuses.Step.refl f
    · split
      · exact Fuses.Step.refl f
      · exact busWrites_step m _ (f, d)

/-! ### Each command by its kind -/

/-- A command's outcome: a next state with the queue as before, and fuses that a step may leave. -/
def Answers (s : State) (o : Host.Outcome State Fault Refusal) : Prop :=
  ∃ t, o = .next t ∧ t.pending = s.pending ∧ Fuses.Step s.fuses t.fuses

theorem Answers.of_ite {s u : State} (hp : u.pending = s.pending) (hf : Fuses.Step s.fuses u.fuses) :
    Answers s (.next (if s.dev.inReset then s else u)) := by
  refine ⟨_, rfl, ?_, ?_⟩
  · split
    · rfl
    · exact hp
  · split
    · exact Fuses.Step.refl _
    · exact hf

theorem answers_onFuses (s : State) {g : Fuses → Dev → Fuses × Dev} (hg : ∀ f d, Fuses.Step f (g f d).1) : Answers s (s.onFuses g) :=
  .of_ite rfl (hg _ _)

theorem answers_onKettleF (s : State) {g : Fuses → Dev → Fuses × Dev} (hg : ∀ f d, Fuses.Step f (g f d).1) : Answers s (s.onKettleF g) :=
  ⟨_, rfl, rfl, hg _ _⟩

/-- Every command completes, leaves the queue, and changes the fuses only as a step may: those that reach no fuse by their kind, the others
by the operation that burns. -/
theorem exec_answers (c : Instr) (s : State) : Answers s (exec c s) := by
  cases c with
  | registerWrite m a len w => exact answers_onFuses s (writeAccess_step m a len w.toNat)
  | pairLoWrite m a w => exact answers_onFuses s (writeAccess_step m a 4 w.toNat)
  | pairHiWrite m a w => exact answers_onFuses s (writeAccess_step m a 4 w.toNat)
  | regWrite who a w => exact answers_onFuses s (regWriteCmd_step who a w)
  | envelope who bytes tamper cut => exact answers_onFuses s fun f d => powerCut_step (envelope_step who bytes tamper cut f d)
  | quote who arg tamper => exact answers_onFuses s (secQuote_step who (fit 64 arg) tamper)
  | derive who arg tamper => exact answers_onFuses s (secDerive_step who (fit 64 arg) tamper)
  | measExtend who arg tamper => exact answers_onFuses s (secMeasExtend_step who (fit 64 arg) tamper)
  | slotRemap who arg tamper => exact answers_onFuses s (secSlotRemap_step who (fit 64 arg) tamper)
  | kekRotate who arg tamper => exact answers_onFuses s (secKekRotate_step who (fit 64 arg) tamper)
  | kekInvalidate who arg tamper => exact answers_onFuses s (secKekInvalidate_step who (fit 64 arg) tamper)
  | kekClear who arg tamper => exact answers_onFuses s (secKekClear_step who (fit 64 arg) tamper)
  | nodeKeyNew who arg tamper => exact answers_onFuses s (secNodeKeyNew_step who (fit 64 arg) tamper)
  | nodeKeyRoll who arg tamper => exact answers_onFuses s (secNodeKeyRoll_step who (fit 64 arg) tamper)
  | nodeKeyGet who arg tamper => exact answers_onFuses s (secNodeKeyGet_step who (fit 64 arg) tamper)
  | nodeKeyExport who arg tamper => exact answers_onFuses s (secNodeKeyExport_step who (fit 64 arg) tamper)
  | nodeKeyImport who arg tamper => exact answers_onFuses s (secNodeKeyImport_step who (fit 64 arg) tamper)
  | random who arg tamper => exact answers_onFuses s (secRandom_step who (fit 64 arg) tamper)
  | recovKeyLoad who arg tamper => exact answers_onFuses s (secRecovKeyLoad_step who (fit 64 arg) tamper)
  | provision who arg tamper cut => exact answers_onFuses s fun f d => powerCut_step (secProvision_step who (fit 64 arg) tamper cut f d)
  | lifecycleDebug target lock eui cert policy subsys cut =>
    exact answers_onFuses s fun f d => powerCut_step (lifecycleDebug_step target lock eui cert policy subsys cut f d)
  | tempTrip live => exact answers_onFuses s (monitorTrip_step 6 live)
  | sysclkTrip live => exact answers_onFuses s (monitorTrip_step 7 live)
  | updActivate who again stall => exact answers_onFuses s (updActivate_step who again stall)
  | updConfirm who burnt => exact answers_onFuses s (updConfirm_step who burnt)
  | restart who ccA trng => exact answers_onFuses s (restart_step who ccA trng)
  | trialBrewTimeout => exact answers_onFuses s trialBrew_step
  | trialConfirmTimeout => exact answers_onFuses s trialConfirm_step
  | flashProgramTimeout again => exact answers_onFuses s (flashLate_step again)
  | flashEraseTimeout again => exact answers_onFuses s (flashLate_step again)
  | repairBurn who seq cut => exact answers_onFuses s fun f d => powerCut_step (repairBurn_step who seq cut f d)
  | mismatchTestDone aPass bPass => exact answers_onFuses s (testsEnd_step aPass bPass)
  | gateWindowClose => exact answers_onFuses s windowClose_step
  | commitPost cc secure addr data type => exact answers_onFuses s (post_step cc secure addr data type)
  | porRelease ccA trng => exact answers_onKettleF s (porRelease_step ccA trng)
  | supplyTrip vbat live => exact answers_onKettleF s (supplyTrip_step vbat live)
  | tamperEvent source live => exact answers_onKettleF s (tamperSeen_step source live)
  | porAssert | vbatApply | kettlePowerLoss | whistleReceived | pwrTimeout | rtcSecond | rtcAlarm => exact ⟨_, rfl, rfl, Fuses.Step.refl _⟩
  | _ => exact .of_ite rfl (Fuses.Step.refl _)

/-! ### The step -/

theorem step_empty {s : State} (h : s.pending = []) : step s = .next { s with dev := cycle s.dev } := by unfold step; rw [h]

theorem step_front {s : State} {c : Instr} {rest : List Instr} (h : s.pending = c :: rest) :
    step s = exec c { s with pending := rest } := by unfold step; rw [h]

/-- A step keeps the fuses within what there are fuses for, and burns one way only. -/
theorem step_fuses {s t : State} (h : step s = .next t) : Fuses.Step s.fuses t.fuses := by
  cases hq : s.pending with
  | nil =>
    rw [step_empty hq] at h
    injection h with h
    exact h ▸ Fuses.Step.refl _
  | cons c rest =>
    obtain ⟨u, hu, -, hf⟩ := exec_answers c { s with pending := rest }
    rw [step_front hq, hu] at h
    injection h with h
    exact h ▸ hf

/-- Settles O5: a step is a command, whose burns fit, or a cycle, which burns nothing. -/
theorem fusesFitEveryStep : Obligations.FusesFitEveryStep := by
  unfold Obligations.FusesFitEveryStep
  exact fun s t hf h => (step_fuses h hf).1

/-- Settles O6: what each command may burn only grows. -/
theorem fusesAreOneWay : Obligations.FusesAreOneWay := by
  unfold Obligations.FusesAreOneWay
  exact fun s t hf h => (step_fuses h hf).2

/-- Settles O4: nothing is burnt at reset. -/
theorem fusesFitAtReset : Obligations.FusesFitAtReset := by
  unfold Obligations.FusesFitAtReset
  exact ⟨by decide, by decide, by decide, by decide, by decide, by decide, rfl⟩

/-- Settles O1: a step is defined by the queue's front, and each command answers a next state with the queue it was given. -/
theorem stepRunsFrontCommand : Obligations.StepRunsFrontCommand := by
  unfold Obligations.StepRunsFrontCommand
  refine ⟨fun c rest s h => step_front h, fun c s => ?_⟩
  obtain ⟨t, ht, hp, -⟩ := exec_answers c s
  exact ⟨t, ht, hp⟩

/-! ### The core in reset -/

/-- Settles O7: but for those of the Kettle, of POR_N and of the supply, a command of whatever kind acts only while POR_N is high. -/
theorem coreInReset : Obligations.CoreInReset := by
  unfold Obligations.CoreInReset
  intro c s hdown hcore
  cases c with
  | porRelease | porAssert | supplyTrip | vbatApply | kettlePowerLoss | whistleReceived | pwrTimeout | rtcSecond | rtcAlarm
  | tamperEvent => exact hcore.elim
  | _ => exact congrArg Host.Outcome.next (if_pos hdown)

end Sys2Proof.Machine
end

section
/-! PROOF. Two ends that a statement about the host interface leaves out: the last byte of a BAR2 read and the commands that a reset left
running (17_host_interface.md R462, R465, R471). -/

namespace Sys2Proof.Machine

theorem State.onHost_up (s : State) (f : Dev → Dev) (hup : s.dev.inReset = false) (hlink : s.dev.isolated.contains 200 = false) :
    s.onHost f = .next { s with dev := f s.dev } := by
  unfold State.onHost
  rw [State.onDev_up _ _ hup, hlink]
  rfl

/-! ### A BAR2 read that ends in a keyed table -/

theorem bar2Read_lastKeyed {s : State} (hup : s.dev.inReset = false) (hlink : s.dev.isolated.contains 200 = false) {off len : Nat}
    (h : keyedRegion s.dev (off + len - 1) = true) :
    exec (.bar2Read off len true) s = .next { s with dev := (accessErr s.dev HIF_ERR_bar2_err true off).emit (.pcieError 1 off) } := by
  refine (State.onHost_up s (fun d => bar2Read d off len true) hup hlink).trans ?_
  simp only [bar2Read, h, Bool.or_true, Bool.and_true, if_true]

/-- A device in service with nothing configured. -/
def servedState : State := { State.reset with dev := { Dev.blank with stage := 3 } }

/-- The last byte before the Address Table and the table's first. -/
theorem addressTable_first : keyedRegion servedState.dev 0xFFFFFF = false ∧ keyedRegion servedState.dev 0x1000000 = true := by
  decide +kernel

/-- Refutes O58, for its fourth clause alone: a read whose first byte lies below a keyed table and whose last byte lies in it, and which saw
16 version changes, ends with an error, and the clause asks for its bytes. -/
theorem not_hostEndpoint : ¬ Obligations.HostEndpoint := by
  unfold Obligations.HostEndpoint
  rintro ⟨-, -, -, hread, -⟩
  obtain ⟨hfirst, hlast⟩ := addressTable_first
  have hx := bar2Read_lastKeyed (s := servedState) (off := 0xFFFFFF) (len := 2) rfl rfl hlast
  obtain ⟨t, ht, -, houts⟩ := hread 0xFFFFFF 2 true servedState rfl rfl (by rw [hfirst]; rfl) (fun x hxp => nomatch hxp)
  cases hx.symm.trans ht
  cases houts

/-! ### A command that waits behind one that a reset left running -/

theorem commandStart_waits {s : State} {k : Nat} {c : HostCmd} (hup : s.dev.inReset = false) (hc : s.dev.hif.waiting[k]? = some c)
    (h : mayStart s.dev s.dev.hif.waiting (s.dev.hif.running ++ s.dev.hif.orphaned) k c = false) :
    exec (.commandStart false k) s = .next s := by
  refine (State.onDev_up s (fun d => startCmd d false k) hup).trans ?_
  simp [startCmd, hc, h]

/-- A NOP without flags, of a group of its own. -/
def nopCmd : HostCmd := ⟨le 2 1 ++ zeros 62, 0, none⟩

/-- A NOP waits, and one that was running when the interface was reset has yet to end. -/
def orphanState : State :=
  { servedState with dev := { servedState.dev with hif := { servedState.dev.hif with waiting := [nopCmd], orphaned := [⟨nopCmd, 0, none, []⟩] } } }

/-- The start rules without the orphaned command, with it, and the checks. -/
theorem orphan_bars : mayStart orphanState.dev orphanState.dev.hif.waiting orphanState.dev.hif.running 0 nopCmd = true ∧
    mayStart orphanState.dev orphanState.dev.hif.waiting (orphanState.dev.hif.running ++ orphanState.dev.hif.orphaned) 0 nopCmd = false ∧
    hcRefusal nopCmd = none := by
  decide +kernel

/-- Refutes O59, for its ninth clause alone (COMMAND_START of the HCQ): the clause asks for the start rules against the running commands, and
a command that a reset of the interface left running counts as an earlier one of the HCQ too. -/
theorem not_hostCommands : ¬ Obligations.HostCommands := by
  unfold Obligations.HostCommands
  rintro ⟨-, -, -, -, -, -, -, -, hstart, -⟩
  obtain ⟨hmay, hbarred, hok⟩ := orphan_bars
  have hx := commandStart_waits (s := orphanState) rfl rfl hbarred
  obtain ⟨t, ht, -, hhif, -⟩ := hstart 0 nopCmd orphanState rfl rfl hmay hok
  cases hx.symm.trans ht
  exact absurd (congrArg (fun h : Hif => h.waiting.length) hhif) (by decide)

end Sys2Proof.Machine
end

section
/-! SUPPORT. What offering a unit to the paths, logging an event and raising it leave of telemetry itself, and of the journal. -/

namespace Sys2Proof.Machine

/-- The loss counters of the two paths. -/
def lossRegs (a : Nat) : Bool := a == TEL_LOSSp_A 0 || a == TEL_LOSSp_B 0 || a == TEL_LOSSp_A 1 || a == TEL_LOSSp_B 1

/-- `e` is `d` but for units staged on a path, or dropped and counted. -/
structure Offered (d e : Dev) : Prop where
  noted : Noted d e
  outs : e.outs = d.outs
  jrnl : e.jrnl = d.jrnl
  tel : e.tel = { d.tel with ring := e.tel.ring, eth := e.tel.eth }
  reg : ∀ a, lossRegs a = false → e.reg a = d.reg a

theorem Offered.refl (d : Dev) : Offered d d := ⟨Noted.refl d, rfl, rfl, rfl, fun _ _ => rfl⟩

theorem Offered.trans {d e f : Dev} (h : Offered d e) (g : Offered e f) : Offered d f :=
  ⟨h.noted.trans g.noted, g.outs.trans h.outs, g.jrnl.trans h.jrnl, by rw [g.tel, h.tel], fun a ha => (g.reg a ha).trans (h.reg a ha)⟩

theorem Offered.fld {d e : Dev} (h : Offered d e) (x : Fld) (hx : lossRegs x.reg = false) : e.fld x = d.fld x := by
  unfold Dev.fld; rw [h.reg _ hx]

theorem offered_setPath (d : Dev) (p : Nat) (x : TelPath) : Offered d (setPath d p x) := by
  unfold setPath
  split <;> exact ⟨noted_tel _ _, rfl, rfl, rfl, fun _ _ => rfl⟩

theorem lossFld_reg {p : Nat} (hp : p < 2) (k : Nat) : lossRegs (lossFld p k).reg = true := by
  have h : (lossFld p k).reg = TEL_LOSSp_A p ∨ (lossFld p k).reg = TEL_LOSSp_B p := by
    unfold lossFld
    split_ifs
    · exact .inl rfl
    · exact .inl rfl
    · exact .inr rfl
    · exact .inr rfl
  obtain rfl | rfl : p = 0 ∨ p = 1 := by omega
  all_goals rcases h with h | h <;> simp [lossRegs, h]

theorem lossRegs_tel {a : Nat} (h : lossRegs a = true) : 0xF09000 ≤ a := by
  simp only [lossRegs, Bool.or_eq_true, beq_iff_eq, TEL_LOSSp_A, TEL_LOSSp_B] at h
  omega

theorem offered_offerPath (d : Dev) {p : Nat} (hp : p < 2) (u : TelUnit) : Offered d (offerPath d p u).1 := by
  unfold offerPath
  simp only
  split
  · exact Offered.refl d
  · split
    · exact offered_setPath _ _ _
    · refine (offered_setPath _ _ _).trans ⟨noted_inc _ _ (lossRegs_tel (lossFld_reg hp _)), rfl, rfl, rfl, fun a ha => ?_⟩
      exact Dev.reg_inc_other _ _ _ fun h => by rw [h, lossFld_reg hp] at ha; cases ha

theorem offered_offer (d : Dev) (u : TelUnit) : Offered d (offer d u).1 :=
  (offered_offerPath d (by decide) u).trans (offered_offerPath _ (by decide) u)

/-! ### Pending bits and the event log -/

theorem sendVector_tel (d : Dev) (v : Nat) : (sendVector d v).tel = d.tel := by unfold sendVector; split <;> rfl

theorem sendVector_jrnl (d : Dev) (v : Nat) : (sendVector d v).jrnl = d.jrnl := by unfold sendVector; split <;> rfl

theorem sendVector_reg (d : Dev) (v : Nat) {a : Nat} (ha : a ≠ MSIX_PBA) : (sendVector d v).reg a = d.reg a := by
  unfold sendVector
  split
  · exact Dev.reg_setReg_other _ _ _ _ ha
  · rfl

/-- The two pending bits of a source set. -/
def marked (d : Dev) (s : Nat) : Dev := (d.setBit (pendFld s) true).setBit (ccPendFld s) true

theorem setPending_tel (d : Dev) (s : Nat) : (setPending d s).tel = d.tel := by
  unfold setPending
  simp only
  split
  · exact sendVector_tel _ _
  · rfl

theorem setPending_jrnl (d : Dev) (s : Nat) : (setPending d s).jrnl = d.jrnl := by
  unfold setPending
  simp only
  split
  · exact sendVector_jrnl _ _
  · rfl

theorem setPending_reg (d : Dev) (s : Nat) {a : Nat} (ha : a ≠ MSIX_PBA) : (setPending d s).reg a = (marked d s).reg a := by
  unfold setPending
  simp only
  split
  · exact sendVector_reg _ _ ha
  · rfl

theorem marked_bits (d : Dev) (s : Nat) :
    (marked d s).bit (pendFld s) = true ∧ (marked d s).bit (ccPendFld s) = true := by
  have hlt : s % 32 < 32 := Nat.mod_lt _ (by decide)
  have hother : (pendFld s).reg ≠ (ccPendFld s).reg := by simp only [pendFld, ccPendFld, TEL_PENDm, TEL_CCPENDm]; omega
  have hset : ∀ (e : Dev) (f : Fld), f.lo = f.hi → f.hi < 32 → (e.setBit f true).fld f = 1 := fun e f hlo hhi => by
    rw [Dev.setBit, Dev.fld_setFld_same _ _ _ hhi, hlo, show f.hi + 1 - f.hi = 1 by omega]
    rfl
  constructor
  · rw [Dev.bit, marked, Dev.setBit, Dev.fld_setFld_other _ _ _ _ (.inl hother), hset _ _ rfl hlt]
    rfl
  · rw [Dev.bit, marked, hset _ _ rfl hlt]
    rfl

/-- What an event's record leaves: beside the pending bits, the log and the paths nothing of the alarm table, of storm mode, of the journal. -/
theorem logEvent_offered (d : Dev) (s cls unit detail : Nat) (alarm : Bool) :
    (logEvent d s cls unit detail alarm).tel.alarms = d.tel.alarms ∧ (logEvent d s cls unit detail alarm).tel.storm = d.tel.storm ∧
      (logEvent d s cls unit detail alarm).jrnl = d.jrnl ∧
      ∀ a, lossRegs a = false → a ≠ TEL_LOG_SEQ → (logEvent d s cls unit detail alarm).reg a = d.reg a := by
  unfold logEvent
  simp only
  split
  · exact ⟨rfl, rfl, rfl, fun _ _ _ => rfl⟩
  · refine ⟨?_, ?_, ?_, fun a ha hn => ?_⟩
    · rw [(offered_offer _ _).tel]; rfl
    · rw [(offered_offer _ _).tel]; rfl
    · rw [(offered_offer _ _).jrnl]; rfl
    · rw [(offered_offer _ _).reg a ha, Dev.reg_setReg_other _ _ _ _ hn]; rfl

theorem traceRaw_offered (d : Dev) (r : List Byte) :
    (traceRaw d r).1.tel.storm = d.tel.storm ∧ (traceRaw d r).1.jrnl = d.jrnl ∧
      ∀ a, lossRegs a = false → a ≠ TEL_TRACE_POS → (traceRaw d r).1.reg a = d.reg a := by
  unfold traceRaw
  split
  · exact ⟨rfl, rfl, fun _ _ _ => rfl⟩
  · refine ⟨?_, ?_, fun a ha hn => ?_⟩
    · rw [(offered_offer _ _).tel]; rfl
    · rw [(offered_offer _ _).jrnl]; rfl
    · rw [(offered_offer _ _).reg a ha, Dev.reg_setFld, if_neg hn]; rfl

/-! ### Raising -/

/-- `e` is `d` with events recorded under their classes: the journal, storm mode and its bit stay. -/
structure Recorded (d e : Dev) : Prop where
  noted : Noted d e
  jrnl : e.jrnl = d.jrnl
  storm : e.tel.storm = d.tel.storm
  status : e.fld TEL_STATUS_storm = d.fld TEL_STATUS_storm

theorem Recorded.refl (d : Dev) : Recorded d d := ⟨Noted.refl d, rfl, rfl, rfl⟩

theorem Recorded.trans {d e f : Dev} (h : Recorded d e) (g : Recorded e f) : Recorded d f :=
  ⟨h.noted.trans g.noted, g.jrnl.trans h.jrnl, g.storm.trans h.storm, g.status.trans h.status⟩

theorem recorded_setPending (d : Dev) (s : Nat) : Recorded d (setPending d s) := by
  refine ⟨noted_setPending d s, setPending_jrnl d s, by rw [setPending_tel], ?_⟩
  have hreg : (setPending d s).reg TEL_STATUS = d.reg TEL_STATUS := by
    have hpend : TEL_STATUS ≠ (pendFld s).reg := by simp only [pendFld, TEL_PENDm, TEL_STATUS]; omega
    have hcc : TEL_STATUS ≠ (ccPendFld s).reg := by simp only [ccPendFld, TEL_CCPENDm, TEL_STATUS]; omega
    rw [setPending_reg d s (by decide), marked, Dev.setBit, Dev.setBit, Dev.reg_setFld, if_neg hcc, Dev.reg_setFld, if_neg hpend]
  simp only [Dev.fld, hreg]

theorem recorded_logEvent (d : Dev) (s cls unit detail : Nat) (alarm : Bool) : Recorded d (logEvent d s cls unit detail alarm) := by
  obtain ⟨-, hstorm, hjrnl, hreg⟩ := logEvent_offered d s cls unit detail alarm
  exact ⟨noted_logEvent _ _ _ _ _ _, hjrnl, hstorm, by simp only [Dev.fld, hreg TEL_STATUS (by decide) (by decide)]⟩

theorem recorded_traceRaw (d : Dev) (r : List Byte) : Recorded d (traceRaw d r).1 := by
  obtain ⟨hstorm, hjrnl, hreg⟩ := traceRaw_offered d r
  exact ⟨noted_traceRaw d r, hjrnl, hstorm, by simp only [Dev.fld, hreg TEL_STATUS (by decide) (by decide)]⟩

theorem recorded_recordEvent (d : Dev) (s unit detail : Nat) (alarm : Bool) :
    Recorded d (recordEvent d s unit detail alarm) := by
  unfold recordEvent
  simp only
  split
  · exact Recorded.refl d
  · split
    · exact recorded_traceRaw _ _
    · split
      · exact recorded_setPending d s
      · exact (recorded_setPending d s).trans (recorded_logEvent _ _ _ _ _ _)

theorem recorded_alarms (d : Dev) (t : Tab Alarm) : Recorded d { d with tel := { d.tel with alarms := t } } :=
  ⟨noted_tel d _, rfl, rfl, rfl⟩

theorem recorded_alarmPlace (d : Dev) (s unit detail : Nat) : Recorded d (alarmPlace d s unit detail).1 := by
  unfold alarmPlace
  simp only
  split
  · exact recorded_alarms d _
  · split
    · exact recorded_alarms d _
    · split <;> exact recorded_alarms d _

theorem recorded_alarmCount (d : Dev) : Recorded d (alarmCount d) :=
  ⟨noted_setFld _ _ _ (by decide), rfl, rfl, Dev.fld_setFld_other _ _ _ _ (by decide)⟩

/-- An alarm placed, counted and recorded. -/
theorem recorded_alarm (d : Dev) (s unit detail : Nat) :
    Recorded d (recordEvent (alarmCount (alarmPlace d s unit detail).1) s unit detail true) :=
  ((recorded_alarmPlace d s unit detail).trans (recorded_alarmCount _)).trans (recorded_recordEvent _ _ _ _ _)

theorem recorded_raiseRaw (m : Nat) (d : Dev) (s unit detail : Nat) : Recorded d (raiseRaw m d s unit detail) := by
  induction m generalizing d s unit detail with
  | zero =>
    unfold raiseRaw
    split
    · exact recorded_alarm d s unit detail
    · exact recorded_recordEvent _ _ _ _ _
  | succ n ih =>
    unfold raiseRaw
    split
    · have h := recorded_alarm d s unit detail
      simp only
      generalize (alarmPlace d s unit detail).2 = b at *
      cases b
      · exact h
      · exact h.trans (ih _ _ _ _)
    · exact recorded_recordEvent _ _ _ _ _

/-- Events recorded change telemetry and the outputs alone. -/
theorem Keeps.recorded {ps : List Part} {rs : Nat → Bool} {d e f : Dev} (h : Keeps ps rs d e) (hr : Recorded e f) (ht : Part.tel ∈ ps)
    (ho : Part.outs ∈ ps) (hrs : ∀ a, noteRegs a = true → rs a = true) : Keeps ps rs d f := by
  have hk : Keeps noteParts noteRegs e f := (Keeps.refl e).noted hr.noted (List.Subset.refl _) fun _ h => h
  refine h.trans ⟨fun p hp => ?_, fun a ha => hk.regs a (Bool.eq_false_iff.mpr fun hb => by rw [hrs a hb] at ha; cases ha)⟩
  by_cases hj : p = .jrnl
  · subst hj
    exact hr.jrnl
  · refine hk.parts p fun hq => ?_
    simp only [noteParts, List.mem_cons, List.not_mem_nil, or_false] at hq
    rcases hq with rfl | rfl | rfl
    · exact hp ht
    · exact hj rfl
    · exact hp ho

end Sys2Proof.Machine
end

section
/-! PROOF. Events, pending bits, alarms and their acknowledgement (16_telemetry.md R446 to R452). -/

namespace Sys2Proof.Machine

theorem State.onDev_unchanged {s : State} {f : Dev → Dev} (h : f s.dev = s.dev) : s.onDev f = .next s := by
  unfold State.onDev
  rw [h, ite_self]

theorem sendVector_open {d : Dev} {v : Nat} (h : nbit (d.reg (MSIX_TABLE v 3)).toNat 0 = false) : sendVector d v = d.emit (.msix v) := by
  simp [sendVector, h]

/-! ### Events of firmware -/

theorem fwRaise_raw {d : Dev} {fw unit : Nat} (hup : d.inReset = false) (hen : (sourceOf d (248 + fw % 8)).enable = true)
    (hcls : (sourceOf d (248 + fw % 8)).cls ≠ 3) : fwRaise d fw unit = raiseRaw 2 d (248 + fw % 8) (unit % 65536) 0 := by
  simp [fwRaise, raise, hup, hen, hcls]

/-- A source of class 1 or 2: pending bits, and a record of the event log. -/
theorem raiseRaw_logged {d : Dev} {m s unit detail : Nat} (hen : (sourceOf d s).enable = true)
    (hcls : (sourceOf d s).cls = 1 ∨ (sourceOf d s).cls = 2) :
    raiseRaw m d s unit detail = logEvent (setPending d s) s (sourceOf d s).cls unit detail false := by
  have h0 : (sourceOf d s).cls ≠ 0 := by omega
  have h3 : (sourceOf d s).cls ≠ 3 := by omega
  have h4 : (sourceOf d s).cls ≠ 4 := by omega
  unfold raiseRaw
  simp [recordEvent, hen, h0, h3, h4]

/-- The first event of its source and unit writes its record and the sequence number of the log. -/
theorem logEvent_first {d : Dev} {s cls unit detail : Nat} {alarm : Bool} (h : Tab.find d.tel.logged (s * 65536 + unit) = none) :
    (logEvent d s cls unit detail alarm).tel.log = (logRec d s cls unit detail 0 alarm :: d.tel.log).take 2048 ∧
      (logEvent d s cls unit detail alarm).reg TEL_LOG_SEQ = BitVec.ofNat 32 d.tel.logNext := by
  unfold logEvent
  simp only [h, Option.getD_none, Option.isSome_none, Bool.false_and, Bool.false_eq_true, if_false]
  constructor
  · rw [(offered_offer _ _).tel]; rfl
  · rw [(offered_offer _ _).reg _ (by decide), Dev.reg_setReg_same]

theorem pendFld_reg {s : Nat} (hs : s < 256) : lossRegs (pendFld s).reg = false ∧ (pendFld s).reg ≠ TEL_LOG_SEQ ∧ (pendFld s).reg ≠ MSIX_PBA := by
  simp only [pendFld, lossRegs, TEL_PENDm, TEL_LOSSp_A, TEL_LOSSp_B, TEL_LOG_SEQ, MSIX_PBA, Bool.or_eq_false_iff, beq_eq_false_iff_ne]
  omega

theorem ccPendFld_reg {s : Nat} (hs : s < 256) :
    lossRegs (ccPendFld s).reg = false ∧ (ccPendFld s).reg ≠ TEL_LOG_SEQ ∧ (ccPendFld s).reg ≠ MSIX_PBA := by
  simp only [ccPendFld, lossRegs, TEL_CCPENDm, TEL_LOSSp_A, TEL_LOSSp_B, TEL_LOG_SEQ, MSIX_PBA, Bool.or_eq_false_iff, beq_eq_false_iff_ne]
  omega

/-- A field that neither the log nor the loss counters hold stands after an event's record as marking the source leaves it. -/
theorem logEvent_bit (d : Dev) (s cls unit detail : Nat) (alarm : Bool) {f : Fld}
    (hf : lossRegs f.reg = false ∧ f.reg ≠ TEL_LOG_SEQ ∧ f.reg ≠ MSIX_PBA) :
    (logEvent (setPending d s) s cls unit detail alarm).bit f = (marked d s).bit f := by
  obtain ⟨hloss, hseq, hpba⟩ := hf
  obtain ⟨-, -, -, hreg⟩ := logEvent_offered (setPending d s) s cls unit detail alarm
  simp only [Dev.bit, Dev.fld, hreg _ hloss hseq, setPending_reg d s hpba]

theorem setPending_ns (d : Dev) (s : Nat) : (setPending d s).ns = d.ns := by
  simp only [Dev.ns, Dev.tb, (noted_setPending d s).tim]

theorem recorded_fwRaise {d : Dev} {fw unit : Nat} (h : fwRaise d fw unit = raiseRaw 2 d (248 + fw % 8) (unit % 65536) 0) :
    Keeps [.tel, .outs] noteRegs d (fwRaise d fw unit) :=
  h ▸ (Keeps.refl d).recorded (recorded_raiseRaw _ _ _ _ _) (by decide) (by decide) fun _ h => h

theorem fwRaise_logged_completes {fw unit : Nat} {s : State} (hup : s.dev.inReset = false)
    (hen : (sourceOf s.dev (248 + fw % 8)).enable = true)
    (hcls : (sourceOf s.dev (248 + fw % 8)).cls = 1 ∨ (sourceOf s.dev (248 + fw % 8)).cls = 2)
    (hfirst : Tab.find s.dev.tel.logged ((248 + fw % 8) * 65536 + unit % 65536) = none) :
    Completes (.fwRaise fw unit) s [.tel, .outs] noteRegs fun t =>
      t.dev.bit (pendFld (248 + fw % 8)) = true ∧ t.dev.bit (ccPendFld (248 + fw % 8)) = true ∧
      t.dev.reg TEL_LOG_SEQ = BitVec.ofNat 32 s.dev.tel.logNext ∧ t.dev.tel.alarms = s.dev.tel.alarms ∧
      t.dev.tel.log = (logRec s.dev (248 + fw % 8) (sourceOf s.dev (248 + fw % 8)).cls (unit % 65536) 0 0 false :: s.dev.tel.log).take 2048 := by
  have hraw := fwRaise_raw (unit := unit) hup hen (by omega)
  refine completes_of_onDev (g := fun d => fwRaise d fw unit) rfl hup rfl (recorded_fwRaise hraw) ?_
  simp only [hraw, raiseRaw_logged hen hcls]
  generalize hs : 248 + fw % 8 = src at hfirst ⊢
  have hsrc : src < 256 := by omega
  obtain ⟨hpend, hcc⟩ := marked_bits s.dev src
  have hfirst' : Tab.find (setPending s.dev src).tel.logged (src * 65536 + unit % 65536) = none := by rw [setPending_tel]; exact hfirst
  obtain ⟨hlog, hseq⟩ := logEvent_first (cls := (sourceOf s.dev src).cls) (detail := 0) (alarm := false) hfirst'
  obtain ⟨halarms, -, -, -⟩ := logEvent_offered (setPending s.dev src) src (sourceOf s.dev src).cls (unit % 65536) 0 false
  refine ⟨(logEvent_bit _ _ _ _ _ _ (pendFld_reg hsrc)).trans hpend, (logEvent_bit _ _ _ _ _ _ (ccPendFld_reg hsrc)).trans hcc, ?_, ?_, ?_⟩
  · rw [hseq, setPending_tel]
  · rw [halarms, setPending_tel]
  · rw [hlog, setPending_tel, logRec, setPending_ns, setPending_tel]
    rfl

theorem fwRaise_disabled {fw unit : Nat} {s : State} (hen : (sourceOf s.dev (248 + fw % 8)).enable = false) :
    exec (.fwRaise fw unit) s = .next s :=
  State.onDev_unchanged (f := fun d => fwRaise d fw unit) (by simp [fwRaise, raise, hen])

/-- An alarm as it enters the table, and the table with one put into an entry. -/
def freshAlarm (d : Dev) (s unit detail : Nat) : Alarm :=
  ⟨s, unit, false, 1, detail % 65536, d.secs % 2 ^ 32, d.ms % 2 ^ 32, true, true, none, none⟩
def putAlarm (d : Dev) (k : Nat) (a : Alarm) : Dev := { d with tel := { d.tel with alarms := Tab.put d.tel.alarms k a } }

/-- A free shared entry takes the alarm of a source that holds none. -/
theorem alarmPlace_free {d : Dev} {s unit detail k : Nat} (hnone : d.tel.alarms.all (fun e => e.2.source != s) = true)
    (hfree : Tab.freeKey d.tel.alarms 256 256 = some k) :
    alarmPlace d s unit detail = (putAlarm d k (freshAlarm d s unit detail), false) := by
  have hfind : d.tel.alarms.find? (fun e => decide (256 ≤ e.1) && e.2.source == s && e.2.unit == unit) = none := by
    refine List.find?_eq_none.mpr fun e he => ?_
    have := List.all_eq_true.mp hnone e he
    simp_all
  unfold alarmPlace
  simp only [hfind, hfree]
  rfl

/-- A source of class 0 whose alarm takes an entry: the table counted, pending bits, and a record of the event log. -/
theorem raiseRaw_alarm {d e : Dev} {m s unit detail : Nat} (hen : (sourceOf d s).enable = true) (hcls : (sourceOf d s).cls = 0)
    (hplace : alarmPlace d s unit detail = (e, false)) (hsame : sourceOf (alarmCount e) s = sourceOf d s) :
    raiseRaw m d s unit detail = logEvent (setPending (alarmCount e) s) s 0 unit detail true := by
  unfold raiseRaw
  simp [hen, hcls, hplace, recordEvent, hsame]

theorem fwRaise_alarm_completes {fw unit k : Nat} {s : State} (hup : s.dev.inReset = false)
    (hsrc : sourceOf s.dev (248 + fw % 8) = ⟨true, 0, (sourceOf s.dev (248 + fw % 8)).vector⟩)
    (hnone : s.dev.tel.alarms.all (fun e => e.2.source != 248 + fw % 8) = true) (hfree : Tab.freeKey s.dev.tel.alarms 256 256 = some k) :
    Completes (.fwRaise fw unit) s [.tel, .outs] noteRegs fun t =>
      Tab.find t.dev.tel.alarms k =
        some ⟨248 + fw % 8, unit % 65536, false, 1, 0, s.dev.secs % 2 ^ 32, s.dev.ms % 2 ^ 32, true, true, none, none⟩ ∧
      t.dev.bit (pendFld (248 + fw % 8)) = true ∧ ∀ j, j ≠ k → Tab.find t.dev.tel.alarms j = Tab.find s.dev.tel.alarms j := by
  have hen : (sourceOf s.dev (248 + fw % 8)).enable = true := congrArg TelSource.enable hsrc
  have hcls : (sourceOf s.dev (248 + fw % 8)).cls = 0 := congrArg TelSource.cls hsrc
  have hraw := fwRaise_raw (unit := unit) hup hen (by omega)
  refine completes_of_onDev (g := fun d => fwRaise d fw unit) rfl hup rfl (recorded_fwRaise hraw) ?_
  have hplace := alarmPlace_free (unit := unit % 65536) (detail := 0) hnone hfree
  simp only [hraw, raiseRaw_alarm hen hcls hplace rfl]
  have hsrc : 248 + fw % 8 < 256 := by omega
  generalize 248 + fw % 8 = src at hsrc ⊢
  let d := alarmCount (putAlarm s.dev k (freshAlarm s.dev src (unit % 65536) 0))
  obtain ⟨halarms, -, -, -⟩ := logEvent_offered (setPending d src) src 0 (unit % 65536) 0 true
  have hfind : ∀ j, Tab.find (logEvent (setPending d src) src 0 (unit % 65536) 0 true).tel.alarms j =
      if j = k then some (freshAlarm s.dev src (unit % 65536) 0) else Tab.find s.dev.tel.alarms j := fun j => by
    rw [halarms, setPending_tel]
    exact Tab.find_put _ _ _ _
  refine ⟨(hfind k).trans (if_pos rfl), ?_, fun j hj => (hfind j).trans (if_neg hj)⟩
  exact (logEvent_bit d src 0 (unit % 65536) 0 true (pendFld_reg hsrc)).trans (marked_bits d src).1

/-! ### Pending bits cleared and unmasked -/

theorem foldl_stays {α β : Type} {g : β → α → β} {b : β} {l : List α} (h : ∀ a ∈ l, g b a = b) : l.foldl g b = b := by
  induction l with
  | nil => rfl
  | cons a l ih => rw [List.foldl_cons, h a List.mem_cons_self, ih fun x hx => h x (List.mem_cons_of_mem a hx)]

theorem pendingClear_completes {m : Nat} {w : Word} {s : State} (hup : s.dev.inReset = false) (hm : m < 8)
    (hnone : (vectorsOf s.dev m (s.dev.reg (TEL_PENDm m) &&& w)).all
      (fun v => !vectorPending (s.dev.setReg (TEL_PENDm m) (s.dev.reg (TEL_PENDm m) &&& ~~~w)) v) = true) :
    Completes (.pendingClear m w) s [] (fun a => a == TEL_PENDm m) fun t => t.dev.reg (TEL_PENDm m) = s.dev.reg (TEL_PENDm m) &&& ~~~w := by
  have hd : pendingClear s.dev m w = s.dev.setReg (TEL_PENDm m) (s.dev.reg (TEL_PENDm m) &&& ~~~w) :=
    foldl_stays fun v hv => if_neg (by simpa using List.all_eq_true.mp hnone v hv)
  exact completes_of_onDev (g := fun d => if m < 8 then pendingClear d m w else d) rfl hup ((if_pos hm).trans hd)
    ((Keeps.refl _).setReg (by simp) _) (Dev.reg_setReg_same _ _ _)

theorem MSIX_TABLE_ne {m v : Nat} (hm : m < 8) (hv : v < 32) : MSIX_TABLE v 3 ≠ TEL_PENDm m ∧ MSIX_TABLE v 3 ≠ TEL_MASKm m := by
  simp only [MSIX_TABLE, TEL_PENDm, TEL_MASKm]
  omega

theorem pendingClear_again_completes {m v : Nat} {w : Word} {s : State} (hup : s.dev.inReset = false) (hm : m < 8) (hv : v < 32)
    (hone : vectorsOf s.dev m (s.dev.reg (TEL_PENDm m) &&& w) = [v])
    (hpend : vectorPending (s.dev.setReg (TEL_PENDm m) (s.dev.reg (TEL_PENDm m) &&& ~~~w)) v = true)
    (hopen : nbit (s.dev.reg (MSIX_TABLE v 3)).toNat 0 = false) :
    Completes (.pendingClear m w) s [.outs] (fun a => a == TEL_PENDm m) fun t =>
      t.dev.reg (TEL_PENDm m) = s.dev.reg (TEL_PENDm m) &&& ~~~w ∧ t.dev.outs = .msix v :: s.dev.outs := by
  have hd : pendingClear s.dev m w = (s.dev.setReg (TEL_PENDm m) (s.dev.reg (TEL_PENDm m) &&& ~~~w)).emit (.msix v) := by
    rw [pendingClear, hone, List.foldl_cons, List.foldl_nil, if_pos hpend]
    exact sendVector_open (by rw [Dev.reg_setReg_other _ _ _ _ (MSIX_TABLE_ne hm hv).1, hopen])
  exact completes_of_onDev (g := fun d => if m < 8 then pendingClear d m w else d) rfl hup ((if_pos hm).trans hd)
    (((Keeps.refl _).setReg (by simp) _).emit (by simp) _) ⟨Dev.reg_setReg_same _ _ _, rfl⟩

theorem maskWrite_completes {m v : Nat} {w : Word} {s : State} (hup : s.dev.inReset = false) (hm : m < 8) (hv : v < 32)
    (hopen : nbit (s.dev.reg (MSIX_TABLE v 3)).toNat 0 = false)
    (hvec : vectorsOf s.dev m (s.dev.reg (TEL_MASKm m) &&& ~~~w &&& s.dev.reg (TEL_PENDm m)) = [v] ∨
      vectorsOf s.dev m (s.dev.reg (TEL_MASKm m) &&& ~~~w &&& s.dev.reg (TEL_PENDm m)) = []) :
    Completes (.maskWrite m w) s [.outs] (fun a => a == TEL_MASKm m) fun t => t.dev.reg (TEL_MASKm m) = w ∧
      t.dev.outs = (if vectorsOf s.dev m (s.dev.reg (TEL_MASKm m) &&& ~~~w &&& s.dev.reg (TEL_PENDm m)) = [] then [] else [.msix v]) ++
        s.dev.outs := by
  have hset : Keeps [.outs] (fun a => a == TEL_MASKm m) s.dev (s.dev.setReg (TEL_MASKm m) w) := (Keeps.refl _).setReg (by simp) _
  rcases hvec with hvec | hvec
  · have hd : maskWrite s.dev m w = (s.dev.setReg (TEL_MASKm m) w).emit (.msix v) := by
      rw [maskWrite, hvec, List.foldl_cons, List.foldl_nil]
      exact sendVector_open (by rw [Dev.reg_setReg_other _ _ _ _ (MSIX_TABLE_ne hm hv).2, hopen])
    exact completes_of_onDev (g := fun d => if m < 8 then maskWrite d m w else d) rfl hup ((if_pos hm).trans hd) (hset.emit (by simp) _)
      ⟨Dev.reg_setReg_same _ _ _, by rw [hvec]; rfl⟩
  · have hd : maskWrite s.dev m w = s.dev.setReg (TEL_MASKm m) w := by rw [maskWrite, hvec, List.foldl_nil]
    exact completes_of_onDev (g := fun d => if m < 8 then maskWrite d m w else d) rfl hup ((if_pos hm).trans hd) hset
      ⟨Dev.reg_setReg_same _ _ _, by rw [hvec]; rfl⟩

theorem ccpendClear_completes {m : Nat} {w : Word} {s : State} (hup : s.dev.inReset = false) (hm : m < 8) :
    Completes (.ccpendClear m w) s [] (fun a => a == TEL_CCPENDm m) fun t =>
      t.dev.reg (TEL_CCPENDm m) = s.dev.reg (TEL_CCPENDm m) &&& ~~~w :=
  completes_of_onDev (g := fun d => if m < 8 then ccpendClear d m w else d) rfl hup (if_pos hm) ((Keeps.refl _).setReg (by simp) _)
    (Dev.reg_setReg_same _ _ _)

/-! ### Acknowledgements (R451) -/

theorem alarmAck_whole {d : Dev} {k : Nat} {a : Alarm} (ha : Tab.find d.tel.alarms k = some a) (hover : a.overrun = false)
    (hcount : 0 < a.count) :
    alarmAck d k a.count = alarmCount { d with tel := { d.tel with alarms := Tab.del d.tel.alarms k } } := by
  have h0 : ¬ a.count = 0 := by omega
  simp [alarmAck, ha, hover, h0]

theorem alarmAck_part {d : Dev} {k seen : Nat} {a : Alarm} (ha : Tab.find d.tel.alarms k = some a) (hover : a.overrun = false)
    (hpos : 0 < seen) (hlt : seen < a.count) :
    alarmAck d k seen = putAlarm d k { a with count := a.count - seen, pendRing := true, pendEth := true } := by
  have h0 : ¬ seen = 0 := by omega
  have hle : ¬ a.count < seen := by omega
  have hne : ¬ a.count = seen := by omega
  simp [alarmAck, ha, hover, h0, hle, hne, putAlarm]

theorem alarmAck_overrun {d : Dev} {k seen : Nat} {a : Alarm} (ha : Tab.find d.tel.alarms k = some a) (hover : a.overrun = true)
    (hle : seen ≤ a.count) :
    alarmAck d k seen = putAlarm d k { a with count := 1, overrun := false, pendRing := true, pendEth := true } := by
  have hle' : ¬ a.count < seen := by omega
  simp [alarmAck, ha, hover, hle', putAlarm]

theorem alarmAck_above {d : Dev} {k seen : Nat} (h : (Tab.find d.tel.alarms k).all (fun a => decide (a.count < seen)) = true) :
    alarmAck d k seen = d := by
  unfold alarmAck
  cases ha : Tab.find d.tel.alarms k with
  | none => rfl
  | some a =>
    have hlt : a.count < seen := by simpa [ha] using h
    simp [hlt]

theorem telAlmAck_exec (k seen : Nat) (s : State) :
    exec (.telAlmAck k seen) s = s.onDev fun d => alarmAck d (k % 512) (seen % 65536) := rfl

theorem telAlmAck_exec_of_lt {k seen : Nat} (hk : k < 512) (hseen : seen < 65536) (s : State) :
    exec (.telAlmAck k seen) s = s.onDev fun d => alarmAck d k seen := by
  rw [telAlmAck_exec, Nat.mod_eq_of_lt hk, Nat.mod_eq_of_lt hseen]

theorem telAlmAck_completes {k seen : Nat} {a : Alarm} {s : State} (hup : s.dev.inReset = false) (hk : k < 512) (hseen : seen < 65536)
    (ha : Tab.find s.dev.tel.alarms k = some a) (hover : a.overrun = false) (hpos : 0 < seen) (hle : seen ≤ a.count) :
    Completes (.telAlmAck k seen) s [.tel] (fun r => r == TEL_STATUS) fun t =>
      Tab.find t.dev.tel.alarms k = (if a.count = seen then none else some { a with count := a.count - seen, pendRing := true, pendEth := true }) ∧
      ∀ j, j ≠ k → Tab.find t.dev.tel.alarms j = Tab.find s.dev.tel.alarms j := by
  rcases hle.eq_or_lt with rfl | hlt
  · refine completes_of_onDev (telAlmAck_exec_of_lt hk hseen s) hup (alarmAck_whole ha hover hpos)
      (((Keeps.refl _).tel (by simp) _).setFld rfl _) ⟨?_, fun j hj => ?_⟩
    · rw [if_pos rfl]
      exact (Tab.find_del _ _ _).trans (if_pos rfl)
    · exact (Tab.find_del _ _ _).trans (if_neg hj)
  · refine completes_of_onDev (telAlmAck_exec_of_lt hk hseen s) hup (alarmAck_part ha hover hpos hlt) ((Keeps.refl _).tel (by simp) _)
      ⟨?_, fun j hj => (Tab.find_put _ _ _ _).trans (if_neg hj)⟩
    rw [if_neg (by omega)]
    exact (Tab.find_put _ _ _ _).trans (if_pos rfl)

theorem telAlmAck_overrun_completes {k seen : Nat} {a : Alarm} {s : State} (hup : s.dev.inReset = false) (hk : k < 512)
    (hseen : seen < 65536) (ha : Tab.find s.dev.tel.alarms k = some a) (hover : a.overrun = true) (hle : seen ≤ a.count) :
    Completes (.telAlmAck k seen) s [.tel] (fun _ => false) fun t =>
      Tab.find t.dev.tel.alarms k = some { a with count := 1, overrun := false, pendRing := true, pendEth := true } ∧
      ∀ j, j ≠ k → Tab.find t.dev.tel.alarms j = Tab.find s.dev.tel.alarms j :=
  completes_of_onDev (telAlmAck_exec_of_lt hk hseen s) hup (alarmAck_overrun ha hover hle) ((Keeps.refl _).tel (by simp) _)
    ⟨(Tab.find_put _ _ _ _).trans (if_pos rfl), fun _ hj => (Tab.find_put _ _ _ _).trans (if_neg hj)⟩

theorem alarmAck_command {j k seen : Nat} {s : State} (hup : s.dev.inReset = false) :
    ∃ t, exec (.alarmAck (.cmd j) k seen) s = .next t ∧ told t.dev (.cmd j) hrOK [] = true ∧ (∀ u, exec (.telAlmAck k seen) s = .next u →
      t = { u with dev := u.dev.toCmd (.cmd j) hrOK [] }) := by
  refine ⟨_, s.onDev_up (fun d => (alarmAck d (k % 512) (seen % 65536)).toCmd (.cmd j) hrOK []) hup, told_toCmd _ _ _ _, fun u hu => ?_⟩
  rw [telAlmAck_exec, s.onDev_up _ hup] at hu
  cases hu
  rfl

/-- Settles O56: an event goes by its class, pending bits and masks decide the message, an acknowledgement counts down. -/
theorem telemetryEventsAndAlarms : Obligations.TelemetryEventsAndAlarms := by
  unfold Obligations.TelemetryEventsAndAlarms
  exact ⟨fun _ _ _ hup hen hcls hfirst => fwRaise_logged_completes hup hen hcls hfirst, fun _ _ _ _ hen => fwRaise_disabled hen,
    fun _ _ _ _ hup hsrc hnone hfree => fwRaise_alarm_completes hup hsrc hnone hfree,
    fun _ _ _ hup hm hnone => pendingClear_completes hup hm hnone,
    fun _ _ _ _ hup hm hv hone hpend hopen => pendingClear_again_completes hup hm hv hone hpend hopen,
    fun _ _ _ _ hup hm hv hopen hvec => maskWrite_completes hup hm hv hopen hvec,
    fun _ _ _ hup hm => ccpendClear_completes hup hm,
    fun _ _ _ _ hup hk hseen ha hover hpos hle => telAlmAck_completes hup hk hseen ha hover hpos hle,
    fun _ _ _ _ hup hk hseen ha hover hle => telAlmAck_overrun_completes hup hk hseen ha hover hle,
    fun k seen s _ hk hseen habove => (telAlmAck_exec_of_lt hk hseen s).trans (State.onDev_unchanged (alarmAck_above habove)),
    fun _ _ _ _ hup => alarmAck_command hup⟩

end Sys2Proof.Machine
end

section
/-! PROOF. The ring, the datagrams and storm mode (16_telemetry.md R455 to R460). -/

namespace Sys2Proof.Machine

theorem Keeps.hif {ps : List Part} {rs : Nat → Bool} {d e : Dev} (h : Keeps ps rs d e) (hp : Part.hif ∈ ps) (x : Hif) :
    Keeps ps rs d { e with hif := x } :=
  h.trans ⟨fun p hn => by cases p with | hif => exact absurd hp hn | _ => rfl, fun _ _ => rfl⟩

theorem Keeps.setPath {ps : List Part} {rs : Nat → Bool} {d e : Dev} (h : Keeps ps rs d e) (ht : Part.tel ∈ ps) (p : Nat) (x : TelPath) :
    Keeps ps rs d (setPath e p x) := h.tel ht _

/-! ### The unit a path sends next -/

theorem stagedFirst_one {u : TelUnit} (h : within u.kind 2 5 = true) : stagedFirst [u] = some u := by
  obtain ⟨hlo, hhi⟩ : 2 ≤ u.kind ∧ u.kind ≤ 5 := by simpa [within] using h
  obtain hk | hk | hk | hk : u.kind = 2 ∨ u.kind = 3 ∨ u.kind = 4 ∨ u.kind = 5 := by omega
  all_goals simp [stagedFirst, List.findSome?, hk]

/-- A path after its one staged unit. -/
def sentPath (x : TelPath) (u : TelUnit) : TelPath := { (telUnit x u.kind u.body).2 with staged := [] }

theorem takeUnit_noAlarm {d : Dev} {p : Nat} (ha : d.tel.alarms = []) : takeUnit d p = (stagedFirst (pathOf d p).staged).map fun u =>
    ((telUnit (pathOf d p) u.kind u.body).1,
      setPath d p { (telUnit (pathOf d p) u.kind u.body).2 with staged := (pathOf d p).staged.erase u }) := by
  unfold takeUnit
  simp only [ha, List.find?_nil, ite_self]
  rfl

theorem takeUnit_one {d : Dev} {p : Nat} {u : TelUnit} (ha : d.tel.alarms = []) (hs : (pathOf d p).staged = [u])
    (hk : within u.kind 2 5 = true) :
    takeUnit d p = some ((telUnit (pathOf d p) u.kind u.body).1, setPath d p (sentPath (pathOf d p) u)) := by
  rw [takeUnit_noAlarm ha, hs, stagedFirst_one hk]
  simp only [Option.map_some, List.erase_cons_head]
  rfl

theorem takeUnit_empty {d : Dev} {p : Nat} (ha : d.tel.alarms = []) (hs : (pathOf d p).staged = []) : takeUnit d p = none := by
  rw [takeUnit_noAlarm ha, hs]
  rfl

theorem sentPath_seq (x : TelPath) (u : TelUnit) :
    Tab.getD (sentPath x u).seq u.kind 0 = (Tab.getD x.seq u.kind 0 + 1) % 2 ^ 32 :=
  (Tab.getD_put _ _ _ _ _).trans (if_pos rfl)

/-! ### The ring -/

theorem sendLimited_idle {d : Dev} {v : Nat} (hidle : Tab.find d.hif.intervals v = none)
    (hopen : nbit (d.reg (MSIX_TABLE v 3)).toNat 0 = false) :
    sendLimited d v = { d.emit (.msix v) with hif := { d.hif with intervals := Tab.put d.hif.intervals v false } } := by
  unfold sendLimited
  simp only [hidle, sendVector_open hopen]
  rfl

/-- The ring with its one staged unit written: the producer index one on. -/
def ringWritten (d : Dev) (u : TelUnit) : Dev :=
  ((setPath d 0 (sentPath d.tel.ring u)).emit
    (.hostWrite (d.reg64 TEL_RING_BASE_LO + 48 * d.fld TEL_RING_PROD_index) (telUnit d.tel.ring u.kind u.body).1)).setFld
    TEL_RING_PROD_index ((d.fld TEL_RING_PROD_index + 1) % ringSize d TEL_RING_CFG_size_log2)

theorem ringWrite_one {d : Dev} {u : TelUnit} (ha : d.tel.alarms = []) (hs : d.tel.ring.staged = [u]) (hk : within u.kind 2 5 = true)
    (hroom : ringFull d = false) : ringWrite (unitBound d 0) d = ringWritten d u := by
  have hbound : unitBound d 0 = 1 := by
    show d.tel.ring.staged.length + d.tel.alarms.length = 1
    rw [hs, ha]
    rfl
  rw [hbound, ringWrite, hroom, takeUnit_one (p := 0) ha hs hk]
  rfl

/-- A ring index of at most 65,536 entries, one on, fits its field. -/
theorem ringNext_lt {d : Dev} (hsize : d.fld TEL_RING_CFG_size_log2 ≤ 16) (k : Nat) :
    (k + 1) % ringSize d TEL_RING_CFG_size_log2 < 65536 :=
  (Nat.mod_lt _ (Nat.two_pow_pos _)).trans_le ((Nat.pow_le_pow_right (by decide) hsize).trans (by decide))

theorem ringWritten_index {d : Dev} (u : TelUnit) (hsize : d.fld TEL_RING_CFG_size_log2 ≤ 16) :
    (ringWritten d u).fld TEL_RING_PROD_index = (d.fld TEL_RING_PROD_index + 1) % ringSize d TEL_RING_CFG_size_log2 := by
  rw [ringWritten, Dev.fld_setFld_same _ _ _ (by decide)]
  exact Nat.mod_eq_of_lt (ringNext_lt hsize _)

theorem ringWritten_reg {d : Dev} (u : TelUnit) {a : Nat} (ha : a ≠ TEL_RING_PROD) : (ringWritten d u).reg a = d.reg a := by
  rw [ringWritten, Dev.reg_setFld, if_neg ha]
  rfl

theorem ringWritten_vector {d : Dev} (u : TelUnit) : (ringWritten d u).fld TEL_RING_CFG_vector = d.fld TEL_RING_CFG_vector := by
  rw [ringWritten, Dev.fld_setFld_other _ _ _ _ (by decide)]
  rfl

theorem teleRingSend_completes {u : TelUnit} {s : State} (hup : s.dev.inReset = false) (hen : s.dev.bit TEL_RING_CFG_en = true)
    (hs : s.dev.tel.ring.staged = [u]) (hk : within u.kind 2 5 = true) (ha : s.dev.tel.alarms = []) (hroom : ringFull s.dev = false)
    (hsize : s.dev.fld TEL_RING_CFG_size_log2 ≤ 16) (hidle : Tab.find s.dev.hif.intervals (s.dev.fld TEL_RING_CFG_vector) = none)
    (hopen : nbit (s.dev.reg (MSIX_TABLE (s.dev.fld TEL_RING_CFG_vector) 3)).toNat 0 = false) :
    Completes .teleRingSend s [.tel, .hif, .outs] (fun a => a == TEL_RING_PROD) fun t =>
      t.dev.outs = .msix (s.dev.fld TEL_RING_CFG_vector) ::
        .hostWrite (s.dev.reg64 TEL_RING_BASE_LO + 48 * s.dev.fld TEL_RING_PROD_index) (telUnit s.dev.tel.ring u.kind u.body).1 :: s.dev.outs ∧
      t.dev.fld TEL_RING_PROD_index = (s.dev.fld TEL_RING_PROD_index + 1) % ringSize s.dev TEL_RING_CFG_size_log2 ∧
      t.dev.tel.ring.staged = [] ∧ Tab.getD t.dev.tel.ring.seq u.kind 0 = (Tab.getD s.dev.tel.ring.seq u.kind 0 + 1) % 2 ^ 32 ∧
      Tab.find t.dev.hif.intervals (s.dev.fld TEL_RING_CFG_vector) = some false := by
  have hmoved : (ringWritten s.dev u).fld TEL_RING_PROD_index ≠ s.dev.fld TEL_RING_PROD_index := fun h => by
    rw [ringWritten_index u hsize] at h
    have hlt : s.dev.fld TEL_RING_PROD_index < ringSize s.dev TEL_RING_CFG_size_log2 := h.symm.trans_lt (Nat.mod_lt _ (Nat.two_pow_pos _))
    rcases Nat.lt_or_eq_of_le (Nat.succ_le_of_lt hlt) with hn | hn
    · rw [Nat.mod_eq_of_lt hn] at h
      omega
    · have hone : ringSize s.dev TEL_RING_CFG_size_log2 = 1 := by
        rw [← Nat.succ_eq_add_one, hn, Nat.mod_self] at h
        rw [← hn, ← h]
      simp [ringFull, hone, Nat.mod_one] at hroom
  have hmask : nbit ((ringWritten s.dev u).reg (MSIX_TABLE (s.dev.fld TEL_RING_CFG_vector) 3)).toNat 0 = false := by
    have hne : MSIX_TABLE (s.dev.fld TEL_RING_CFG_vector) 3 ≠ TEL_RING_PROD := by
      have hv : s.dev.fld TEL_RING_CFG_vector < 32 := Dev.fld_lt _ _
      simp only [MSIX_TABLE, TEL_RING_PROD]
      omega
    rw [ringWritten_reg u hne, hopen]
  have hd : ringSend s.dev = { (ringWritten s.dev u).emit (.msix (s.dev.fld TEL_RING_CFG_vector)) with
      hif := { s.dev.hif with intervals := Tab.put s.dev.hif.intervals (s.dev.fld TEL_RING_CFG_vector) false } } := by
    have hwritten := ringWrite_one ha hs hk hroom
    simp only [ringSend, hen, hwritten, Bool.not_true, Bool.false_eq_true, if_false, if_neg hmoved, ringWritten_vector]
    exact sendLimited_idle hidle hmask
  refine completes_of_onDev (g := ringSend) rfl hup hd
    (((((Keeps.refl _).setPath (by decide) _ _).emit (by decide) _).setFld rfl _ |>.emit (by decide) _).hif (by decide) _)
    ⟨rfl, ringWritten_index u hsize, rfl, sentPath_seq _ _, (Tab.find_put _ _ _ _).trans (if_pos rfl)⟩

theorem teleRingSend_off {s : State} (h : s.dev.bit TEL_RING_CFG_en = false) : exec .teleRingSend s = .next s :=
  State.onDev_unchanged (f := ringSend) (by simp [ringSend, h])

theorem ringConsWrite_completes {i : Nat} {s : State} (hup : s.dev.inReset = false) (hi : i < ringSize s.dev TEL_RING_CFG_size_log2)
    (h16 : i < 65536) : Completes (.ringConsWrite i) s [] (fun a => a == TEL_RING_CONS) fun t => t.dev.fld TEL_RING_CONS_index = i :=
  completes_of_onDev (g := fun d => ringCons d i) rfl hup (if_neg (Nat.not_le.mpr hi)) ((Keeps.refl _).setFld rfl _)
    ((Dev.fld_setFld_same _ _ _ (by decide)).trans (Nat.mod_eq_of_lt h16))

theorem ringConsWrite_ignored {i : Nat} {s : State} (hi : ringSize s.dev TEL_RING_CFG_size_log2 ≤ i) :
    exec (.ringConsWrite i) s = .next s :=
  State.onDev_unchanged (f := fun d => ringCons d i) (if_pos hi)

/-! ### Datagrams -/

theorem takeUnits_one {d : Dev} {u : TelUnit} (ha : d.tel.alarms = []) (hs : d.tel.eth.staged = [u]) (hk : within u.kind 2 5 = true) :
    takeUnits 8 d = ([(telUnit d.tel.eth u.kind u.body).1], setPath d 1 (sentPath d.tel.eth u)) := by
  have hsecond : takeUnits 7 (setPath d 1 (sentPath d.tel.eth u)) = ([], setPath d 1 (sentPath d.tel.eth u)) := by
    rw [takeUnits, takeUnit_empty (d := setPath d 1 (sentPath d.tel.eth u)) (p := 1) ha rfl]
  rw [takeUnits, takeUnit_one (p := 1) ha hs hk]
  simp only [pathOf, Nat.one_ne_zero, if_false, hsecond]

theorem teleDatagramSend_completes {u : TelUnit} {e : Nat} {s : State} (hup : s.dev.inReset = false) (hen : s.dev.bit TEL_ETH_CFG_en = true)
    (hs : s.dev.tel.eth.staged = [u]) (hk : within u.kind 2 5 = true) (ha : s.dev.tel.alarms = []) (hpaced : s.dev.tel.dgramFrom ≤ s.dev.ns)
    (hport : (List.range 4).find? (fun k => nbit (s.dev.fld TEL_ETH_CFG_eth_mask) k && ethUp s.dev k) = some e) :
    Completes .teleDatagramSend s [.tel, .outs] (fun _ => false) fun t =>
      t.dev.outs = .datagram e (mgmtAddr s.dev) (telDest s.dev) (s.dev.fld TEL_ETH_CFG_dst_port) (s.dev.fld TEL_ETH_CFG_dscp) ([0x54, 0x44, 0x01, 0x01] ++ le 4 s.dev.tel.dgramSeq ++ (telUnit s.dev.tel.eth u.kind u.body).1) :: s.dev.outs ∧
      t.dev.tel.eth.staged = [] ∧ t.dev.tel.dgramSeq = (s.dev.tel.dgramSeq + 1) % 2 ^ 32 ∧ t.dev.tel.ring = s.dev.tel.ring ∧
      Tab.getD t.dev.tel.eth.seq u.kind 0 = (Tab.getD s.dev.tel.eth.seq u.kind 0 + 1) % 2 ^ 32 := by
  refine completes_of_onDev (g := datagramSend) rfl hup rfl ?_ ?_
  all_goals
    simp only [datagramSend, hport, hen, takeUnits_one ha hs hk, Nat.not_lt.mpr hpaced, decide_false, Bool.not_true, Bool.or_false,
      List.isEmpty_cons, Bool.false_eq_true, if_false]
  · exact (((Keeps.refl _).setPath (by decide) _ _).tel (by decide) _).emit (by decide) _
  · refine ⟨?_, rfl, rfl, rfl, sentPath_seq _ _⟩
    simp [Dev.emit, le, setPath]

theorem teleDatagramSend_off {s : State}
    (h : s.dev.bit TEL_ETH_CFG_en = false ∨ ∀ e, e < 4 → (nbit (s.dev.fld TEL_ETH_CFG_eth_mask) e && ethUp s.dev e) = false) :
    exec .teleDatagramSend s = .next s := by
  refine State.onDev_unchanged (f := datagramSend) ?_
  unfold datagramSend
  split
  · rfl
  · rename_i e he
    rcases h with h | h
    · simp [h]
    · have hlt : e < 4 := List.mem_range.mp (List.mem_of_find?_eq_some he)
      have := List.find?_some he
      simp [h e hlt] at this

/-! ### Storm mode and counters -/

theorem stormEnd_completes {st : Storm} {s : State} (hup : s.dev.inReset = false) (hst : s.dev.tel.storm = some st)
    (hring : 4 * s.dev.tel.ring.staged.length < pathCap s.dev) (heth : 4 * s.dev.tel.eth.staged.length < pathCap s.dev) :
    Completes .stormEnd s [.tel, .outs] noteRegs fun t => t.dev.tel.storm = none ∧ t.dev.bit TEL_STATUS_storm = false := by
  let d := ({ s.dev with tel := { s.dev.tel with storm := none } }).setBit TEL_STATUS_storm false
  have hd : stormEnd s.dev = raiseRaw 2 (traceRaw d (traceRec d 0x60 1 0 0 (le 4 st.n ++ le 4 st.out))).1 240 0 1 := by
    unfold stormEnd
    simp only [hst]
    exact if_neg (by omega)
  have hrec : Recorded d (stormEnd s.dev) := hd ▸ (recorded_traceRaw _ _).trans (recorded_raiseRaw _ _ _ _ _)
  refine completes_of_onDev (g := stormEnd) rfl hup rfl
    ((((Keeps.refl s.dev).tel (by decide) _).setBit (by decide) _).recorded hrec (by decide) (by decide) fun _ h => h) ⟨hrec.storm, ?_⟩
  have hclear : d.fld TEL_STATUS_storm = 0 := Dev.fld_setFld_same _ _ _ (by decide)
  simp only [Dev.bit, hrec.status, hclear]
  rfl

theorem stormEnd_not {s : State} (h : s.dev.tel.storm = none ∨ pathCap s.dev ≤ 4 * s.dev.tel.ring.staged.length) :
    exec .stormEnd s = .next s := by
  refine State.onDev_unchanged (f := stormEnd) ?_
  unfold stormEnd
  split
  · rfl
  · rename_i st hst
    exact if_pos (.inl (h.resolve_left (by simp [hst])))

theorem telCntClear_completes {s : State} (hup : s.dev.inReset = false) :
    Completes .telCntClear s [] (fun a => a == TEL_LOSSp_A 0 || a == TEL_LOSSp_B 0 || a == TEL_LOSSp_A 1 || a == TEL_LOSSp_B 1 || a == TEL_CNT_LOCAL) fun t =>
      t.dev.reg TEL_CNT_LOCAL = 0 ∧ t.dev.reg (TEL_LOSSp_A 0) = 0 ∧ t.dev.reg (TEL_LOSSp_B 0) = 0 ∧ t.dev.reg (TEL_LOSSp_A 1) = 0 ∧
        t.dev.reg (TEL_LOSSp_B 1) = 0 := by
  refine completes_of_onDev (g := telCntClear) rfl hup rfl (Keeps.clearRegs (by decide)) ?_
  simp [telCntClear, Dev.reg_clearRegs]

/-- Settles O57: each path sends its one unit and counts it, and the storm ends below the threshold. -/
theorem telemetryDelivery : Obligations.TelemetryDelivery := by
  unfold Obligations.TelemetryDelivery
  exact ⟨fun _ _ hup hen hs hk ha hroom hsize hidle hopen => teleRingSend_completes hup hen hs hk ha hroom hsize hidle hopen,
    fun _ _ hoff => teleRingSend_off hoff, fun _ _ hup hi h16 => ringConsWrite_completes hup hi h16, fun _ _ _ hi => ringConsWrite_ignored hi,
    fun _ _ _ hup hen hs hk ha hpaced hport => teleDatagramSend_completes hup hen hs hk ha hpaced hport,
    fun _ _ hoff => teleDatagramSend_off hoff, fun _ _ hup hst hring heth => stormEnd_completes hup hst hring heth,
    fun _ _ h => stormEnd_not h, fun _ hup => telCntClear_completes hup⟩

end Sys2Proof.Machine
end

section
/-! PROOF. Register commands of the host and COUNTER_EXPORT (16_telemetry.md R455, 17_host_interface.md R473, R474). -/

namespace Sys2Proof.Machine

/-! ### REG_READ and REG_WRITE -/

theorem whoMaster_hcq {d : Dev} {j : Nat} (h : (d.hif.mqRunning.any fun x => x.jseq == j) = false) : whoMaster d (.cmd j) = .hcq := by
  simp [whoMaster, isMgmt, h]

theorem timTbSel_running (d : Dev) : regStopped d TIM_TB_SEL = false := regStopped_of_tickOf (by decide) d

theorem timTbSel_busRead (f : Fuses) (d : Dev) : busRead f d .hcq TIM_TB_SEL = (some (liveWord f d .hcq TIM_TB_SEL), d) := rfl

theorem completes_of_onDevF_eq {c : Instr} {s : State} {g : Fuses → Dev → Dev} {d : Dev} {ps : List Part} {rs : Nat → Bool}
    {P : State → Prop} (hc : exec c s = s.onDevF g) (hup : s.dev.inReset = false) (hg : g s.fuses s.dev = d) (hk : Keeps ps rs s.dev d)
    (hP : P { s with dev := d }) : Completes c s ps rs P := by
  subst hg
  exact completes_of_onDevF hc hup hk.parts hk.regs hP

theorem completes_of_onFuses_eq {c : Instr} {s : State} {g : Fuses → Dev → Fuses × Dev} {d : Dev} {ps : List Part} {rs : Nat → Bool}
    {P : State → Prop} (hc : exec c s = s.onFuses g) (hup : s.dev.inReset = false) (hg : g s.fuses s.dev = (s.fuses, d))
    (hk : Keeps ps rs s.dev d) (hP : P { s with dev := d }) : Completes c s ps rs P :=
  completes_of_onFuses hc hup hg hk.parts hk.regs hP

theorem regRead_completes {j : Nat} {s : State} (hup : s.dev.inReset = false) (hq : (s.dev.hif.mqRunning.any fun x => x.jseq == j) = false) :
    Completes (.regRead (.cmd j) TIM_TB_SEL) s [.hif] (fun _ => false) fun t =>
      t.dev.hif.running = s.dev.hif.running.map (RunCmd.note j hrOK (le 4 (liveWord s.fuses s.dev .hcq TIM_TB_SEL).toNat)) := by
  have hd : regReadCmd s.fuses s.dev (.cmd j) TIM_TB_SEL =
      s.dev.toCmd (.cmd j) hrOK (le 4 (liveWord s.fuses s.dev .hcq TIM_TB_SEL).toNat) := by
    simp only [regReadCmd, whoMaster_hcq hq, timTbSel_running, timTbSel_busRead]
    rfl
  exact completes_of_onDevF_eq (g := fun f d => regReadCmd f d (.cmd j) TIM_TB_SEL) rfl hup hd ((Keeps.refl _).toCmd (by simp) _ _ _) rfl

/-- The register descriptor of the time bases' selector. -/
def timTbSelDesc : RegDesc := ⟨TIM_TB_SEL, [], 0, [⟨2, 0, .rw, []⟩]⟩

theorem timTbSel_busWrite (w : Word) (f : Fuses) (d : Dev) :
    busWrite .hcq TIM_TB_SEL w f d = (f, plainWrite d timTbSelDesc TIM_TB_SEL w) := rfl

theorem timTbSel_field (old w : Word) : getBits (writeWord timTbSelDesc old w) 2 0 = getBits w 2 0 :=
  (fieldwiseWrite timTbSelDesc old w (by decide) (by decide)).1 ⟨2, 0, .rw, []⟩ (by decide) rfl (by simp)

theorem regWrite_completes {j : Nat} {w : Word} {s : State} (hup : s.dev.inReset = false)
    (hq : (s.dev.hif.mqRunning.any fun x => x.jseq == j) = false) :
    Completes (.regWrite (.cmd j) TIM_TB_SEL w) s [.hif] (fun a => a == TIM_TB_SEL) fun t =>
      t.dev.fld TIM_TB_SEL_tb = getBits w 2 0 ∧ t.dev.hif.running = s.dev.hif.running.map (RunCmd.note j hrOK []) := by
  have hmay : (isHost .hcq && (inCreq TIM_TB_SEL || ((findReg TIM_TB_SEL).map fun x => fwOnly x.1).getD false)) = false := by decide
  have hd : regWriteCmd (.cmd j) TIM_TB_SEL w s.fuses s.dev =
      (s.fuses, (plainWrite s.dev timTbSelDesc TIM_TB_SEL w).toCmd (.cmd j) hrOK []) := by
    simp only [regWriteCmd, whoMaster_hcq hq, timTbSel_running, timTbSel_busWrite, hmay]
    rfl
  refine completes_of_onFuses_eq (g := regWriteCmd (.cmd j) TIM_TB_SEL w) rfl hup hd
    (((Keeps.refl _).setReg (by simp) _).toCmd (by simp) _ _ _) ⟨?_, rfl⟩
  exact (congrArg (fun v => getBits v 2 0) (Dev.reg_setReg_same _ _ _)).trans (timTbSel_field _ _)

/-! ### COUNTER_EXPORT -/

/-- The offset that an entry of the list names, when it is valid. -/
def listedReg (d : Dev) (a : Nat) : Option Nat := if nbit (d.reg a).toNat 31 then some (nbits (d.reg a).toNat 23 0) else none

theorem listedReg_valid {d : Dev} {a b : Nat} (hb : b < 2 ^ 24) (h : d.reg a = BitVec.ofNat 32 (2 ^ 31 + b)) : listedReg d a = some b := by
  have hnat : (d.reg a).toNat = 2 ^ 31 + b := by rw [h, BitVec.toNat_ofNat]; omega
  have hbit : nbit (2 ^ 31 + b) 31 = true := by
    rw [nbit, Nat.testBit_two_pow_add_eq, Nat.testBit_lt_two_pow (hb.trans (by decide))]
    rfl
  have hlow : nbits (2 ^ 31 + b) 23 0 = b := by
    simp only [nbits, Nat.shiftRight_zero]
    omega
  rw [listedReg, hnat, hbit, hlow]
  rfl

theorem listedRegs_first {d : Dev} {a : Nat} (ha : listedReg d (TEL_CNT_LISTm 0) = some a)
    (hrest : ∀ m, 0 < m → m < 64 → (d.reg (TEL_CNT_LISTm m)).getLsbD 31 = false) :
    ((List.range 64).map TEL_CNT_LISTm).filterMap (listedReg d) = [a] := by
  have hnone : ((List.range 63).map fun m => TEL_CNT_LISTm (m + 1)).filterMap (listedReg d) = [] := by
    refine List.filterMap_eq_nil_iff.mpr fun x hx => ?_
    obtain ⟨m, hm, rfl⟩ := List.mem_map.mp hx
    have := hrest (m + 1) (Nat.succ_pos m) (Nat.succ_lt_succ (List.mem_range.mp hm))
    simp only [BitVec.getLsbD] at this
    simp [listedReg, nbit, this]
  rw [List.range_succ_eq_map, List.map_cons, List.filterMap_cons_some ha, List.map_map]
  exact congrArg (a :: ·) hnone

theorem offer_ring {d : Dev} {u : TelUnit} (h0 : pathTakes d 0 u.kind = true) (h1 : pathTakes d 1 u.kind = false)
    (hempty : d.tel.ring.staged = []) (hcap : 0 < pathCap d) (hpct : 0 < kindPercent u.kind) :
    (offer d u).1 = setPath d 0 { d.tel.ring with staged := [u] } := by
  have hring : (offerPath d 0 u).1 = setPath d 0 { d.tel.ring with staged := [u] } := by
    have hroom : 0 < pathCap d * kindPercent u.kind := Nat.mul_pos hcap hpct
    simp [offerPath, h0, pathOf, hempty, hroom]
  have heth : (offerPath (setPath d 0 { d.tel.ring with staged := [u] }) 1 u).1 = setPath d 0 { d.tel.ring with staged := [u] } :=
    congrArg Prod.fst (if_pos (by rw [Bool.not_eq_true']; exact h1))
  show (offerPath (offerPath d 0 u).1 1 u).1 = _
  rw [hring, heth]

theorem counterExport_completes {a : Nat} {s : State} (hup : s.dev.inReset = false) (hon : s.dev.fld TEL_PATH_CFG_cnt_period_s ≠ 0)
    (ha : a < 2 ^ 24) (hfirst : s.dev.reg (TEL_CNT_LISTm 0) = BitVec.ofNat 32 (2 ^ 31 + a))
    (hrest : ∀ m, 0 < m → m < 64 → (s.dev.reg (TEL_CNT_LISTm m)).getLsbD 31 = false) (h0 : pathTakes s.dev 0 3 = true)
    (h1 : pathTakes s.dev 1 3 = false) (hempty : s.dev.tel.ring.staged = []) (hcap : 0 < pathCap s.dev) :
    Completes .counterExport s [.tel] (fun _ => false) fun t =>
      t.dev.tel.ring.staged = [⟨3, fit 32 (le 4 a ++ le 4 (liveWord s.fuses s.dev .host a).toNat)⟩] := by
  have hlist := listedRegs_first (listedReg_valid ha hfirst) hrest
  have hd : counterExport s.fuses s.dev =
      setPath s.dev 0 { s.dev.tel.ring with staged := [⟨3, fit 32 (le 4 a ++ le 4 (liveWord s.fuses s.dev .host a).toNat)⟩] } := by
    refine Eq.trans ?_ (offer_ring (u := ⟨3, fit 32 (le 4 a ++ le 4 (liveWord s.fuses s.dev .host a).toNat)⟩) h0 h1 hempty hcap
      (show 0 < kindPercent 3 by decide))
    unfold listedReg at hlist
    simp only [counterExport, if_neg hon, hlist, List.map_cons, List.map_nil]
    rfl
  exact completes_of_onDevF_eq (g := counterExport) rfl hup hd ((Keeps.refl _).setPath (by simp) _ _) rfl

/-- Settles O13: the selector read and written by a command of the HCQ, and one listed register exported. -/
theorem registerCommands : Obligations.RegisterCommands := by
  unfold Obligations.RegisterCommands
  exact ⟨fun _ _ hup hq => regRead_completes hup hq, fun _ _ _ hup hq => regWrite_completes hup hq,
    fun _ _ hup hon ha hfirst hrest h0 h1 hempty hcap => counterExport_completes hup hon ha hfirst hrest h0 h1 hempty hcap⟩

end Sys2Proof.Machine
end

section
/-! PROOF. Frame rings and the management channel (17_host_interface.md R477 to R481). -/

namespace Sys2Proof.Machine

theorem length_fit (n : Nat) (l : List Byte) : (fit n l).length = n := by
  simp [fit, zeros]

/-- An access of the host's bus while its domain is up. -/
theorem completes_of_onHost {c : Instr} {s : State} {g : Dev → Dev} {d : Dev} {ps : List Part} {rs : Nat → Bool} {P : State → Prop}
    (hc : exec c s = s.onHost g) (hup : s.dev.inReset = false) (hlink : s.dev.isolated.contains 200 = false) (hg : g s.dev = d)
    (hk : Keeps ps rs s.dev d) (hP : P { s with dev := d }) : Completes c s ps rs P :=
  completes_of_onDev (g := fun d => if d.isolated.contains 200 then d else g d) hc hup
    ((if_neg (by rw [hlink]; decide)).trans hg) hk hP

theorem State.onHost_unchanged {s : State} {f : Dev → Dev} (h : f s.dev = s.dev) : s.onHost f = .next s :=
  State.onDev_unchanged (by simp [h])

/-! ### Posting -/

theorem upPosted_setPosted (d : Dev) (r k : Nat) (l : List (Nat × Nat)) :
    upPosted (setPosted d r l) k = if k = r then l else upPosted d k := by
  unfold upPosted setPosted
  simp only [Tab.getD_put]
  split <;> rfl

theorem upRingPost_completes {r tail : Nat} {descs : List (Nat × Nat)} {s : State} (hup : s.dev.inReset = false)
    (hlink : s.dev.isolated.contains 200 = false) (hr : r < 8) (hen : s.dev.bit (HIF_FRr_UP_CFG_en r) = true)
    (htail : tail < ringSize s.dev (HIF_FRr_UP_CFG_size_log2 r)) (h12 : tail < 4096)
    (hold : s.dev.fld (HIF_FRr_UP_TAIL_index r) < ringSize s.dev (HIF_FRr_UP_CFG_size_log2 r))
    (hlen : descs.length = (tail + ringSize s.dev (HIF_FRr_UP_CFG_size_log2 r) - s.dev.fld (HIF_FRr_UP_TAIL_index r)) %
      ringSize s.dev (HIF_FRr_UP_CFG_size_log2 r)) :
    Completes (.upRingPost r tail descs) s [.hif] (fun a => a == HIF_FRr_UP_TAIL r) fun t => t.dev.fld (HIF_FRr_UP_TAIL_index r) = tail ∧
      upPosted t.dev r = upPosted s.dev r ++ descs ∧ ∀ k, k ≠ r → upPosted t.dev k = upPosted s.dev k := by
  have hd : upPost s.dev r tail descs = (setPosted s.dev r (upPosted s.dev r ++ descs)).setFld (HIF_FRr_UP_TAIL_index r) tail := by
    have hgo : ¬ (8 ≤ r ∨ ringSize s.dev (HIF_FRr_UP_CFG_size_log2 r) ≤ tail ∨ !s.dev.bit (HIF_FRr_UP_CFG_en r)) := by
      simp [hen]; omega
    simp only [upPost, if_neg hgo, Nat.mod_eq_of_lt hold, ← hlen, List.take_left]
  refine completes_of_onHost (g := fun d => upPost d r tail descs) rfl hup hlink hd (((Keeps.refl _).hif (by simp) _).setFld (by simp) _)
    ⟨(Dev.fld_setFld_same _ _ _ (by simp)).trans (Nat.mod_eq_of_lt h12), ?_, fun k hk => ?_⟩
  · exact (upPosted_setPosted _ _ _ _).trans (if_pos rfl)
  · exact (upPosted_setPosted _ _ _ _).trans (if_neg hk)

theorem upRingPost_ignored {r tail : Nat} {descs : List (Nat × Nat)} {s : State}
    (h : ringSize s.dev (HIF_FRr_UP_CFG_size_log2 r) ≤ tail ∨ s.dev.bit (HIF_FRr_UP_CFG_en r) = false) :
    exec (.upRingPost r tail descs) s = .next s :=
  State.onHost_unchanged (f := fun d => upPost d r tail descs) (if_pos (.inr (h.imp_right (by simp))))

theorem dnRingPost_completes {r tail : Nat} {s : State} (hup : s.dev.inReset = false) (hlink : s.dev.isolated.contains 200 = false)
    (hr : r < 8) (hen : s.dev.bit (HIF_FRr_DN_CFG_en r) = true) (htail : tail < ringSize s.dev (HIF_FRr_DN_CFG_size_log2 r))
    (h12 : tail < 4096) :
    Completes (.dnRingPost r tail) s [] (fun a => a == HIF_FRr_DN_TAIL r) fun t => t.dev.fld (HIF_FRr_DN_TAIL_index r) = tail := by
  have hgo : ¬ (8 ≤ r ∨ ringSize s.dev (HIF_FRr_DN_CFG_size_log2 r) ≤ tail ∨ !s.dev.bit (HIF_FRr_DN_CFG_en r)) := by
    simp [hen]; omega
  exact completes_of_onHost (g := fun d => dnPost d r tail) rfl hup hlink (if_neg hgo) ((Keeps.refl _).setFld (by simp) _)
    ((Dev.fld_setFld_same _ _ _ (by simp)).trans (Nat.mod_eq_of_lt h12))

theorem dnRingPost_ignored {r tail : Nat} {s : State}
    (h : ringSize s.dev (HIF_FRr_DN_CFG_size_log2 r) ≤ tail ∨ s.dev.bit (HIF_FRr_DN_CFG_en r) = false) :
    exec (.dnRingPost r tail) s = .next s :=
  State.onHost_unchanged (f := fun d => dnPost d r tail) (if_pos (.inr (h.imp_right (by simp))))

/-! ### The end of a down descriptor -/

/-- The write of a status to the descriptor at the head. -/
def statusWrite (d : Dev) (r status : Nat) : Output :=
  .hostWrite (d.reg64 (HIF_FRr_DN_BASE_LO r) + 32 * d.fld (HIF_FRr_DN_HEAD_index r) + 0x0E) (le 1 status)

/-- The errors of a down ring counted; its head one on. -/
def dnCounted (d : Dev) (r status : Nat) : Dev := if status = 0 then d else d.inc (HIF_FRr_CNT_dn_err r)
def dnAdvanced (d : Dev) (r : Nat) : Dev := advance d (HIF_FRr_DN_HEAD_index r) (HIF_FRr_DN_CFG_size_log2 r)

theorem dnEnd_eq (d : Dev) (r status : Nat) :
    dnEnd d r status = sendLimited (dnAdvanced (dnCounted (d.emit (statusWrite d r status)) r status) r) (d.fld (HIF_FRr_DN_CFG_vector r)) :=
  rfl

theorem dnCounted_fld (d : Dev) (r status : Nat) {f : Fld} (hf : f.reg ≠ HIF_FRr_CNT r) : (dnCounted d r status).fld f = d.fld f := by
  unfold dnCounted
  split
  · rfl
  · exact Dev.fld_inc_other _ _ _ (.inl hf)

theorem dnCounted_outs (d : Dev) (r status : Nat) : (dnCounted d r status).outs = d.outs ∧ (dnCounted d r status).hif = d.hif := by
  unfold dnCounted
  split <;> exact ⟨rfl, rfl⟩

theorem dnAdvanced_fld (d : Dev) (r : Nat) {f : Fld} (hf : f.reg ≠ HIF_FRr_DN_HEAD r) : (dnAdvanced d r).fld f = d.fld f :=
  Dev.fld_setFld_other _ _ _ _ (.inl hf)

theorem dnAdvanced_head {d : Dev} {r : Nat} (hsize : d.fld (HIF_FRr_DN_CFG_size_log2 r) ≤ 12) :
    (dnAdvanced d r).fld (HIF_FRr_DN_HEAD_index r) =
      (d.fld (HIF_FRr_DN_HEAD_index r) + 1) % ringSize d (HIF_FRr_DN_CFG_size_log2 r) := by
  refine (Dev.fld_setFld_same _ _ _ (by simp)).trans (Nat.mod_eq_of_lt ?_)
  exact (Nat.mod_lt _ (Nat.two_pow_pos _)).trans_le (Nat.pow_le_pow_right (by decide) hsize)

/-- What may send the vector of a down ring at once. -/
structure VectorFree (d : Dev) (r : Nat) : Prop where
  waiting : dnWaits d r = true
  size : d.fld (HIF_FRr_DN_CFG_size_log2 r) ≤ 12
  idle : Tab.find d.hif.intervals (d.fld (HIF_FRr_DN_CFG_vector r)) = none
  unmasked : nbit (d.reg (MSIX_TABLE (d.fld (HIF_FRr_DN_CFG_vector r)) 3)).toNat 0 = false

theorem VectorFree.emit {d : Dev} {r : Nat} (h : VectorFree d r) (o : Output) : VectorFree (d.emit o) r :=
  ⟨h.waiting, h.size, h.idle, h.unmasked⟩

/-- A descriptor that ends: its status written, then the vector; the head one on. -/
theorem dnEnd_spec {d : Dev} {r : Nat} (h : VectorFree d r) (status : Nat) :
    Keeps [.hif, .outs] (fun a => a == HIF_FRr_DN_HEAD r || (status != 0 && a == HIF_FRr_CNT r)) d (dnEnd d r status) ∧
      (dnEnd d r status).fld (HIF_FRr_DN_HEAD_index r) =
        (d.fld (HIF_FRr_DN_HEAD_index r) + 1) % ringSize d (HIF_FRr_DN_CFG_size_log2 r) ∧
      (status ≠ 0 → (dnEnd d r status).fld (HIF_FRr_CNT_dn_err r) = min (d.fld (HIF_FRr_CNT_dn_err r) + 1) 255) ∧
      (dnEnd d r status).outs = .msix (d.fld (HIF_FRr_DN_CFG_vector r)) :: statusWrite d r status :: d.outs := by
  let a := dnAdvanced (dnCounted (d.emit (statusWrite d r status)) r status) r
  have hr : r < 8 := by
    have := h.waiting
    simp only [dnWaits, Bool.and_eq_true, decide_eq_true_eq] at this
    exact this.1.1
  have hv : d.fld (HIF_FRr_DN_CFG_vector r) < 32 := Dev.fld_lt _ _
  have hk : Keeps [.hif, .outs] (fun a => a == HIF_FRr_DN_HEAD r || (status != 0 && a == HIF_FRr_CNT r)) d a := by
    refine Keeps.setFld ?_ (by simp) _
    unfold dnCounted
    split
    · exact (Keeps.refl d).emit (by simp) _
    · rename_i hs
      exact ((Keeps.refl d).emit (by simp) _).inc (by simp [hs])
  obtain ⟨houts, hhif⟩ := dnCounted_outs (d.emit (statusWrite d r status)) r status
  have hmask : a.reg (MSIX_TABLE (d.fld (HIF_FRr_DN_CFG_vector r)) 3) = d.reg (MSIX_TABLE (d.fld (HIF_FRr_DN_CFG_vector r)) 3) :=
    hk.regs _ (by simp only [MSIX_TABLE, HIF_FRr_DN_HEAD, HIF_FRr_CNT, Bool.or_eq_false_iff, Bool.and_eq_false_iff, beq_eq_false_iff_ne]; omega)
  have hend : dnEnd d r status = { a.emit (.msix (d.fld (HIF_FRr_DN_CFG_vector r))) with
      hif := { a.hif with intervals := Tab.put a.hif.intervals (d.fld (HIF_FRr_DN_CFG_vector r)) false } } :=
    (dnEnd_eq d r status).trans (sendLimited_idle (by rw [show a.hif = d.hif from hhif]; exact h.idle) (by rw [hmask]; exact h.unmasked))
  have hfld : ∀ f : Fld, f.reg ≠ HIF_FRr_CNT r → (dnCounted (d.emit (statusWrite d r status)) r status).fld f = d.fld f := fun f hf =>
    dnCounted_fld _ _ _ hf
  have hhead := hfld (HIF_FRr_DN_HEAD_index r) (by simp only [HIF_FRr_DN_HEAD, HIF_FRr_CNT]; omega)
  have hlog := hfld (HIF_FRr_DN_CFG_size_log2 r) (by simp only [HIF_FRr_DN_CFG, HIF_FRr_CNT]; omega)
  rw [hend]
  refine ⟨(hk.emit (by simp) _).hif (by simp) _, ?_, fun hs => ?_, congrArg (_ :: ·) houts⟩
  · refine (dnAdvanced_head (by rw [hlog]; exact h.size)).trans ?_
    rw [hhead, ringSize, ringSize, hlog]
  · refine (dnAdvanced_fld _ r (by simp only [HIF_FRr_DN_HEAD, HIF_FRr_CNT]; omega)).trans ?_
    unfold dnCounted
    rw [if_neg hs, Dev.fld_inc_same _ _ (by simp)]
    rfl

/-! ### Down descriptors -/

theorem dnProcess_ethernet {d : Dev} {r : Nat} {desc data : List Byte} (hw : dnWaits d r = true) (hrange : dnRange d (fit 32 desc) = true)
    (hkind : field (fit 32 desc) 0x0A 1 = 2) :
    dnProcess d r desc data = dnEnd (d.emit (.ethernet (field (fit 32 desc) 0x0D 1) (fit (field (fit 32 desc) 8 2) data))) r 0 := by
  simp [dnProcess, hw, hrange, hkind]

theorem dnEthernet_completes {r : Nat} {desc data : List Byte} {s : State} (hup : s.dev.inReset = false)
    (hlink : s.dev.isolated.contains 200 = false) (hrange : dnRange s.dev (fit 32 desc) = true) (hkind : field (fit 32 desc) 0x0A 1 = 2)
    (hfree : VectorFree s.dev r) :
    Completes (.dnDescriptorProcess r desc data) s [.hif, .outs] (fun a => a == HIF_FRr_DN_HEAD r) fun t =>
      t.dev.fld (HIF_FRr_DN_HEAD_index r) = (s.dev.fld (HIF_FRr_DN_HEAD_index r) + 1) % ringSize s.dev (HIF_FRr_DN_CFG_size_log2 r) ∧
      t.dev.outs = .msix (s.dev.fld (HIF_FRr_DN_CFG_vector r)) ::
        .hostWrite (s.dev.reg64 (HIF_FRr_DN_BASE_LO r) + 32 * s.dev.fld (HIF_FRr_DN_HEAD_index r) + 0x0E) [0] ::
        .ethernet (field (fit 32 desc) 0x0D 1) (fit (field (fit 32 desc) 8 2) data) :: s.dev.outs := by
  obtain ⟨hk, hhead, -, houts⟩ :=
    dnEnd_spec (hfree.emit (.ethernet (field (fit 32 desc) 0x0D 1) (fit (field (fit 32 desc) 8 2) data))) 0
  exact completes_of_onHost (g := fun d => dnProcess d r desc data) rfl hup hlink (dnProcess_ethernet hfree.waiting hrange hkind)
    (((Keeps.refl _).emit (by simp) _).trans (hk.mono (List.Subset.refl _) (by simp))) ⟨hhead, houts⟩

theorem dnReadTimeout_completes {r : Nat} {s : State} (hup : s.dev.inReset = false) (hfree : VectorFree s.dev r) :
    Completes (.dnReadTimeout r) s [.hif, .outs] (fun a => a == HIF_FRr_DN_HEAD r || a == HIF_FRr_CNT r) fun t =>
      t.dev.fld (HIF_FRr_DN_HEAD_index r) = (s.dev.fld (HIF_FRr_DN_HEAD_index r) + 1) % ringSize s.dev (HIF_FRr_DN_CFG_size_log2 r) ∧
      t.dev.fld (HIF_FRr_CNT_dn_err r) = min (s.dev.fld (HIF_FRr_CNT_dn_err r) + 1) 255 ∧
      t.dev.outs = .msix (s.dev.fld (HIF_FRr_DN_CFG_vector r)) ::
        .hostWrite (s.dev.reg64 (HIF_FRr_DN_BASE_LO r) + 32 * s.dev.fld (HIF_FRr_DN_HEAD_index r) + 0x0E) [2] :: s.dev.outs := by
  obtain ⟨hk, hhead, hcnt, houts⟩ := dnEnd_spec hfree 2
  exact completes_of_onDev (g := fun d => dnTimeout d r) rfl hup (if_pos hfree.waiting) (hk.mono (List.Subset.refl _) (by simp))
    ⟨hhead, hcnt (by decide), houts⟩

theorem dnOutOfRange_completes {r : Nat} {desc data : List Byte} {s : State} (hup : s.dev.inReset = false)
    (hlink : s.dev.isolated.contains 200 = false) (hrange : dnRange s.dev (fit 32 desc) = false) (hfree : VectorFree s.dev r) :
    Completes (.dnDescriptorProcess r desc data) s [.hif, .outs] (fun a => a == HIF_FRr_DN_HEAD r || a == HIF_FRr_CNT r) fun t =>
      t.dev.fld (HIF_FRr_DN_HEAD_index r) = (s.dev.fld (HIF_FRr_DN_HEAD_index r) + 1) % ringSize s.dev (HIF_FRr_DN_CFG_size_log2 r) ∧
      t.dev.fld (HIF_FRr_CNT_dn_err r) = min (s.dev.fld (HIF_FRr_CNT_dn_err r) + 1) 255 ∧
      t.dev.outs = .msix (s.dev.fld (HIF_FRr_DN_CFG_vector r)) ::
        .hostWrite (s.dev.reg64 (HIF_FRr_DN_BASE_LO r) + 32 * s.dev.fld (HIF_FRr_DN_HEAD_index r) + 0x0E) [1] :: s.dev.outs := by
  have hd : dnProcess s.dev r desc data = dnEnd s.dev r 1 := by simp [dnProcess, hfree.waiting, hrange]
  obtain ⟨hk, hhead, hcnt, houts⟩ := dnEnd_spec hfree 1
  exact completes_of_onHost (g := fun d => dnProcess d r desc data) rfl hup hlink hd (hk.mono (List.Subset.refl _) (by simp))
    ⟨hhead, hcnt (by decide), houts⟩

theorem dnNode_exec {r h : Nat} {desc data : List Byte} {d1 : Dev} {s : State} (hup : s.dev.inReset = false)
    (hlink : s.dev.isolated.contains 200 = false) (hw : dnWaits s.dev r = true) (hrange : dnRange s.dev (fit 32 desc) = true)
    (hkind : field (fit 32 desc) 0x0A 1 = 0) (hbuf : bufPut s.dev (fit (field (fit 32 desc) 8 2) data) = some (h, d1)) :
    exec (.dnDescriptorProcess r desc data) s =
      .next { s with dev := dnEnd (downlinkAt d1 (field (fit 32 desc) 0x0B 1) h (field (fit 32 desc) 0x0C 1 % 8) (field (fit 32 desc) 0x0C 1 / 8) [] []) r 0 } := by
  refine (State.onHost_up s (fun d => dnProcess d r desc data) hup hlink).trans ?_
  simp [dnProcess, hw, hrange, hkind, hbuf]

theorem dnUplink_exec {r h : Nat} {desc data : List Byte} {d1 : Dev} {s : State} (hup : s.dev.inReset = false)
    (hlink : s.dev.isolated.contains 200 = false) (hw : dnWaits s.dev r = true) (hrange : dnRange s.dev (fit 32 desc) = true)
    (hkind : field (fit 32 desc) 0x0A 1 = 1) (hbuf : bufPut s.dev (fit (field (fit 32 desc) 8 2) data) = some (h, d1)) :
    exec (.dnDescriptorProcess r desc data) s = .next { s with dev := dnEnd (enqueue d1 ⟨true, field (fit 32 desc) 0x0C 1 % 8,
      field (fit 32 desc) 0x0C 1 / 8 == clYELLOW, false, false, 0xFFFFF, h, upOctets d1 (field (fit 32 desc) 0x0B 1) (field (fit 32 desc) 8 2), field (fit 32 desc) 0x0D 1, 0, 0, 0,
      field (fit 32 desc) 0x0B 1, 0, d1.ns, none, 0, none, false, [], 0⟩).1 r 0 } := by
  refine (State.onHost_up s (fun d => dnProcess d r desc data) hup hlink).trans ?_
  simp [dnProcess, hw, hrange, hkind, hbuf, length_fit]

theorem dnProcess_noBuffer {r : Nat} {desc data : List Byte} {s : State} (hrange : dnRange s.dev (fit 32 desc) = true)
    (hkind : field (fit 32 desc) 0x0A 1 < 2) (hbuf : bufPut s.dev (fit (field (fit 32 desc) 8 2) data) = none) :
    exec (.dnDescriptorProcess r desc data) s = .next s := by
  have hne : ¬ field (fit 32 desc) 0x0A 1 = 2 := by omega
  exact State.onHost_unchanged (f := fun d => dnProcess d r desc data) (by simp [dnProcess, hrange, hne, hbuf])

theorem dnProcess_idle {r : Nat} {s : State} (hw : dnWaits s.dev r = false) :
    exec (.dnReadTimeout r) s = .next s ∧ ∀ desc data, exec (.dnDescriptorProcess r desc data) s = .next s :=
  ⟨State.onDev_unchanged (f := fun d => dnTimeout d r) (by simp [dnTimeout, hw]),
    fun desc data => State.onHost_unchanged (f := fun d => dnProcess d r desc data) (by simp [dnProcess, hw])⟩

/-! ### The management channel -/

theorem mqSubmit_completes {h : Nat} {s : State} (hup : s.dev.inReset = false)
    (hroom : s.dev.hif.mqWaiting.length + s.dev.hif.mqRunning.length < 256) :
    Completes (.mqSubmit h) s [.hif] (fun _ => false) fun t =>
      t.dev.hif = { s.dev.hif with mqWaiting := s.dev.hif.mqWaiting ++ [⟨fit 64 (bufGet s.dev h), 0, some h⟩] } :=
  completes_of_onDev (g := fun d => mqSubmit d h) rfl hup (if_neg (by omega)) ((Keeps.refl _).hif (by simp) _) rfl

theorem mqSubmit_refused_completes {h : Nat} {s : State} (hup : s.dev.inReset = false)
    (hfull : 256 ≤ s.dev.hif.mqWaiting.length + s.dev.hif.mqRunning.length) :
    Completes (.mqSubmit h) s [] (fun a => a == HIF_MGMT_CNT) fun t =>
      t.dev.fld HIF_MGMT_CNT_mq_refused = min (s.dev.fld HIF_MGMT_CNT_mq_refused + 1) 65535 ∧
        t.dev.fld HIF_MGMT_CNT_rx_dropped = s.dev.fld HIF_MGMT_CNT_rx_dropped :=
  completes_of_onDev (g := fun d => mqSubmit d h) rfl hup (if_pos hfull) ((Keeps.refl _).inc (by simp))
    ⟨Dev.fld_inc_same _ _ (by decide), Dev.fld_inc_other _ _ _ (by decide)⟩

/-- The frame that HIF_MGMT_TX sends of a buffer. -/
def chanFrame (d : Dev) (h : Nat) : List Byte := fit (d.fld HIF_MGMT_TX_CTL_length) (bufGet d h)

theorem ptpEgress_plain {d : Dev} {port : Nat} {f : List Byte} (h : (ptpOffset f).all (fun o => !ptpStamped f o) = true) :
    ptpEgress d port f = (f, [], d) := by
  unfold ptpEgress
  cases ho : ptpOffset f with
  | none => rfl
  | some o => simp [show ptpStamped f o = false by simpa [ho] using h]

/-- A stamped frame leaves with a record of 16 bytes, and is counted. -/
theorem ptpEgress_stamped {d : Dev} {port o : Nat} {f : List Byte} (ho : ptpOffset f = some o) (hs : ptpStamped f o = true) :
    (ptpEgress d port f).2.1.isEmpty = false ∧ (ptpEgress d port f).2.2 = d.inc TIM_CNT_PTP_tx_ins := by
  simp [ptpEgress, ho, hs, stampRec, le]

theorem mgmtTx_completes {h : Nat} {s : State} (hup : s.dev.inReset = false)
    (hon : ethOff s.dev (s.dev.fld HIF_MGMT_TX_CTL_port) = false)
    (hplain : (ptpOffset (chanFrame s.dev h)).all (fun o => !ptpStamped (chanFrame s.dev h) o) = true) :
    Completes (.mgmtTx h) s [.hif, .outs] (fun _ => false) fun t => t.dev.hif = { s.dev.hif with mgmtTx := s.dev.hif.mgmtTx ++ [h] } ∧
      t.dev.outs = .ethernet (s.dev.fld HIF_MGMT_TX_CTL_port) (chanFrame s.dev h) :: s.dev.outs := by
  have hd : mgmtTx s.dev h = { s.dev.emit (.ethernet (s.dev.fld HIF_MGMT_TX_CTL_port) (chanFrame s.dev h)) with
      hif := { s.dev.hif with mgmtTx := s.dev.hif.mgmtTx ++ [h] } } := by
    have hegress := ptpEgress_plain (d := s.dev) (port := s.dev.fld HIF_MGMT_TX_CTL_port) hplain
    unfold chanFrame at hegress
    simp only [mgmtTx, hegress, hon]
    rfl
  exact completes_of_onDev (g := fun d => mgmtTx d h) rfl hup hd (((Keeps.refl _).emit (by simp) _).hif (by simp) _) ⟨rfl, rfl⟩

theorem mgmtTx_stamped_completes {h o : Nat} {s : State} (hup : s.dev.inReset = false)
    (hon : ethOff s.dev (s.dev.fld HIF_MGMT_TX_CTL_port) = false) (ho : ptpOffset (chanFrame s.dev h) = some o)
    (hs : ptpStamped (chanFrame s.dev h) o = true) :
    Completes (.mgmtTx h) s [.hif, .outs, .pbm] (fun a => a == TIM_CNT_PTP) fun t =>
      bufGet t.dev h = (ptpEgress s.dev (s.dev.fld HIF_MGMT_TX_CTL_port) (chanFrame s.dev h)).2.1 ++
        (ptpEgress s.dev (s.dev.fld HIF_MGMT_TX_CTL_port) (chanFrame s.dev h)).1 ∧
      t.dev.outs = .ethernet (s.dev.fld HIF_MGMT_TX_CTL_port)
        (ptpEgress s.dev (s.dev.fld HIF_MGMT_TX_CTL_port) (chanFrame s.dev h)).1 :: s.dev.outs ∧
      t.dev.fld TIM_CNT_PTP_tx_ins = min (s.dev.fld TIM_CNT_PTP_tx_ins + 1) TIM_CNT_PTP_tx_ins.max := by
  obtain ⟨hrec, hdev⟩ := ptpEgress_stamped (d := s.dev) (port := s.dev.fld HIF_MGMT_TX_CTL_port) ho hs
  unfold chanFrame at *
  have hd : mgmtTx s.dev h = { (bufSet (s.dev.inc TIM_CNT_PTP_tx_ins) h
      ((ptpEgress s.dev (s.dev.fld HIF_MGMT_TX_CTL_port) (fit (s.dev.fld HIF_MGMT_TX_CTL_length) (bufGet s.dev h))).2.1 ++
        (ptpEgress s.dev (s.dev.fld HIF_MGMT_TX_CTL_port) (fit (s.dev.fld HIF_MGMT_TX_CTL_length) (bufGet s.dev h))).1)).emit
      (.ethernet (s.dev.fld HIF_MGMT_TX_CTL_port)
        (ptpEgress s.dev (s.dev.fld HIF_MGMT_TX_CTL_port) (fit (s.dev.fld HIF_MGMT_TX_CTL_length) (bufGet s.dev h))).1) with
      hif := { s.dev.hif with mgmtTx := s.dev.hif.mgmtTx ++ [h] } } := by
    simp only [mgmtTx, hon, hrec, hdev]
    rfl
  refine completes_of_onDev (g := fun d => mgmtTx d h) rfl hup hd
    (((((Keeps.refl _).inc (by simp)).pbm (by simp) _).emit (by simp) _).hif (by simp) _) ⟨?_, rfl, Dev.fld_inc_same _ _ (by decide)⟩
  exact (Tab.getD_put _ _ _ _ _).trans (if_pos rfl)

theorem mgmtTx_off {h : Nat} {s : State} (hoff : ethOff s.dev (s.dev.fld HIF_MGMT_TX_CTL_port) = true) :
    exec (.mgmtTx h) s = .next s :=
  State.onDev_unchanged (f := fun d => mgmtTx d h) (if_pos hoff)

theorem mgmtTxDone_completes {h : Nat} {s : State} (hup : s.dev.inReset = false) (hsent : s.dev.hif.mgmtTx.contains h = true) :
    Completes (.mgmtTxDone h) s [.hif, .pbm] (fun _ => false) fun t => Tab.find t.dev.pbm.bufs h = none ∧
      t.dev.hif = { s.dev.hif with mgmtTx := s.dev.hif.mgmtTx.erase h } ∧ ∀ k, k ≠ h → bufGet t.dev k = bufGet s.dev k :=
  completes_of_onDev (g := fun d => mgmtTxDone d h) rfl hup (if_pos hsent) (((Keeps.refl _).hif (by simp) _).pbm (by simp) _)
    ⟨(Tab.find_del _ _ _).trans (if_pos rfl), rfl, fun _ hk => (Tab.getD_del _ _ _ _).trans (if_neg hk)⟩

/-- Settles O60: rings take what is posted, a down descriptor goes its way and ends, the channel queues commands and sends frames. -/
theorem hostRingsAndChannel : Obligations.HostRingsAndChannel := by
  unfold Obligations.HostRingsAndChannel
  exact ⟨fun _ _ _ _ hup hlink hr hen htail h12 hold hlen => upRingPost_completes hup hlink hr hen htail h12 hold hlen,
    fun _ _ _ _ _ _ h => upRingPost_ignored h,
    fun _ _ _ hup hlink hr hen htail h12 => dnRingPost_completes hup hlink hr hen htail h12,
    fun _ _ _ _ _ h => dnRingPost_ignored h,
    fun _ _ _ _ hup hlink hw hrange hkind hsize hidle hopen => dnEthernet_completes hup hlink hrange hkind ⟨hw, hsize, hidle, hopen⟩,
    fun _ _ hup hw hsize hidle hopen => dnReadTimeout_completes hup ⟨hw, hsize, hidle, hopen⟩,
    fun _ _ _ _ hup hlink hw hsize hrange hidle hopen => dnOutOfRange_completes hup hlink hrange ⟨hw, hsize, hidle, hopen⟩,
    fun _ _ _ _ _ _ hup hlink hw hrange hkind hbuf => dnNode_exec hup hlink hw hrange hkind hbuf,
    fun _ _ _ _ _ _ hup hlink hw hrange hkind hbuf => dnUplink_exec hup hlink hw hrange hkind hbuf,
    fun _ _ _ _ _ _ hrange hkind hbuf => dnProcess_noBuffer hrange hkind hbuf,
    fun _ _ _ _ hw => dnProcess_idle hw,
    fun _ _ hup hroom => mqSubmit_completes hup hroom, fun _ _ hup hfull => mqSubmit_refused_completes hup hfull,
    fun _ _ hup hon hplain => mgmtTx_completes hup hon hplain, fun _ _ _ hup hon ho hs => mgmtTx_stamped_completes hup hon ho hs,
    fun _ _ _ hoff => mgmtTx_off hoff, fun _ _ hup hsent => mgmtTxDone_completes hup hsent⟩

end Sys2Proof.Machine
end

section
/-! SUPPORT. The gate of a security command and the result it leaves (12_keys_and_frame_security.md R368, R369, R372). -/

namespace Sys2Proof.Machine

/-! ### Results -/

theorem secMaster_master {m : Sys2Proof.Master} {k : Nat} (h : secMaster (.master m) = some k) (d : Dev) (r : Nat) (out : List Byte) :
    secEnd d (.master m) r out =
      { d with vault := { d.vault with sets := Tab.put d.vault.sets (setKey k) { d.cmdSet (setKey k) with out := out, result := r } } } := by
  simp only [secEnd, h]

theorem told_master {m : Sys2Proof.Master} {k : Nat} (h : secMaster (.master m) = some k) (d : Dev) (r : Nat) (out : List Byte) :
    told d (.master m) r out = ((d.cmdSet (setKey k)).result == r && (d.cmdSet (setKey k)).out == out) := by
  simp only [told, h]

/-- The result and the output reach who asked. -/
theorem told_secEnd {w : Sys2Proof.Who} {m : Nat} (h : secMaster w = some m) (d : Dev) (r : Nat) (out : List Byte) :
    told (secEnd d w r out) w r out = true := by
  cases w with
  | cmd j => exact told_toCmd d j r out
  | master x =>
    rw [secMaster_master h, told_master h]
    simp [Dev.cmdSet]

theorem Keeps.secEnd {ps : List Part} {rs : Nat → Bool} {d e : Dev} (h : Keeps ps rs d e) (hv : Part.vault ∈ ps) (hh : Part.hif ∈ ps)
    (w : Sys2Proof.Who) (r : Nat) (out : List Byte) : Keeps ps rs d (secEnd e w r out) := by
  unfold Machine.secEnd
  split
  · exact h.toCmd hh _ _ _
  · exact h.vault hv _
  · exact h

/-- A master's result leaves the host interface alone. -/
theorem Keeps.secEnd_master {ps : List Part} {rs : Nat → Bool} {d e : Dev} (h : Keeps ps rs d e) (hv : Part.vault ∈ ps)
    (m : Sys2Proof.Master) (r : Nat) (out : List Byte) : Keeps ps rs d (Machine.secEnd e (.master m) r out) := by
  cases hm : secMaster (.master m) with
  | none => simpa only [Machine.secEnd, hm] using h
  | some k => exact secMaster_master hm e r out ▸ h.vault hv _

theorem secEnd_vault (d : Dev) (w : Sys2Proof.Who) (r : Nat) (out : List Byte) :
    (secEnd d w r out).vault = { d.vault with sets := (secEnd d w r out).vault.sets } := by
  unfold secEnd
  split <;> rfl

/-- Register sets changed twice. -/
theorem vault_sets_trans {d e f : Dev} (h : e.vault = { d.vault with sets := e.vault.sets })
    (g : f.vault = { e.vault with sets := f.vault.sets }) : f.vault = { d.vault with sets := f.vault.sets } := g.trans (by rw [h])

/-- What a security command's end leaves of the registers. -/
theorem secEnd_regs (d : Dev) (w : Sys2Proof.Who) (r : Nat) (out : List Byte) : (secEnd d w r out).regs = d.regs := by
  unfold secEnd
  split <;> rfl

/-! ### The gate -/

/-- The checks of R372 before a tamper event counts: the result a command ends with, `none` when it passes. -/
def secGate (f : Fuses) (d : Dev) (code : Nat) (masters : List Nat) (m : Nat) : Option Nat :=
  if !masters.contains m then some scNOT_PERMITTED
  else if f.lc = 0 ∧ code ≠ 0x04 ∧ code ≠ 0x0E then some scNOT_PERMITTED
  else if d.stage < 2 ∧ code ≠ 0x01 ∧ code ≠ 0x02 ∧ code ≠ 0x10 then some scNOT_READY
  else if d.vault.hold ∧ code ≠ 0x01 then some scTAMPER_HOLD
  else none

section
variable {w : Sys2Proof.Who} {code m : Nat} {masters : List Nat} {arg : List Byte} {used : Nat} {tam : Option Nat} {body : SecBody}
  {f : Fuses} {d : Dev}

theorem secRun_closed (hm : secMaster w = some m) (h : debugClosed f w = true) :
    secRun w code masters arg used tam body f d = (f, raise d 177 0 0) := by
  simp only [secRun, hm, h, if_true]

theorem secRun_refused (hm : secMaster w = some m) (h : debugClosed f w = false) {r : Nat} (hr : secGate f d code masters m = some r) :
    secRun w code masters arg used tam body f d = (f, secEnd d w r []) := by
  unfold secGate at hr
  simp only [secRun, hm, h, Bool.false_eq_true, if_false]
  by_cases h1 : (!masters.contains m) = true
  · rw [if_pos h1] at hr ⊢
    cases hr
    rfl
  by_cases h2 : f.lc = 0 ∧ code ≠ 0x04 ∧ code ≠ 0x0E
  · rw [if_neg h1, if_pos h2] at hr ⊢
    cases hr
    rfl
  by_cases h3 : d.stage < 2 ∧ code ≠ 0x01 ∧ code ≠ 0x02 ∧ code ≠ 0x10
  · rw [if_neg h1, if_neg h2, if_pos h3] at hr ⊢
    cases hr
    rfl
  by_cases h4 : d.vault.hold ∧ code ≠ 0x01
  · rw [if_neg h1, if_neg h2, if_neg h3, if_pos h4] at hr ⊢
    cases hr
    rfl
  · rw [if_neg h1, if_neg h2, if_neg h3, if_neg h4] at hr
    cases hr

theorem secGate_passed (h : secGate f d code masters m = none) : (!masters.contains m) = false ∧ ¬ (f.lc = 0 ∧ code ≠ 0x04 ∧ code ≠ 0x0E) ∧
    ¬ (d.stage < 2 ∧ code ≠ 0x01 ∧ code ≠ 0x02 ∧ code ≠ 0x10) ∧ ¬ (d.vault.hold ∧ code ≠ 0x01) := by
  unfold secGate at h
  split at h
  · cases h
  · rename_i h1
    split at h
    · cases h
    · rename_i h2
      split at h
      · cases h
      · rename_i h3
        split at h
        · cases h
        · rename_i h4
          exact ⟨by simpa using h1, h2, h3, h4⟩

/-- A command of a master that is answered, undisturbed and with reserved bytes 0: its body runs, and its result goes to who asked. -/
theorem secRun_body (hm : secMaster w = some m) (h : debugClosed f w = false) (hgate : secGate f d code masters m = none)
    (hcalm : tam.filter (tamperEnabled f) = none) (harg : argsOk arg used = true) :
    secRun w code masters arg used tam body f d =
      ((body f d).2.2.1, secEnd (body f d).2.2.2 w (body f d).1 (body f d).2.1) := by
  obtain ⟨h1, h2, h3, h4⟩ := secGate_passed hgate
  simp only [secRun, hm, h, h1, if_neg h2, if_neg h3, if_neg h4, hcalm, harg, Bool.false_eq_true, if_false, Bool.not_true]

/-- The command as an enabled source ends it: its set wiped, a record of the journal. -/
def abortedDev (w : Sys2Proof.Who) (code : Nat) (d : Dev) : Dev :=
  let d1 := secEnd d w scABORTED_TAMPER []
  let d2 := { d1 with vault := { d1.vault with sets := d1.vault.sets.map fun e => (e.1, { e.2 with arg := [], out := [] }) } }
  if isMaster w then
    jNote d2 (if code = 1 then 0x06 else 0x02) (whoOrigin w) jABORTED_TAMPER scABORTED_TAMPER (if code = 1 then d.vault.envCtr else code) 1 0 0
  else d2

theorem secRun_aborted (hm : secMaster w = some m) (h : debugClosed f w = false) (hgate : secGate f d code masters m = none) {src : Nat}
    (htam : tam.filter (tamperEnabled f) = some src) :
    secRun w code masters arg used tam body f d = tamperRespond f (abortedDev w code d) src (tamperState d) 3 := by
  obtain ⟨h1, h2, h3, h4⟩ := secGate_passed hgate
  simp only [secRun, hm, h, h1, if_neg h2, if_neg h3, if_neg h4, htam, Bool.false_eq_true, if_false]
  rfl

end

/-- A security command in service passes the gate for a master listed. -/
theorem secGate_serving {s : State} {code m : Nat} {masters : List Nat} (hs : Serving s) (hm : m ∈ masters) :
    secGate s.fuses s.dev code masters m = none := by
  obtain ⟨-, hlc, hstage, hhold⟩ := hs
  have hstage' : ¬ s.dev.stage < 2 := by omega
  simp [secGate, hm, hlc, hstage', hhold]

theorem powerCut_same (f : Fuses) (d : Dev) : powerCut f (f, d) = (f, d) := if_neg (lt_irrefl _)

/-- A security command that leaves the fuses. -/
theorem completes_of_onFuses_cut {c : Instr} {s : State} {g : Fuses → Dev → Fuses × Dev} {d : Dev} {ps : List Part} {rs : Nat → Bool}
    {P : State → Prop} (hc : exec c s = s.onFuses fun f d => powerCut f (g f d)) (hup : s.dev.inReset = false)
    (hg : g s.fuses s.dev = (s.fuses, d)) (hk : Keeps ps rs s.dev d) (hP : P { s with dev := d }) : Completes c s ps rs P :=
  completes_of_onFuses_eq hc hup (by rw [hg, powerCut_same]) hk hP

end Sys2Proof.Machine
end

section
/-! PROOF. Who may ask the security block, and when (12_keys_and_frame_security.md R331, R332, R367 to R372). -/

namespace Sys2Proof.Machine

/-- Each command of Table KEY-13 with an argument block goes through the gate under its code and its masters. -/
theorem secCommands_run {w : Sys2Proof.Who} {arg : List Byte} {tam : Option Nat} {c : Instr} {k : Nat} {ms : List Nat}
    (h : (c, k, ms) ∈ secCommands w arg tam) : ∃ used body, ∀ s : State, s.dev.inReset = false → ∀ d,
      secRun w k ms (fit 64 arg) used tam body s.fuses s.dev = (s.fuses, d) → exec c s = .next { s with dev := d } := by
  have huncut : ∀ {c : Instr} {used : Nat} {body : SecBody},
      (∀ s : State, exec c s = s.onFuses (secRun w k ms (fit 64 arg) used tam body)) → ∃ used body, ∀ s : State, s.dev.inReset = false →
        ∀ d, secRun w k ms (fit 64 arg) used tam body s.fuses s.dev = (s.fuses, d) → exec c s = .next { s with dev := d } :=
    fun {c used body} hc => ⟨used, body, fun s hup d hd => by rw [hc, s.onFuses_up _ hup, hd]⟩
  simp only [secCommands, List.mem_cons, Prod.mk.injEq, List.not_mem_nil, or_false] at h
  rcases h with h | h | h | h | h | h | h | h | h | h | h | h | h | h | h <;> obtain ⟨rfl, rfl, rfl⟩ := h
  case inr.inr.inr.inr.inr.inr.inr.inr.inr.inr.inr.inr.inr.inr =>
    refine ⟨49, provisionBody (fit 64 arg) false, fun s hup d hd => ?_⟩
    refine (s.onFuses_up (fun f d => powerCut f (secProvision w (fit 64 arg) tam false f d)) hup).trans ?_
    rw [show secProvision w (fit 64 arg) tam false s.fuses s.dev = (s.fuses, d) from hd, powerCut_same]
  all_goals exact huncut fun _ => rfl

theorem secRefused_completes {c : Instr} {k : Nat} {ms : List Nat} {w : Sys2Proof.Who} {arg : List Byte} {tam : Option Nat} {m r : Nat}
    {s : State} (hup : s.dev.inReset = false) (hc : (c, k, ms) ∈ secCommands w arg tam) (hm : secMaster w = some m)
    (hdbg : debugClosed s.fuses w = false) (hr : secGate s.fuses s.dev k ms m = some r) :
    Completes c s [.vault, .hif] (fun _ => false) fun t => told t.dev w r [] = true ∧ t.dev.vault = { s.dev.vault with sets := t.dev.vault.sets } := by
  obtain ⟨used, body, hrun⟩ := secCommands_run hc
  have hk : Keeps [.vault, .hif] (fun _ => false) s.dev (secEnd s.dev w r []) := (Keeps.refl _).secEnd (by simp) (by simp) _ _ _
  exact ⟨_, hrun s hup _ (secRun_refused hm hdbg hr), ⟨rfl, rfl, hk.parts, hk.regs⟩, told_secEnd hm _ _ _, secEnd_vault _ _ _ _⟩

theorem secCommands_code {w : Sys2Proof.Who} {arg : List Byte} {tam : Option Nat} {c : Instr} {k : Nat} {ms : List Nat}
    (h : (c, k, ms) ∈ secCommands w arg tam) : k ≠ 0x01 := by
  rintro rfl
  simp [secCommands] at h

theorem debugClosed_blank {f : Fuses} (h : f.lc = 0) (w : Sys2Proof.Who) : debugClosed f w = false := by
  simp [debugClosed, debugOpen, h]

/-! ### A tamper event during a command -/

/-- The register sets, each changed by a function. -/
def mapSets (d : Dev) (g : CmdSet → CmdSet) : Dev :=
  { d with vault := { d.vault with sets := d.vault.sets.map fun e => (e.1, g e.2) } }

/-- Where the outputs are cleared, results stay. -/
theorem cmdSet_mapSets (d : Dev) {g : CmdSet → CmdSet} (hres : ∀ x, (g x).result = x.result) (hout : ∀ x, (g x).out = []) (k : Nat) :
    ((mapSets d g).cmdSet k).result = (d.cmdSet k).result ∧ ((mapSets d g).cmdSet k).out = [] := by
  have hfind : Tab.find (mapSets d g).vault.sets k = (Tab.find d.vault.sets k).map g := Tab.find_mapVals _ _ _
  simp only [Dev.cmdSet, Tab.getD, hfind]
  cases Tab.find d.vault.sets k with
  | none => exact ⟨rfl, rfl⟩
  | some x => exact ⟨hres x, hout x⟩

/-- A result without output stands when outputs are cleared. -/
theorem told_cleared {d e : Dev} {w : Sys2Proof.Who} {r : Nat} (h : told d w r [] = true) (hhif : e.hif = d.hif)
    (hsets : ∀ k, (e.cmdSet k).result = (d.cmdSet k).result ∧ (e.cmdSet k).out = []) : told e w r [] = true := by
  cases w with
  | cmd j => simpa only [told, hhif] using h
  | master m =>
    cases hm : secMaster (.master m) with
    | none => simp only [told, hm] at h; cases h
    | some k =>
      obtain ⟨hres, hout⟩ := hsets (setKey k)
      rw [told_master hm, Bool.and_eq_true, beq_iff_eq] at h
      rw [told_master hm, hres, hout, h.1, beq_self_eq_true]
      rfl

/-- Of a source that only logs, in service: the status, the log, the outputs cleared, the event. -/
def tamperSeenDev (d : Dev) (src logged : Nat) : Dev :=
  clearOuts (tamperLog (d.setReg SEC_TAMPER_STATUS (d.reg SEC_TAMPER_STATUS ||| BitVec.ofNat 32 (2 ^ src))) src logged 0)

theorem tamperRespond_logs {f : Fuses} {src : Nat} (hlog : nbit f.tamper src = false) (d : Dev) (logged : Nat) :
    tamperRespond f d src 1 logged = (f, raise (tamperSeenDev d src logged) 179 src 0) := by
  simp [tamperRespond, hlog, tamperSeenDev]

theorem tamperState_serving {d : Dev} (hup : d.inReset = false) (hstage : 2 ≤ d.stage) : tamperState d = 1 := by
  have h : ¬ d.stage < 2 := by omega
  simp [tamperState, hup, h]

theorem abortedDev_keeps (w : Sys2Proof.Who) (code : Nat) (d : Dev) :
    Keeps ([.vault, .hif] ++ noteParts) (fun a => a == SEC_TAMPER_STATUS || noteRegs a) d (abortedDev w code d) := by
  have hend : Keeps ([.vault, .hif] ++ noteParts) (fun a => a == SEC_TAMPER_STATUS || noteRegs a) d (secEnd d w scABORTED_TAMPER []) :=
    (Keeps.refl d).secEnd (by simp) (by simp) _ _ _
  unfold abortedDev
  exact Keeps.ite ((hend.vault (by simp) _).noted (noted_jNote _ _ _ _ _ _ _ _ _) (by simp) (by simp +contextual)) (hend.vault (by simp) _)

theorem jNoted_sets {d e : Dev} (h : e.vault = d.vault) : e.vault = { d.vault with sets := e.vault.sets } := by rw [h]

theorem abortedDev_vault (w : Sys2Proof.Who) (code : Nat) (d : Dev) :
    (abortedDev w code d).vault = { d.vault with sets := (abortedDev w code d).vault.sets } := by
  refine vault_sets_trans (secEnd_vault d w scABORTED_TAMPER []) ?_
  unfold abortedDev
  simp only
  split
  · exact vault_sets_trans (e := mapSets (secEnd d w scABORTED_TAMPER []) fun x => { x with arg := [], out := [] }) rfl
      (jNoted_sets (jNote_vault _ _ _ _ _ _ _ _ _))
  · rfl

theorem abortedDev_told {w : Sys2Proof.Who} {m : Nat} (hm : secMaster w = some m) (code : Nat) (d : Dev) :
    told (abortedDev w code d) w scABORTED_TAMPER [] = true := by
  have hsets := cmdSet_mapSets (secEnd d w scABORTED_TAMPER []) (g := fun x => { x with arg := [], out := [] }) (fun _ => rfl) fun _ => rfl
  refine told_cleared (told_secEnd hm d scABORTED_TAMPER []) ?_ fun k => ?_
  · unfold abortedDev
    simp only
    split
    · rw [jNote_hif]
    · rfl
  · unfold abortedDev
    simp only
    split
    · simp only [Dev.cmdSet, jNote_vault]
      exact hsets k
    · exact hsets k

theorem tamperSeenDev_keeps {ps : List Part} {rs : Nat → Bool} {d e : Dev} (h : Keeps ps rs d e) (hv : Part.vault ∈ ps)
    (hr : rs SEC_TAMPER_STATUS = true) (src logged : Nat) : Keeps ps rs d (tamperSeenDev e src logged) :=
  ((h.setReg hr _).vault hv _).vault hv _

theorem secAborted_completes {c : Instr} {k : Nat} {ms : List Nat} {w : Sys2Proof.Who} {arg : List Byte} {src m : Nat} {s : State}
    (hs : Serving s) (hc : (c, k, ms) ∈ secCommands w arg (some src)) (hm : secMaster w = some m) (hlisted : m ∈ ms)
    (hdbg : debugClosed s.fuses w = false) (hen : tamperEnabled s.fuses src = true) (hlog : nbit s.fuses.tamper src = false) :
    Completes c s ([.vault, .hif] ++ noteParts) (fun a => a == SEC_TAMPER_STATUS || noteRegs a) fun t =>
      told t.dev w scABORTED_TAMPER [] = true ∧
      t.dev.vault = { s.dev.vault with sets := t.dev.vault.sets, tlog := t.dev.vault.tlog, tseq := t.dev.vault.tseq } := by
  obtain ⟨used, body, hrun⟩ := secCommands_run hc
  have hx := hrun s hs.1 _ ((secRun_aborted hm hdbg (secGate_serving hs hlisted) (show (some src).filter _ = some src by simp [Option.filter, hen])).trans
    (by rw [tamperState_serving hs.1 hs.2.2.1]; exact tamperRespond_logs hlog _ _))
  have hk := ((tamperSeenDev_keeps (abortedDev_keeps w k s.dev) (by simp) (by simp) src 3).noted (noted_raise _ 179 src 0) (by simp)
    (by simp +contextual))
  have hsets := cmdSet_mapSets (tamperLog ((abortedDev w k s.dev).setReg SEC_TAMPER_STATUS
    ((abortedDev w k s.dev).reg SEC_TAMPER_STATUS ||| BitVec.ofNat 32 (2 ^ src))) src 3 0) (g := fun x => { x with out := [] }) (fun _ => rfl)
    fun _ => rfl
  refine ⟨_, hx, ⟨rfl, rfl, hk.parts, hk.regs⟩, told_cleared (abortedDev_told hm k s.dev) ?_ fun j => ?_, ?_⟩
  · rw [raise_hif]
    rfl
  · simp only [Dev.cmdSet, raise_vault]
    exact hsets j
  · have hv := abortedDev_vault w k s.dev
    simp only [raise_vault, tamperSeenDev, clearOuts, tamperLog, Dev.setReg]
    rw [hv]

/-! ### The debug master (R332) -/

theorem debugRefused_completes {c : Instr} {arg : List Byte} {k : Nat} {ms : List Nat} {tam : Option Nat} {s : State}
    (hup : s.dev.inReset = false)
    (hc : (c, k, ms) ∈ secCommands (.master .debug) arg tam ∨ ∃ e cut, c = .envelope (.master .debug) e tam cut)
    (hdbg : debugOpen s.fuses.lc = false) : Completes c s noteParts noteRegs fun t => t.dev = raise s.dev 177 0 0 := by
  have hclosed : debugClosed s.fuses (.master .debug) = true := by simp [debugClosed, hdbg]
  have hk : Keeps noteParts noteRegs s.dev (raise s.dev 177 0 0) :=
    (Keeps.refl _).noted (noted_raise _ _ _ _) (List.Subset.refl _) fun _ h => h
  rcases hc with hc | ⟨e, cut, rfl⟩
  · obtain ⟨used, body, hrun⟩ := secCommands_run hc
    exact ⟨_, hrun s hup _ (secRun_closed rfl hclosed), ⟨rfl, rfl, hk.parts, hk.regs⟩, rfl⟩
  · refine completes_of_onFuses_cut (g := envelope (.master .debug) e tam cut) rfl hup ?_ hk rfl
    simp [envelope, secRun_closed rfl hclosed, hclosed]

/-- Settles O46: each refusal of R372 is a branch of the gate, ahead of the command's body. -/
theorem securityAnswers : Obligations.SecurityAnswers := by
  unfold Obligations.SecurityAnswers
  refine ⟨fun c k ms w arg tam m s hup hc hm hdbg hnot => secRefused_completes hup hc hm hdbg ?_,
    fun c k ms w arg tam m s hup hc hm hin hlc h4 hE => secRefused_completes hup hc hm (debugClosed_blank hlc w) ?_,
    fun c k ms w arg tam m s hup hc hm hin hdbg hlc hstage h2 h10 => secRefused_completes hup hc hm hdbg ?_,
    fun c k ms w arg tam m s hup hc hm hin hdbg hlc hstage hhold => secRefused_completes hup hc hm hdbg ?_,
    fun c k ms w arg src m s hs hc hm hin hdbg hen hlog => secAborted_completes hs hc hm hin hdbg hen hlog,
    fun c k ms arg tam s hup hc hdbg => debugRefused_completes hup hc hdbg⟩
  · simp [secGate, hnot]
  · simp [secGate, hin, hlc, h4, hE]
  · have h1 := secCommands_code hc
    simp [secGate, hin, hlc, hstage, h1, h2, h10]
  · have h1 := secCommands_code hc
    have hst : ¬ s.dev.stage < 2 := by omega
    simp [secGate, hin, hlc, hst, h1, hhold]

end Sys2Proof.Machine
end

section
/-! SUPPORT. What obtaining a node's key leaves: beside slots found bad, cached keys and the counts of R365, events alone
(12_keys_and_frame_security.md R335, R350 to R354, R365). -/

namespace Sys2Proof.Machine

/-- The counters of keys and the registers of events. -/
def keyRegs (a : Nat) : Bool := a == SEC_CNT_KEY || a == SEC_CNT_UNWRAP || noteRegs a

/-- `e` is `d` but for what obtaining a key changes. -/
structure Obtained (d e : Dev) : Prop where
  keeps : Keeps (.vault :: noteParts) keyRegs d e
  vault : e.vault = { d.vault with slots := e.vault.slots, cache := e.vault.cache }

theorem Obtained.refl (d : Dev) : Obtained d d := ⟨Keeps.refl d, rfl⟩

theorem Obtained.trans {d e f : Dev} (h : Obtained d e) (g : Obtained e f) : Obtained d f :=
  ⟨h.keeps.trans g.keeps, g.vault.trans (by rw [h.vault])⟩

theorem Obtained.ite {d e f : Dev} {c : Prop} [Decidable c] (he : Obtained d e) (hf : Obtained d f) : Obtained d (if c then e else f) := by
  split
  · exact he
  · exact hf

theorem obtained_markBad (d : Dev) (i : Nat) : Obtained d (markBad d i) := by
  refine ⟨(markBad_keeps d i).mono (List.Subset.refl _) (by simp +contextual [keyRegs]), ?_⟩
  rw [markBad, raise_vault]

theorem obtained_useSlot (f : Fuses) (d : Dev) (i op typ : Nat) (master pan : Option Nat) :
    Obtained d (useSlot f d i op typ master pan).2.2 := by
  unfold useSlot
  cases d.slot i with
  | none => exact Obtained.refl d
  | some x =>
    dsimp only
    split
    · exact (Obtained.refl d).ite (obtained_markBad d i)
    · split
      · exact Obtained.refl d
      · split
        · exact Obtained.refl d
        · split <;> exact Obtained.refl d

theorem obtained_countUnwrap (d : Dev) : Obtained d (countUnwrap d) := ⟨(Keeps.refl d).setReg rfl _, rfl⟩

theorem obtained_countObtain (d : Dev) (r : Nat) : Obtained d (countObtain d r) :=
  (Obtained.refl d).ite ⟨(Keeps.refl d).inc rfl, rfl⟩

theorem obtained_unwrapUnder (f : Fuses) (d : Dev) (master p s : Nat) (w : List Byte) :
    Obtained d (unwrapUnder f d master p s w).2.2 := by
  have huse := obtained_useSlot f d s 44 2 (some master) (some p)
  unfold unwrapUnder useKek
  dsimp only
  split
  · exact huse
  · exact huse.trans (obtained_countUnwrap _)

theorem obtained_unwrapNode (f : Fuses) (d : Dev) (master p n : Nat) : Obtained d (unwrapNode f d master p n).2.2 := by
  unfold unwrapNode
  extract_lets w judge second
  have hjudge : ∀ pt a, (judge pt a).2.2 = a := fun pt a => by
    simp only [judge]
    split <;> rfl
  have hsecond : ∀ a, Obtained d a → Obtained d (second a).2.2 := fun a ha => by
    simp only [second]
    split
    · exact ha
    · rename_i s _
      have hb := ha.trans (obtained_unwrapUnder f a master p s w)
      split <;> rename_i hu <;> rw [hu] at hb
      · split
        · rwa [hjudge]
        · exact hb
      · exact hb
  split
  · exact hsecond d (Obtained.refl d)
  · rename_i s _
    have hb := obtained_unwrapUnder f d master p s w
    split <;> rename_i hu <;> rw [hu] at hb
    · split
      · rwa [hjudge]
      · exact hb
    · split
      · exact hsecond _ hb
      · exact hb

theorem obtained_obtainKey (f : Fuses) (d : Dev) (caddy j n p : Nat) : Obtained d (obtainKey f d caddy j n p).2.2 := by
  have hstore : ∀ (a : Dev) (x : Tab (List CacheEntry)), Obtained a { a with vault := { a.vault with cache := x } } := fun a x =>
    ⟨(Keeps.refl a).vault (by simp) _, rfl⟩
  have hun := obtained_unwrapNode f d 30 p n
  unfold obtainKey
  dsimp only
  split
  · exact Obtained.refl d
  · split
    · exact hstore d _
    · split
      · exact hun.trans (obtained_countObtain _ _)
      · exact hun.trans (hstore _ _)

theorem obtained_of_obtainKey {f : Fuses} {d e : Dev} {caddy j n p r : Nat} {k : List Byte} (h : obtainKey f d caddy j n p = (r, k, e)) :
    Obtained d e := by
  have := obtained_obtainKey f d caddy j n p
  rwa [h] at this

/-! ### What reading the frame and the node sees of it -/

section
variable {d e : Dev}

theorem Obtained.pbm (h : Obtained d e) : e.pbm = d.pbm := h.keeps.parts .pbm (by decide)
theorem Obtained.bld (h : Obtained d e) : e.bld = d.bld := h.keeps.parts .bld (by decide)
theorem Obtained.tbl (h : Obtained d e) : e.tbl = d.tbl := h.keeps.parts .tbl (by decide)

theorem Obtained.fld (h : Obtained d e) (x : Fld) (hx : keyRegs x.reg = false) : e.fld x = d.fld x := by
  simp only [Dev.fld, h.keeps.regs _ hx]

end

end Sys2Proof.Machine
end

section
/-! PROOF. Frame Security Units, random numbers and their counters (12_keys_and_frame_security.md R362 to R365, R369 to R373). -/

namespace Sys2Proof.Machine

/-! ### A unit's port -/

theorem Dev.fsu_setFsu (d : Dev) (e k : Nat) (x : Fsu) : (d.setFsu e x).fsu k = if k = e then x else d.fsu k := Tab.getD_put _ _ _ _ _

theorem Dev.fsu_setFsu_same (d : Dev) (e : Nat) (x : Fsu) : (d.setFsu e x).fsu e = x := by rw [Dev.fsu_setFsu, if_pos rfl]

theorem fsuEnd_result (d : Dev) (e r : Nat) : ((fsuEnd d e r).fsu e).result = r := by rw [fsuEnd, Dev.fsu_setFsu_same]

theorem Keeps.setFsu {ps : List Part} {rs : Nat → Bool} {d e : Dev} (h : Keeps ps rs d e) (hv : Part.vault ∈ ps) (k : Nat) (x : Fsu) :
    Keeps ps rs d (e.setFsu k x) := h.vault hv _

theorem Keeps.fsuEnd {ps : List Part} {rs : Nat → Bool} {d e : Dev} (h : Keeps ps rs d e) (hv : Part.vault ∈ ps) (k r : Nat) :
    Keeps ps rs d (fsuEnd e k r) := h.setFsu hv _ _

/-- Counting a frame's end changes registers alone. -/
theorem countFrame_keeps {ps : List Part} {rs : Nat → Bool} {d e : Dev} (h : Keeps ps rs d e) (hf : rs SEC_CNT_FRAME = true)
    (hk : rs SEC_CNT_KEY = true) (r : Nat) : Keeps ps rs d (countFrame e r) :=
  (h.inc hf).ite ((h.inc hf).ite ((h.inc hk).ite h))

theorem countFrame_parts (d : Dev) (r : Nat) : (countFrame d r).vault = d.vault ∧ (countFrame d r).pbm = d.pbm := by
  unfold countFrame
  split
  · exact ⟨rfl, rfl⟩
  · split
    · exact ⟨rfl, rfl⟩
    · split <;> exact ⟨rfl, rfl⟩

theorem countFrame_fsu (d : Dev) (r k : Nat) : (countFrame d r).fsu k = d.fsu k := by rw [Dev.fsu, (countFrame_parts d r).1]; rfl

/-! ### PARSE -/

theorem parseHdr_result (d : Dev) (n p : Nat) (h : MacHdr) : (parseHdr d n p h).1 =
    (if h.counter = none then scNO_COUNTER
      else if h.keyMode ≠ 1 ∨ levelOk d p h.level = false then scLEVEL_REFUSED
      else if keyNumber d n h.keyIndex = none then scKEY_UNKNOWN else scOK) := by
  unfold parseHdr
  simp only [Option.isNone_iff_eq_none, Bool.not_eq_true']
  split
  · rfl
  · split
    · rfl
    · cases keyNumber d n h.keyIndex <;> rfl

theorem fsuParse_completes {e b w : Nat} {h : MacHdr} {s : State} (hup : s.dev.inReset = false) (hhold : s.dev.vault.hold = false)
    (hh : Tab.find s.dev.rx.hdrs b = some h) :
    Completes (.fsuParse e b w) s [.vault] (fun a => a == SEC_CNT_FRAME || a == SEC_CNT_KEY) fun t =>
      t.dev.vault = { s.dev.vault with fsu := t.dev.vault.fsu } ∧ (t.dev.fsu e).buf = b ∧ (t.dev.fsu e).node = w ∧
      (t.dev.fsu e).fc = h.counter.getD 0 ∧ (t.dev.fsu e).level = h.level ∧
      (t.dev.fsu e).result = (if h.counter = none then scNO_COUNTER
        else if h.keyMode ≠ 1 ∨ levelOk s.dev (nbits w 22 20) h.level = false then scLEVEL_REFUSED
        else if keyNumber s.dev (w % 2 ^ 20) h.keyIndex = none then scKEY_UNKNOWN else scOK) ∧
      (∀ x, x ≠ e → t.dev.fsu x = s.dev.fsu x) := by
  let d0 := s.dev.setFsu e { s.dev.fsu e with buf := b, node := w }
  let r := parseHdr d0 (w % 2 ^ 20) (nbits w 22 20) h
  let x : Fsu := ⟨b, w, h.counter.getD 0, h.level, r.1 == scOK && r.2 == 1, r.1⟩
  have hd : fsuParse s.dev e b w = countFrame (d0.setFsu e x) r.1 := by
    simp only [fsuParse, hhold, hh]
    rfl
  have hfsu : ∀ k, (countFrame (d0.setFsu e x) r.1).fsu k = if k = e then x else s.dev.fsu k := fun k => by
    rw [countFrame_fsu, Dev.fsu_setFsu]
    split
    · rfl
    · rename_i hk
      exact (Dev.fsu_setFsu _ _ _ _).trans (if_neg hk)
  refine completes_of_onDev (g := fun d => fsuParse d e b w) rfl hup hd
    (countFrame_keeps (((Keeps.refl _).setFsu (by simp) _ _).setFsu (by simp) _ _) (by simp) (by simp) _)
    ⟨?_, ?_, ?_, ?_, ?_, ?_, fun k hk => (hfsu k).trans (if_neg hk)⟩
  · simp only [(countFrame_parts (d0.setFsu e x) r.1).1]
    rfl
  · rw [hfsu, if_pos rfl]
  · rw [hfsu, if_pos rfl]
  · rw [hfsu, if_pos rfl]
  · rw [hfsu, if_pos rfl]
  · rw [hfsu, if_pos rfl]
    exact parseHdr_result d0 _ _ h

/-- An operation that ends at once shows its result in the unit's port alone. -/
theorem fsuEnd_completes {c : Instr} {e r : Nat} {x : Fsu} {s : State} (hc : exec c s = .next { s with dev := fsuEnd (s.dev.setFsu e x) e r }) :
    Completes c s [.vault] (fun _ => false) fun t => (t.dev.fsu e).result = r ∧ t.dev.vault = { s.dev.vault with fsu := t.dev.vault.fsu } :=
  have hk : Keeps [.vault] (fun _ => false) s.dev (fsuEnd (s.dev.setFsu e x) e r) := ((Keeps.refl _).setFsu (by simp) _ _).fsuEnd (by simp) _ _
  ⟨_, hc, ⟨rfl, rfl, hk.parts, hk.regs⟩, fsuEnd_result _ _ _, rfl⟩

theorem fsuParse_noRecord_exec {e b w : Nat} {s : State} (hup : s.dev.inReset = false) (hhold : s.dev.vault.hold = false)
    (hh : Tab.find s.dev.rx.hdrs b = none) :
    exec (.fsuParse e b w) s = .next { s with dev := fsuEnd (s.dev.setFsu e { s.dev.fsu e with buf := b, node := w }) e scRANGE } := by
  refine (s.onDev_up (fun d => fsuParse d e b w) hup).trans ?_
  simp only [fsuParse, hhold, hh]
  rfl

theorem fsuVerify_noRecord_exec {e b w : Nat} {s : State} (hup : s.dev.inReset = false) (hhold : s.dev.vault.hold = false)
    (hh : Tab.find s.dev.rx.hdrs b = none) :
    exec (.fsuVerify e b w) s = .next { s with dev := fsuEnd (s.dev.setFsu e { s.dev.fsu e with buf := b, node := w }) e scRANGE } := by
  refine (s.onDevF_up (fsuVerify e b w) hup).trans ?_
  simp only [fsuVerify, hhold, hh]
  rfl

theorem fsuHold_exec {c : Instr} {e b w fc : Nat} {s : State} (hup : s.dev.inReset = false) (hhold : s.dev.vault.hold = true)
    (hc : c = .fsuParse e b w ∨ c = .fsuVerify e b w ∨ c = .fsuSecure e b w fc) :
    ∃ x, exec c s = .next { s with dev := fsuEnd (s.dev.setFsu e x) e scTAMPER_HOLD } := by
  rcases hc with rfl | rfl | rfl
  · refine ⟨{ s.dev.fsu e with buf := b, node := w }, (s.onDev_up (fun d => fsuParse d e b w) hup).trans ?_⟩
    simp only [fsuParse, hhold, if_true]
  · refine ⟨{ s.dev.fsu e with buf := b, node := w }, (s.onDevF_up (fsuVerify e b w) hup).trans ?_⟩
    simp only [fsuVerify, hhold, if_true]
  · refine ⟨{ s.dev.fsu e with buf := b, node := w, fc := fc }, (s.onDevF_up (fsuSecure e b w fc) hup).trans ?_⟩
    simp only [fsuSecure, hhold, if_true]

/-! ### VERIFY -/

/-- Registers and parts that a frame's verification may change. -/
def frameRegs (a : Nat) : Bool := a == SEC_CNT_FRAME || a == SEC_CNT_KEY || a == SEC_CNT_UNWRAP || noteRegs a

theorem Obtained.frame {d e : Dev} (h : Obtained d e) : Keeps ([.vault, .pbm] ++ noteParts) frameRegs d e :=
  h.keeps.mono (by simp [noteParts]) fun a ha => by
    simp only [keyRegs, Bool.or_eq_true] at ha
    simp only [frameRegs, Bool.or_eq_true]
    tauto

/-- The frame of a record without its FCS, what the unit reads of it after obtaining the key being what was there before. -/
def recBody (d : Dev) (b : Nat) : List Byte := (bufGet d (recPsdu d b)).take ((bufGet d (recPsdu d b)).length - recFcs d b)

/-- CCM* on the frame of a record under a key. -/
def recOpen (d : Dev) (k : List Byte) (b n p : Nat) (h : MacHdr) : Option (List Byte) :=
  Config.ccmOpen k (nonce d p (nodeExtBe d n) (h.counter.getD 0) h.level (field (bufGet d b) 0x10 5)) h.level
    ((recBody d b).take h.hdrLen) ((recBody d b).drop h.hdrLen)

theorem verifyRecord_obtained {f : Fuses} {d d1 : Dev} {caddy b n p j r : Nat} {k : List Byte} {h : MacHdr}
    (hparse : parseHdr d n p h = (scOK, j)) (hkey : obtainKey f d caddy j n p = (r, k, d1)) :
    verifyRecord f d caddy b n p h =
      if r ≠ scOK then (r, d1)
      else match recOpen d1 k b n p h with
        | none => (scMIC_FAIL, d1)
        | some pt => (scOK, bufSet d1 (recPsdu d1 b) ((recBody d1 b).take h.hdrLen ++ pt ++
            (bufGet d1 (recPsdu d1 b)).drop ((bufGet d1 (recPsdu d1 b)).length - recFcs d1 b))) := by
  simp only [verifyRecord, hparse, hkey, ne_eq, not_true_eq_false, if_false]
  rfl

/-- A frame that PARSE accepts names its key (R362). -/
theorem parseHdr_accepted {d : Dev} {n p j : Nat} {h : MacHdr} (hc : h.counter.isSome = true) (hm : h.keyMode = 1)
    (hl : levelOk d p h.level = true) (hj : keyNumber d n h.keyIndex = some j) : parseHdr d n p h = (scOK, j) := by
  have hc' : h.counter.isNone = false := by rw [← Option.not_isSome, hc]; rfl
  simp [parseHdr, hc', hm, hl, hj]

theorem entryAddr_congr {d e : Dev} (h : e.bld = d.bld) (t i : Nat) : entryAddr e t i = entryAddr d t i := by
  unfold entryAddr Dev.tableBank Dev.sec
  rw [h]

theorem entryField_congr {d e : Dev} (hb : e.bld = d.bld) (ht : e.tbl = d.tbl) (t i off n : Nat) :
    entryField e t i off n = entryField d t i off n := by
  rw [entryField, entryField, entryAddr_congr hb, ht]

section
variable {d e : Dev}

/-- Obtaining a key leaves what the unit reads of buffers, the Node Table, Topology and the PAN. -/
theorem Obtained.bufGet (h : Obtained d e) (k : Nat) : bufGet e k = Machine.bufGet d k := bufGet_congr h.pbm k

theorem Obtained.recPsdu (h : Obtained d e) (b : Nat) : recPsdu e b = Machine.recPsdu d b := by simp only [Machine.recPsdu, h.bufGet]

theorem Obtained.recFcs (h : Obtained d e) (b : Nat) : recFcs e b = Machine.recFcs d b := by simp only [Machine.recFcs, h.bufGet]

theorem Obtained.recBody (h : Obtained d e) (b : Nat) : recBody e b = Machine.recBody d b := by
  simp only [Machine.recBody, h.recPsdu, h.recFcs, h.bufGet]

theorem Obtained.topo (h : Obtained d e) : e.topo = d.topo := by simp only [Dev.topo, Dev.sec, h.bld]

theorem Obtained.entryField (h : Obtained d e) (t i off n : Nat) : entryField e t i off n = Machine.entryField d t i off n :=
  entryField_congr h.bld h.tbl t i off n

theorem Obtained.nodeExtBe (h : Obtained d e) (n : Nat) : nodeExtBe e n = Machine.nodeExtBe d n := by
  simp only [Machine.nodeExtBe, nodeExt, entryAddr_congr h.bld, h.tbl]

theorem Obtained.nonce (h : Obtained d e) (p : Nat) (ext : List Byte) (fc level asn : Nat) :
    nonce e p ext fc level asn = Machine.nonce d p ext fc level asn := by simp only [Machine.nonce, h.topo]

theorem Obtained.recOpen (h : Obtained d e) (k : List Byte) (b n p : Nat) (x : MacHdr) :
    recOpen e k b n p x = Machine.recOpen d k b n p x := by
  simp only [Machine.recOpen, h.nonce, h.nodeExtBe, h.bufGet, h.recBody]

end

theorem bufGet_bufSet (d : Dev) (b k : Nat) (bs : List Byte) : bufGet (bufSet d b bs) k = if k = b then bs else bufGet d k :=
  Tab.getD_put _ _ _ _ _

theorem fsuEnd_pbm (d : Dev) (e r : Nat) : (fsuEnd d e r).pbm = d.pbm := rfl

/-- A frame's end under a key obtained: the unit shows the key's failure, a MIC that fails, or OK with the frame decrypted in place. -/
def verifyEnd (orig d : Dev) (e b n p r : Nat) (k : List Byte) (h : MacHdr) : Dev :=
  if r ≠ scOK then fsuEnd (countFrame d r) e r
  else match recOpen orig k b n p h with
    | none => fsuEnd (countFrame d scMIC_FAIL) e scMIC_FAIL
    | some pt =>
      let tail := (bufGet orig (recPsdu orig b)).drop ((bufGet orig (recPsdu orig b)).length - recFcs orig b)
      fsuEnd (bufSet d (recPsdu orig b) ((recBody orig b).take h.hdrLen ++ pt ++ tail)) e scOK

theorem fsuVerify_exec {e b w j r : Nat} {k : List Byte} {d : Dev} {h : MacHdr} {s : State} (hup : s.dev.inReset = false)
    (hhold : s.dev.vault.hold = false) (hh : Tab.find s.dev.rx.hdrs b = some h) (hc : h.counter.isSome = true) (hm : h.keyMode = 1)
    (hl : levelOk s.dev (nbits w 22 20) h.level = true) (hj : keyNumber s.dev (w % 2 ^ 20) h.keyIndex = some j)
    (hkey : obtainKey s.fuses (s.dev.setFsu e { s.dev.fsu e with buf := b, node := w }) (e / 16) j (w % 2 ^ 20) (nbits w 22 20) = (r, k, d)) :
    exec (.fsuVerify e b w) s = .next { s with dev := verifyEnd s.dev d e b (w % 2 ^ 20) (nbits w 22 20) r k h } := by
  let d0 := s.dev.setFsu e { s.dev.fsu e with buf := b, node := w }
  have hob : Obtained d0 d := obtained_of_obtainKey hkey
  have hver := verifyRecord_obtained (d := d0) (b := b) (parseHdr_accepted (d := d0) hc hm hl hj) hkey
  refine (s.onDevF_up (fsuVerify e b w) hup).trans ?_
  simp only [fsuVerify, hhold, hh, Bool.false_eq_true, if_false]
  have hsame : recOpen d0 k b (w % 2 ^ 20) (nbits w 22 20) h = recOpen s.dev k b (w % 2 ^ 20) (nbits w 22 20) h := rfl
  rw [hver, hob.recOpen, hsame, hob.recBody, hob.recPsdu, hob.recFcs, hob.bufGet]
  unfold verifyEnd
  split
  · rfl
  · cases recOpen s.dev k b (w % 2 ^ 20) (nbits w 22 20) h <;> rfl

theorem mic_fail_counted {d e : Dev} (h : Obtained d e) :
    (countFrame e scMIC_FAIL).fld SEC_CNT_FRAME_mic_fail = min (d.fld SEC_CNT_FRAME_mic_fail + 1) SEC_CNT_FRAME_mic_fail.max := by
  have hd : countFrame e scMIC_FAIL = e.inc SEC_CNT_FRAME_mic_fail := rfl
  rw [hd, Dev.fld_inc_same _ _ (by decide), h.fld _ (by decide)]

theorem fsuVerify_completes {e b w j r : Nat} {k : List Byte} {d : Dev} {h : MacHdr} {s : State} (hup : s.dev.inReset = false)
    (hhold : s.dev.vault.hold = false) (hh : Tab.find s.dev.rx.hdrs b = some h) (hc : h.counter.isSome = true) (hm : h.keyMode = 1)
    (hl : levelOk s.dev (nbits w 22 20) h.level = true) (hj : keyNumber s.dev (w % 2 ^ 20) h.keyIndex = some j)
    (hkey : obtainKey s.fuses (s.dev.setFsu e { s.dev.fsu e with buf := b, node := w }) (e / 16) j (w % 2 ^ 20) (nbits w 22 20) = (r, k, d)) :
    Completes (.fsuVerify e b w) s ([.vault, .pbm] ++ noteParts) frameRegs fun t =>
      (r ≠ scOK → (t.dev.fsu e).result = r ∧ t.dev.pbm = s.dev.pbm) ∧
      (r = scOK → (recOpen s.dev k b (w % 2 ^ 20) (nbits w 22 20) h = none → (t.dev.fsu e).result = scMIC_FAIL ∧ t.dev.pbm = s.dev.pbm ∧
          t.dev.fld SEC_CNT_FRAME_mic_fail = min (s.dev.fld SEC_CNT_FRAME_mic_fail + 1) SEC_CNT_FRAME_mic_fail.max) ∧
        ∀ pt, recOpen s.dev k b (w % 2 ^ 20) (nbits w 22 20) h = some pt → (t.dev.fsu e).result = scOK ∧
          bufGet t.dev (recPsdu s.dev b) = (recBody s.dev b).take h.hdrLen ++ pt ++
            (bufGet s.dev (recPsdu s.dev b)).drop ((bufGet s.dev (recPsdu s.dev b)).length - recFcs s.dev b)) := by
  have hx := fsuVerify_exec hup hhold hh hc hm hl hj hkey
  let d0 := s.dev.setFsu e { s.dev.fsu e with buf := b, node := w }
  have hob : Obtained d0 d := obtained_of_obtainKey hkey
  have hk : Keeps ([.vault, .pbm] ++ noteParts) frameRegs s.dev d := ((Keeps.refl _).setFsu (by simp) _ _).trans hob.frame
  have hcount : ∀ r, Keeps ([.vault, .pbm] ++ noteParts) frameRegs s.dev (fsuEnd (countFrame d r) e r) := fun r =>
    (countFrame_keeps hk (by decide) (by decide) r).fsuEnd (by simp) _ _
  have hpbm : ∀ r, (fsuEnd (countFrame d r) e r).pbm = s.dev.pbm := fun r =>
    (fsuEnd_pbm _ _ _).trans ((countFrame_parts d r).2.trans hob.pbm)
  by_cases hr : r = scOK
  · rw [verifyEnd, if_neg (not_not.mpr hr)] at hx
    cases ho : recOpen s.dev k b (w % 2 ^ 20) (nbits w 22 20) h with
    | none =>
      rw [ho] at hx
      refine ⟨_, hx, ⟨rfl, rfl, (hcount _).parts, (hcount _).regs⟩, fun hne => absurd hr hne, fun _ => ⟨fun _ =>
        ⟨fsuEnd_result _ _ _, hpbm _, ?_⟩, fun pt hpt => (nomatch hpt)⟩⟩
      exact mic_fail_counted (d := d0) hob
    | some pt =>
      rw [ho] at hx
      have hset := (hk.pbm (by simp) ⟨Tab.put d.pbm.bufs (recPsdu s.dev b) ((recBody s.dev b).take h.hdrLen ++ pt ++
        (bufGet s.dev (recPsdu s.dev b)).drop ((bufGet s.dev (recPsdu s.dev b)).length - recFcs s.dev b)), d.pbm.next⟩).fsuEnd (by simp) e scOK
      refine ⟨_, hx, ⟨rfl, rfl, hset.parts, hset.regs⟩, fun hne => absurd hr hne, fun _ => ⟨fun hnone => (nomatch hnone), fun pt' hpt => ?_⟩⟩
      cases hpt
      exact ⟨fsuEnd_result _ _ _, (bufGet_bufSet _ _ _ _).trans (if_pos rfl)⟩
  · rw [verifyEnd, if_pos hr] at hx
    exact ⟨_, hx, ⟨rfl, rfl, (hcount r).parts, (hcount r).regs⟩, fun _ => ⟨fsuEnd_result _ _ _, hpbm r⟩, fun h => absurd h hr⟩

/-! ### SECURE -/

/-- The frame of a buffer as SECURE leaves it under a key. -/
def securedBuf (d : Dev) (k : List Byte) (b j n p fc : Nat) : List Byte :=
  if topNonceMode d.topo p = 0 then
    secureFrame d p k (ownExtBe d) (bufGet d b) (d.fld (SEC_PANp_CFG_tx_level p)) fc (nodeKeyIndex d n j) 0
  else (withAux (bufGet d b) (d.fld (SEC_PANp_CFG_tx_level p)) fc (nodeKeyIndex d n j)).1

theorem secureFor_obtained {f : Fuses} {d d1 : Dev} {caddy b j n p fc r : Nat} {k : List Byte}
    (hkey : obtainKey f d caddy j n p = (r, k, d1)) :
    secureFor f d caddy b j n p fc = if r ≠ scOK then (r, d1) else (scOK, bufSet d1 b (securedBuf d1 k b j n p fc)) := by
  simp only [secureFor, hkey, securedBuf]
  split
  · rfl
  · split <;> rfl

theorem Obtained.securedBuf {d e : Dev} (h : Obtained d e) (k : List Byte) (b j n fc : Nat) {p : Nat} (hp : p < 8) :
    securedBuf e k b j n p fc = Machine.securedBuf d k b j n p fc := by
  have hlevel : e.fld (SEC_PANp_CFG_tx_level p) = d.fld (SEC_PANp_CFG_tx_level p) := h.fld _ (by
    simp only [keyRegs, noteRegs, SEC_PANp_CFG, SEC_CNT_KEY, SEC_CNT_UNWRAP, RES_JRNL_NEWEST, Bool.or_eq_false_iff, beq_eq_false_iff_ne,
      decide_eq_false_iff_not]
    omega)
  have hown : ownExtBe e = ownExtBe d := by
    rw [ownExtBe, ownExtBe, Dev.reg64, Dev.reg64, h.keeps.regs _ (by decide), h.keeps.regs _ (by decide)]
  simp only [Machine.securedBuf, secureFrame, nodeKeyIndex, h.topo, h.nonce, h.entryField, h.bufGet, hlevel, hown]

theorem fsuSecure_completes {e b w fc r : Nat} {k : List Byte} {d : Dev} {s : State} (hup : s.dev.inReset = false)
    (hhold : s.dev.vault.hold = false)
    (hkey : obtainKey s.fuses (s.dev.setFsu e { s.dev.fsu e with buf := b, node := w, fc := fc }) (e / 16) (nbits w 24 24) (w % 2 ^ 20)
      (nbits w 22 20) = (r, k, d)) :
    Completes (.fsuSecure e b w fc) s ([.vault, .pbm] ++ noteParts) frameRegs fun t => (t.dev.fsu e).result = r ∧
      (r ≠ scOK → t.dev.pbm = s.dev.pbm) ∧
      (r = scOK → bufGet t.dev b = securedBuf s.dev k b (nbits w 24 24) (w % 2 ^ 20) (nbits w 22 20) fc) ∧
      (∀ x, x ≠ b → bufGet t.dev x = bufGet s.dev x) := by
  let d0 := s.dev.setFsu e { s.dev.fsu e with buf := b, node := w, fc := fc }
  have hob : Obtained d0 d := obtained_of_obtainKey hkey
  have hk : Keeps ([.vault, .pbm] ++ noteParts) frameRegs s.dev d := ((Keeps.refl _).setFsu (by simp) _ _).trans hob.frame
  have hp : nbits w 22 20 < 8 := Nat.mod_lt _ (by decide)
  by_cases hr : r = scOK
  · have hd : fsuSecure e b w fc s.fuses s.dev =
        fsuEnd (bufSet d b (securedBuf s.dev k b (nbits w 24 24) (w % 2 ^ 20) (nbits w 22 20) fc)) e r := by
      simp only [fsuSecure, hhold, Bool.false_eq_true, if_false, secureFor_obtained hkey, hob.securedBuf _ _ _ _ _ hp, hr, ne_eq,
        not_true_eq_false]
      rfl
    refine completes_of_onDevF_eq (g := fsuSecure e b w fc) rfl hup hd ((hk.pbm (by simp) _).fsuEnd (by simp) _ _)
      ⟨fsuEnd_result _ _ _, fun hne => absurd hr hne, fun _ => (bufGet_bufSet _ _ _ _).trans (if_pos rfl), fun x hx => ?_⟩
    exact ((bufGet_bufSet _ _ _ _).trans (if_neg hx)).trans (hob.bufGet x)
  · have hd : fsuSecure e b w fc s.fuses s.dev = fsuEnd d e r := by
      simp only [fsuSecure, hhold, Bool.false_eq_true, if_false, secureFor_obtained hkey, ne_eq, hr, not_false_eq_true, if_true]
    exact completes_of_onDevF_eq (g := fsuSecure e b w fc) rfl hup hd (hk.fsuEnd (by simp) _ _)
      ⟨fsuEnd_result _ _ _, fun _ => hob.pbm, fun h => absurd h hr, fun x _ => hob.bufGet x⟩

/-! ### Random numbers and counters (R371, R373) -/

theorem trngHealthFail_completes {s : State} (hup : s.dev.inReset = false) :
    Completes .trngHealthFail s ([.vault] ++ noteParts) (fun a => a == SEC_STATUS || noteRegs a) fun t =>
      t.dev.fld SEC_STATUS_trng_fail = 1 ∧ t.dev.vault = { s.dev.vault with passes := 0 } := by
  refine completes_of_onDev (g := trngFail) rfl hup rfl
    ((((Keeps.refl _).vault (by simp) _).setBit (by simp) _).noted (noted_raise _ _ _ _) (by simp) (by simp +contextual)) ⟨?_, raise_vault _ _ _ _⟩
  simp only [trngFail]
  rw [raise_fld _ _ _ _ _ (by decide), Dev.fld_setBit_same _ (by decide) (by decide)]
  rfl

theorem trngRetest_completes {pass : Bool} {s : State} (hup : s.dev.inReset = false) (hfail : s.dev.fld SEC_STATUS_trng_fail = 1) :
    Completes (.trngRetest pass) s [.vault] (fun a => a == SEC_STATUS) fun t =>
      t.dev.vault = { s.dev.vault with passes := if pass = true ∧ s.dev.vault.passes < 2 then s.dev.vault.passes + 1 else 0 } ∧
      t.dev.fld SEC_STATUS_trng_fail = (if pass = true ∧ 2 ≤ s.dev.vault.passes then 0 else 1) := by
  have hbit : s.dev.bit SEC_STATUS_trng_fail = true := by simp [Dev.bit, hfail]
  have hv : ∀ x, Keeps [.vault] (fun a => a == SEC_STATUS) s.dev { s.dev with vault := x } := fun x => (Keeps.refl _).vault (by simp) x
  cases pass with
  | false =>
    exact completes_of_onDev (g := fun d => trngRetest d false) rfl hup (by simp [trngRetest, hbit]) (hv { s.dev.vault with passes := 0 })
      ⟨by simp, hfail.trans (by simp)⟩
  | true =>
    by_cases h2 : 2 ≤ s.dev.vault.passes
    · have hlt : ¬ s.dev.vault.passes < 2 := by omega
      refine completes_of_onDev (g := fun d => trngRetest d true) rfl hup (by simp [trngRetest, hbit, h2])
        ((hv { s.dev.vault with passes := 0 }).setBit (x := SEC_STATUS_trng_fail) (by simp) false) ⟨by simp [hlt, Dev.setBit, Dev.setFld, Dev.setReg], ?_⟩
      simp only [h2, and_self, if_true]
      exact Dev.fld_setBit_same _ (by decide) (by decide) _
    · have hlt : s.dev.vault.passes < 2 := by omega
      exact completes_of_onDev (g := fun d => trngRetest d true) rfl hup (by simp [trngRetest, hbit, h2])
        (hv { s.dev.vault with passes := s.dev.vault.passes + 1 }) ⟨by simp [hlt], hfail.trans (by simp [h2])⟩

theorem secCntClear_completes {s : State} (hup : s.dev.inReset = false) :
    Completes .secCntClear s [] (fun a => a ∈ [SEC_CNT_FRAME, SEC_CNT_KEY, SEC_CNT_UNWRAP, SEC_CNT_ENV]) fun t =>
      t.dev.reg SEC_CNT_FRAME = 0 ∧ t.dev.reg SEC_CNT_KEY = 0 ∧ t.dev.reg SEC_CNT_UNWRAP = 0 ∧ t.dev.reg SEC_CNT_ENV = 0 := by
  refine completes_of_onDev (g := secCntClear) rfl hup rfl (Keeps.clearRegs (by simp)) ?_
  simp [secCntClear, Dev.reg_clearRegs]

/-- Settles O50: the frame's key decides what the unit's port shows and what the buffer holds. -/
theorem frameSecurityAndRandom : Obligations.FrameSecurityAndRandom := by
  unfold Obligations.FrameSecurityAndRandom
  refine ⟨fun _ _ _ _ _ hup hhold hh => fsuParse_completes hup hhold hh,
    fun _ _ _ _ hup hhold hh => fsuEnd_completes (fsuVerify_noRecord_exec hup hhold hh),
    fun _ _ _ _ hup hhold hh => fsuEnd_completes (fsuParse_noRecord_exec hup hhold hh), ?_,
    fun _ _ _ _ _ _ _ _ hup hhold hkey => fsuSecure_completes hup hhold hkey,
    fun _ _ _ _ _ _ hup hhold hc => (fsuHold_exec hup hhold hc).elim fun _ hx => fsuEnd_completes hx,
    fun _ hup => trngHealthFail_completes hup, fun _ _ hup hfail => trngRetest_completes hup hfail,
    fun _ hup => completes_of_onDev (g := drbgReseed) rfl hup rfl ((Keeps.refl _).draws (by simp) _) rfl,
    fun _ hup => secCntClear_completes hup⟩
  intro e b w j r k d h s hup hhold hh hc hm hl hj hkey
  obtain ⟨t, hx, hframe, hbad, hgood⟩ := fsuVerify_completes hup hhold hh hc hm hl hj hkey
  refine ⟨t, hx, hframe, hbad, fun hr body hbody o ho => ?_⟩
  subst hbody ho
  exact hgood hr

end Sys2Proof.Machine
end

section
/-! PROOF. RECOV_KEY_LOAD in JOINING starts recovery node mode, whose register shows it (10_backhaul.md R288, R289; 12_keys_and_frame_security.md
R361). -/

namespace Sys2Proof.Machine

/-- TS_RECOV shows whether recovery node mode is in force. -/
theorem recovMode_active (d : Dev) (on : Bool) : (recovMode d on).bit TS_RECOV_active = on := by
  have hset : ∀ b, ((d.setBit TS_RECOV_active on).setBit TS_RECOV_none b).fld TS_RECOV_active = b2n on := fun b =>
    (Dev.fld_setFld_other _ _ _ _ (by decide)).trans (Dev.fld_setBit_same _ (by decide) (by decide) on)
  have hb2n : (b2n on != 0) = on := by cases on <;> rfl
  unfold recovMode
  split
  · rename_i h
    exact h.symm
  · dsimp only
    split
    · exact (congrArg (· != 0) (hset _)).trans hb2n
    · refine (congrArg (· != 0) ((Dev.fld_setFld_other _ _ _ _ (by decide)).trans (hset _))).trans hb2n

theorem secEnd_bit (d : Dev) (w : Sys2Proof.Who) (r : Nat) (out : List Byte) (x : Fld) : (secEnd d w r out).bit x = d.bit x := by
  simp only [Dev.bit, Dev.fld, Dev.reg, secEnd_regs]

theorem recovKeyBody_joining {arg : List Byte} {f : Fuses} {d : Dev} (hjoin : d.fld FWD_STATUS_recov = rvJOINING) :
    (noFuse (recovKeyBody arg) f d).2.2.2.bit TS_RECOV_active = true := by
  simp only [noFuse, recovKeyBody, if_pos hjoin, setRecov]
  exact recovMode_active _ true

theorem recovKeyLoad_joining {s : State} {arg : List Byte} (hs : Serving s) (harg : argsOk (fit 64 arg) 17 = true)
    (hjoin : s.dev.fld FWD_STATUS_recov = rvJOINING) :
    ∃ t, exec (.recovKeyLoad (.master (.cc true)) arg none) s = .next t ∧ t.dev.bit TS_RECOV_active = true := by
  have hrun := secRun_body (w := .master (.cc true)) (code := 0x0F) (tam := none) (body := noFuse (recovKeyBody (fit 64 arg))) rfl rfl
    (secGate_serving hs (List.mem_singleton_self 28)) rfl harg
  have hx : exec (.recovKeyLoad (.master (.cc true)) arg none) s =
      s.onFuses (secRun (.master (.cc true)) 0x0F [28] (fit 64 arg) 17 none (noFuse (recovKeyBody (fit 64 arg)))) := rfl
  rw [State.onFuses_up _ _ hs.1, hrun] at hx
  exact ⟨_, hx, (secEnd_bit _ _ _ _ _).trans (recovKeyBody_joining hjoin)⟩

/-- A device in service, provisioned, that joins over a neighbour. -/
def joiningState : State :=
  { servedState with fuses := { Fuses.blank with lc := 2 }, dev := servedState.dev.setFld FWD_STATUS_recov rvJOINING }

/-- Refutes O47, for its sixth clause alone (RECOV_KEY_LOAD): the device that enters TUNNEL starts recovery node mode, and the clause
leaves TS_RECOV no change. -/
theorem not_quoteDeriveMeasure : ¬ Obligations.QuoteDeriveMeasure := by
  unfold Obligations.QuoteDeriveMeasure
  rintro ⟨-, -, -, -, -, hload, -⟩
  have hserving : Serving joiningState := ⟨rfl, by decide, by decide, rfl⟩
  obtain ⟨t, hx, hactive⟩ := recovKeyLoad_joining (arg := zeros 64) hserving (by decide) (Dev.fld_setFld_same _ _ _ (by decide))
  obtain ⟨u, hu, hframe, -⟩ := hload (zeros 64) none joiningState hserving rfl rfl (by decide)
  cases hx.symm.trans hu
  rw [Dev.bit, Dev.fld, hframe.regs TS_RECOV (by decide)] at hactive
  exact absurd hactive (by decide)

end Sys2Proof.Machine
end

section
/-! PROOF. A tamper source in service and during a test slice (12_keys_and_frame_security.md R367, R368; 15_resilience.md R428). -/

namespace Sys2Proof.Machine

/-- A command that the Kettle answers and that burns no fuse. -/
theorem completes_of_onKettleF {c : Instr} {s : State} {g : Fuses → Dev → Fuses × Dev} {d : Dev} {ps : List Part} {rs : Nat → Bool}
    {P : State → Prop} (hc : exec c s = s.onKettleF g) (hg : g s.fuses s.dev = (s.fuses, d)) (hk : Keeps ps rs s.dev d)
    (hP : P { s with dev := d }) : Completes c s ps rs P :=
  ⟨{ s with dev := d }, by rw [hc, State.onKettleF, hg], ⟨rfl, rfl, hk.parts, hk.regs⟩, hP⟩

theorem tamperSeen_atOnce {f : Fuses} {d : Dev} {source live : Nat} (hup : d.inReset = false) (hstage : 2 ≤ d.stage)
    (hgate : d.res.gate.mismatch = none) (hen : tamperEnabled f source = true) :
    tamperSeen source live f d = tamperRespond f (d.setFld SEC_TAMPER_STATUS_live live) source 1 1 := by
  simp [tamperSeen, tamperEvent, hgate, hen, hup, tamperState_serving hup hstage]

/-- The status register with the inputs as they are and a source latched. -/
def tamperLatched (d : Dev) (source live : Nat) : Dev :=
  (d.setFld SEC_TAMPER_STATUS_live live).setReg SEC_TAMPER_STATUS
    ((d.setFld SEC_TAMPER_STATUS_live live).reg SEC_TAMPER_STATUS ||| BitVec.ofNat 32 (2 ^ source))

theorem tamperLatched_keeps {ps : List Part} {rs : Nat → Bool} {d : Dev} (h : rs SEC_TAMPER_STATUS = true) (source live : Nat) :
    Keeps ps rs d (tamperLatched d source live) := ((Keeps.refl d).setFld h _).setReg h _

theorem getLsbD_or_pow {w : Word} {k : Nat} (h : k < 32) : (w ||| BitVec.ofNat 32 (2 ^ k)).getLsbD k = true := by
  rw [BitVec.getLsbD_or, BitVec.getLsbD_ofNat]
  simp [h]

theorem tamperLatched_bit {source : Nat} (h : source < 32) (d : Dev) (live : Nat) :
    ((tamperLatched d source live).reg SEC_TAMPER_STATUS).getLsbD source = true := by
  rw [tamperLatched, Dev.reg_setReg_same]
  exact getLsbD_or_pow h

theorem tamperEnabled_lt {f : Fuses} {source : Nat} (h : tamperEnabled f source = true) : source < 8 := by
  rw [tamperEnabled, Bool.and_eq_true] at h
  exact of_decide_eq_true h.1

/-! ### A source that only logs -/

/-- The registers and the parts that a logged source changes. -/
def tamperRegs (a : Nat) : Bool := a == SEC_TAMPER_STATUS || a == RES_JRNL_NEWEST || decide (0xF09000 ≤ a)

/-- A logged source: the status, the log, the outputs cleared, the event. -/
def tamperLogged (d : Dev) (source live : Nat) : Dev := raise (tamperSeenDev (d.setFld SEC_TAMPER_STATUS_live live) source 1) 179 source 0

theorem tamperLogged_keeps (d : Dev) (source live : Nat) :
    Keeps [.vault, .tel, .outs, .jrnl] tamperRegs d (tamperLogged d source live) :=
  (tamperSeenDev_keeps ((Keeps.refl d).setFld (by decide) live) (by simp) (by decide) source 1).noted (noted_raise _ _ _ _)
    (by simp [noteParts]) (by simp +contextual [noteRegs, tamperRegs, or_imp])

theorem tamperLogged_log (d : Dev) (source live : Nat) :
    (tamperLogged d source live).vault.tlog = (⟨d.ktl.sec % 2 ^ 32, d.vault.tseq, source, 1, 0⟩ :: d.vault.tlog).take 64 := by
  rw [tamperLogged, raise_vault]
  rfl

theorem tamperLogged_slots (d : Dev) (source live : Nat) : (tamperLogged d source live).vault.slots = d.vault.slots := by
  rw [tamperLogged, raise_vault]
  rfl

theorem tamperLogged_bit {source : Nat} (h : source < 32) (d : Dev) (live : Nat) :
    ((tamperLogged d source live).reg SEC_TAMPER_STATUS).getLsbD source = true := by
  rw [tamperLogged, raise_reg _ _ _ _ _ (by decide)]
  exact tamperLatched_bit h d live

theorem tamperSeen_logs {f : Fuses} {d : Dev} {source live : Nat} (hup : d.inReset = false) (hstage : 2 ≤ d.stage)
    (hgate : d.res.gate.mismatch = none) (hen : tamperEnabled f source = true) (hlog : nbit f.tamper source = false) :
    tamperSeen source live f d = (f, tamperLogged d source live) := by
  rw [tamperSeen_atOnce hup hstage hgate hen, tamperRespond_logs hlog, tamperLogged]

/-- The two monitors' trips are their sources, with core power. -/
theorem monitorTrip_completes {c : Instr} {source live : Nat} {s : State} (hc : exec c s = s.onFuses (monitorTrip source live))
    (hup : s.dev.inReset = false) (hstage : 2 ≤ s.dev.stage) (hgate : s.dev.res.gate.mismatch = none)
    (hen : tamperEnabled s.fuses source = true) (hlog : nbit s.fuses.tamper source = false) :
    Completes c s [.vault, .tel, .outs, .jrnl] tamperRegs fun t =>
      t.dev.vault.tlog = (⟨s.dev.ktl.sec % 2 ^ 32, s.dev.vault.tseq, source, 1, 0⟩ :: s.dev.vault.tlog).take 64 ∧
      (t.dev.reg SEC_TAMPER_STATUS).getLsbD source = true := by
  have hlt := tamperEnabled_lt hen
  refine completes_of_onFuses_eq hc hup ?_ (tamperLogged_keeps s.dev source live)
    ⟨tamperLogged_log s.dev source live, tamperLogged_bit (by omega) s.dev live⟩
  rw [monitorTrip, hup, if_neg Bool.false_ne_true, tamperSeen_logs hup hstage hgate hen hlog]

theorem tamperEvent_completes {source live : Nat} {s : State} (hup : s.dev.inReset = false) (hstage : 2 ≤ s.dev.stage)
    (hgate : s.dev.res.gate.mismatch = none) (hen : tamperEnabled s.fuses source = true) (hlog : nbit s.fuses.tamper source = false) :
    Completes (.tamperEvent source live) s [.vault, .tel, .outs, .jrnl] tamperRegs fun t =>
      t.dev.vault.tlog = (⟨s.dev.ktl.sec % 2 ^ 32, s.dev.vault.tseq, source, 1, 0⟩ :: s.dev.vault.tlog).take 64 ∧
      t.dev.vault.slots = s.dev.vault.slots ∧ (t.dev.reg SEC_TAMPER_STATUS).getLsbD source = true := by
  have hlt := tamperEnabled_lt hen
  exact completes_of_onKettleF (g := tamperSeen source live) rfl (tamperSeen_logs hup hstage hgate hen hlog)
    (tamperLogged_keeps s.dev source live)
    ⟨tamperLogged_log s.dev source live, tamperLogged_slots s.dev source live, tamperLogged_bit (by omega) s.dev live⟩

/-! ### A source that zeroises -/

theorem sealVault_vault (f : Fuses) (d : Dev) :
    (sealVault f d).vault = { d.vault with sealing := (sealVault f d).vault.sealing, sealAgain := (sealVault f d).vault.sealAgain } := by
  unfold sealVault
  dsimp only
  split <;> rfl

/-- A zeroised vault keeps slot 0 alone and no key derived; what holds it stays. -/
theorem zeroiseVault_powered (f : Fuses) (d : Dev) :
    (zeroiseVault true f d).1 = f.addEpoch ∧ (zeroiseVault true f d).2.vault.slots = d.vault.slots.filter (·.1 == 0) ∧
      (zeroiseVault true f d).2.vault.hold = d.vault.hold ∧ (zeroiseVault true f d).2.vault.shadow = [] ∧
      (zeroiseVault true f d).2.vault.cache = [] := by
  unfold zeroiseVault
  dsimp only
  rw [if_pos rfl]
  refine ⟨rfl, ?_⟩
  dsimp only
  rw [sealVault_vault]
  split <;> exact ⟨rfl, rfl, rfl, rfl⟩

theorem tamperEvent_zeroises {source live : Nat} {s : State} (hup : s.dev.inReset = false) (hstage : 2 ≤ s.dev.stage)
    (hgate : s.dev.res.gate.mismatch = none) (hen : tamperEnabled s.fuses source = true) (hz : nbit s.fuses.tamper source = true) :
    ∃ t, exec (.tamperEvent source live) s = .next t ∧ t.pending = s.pending ∧ t.fuses = s.fuses.addEpoch ∧
      t.dev.vault.slots = s.dev.vault.slots.filter (·.1 == 0) ∧ t.dev.vault.hold = true ∧ t.dev.vault.shadow = [] ∧ t.dev.vault.cache = [] := by
  have hx : exec (.tamperEvent source live) s = s.onKettleF (tamperSeen source live) := rfl
  rw [State.onKettleF, tamperSeen_atOnce hup hstage hgate hen, tamperRespond] at hx
  simp only [hz, Nat.reduceEqDiff, if_false, if_true, Nat.one_ne_zero] at hx
  obtain ⟨hf, hslots, hhold, hshadow, hcache⟩ := zeroiseVault_powered s.fuses _
  refine ⟨_, hx, rfl, hf, hslots.trans ?_, hhold, hshadow, hcache⟩
  simp only [raise_vault]
  rfl

/-! ### A source during a test slice -/

/-- A source latched, its response noted for the slice's end. -/
def tamperWaiting (d : Dev) (source live : Nat) : Dev :=
  let d1 := tamperLatched d source live
  { d1 with res := { d1.res with gate := { d1.res.gate with tampers := d1.res.gate.tampers ++ [source] } } }

theorem tamperWaiting_res (d : Dev) (source live : Nat) : (tamperWaiting d source live).res =
    { d.res with gate := { d.res.gate with tampers := d.res.gate.tampers ++ [source] } } := rfl

theorem tamperWaiting_keeps (d : Dev) (source live : Nat) : Keeps [.res] (fun a => a == SEC_TAMPER_STATUS) d (tamperWaiting d source live) :=
  (tamperLatched_keeps rfl source live).res (by simp) _

theorem tamperSeen_waits {f : Fuses} {d : Dev} {source live : Nat} {x : Mismatch} (hup : d.inReset = false)
    (hgate : d.res.gate.mismatch = some x) (hen : tamperEnabled f source = true) :
    tamperSeen source live f d = (f, tamperWaiting d source live) := by
  rw [tamperSeen, if_neg (by simp [hup, hgate, hen])]
  rfl

theorem tamperEvent_waits {source live : Nat} {x : Mismatch} {s : State} (hup : s.dev.inReset = false)
    (hgate : s.dev.res.gate.mismatch = some x) (hen : tamperEnabled s.fuses source = true) :
    Completes (.tamperEvent source live) s [.res] (fun a => a == SEC_TAMPER_STATUS) fun t =>
      (t.dev.reg SEC_TAMPER_STATUS).getLsbD source = true ∧
      t.dev.res = { s.dev.res with gate := { s.dev.res.gate with tampers := s.dev.res.gate.tampers ++ [source] } } := by
  have hlt := tamperEnabled_lt hen
  exact completes_of_onKettleF (g := tamperSeen source live) rfl (tamperSeen_waits hup hgate hen) (tamperWaiting_keeps s.dev source live)
    ⟨tamperLatched_bit (show source < 32 by omega) s.dev live, tamperWaiting_res s.dev source live⟩

/-- Settles O16: in service a source answers at once, by its policy bit; during a test slice it latches and waits. -/
theorem tamperEvents : Obligations.TamperEvents := by
  unfold Obligations.TamperEvents
  exact ⟨fun live s => monitorTrip_completes rfl, fun live s => monitorTrip_completes rfl, fun source live s => tamperEvent_completes,
    fun source live s => tamperEvent_zeroises, fun source live x s => tamperEvent_waits⟩

end Sys2Proof.Machine
end

section
/-! PROOF. The burns and the start sequence at the release of POR_N (12_keys_and_frame_security.md R331, R339; 14_start_and_self_update.md
R392 to R397). -/

namespace Sys2Proof.Machine

/-! ### Burns -/

/-- What completing burns and applying repairs changes of the device. -/
def burnParts : List Part := [.vault, .res, .dsp, .tim, .tel, .jrnl, .outs]

theorem sealVault_keepsAny {ps : List Part} {rs : Nat → Bool} {d e : Dev} (h : Keeps ps rs d e) (hv : Part.vault ∈ ps) (f : Fuses) :
    Keeps ps rs d (sealVault f e) := by
  unfold sealVault
  dsimp only
  split <;> exact h.vault hv _

theorem zeroiseVault_keepsAny {ps : List Part} {rs : Nat → Bool} {d e : Dev} (h : Keeps ps rs d e) (hv : Part.vault ∈ ps) (f : Fuses)
    (powered : Bool) : Keeps ps rs d (zeroiseVault powered f e).2 := by
  have hkeys : Keeps ps rs d (zeroiseKeys { e with vault := { e.vault with slots := e.vault.slots.filter (·.1 == 0) } }) :=
    (h.vault hv _).vault hv _
  unfold zeroiseVault
  dsimp only
  split
  · exact sealVault_keepsAny (Keeps.ite (hkeys.vault hv _) hkeys) hv _
  · exact Keeps.ite (hkeys.vault hv _) hkeys

theorem enterLc_keeps {ps : List Part} {rs : Nat → Bool} {d e : Dev} (h : Keeps ps rs d e) (hv : Part.vault ∈ ps)
    (hs : rs SEC_STATUS = true) (code : Nat) (f : Fuses) : Keeps ps rs d (enterLc code f e).2 := by
  unfold enterLc
  dsimp only
  split
  · exact ((zeroiseVault_keepsAny h hv _ true).vault hv _).setFld hs _
  · exact h.setFld hs _

theorem evCommit_keeps {ps : List Part} {rs : Nat → Bool} {d e : Dev} (h : Keeps ps rs d e) (hv : Part.vault ∈ ps)
    (hnote : noteParts ⊆ ps) (hr : ∀ a, noteRegs a = true → rs a = true) (hcnt : rs SEC_CNT_ENV = true) (f : Fuses) (origin counter : Nat) :
    Keeps ps rs d (evCommit f e origin counter) :=
  sealVault_keepsAny (((h.vault hv _).noted (noted_jNote _ _ _ _ _ _ _ _ _) hnote hr).inc hcnt) hv f

theorem ownerCommit_keeps {ps : List Part} {rs : Nat → Bool} {d e : Dev} (h : Keeps ps rs d e) (hv : Part.vault ∈ ps)
    (hnote : noteParts ⊆ ps) (hr : ∀ a, noteRegs a = true → rs a = true) (hcnt : rs SEC_CNT_ENV = true) (origin counter : Nat)
    (key : List Byte) (f : Fuses) : Keeps ps rs d (ownerCommit origin counter key f e).2 :=
  evCommit_keeps ((h.vault hv _).vault hv _) hv hnote hr hcnt _ _ _

theorem enterLc_fuses (code : Nat) (f : Fuses) (d : Dev) :
    (enterLc code f d).1.lc = code ∧ (enterLc code f d).1.rollback = f.rollback ∧ (enterLc code f d).1.pend = f.pend := by
  unfold enterLc
  dsimp only
  split <;> exact ⟨rfl, rfl, rfl⟩

/-- Burns completed: the life cycle and the rollback count no lower, the burns to complete the same, the device as it was elsewhere. -/
structure Burnt (s t : Fuses × Dev) : Prop where
  lc : s.1.lc ≤ t.1.lc
  rollback : s.1.rollback ≤ t.1.rollback
  pend : t.1.pend = s.1.pend
  keeps : Keeps burnParts anyReg s.2 t.2

theorem Burnt.refl (s : Fuses × Dev) : Burnt s s := ⟨le_rfl, le_rfl, rfl, Keeps.refl _⟩

theorem Burnt.trans {s t u : Fuses × Dev} (h : Burnt s t) (g : Burnt t u) : Burnt s u :=
  ⟨h.lc.trans g.lc, h.rollback.trans g.rollback, g.pend.trans h.pend, h.keeps.trans g.keeps⟩

theorem addOwner_fields (f : Fuses) (dg : List Byte) :
    (f.addOwner dg).lc = f.lc ∧ (f.addOwner dg).rollback = f.rollback ∧ (f.addOwner dg).pend = f.pend := by
  unfold Fuses.addOwner
  split <;> exact ⟨rfl, rfl, rfl⟩

theorem addRepair_fields (f : Fuses) (w : Nat) :
    (f.addRepair w).lc = f.lc ∧ (f.addRepair w).rollback = f.rollback ∧ (f.addRepair w).pend = f.pend := by
  unfold Fuses.addRepair
  split <;> exact ⟨rfl, rfl, rfl⟩

theorem noteParts_burnParts : noteParts ⊆ burnParts := by simp [noteParts, burnParts]

theorem completeBurn_burnt (s : Fuses × Dev) (b : Burn) : Burnt s (completeBurn s b) := by
  obtain ⟨f, d⟩ := s
  cases b with
  | lifecycle c =>
    simp only [completeBurn]
    split
    · rename_i hc
      obtain ⟨hlc, hrb, hpend⟩ := enterLc_fuses c f d
      exact ⟨hlc.symm ▸ hc.le, hrb.ge, hpend, enterLc_keeps (Keeps.refl d) (by decide) rfl c f⟩
    · exact Burnt.refl _
  | owner dg =>
    simp only [completeBurn]
    split
    · rename_i k c _
      obtain ⟨hlc, hrb, hpend⟩ := addOwner_fields f (Config.sha384 (k.take 49))
      exact ⟨hlc.ge, hrb.ge, hpend, ownerCommit_keeps (Keeps.refl d) (by decide) noteParts_burnParts (fun _ _ => rfl) rfl 4 c k f⟩
    · obtain ⟨hlc, hrb, hpend⟩ := addOwner_fields f dg
      exact ⟨hlc.ge, hrb.ge, hpend, Keeps.refl d⟩
  | epoch => exact ⟨le_rfl, le_rfl, rfl, Keeps.refl d⟩
  | rollback n => exact ⟨le_rfl, le_max_left _ _, rfl, Keeps.refl d⟩
  | repair w =>
    obtain ⟨hlc, hrb, hpend⟩ := addRepair_fields f w
    exact ⟨hlc.ge, hrb.ge, hpend, (Keeps.refl d).res (by decide) _⟩

theorem completeBurn_lifecycle (s : Fuses × Dev) (c : Nat) : c ≤ (completeBurn s (.lifecycle c)).1.lc := by
  simp only [completeBurn]
  split
  · exact (enterLc_fuses c s.1 s.2).1.ge
  · omega

theorem foldl_burnt (l : List Burn) (s : Fuses × Dev) : Burnt s (l.foldl completeBurn s) := by
  induction l generalizing s with
  | nil => exact Burnt.refl s
  | cons b l ih => exact (completeBurn_burnt s b).trans (ih _)

/-- What one burn reaches, and later burns keep, is reached when the burn is one of those to complete. -/
theorem foldl_reaches {l : List Burn} {b : Burn} (hb : b ∈ l) {Q : Fuses × Dev → Prop} (hq : ∀ s, Q (completeBurn s b))
    (hkeep : ∀ s t, Burnt s t → Q s → Q t) (s : Fuses × Dev) : Q (l.foldl completeBurn s) := by
  induction l generalizing s with
  | nil => cases hb
  | cons x l ih =>
    rcases List.mem_cons.mp hb with rfl | hb
    · exact hkeep _ _ (foldl_burnt l _) (hq s)
    · exact ih hb _

/-- The burns to complete in the order in which they are completed. -/
def burnOrder (l : List Burn) : List Burn :=
  let isEpoch (b : Burn) : Bool := match b with
    | .epoch => true
    | _ => false
  l.filter isEpoch ++ l.filter fun b => !isEpoch b

theorem mem_burnOrder {l : List Burn} {b : Burn} (h : b ∈ l) : b ∈ burnOrder l := by
  unfold burnOrder
  extract_lets isEpoch
  rw [List.mem_append, List.mem_filter, List.mem_filter]
  cases hb : isEpoch b
  · exact .inr ⟨h, rfl⟩
  · exact .inl ⟨h, rfl⟩

theorem completeBurns_eq (f : Fuses) (d : Dev) :
    completeBurns f d = ((((burnOrder f.pend).foldl completeBurn ({ f with pend := [] }, d)).1.addRollback
      (confNow ((burnOrder f.pend).foldl completeBurn ({ f with pend := [] }, d)).2).rbTarget),
      ((burnOrder f.pend).foldl completeBurn ({ f with pend := [] }, d)).2) := rfl

theorem confNow_congr {d e : Dev} (h : e.boot.conf = d.boot.conf) : confNow e = confNow d := by simp only [confNow, confRec, h]

/-- Every burn is completed, and the rollback count that the record in force asks for is burnt. -/
theorem completeBurns_reach (f : Fuses) (d : Dev) :
    (completeBurns f d).1.pend = [] ∧ (∀ c, Burn.lifecycle c ∈ f.pend → c ≤ (completeBurns f d).1.lc) ∧
      (∀ n, Burn.rollback n ∈ f.pend → min n 64 ≤ (completeBurns f d).1.rollback) ∧
      min (confNow d).rbTarget 64 ≤ (completeBurns f d).1.rollback ∧ Keeps burnParts anyReg d (completeBurns f d).2 := by
  rw [completeBurns_eq]
  have hall := foldl_burnt (burnOrder f.pend) ({ f with pend := [] }, d)
  refine ⟨hall.pend, fun c hc => ?_, fun n hn => le_max_of_le_left ?_, ?_, hall.keeps⟩
  · exact foldl_reaches (mem_burnOrder hc) (Q := fun s => c ≤ s.1.lc) (fun s => completeBurn_lifecycle s c) (fun _ _ h => h.lc.trans') _
  · exact foldl_reaches (mem_burnOrder hn) (Q := fun s => min n 64 ≤ s.1.rollback) (fun s => le_max_right _ _)
      (fun _ _ h => h.rollback.trans') _
  · rw [confNow_congr (congrArg Boot.conf (hall.keeps.parts .boot (by decide)))]
    exact le_max_right _ _

/-! ### Repairs -/

theorem applyRepair_keeps (d : Dev) (r : Repair) : Keeps burnParts anyReg d (applyRepair d r) := by
  have h := Keeps.refl (ps := burnParts) (rs := anyReg) d
  unfold applyRepair
  refine Keeps.ite (h.res (by decide) _) (Keeps.ite (h.setEngine (by decide) _ _) (Keeps.ite (h.res (by decide) _) (Keeps.ite ?_
    (Keeps.ite (h.vault (by decide) _) h))))
  exact Keeps.tim (Keeps.ite (h.tim (by decide) _) ((h.tim (by decide) _).tim (by decide) _)) (by decide) _

theorem applyRepairs_keeps (f : Fuses) (d : Dev) : Keeps burnParts anyReg d (applyRepairs f d) := by
  have hraise : ∀ b : Dev, Keeps burnParts anyReg b (raise b 227 0 0) := fun b =>
    (Keeps.refl b).noted (noted_raise _ _ _ _) noteParts_burnParts fun _ _ => rfl
  unfold applyRepairs
  exact ((Keeps.refl d).foldl (fun b w => Keeps.ite (Keeps.refl b) (Keeps.ite (applyRepair_keeps b _) (hraise b))) _).trans
    ((Keeps.refl _).foldl applyRepair_keeps _)

end Sys2Proof.Machine
end

section
/-! PROOF. What the start sequence keeps (12_keys_and_frame_security.md R369; 14_start_and_self_update.md R392 to R397, R485). -/

namespace Sys2Proof.Machine

/-! ### The core stays out of reset -/

theorem foldl_inReset {α : Type} {g : Dev → α → Dev} (hg : ∀ x a, (g x a).inReset = x.inReset) (l : List α) (d : Dev) :
    (l.foldl g d).inReset = d.inReset :=
  List.foldlRecOn (motive := fun x => x.inReset = d.inReset) l g rfl fun x h a _ => (hg x a).trans h

theorem setRegs_inReset {α : Type} (l : List α) (a : α → Nat) (v : α → Word) (d : Dev) :
    (l.foldl (fun x e => x.setReg (a e) (v e)) d).inReset = d.inReset := foldl_inReset (g := fun x e => x.setReg (a e) (v e)) (fun _ _ => rfl) l d

theorem setRegs64_inReset {α : Type} (l : List α) (a v : α → Nat) (d : Dev) :
    (l.foldl (fun x e => x.setReg64 (a e) (v e)) d).inReset = d.inReset := foldl_inReset (g := fun x e => x.setReg64 (a e) (v e)) (fun _ _ => rfl) l d

theorem markBads_inReset {α : Type} (l : List α) (a : α → Nat) (d : Dev) :
    (l.foldl (fun x e => markBad x (a e)) d).inReset = d.inReset :=
  foldl_inReset (fun x e => (markBad_keeps x (a e)).parts .inReset (by decide)) l d

theorem startMeters_inReset (d : Dev) : (startMeters d).inReset = d.inReset := by
  unfold startMeters
  split <;> rfl

theorem chooseVault_inReset (f : Fuses) (d : Dev) : (chooseVault f d).inReset = d.inReset := by
  unfold chooseVault
  simp only [setRegs_inReset, markBads_inReset]
  split
  · split <;> rfl
  · rfl

theorem startTime_inReset (d : Dev) : (startTime d).inReset = d.inReset := by
  unfold startTime
  dsimp only
  split
  · split <;> rfl
  · rfl

theorem summaryStart_inReset (b : List Byte) (d : Dev) : (summaryStart b d).inReset = d.inReset := by
  have hlong : ∀ x p, (longOutage b x p).inReset = x.inReset := fun x p => by
    unfold longOutage
    split
    · exact raise_inReset _ _ _ _
    · rfl
  have hports : ∀ x p, (portEnable x p).inReset = x.inReset := fun x p => (portEnable_keeps x p).parts .inReset (by decide)
  simp only [summaryStart, foldl_inReset hlong, Dev.setCaddy, foldl_inReset hports, setRegs64_inReset]

theorem stageReached_inReset (d : Dev) (n time : Nat) : (stageReached d n time).inReset = d.inReset := by
  rw [stageReached, Dev.setReg_inReset, Dev.setFld_inReset]

theorem firstStart_inReset (d : Dev) : (firstStart d).inReset = d.inReset := by
  simp only [firstStart, apply_ite Dev.inReset, stageReached_inReset, summaryStart_inReset, Dev.setBit_inReset, startTime_inReset, ite_self]

theorem lockAlarm_inReset (d : Dev) : (lockAlarm d).inReset = d.inReset := by
  unfold lockAlarm
  split
  · rfl
  · exact raise_inReset _ _ _ _

theorem startJournal_inReset (d : Dev) : (startJournal d).inReset = d.inReset := by
  have hclose : ∀ (l : List Nat) (cause : Nat) (x : Dev), (l.foldl (fun b s => jClose b s jINTERRUPTED cause) x).inReset = x.inReset :=
    fun l _ => foldl_inReset (fun _ _ => jUpdate_inReset _ _ _) l
  unfold startJournal
  dsimp only
  split <;> simp only [Dev.setReg_inReset, Dev.setBit_inReset, hclose, apply_ite Dev.inReset, ite_self]

theorem showIdentity_inReset (f : Fuses) (d : Dev) : (showIdentity f d).inReset = d.inReset := by
  simp only [showIdentity, setRegs_inReset, Dev.setFld_inReset]

theorem showStart_inReset (f : Fuses) (d : Dev) : (showStart f d).inReset = d.inReset := showIdentity_inReset f d

/-! ### The boot chain -/

/-- The core is as far out of reset, started and held as it was. -/
structure Steady (d e : Dev) : Prop where
  up : e.inReset = d.inReset
  started : e.boot.started = d.boot.started
  hold : e.vault.hold = d.vault.hold

theorem Steady.refl (d : Dev) : Steady d d := ⟨rfl, rfl, rfl⟩

theorem Steady.trans {d e f : Dev} (h : Steady d e) (g : Steady e f) : Steady d f :=
  ⟨g.up.trans h.up, g.started.trans h.started, g.hold.trans h.hold⟩

theorem Steady.ite {d e f : Dev} {c : Prop} [Decidable c] (he : Steady d e) (hf : Steady d f) : Steady d (if c then e else f) := by
  split
  · exact he
  · exact hf

theorem Obtained.steady {d e : Dev} (h : Obtained d e) : Steady d e :=
  ⟨h.keeps.parts .inReset (by decide), congrArg Boot.started (h.keeps.parts .boot (by decide)), by rw [h.vault]⟩

theorem raise_steady (d : Dev) (s unit detail : Nat) : Steady d (raise d s unit detail) :=
  ⟨raise_inReset _ _ _ _, by rw [raise_boot], by rw [raise_vault]⟩

theorem writeConf_steady (d : Dev) (r : ConfRec) : Steady d (writeConf d r) := ⟨rfl, rfl, rfl⟩

theorem obtained_bundleVerdict (f : Fuses) (d : Dev) (b : List Byte) : Obtained d (bundleVerdict f d b).2 := by
  have huse := obtained_useSlot f d (bnKey b) 42 3 none none
  have hite : ∀ (c : Prop) [Decidable c] (x y : Nat × Dev), Obtained d x.2 → Obtained d y.2 → Obtained d (if c then x else y).2 :=
    fun c _ x y hx hy => by split <;> assumption
  unfold bundleVerdict
  dsimp only
  exact hite _ _ _ (Obtained.refl d) (hite _ _ _ huse (hite _ _ _ huse (hite _ _ _ huse (hite _ _ _ huse (hite _ _ _ huse huse)))))

theorem advanceCopy_steady (d : Dev) (a : Activation) (src dst : Nat) (b : Option Nat) : Steady d (advanceCopy d a src dst b).1 := by
  have hcopy : ∀ (l : List Nat) (x : Dev), Steady x (l.foldl (copyBlock src dst) x) := fun l x =>
    List.foldlRecOn (motive := Steady x) l _ (Steady.refl x) fun _ h _ _ => h.trans ⟨rfl, rfl, rfl⟩
  unfold advanceCopy
  dsimp only
  exact (hcopy _ d).trans ⟨jUpdate_inReset _ _ _, by rw [jUpdate_boot], by rw [jUpdate_vault]⟩

theorem setAct_steady {d e : Dev} (h : Steady d e) (a : Option Activation) : Steady d (setAct e a) := h.trans ⟨rfl, rfl, rfl⟩

theorem activateLast_steady (d : Dev) (a : Activation) (b : Option Nat) : Steady d (activateLast d a b).1 := by
  unfold activateLast
  extract_lets d1 a1
  have h1 : Steady d d1 := Steady.ite (writeConf_steady d _) (Steady.refl d)
  have h2 := h1.trans (advanceCopy_steady d1 a1 1 0 b)
  dsimp only
  split <;> exact setAct_steady h2 _

theorem activateOn_steady (d : Dev) (b : Option Nat) : Steady d (activateOn d b).1 := by
  unfold activateOn
  split
  · exact Steady.refl d
  · rename_i a _
    have h1 := advanceCopy_steady d a 0 2 b
    dsimp only
    split
    · split
      · exact h1.trans (activateLast_steady _ _ _)
      · exact setAct_steady h1 _
    · exact activateLast_steady d a b

theorem bootArea_steady (f : Fuses) (d : Dev) (k : Nat) : Steady d (bootArea f d k) := ⟨rfl, rfl, rfl⟩

theorem bootPrevious_steady (f : Fuses) (d : Dev) : Steady d (bootPrevious f d) := by
  have h := (obtained_bundleVerdict f d (bundleArea d 2)).steady
  unfold bootPrevious
  dsimp only
  exact Steady.ite (h.trans (bootArea_steady _ _ _)) (h.trans ⟨rfl, rfl, rfl⟩)

theorem bootChoose_steady (f : Fuses) (d : Dev) : Steady d (bootChoose f d) := by
  unfold bootChoose
  extract_lets d1 r d2
  refine Steady.ite ⟨rfl, rfl, rfl⟩ ?_
  have h1 : Steady d d1 := (activateOn_steady d none).trans ⟨rfl, rfl, rfl⟩
  have h2 : Steady d d2 := Steady.ite (Steady.ite (h1.trans (writeConf_steady _ _)) (h1.trans (writeConf_steady _ _))) h1
  have h3 := h2.trans (obtained_bundleVerdict f d2 (bundleArea d2 0)).steady
  dsimp only
  exact Steady.ite (h2.trans (bootPrevious_steady f d2)) (Steady.ite (h3.trans (bootArea_steady _ _ _))
    (Steady.ite (h3.trans ((writeConf_steady _ _).trans (bootPrevious_steady f _))) (h3.trans ((raise_steady _ _ _ _).trans (bootPrevious_steady f _)))))

theorem bootChain_steady (f : Fuses) (d : Dev) : Steady d (bootChain f d) := (bootChoose_steady f d).trans ⟨rfl, rfl, rfl⟩

/-! ### The release of POR_N -/

theorem trngFail_steady (d : Dev) : Steady d (trngFail d) :=
  Steady.trans (e := { d with vault := { d.vault with passes := 0 } }.setBit SEC_STATUS_trng_fail true) ⟨rfl, rfl, rfl⟩ (raise_steady _ _ _ _)

theorem startComplexes_steady (d : Dev) (ccA : Bool) : Steady d (startComplexes d ccA) := by
  unfold startComplexes
  exact Steady.ite ⟨rfl, rfl, rfl⟩ ⟨rfl, rfl, rfl⟩

/-- The device as the start sequence finds it. -/
def porBegun (f : Fuses) (d : Dev) : Dev :=
  applyRepairs f { coreReset d with inReset := false, hc := { (coreReset d).hc with lock := f.lock } }

/-- The device as the boot chain finds it. -/
def porShown (ccA trng : Bool) (f : Fuses) (d : Dev) : Dev :=
  let d1 := extend (chooseVault f (startMeters d)) 4 (m4Item f)
  let d2 := startComplexes (showStart f (startJournal (lockAlarm (firstStart d1)))) ccA
  if trng then d2 else trngFail d2

theorem porStart_eq (ccA trng : Bool) (f : Fuses) (d : Dev) : porStart ccA trng f d =
    ((completeBurns f (porBegun f d)).1,
      bootChain (completeBurns f (porBegun f d)).1 (porShown ccA trng (completeBurns f (porBegun f d)).1 (completeBurns f (porBegun f d)).2)) := rfl

theorem extend_inReset (d : Dev) (i : Nat) (item : List Byte) : (extend d i item).inReset = d.inReset := rfl

theorem porShown_started (ccA trng : Bool) (f : Fuses) (d : Dev) :
    (porShown ccA trng f d).inReset = d.inReset ∧ (porShown ccA trng f d).boot.started = true := by
  unfold porShown
  extract_lets d1 d2
  have h2 : Steady (showStart f (startJournal (lockAlarm (firstStart d1)))) d2 := startComplexes_steady _ ccA
  have h : Steady (showStart f (startJournal (lockAlarm (firstStart d1)))) (if trng then d2 else trngFail d2) :=
    Steady.ite h2 (h2.trans (trngFail_steady d2))
  refine ⟨h.up.trans ?_, h.started⟩
  simp only [showStart_inReset, startJournal_inReset, lockAlarm_inReset, firstStart_inReset, d1, extend_inReset, chooseVault_inReset,
    startMeters_inReset]

/-- The start sequence completes the burns first, and ends with the device out of reset and started. -/
theorem porStart_reach (ccA trng : Bool) (f : Fuses) (d : Dev) :
    (porStart ccA trng f d).1 = (completeBurns f (porBegun f d)).1 ∧ (porStart ccA trng f d).2.inReset = false ∧
      (porStart ccA trng f d).2.boot.started = true := by
  have hbegun : (porBegun f d).inReset = false := (applyRepairs_keeps f _).parts .inReset (by decide)
  obtain ⟨-, -, -, -, hburns⟩ := completeBurns_reach f (porBegun f d)
  have hshown := porShown_started ccA trng (completeBurns f (porBegun f d)).1 (completeBurns f (porBegun f d)).2
  have hboot := bootChain_steady (completeBurns f (porBegun f d)).1
    (porShown ccA trng (completeBurns f (porBegun f d)).1 (completeBurns f (porBegun f d)).2)
  rw [porStart_eq]
  exact ⟨rfl, hboot.up.trans (hshown.1.trans ((hburns.parts .inReset (by decide)).trans hbegun)), hboot.started.trans hshown.2⟩

theorem porBegun_conf (f : Fuses) (d : Dev) : confNow (porBegun f d) = confNow d :=
  confNow_congr (Eq.trans (congrArg Boot.conf ((applyRepairs_keeps f
    { coreReset d with inReset := false, hc := { (coreReset d).hc with lock := f.lock } }).parts .boot (by decide))) rfl)

/-- Settles O15: the burns come first, and nothing after them touches a fuse or asserts POR_N. -/
theorem porReleaseStartsTheDevice : Obligations.PorReleaseStartsTheDevice := by
  unfold Obligations.PorReleaseStartsTheDevice
  intro ccA trng s hwhen
  have hx : exec (.porRelease ccA trng) s = s.onKettleF (porRelease ccA trng) := rfl
  have hstart : porRelease ccA trng s.fuses s.dev = porStart ccA trng s.fuses s.dev :=
    if_pos (by rcases hwhen with h | h <;> simp [h])
  rw [State.onKettleF, hstart] at hx
  obtain ⟨hfuses, hup, hstarted⟩ := porStart_reach ccA trng s.fuses s.dev
  obtain ⟨hpend, hlc, hrollback, hconf, -⟩ := completeBurns_reach s.fuses (porBegun s.fuses s.dev)
  rw [porBegun_conf] at hconf
  rw [← hfuses] at hpend hlc hrollback hconf
  exact ⟨_, hx, rfl, hpend, hlc, hrollback, hconf, hup, hstarted⟩

end Sys2Proof.Machine
end

section
/-! PROOF. Key Envelopes (12_keys_and_frame_security.md R347 to R349, R369, R372). -/

namespace Sys2Proof.Machine

theorem Tab.find_upd {α : Type} (t : Tab α) (k j : Nat) (g : α → α) :
    Tab.find (Tab.upd t k g) j = if j = k then (Tab.find t j).map g else Tab.find t j := by
  induction t with
  | nil => simp [Tab.upd]
  | cons e t ih =>
    obtain ⟨i, v⟩ := e
    rw [Tab.upd] at ih
    rw [Tab.upd, List.map_cons, Tab.find_cons]
    by_cases hik : i = k
    · rw [if_pos hik, Tab.find_cons, ih]
      by_cases hij : i = j
      · rw [if_pos hij, if_pos hij, if_pos (hij.symm.trans hik)]
        rfl
      · rw [if_neg hij, if_neg hij]
    · rw [if_neg hik, Tab.find_cons, ih]
      by_cases hij : i = j
      · rw [if_pos hij, if_pos hij, if_neg fun h => hik (hij.trans h)]
      · rw [if_neg hij, if_neg hij]

/-! ### The gate of ENVELOPE -/

theorem secMaster_mem {w : Sys2Proof.Who} {m : Nat} (h : secMaster w = some m) : m ∈ [31, 28, 29, 32] := by
  unfold secMaster at h
  split at h <;> cases h <;> decide

/-- Every master of Table KEY-13 may send an envelope, outside BLANK. -/
theorem secGate_envelope {f : Fuses} {d : Dev} {w : Sys2Proof.Who} {m : Nat} (hm : secMaster w = some m) (hlc : f.lc ≠ 0) :
    secGate f d 0x01 [31, 28, 29, 32] m = none := by
  have hin : ([31, 28, 29, 32] : List Nat).contains m = true := List.contains_iff_mem.mpr (secMaster_mem hm)
  rw [secGate, if_neg (by rw [hin]; decide), if_neg fun h => hlc h.1, if_neg fun h => h.2.1 rfl, if_neg fun h => h.2 rfl]

section
variable {f : Fuses} {d : Dev} {w : Sys2Proof.Who} {m : Nat} {e : List Byte} {tam : Option Nat} {cut : Bool}

theorem envelope_refused (hlc : f.lc ≠ 0) (hcalm : tam.filter (tamperEnabled f) = none) (hm : secMaster w = some m)
    (hdbg : debugClosed f w = false) (hbad : (evCheck f d e).1 ≠ scOK) :
    envelope w e tam cut f d = (f, (secEnd d w (evCheck f d e).1 []).inc SEC_CNT_ENV_refused) := by
  have hbody : evBody w e cut f d = ((evCheck f d e).1, [], f, d) := if_pos hbad
  have htaken : evTaken e tam f d = false := by simp [evTaken, hbad]
  rw [envelope, secRun_body hm hdbg (secGate_envelope hm hlc) hcalm rfl, hbody]
  simp only [hm, hdbg, htaken, Option.isSome_some, Bool.not_false, Bool.and_self, if_true]

theorem envelope_taken {p : List Byte} (hlc : f.lc ≠ 0) (hcalm : tam.filter (tamperEnabled f) = none) (hm : secMaster w = some m)
    (hdbg : debugClosed f w = false) (hok : evCheck f d e = (scOK, p)) :
    envelope w e tam cut f d =
      ((evApply (whoOrigin w) e p cut f d).1, secEnd (evApply (whoOrigin w) e p cut f d).2 w scOK []) := by
  have hbody : evBody w e cut f d = (scOK, [], (evApply (whoOrigin w) e p cut f d).1, (evApply (whoOrigin w) e p cut f d).2) := by
    rw [evBody, hok]
    rfl
  have htaken : evTaken e tam f d = true := by simp [evTaken, hok, hlc, hcalm]
  rw [envelope, secRun_body hm hdbg (secGate_envelope hm hlc) hcalm rfl, hbody]
  simp only [htaken, Bool.not_true, Bool.and_false, Bool.false_eq_true, if_false]

end

theorem secEnd_fld (d : Dev) (w : Sys2Proof.Who) (r : Nat) (out : List Byte) (x : Fld) : (secEnd d w r out).fld x = d.fld x := by
  simp only [Dev.fld, Dev.reg, secEnd_regs]

theorem secEnd_slot (d : Dev) (w : Sys2Proof.Who) (r : Nat) (out : List Byte) (i : Nat) : (secEnd d w r out).slot i = d.slot i := by
  rw [Dev.slot, secEnd_vault]
  rfl

/-- A register elsewhere changed, the answer stands. -/
theorem told_congr {d e : Dev} (hhif : e.hif = d.hif) (hv : e.vault = d.vault) (w : Sys2Proof.Who) (r : Nat) (out : List Byte) :
    told e w r out = told d w r out := by
  simp only [told, hhif, Dev.cmdSet, hv]

theorem envelopeRefused_completes {w : Sys2Proof.Who} {m : Nat} {e : List Byte} {tam : Option Nat} {cut : Bool} {s : State}
    (hup : s.dev.inReset = false) (hlc : s.fuses.lc ≠ 0) (hcalm : Calm s tam) (hm : secMaster w = some m)
    (hdbg : debugClosed s.fuses w = false) (hbad : (evCheck s.fuses s.dev e).1 ≠ scOK) :
    Completes (.envelope w e tam cut) s [.vault, .hif] (fun a => a == SEC_CNT_ENV) fun t =>
      told t.dev w (evCheck s.fuses s.dev e).1 [] = true ∧ t.dev.vault = { s.dev.vault with sets := t.dev.vault.sets } ∧
      t.dev.fld SEC_CNT_ENV_accepted = s.dev.fld SEC_CNT_ENV_accepted ∧
      t.dev.fld SEC_CNT_ENV_refused = min (s.dev.fld SEC_CNT_ENV_refused + 1) SEC_CNT_ENV_refused.max := by
  refine completes_of_onFuses_cut (g := envelope w e tam cut) rfl hup (envelope_refused hlc hcalm hm hdbg hbad)
    (((Keeps.refl _).secEnd (by simp) (by simp) _ _ _).inc rfl) ⟨?_, secEnd_vault _ _ _ _, ?_, ?_⟩
  · exact (told_congr rfl rfl w _ _).trans (told_secEnd hm _ _ _)
  · exact (Dev.fld_inc_other _ _ _ (by decide)).trans (secEnd_fld _ _ _ _ _)
  · refine (Dev.fld_inc_same _ _ (by decide)).trans ?_
    rw [secEnd_fld]

/-! ### What an accepted envelope commits -/

theorem evCommit_vault (f : Fuses) (d : Dev) (origin counter : Nat) : (evCommit f d origin counter).vault =
    { d.vault with envCtr := counter, sealing := (evCommit f d origin counter).vault.sealing,
                   sealAgain := (evCommit f d origin counter).vault.sealAgain } := by
  unfold evCommit
  dsimp only
  rw [sealVault_vault, Dev.inc_vault, jNote_vault]

theorem evCommit_slot (f : Fuses) (d : Dev) (origin counter i : Nat) : (evCommit f d origin counter).slot i = d.slot i := by
  rw [Dev.slot, evCommit_vault]
  rfl

theorem evCommit_envCtr (f : Fuses) (d : Dev) (origin counter : Nat) : (evCommit f d origin counter).vault.envCtr = counter := by
  rw [evCommit_vault]

theorem sealVault_fld (f : Fuses) (d : Dev) (x : Fld) : (sealVault f d).fld x = d.fld x := by
  unfold sealVault
  dsimp only
  split <;> rfl

theorem evCommit_fld (f : Fuses) (d : Dev) (origin counter : Nat) {x : Fld} (hx : x.reg < 0xF09000 ∧ x.reg ≠ RES_JRNL_NEWEST)
    (henv : x.reg ≠ SEC_CNT_ENV) : (evCommit f d origin counter).fld x = d.fld x := by
  unfold evCommit
  dsimp only
  rw [sealVault_fld, Dev.fld_inc_other _ _ _ (.inl henv), jNote_fld _ _ _ _ _ _ _ _ _ _ hx]
  rfl

theorem evCommit_accepted (f : Fuses) (d : Dev) (origin counter : Nat) :
    (evCommit f d origin counter).fld SEC_CNT_ENV_accepted = min (d.fld SEC_CNT_ENV_accepted + 1) SEC_CNT_ENV_accepted.max := by
  unfold evCommit
  dsimp only
  rw [sealVault_fld, Dev.fld_inc_same _ _ (by decide), jNote_fld _ _ _ _ _ _ _ _ _ _ (by decide)]
  rfl

/-- A slot's mark of KEK_INVALIDATE set or cleared. -/
def setMark (d : Dev) (i : Nat) (b : Bool) : Dev :=
  { d with vault := { d.vault with slots := Tab.upd d.vault.slots i fun x => { x with kekInvalid := b } } }

theorem setMark_slot (d : Dev) (i : Nat) (b : Bool) (j : Nat) :
    (setMark d i b).slot j = if j = i then (d.slot j).map fun x => { x with kekInvalid := b } else d.slot j := by
  simp only [Dev.slot, setMark, Tab.find_upd]

theorem putSlot_slot (f : Fuses) (d : Dev) (i attr : Nat) (bs : List Byte) (j : Nat) :
    (putSlot f d i attr bs).slot j = if j = i then some ⟨fit 64 bs, attr, slotTag f i attr (fit 64 bs), false, false⟩ else d.slot j :=
  Tab.find_put _ _ _ _

theorem clearDerived_slot (d : Dev) (i j : Nat) : (clearDerived d i).slot j = d.slot j := rfl

/-- The slot that an envelope of operation 1 or 2 puts: KEK_INVALIDATE's mark stays. -/
def evPut (f : Fuses) (e p : List Byte) (d : Dev) : Dev :=
  clearDerived (setMark (putSlot f d (evSlot e) (evAttr e) p) (evSlot e) (((d.slot (evSlot e)).map (·.kekInvalid)).getD false)) (evSlot e)

theorem evPut_slot (f : Fuses) (e p : List Byte) (d : Dev) (i : Nat) : (evPut f e p d).slot i =
    if i = evSlot e then some ⟨fit 64 p, evAttr e, slotTag f (evSlot e) (evAttr e) (fit 64 p), false,
      ((d.slot (evSlot e)).map (·.kekInvalid)).getD false⟩ else d.slot i := by
  rw [evPut, clearDerived_slot, setMark_slot, putSlot_slot]
  split <;> rfl

/-- A slot erased. -/
def evErased (e : List Byte) (d : Dev) : Dev :=
  clearDerived { d with vault := { d.vault with slots := Tab.del d.vault.slots (evSlot e) } } (evSlot e)

theorem evErased_slot (e : List Byte) (d : Dev) (i : Nat) : (evErased e d).slot i = if i = evSlot e then none else d.slot i :=
  Tab.find_del _ _ _

/-- Slot 0 rewritten for a new owner. -/
def ownerPut (f : Fuses) (p : List Byte) (d : Dev) : Dev :=
  putSlot f { d with vault := { d.vault with ownerPending := none } } 0 slot0Attr (p.take 49)

theorem ownerPut_slot (f : Fuses) (p : List Byte) (d : Dev) :
    (ownerPut f p d).slot 0 = some ⟨fit 64 (p.take 49), slot0Attr, slotTag f 0 slot0Attr (fit 64 (p.take 49)), false, false⟩ :=
  (putSlot_slot _ _ _ _ _ _).trans (if_pos rfl)

/-- The fuses and the device of an accepted envelope before its counter is taken. -/
def evActed (e p : List Byte) (f : Fuses) (d : Dev) : Fuses × Dev :=
  if evOp e ≤ 2 then (f, evPut f e p d)
  else if evOp e = 3 then (f, evErased e d)
  else if evOp e = 4 then (f.addOwner (Config.sha384 (p.take 49)), ownerPut (f.addOwner (Config.sha384 (p.take 49))) p d)
  else if evOp e = 5 then enterLc (field p 0 1) f d
  else (f, startAgain f { d with vault := { d.vault with hold := false } })

theorem evApply_eq (origin : Nat) (e p : List Byte) (f : Fuses) (d : Dev) :
    evApply origin e p false f d = ((evActed e p f d).1, evCommit (evActed e p f d).1 (evActed e p f d).2 origin (evCounter e)) := by
  unfold evApply evActed
  dsimp only
  split
  · rfl
  · split
    · rfl
    · split
      · rfl
      · split <;> rfl

/-- A check that does not end with OK is passed. -/
theorem check_passed {c : Prop} [Decidable c] {r q : Nat} {x : Nat × List Byte} {p : List Byte}
    (h : (if c then (r, []) else x) = (q, p)) (hr : r ≠ q) : ¬ c ∧ x = (q, p) := by
  split at h
  · exact absurd (congrArg Prod.fst h) hr
  · exact ⟨‹_›, h⟩

/-- What the checks of an accepted envelope establish. -/
theorem evCheck_ok {f : Fuses} {d : Dev} {e p : List Byte} (h : evCheck f d e = (scOK, p)) :
    within (evOp e) 1 6 = true ∧ (evOp e = 4 → f.owners.length < 4) ∧ (evOp e = 5 → lcAllowed f.lc (field p 0 1) = true) := by
  rw [evCheck] at h
  obtain ⟨hfmt, h⟩ := check_passed h (by decide)
  obtain ⟨-, h⟩ := check_passed h (by decide)
  obtain ⟨-, h⟩ := check_passed h (by decide)
  obtain ⟨-, h⟩ := check_passed h (by decide)
  split at h
  · cases h
  · obtain ⟨-, h⟩ := check_passed h (by decide)
    obtain ⟨hlc, h⟩ := check_passed h (by decide)
    obtain ⟨-, h⟩ := check_passed h (by decide)
    obtain ⟨-, h⟩ := check_passed h (by decide)
    obtain ⟨hown, h⟩ := check_passed h (by decide)
    cases h
    refine ⟨?_, fun h4 => Nat.lt_of_not_le fun hfull => hown ⟨h4, hfull⟩, fun h5 => by simpa [h5] using hlc⟩
    simp only [evFormatOk, Bool.not_eq_true', Bool.not_eq_false, Bool.and_eq_true] at hfmt
    tauto

theorem enterLc_fld (code : Nat) (f : Fuses) (d : Dev) {x : Fld} (hx : x.reg ≠ SEC_STATUS) : (enterLc code f d).2.fld x = d.fld x := by
  have hk := enterLc_keeps (Keeps.refl (ps := [.vault]) (rs := fun a => a == SEC_STATUS) d) (by simp) rfl code f
  simp only [Dev.fld]
  rw [hk.regs x.reg (by simpa using hx)]

theorem enterLc_shown {code : Nat} (h : code < 8) (f : Fuses) (d : Dev) : (enterLc code f d).2.fld SEC_STATUS_lc = code := by
  have hmod : code % 2 ^ (SEC_STATUS_lc.hi + 1 - SEC_STATUS_lc.lo) = code := Nat.mod_eq_of_lt h
  unfold enterLc
  dsimp only
  split <;> exact (Dev.fld_setFld_same _ _ _ (by decide)).trans hmod

theorem evActed_pend (e p : List Byte) (f : Fuses) (d : Dev) : (evActed e p f d).1.pend = f.pend := by
  unfold evActed
  split
  · rfl
  · split
    · rfl
    · split
      · exact (addOwner_fields f _).2.2
      · split
        · exact (enterLc_fuses _ f d).2.2
        · rfl

theorem startAgain_hold (f : Fuses) (d : Dev) : (startAgain f d).vault.hold = d.vault.hold := by
  unfold startAgain
  split
  · rfl
  · split
    · exact (bootChain_steady f _).hold
    · rfl

/-- The start that goes on aside, an envelope counts once. -/
theorem evActed_accepted {e p : List Byte} {f : Fuses} {d : Dev} (h : evOp e ≠ 6) (hop : within (evOp e) 1 6 = true) :
    (evActed e p f d).2.fld SEC_CNT_ENV_accepted = d.fld SEC_CNT_ENV_accepted := by
  simp only [within, decide_eq_true_eq] at hop
  unfold evActed
  split
  · rfl
  · split
    · rfl
    · split
      · rfl
      · rw [if_pos (by omega)]
        exact enterLc_fld _ f d (by decide)

section
variable {e p : List Byte} {f : Fuses} {d : Dev}

theorem evActed_put (h : evOp e ≤ 2) : evActed e p f d = (f, evPut f e p d) := if_pos h

theorem evActed_erased (h : evOp e = 3) : evActed e p f d = (f, evErased e d) := by
  rw [evActed, if_neg (by omega), if_pos h]

theorem evActed_owner (h : evOp e = 4) :
    evActed e p f d = (f.addOwner (Config.sha384 (p.take 49)), ownerPut (f.addOwner (Config.sha384 (p.take 49))) p d) := by
  rw [evActed, if_neg (by omega), if_neg (by omega), if_pos h]

theorem evActed_lifecycle (h : evOp e = 5) : evActed e p f d = enterLc (field p 0 1) f d := by
  rw [evActed, if_neg (by omega), if_neg (by omega), if_neg (by omega), if_pos h]

theorem evActed_released (h : evOp e = 6) : evActed e p f d = (f, startAgain f { d with vault := { d.vault with hold := false } }) := by
  rw [evActed, if_neg (by omega), if_neg (by omega), if_neg (by omega), if_neg (by omega)]

end

theorem lcAllowed_lt {a b : Nat} (h : lcAllowed a b = true) : b < 8 := by
  have := (lcAllowed_le h).2
  omega

theorem envelope_completes {w : Sys2Proof.Who} {m : Nat} {e : List Byte} {tam : Option Nat} {s : State} (hup : s.dev.inReset = false)
    (hlc : s.fuses.lc ≠ 0) (hcalm : Calm s tam) (hm : secMaster w = some m) (hdbg : debugClosed s.fuses w = false) {p : List Byte}
    (hok : evCheck s.fuses s.dev e = (scOK, p)) :
    exec (.envelope w e tam false) s = .next { s with
      fuses := (evActed e p s.fuses s.dev).1
      dev := secEnd (evCommit (evActed e p s.fuses s.dev).1 (evActed e p s.fuses s.dev).2 (whoOrigin w) (evCounter e)) w scOK [] } := by
  refine (s.onFuses_up (fun f d => powerCut f (envelope w e tam false f d)) hup).trans ?_
  rw [envelope_taken hlc hcalm hm hdbg hok, evApply_eq, powerCut,
    if_neg (by rw [evActed_pend]; exact lt_irrefl _)]

/-- The clause of O49 on an envelope that passes its checks. -/
theorem envelope_acts {w : Sys2Proof.Who} {m : Nat} {e : List Byte} {tam : Option Nat} {s : State} (hup : s.dev.inReset = false)
    (hlc : s.fuses.lc ≠ 0) (hcalm : Calm s tam) (hm : secMaster w = some m) (hdbg : debugClosed s.fuses w = false) {t : State}
    (ht : exec (.envelope w e tam false) s = .next t) {p : List Byte} (hok : evCheck s.fuses s.dev e = (scOK, p)) :
    told t.dev w scOK [] = true ∧ t.dev.vault.envCtr = evCounter e ∧
      (evOp e ≠ 6 → t.dev.fld SEC_CNT_ENV_accepted = min (s.dev.fld SEC_CNT_ENV_accepted + 1) SEC_CNT_ENV_accepted.max) ∧
      (evOp e ≤ 2 → t.fuses = s.fuses ∧ t.dev.slot (evSlot e) = some ⟨fit 64 p, evAttr e, slotTag s.fuses (evSlot e) (evAttr e) (fit 64 p), false,
          ((s.dev.slot (evSlot e)).map (·.kekInvalid)).getD false⟩ ∧ ∀ i, i ≠ evSlot e → t.dev.slot i = s.dev.slot i) ∧
      (evOp e = 3 → t.fuses = s.fuses ∧ t.dev.slot (evSlot e) = none ∧ ∀ i, i ≠ evSlot e → t.dev.slot i = s.dev.slot i) ∧
      (evOp e = 4 → t.fuses = { s.fuses with owners := s.fuses.owners ++ [Config.sha384 (p.take 49)] } ∧
        (t.dev.slot 0).any (fun x => x.material == fit 64 (p.take 49)) = true) ∧
      (evOp e = 5 → t.fuses.lc = field p 0 1 ∧ t.dev.fld SEC_STATUS_lc = field p 0 1) ∧ (evOp e = 6 → t.dev.vault.hold = false) := by
  obtain ⟨hop, howners, hallowed⟩ := evCheck_ok hok
  cases (envelope_completes hup hlc hcalm hm hdbg hok).symm.trans ht
  refine ⟨told_secEnd hm _ _ _, ?_, fun h => ?_, fun h => ?_, fun h => ?_, fun h => ?_, fun h => ?_, fun h => ?_⟩
  · rw [secEnd_vault]
    exact evCommit_envCtr _ _ _ _
  · rw [secEnd_fld, evCommit_accepted, evActed_accepted h hop]
  · rw [evActed_put h]
    refine ⟨rfl, ?_, fun i hi => ?_⟩ <;> rw [secEnd_slot, evCommit_slot, evPut_slot]
    · rw [if_pos rfl]
    · rw [if_neg hi]
  · rw [evActed_erased h]
    refine ⟨rfl, ?_, fun i hi => ?_⟩ <;> rw [secEnd_slot, evCommit_slot, evErased_slot]
    · rw [if_pos rfl]
    · rw [if_neg hi]
  · rw [evActed_owner h]
    refine ⟨if_pos (howners h), ?_⟩
    rw [secEnd_slot, evCommit_slot, ownerPut_slot]
    exact beq_self_eq_true _
  · rw [evActed_lifecycle h]
    refine ⟨(enterLc_fuses _ _ _).1, ?_⟩
    rw [secEnd_fld, evCommit_fld _ _ _ _ (by decide) (by decide), enterLc_shown (lcAllowed_lt (hallowed h))]
  · rw [evActed_released h, secEnd_vault]
    show (evCommit _ _ _ _).vault.hold = false
    rw [evCommit_vault]
    exact startAgain_hold _ _

end Sys2Proof.Machine
end

section
/-! PROOF. PROVISION, life-cycle requests of the debug master and sealed copies (12_keys_and_frame_security.md R331 to R333, R339, R360). -/

namespace Sys2Proof.Machine

theorem fit_of_length {n : Nat} {bs : List Byte} (h : bs.length = n) : fit n bs = bs := by
  rw [fit, ← h, List.take_left]

/-- A command that leaves no burn to complete is not cut. -/
theorem next_of_powerCut {c : Instr} {s : State} {g : Fuses → Dev → Fuses × Dev} {f : Fuses} {d : Dev}
    (hc : exec c s = s.onFuses fun f d => powerCut f (g f d)) (hup : s.dev.inReset = false) (h : g s.fuses s.dev = (f, d))
    (hpend : f.pend = s.fuses.pend) : exec c s = .next { s with fuses := f, dev := d } := by
  rw [hc, s.onFuses_up _ hup, h, powerCut, if_neg (by rw [hpend]; exact lt_irrefl _)]

/-- An envelope answers a next state, whatever it holds. -/
theorem envelope_next {w : Sys2Proof.Who} {e : List Byte} {tam : Option Nat} {s : State} (hup : s.dev.inReset = false) :
    ∃ t, exec (.envelope w e tam false) s = .next t ∧ t.pending = s.pending :=
  ⟨_, s.onFuses_up (fun f d => powerCut f (envelope w e tam false f d)) hup, rfl⟩

/-! ### PROVISION -/

theorem debugClosed_manufacture {f : Fuses} (h : f.lc = 1) (w : Sys2Proof.Who) : debugClosed f w = false := by
  simp [debugClosed, debugOpen, h]

theorem secGate_provision {f : Fuses} {d : Dev} {m : Nat} (hm : m ∈ [32, 31]) (hlc : f.lc ≠ 0) (hhold : d.vault.hold = false) :
    secGate f d 0x10 [32, 31] m = none := by
  have hin : ([32, 31] : List Nat).contains m = true := List.contains_iff_mem.mpr hm
  rw [secGate, if_neg (by rw [hin]; decide), if_neg fun h => hlc h.1, if_neg fun h => h.2.2.2 rfl, if_neg (by rw [hhold]; simp)]

/-- The device provisioned: slot 0 written and stored. -/
def provisionedDev (arg : List Byte) (f : Fuses) (d : Dev) : Dev :=
  (sealVault f (putSlot f d 0 slot0Attr (arg.take 49))).setFld SEC_STATUS_lc 2

theorem sealVault_slot (f : Fuses) (d : Dev) (i : Nat) : (sealVault f d).slot i = d.slot i := by
  rw [Dev.slot, sealVault_vault]
  rfl

theorem provisionedDev_slot (arg : List Byte) (f : Fuses) (d : Dev) (i : Nat) : (provisionedDev arg f d).slot i =
    if i = 0 then some ⟨fit 64 (arg.take 49), slot0Attr, slotTag f 0 slot0Attr (fit 64 (arg.take 49)), false, false⟩ else d.slot i :=
  (sealVault_slot _ _ _).trans (putSlot_slot _ _ _ _ _ _)

/-- The fuses provisioned: the owner's record, PROVISIONED. -/
def provisionedFuses (arg : List Byte) (f : Fuses) : Fuses := { f with owners := f.owners ++ [Config.sha384 (arg.take 49)], lc := 2 }

theorem provisionBody_manufacture {arg : List Byte} {f : Fuses} (hlc : f.lc = 1) (howners : f.owners.length < 4) (d : Dev) :
    provisionBody arg false f d = (scOK, [], provisionedFuses arg f, provisionedDev arg (provisionedFuses arg f) d) := by
  have howner : f.addOwner (Config.sha384 (arg.take 49)) = { f with owners := f.owners ++ [Config.sha384 (arg.take 49)] } := if_pos howners
  rw [provisionBody, if_neg (by rw [hlc]; decide), if_neg Bool.false_ne_true, howner]
  rfl

theorem provision_next {w : Sys2Proof.Who} {m : Nat} {arg : List Byte} {tam : Option Nat} {s : State} (hup : s.dev.inReset = false)
    (hhold : s.dev.vault.hold = false) (hcalm : Calm s tam) (hlen : arg.length = 64) (hm : secMaster w = some m) (hin : m ∈ [32, 31])
    (harg : argsOk arg 49 = true) (hlc : s.fuses.lc = 1) (howners : s.fuses.owners.length < 4) :
    exec (.provision w arg tam false) s = .next { s with
      fuses := provisionedFuses arg s.fuses
      dev := secEnd (provisionedDev arg (provisionedFuses arg s.fuses) s.dev) w scOK [] } := by
  refine next_of_powerCut (g := secProvision w (fit 64 arg) tam false) rfl hup ?_ rfl
  rw [fit_of_length hlen, secProvision, secRun_body hm (debugClosed_manufacture hlc w) (secGate_provision hin (by rw [hlc]; decide) hhold)
    hcalm harg, provisionBody_manufacture hlc howners]

theorem provision_acts {w : Sys2Proof.Who} {m : Nat} {arg : List Byte} {tam : Option Nat} {s : State} (hup : s.dev.inReset = false)
    (hhold : s.dev.vault.hold = false) (hcalm : Calm s tam) (hlen : arg.length = 64) (hm : secMaster w = some m) (hin : m ∈ [32, 31])
    (harg : argsOk arg 49 = true) (hlc : s.fuses.lc = 1) (howners : s.fuses.owners.length < 4) :
    ∃ t, exec (.provision w arg tam false) s = .next t ∧ told t.dev w scOK [] = true ∧ t.dev.fld SEC_STATUS_lc = 2 ∧
      t.fuses = { s.fuses with owners := s.fuses.owners ++ [Config.sha384 (arg.take 49)], lc := 2 } ∧
      (∃ tag, t.dev.slot 0 = some ⟨fit 64 (arg.take 49), slot0Attr, tag, false, false⟩) ∧ (∀ i, i ≠ 0 → t.dev.slot i = s.dev.slot i) := by
  refine ⟨_, provision_next hup hhold hcalm hlen hm hin harg hlc howners, told_secEnd hm _ _ _, ?_, rfl,
    ⟨slotTag (provisionedFuses arg s.fuses) 0 slot0Attr (fit 64 (arg.take 49)), ?_⟩, fun i hi => ?_⟩
  · rw [secEnd_fld]
    exact Dev.fld_setFld_same _ _ _ (by decide)
  · rw [secEnd_slot, provisionedDev_slot, if_pos rfl]
  · rw [secEnd_slot, provisionedDev_slot, if_neg hi]

theorem provision_refused {w : Sys2Proof.Who} {m : Nat} {arg : List Byte} {tam : Option Nat} {cut : Bool} {s : State} (hs : Serving s)
    (hcalm : Calm s tam) (hlen : arg.length = 64) (hm : secMaster w = some m) (hin : m ∈ [32, 31]) (harg : argsOk arg 49 = true)
    (hdbg : debugClosed s.fuses w = false) (hlc : s.fuses.lc ≠ 1) :
    Completes (.provision w arg tam cut) s [.vault, .hif] (fun _ => false) fun t =>
      told t.dev w scLC_REFUSED [] = true ∧ t.dev.vault = { s.dev.vault with sets := t.dev.vault.sets } := by
  have hbody : provisionBody arg cut s.fuses s.dev = (scLC_REFUSED, [], s.fuses, s.dev) := if_pos hlc
  refine completes_of_onFuses_cut (g := secProvision w (fit 64 arg) tam cut) rfl hs.1 (d := secEnd s.dev w scLC_REFUSED []) ?_
    ((Keeps.refl _).secEnd (by simp) (by simp) _ _ _) ⟨told_secEnd hm _ _ _, secEnd_vault _ _ _ _⟩
  rw [fit_of_length hlen, secProvision, secRun_body hm hdbg (secGate_serving hs hin) hcalm harg, hbody]

/-! ### The debug master -/

/-- Life-cycle state and identity shown, no other register of the status changes. -/
theorem showIdentity_lc {f : Fuses} (h : f.lc < 8) (d : Dev) : (showIdentity f d).fld SEC_STATUS_lc = f.lc := by
  have hk : Keeps [] (fun a => a != SEC_STATUS) (d.setFld SEC_STATUS_lc f.lc) (showIdentity f d) :=
    ((Keeps.refl _).foldl_setReg (by decide) _).foldl_setReg (by decide) _
  have hfld : (showIdentity f d).fld SEC_STATUS_lc = (d.setFld SEC_STATUS_lc f.lc).fld SEC_STATUS_lc := by
    simp only [Dev.fld]
    rw [hk.regs SEC_STATUS (by decide)]
  exact hfld.trans ((Dev.fld_setFld_same _ _ _ (by decide)).trans (Nat.mod_eq_of_lt h))

theorem showIdentity_parts (f : Fuses) (d : Dev) : (showIdentity f d).boot = d.boot ∧ (showIdentity f d).draws = d.draws := by
  have hk : Keeps [] anyReg d (showIdentity f d) :=
    (((Keeps.refl _).setFld rfl _).foldl_setReg (fun _ _ => rfl) _).foldl_setReg (fun _ _ => rfl) _
  exact ⟨hk.parts .boot (by decide), hk.parts .draws (by decide)⟩

theorem told_debug (d : Dev) (r : Nat) (out : List Byte) : told (secEnd d (.master .debug) r out) (.master .debug) r out = true :=
  told_secEnd (m := 32) rfl d r out

/-- The fuses of a device made: root, Lock, extended address, tamper policy and identifiers. -/
def madeFuses (f : Fuses) (root lock eui : List Byte) (policy : Nat) (subsys : Option (Nat × Nat)) : Fuses :=
  { f with lc := 1, root := some (fit 32 root), lock := lock, eui := fit 8 eui, tamper := policy % 65536,
           subsys := subsys.map fun x => (x.1 % 65536, x.2 % 65536) }

/-- The device made, its certificate kept. -/
def madeDev (d : Dev) (cert : List Byte) : Dev :=
  { d with draws := d.draws + 1, boot := { d.boot with cert := cert.take 2048 } }

section
variable {lock eui cert : List Byte} {policy : Nat} {subsys : Option (Nat × Nat)} {s : State}

theorem lifecycleDebug_made (hhold : s.dev.vault.hold = false) (hlc : s.fuses.lc = 0) (htrng : s.dev.fld SEC_STATUS_trng_fail = 0) :
    lifecycleDebug 1 lock eui cert policy subsys false s.fuses s.dev =
      (madeFuses s.fuses (Config.random s.dev.draws 32) lock eui policy subsys,
        secEnd (showIdentity (madeFuses s.fuses (Config.random s.dev.draws 32) lock eui policy subsys) (madeDev s.dev cert))
          (.master .debug) scOK []) := by
  have hbit : s.dev.bit SEC_STATUS_trng_fail = false := by rw [Dev.bit, htrng]; rfl
  rw [lifecycleDebug, if_neg (by rw [hlc]; decide), if_neg (by rw [hhold]; decide), if_pos ⟨hlc, rfl⟩, if_neg (by rw [hbit]; decide)]
  rfl

theorem lifecycleDebug_makes (hup : s.dev.inReset = false) (hhold : s.dev.vault.hold = false) (hlc : s.fuses.lc = 0)
    (htrng : s.dev.fld SEC_STATUS_trng_fail = 0) :
    ∃ t, exec (.lifecycleDebug 1 lock eui cert policy subsys false) s = .next t ∧ told t.dev (.master .debug) scOK [] = true ∧
      t.dev.fld SEC_STATUS_lc = 1 ∧ t.dev.boot.cert = cert.take 2048 ∧ t.dev.draws = s.dev.draws + 1 ∧
      t.fuses = madeFuses s.fuses (Config.random s.dev.draws 32) lock eui policy subsys := by
  obtain ⟨hboot, hdraws⟩ := showIdentity_parts (madeFuses s.fuses (Config.random s.dev.draws 32) lock eui policy subsys) (madeDev s.dev cert)
  refine ⟨_, next_of_powerCut rfl hup (lifecycleDebug_made hhold hlc htrng) rfl, told_debug _ _ _, ?_, congrArg Boot.cert hboot, hdraws, rfl⟩
  rw [secEnd_fld]
  exact showIdentity_lc (show 1 < 8 by decide) _

theorem lifecycleDebug_scrap (hlc : s.fuses.lc = 4) (hhold : s.dev.vault.hold = false) (cut : Bool) :
    lifecycleDebug 5 lock eui cert policy subsys cut s.fuses s.dev =
      if cut then ({ s.fuses with pend := s.fuses.pend ++ [.lifecycle 5] }, s.dev)
      else ({ s.fuses with lc := 5 }, secEnd (s.dev.setFld SEC_STATUS_lc 5) (.master .debug) scOK []) := by
  rw [lifecycleDebug, if_neg (by rw [hlc]; decide), if_neg (by rw [hhold]; decide), if_neg (by rw [hlc]; decide), if_pos ⟨hlc, rfl⟩]
  rfl

theorem lifecycleDebug_scraps (hup : s.dev.inReset = false) (hhold : s.dev.vault.hold = false) (hlc : s.fuses.lc = 4) :
    ∃ t, exec (.lifecycleDebug 5 lock eui cert policy subsys false) s = .next t ∧ told t.dev (.master .debug) scOK [] = true ∧
      t.dev.fld SEC_STATUS_lc = 5 ∧ t.fuses = { s.fuses with lc := 5 } := by
  refine ⟨_, next_of_powerCut rfl hup (lifecycleDebug_scrap hlc hhold false) rfl, told_debug _ _ _, ?_, rfl⟩
  exact (secEnd_fld _ _ _ _ _).trans (Dev.fld_setFld_same _ _ _ (by decide))

theorem porAssert_down (d : Dev) : (porAssert d).inReset = true := by
  unfold porAssert
  split
  · assumption
  · rfl

theorem lifecycleDebug_cut (hup : s.dev.inReset = false) (hhold : s.dev.vault.hold = false) (hlc : s.fuses.lc = 4) :
    ∃ t, exec (.lifecycleDebug 5 lock eui cert policy subsys true) s = .next t ∧ t.dev.inReset = true ∧
      t.fuses = { s.fuses with pend := s.fuses.pend ++ [.lifecycle 5] } := by
  refine ⟨_, s.onFuses_up (fun f d => powerCut f (lifecycleDebug 5 lock eui cert policy subsys true f d)) hup, ?_⟩
  rw [lifecycleDebug_scrap hlc hhold, if_pos rfl, powerCut, if_pos (by simp)]
  exact ⟨porAssert_down _, rfl⟩

theorem lifecycleDebug_refused {target : Nat} {cut : Bool} (hup : s.dev.inReset = false)
    (hor : debugOpen s.fuses.lc = false ∨ s.dev.vault.hold = false) (h1 : ¬ (s.fuses.lc = 0 ∧ target = 1))
    (h5 : ¬ (s.fuses.lc = 4 ∧ target = 5)) :
    Completes (.lifecycleDebug target lock eui cert policy subsys cut) s ([.vault] ++ noteParts) noteRegs fun t =>
      told t.dev (.master .debug) scLC_REFUSED [] = true ∧ t.dev.vault = { s.dev.vault with sets := t.dev.vault.sets } := by
  have hkeep : Keeps ([.vault] ++ noteParts) noteRegs s.dev (raise s.dev 177 0 0) :=
    (Keeps.refl _).noted (noted_raise _ _ _ _) (by simp) fun _ h => h
  by_cases hopen : debugOpen s.fuses.lc = true
  · refine completes_of_onFuses_cut (g := lifecycleDebug target lock eui cert policy subsys cut) rfl hup
      (d := secEnd s.dev (.master .debug) scLC_REFUSED []) ?_ ((Keeps.refl _).secEnd_master (by simp) _ _ _)
      ⟨told_debug _ _ _, secEnd_vault _ _ _ _⟩
    have hhold : s.dev.vault.hold = false := hor.resolve_left (by rw [hopen]; decide)
    rw [lifecycleDebug, if_neg (by rw [hopen]; decide), if_neg (by rw [hhold]; decide), if_neg h1, if_neg h5]
  · refine completes_of_onFuses_cut (g := lifecycleDebug target lock eui cert policy subsys cut) rfl hup
      (d := secEnd (raise s.dev 177 0 0) (.master .debug) scLC_REFUSED []) ?_ (hkeep.secEnd_master (by simp) _ _ _)
      ⟨told_debug _ _ _, (secEnd_vault _ _ _ _).trans (by rw [raise_vault])⟩
    rw [lifecycleDebug, if_pos (by simpa using hopen)]

theorem debugRequestRefused_completes (hup : s.dev.inReset = false) (h : debugOpen s.fuses.lc = false) :
    Completes .debugRequestRefused s noteParts noteRegs fun t => t.dev = raise s.dev 177 0 0 :=
  completes_of_onDevF_eq (g := debugRefused) rfl hup (if_neg (by rw [h]; decide))
    ((Keeps.refl _).noted (noted_raise _ _ _ _) (List.Subset.refl _) fun _ h => h) rfl

end

/-! ### Sealed copies -/

/-- The flash ceiling of a PAN raised to the one that a sealed copy carries. -/
def raisedCeiling (c : Seal) (t : Tab (Nat × Nat)) (p : Nat) : Tab (Nat × Nat) :=
  let k := (c.ceilings[p]?).getD 0
  let e := Tab.getD t p (0, 0)
  if k = 0 then t else Tab.put t p (e.1, max e.2 k)

theorem raisedCeiling_getD (c : Seal) (t : Tab (Nat × Nat)) (p q : Nat) : Tab.getD (raisedCeiling c t p) q (0, 0) =
    if q = p then ((Tab.getD t p (0, 0)).1, max (Tab.getD t p (0, 0)).2 ((c.ceilings[p]?).getD 0)) else Tab.getD t q (0, 0) := by
  unfold raisedCeiling
  dsimp only
  split
  · rename_i h0
    rw [h0, Nat.max_zero]
    split
    · rename_i hq
      rw [hq]
    · rfl
  · rw [Tab.getD_put]

/-- The flash ceilings of PANs raised to those that a sealed copy carries. -/
def raisedCeilings (c : Seal) (l : List Nat) (t : Tab (Nat × Nat)) : Tab (Nat × Nat) := l.foldl (raisedCeiling c) t

theorem raisedCeilings_getD (c : Seal) {l : List Nat} (hl : l.Nodup) (t : Tab (Nat × Nat)) (p : Nat) :
    Tab.getD (raisedCeilings c l t) p (0, 0) =
      if p ∈ l then ((Tab.getD t p (0, 0)).1, max (Tab.getD t p (0, 0)).2 ((c.ceilings[p]?).getD 0)) else Tab.getD t p (0, 0) := by
  induction l generalizing t with
  | nil => rfl
  | cons q l ih =>
    obtain ⟨hq, hl⟩ := List.nodup_cons.mp hl
    rw [raisedCeilings, List.foldl_cons]
    refine (ih hl _).trans ?_
    by_cases hpq : p = q
    · subst hpq
      rw [if_neg hq, if_pos List.mem_cons_self, raisedCeiling_getD, if_pos rfl]
    · simp only [raisedCeiling_getD, hpq, if_false, List.mem_cons, false_or]

/-- A sealed copy in flash. -/
def sealedDev (c : Seal) (d : Dev) : Dev :=
  ({ d with vault := { d.vault with sealCopy := some c, sealing := none, sealAgain := false,
                                    ceilings := raisedCeilings c (List.range 8) d.vault.ceilings } }).setBit SEC_STATUS_seal_ok true

theorem sealDone_eq (f : Fuses) {c : Seal} {d : Dev} (h : d.vault.sealing = some c) :
    sealDone f d = if d.vault.sealAgain then sealVault f (sealedDev c d) else sealedDev c d := by
  rw [sealDone, h]
  rfl

theorem sealDone_keeps {f : Fuses} {c : Seal} {d : Dev} (h : d.vault.sealing = some c) :
    Keeps [.vault] (fun a => a == SEC_STATUS) d (sealDone f d) := by
  have hk : Keeps [.vault] (fun a => a == SEC_STATUS) d (sealedDev c d) := ((Keeps.refl d).vault (by simp) _).setBit rfl _
  rw [sealDone_eq f h]
  exact Keeps.ite (sealVault_keepsAny hk (by simp) f) hk

/-- With no copy being written the next one starts. -/
theorem sealVault_idle (f : Fuses) {d : Dev} (h : d.vault.sealing = none) :
    (sealVault f d).vault = { d.vault with sealing := (sealVault f d).vault.sealing } ∧ (sealVault f d).vault.sealing.isSome = true := by
  unfold sealVault
  simp only [h, Option.isSome_some, and_self]

theorem sealDone_vault {f : Fuses} {c : Seal} {d : Dev} (h : d.vault.sealing = some c) :
    (sealDone f d).vault = { d.vault with sealCopy := some c, sealAgain := false,
                                          ceilings := raisedCeilings c (List.range 8) d.vault.ceilings,
                                          sealing := (sealDone f d).vault.sealing } ∧
      (sealDone f d).vault.sealing.isSome = d.vault.sealAgain := by
  rw [sealDone_eq f h]
  cases hagain : d.vault.sealAgain
  · exact ⟨rfl, rfl⟩
  · obtain ⟨hv, hsome⟩ := sealVault_idle f (d := sealedDev c d) rfl
    exact ⟨hv, hsome⟩

theorem sealDone_ceilings {f : Fuses} {c : Seal} {d : Dev} (h : d.vault.sealing = some c) {p : Nat} (hp : p < 8) :
    Tab.getD (sealDone f d).vault.ceilings p (0, 0) =
      ((Tab.getD d.vault.ceilings p (0, 0)).1, max (Tab.getD d.vault.ceilings p (0, 0)).2 ((c.ceilings[p]?).getD 0)) := by
  rw [(sealDone_vault h).1]
  exact (raisedCeilings_getD c List.nodup_range _ p).trans (if_pos (List.mem_range.mpr hp))

theorem sealDone_ok {f : Fuses} {c : Seal} {d : Dev} (h : d.vault.sealing = some c) : (sealDone f d).fld SEC_STATUS_seal_ok = 1 := by
  have hset : (sealedDev c d).fld SEC_STATUS_seal_ok = 1 := Dev.fld_setBit_same _ (by decide) (by decide) true
  rw [sealDone_eq f h]
  split
  · rw [sealVault_fld, hset]
  · exact hset

theorem sealWriteDone_completes {c : Seal} {s : State} (hup : s.dev.inReset = false) (h : s.dev.vault.sealing = some c) :
    Completes .sealWriteDone s [.vault] (fun a => a == SEC_STATUS) fun t =>
      t.dev.fld SEC_STATUS_seal_ok = 1 ∧ t.dev.vault.sealCopy = some c ∧
      t.dev.vault = { s.dev.vault with sealCopy := some c, sealAgain := false, ceilings := t.dev.vault.ceilings, sealing := t.dev.vault.sealing } ∧
      t.dev.vault.sealing.isSome = s.dev.vault.sealAgain ∧
      (∀ p, p < 8 → (Tab.getD t.dev.vault.ceilings p (0, 0)).2 = max (Tab.getD s.dev.vault.ceilings p (0, 0)).2 ((c.ceilings[p]?).getD 0) ∧
        (Tab.getD t.dev.vault.ceilings p (0, 0)).1 = (Tab.getD s.dev.vault.ceilings p (0, 0)).1) := by
  obtain ⟨hv, hsome⟩ := sealDone_vault (f := s.fuses) h
  refine completes_of_onDevF_eq (g := sealDone) rfl hup rfl (sealDone_keeps h) ⟨sealDone_ok h, ?_, ?_, hsome, fun p hp => ?_⟩
  · exact congrArg Sec.sealCopy hv
  · exact hv.trans (by rw [hv])
  · have hc := sealDone_ceilings (f := s.fuses) h hp
    exact ⟨by rw [hc], by rw [hc]⟩

theorem ceilingDone_completes {p : Nat} {c : Seal} {s : State} (hup : s.dev.inReset = false) (hp : p < 8) (h : s.dev.vault.sealing = some c)
    (hlt : (Tab.getD s.dev.vault.ceilings p (0, 0)).2 < (c.ceilings[p]?).getD 0) :
    Completes (.bcastCeilingWriteDone p) s [.vault] (fun a => a == SEC_STATUS) fun t => t.dev.vault.sealCopy = some c ∧
      (Tab.getD t.dev.vault.ceilings p (0, 0)).2 = (c.ceilings[p]?).getD 0 := by
  refine completes_of_onDevF_eq (g := ceilingDone p) (d := sealDone s.fuses s.dev) rfl hup ?_ (sealDone_keeps h)
    ⟨congrArg Sec.sealCopy (sealDone_vault h).1, ?_⟩
  · rw [ceilingDone, h]
    exact if_pos hlt
  · exact (congrArg Prod.snd (sealDone_ceilings h hp)).trans (max_eq_right hlt.le)

theorem sealWriteTimeout_completes {c : Seal} {s : State} (hup : s.dev.inReset = false) (h : s.dev.vault.sealing = some c) :
    Completes .sealWriteTimeout s ([.vault] ++ noteParts) (fun a => a == SEC_STATUS || noteRegs a) fun t => t.dev.fld SEC_STATUS_seal_ok = 0 ∧
      t.dev.vault = { s.dev.vault with sealing := none, sealAgain := false } := by
  refine completes_of_onDev (g := sealTimeout) rfl hup (by rw [sealTimeout, h])
    ((((Keeps.refl _).vault (by simp) _).setBit (by decide) _).noted (noted_raise _ _ _ _) (by simp) (by simp +contextual)) ⟨?_, ?_⟩
  · exact (raise_fld _ _ _ _ _ (by decide)).trans (Dev.fld_setBit_same _ (by decide) (by decide) false)
  · exact raise_vault _ _ _ _

/-- Settles O49: an envelope's checks and acts, the debug master's transitions, and what a sealed copy leaves. -/
theorem envelopesAndLifeCycle : Obligations.EnvelopesAndLifeCycle := by
  unfold Obligations.EnvelopesAndLifeCycle
  refine ⟨fun w m e tam cut s => envelopeRefused_completes, fun w m e tam s hup hlc hcalm hm hdbg => ?_,
    fun w m arg tam s => provision_acts, fun w m arg tam cut s => provision_refused,
    fun lock eui cert policy subsys s => lifecycleDebug_makes, fun lock eui cert policy subsys s => lifecycleDebug_scraps,
    fun lock eui cert policy subsys s => lifecycleDebug_cut, fun target policy lock eui cert subsys cut s => lifecycleDebug_refused,
    fun s => debugRequestRefused_completes, fun c s => sealWriteDone_completes, fun p c s => ceilingDone_completes,
    fun c s => sealWriteTimeout_completes⟩
  obtain ⟨t, ht, hpend⟩ := envelope_next (w := w) (e := e) (tam := tam) hup
  exact ⟨t, ht, hpend, fun p hok => envelope_acts hup hlc hcalm hm hdbg ht hok⟩

end Sys2Proof.Machine
end

section
/-! SUPPORT. Security commands that burn nothing, and what writing a node's entries leaves (12_keys_and_frame_security.md R350 to R358, R372;
08_tables.md R238). -/

namespace Sys2Proof.Machine

/-! ### Commands that burn nothing -/

theorem debugClosed_other {w : Sys2Proof.Who} {m : Nat} (hm : secMaster w = some m) (h : m ≠ 32) (f : Fuses) : debugClosed f w = false := by
  have hw : (w == .master .debug) = false := beq_eq_false_iff_ne.mpr fun hw => by
    subst hw
    cases hm
    exact h rfl
  rw [debugClosed, hw, Bool.false_and]

/-- A command in service, undisturbed, of a master listed, with its reserved bytes 0: its body's effect, then its end. -/
theorem noFuse_completes {c : Instr} {w : Sys2Proof.Who} {m code used r : Nat} {ms : List Nat} {arg out : List Byte} {tam : Option Nat}
    {g : List Byte → Fuses → Dev → Nat × List Byte × Dev} {d : Dev} {s : State} {ps : List Part} {rs : Nat → Bool} {P : State → Prop}
    (hc : exec c s = s.onFuses (secRun w code ms (fit 64 arg) used tam (noFuse (g (fit 64 arg))))) (hs : Serving s) (hcalm : Calm s tam)
    (hlen : arg.length = 64) (hm : secMaster w = some m) (hin : m ∈ ms) (hdbg : m ≠ 32) (harg : argsOk arg used = true)
    (hg : g arg s.fuses s.dev = (r, out, d)) (hk : Keeps ps rs s.dev (secEnd d w r out)) (hP : P { s with dev := secEnd d w r out }) :
    Completes c s ps rs P := by
  rw [fit_of_length hlen] at hc
  refine completes_of_onFuses_eq hc hs.1 ?_ hk hP
  rw [secRun_body hm (debugClosed_other hm hdbg _) (secGate_serving hs hin) hcalm harg, noFuse, hg]

/-! ### Slots used -/

/-- A slot that may be used is used alike on a device with the same vault. -/
theorem useSlot_congr {f : Fuses} {d e : Dev} {i op typ : Nat} {master pan : Option Nat} {k : List Byte}
    (h : useSlot f d i op typ master pan = (scOK, k, d)) (hv : e.vault = d.vault) : useSlot f e i op typ master pan = (scOK, k, e) := by
  unfold useSlot at h ⊢
  rw [show e.slot i = d.slot i by rw [Dev.slot, Dev.slot, hv], hv]
  cases hslot : d.slot i with
  | none =>
    rw [hslot] at h
    cases h
  | some x =>
    rw [hslot] at h
    simp only at h ⊢
    split at h
    · cases congrArg Prod.fst h
    · rename_i hsound
      rw [if_neg hsound]
      split at h
      · cases congrArg Prod.fst h
      · rename_i hperm
        rw [if_neg hperm]
        split at h
        · rename_i hsrc
          rw [if_pos hsrc]
          cases congrArg (fun y => y.2.1) h
          rfl
        · rename_i hsrc
          rw [if_neg hsrc]
          split at h
          · cases congrArg (fun y => y.2.1) h
            rfl
          · cases congrArg Prod.fst h

/-! ### Fields of an entry -/

theorem Memory.readN_congr {m n : Memory} {a k : Nat} (h : ∀ c, a ≤ c → c < a + k → Memory.read 0 m c = Memory.read 0 n c) :
    Memory.readN 0 m a k = Memory.readN 0 n a k := by
  refine List.map_congr_left fun i hi => h (a + i) (Nat.le_add_right a i) ?_
  have := List.mem_range.mp hi
  omega

/-- A field's write leaves the fields of the entry that lie apart from it. -/
theorem entryField_setEntryField_other (d : Dev) (t i : Nat) {off len off' len' : Nat} (v : Nat) (h : off' + len' ≤ off ∨ off + len ≤ off') :
    entryField (setEntryField d t i off len v) t i off' len' = entryField d t i off' len' :=
  congrArg unle (Memory.readN_congr fun c hlo hhi => read_setEntryField_other d t i off len v (by
    have : entryAddr (setEntryField d t i off len v) t i = entryAddr d t i := rfl
    omega))

theorem field_lt (bs : List Byte) (off n : Nat) : field bs off n < 256 ^ n := by
  have hlen : (slice bs off n).length ≤ n := by simp [slice]
  exact lt_of_lt_of_le (unle_lt (slice bs off n)) (Nat.pow_le_pow_right (by decide) hlen)

/-! ### Node entries -/

theorem nodeKeyIndex_setNodeCtrl (d : Dev) (n hi lo v k : Nat) : nodeKeyIndex (setNodeCtrl d n hi lo v) n k = nodeKeyIndex d n k :=
  entryField_setEntryField_other d 0 n _ (.inr (by omega))

theorem nodeCtrl_setNodeCtrl (d : Dev) (n hi lo v : Nat) :
    nodeCtrl (setNodeCtrl d n hi lo v) n = (setBits (BitVec.ofNat 32 (nodeCtrl d n)) hi lo v).toNat :=
  (entryField_setEntryField_same d 0 n 0 4 _).trans (Nat.mod_eq_of_lt (BitVec.isLt _))

theorem nodeTxKey_setNodeCtrl (d : Dev) (n v : Nat) : nodeTxKey (setNodeCtrl d n 24 24 v) n = v % 2 := by
  rw [nodeTxKey, nodeCtrl_setNodeCtrl]
  exact getBits_setBits_same _ 24 24 v (by decide)

/-- The entry of a node with the fields of a key reset: seen flag, counters, reservation and index. -/
def resetKeyEntry (d : Dev) (n j index : Nat) : Dev :=
  setEntryField (setEntryField (setEntryField (setEntryField (setNodeCtrl d n (26 - j) (26 - j) 0) 0 n (0x20 + 4 * j) 4 0) 0 n (0x28 + 4 * j) 4 0)
    0 n (0x39 + 2 * j) 2 0) 0 n (0x1C + j) 1 index

theorem resetKeyFields_eq (d : Dev) (n j index : Nat) : resetKeyFields d n j index = { resetKeyEntry d n j index with
    ts := { (resetKeyEntry d n j index).ts with exhausted := (resetKeyEntry d n j index).ts.exhausted.filter (· != n * 2 + j) } } := rfl

theorem nodeKeyIndex_resetKeyEntry_same (d : Dev) (n j index : Nat) : nodeKeyIndex (resetKeyEntry d n j index) n j = index % 256 := by
  rw [resetKeyEntry, nodeKeyIndex, entryField_setEntryField_same, pow_one]

theorem nodeKeyIndex_resetKeyEntry_other (d : Dev) (n : Nat) {j k : Nat} (index : Nat) (hk : k ≤ 1) (hj : j ≤ 1) (h : k ≠ j) :
    nodeKeyIndex (resetKeyEntry d n j index) n k = nodeKeyIndex d n k := by
  rw [resetKeyEntry, nodeKeyIndex, entryField_setEntryField_other _ _ _ _ (by omega), entryField_setEntryField_other _ _ _ _ (by omega),
    entryField_setEntryField_other _ _ _ _ (by omega), entryField_setEntryField_other _ _ _ _ (by omega)]
  exact nodeKeyIndex_setNodeCtrl d n _ _ _ k

theorem nodeKeyIndex_ts (d : Dev) (x : Ts) (n k : Nat) : nodeKeyIndex { d with ts := x } n k = nodeKeyIndex d n k := rfl

theorem nodeKeyIndex_resetKeyFields_same (d : Dev) (n j index : Nat) : nodeKeyIndex (resetKeyFields d n j index) n j = index % 256 := by
  rw [resetKeyFields_eq, nodeKeyIndex_ts, nodeKeyIndex_resetKeyEntry_same]

theorem nodeKeyIndex_resetKeyFields_other (d : Dev) (n : Nat) {j k : Nat} (index : Nat) (hk : k ≤ 1) (hj : j ≤ 1) (h : k ≠ j) :
    nodeKeyIndex (resetKeyFields d n j index) n k = nodeKeyIndex d n k := by
  rw [resetKeyFields_eq, nodeKeyIndex_ts, nodeKeyIndex_resetKeyEntry_other _ _ _ hk hj h]

section
variable {ps : List Part} {rs : Nat → Bool} {d e : Dev}

theorem Keeps.setEntry (h : Keeps ps rs d e) (ht : Part.tbl ∈ ps) (t i : Nat) (bs : List Byte) : Keeps ps rs d (setEntry e t i bs) := h.tbl ht _

theorem Keeps.setNodeCtrl (h : Keeps ps rs d e) (ht : Part.tbl ∈ ps) (n hi lo v : Nat) : Keeps ps rs d (setNodeCtrl e n hi lo v) :=
  h.setEntryField ht _ _ _ _ _

theorem Keeps.resetKeyFields (h : Keeps ps rs d e) (ht : Part.tbl ∈ ps) (hts : Part.ts ∈ ps) (n j index : Nat) :
    Keeps ps rs d (resetKeyFields e n j index) := by
  have h3 : Keeps ps rs d (resetKeyEntry e n j index) :=
    ((((h.setNodeCtrl ht _ _ _ _).setEntryField ht _ _ _ _ _).setEntryField ht _ _ _ _ _).setEntryField ht _ _ _ _ _).setEntryField ht _ _ _ _ _
  rw [resetKeyFields_eq]
  exact h3.ts hts _

theorem Keeps.dropCached (h : Keeps ps rs d e) (hv : Part.vault ∈ ps) (p : CacheEntry → Bool) : Keeps ps rs d (dropCached e p) := h.vault hv _

end

/-! ### Entries wrapped again -/

/-- `e` is `d` but for what wrapping entries of the Node Keys table changes. -/
structure Rewrapped (d e : Dev) : Prop where
  keeps : Keeps ([.vault, .tbl] ++ noteParts) keyRegs d e
  vault : e.vault = { d.vault with slots := e.vault.slots, cache := e.vault.cache }

theorem Rewrapped.refl (d : Dev) : Rewrapped d d := ⟨Keeps.refl d, rfl⟩

theorem Rewrapped.trans {d e f : Dev} (h : Rewrapped d e) (g : Rewrapped e f) : Rewrapped d f :=
  ⟨h.keeps.trans g.keeps, g.vault.trans (by rw [h.vault])⟩

theorem Obtained.rewrapped {d e : Dev} (h : Obtained d e) : Rewrapped d e :=
  ⟨h.keeps.mono (by simp [noteParts]) fun _ h => h, h.vault⟩

theorem Rewrapped.ite {d e f : Dev} {c : Prop} [Decidable c] (he : Rewrapped d e) (hf : Rewrapped d f) : Rewrapped d (if c then e else f) := by
  split
  · exact he
  · exact hf

theorem rewrapped_wrapNode (f : Fuses) (d : Dev) (master p n : Nat) (pt : List Byte) : Rewrapped d (wrapNode f d master p n pt).2 := by
  unfold wrapNode
  split
  · exact Rewrapped.refl d
  · rename_i k _
    have huse := (obtained_useSlot f d k 44 2 (some master) (some p)).rewrapped
    unfold useKek
    dsimp only
    split
    · exact huse
    · exact huse.trans ⟨(Keeps.refl _).setEntry (by simp) _ _ _, rfl⟩

theorem rewrapped_rewrapOne (f : Fuses) (p : Nat) (d : Dev) (n : Nat) : Rewrapped d (rewrapOne f p d n) := by
  unfold rewrapOne
  split
  · rename_i a r _ _
    have ha := (obtained_unwrapUnder f d 28 p a (entryBytes d 3 n)).rewrapped
    dsimp only
    split <;> rename_i hu <;> rw [hu] at ha
    · exact ha
    · rename_i d1
      have hr := ha.trans (obtained_unwrapUnder f d1 28 p r (entryBytes d 3 n)).rewrapped
      split <;> rename_i hv <;> rw [hv] at hr
      · exact hr.trans (rewrapped_wrapNode f _ _ _ _ _)
      · exact hr.trans ⟨(Keeps.refl _).inc rfl, rfl⟩
  · exact Rewrapped.refl d

theorem rewrapped_foldl (f : Fuses) (p : Nat) (l : List Nat) (d : Dev) : Rewrapped d (l.foldl (rewrapOne f p) d) :=
  List.foldlRecOn (motive := Rewrapped d) l _ (Rewrapped.refl d) fun _ h n _ => h.trans (rewrapped_rewrapOne f p _ n)

/-- The registers of a PAN's KEKs are none of those that wrapping changes. -/
theorem keyRegs_pan {p : Nat} (hp : p < 8) : keyRegs (SEC_PANp_KEK p) = false ∧ keyRegs (SEC_PANp_REWRAP p) = false := by
  simp only [keyRegs, noteRegs, Bool.or_eq_false_iff, beq_eq_false_iff_ne, decide_eq_false_iff_not, SEC_PANp_KEK, SEC_PANp_REWRAP,
    SEC_CNT_KEY, SEC_CNT_UNWRAP, RES_JRNL_NEWEST]
  omega

end Sys2Proof.Machine
end

section
/-! PROOF. KEKs of PANs (12_keys_and_frame_security.md R350, R357, R358). -/

namespace Sys2Proof.Machine

theorem told_cc (d : Dev) (b : Bool) (r : Nat) (out : List Byte) : told (secEnd d (.master (.cc b)) r out) (.master (.cc b)) r out = true := by
  cases b
  · exact told_secEnd (m := 29) rfl d r out
  · exact told_secEnd (m := 28) rfl d r out

theorem Dev.fld_setBit_other (d : Dev) (f g : Fld) (b : Bool) (h : g.reg ≠ f.reg ∨ g.hi < f.lo ∨ f.hi < g.lo) :
    (d.setBit f b).fld g = d.fld g := Dev.fld_setFld_other d f g _ h

theorem Dev.fld_vault (d : Dev) (x : Sec) (f : Fld) : { d with vault := x }.fld f = d.fld f := rfl

/-! ### KEK_ROTATE -/

/-- The new KEK ACTIVE; one that was is RETIRING, and a walk starts. -/
def rotatedDev (d : Dev) (p sl : Nat) : Dev :=
  match kekActive d p with
  | none => d.setFld (SEC_PANp_KEK_active p) sl
  | some a =>
    let d2 := (d.setFld (SEC_PANp_KEK_retiring p) a).setFld (SEC_PANp_KEK_active p) sl
    let d3 := (d2.setBit (SEC_PANp_KEK_rewrap_busy p) true).setFld (SEC_PANp_REWRAP_next p) 0
    { d3 with vault := { d3.vault with walks := Tab.put d3.vault.walks p 0 } }

theorem rotateBody_ok {m p sl : Nat} {arg k : List Byte} {x : Slot} {f : Fuses} {d : Dev} (hp : field arg 0 1 = p) (hp8 : p < 8)
    (hsl : field arg 1 1 = sl) (hsl7 : sl ≤ 127) (hwalk : Tab.find d.vault.walks p = none) (huse : useKek f d m p sl = (scOK, k, d))
    (hslot : d.slot sl = some x) (hvalid : x.kekInvalid = false) (hpan : nbit x.attr 55 = true) :
    rotateBody m arg f d = (scOK, [], rotatedDev d p sl) := by
  have hrange : ¬ (7 < p ∨ 127 < sl) := by omega
  simp only [rotateBody, hp, hsl, if_neg hrange, hwalk, huse, hslot, hvalid, hpan, Option.isSome_none, Bool.false_eq_true, if_false,
    ne_eq, not_true_eq_false, Option.map_some, Option.getD_some, Bool.not_true, Bool.or_self, rotatedDev]
  cases kekActive d p <;> rfl

theorem rotatedDev_keeps (d : Dev) (p sl : Nat) :
    Keeps [.vault] (fun r => r == SEC_PANp_KEK p || r == SEC_PANp_REWRAP p) d (rotatedDev d p sl) := by
  have h := Keeps.refl (ps := [.vault]) (rs := fun r => r == SEC_PANp_KEK p || r == SEC_PANp_REWRAP p) d
  unfold rotatedDev
  split
  · exact h.setFld (by simp) _
  · exact ((((h.setFld (by simp) _).setFld (by simp) _).setBit (by simp) _).setFld (by simp) _).vault (by simp) _

theorem rotatedDev_active {d : Dev} {p sl : Nat} (h : sl ≤ 127) : (rotatedDev d p sl).fld (SEC_PANp_KEK_active p) = sl := by
  have hset : ∀ e : Dev, (e.setFld (SEC_PANp_KEK_active p) sl).fld (SEC_PANp_KEK_active p) = sl := fun e => by
    rw [Dev.fld_setFld_same _ _ _ (by simp)]
    exact Nat.mod_eq_of_lt (show sl < 128 by omega)
  unfold rotatedDev
  split
  · exact hset d
  · dsimp only
    rw [Dev.fld_vault, Dev.fld_setFld_other _ _ _ _ (by simp), Dev.fld_setBit_other _ _ _ _ (by simp), hset]

theorem rotatedDev_first {d : Dev} {p sl : Nat} (h : kekActive d p = none) : (rotatedDev d p sl).vault = d.vault ∧
    (rotatedDev d p sl).fld (SEC_PANp_KEK_retiring p) = d.fld (SEC_PANp_KEK_retiring p) := by
  rw [rotatedDev, h]
  dsimp only
  rw [Dev.fld_setFld_other _ _ _ _ (by simp)]
  exact ⟨rfl, rfl⟩

theorem kekActive_eq {d : Dev} {p a : Nat} (h : kekActive d p = some a) : d.fld (SEC_PANp_KEK_active p) = a := by
  unfold kekActive at h
  split at h
  · cases h
  · exact Option.some.inj h

theorem kekActive_lt {d : Dev} {p a : Nat} (h : kekActive d p = some a) : a < 128 := by
  rw [← kekActive_eq h]
  exact Nat.mod_lt _ (show 0 < 2 ^ 7 by decide)

theorem rotatedDev_walk {d : Dev} {p sl a : Nat} (h : kekActive d p = some a) :
    (rotatedDev d p sl).fld (SEC_PANp_KEK_retiring p) = a ∧ (rotatedDev d p sl).fld (SEC_PANp_KEK_rewrap_busy p) = 1 ∧
      (rotatedDev d p sl).fld (SEC_PANp_REWRAP_next p) = 0 ∧ Tab.find (rotatedDev d p sl).vault.walks p = some 0 := by
  rw [rotatedDev, h]
  dsimp only
  refine ⟨?_, ?_, ?_, ?_⟩
  · rw [Dev.fld_vault, Dev.fld_setFld_other _ _ _ _ (by simp), Dev.fld_setBit_other _ _ _ _ (by simp), Dev.fld_setFld_other _ _ _ _ (by simp),
      Dev.fld_setFld_same _ _ _ (by simp)]
    exact Nat.mod_eq_of_lt (kekActive_lt h)
  · rw [Dev.fld_vault, Dev.fld_setFld_other _ _ _ _ (by simp), Dev.fld_setBit_same _ (by simp) (by simp)]
    rfl
  · rw [Dev.fld_vault, Dev.fld_setFld_same _ _ _ (by simp), Nat.zero_mod]
  · rw [Tab.find_put, if_pos rfl]

theorem kekRotate_completes {p sl : Nat} {arg : List Byte} {tam : Option Nat} {k : List Byte} {x : Slot} {s : State} (hs : Serving s)
    (hcalm : Calm s tam) (hlen : arg.length = 64) (harg : argsOk arg 2 = true) (hp : field arg 0 1 = p) (hp8 : p < 8)
    (hsl : field arg 1 1 = sl) (hsl7 : sl ≤ 127) (hwalk : Tab.find s.dev.vault.walks p = none)
    (huse : useKek s.fuses s.dev 28 p sl = (scOK, k, s.dev)) (hslot : s.dev.slot sl = some x) (hvalid : x.kekInvalid = false)
    (hpan : nbit x.attr 55 = true) :
    Completes (.kekRotate (.master (.cc true)) arg tam) s [.vault] (fun r => r == SEC_PANp_KEK p || r == SEC_PANp_REWRAP p) fun t =>
      told t.dev (.master (.cc true)) scOK [] = true ∧ t.dev.fld (SEC_PANp_KEK_active p) = sl ∧
      (kekActive s.dev p = none → t.dev.vault = { s.dev.vault with sets := t.dev.vault.sets } ∧
        t.dev.fld (SEC_PANp_KEK_retiring p) = s.dev.fld (SEC_PANp_KEK_retiring p)) ∧
      (∀ a, kekActive s.dev p = some a → t.dev.fld (SEC_PANp_KEK_retiring p) = a ∧ t.dev.fld (SEC_PANp_KEK_rewrap_busy p) = 1 ∧
        t.dev.fld (SEC_PANp_REWRAP_next p) = 0 ∧ Tab.find t.dev.vault.walks p = some 0) := by
  refine noFuse_completes (g := rotateBody 28) (ms := [28]) rfl hs hcalm hlen (m := 28) rfl (by decide) (by decide) harg
    (rotateBody_ok hp hp8 hsl hsl7 hwalk huse hslot hvalid hpan) ((rotatedDev_keeps _ _ _).secEnd_master (by simp) _ _ _)
    ⟨told_cc (rotatedDev s.dev p sl) true scOK [], (secEnd_fld _ _ _ _ _).trans (rotatedDev_active hsl7), fun h => ?_, fun a h => ?_⟩
  · obtain ⟨hv, hr⟩ := rotatedDev_first (sl := sl) h
    exact ⟨(secEnd_vault _ _ _ _).trans (by rw [hv]), (secEnd_fld _ _ _ _ _).trans hr⟩
  · obtain ⟨hr, hb, hn, hw⟩ := rotatedDev_walk (sl := sl) h
    refine ⟨(secEnd_fld _ _ _ _ _).trans hr, (secEnd_fld _ _ _ _ _).trans hb, (secEnd_fld _ _ _ _ _).trans hn, ?_⟩
    rw [secEnd_vault]
    exact hw

/-! ### The walk -/

/-- The registers that a walk of a PAN changes. -/
def walkRegs (p r : Nat) : Bool := r == SEC_PANp_KEK p || r == SEC_PANp_REWRAP p || r == SEC_CNT_UNWRAP || r == SEC_CNT_KEY || noteRegs r

theorem keyRegs_walkRegs {p a : Nat} (h : keyRegs a = true) : walkRegs p a = true := by
  simp only [keyRegs, walkRegs, Bool.or_eq_true] at h ⊢
  tauto

/-- The nodes of a PAN visited, the walk's place noted. -/
theorem walkTo_eq {f : Fuses} {d : Dev} {p from_ : Nat} (upto : Nat) (h : Tab.find d.vault.walks p = some from_) :
    ∃ e, Rewrapped d e ∧ walkTo f d p upto = { e with vault := { e.vault with walks := Tab.put e.vault.walks p upto } } := by
  refine ⟨_, rewrapped_foldl f p ((panNodes d p).filter fun n => decide (from_ ≤ n ∧ n < upto)) d, ?_⟩
  rw [walkTo, h]

theorem walkStop_fields (d : Dev) (p next : Nat) :
    (walkStop d p next).fld (SEC_PANp_KEK_active p) = d.fld (SEC_PANp_KEK_active p) ∧
      (walkStop d p next).fld (SEC_PANp_KEK_retiring p) = d.fld (SEC_PANp_KEK_retiring p) ∧
      (walkStop d p next).fld (SEC_PANp_KEK_rewrap_busy p) = 0 ∧ (walkStop d p next).fld (SEC_PANp_REWRAP_next p) = next % 2 ^ 20 := by
  unfold walkStop
  dsimp only
  refine ⟨?_, ?_, ?_, ?_⟩
  · rw [Dev.fld_setFld_other _ _ _ _ (by simp), Dev.fld_setBit_other _ _ _ _ (by simp), Dev.fld_vault]
  · rw [Dev.fld_setFld_other _ _ _ _ (by simp), Dev.fld_setBit_other _ _ _ _ (by simp), Dev.fld_vault]
  · rw [Dev.fld_setFld_other _ _ _ _ (by simp), Dev.fld_setBit_same _ (by simp) (by simp)]
    rfl
  · exact Dev.fld_setFld_same _ _ _ (by simp)

/-- A walk stopped: the vault but for the walks, the slots and the cache, and the PAN's KEK fields. -/
structure Stopped (p : Nat) (d e : Dev) : Prop where
  keeps : Keeps ([.vault, .tbl] ++ noteParts) (walkRegs p) d e
  vault : e.vault = { d.vault with slots := e.vault.slots, cache := e.vault.cache, walks := e.vault.walks }
  walk : Tab.find e.vault.walks p = none
  active : e.fld (SEC_PANp_KEK_active p) = d.fld (SEC_PANp_KEK_active p)
  retiring : e.fld (SEC_PANp_KEK_retiring p) = d.fld (SEC_PANp_KEK_retiring p)

theorem Rewrapped.fld {d e : Dev} (h : Rewrapped d e) {x : Fld} (hx : keyRegs x.reg = false) : e.fld x = d.fld x := by
  simp only [Dev.fld, h.keeps.regs _ hx]

theorem stopped_walkStop {f : Fuses} {d : Dev} {p from_ : Nat} (hp : p < 8) (upto next : Nat) (h : Tab.find d.vault.walks p = some from_) :
    Stopped p d (walkStop (walkTo f d p upto) p next) := by
  obtain ⟨e, he, hto⟩ := walkTo_eq (f := f) upto h
  obtain ⟨hkek, -⟩ := keyRegs_pan hp
  obtain ⟨hactive, hretiring, -, -⟩ := walkStop_fields (walkTo f d p upto) p next
  have hmono : Keeps ([.vault, .tbl] ++ noteParts) (walkRegs p) d e := he.keeps.mono (List.Subset.refl _) fun _ => keyRegs_walkRegs
  rw [hto] at hactive hretiring ⊢
  refine ⟨?_, ?_, ?_, hactive.trans (he.fld hkek), hretiring.trans (he.fld hkek)⟩
  · exact (((hmono.vault (by simp) _).vault (by simp) _).setBit (by simp [walkRegs]) _).setFld (by simp [walkRegs]) _
  · have hv := he.vault
    unfold walkStop
    dsimp only [Dev.setFld_vault, Dev.setBit_vault]
    rw [hv]
  · exact (Tab.find_del _ _ _).trans (if_pos rfl)

/-- The walk of a PAN at its end: stopped, with no KEK RETIRING. -/
def walkDone (d : Dev) (p : Nat) : Dev := (walkStop d p 0).setFld (SEC_PANp_KEK_retiring p) 0x7F

theorem walkDone_fields (d : Dev) (p : Nat) :
    (walkDone d p).fld (SEC_PANp_KEK_retiring p) = 0x7F ∧ (walkDone d p).fld (SEC_PANp_KEK_rewrap_busy p) = 0 ∧
      (walkDone d p).fld (SEC_PANp_REWRAP_next p) = 0 ∧
      (walkDone d p).fld (SEC_PANp_KEK_active p) = (walkStop d p 0).fld (SEC_PANp_KEK_active p) := by
  obtain ⟨-, -, hbusy, hnext⟩ := walkStop_fields d p 0
  unfold walkDone
  refine ⟨?_, ?_, ?_, ?_⟩
  · exact Dev.fld_setFld_same _ _ _ (by simp)
  · rw [Dev.fld_setFld_other _ _ _ _ (by simp), hbusy]
  · rw [Dev.fld_setFld_other _ _ _ _ (by simp), hnext, Nat.zero_mod]
  · rw [Dev.fld_setFld_other _ _ _ _ (by simp)]

theorem walkDone_keeps {ps : List Part} {d e : Dev} {p : Nat} (h : Keeps ps (walkRegs p) d (walkStop e p 0)) :
    Keeps ps (walkRegs p) d (walkDone e p) := by
  rw [walkDone]
  exact h.setFld (by simp [walkRegs]) _

theorem walkDone_vault (d : Dev) (p : Nat) : (walkDone d p).vault = (walkStop d p 0).vault := by rw [walkDone, Dev.setFld_vault]

theorem kekWalkDone_eq {f : Fuses} {d : Dev} {p n : Nat} (h : Tab.find d.vault.walks p = some n) :
    kekWalkDone p f d = walkDone (walkTo f d p (2 ^ 20)) p := by
  rw [kekWalkDone, h, if_neg (by simp), walkDone]

theorem kekWalkDone_completes {p n : Nat} {s : State} (hup : s.dev.inReset = false) (hp : p < 8) (h : Tab.find s.dev.vault.walks p = some n) :
    Completes (.kekWalkDone p) s ([.vault, .tbl] ++ noteParts) (walkRegs p) fun t =>
      t.dev.fld (SEC_PANp_KEK_retiring p) = 0x7F ∧ t.dev.fld (SEC_PANp_KEK_rewrap_busy p) = 0 ∧ t.dev.fld (SEC_PANp_REWRAP_next p) = 0 ∧
      t.dev.fld (SEC_PANp_KEK_active p) = s.dev.fld (SEC_PANp_KEK_active p) ∧ Tab.find t.dev.vault.walks p = none := by
  have hst := stopped_walkStop (f := s.fuses) hp (2 ^ 20) 0 h
  obtain ⟨hretiring, hbusy, hnext, hactive⟩ := walkDone_fields (walkTo s.fuses s.dev p (2 ^ 20)) p
  have hwalk : Tab.find (walkDone (walkTo s.fuses s.dev p (2 ^ 20)) p).vault.walks p = none := by
    rw [walkDone_vault, hst.walk]
  exact completes_of_onDevF_eq (g := kekWalkDone p) rfl hup (kekWalkDone_eq h) (walkDone_keeps hst.keeps)
    ⟨hretiring, hbusy, hnext, hactive.trans hst.active, hwalk⟩

/-! ### KEK_INVALIDATE -/

theorem noted_kek {d e : Dev} (h : Noted d e) {p : Nat} (hp : p < 8) :
    e.fld (SEC_PANp_KEK_active p) = d.fld (SEC_PANp_KEK_active p) ∧ e.fld (SEC_PANp_KEK_retiring p) = d.fld (SEC_PANp_KEK_retiring p) :=
  ⟨h.fld _ (by simp only [SEC_PANp_KEK]; omega) (by simp only [SEC_PANp_KEK, RES_JRNL_NEWEST]; omega),
    h.fld _ (by simp only [SEC_PANp_KEK]; omega) (by simp only [SEC_PANp_KEK, RES_JRNL_NEWEST]; omega)⟩

/-- A walk aborted, or none: as one stopped, a place drawn. -/
theorem walkAbort_stopped (f : Fuses) (d : Dev) {p : Nat} (hp : p < 8) :
    ∃ n, Stopped p { d with draws := n } (walkAbort f d p) := by
  unfold walkAbort
  split
  · rename_i h
    exact ⟨d.draws, Keeps.refl _, rfl, h, rfl, rfl⟩
  · rename_i from_ h
    refine ⟨d.draws + 1, ?_⟩
    have hst := stopped_walkStop (f := f) (d := d.draw.2) hp (max from_ (d.draw.1 % 2 ^ 20)) (max from_ (d.draw.1 % 2 ^ 20)) h
    have hnote := noted_jNote (walkStop (walkTo f d.draw.2 p (max from_ (d.draw.1 % 2 ^ 20))) p (max from_ (d.draw.1 % 2 ^ 20))) 0x08 3 jABORTED 0 p 0
      (max from_ (d.draw.1 % 2 ^ 20) % 65536) (max from_ (d.draw.1 % 2 ^ 20) / 65536)
    obtain ⟨hactive, hretiring⟩ := noted_kek hnote hp
    have hv := hnote.vault
    exact ⟨hst.keeps.noted hnote (by simp) (by simp +contextual [walkRegs]), hv.symm ▸ hst.vault, hv.symm ▸ hst.walk,
      hactive.trans hst.active, hretiring.trans hst.retiring⟩

/-- A KEK taken out of both places of its PAN. -/
def kekTaken (d : Dev) (p sl : Nat) : Dev :=
  let d2 := if kekActive d p = some sl then d.setFld (SEC_PANp_KEK_active p) 0x7F else d
  if kekRetiring d2 p = some sl then d2.setFld (SEC_PANp_KEK_retiring p) 0x7F else d2

/-- The generation of a PAN's keys moved on. -/
def genMoved (d : Dev) (p : Nat) : Dev := { d with vault := { d.vault with gens := Tab.put d.vault.gens p (panGen d p + 1) } }

/-- A KEK and its PAN marked invalid, the PAN's cached keys dropped. -/
def kekMarked (d : Dev) (p sl : Nat) : Dev :=
  dropCached ((genMoved (setMark d sl true) p).setBit (SEC_PANp_KEK_invalid_pending p) true) fun c => c.pan == p

theorem invalidateBody_ok {p sl : Nat} {arg : List Byte} {f : Fuses} {d : Dev} (hp : field arg 0 1 = p) (hp8 : p < 8) (hsl : field arg 1 1 = sl)
    (hsl7 : sl ≤ 127) (hkek : kekActive d p = some sl ∨ kekRetiring d p = some sl) :
    invalidateBody arg f d = (scOK, [], kekMarked (kekTaken (walkAbort f d p) p sl) p sl) := by
  have hrange : ¬ (7 < p ∨ 127 < sl ∨ (kekActive d p ≠ some sl ∧ kekRetiring d p ≠ some sl)) := by
    rintro (h | h | ⟨ha, hr⟩)
    · omega
    · omega
    · exact hkek.elim ha hr
  subst hp hsl
  exact if_neg hrange

theorem kekActive_congr {d e : Dev} {p : Nat} (h : e.fld (SEC_PANp_KEK_active p) = d.fld (SEC_PANp_KEK_active p)) :
    kekActive e p = kekActive d p := by rw [kekActive, kekActive, h]

theorem kekRetiring_congr {d e : Dev} {p : Nat} (h : e.fld (SEC_PANp_KEK_retiring p) = d.fld (SEC_PANp_KEK_retiring p)) :
    kekRetiring e p = kekRetiring d p := by rw [kekRetiring, kekRetiring, h]

theorem kekActive_cleared (d : Dev) (p : Nat) : kekActive (d.setFld (SEC_PANp_KEK_active p) 0x7F) p = none :=
  if_pos (Dev.fld_setFld_same _ _ _ (by simp))

theorem kekRetiring_cleared (d : Dev) (p : Nat) : kekRetiring (d.setFld (SEC_PANp_KEK_retiring p) 0x7F) p = none :=
  if_pos (Dev.fld_setFld_same _ _ _ (by simp))

theorem kekTaken_active (d : Dev) (p sl : Nat) :
    kekActive (kekTaken d p sl) p = if kekActive d p = some sl then none else kekActive d p := by
  have hother : ∀ e : Dev, kekActive (e.setFld (SEC_PANp_KEK_retiring p) 0x7F) p = kekActive e p := fun e =>
    kekActive_congr (Dev.fld_setFld_other _ _ _ _ (by simp))
  unfold kekTaken
  extract_lets d2
  have h2 : kekActive d2 p = if kekActive d p = some sl then none else kekActive d p := by
    simp only [d2]
    split
    · exact kekActive_cleared d p
    · rfl
  split
  · rw [hother, h2]
  · exact h2

theorem kekTaken_retiring (d : Dev) (p sl : Nat) :
    kekRetiring (kekTaken d p sl) p = if kekRetiring d p = some sl then none else kekRetiring d p := by
  unfold kekTaken
  extract_lets d2
  have h2 : kekRetiring d2 p = kekRetiring d p := by
    simp only [d2]
    split
    · exact kekRetiring_congr (Dev.fld_setFld_other _ _ _ _ (by simp))
    · rfl
  rw [h2]
  split
  · exact kekRetiring_cleared d2 p
  · exact h2

theorem kekTaken_vault (d : Dev) (p sl : Nat) : (kekTaken d p sl).vault = d.vault := by
  unfold kekTaken
  dsimp only
  split <;> split <;> rfl

theorem kekTaken_keeps {ps : List Part} {rs : Nat → Bool} {d e : Dev} {p : Nat} (h : Keeps ps rs d e) (hr : rs (SEC_PANp_KEK p) = true)
    (sl : Nat) : Keeps ps rs d (kekTaken e p sl) := by
  have h2 : Keeps ps rs d (if kekActive e p = some sl then e.setFld (SEC_PANp_KEK_active p) 0x7F else e) := Keeps.ite (h.setFld hr _) h
  exact Keeps.ite (h2.setFld hr _) h2

theorem kekMarked_fields (d : Dev) (p sl : Nat) : kekActive (kekMarked d p sl) p = kekActive d p ∧
    kekRetiring (kekMarked d p sl) p = kekRetiring d p ∧ (kekMarked d p sl).fld (SEC_PANp_KEK_invalid_pending p) = 1 := by
  unfold kekMarked dropCached genMoved setMark
  refine ⟨kekActive_congr ?_, kekRetiring_congr ?_, ?_⟩
  · rw [Dev.fld_vault, Dev.fld_setBit_other _ _ _ _ (by simp), Dev.fld_vault, Dev.fld_vault]
  · rw [Dev.fld_vault, Dev.fld_setBit_other _ _ _ _ (by simp), Dev.fld_vault, Dev.fld_vault]
  · rw [Dev.fld_vault, Dev.fld_setBit_same _ (by simp) (by simp)]
    rfl

theorem kekMarked_vault (d : Dev) (p sl : Nat) : (kekMarked d p sl).vault =
    { (setMark d sl true).vault with gens := Tab.put d.vault.gens p (panGen d p + 1), cache := (kekMarked d p sl).vault.cache } := by
  rw [kekMarked, dropCached, Dev.setBit_vault]
  rfl

theorem kekMarked_slot {d : Dev} {p sl : Nat} {x : Slot} (h : (kekMarked d p sl).slot sl = some x) : x.kekInvalid = true := by
  have hslot : (kekMarked d p sl).slot sl = (setMark d sl true).slot sl := by
    rw [Dev.slot, kekMarked_vault]
    rfl
  rw [hslot, setMark_slot, if_pos rfl, Option.map_eq_some_iff] at h
  obtain ⟨y, -, rfl⟩ := h
  rfl

theorem dropCached_mem {d : Dev} {q : CacheEntry → Bool} {e : Nat × List CacheEntry} (he : e ∈ (dropCached d q).vault.cache) {c : CacheEntry}
    (hc : c ∈ e.2) : q c = false := by
  obtain ⟨y, -, rfl⟩ := List.mem_map.mp he
  simpa using (List.mem_filter.mp hc).2

theorem kekInvalidate_completes {w : Sys2Proof.Who} {m p sl : Nat} {arg : List Byte} {tam : Option Nat} {s : State} (hs : Serving s)
    (hcalm : Calm s tam) (hlen : arg.length = 64) (hm : secMaster w = some m) (hin : m ∈ [28, 31]) (harg : argsOk arg 2 = true)
    (hp : field arg 0 1 = p) (hp8 : p < 8) (hsl : field arg 1 1 = sl) (hsl7 : sl ≤ 127)
    (hkek : kekActive s.dev p = some sl ∨ kekRetiring s.dev p = some sl) :
    Completes (.kekInvalidate w arg tam) s ([.vault, .hif, .tbl, .draws] ++ noteParts) (walkRegs p) fun t => told t.dev w scOK [] = true ∧
      kekActive t.dev p = (if kekActive s.dev p = some sl then none else kekActive s.dev p) ∧
      kekRetiring t.dev p = (if kekRetiring s.dev p = some sl then none else kekRetiring s.dev p) ∧
      t.dev.fld (SEC_PANp_KEK_invalid_pending p) = 1 ∧ panGen t.dev p = panGen s.dev p + 1 ∧ Tab.find t.dev.vault.walks p = none ∧
      (∀ x, t.dev.slot sl = some x → x.kekInvalid = true) ∧ ∀ e ∈ t.dev.vault.cache, ∀ c ∈ e.2, c.pan ≠ p := by
  have hne : m ≠ 32 := by
    rintro rfl
    simp at hin
  obtain ⟨n, hst⟩ := walkAbort_stopped s.fuses s.dev hp8
  have hbegin : Keeps ([.vault, .hif, .tbl, .draws] ++ noteParts) (walkRegs p) s.dev { s.dev with draws := n } := (Keeps.refl _).draws (by simp) _
  have habort : Keeps ([.vault, .hif, .tbl, .draws] ++ noteParts) (walkRegs p) s.dev (walkAbort s.fuses s.dev p) :=
    hbegin.trans (hst.keeps.mono (by simp [noteParts]) fun _ h => h)
  have hkeep : Keeps ([.vault, .hif, .tbl, .draws] ++ noteParts) (walkRegs p) s.dev (kekMarked (kekTaken (walkAbort s.fuses s.dev p) p sl) p sl) :=
    (((kekTaken_keeps habort (by simp [walkRegs]) sl).vault (by simp) _).setBit (by simp [walkRegs]) _).dropCached (by simp) _
  have hactive : kekActive (walkAbort s.fuses s.dev p) p = kekActive s.dev p := kekActive_congr hst.active
  have hretiring : kekRetiring (walkAbort s.fuses s.dev p) p = kekRetiring s.dev p := kekRetiring_congr hst.retiring
  obtain ⟨hma, hmr, hpend⟩ := kekMarked_fields (kekTaken (walkAbort s.fuses s.dev p) p sl) p sl
  refine noFuse_completes (g := invalidateBody) rfl hs hcalm hlen hm hin hne harg (invalidateBody_ok hp hp8 hsl hsl7 hkek)
    (hkeep.secEnd (by simp) (by simp) _ _ _) ⟨told_secEnd hm _ _ _, ?_, ?_, (secEnd_fld _ _ _ _ _).trans hpend, ?_, ?_, fun x hx => ?_, fun e he c hc => ?_⟩
  · rw [kekActive_congr (secEnd_fld _ _ _ _ _), hma, kekTaken_active, hactive]
  · rw [kekRetiring_congr (secEnd_fld _ _ _ _ _), hmr, kekTaken_retiring, hretiring]
  · have hgens : panGen (kekTaken (walkAbort s.fuses s.dev p) p sl) p = panGen s.dev p := by
      rw [panGen, kekTaken_vault, hst.vault]
      rfl
    rw [panGen, secEnd_vault, kekMarked_vault]
    dsimp only
    rw [Tab.getD_put, if_pos rfl, hgens]
  · rw [secEnd_vault, kekMarked_vault]
    show Tab.find (kekTaken (walkAbort s.fuses s.dev p) p sl).vault.walks p = none
    rw [kekTaken_vault, hst.walk]
  · rw [secEnd_slot] at hx
    exact kekMarked_slot hx
  · rw [secEnd_vault] at he
    exact beq_eq_false_iff_ne.mp (dropCached_mem he hc)

/-! ### KEK_CLEAR -/

theorem kekClear_completes {p : Nat} {arg : List Byte} {tam : Option Nat} {s : State} (hs : Serving s) (hcalm : Calm s tam)
    (hlen : arg.length = 64) (harg : argsOk arg 1 = true) (hp : field arg 0 1 = p) (hp8 : p < 8) :
    Completes (.kekClear (.master (.cc true)) arg tam) s [.vault] (fun r => r == SEC_PANp_KEK p) fun t =>
      told t.dev (.master (.cc true)) scOK [] = true ∧ t.dev.vault = { s.dev.vault with sets := t.dev.vault.sets } ∧
      t.dev.fld (SEC_PANp_KEK_invalid_pending p) = 0 ∧ t.dev.fld (SEC_PANp_KEK_active p) = s.dev.fld (SEC_PANp_KEK_active p) := by
  refine noFuse_completes (g := kekClearBody) (ms := [28]) (d := s.dev.setBit (SEC_PANp_KEK_invalid_pending p) false) rfl hs hcalm hlen (m := 28)
    rfl (by decide) (by decide) harg ?_ (((Keeps.refl _).setBit (by simp) _).secEnd_master (by simp) _ _ _)
    ⟨told_cc (s.dev.setBit (SEC_PANp_KEK_invalid_pending p) false) true scOK [], secEnd_vault _ _ _ _, ?_, ?_⟩
  · simp only [kekClearBody, hp]
    exact if_neg (by omega)
  · exact (secEnd_fld _ _ _ _ _).trans (Dev.fld_setBit_same _ (by simp) (by simp) false)
  · exact (secEnd_fld _ _ _ _ _).trans (Dev.fld_setBit_other _ _ _ _ (by simp))

end Sys2Proof.Machine
end

section
/-! PROOF. The keys of nodes (12_keys_and_frame_security.md R351 to R356, R371, R372). -/

namespace Sys2Proof.Machine

theorem nodePan_lt (d : Dev) (n : Nat) : nodePan d n < 8 := Nat.mod_lt _ (show 0 < 2 ^ 3 by decide)

/-- The registers that unwrapping counts in, and those of events. -/
def unwrapRegs (r : Nat) : Bool := r == SEC_CNT_UNWRAP || r == SEC_CNT_KEY || noteRegs r

theorem keyRegs_unwrapRegs {a : Nat} (h : keyRegs a = true) : unwrapRegs a = true := by
  simp only [keyRegs, unwrapRegs, Bool.or_eq_true] at h ⊢
  tauto

theorem Obtained.unwraps {d e : Dev} (h : Obtained d e) : Keeps ([.vault] ++ noteParts) unwrapRegs d e :=
  h.keeps.mono (by simp) fun _ => keyRegs_unwrapRegs

theorem obtained_of_unwrapNode {f : Fuses} {d e : Dev} {master p n r : Nat} {pt : List Byte} (h : unwrapNode f d master p n = (r, pt, e)) :
    Obtained d e := by
  have := obtained_unwrapNode f d master p n
  rwa [h] at this

theorem wrapNode_ok {f : Fuses} {d : Dev} {master p n sl : Nat} {k : List Byte} (pt : List Byte) (hkek : kekActive d p = some sl)
    (huse : useKek f d master p sl = (scOK, k, d)) : wrapNode f d master p n pt = (scOK, setEntry d 3 n (Config.keyWrap k pt)) := by
  rw [wrapNode, hkek]
  simp only [huse, ne_eq, not_true_eq_false, if_false]

/-- The Control Complex pair reads what the command answered. -/
theorem told_secure (d : Dev) (r : Nat) (out : List Byte) : told (secEnd d (.master (.cc true)) r out) (.master (.cc true)) r out = true :=
  told_cc d true r out

/-! ### NODE_KEY_NEW -/

/-- The node's entries with a new key: both keys' fields reset, key 0 for sending, no cached key. -/
def newKeyDev (d : Dev) (n i0 i1 : Nat) (w : List Byte) : Dev :=
  dropCached (setNodeCtrl (resetKeyFields (resetKeyFields (setEntry d 3 n w) n 0 i0) n 1 i1) n 24 24 0) fun c => c.nix == n

theorem newKeyDev_fields (d : Dev) (n i0 i1 : Nat) (w : List Byte) : nodeKeyIndex (newKeyDev d n i0 i1 w) n 0 = i0 % 256 ∧
    nodeKeyIndex (newKeyDev d n i0 i1 w) n 1 = i1 % 256 ∧ nodeTxKey (newKeyDev d n i0 i1 w) n = 0 := by
  have hindex : ∀ (e : Dev) q k, nodeKeyIndex (dropCached e q) n k = nodeKeyIndex e n k := fun _ _ _ => rfl
  have htx : ∀ (e : Dev) q, nodeTxKey (dropCached e q) n = nodeTxKey e n := fun _ _ => rfl
  unfold newKeyDev
  refine ⟨?_, ?_, ?_⟩
  · rw [hindex, nodeKeyIndex_setNodeCtrl, nodeKeyIndex_resetKeyFields_other _ _ _ (by decide) (by decide) (by decide),
      nodeKeyIndex_resetKeyFields_same]
  · rw [hindex, nodeKeyIndex_setNodeCtrl, nodeKeyIndex_resetKeyFields_same]
  · rw [htx, nodeTxKey_setNodeCtrl]

theorem newKeyDev_keeps {ps : List Part} {rs : Nat → Bool} {d e : Dev} (h : Keeps ps rs d e) (hv : Part.vault ∈ ps) (ht : Part.tbl ∈ ps)
    (hts : Part.ts ∈ ps) (n i0 i1 : Nat) (w : List Byte) : Keeps ps rs d (newKeyDev e n i0 i1 w) :=
  (((((h.setEntry ht _ _ _).resetKeyFields ht hts _ _ _).resetKeyFields ht hts _ _ _).setNodeCtrl ht _ _ _ _).dropCached hv _)

theorem newKeyDev_parts (d : Dev) (n i0 i1 : Nat) (w : List Byte) :
    (newKeyDev d n i0 i1 w).draws = d.draws ∧ (newKeyDev d n i0 i1 w).vault = { d.vault with cache := (newKeyDev d n i0 i1 w).vault.cache } := by
  have hk : Keeps [.tbl, .ts] (fun _ => false) d
      (setNodeCtrl (resetKeyFields (resetKeyFields (setEntry d 3 n w) n 0 i0) n 1 i1) n 24 24 0) :=
    ((((Keeps.refl d).setEntry (by simp) _ _ _).resetKeyFields (by simp) (by simp) _ _ _).resetKeyFields (by simp) (by simp) _ _ _).setNodeCtrl
      (by simp) _ _ _ _
  have hv := hk.parts .vault (by decide)
  have hall : Keeps [.vault, .tbl, .ts] (fun _ => false) d (newKeyDev d n i0 i1 w) :=
    newKeyDev_keeps (Keeps.refl d) (by simp) (by simp) (by simp) _ _ _ _
  refine ⟨hall.parts .draws (by decide), ?_⟩
  rw [newKeyDev, dropCached, hv]

/-- A device after one draw of the DRBG. -/
def drawn (d : Dev) : Dev := { d with draws := d.draws + 1 }

/-- The plaintext of a new key. -/
def newPlain (d : Dev) (n : Nat) : List Byte := keyPlain (Config.random d.draws 16) (nodePan d n) n 0 0

theorem keyNewBody_ok {n sl : Nat} {arg k : List Byte} {f : Fuses} {d : Dev} (hn : field arg 0 4 = n) (hvalid : nodeValid d n = true)
    (htrng : d.fld SEC_STATUS_trng_fail = 0) (hkek : kekActive d (nodePan d n) = some sl)
    (huse : useKek f d 28 (nodePan d n) sl = (scOK, k, d)) :
    keyNewBody arg f d = (scOK, linkKey (newPlain d n) 0 (nodePan d n) n ++ linkKey (newPlain d n) 1 (nodePan d n) n,
      newKeyDev (drawn d) n (field arg 4 1) (field arg 5 1) (Config.keyWrap k (newPlain d n))) := by
  have hbit : d.bit SEC_STATUS_trng_fail = false := by rw [Dev.bit, htrng]; rfl
  have hwrap : wrapNode f (drawn d) 28 (nodePan d n) n (newPlain d n) = (scOK, setEntry (drawn d) 3 n (Config.keyWrap k (newPlain d n))) :=
    wrapNode_ok _ hkek (useSlot_congr huse rfl)
  subst hn
  rw [drawn, newPlain] at hwrap
  simp only [keyNewBody, hvalid, hbit, Bool.not_true, Bool.false_eq_true, if_false, Dev.drawBytes, hwrap, ne_eq, not_true_eq_false]
  rfl

theorem secEnd_nodeKeyIndex (d : Dev) (m : Sys2Proof.Master) (r : Nat) (out : List Byte) (n k : Nat) :
    nodeKeyIndex (secEnd d (.master m) r out) n k = nodeKeyIndex d n k := by
  have hk : Keeps [.vault] (fun _ => false) d (secEnd d (.master m) r out) := (Keeps.refl d).secEnd_master (by simp) m r out
  exact entryField_congr (hk.parts .bld (by decide)) (hk.parts .tbl (by decide)) _ _ _ _

theorem secEnd_nodeTxKey (d : Dev) (m : Sys2Proof.Master) (r : Nat) (out : List Byte) (n : Nat) :
    nodeTxKey (secEnd d (.master m) r out) n = nodeTxKey d n := by
  have hk : Keeps [.vault] (fun _ => false) d (secEnd d (.master m) r out) := (Keeps.refl d).secEnd_master (by simp) m r out
  rw [nodeTxKey, nodeTxKey, nodeCtrl, nodeCtrl, entryField_congr (hk.parts .bld (by decide)) (hk.parts .tbl (by decide))]

theorem secEnd_draws (d : Dev) (m : Sys2Proof.Master) (r : Nat) (out : List Byte) : (secEnd d (.master m) r out).draws = d.draws :=
  ((Keeps.refl (ps := [.vault]) (rs := fun _ => false) d).secEnd_master (by simp) m r out).parts .draws (by decide)

theorem nodeKeyNew_completes {n sl : Nat} {arg : List Byte} {tam : Option Nat} {k : List Byte} {s : State} (hs : Serving s)
    (hcalm : Calm s tam) (hlen : arg.length = 64) (harg : argsOk arg 6 = true) (hn : field arg 0 4 = n) (hvalid : nodeValid s.dev n = true)
    (htrng : s.dev.fld SEC_STATUS_trng_fail = 0) (hkek : kekActive s.dev (nodePan s.dev n) = some sl)
    (huse : useKek s.fuses s.dev 28 (nodePan s.dev n) sl = (scOK, k, s.dev)) :
    Completes (.nodeKeyNew (.master (.cc true)) arg tam) s [.vault, .tbl, .ts, .draws] (fun _ => false) fun t =>
      t.dev.draws = s.dev.draws + 1 ∧
      nodeKeyIndex t.dev n 0 = field arg 4 1 ∧ nodeKeyIndex t.dev n 1 = field arg 5 1 ∧ nodeTxKey t.dev n = 0 ∧
      t.dev.vault = { s.dev.vault with sets := t.dev.vault.sets, cache := t.dev.vault.cache } ∧
      told t.dev (.master (.cc true)) scOK (linkKey (newPlain s.dev n) 0 (nodePan s.dev n) n ++
        linkKey (newPlain s.dev n) 1 (nodePan s.dev n) n) = true := by
  have hdrawn : Keeps [.vault, .tbl, .ts, .draws] (fun _ => false) s.dev (drawn s.dev) := (Keeps.refl _).draws (by simp) _
  have hk := newKeyDev_keeps hdrawn (by simp) (by simp) (by simp) n (field arg 4 1) (field arg 5 1) (Config.keyWrap k (newPlain s.dev n))
  obtain ⟨h0, h1, htx⟩ := newKeyDev_fields (drawn s.dev) n (field arg 4 1) (field arg 5 1) (Config.keyWrap k (newPlain s.dev n))
  obtain ⟨hdraws, hvault⟩ := newKeyDev_parts (drawn s.dev) n (field arg 4 1) (field arg 5 1) (Config.keyWrap k (newPlain s.dev n))
  have hbody := keyNewBody_ok hn hvalid htrng hkek huse
  generalize newKeyDev (drawn s.dev) n (field arg 4 1) (field arg 5 1) (Config.keyWrap k (newPlain s.dev n)) = e at hk h0 h1 htx hdraws hvault hbody
  refine noFuse_completes (g := keyNewBody) (ms := [28]) rfl hs hcalm hlen (m := 28) rfl (by decide) (by decide) harg hbody
    (hk.secEnd_master (by simp) _ _ _) ⟨(secEnd_draws _ _ _ _).trans hdraws, ?_, ?_,
      (secEnd_nodeTxKey _ _ _ _ _).trans htx, ?_, told_secure _ _ _⟩
  · exact (secEnd_nodeKeyIndex _ _ _ _ _ _).trans (h0.trans (Nat.mod_eq_of_lt (field_lt arg 4 1)))
  · exact (secEnd_nodeKeyIndex _ _ _ _ _ _).trans (h1.trans (Nat.mod_eq_of_lt (field_lt arg 5 1)))
  · rw [secEnd_vault, hvault]
    rfl

/-! ### NODE_KEY_ROLL -/

/-- The plaintext of an entry with the generation of key j moved on. -/
def rolledPlain (pt : List Byte) (j : Nat) : List Byte :=
  pt.take (0x14 + j) ++ le 1 (field pt (0x14 + j) 1 + 1) ++ pt.drop (0x15 + j)

section
variable {n j r : Nat} {arg pt : List Byte} {f : Fuses} {d e : Dev}

theorem keyRollBody_failed (hn : field arg 0 4 = n) (hvalid : nodeValid d n = true) (hj : field arg 4 1 = j) (hj1 : j ≤ 1)
    (htx : nodeTxKey d n ≠ j) (hun : unwrapNode f d 28 (nodePan d n) n = (r, pt, e)) (hr : r ≠ scOK) :
    keyRollBody arg f d = (r, [], countObtain e r) := by
  subst hn hj
  simp only [keyRollBody, hvalid, Bool.not_true, Bool.false_eq_true, false_or, if_neg (Nat.not_lt.mpr hj1), if_neg htx, hun, ne_eq, hr,
    not_false_eq_true, if_true]

theorem keyRollBody_unwrapped {r1 : Nat} {d1 : Dev} (hn : field arg 0 4 = n) (hvalid : nodeValid d n = true) (hj : field arg 4 1 = j)
    (hj1 : j ≤ 1) (htx : nodeTxKey d n ≠ j) (hun : unwrapNode f d 28 (nodePan d n) n = (scOK, pt, e))
    (hwrap : wrapNode f e 28 (nodePan d n) n (rolledPlain pt j) = (r1, d1)) :
    keyRollBody arg f d = if r1 ≠ scOK then (r1, [], d1)
      else (scOK, linkKey (rolledPlain pt j) j (nodePan d n) n, dropCached (resetKeyFields d1 n j (field arg 5 1)) fun c => c.nix == n) := by
  subst hn hj
  rw [rolledPlain] at hwrap
  simp only [keyRollBody, hvalid, Bool.not_true, Bool.false_eq_true, false_or, if_neg (Nat.not_lt.mpr hj1), if_neg htx, hun, ne_eq,
    not_true_eq_false, if_false, hwrap]
  rfl

end

theorem nodeKeyIndex_dropCached (d : Dev) (q : CacheEntry → Bool) (n k : Nat) : nodeKeyIndex (dropCached d q) n k = nodeKeyIndex d n k := rfl

theorem nodeKeyRoll_completes {n j r : Nat} {arg pt : List Byte} {tam : Option Nat} {d : Dev} {s : State} (hs : Serving s)
    (hcalm : Calm s tam) (hlen : arg.length = 64) (harg : argsOk arg 6 = true) (hn : field arg 0 4 = n) (hvalid : nodeValid s.dev n = true)
    (hj : field arg 4 1 = j) (hj1 : j ≤ 1) (htx : nodeTxKey s.dev n ≠ j)
    (hun : unwrapNode s.fuses s.dev 28 (nodePan s.dev n) n = (r, pt, d)) :
    Completes (.nodeKeyRoll (.master (.cc true)) arg tam) s ([.vault, .tbl, .ts] ++ noteParts) unwrapRegs fun t =>
      (r ≠ scOK → told t.dev (.master (.cc true)) r [] = true) ∧
      (r = scOK → ∀ d', wrapNode s.fuses d 28 (nodePan s.dev n) n (rolledPlain pt j) = (scOK, d') →
        nodeKeyIndex t.dev n j = field arg 5 1 ∧
        told t.dev (.master (.cc true)) scOK (linkKey (rolledPlain pt j) j (nodePan s.dev n) n) = true) := by
  have hob := obtained_of_unwrapNode hun
  have hk : Keeps ([.vault, .tbl, .ts] ++ noteParts) unwrapRegs s.dev d := hob.unwraps.mono (by simp [noteParts]) fun _ h => h
  by_cases hr : r = scOK
  · subst hr
    have hre := rewrapped_wrapNode s.fuses d 28 (nodePan s.dev n) n (rolledPlain pt j)
    rcases hwrap : wrapNode s.fuses d 28 (nodePan s.dev n) n (rolledPlain pt j) with ⟨r1, d1⟩
    rw [hwrap] at hre
    have hk1 : Keeps ([.vault, .tbl, .ts] ++ noteParts) unwrapRegs s.dev d1 :=
      hk.trans (hre.keeps.mono (by simp [noteParts]) fun _ => keyRegs_unwrapRegs)
    have hbody := keyRollBody_unwrapped hn hvalid hj hj1 htx hun hwrap
    by_cases hr1 : r1 = scOK
    · rw [if_neg (not_not.mpr hr1)] at hbody
      refine noFuse_completes (g := keyRollBody) (ms := [28]) rfl hs hcalm hlen (m := 28) rfl (by decide) (by decide) harg hbody
        (((hk1.resetKeyFields (by simp) (by simp) _ _ _).dropCached (by simp) _).secEnd_master (by simp) _ _ _)
        ⟨fun h => absurd rfl h, fun _ d' _ => ⟨?_, told_secure _ _ _⟩⟩
      rw [secEnd_nodeKeyIndex, nodeKeyIndex_dropCached, nodeKeyIndex_resetKeyFields_same]
      exact Nat.mod_eq_of_lt (field_lt arg 5 1)
    · rw [if_pos hr1] at hbody
      exact noFuse_completes (g := keyRollBody) (ms := [28]) rfl hs hcalm hlen (m := 28) rfl (by decide) (by decide) harg hbody
        (hk1.secEnd_master (by simp) _ _ _)
        ⟨fun h => absurd rfl h, fun _ d' h => absurd (congrArg Prod.fst h) hr1⟩
  · refine noFuse_completes (g := keyRollBody) (ms := [28]) rfl hs hcalm hlen (m := 28) rfl (by decide) (by decide) harg
      (keyRollBody_failed hn hvalid hj hj1 htx hun hr) (Keeps.secEnd_master ?_ (by simp) _ _ _)
      ⟨fun _ => told_secure _ _ _, fun h => absurd h hr⟩
    exact hk.trans ((obtained_countObtain d r).unwraps.mono (by simp [noteParts]) fun _ h => h)

/-! ### NODE_KEY_GET and NODE_KEY_EXPORT -/

theorem countObtain_unwraps {s : State} {d : Dev} (h : Obtained s.dev d) (r : Nat) :
    Keeps ([.vault] ++ noteParts) unwrapRegs s.dev (if r = scOK then d else countObtain d r) :=
  Keeps.ite h.unwraps (h.trans (obtained_countObtain d r)).unwraps

theorem keyGetBody_eq {n j r : Nat} {arg pt : List Byte} {f : Fuses} {d e : Dev} (hn : field arg 0 4 = n) (hvalid : nodeValid d n = true)
    (hj : field arg 4 1 = j) (hj1 : j ≤ 1) (hun : unwrapNode f d 28 (nodePan d n) n = (r, pt, e)) :
    keyGetBody arg f d = (r, if r = scOK then linkKey pt j (nodePan d n) n else [], if r = scOK then e else countObtain e r) := by
  subst hn hj
  simp only [keyGetBody, hvalid, Bool.not_true, Bool.false_eq_true, false_or, if_neg (Nat.not_lt.mpr hj1), hun]
  by_cases hr : r = scOK
  · simp only [hr, ne_eq, not_true_eq_false, if_false, if_true]
  · simp only [hr, ne_eq, not_false_eq_true, if_false, if_true]

theorem nodeKeyGet_completes {n j r : Nat} {arg pt : List Byte} {tam : Option Nat} {d : Dev} {s : State} (hs : Serving s)
    (hcalm : Calm s tam) (hlen : arg.length = 64) (harg : argsOk arg 5 = true) (hn : field arg 0 4 = n) (hvalid : nodeValid s.dev n = true)
    (hj : field arg 4 1 = j) (hj1 : j ≤ 1) (hun : unwrapNode s.fuses s.dev 28 (nodePan s.dev n) n = (r, pt, d)) :
    Completes (.nodeKeyGet (.master (.cc true)) arg tam) s ([.vault] ++ noteParts) unwrapRegs fun t =>
      told t.dev (.master (.cc true)) r (if r = scOK then linkKey pt j (nodePan s.dev n) n else []) = true :=
  noFuse_completes (g := keyGetBody) (ms := [28]) rfl hs hcalm hlen (m := 28) rfl (by decide) (by decide) harg
    (keyGetBody_eq hn hvalid hj hj1 hun) ((countObtain_unwraps (obtained_of_unwrapNode hun) r).secEnd_master (by simp) _ _ _) (told_secure _ _ _)

theorem keyExportBody_eq {n i r : Nat} {arg k pt : List Byte} {f : Fuses} {d e : Dev} (hn : field arg 0 4 = n) (hvalid : nodeValid d n = true)
    (hi : field arg 4 1 = i) (hi7 : i ≤ 127) (huse : useSlot f d i 46 2 (some 28) (some (nodePan d n)) = (scOK, k, d))
    (hun : unwrapNode f d 28 (nodePan d n) n = (r, pt, e)) :
    keyExportBody arg f d = (r, if r = scOK then Config.keyWrap k pt else [], if r = scOK then e else countObtain e r) := by
  subst hn hi
  simp only [keyExportBody, hvalid, Bool.not_true, Bool.false_eq_true, false_or, if_neg (Nat.not_lt.mpr hi7), huse, hun, ne_eq,
    not_true_eq_false, if_false]
  by_cases hr : r = scOK
  · simp only [hr, not_true_eq_false, if_false, if_true]
  · simp only [hr, not_false_eq_true, if_false, if_true]

theorem nodeKeyExport_completes {n i r : Nat} {arg k pt : List Byte} {tam : Option Nat} {d : Dev} {s : State} (hs : Serving s)
    (hcalm : Calm s tam) (hlen : arg.length = 64) (harg : argsOk arg 5 = true) (hn : field arg 0 4 = n) (hvalid : nodeValid s.dev n = true)
    (hi : field arg 4 1 = i) (hi7 : i ≤ 127) (huse : useSlot s.fuses s.dev i 46 2 (some 28) (some (nodePan s.dev n)) = (scOK, k, s.dev))
    (hun : unwrapNode s.fuses s.dev 28 (nodePan s.dev n) n = (r, pt, d)) :
    Completes (.nodeKeyExport (.master (.cc true)) arg tam) s ([.vault] ++ noteParts) unwrapRegs fun t =>
      told t.dev (.master (.cc true)) r (if r = scOK then Config.keyWrap k pt else []) = true :=
  noFuse_completes (g := keyExportBody) (ms := [28]) rfl hs hcalm hlen (m := 28) rfl (by decide) (by decide) harg
    (keyExportBody_eq hn hvalid hi hi7 huse hun) ((countObtain_unwraps (obtained_of_unwrapNode hun) r).secEnd_master (by simp) _ _ _)
    (told_secure _ _ _)

/-! ### NODE_KEY_IMPORT -/

/-- The plaintext that an imported key gives an entry. -/
def importedPlain (x : List Byte) (p n : Nat) : List Byte := keyPlain (x.take 16) p n (field x 0x14 1) (field x 0x15 1)

section
variable {n i sl : Nat} {arg k k' : List Byte} {f : Fuses} {d : Dev}

theorem keyImportBody_none (hn : field arg 0 4 = n) (hvalid : nodeValid d n = true) (hi : field arg 4 1 = i) (hi7 : i ≤ 127)
    (hres : field arg 5 3 = 0) (huse : useSlot f d i 46 2 (some 28) (some (nodePan d n)) = (scOK, k, d))
    (hun : Config.keyUnwrap k (slice arg 8 32) = none) :
    keyImportBody arg f d = (scUNWRAP_FAIL, [], (countUnwrap d).inc SEC_CNT_KEY_unwrap_fail) := by
  subst hn hi
  simp only [keyImportBody, hvalid, Bool.not_true, Bool.false_eq_true, false_or, hres, not_true_eq_false, or_false,
    if_neg (Nat.not_lt.mpr hi7), huse, hun, ne_eq, if_false]

theorem countUnwrap_kek {p : Nat} (hp : p < 8) (d : Dev) : kekActive (countUnwrap d) p = kekActive d p :=
  kekActive_congr ((obtained_countUnwrap d).fld _ (keyRegs_pan hp).1)

theorem keyImportBody_some {x : List Byte} (hn : field arg 0 4 = n) (hvalid : nodeValid d n = true) (hi : field arg 4 1 = i) (hi7 : i ≤ 127)
    (hres : field arg 5 3 = 0) (huse : useSlot f d i 46 2 (some 28) (some (nodePan d n)) = (scOK, k, d))
    (hkek : kekActive d (nodePan d n) = some sl) (huse' : useKek f d 28 (nodePan d n) sl = (scOK, k', d))
    (hun : Config.keyUnwrap k (slice arg 8 32) = some x) :
    keyImportBody arg f d = (scOK, [], dropCached (setEntry (countUnwrap d) 3 n (Config.keyWrap k' (importedPlain x (nodePan d n) n)))
      fun c => c.nix == n) := by
  have hwrap := wrapNode_ok (n := n) (importedPlain x (nodePan d n) n) ((countUnwrap_kek (nodePan_lt d n) d).trans hkek)
    (useSlot_congr huse' (e := countUnwrap d) rfl)
  rw [importedPlain] at hwrap
  subst hn hi
  simp only [keyImportBody, hvalid, Bool.not_true, Bool.false_eq_true, false_or, hres, not_true_eq_false, or_false,
    if_neg (Nat.not_lt.mpr hi7), huse, hun, ne_eq, if_false, hwrap]
  rfl

end

theorem nodeKeyImport_completes {n i sl : Nat} {arg k k' : List Byte} {tam : Option Nat} {s : State} (hs : Serving s) (hcalm : Calm s tam)
    (hlen : arg.length = 64) (harg : argsOk arg 40 = true) (hn : field arg 0 4 = n) (hvalid : nodeValid s.dev n = true)
    (hi : field arg 4 1 = i) (hi7 : i ≤ 127) (hres : field arg 5 3 = 0)
    (huse : useSlot s.fuses s.dev i 46 2 (some 28) (some (nodePan s.dev n)) = (scOK, k, s.dev))
    (hkek : kekActive s.dev (nodePan s.dev n) = some sl) (huse' : useKek s.fuses s.dev 28 (nodePan s.dev n) sl = (scOK, k', s.dev)) :
    Completes (.nodeKeyImport (.master (.cc true)) arg tam) s [.vault, .tbl] (fun r => r == SEC_CNT_UNWRAP || r == SEC_CNT_KEY) fun t =>
      told t.dev (.master (.cc true)) (if (Config.keyUnwrap k (slice arg 8 32)).isSome then scOK else scUNWRAP_FAIL) [] = true ∧
      t.dev.reg SEC_CNT_UNWRAP = s.dev.reg SEC_CNT_UNWRAP + 1 := by
  have hk : Keeps [.vault, .tbl] (fun r => r == SEC_CNT_UNWRAP || r == SEC_CNT_KEY) s.dev (countUnwrap s.dev) := (Keeps.refl _).setReg rfl _
  have hcount : (countUnwrap s.dev).reg SEC_CNT_UNWRAP = s.dev.reg SEC_CNT_UNWRAP + 1 := Dev.reg_setReg_same _ _ _
  have hend : ∀ (d : Dev) (r : Nat) (out : List Byte), (secEnd d (.master (.cc true)) r out).reg SEC_CNT_UNWRAP = d.reg SEC_CNT_UNWRAP :=
    fun d r out => by simp only [Dev.reg, secEnd_regs]
  cases hun : Config.keyUnwrap k (slice arg 8 32) with
  | none =>
    exact noFuse_completes (g := keyImportBody) (ms := [28]) rfl hs hcalm hlen (m := 28) rfl (by decide) (by decide) harg
      (keyImportBody_none hn hvalid hi hi7 hres huse hun) ((hk.inc rfl).secEnd_master (by simp) _ _ _)
      ⟨told_secure _ _ _, (hend _ _ _).trans ((Dev.reg_inc_other _ _ _ (by decide)).trans hcount)⟩
  | some x =>
    exact noFuse_completes (g := keyImportBody) (ms := [28]) rfl hs hcalm hlen (m := 28) rfl (by decide) (by decide) harg
      (keyImportBody_some hn hvalid hi hi7 hres huse hkek huse' hun)
      (((hk.setEntry (by simp) _ _ _).dropCached (by simp) _).secEnd_master (by simp) _ _ _) ⟨told_secure _ _ _, (hend _ _ _).trans hcount⟩

/-- Settles O48: a KEK's places and walk, and the entries of nodes that its use wraps and unwraps. -/
theorem keksAndNodeKeys : Obligations.KeksAndNodeKeys := by
  unfold Obligations.KeksAndNodeKeys
  exact ⟨fun p sl arg tam k x s => kekRotate_completes, fun p n s => kekWalkDone_completes, fun w m p sl arg tam s => kekInvalidate_completes,
    fun p arg tam s => kekClear_completes, fun n sl arg tam k s => nodeKeyNew_completes,
    fun n j r arg pt tam d s => nodeKeyRoll_completes, fun n j r arg pt tam d s => nodeKeyGet_completes,
    fun n i r arg k pt tam d s => nodeKeyExport_completes, fun n i sl arg k k' tam s => nodeKeyImport_completes⟩

end Sys2Proof.Machine
end

section
/-! SUPPORT. The end of a start or update command, the waits of one in progress, and the download (14_start_and_self_update.md R405, R406,
R412, R415, R416). -/

namespace Sys2Proof.Machine

/-! ### The end of a command -/

theorem bootEnd_master (d : Dev) (m : Sys2Proof.Master) (code detail : Nat) : bootEnd d (.master m) code detail =
    ((d.setFld BOOT_CMD_STATUS_result code).setFld BOOT_CMD_STATUS_detail detail).setBit BOOT_CMD_STATUS_busy false := rfl

/-- Result and detail reach who asked. -/
theorem bootTold_bootEnd (d : Dev) (w : Sys2Proof.Who) {code detail : Nat} (hc : code < 256) (hd : detail < 256) :
    bootTold (bootEnd d w code detail) w code detail = true := by
  cases w with
  | cmd j => exact told_toCmd d j code (le 4 detail)
  | master m =>
    rw [bootEnd_master]
    generalize hd1 : d.setFld BOOT_CMD_STATUS_result code = d1
    have hresult : d1.fld BOOT_CMD_STATUS_result = code :=
      hd1 ▸ (Dev.fld_setFld_same d BOOT_CMD_STATUS_result code (by decide)).trans (Nat.mod_eq_of_lt hc)
    simp only [bootTold, Bool.and_eq_true, beq_iff_eq]
    refine ⟨⟨?_, ?_⟩, ?_⟩
    · rw [Dev.fld_setBit_other _ _ _ _ (by decide), Dev.fld_setFld_other _ _ _ _ (by decide), hresult]
    · rw [Dev.fld_setBit_other _ _ _ _ (by decide)]
      exact (Dev.fld_setFld_same d1 BOOT_CMD_STATUS_detail detail (by decide)).trans (Nat.mod_eq_of_lt hd)
    · exact Dev.fld_setBit_same _ (by decide) (by decide) false

/-- Who asked is told by the result's registers and the host interface alone. -/
theorem bootTold_congr {d e : Dev} (hhif : e.hif = d.hif) (hreg : e.reg BOOT_CMD_STATUS = d.reg BOOT_CMD_STATUS) (w : Sys2Proof.Who)
    (code detail : Nat) : bootTold e w code detail = bootTold d w code detail := by
  cases w with
  | cmd j => simp only [bootTold, told, hhif]
  | master m => simp only [bootTold, Dev.fld, hreg]

theorem Keeps.bootEnd {ps : List Part} {rs : Nat → Bool} {d e : Dev} (h : Keeps ps rs d e) (hh : Part.hif ∈ ps)
    (hr : rs BOOT_CMD_STATUS = true) (w : Sys2Proof.Who) (code detail : Nat) : Keeps ps rs d (bootEnd e w code detail) := by
  cases w with
  | cmd j => exact h.toCmd hh (.cmd j) code (le 4 detail)
  | master m => exact ((h.setFld hr _).setFld hr _).setBit hr _

theorem bootEnd_boot (d : Dev) (w : Sys2Proof.Who) (code detail : Nat) : (bootEnd d w code detail).boot = d.boot := by
  cases w <;> rfl

theorem bootEnd_reg (d : Dev) (w : Sys2Proof.Who) (code detail : Nat) {a : Nat} (ha : a ≠ BOOT_CMD_STATUS) :
    (bootEnd d w code detail).reg a = d.reg a :=
  Keeps.regs (Keeps.bootEnd (ps := [.hif]) (rs := (· == BOOT_CMD_STATUS)) (Keeps.refl d) (by decide) (by decide) w code detail) a (by simpa using ha)

theorem bootEnd_fld (d : Dev) (w : Sys2Proof.Who) (code detail : Nat) {x : Fld} (hx : x.reg ≠ BOOT_CMD_STATUS) :
    (bootEnd d w code detail).fld x = d.fld x := by
  rw [Dev.fld, bootEnd_reg d w code detail hx, Dev.fld]

theorem bundleArea_congr {d e : Dev} (h : e.boot.areas = d.boot.areas) (k : Nat) : bundleArea e k = bundleArea d k := by
  rw [bundleArea, h, bundleArea]

/-! ### While a command is in progress (R412) -/

theorem bootRun_idle {d : Dev} (h : d.boot.run = none) (w : Sys2Proof.Who) (k : Dev) : bootRun d w k = k := by simp [bootRun, h]

theorem bootRun_busy {d : Dev} {x : BootRun} (h : d.boot.run = some x) (j : Nat) (k : Dev) : bootRun d (.cmd j) k = bootEnd d (.cmd j) upBUSY 0 := by
  simp [bootRun, h, bootBusy, isMaster]

theorem updBusy_completes {c : Instr} {j : Nat} {s : State} (hup : s.dev.inReset = false)
    (hc : exec c s = s.onDev (bootEnd · (.cmd j) upBUSY 0)) :
    Completes c s [.hif] (fun _ => false) fun t => bootTold t.dev (.cmd j) upBUSY 0 = true :=
  completes_of_onDev hc hup rfl ((Keeps.refl _).toCmd (by decide) (.cmd j) upBUSY (le 4 0)) (bootTold_bootEnd s.dev (.cmd j) (by decide) (by decide))

/-- A queue's command that comes while another is in progress ends BUSY. -/
theorem updBusy_exec {c : Instr} {j len off : Nat} {x : BootRun} {data : List Byte} {buf stall : Option Nat} {restart : Bool} {s : State}
    (hup : s.dev.inReset = false) (hrun : s.dev.boot.run = some x)
    (hc : c ∈ [.updBegin (.cmd j) len false, .updWrite (.cmd j) off len buf data stall, .updVerify (.cmd j), .updActivate (.cmd j) restart stall,
      .restart (.cmd j) true true]) : exec c s = s.onDev (bootEnd · (.cmd j) upBUSY 0) := by
  have hsome : s.dev.boot.run.isSome = true := by rw [hrun]; rfl
  have hbusy : bootBusy s.dev (.cmd j) upBUSY = bootEnd s.dev (.cmd j) upBUSY 0 := by simp [bootBusy, isMaster]
  rw [s.onDev_up _ hup]
  simp only [List.mem_cons, List.not_mem_nil, or_false] at hc
  rcases hc with rfl | rfl | rfl | rfl | rfl
  · exact (s.onDev_up (fun d => updBegin d (.cmd j) len false) hup).trans (by rw [updBegin, bootRun_busy hrun])
  · exact (s.onDev_up (fun d => updWrite d (.cmd j) off len (updData d buf data) stall) hup).trans (by rw [updWrite, bootRun_busy hrun])
  · exact (s.onDevF_up (fun f d => updVerify f d (.cmd j)) hup).trans (by rw [updVerify, bootRun_busy hrun])
  · exact (s.onFuses_up (updActivate (.cmd j) restart stall) hup).trans (by rw [updActivate, if_pos hsome, hbusy])
  · exact (s.onFuses_up (Machine.restart (.cmd j) true true) hup).trans (by rw [Machine.restart, if_pos hsome, hbusy])

/-- The command in progress ends. -/
theorem Keeps.runEnd {ps : List Part} {rs : Nat → Bool} {d e : Dev} (h : Keeps ps rs d e) (hb : Part.boot ∈ ps) (hh : Part.hif ∈ ps)
    (hr : rs BOOT_CMD_STATUS = true) (x : BootRun) (code detail : Nat) : Keeps ps rs d (runEnd e x code detail) :=
  Keeps.bootEnd (h.boot hb _) hh hr _ _ _

theorem runEnd_boot (d : Dev) (x : BootRun) (code detail : Nat) : (runEnd d x code detail).boot = { d.boot with run := none } :=
  bootEnd_boot _ _ _ _

theorem runEnd_reg (d : Dev) (x : BootRun) (code detail : Nat) {a : Nat} (ha : a ≠ BOOT_CMD_STATUS) :
    (runEnd d x code detail).reg a = d.reg a := bootEnd_reg _ _ _ _ ha

theorem runEnd_completes {c : Instr} {x : BootRun} {code : Nat} {s : State} (hup : s.dev.inReset = false)
    (hc : exec c s = .next { s with dev := runEnd s.dev x code 0 }) (hcode : code < 256) :
    Completes c s [.boot, .hif] (fun a => a == BOOT_CMD_STATUS) fun t =>
      bootTold t.dev x.who code 0 = true ∧ t.dev.boot = { s.dev.boot with run := none } :=
  completes_of_onDev (g := fun d => runEnd d x code 0) (hc.trans (s.onDev_up (fun d => runEnd d x code 0) hup).symm) hup rfl
    ((Keeps.refl _).runEnd (by decide) (by decide) (by decide) x code 0) ⟨bootTold_bootEnd _ _ hcode (by decide), runEnd_boot _ _ _ _⟩

/-- A block fails twice: the command ends FLASH (R416). -/
theorem flashLate_failed {d : Dev} {x : BootRun} (hrun : d.boot.run = some x) (hcode : x.code ≠ 4) (f : Fuses) :
    flashLate true f d = (f, runEnd d x upFLASH 0) := by
  simp only [flashLate, hrun, Bool.not_true, Bool.false_eq_true, if_false]
  split
  · rename_i h _
    exact absurd h hcode
  · rfl

theorem Keeps.updBeginDone {ps : List Part} {rs : Nat → Bool} {d e : Dev} (h : Keeps ps rs d e) (hb : Part.boot ∈ ps)
    (hr : rs BOOT_STAGED_OFS = true) (len : Nat) : Keeps ps rs d (updBeginDone e len) := (h.boot hb _).setReg hr _

theorem updBeginDone_offset (d : Dev) (len : Nat) : (updBeginDone d len).reg BOOT_STAGED_OFS = 0 := Dev.reg_setReg_same _ _ _

/-- The second try of an UPD_BEGIN's erase succeeds: the download opens. -/
theorem flashLate_begun {d : Dev} {w : Sys2Proof.Who} {len : Nat} (hrun : d.boot.run = some ⟨w, 1, [len], [], 0⟩) (f : Fuses) :
    flashLate false f d = (f, runEnd (updBeginDone d len) ⟨w, 1, [len], [], 0⟩ upOK 0) := by
  simp only [flashLate, hrun, Bool.not_false, if_true, runFinish, List.headD_cons]

theorem flashLate_failed_completes {c : Instr} {x : BootRun} {s : State} (hc : exec c s = s.onFuses (flashLate true)) (hup : s.dev.inReset = false)
    (hrun : s.dev.boot.run = some x) (hcode : x.code ≠ 4) :
    Completes c s [.boot, .hif] (fun a => a == BOOT_CMD_STATUS) fun t =>
      bootTold t.dev x.who upFLASH 0 = true ∧ t.dev.boot = { s.dev.boot with run := none } :=
  runEnd_completes hup (by rw [hc, s.onFuses_up _ hup, flashLate_failed hrun hcode]) (by decide)

theorem flashLate_begun_completes {c : Instr} {w : Sys2Proof.Who} {len : Nat} {s : State} (hc : exec c s = s.onFuses (flashLate false))
    (hup : s.dev.inReset = false) (hrun : s.dev.boot.run = some ⟨w, 1, [len], [], 0⟩) :
    Completes c s [.boot, .hif] (fun a => a == BOOT_CMD_STATUS || a == BOOT_STAGED_OFS) fun t => bootTold t.dev w upOK 0 = true ∧
      t.dev.boot = { s.dev.boot with run := none, download := some (len, 0), open_ := true } ∧ t.dev.reg BOOT_STAGED_OFS = 0 :=
  completes_of_onFuses_eq hc hup (flashLate_begun hrun s.fuses)
    (((Keeps.refl s.dev).updBeginDone (by decide) (by decide) len).runEnd (by decide) (by decide) (by decide) _ _ _)
    ⟨bootTold_bootEnd _ _ (by decide) (by decide), runEnd_boot _ _ _ _, (runEnd_reg _ _ _ _ (by decide)).trans (updBeginDone_offset s.dev len)⟩

theorem hostReadTimeout_completes {x : BootRun} {s : State} (hup : s.dev.inReset = false) (hrun : s.dev.boot.run = some x)
    (hcode : x.code = 2 ∨ x.code = 8) :
    Completes .hostReadTimeout s [.boot, .hif] (fun a => a == BOOT_CMD_STATUS) fun t =>
      bootTold t.dev x.who upTIMEOUT 0 = true ∧ t.dev.boot = { s.dev.boot with run := none } := by
  have hlate : hostReadLate s.dev = runEnd s.dev x upTIMEOUT 0 := by simp only [hostReadLate, hrun, if_pos hcode]
  exact runEnd_completes hup ((s.onDev_up hostReadLate hup).trans (by rw [hlate])) (by decide)

/-! ### The download (R405, R406) -/

theorem Keeps.stagedClear {ps : List Part} {rs : Nat → Bool} {d e : Dev} (h : Keeps ps rs d e) (hr : rs BOOT_STATUS = true) :
    Keeps ps rs d (stagedClear e) := h.setBit hr false

theorem stagedClear_staged (d : Dev) : (stagedClear d).fld BOOT_STATUS_staged_ok = 0 := Dev.fld_setBit_same d (by decide) (by decide) false

theorem updBegin_completes {w : Sys2Proof.Who} {len : Nat} {s : State} (hup : s.dev.inReset = false) (hrun : s.dev.boot.run = none)
    (hstage : updStage s.dev = true) (hlen : within len 352 (areaSize s.dev 3) = true) :
    Completes (.updBegin w len false) s [.boot, .hif] (fun a => a == BOOT_CMD_STATUS || a == BOOT_STATUS || a == BOOT_STAGED_OFS) fun t =>
      bootTold t.dev w upOK 0 = true ∧ t.dev.boot = { s.dev.boot with download := some (len, 0), open_ := true } ∧
      t.dev.fld BOOT_STATUS_staged_ok = 0 ∧ t.dev.reg BOOT_STAGED_OFS = 0 := by
  have hbegin : updBegin s.dev w len false = bootEnd (updBeginDone (stagedClear s.dev) len) w upOK 0 := by
    simp [updBegin, bootRun_idle hrun, hstage, hlen]
  refine completes_of_onDev (g := fun d => updBegin d w len false) rfl hup hbegin ((((Keeps.refl s.dev).stagedClear (by decide)).updBeginDone (by decide) (by decide) len).bootEnd (by decide) (by decide) w upOK 0)
    ⟨bootTold_bootEnd _ _ (by decide) (by decide), bootEnd_boot _ _ _ _, ?_, ?_⟩
  · rw [bootEnd_fld _ _ _ _ (by decide), updBeginDone, Dev.fld_setReg, if_neg (by decide)]
    exact stagedClear_staged s.dev
  · exact (bootEnd_reg _ _ _ _ (by decide)).trans (updBeginDone_offset _ len)

theorem updBegin_waits {w : Sys2Proof.Who} {len : Nat} {s : State} (hup : s.dev.inReset = false) (hrun : s.dev.boot.run = none)
    (hstage : updStage s.dev = true) (hlen : within len 352 (areaSize s.dev 3) = true) :
    Completes (.updBegin w len true) s [.boot] (fun a => a == BOOT_CMD_STATUS || a == BOOT_STATUS) fun t =>
      t.dev.boot = { s.dev.boot with run := some ⟨w, 1, [len], [], 0⟩ } ∧ t.dev.fld BOOT_STATUS_staged_ok = 0 := by
  have hbegin : updBegin s.dev w len true = bootWait (stagedClear s.dev) ⟨w, 1, [len], [], 0⟩ := by
    simp [updBegin, bootRun_idle hrun, hstage, hlen]
  have hkeeps : Keeps [.boot] (fun a => a == BOOT_CMD_STATUS || a == BOOT_STATUS) s.dev
      { stagedClear s.dev with boot := { (stagedClear s.dev).boot with run := some ⟨w, 1, [len], [], 0⟩ } } :=
    ((Keeps.refl s.dev).stagedClear (by decide)).boot (by decide) _
  cases w with
  | cmd j => exact completes_of_onDev (g := fun d => updBegin d (.cmd j) len true) rfl hup hbegin hkeeps ⟨rfl, stagedClear_staged s.dev⟩
  | master m =>
    exact completes_of_onDev (g := fun d => updBegin d (.master m) len true) rfl hup hbegin (hkeeps.setBit (x := BOOT_CMD_STATUS_busy) (by decide) true)
      ⟨rfl, (Dev.fld_setBit_other _ _ _ _ (by decide)).trans (stagedClear_staged s.dev)⟩

/-- All the blocks of a write's data are the data. -/
theorem slice_writeBlocks (bytes : List Byte) : slice bytes (65536 * 0) (65536 * (writeBlocks bytes.length - 0)) = bytes := by
  simp only [slice, Nat.mul_zero, List.drop_zero, writeBlocks]
  exact List.take_of_length_le (by omega)

/-- A write of all its blocks. -/
theorem writeSome_all (d : Dev) (off : Nat) {bytes : List Byte} (h : bytes ≠ []) :
    writeSome d off bytes 0 (writeBlocks bytes.length) =
      ({ d with boot := { d.boot with areas := Tab.put d.boot.areas 1 (spliceAt (bundleArea d 1) off bytes),
                                      download := d.boot.download.map fun x : Nat × Nat => (x.1, off + bytes.length) } } : Dev).setReg
        BOOT_STAGED_OFS (BitVec.ofNat 32 (off + bytes.length)) := by
  unfold writeSome
  rw [slice_writeBlocks]
  have hempty : bytes.isEmpty = false := by cases bytes <;> simp_all
  simp [hempty, setArea]

theorem updWrite_completes {w : Sys2Proof.Who} {off len total : Nat} {data : List Byte} {s : State} (hup : s.dev.inReset = false)
    (hrun : s.dev.boot.run = none) (hstage : updStage s.dev = true) (hopen : s.dev.boot.open_ = true)
    (hdown : s.dev.boot.download = some (total, off)) (hlen : within len 1 1048576 = true) (htotal : off + len ≤ total)
    (hblock : len % 65536 = 0 ∨ off + len = total) :
    Completes (.updWrite w off len none data none) s [.boot, .hif] (fun a => a == BOOT_CMD_STATUS || a == BOOT_STAGED_OFS) fun t =>
      bootTold t.dev w upOK 0 = true ∧ t.dev.boot = { s.dev.boot with areas := t.dev.boot.areas, download := some (total, off + len) } ∧
      bundleArea t.dev 1 = spliceAt (bundleArea s.dev 1) off (fit len data) ∧ (∀ k, k ≠ 1 → bundleArea t.dev k = bundleArea s.dev k) ∧
      t.dev.reg BOOT_STAGED_OFS = BitVec.ofNat 32 (off + len) := by
  have hpos : 1 ≤ len := by
    simp only [within, decide_eq_true_eq] at hlen
    exact hlen.1
  have hne : fit len data ≠ [] := fun h => by have := length_fit len data; rw [h] at this; simp at this; omega
  have hrange : (!within len 1 1048576 || decide (total < off + len) || (len % 65536 != 0 && off + len != total)) = false := by
    rcases hblock with h | h <;> simp [hlen, h, htotal]
  have hwrite : updWrite s.dev w off len (updData s.dev none data) none =
      bootEnd (writeSome s.dev off (fit len data) 0 (writeBlocks (fit len data).length)) w upOK 0 := by
    simp [updWrite, bootRun_idle hrun, hstage, hopen, hdown, hrange, updData, length_fit]
  rw [writeSome_all _ _ hne, length_fit, hdown] at hwrite
  have harea : ∀ (e : Dev) (r : Nat), (bootEnd e w r 0).boot.areas = e.boot.areas := fun e r => by rw [bootEnd_boot]
  refine completes_of_onDev (g := fun d => updWrite d w off len (updData d none data) none) rfl hup hwrite
    ((((Keeps.refl _).boot (by decide) _).setReg (by decide) _).bootEnd (by decide) (by decide) w upOK 0)
    ⟨bootTold_bootEnd _ _ (by decide) (by decide), ?_, ?_, fun k hk => ?_, ?_⟩
  · rw [bootEnd_boot]
    rfl
  · exact (bundleArea_congr (harea _ _) 1).trans ((Tab.getD_put _ _ _ _ _).trans (if_pos rfl))
  · exact (bundleArea_congr (harea _ _) k).trans ((Tab.getD_put _ _ _ _ _).trans (if_neg hk))
  · exact (bootEnd_reg _ _ _ _ (by decide)).trans (Dev.reg_setReg_same _ _ _)

theorem updWrite_offset_completes {w : Sys2Proof.Who} {off len total at_ : Nat} {buf stall : Option Nat} {data : List Byte} {s : State}
    (hup : s.dev.inReset = false) (hrun : s.dev.boot.run = none) (hstage : updStage s.dev = true) (hopen : s.dev.boot.open_ = true)
    (hdown : s.dev.boot.download = some (total, at_)) (hoff : off ≠ at_) (hat : at_ < 2 ^ 32) :
    Completes (.updWrite w off len buf data stall) s [.hif] (fun a => a == BOOT_CMD_STATUS) fun t =>
      bootTold t.dev w upOFFSET (at_ / 2 ^ 24) = true := by
  have hwrite : updWrite s.dev w off len (updData s.dev buf data) stall = bootEnd s.dev w upOFFSET (at_ / 2 ^ 24) := by
    simp [updWrite, bootRun_idle hrun, hstage, hopen, hdown, hoff]
  exact completes_of_onDev (g := fun d => updWrite d w off len (updData d buf data) stall) rfl hup hwrite
    ((Keeps.refl _).bootEnd (by decide) (by decide) _ _ _) (bootTold_bootEnd _ _ (by decide) (by omega))

theorem updAbandon_completes {w : Sys2Proof.Who} {s : State} (hup : s.dev.inReset = false) (hrun : s.dev.boot.run = none)
    (hstage : updStage s.dev = true) (hopen : s.dev.boot.open_ = true) :
    Completes (.updAbandon w) s [.boot, .hif] (fun a => a == BOOT_CMD_STATUS) fun t =>
      bootTold t.dev w upOK 0 = true ∧ t.dev.boot = { s.dev.boot with open_ := false } := by
  have hab : updAbandon s.dev w = bootEnd { s.dev with boot := { s.dev.boot with open_ := false } } w upOK 0 := by
    simp [updAbandon, bootRun_idle hrun, hrun, hstage, hopen]
  exact completes_of_onDev (g := fun d => updAbandon d w) rfl hup hab (((Keeps.refl _).boot (by decide) _).bootEnd (by decide) (by decide) _ _ _)
    ⟨bootTold_bootEnd _ _ (by decide) (by decide), bootEnd_boot _ _ _ _⟩

theorem updAbandon_state_completes {w : Sys2Proof.Who} {x : BootRun} {s : State} (hup : s.dev.inReset = false)
    (hrun : s.dev.boot.run = some x) (hcode : x.code = 4) (hfree : (isMaster w && s.dev.bit BOOT_CMD_STATUS_busy) = false) :
    Completes (.updAbandon w) s [.hif] (fun a => a == BOOT_CMD_STATUS) fun t => bootTold t.dev w upSTATE 0 = true := by
  have hab : updAbandon s.dev w = bootEnd s.dev w upSTATE 0 := by
    rw [updAbandon, if_pos (by rw [hrun, Option.map_some, hcode]), bootBusy, hfree]
    rfl
  exact completes_of_onDev (g := fun d => updAbandon d w) rfl hup hab ((Keeps.refl _).bootEnd (by decide) (by decide) _ _ _)
    (bootTold_bootEnd _ _ (by decide) (by decide))

end Sys2Proof.Machine
end

section
/-! SUPPORT. The confirmation record in force, the copy of a bundle between areas, and an activation that runs to its end
(14_start_and_self_update.md R407, R409). -/

namespace Sys2Proof.Machine

/-! ### The record in force (R409) -/

/-- The newer of a record found so far and the next slot's. -/
def newerConf (b : Option ConfRec) (e : Nat × ConfRec) : Option ConfRec :=
  match b with
  | none => some e.2
  | some x => if x.seq < e.2.seq then some e.2 else some x

theorem confRec_eq (d : Dev) : confRec d = d.boot.conf.foldl newerConf none := rfl

/-- A record newer than every other is the one in force. -/
theorem foldl_newerConf {r : ConfRec} {l : List (Nat × ConfRec)} (hl : ∀ e ∈ l, e.2 = r ∨ e.2.seq < r.seq) :
    ∀ {b : Option ConfRec}, (∀ x, b = some x → x = r ∨ x.seq < r.seq) → ((∃ e ∈ l, e.2 = r) ∨ b = some r) → l.foldl newerConf b = some r := by
  induction l with
  | nil => intro b _ h; simpa using h
  | cons e l ih =>
    intro b hb h
    have he := hl e List.mem_cons_self
    refine ih (fun e' h' => hl e' (List.mem_cons_of_mem _ h')) (b := newerConf b e) (fun x hx => ?_) ?_
    · unfold newerConf at hx
      grind
    · unfold newerConf
      grind

theorem Tab.mem_of_find {α : Type} {t : Tab α} {k : Nat} {v : α} (h : Tab.find t k = some v) : (k, v) ∈ t := by
  induction t with
  | nil => simp at h
  | cons e t ih =>
    obtain ⟨j, w⟩ := e
    rw [Tab.find_cons] at h
    split at h
    · simp_all
    · exact List.mem_cons_of_mem _ (ih h)

/-- The number that the next record takes. -/
def confNext (d : Dev) : Nat :=
  max (((Tab.find d.boot.conf 0).map (·.seq)).getD 0) (((Tab.find d.boot.conf 1).map (·.seq)).getD 0) + 1

theorem writeConf_conf (d : Dev) (r : ConfRec) : ∃ k, (writeConf d r).boot = { d.boot with conf := Tab.put d.boot.conf k { r with seq := confNext d } } :=
  ⟨_, rfl⟩

theorem seq_lt_confNext {d : Dev} (h : ConfSlots d) {e : Nat × ConfRec} (he : e ∈ d.boot.conf) : e.2.seq < confNext d := by
  obtain ⟨hk, hfind⟩ := h e he
  have h01 : e.1 = 0 ∨ e.1 = 1 := by omega
  unfold confNext
  rcases h01 with h | h <;> rw [h] at hfind <;> simp only [hfind, Option.map_some, Option.getD_some] <;> omega

/-- The record written is the one in force. -/
theorem confNow_writeConf {d : Dev} (h : ConfSlots d) (r : ConfRec) : confNow (writeConf d r) = { r with seq := confNext d } := by
  obtain ⟨k, hk⟩ := writeConf_conf d r
  have hconf : (writeConf d r).boot.conf = Tab.put d.boot.conf k { r with seq := confNext d } := by rw [hk]
  have hrec : confRec (writeConf d r) = some { r with seq := confNext d } := by
    rw [confRec_eq, hconf]
    refine foldl_newerConf (fun e he => ?_) (by simp) (Or.inl ⟨_, Tab.mem_of_find ((Tab.find_put _ _ _ _).trans (if_pos rfl)), rfl⟩)
    rcases Tab.mem_ins he with rfl | hmem
    · exact Or.inl rfl
    · exact Or.inr (seq_lt_confNext h (List.mem_filter.mp hmem).1)
  rw [confNow, hrec, Option.getD_some]

theorem Keeps.writeConf {ps : List Part} {rs : Nat → Bool} {d e : Dev} (h : Keeps ps rs d e) (hb : Part.boot ∈ ps)
    (hs : rs BOOT_STATUS = true) (hv : rs BOOT_SVN_FW = true) (r : ConfRec) : Keeps ps rs d (writeConf e r) :=
  (((h.boot hb _).setFld hs _).setFld hs _).setFld hv _

/-! ### The copy of a bundle -/

/-- What a splice puts in place. -/
theorem spliceAt_inside {a bs : List Byte} {off i : Nat} (hlo : off ≤ i) (hhi : i < off + bs.length) : (spliceAt a off bs)[i]? = bs[i - off]? := by
  have hlen : ((a ++ List.replicate (off - a.length) (0xFF : Byte)).take off).length = off := by simp; omega
  unfold spliceAt
  rw [List.append_assoc, List.getElem?_append_right (by omega), hlen, List.getElem?_append_left (by omega)]

/-- What a splice leaves in place. -/
theorem spliceAt_outside {a bs : List Byte} {off i : Nat} (hi : i < a.length) (h : i < off ∨ off + bs.length ≤ i) :
    (spliceAt a off bs)[i]? = a[i]? := by
  have hlen : ((a ++ List.replicate (off - a.length) (0xFF : Byte)).take off).length = off := by simp; omega
  unfold spliceAt
  rcases h with h | h
  · rw [List.append_assoc, List.getElem?_append_left (by omega), List.getElem?_take_of_lt h, List.getElem?_append_left hi]
  · rw [List.getElem?_append_right (by simp only [List.length_append, hlen]; omega), List.length_append, hlen, List.getElem?_drop]
    congr 1
    omega

/-- An area after blocks of a bundle are copied into it. -/
def copied (src : List Byte) (l : List Nat) (a : List Byte) : List Byte :=
  l.foldl (fun b i => spliceAt b (65536 * i) (slice src (65536 * i) 65536)) a

theorem length_block (src : List Byte) (i : Nat) : (slice src (65536 * i) 65536).length = min 65536 (src.length - 65536 * i) := by
  simp [slice]

/-- Each byte of a block copied is the bundle's, and stays so. -/
theorem copied_byte {src : List Byte} {i : Nat} (hi : i < src.length) (l : List Nat) :
    ∀ {a : List Byte}, (i / 65536 ∈ l ∨ a[i]? = src[i]?) → (copied src l a)[i]? = src[i]? := by
  induction l with
  | nil => intro a h; simpa [copied] using h
  | cons j l ih =>
    intro a h
    have hblock := length_block src j
    refine ih (a := spliceAt a (65536 * j) (slice src (65536 * j) 65536)) ?_
    by_cases hj : i / 65536 = j
    · refine Or.inr ?_
      rw [spliceAt_inside (by omega) (by omega), slice, List.getElem?_take_of_lt (by omega), List.getElem?_drop]
      congr 1
      omega
    · rcases h with h | h
      · exact Or.inl ((List.mem_cons.mp h).resolve_left hj)
      · have hlen : i < a.length := by
          rw [List.getElem?_eq_getElem hi] at h
          exact (List.getElem?_eq_some_iff.mp h).1
        exact Or.inr ((spliceAt_outside hlen (by omega)).trans h)

/-- A bundle's blocks all copied, the area begins with the bundle. -/
theorem copied_take {src : List Byte} {l : List Nat} (hl : ∀ i, i < (src.length + 65535) / 65536 → i ∈ l) (a : List Byte) :
    (copied src l a).take src.length = src := by
  refine List.ext_getElem? fun i => ?_
  by_cases hi : i < src.length
  · rw [List.getElem?_take_of_lt hi]
    exact copied_byte hi l (Or.inl (hl _ (by omega)))
  · rw [List.getElem?_eq_none (by rw [List.length_take]; omega), List.getElem?_eq_none (by omega)]

theorem mem_blockOrder {i n : Nat} (h : i < n) : i ∈ blockOrder n := by
  unfold blockOrder
  rw [if_neg (by omega)]
  rcases i with _ | i
  · simp
  · refine List.mem_append_left _ (List.mem_iff_getElem?.mpr ⟨i, ?_⟩)
    rw [List.getElem?_drop, List.getElem?_range (by omega), Nat.add_comm]

theorem length_blockOrder (n : Nat) : (blockOrder n).length = n := by
  unfold blockOrder
  split <;> simp <;> omega

/-- Copying blocks changes the area copied to. -/
theorem foldl_copyBlock {src dst : Nat} (hne : src ≠ dst) (l : List Nat) (d : Dev) : ∃ x : Tab (List Byte),
    l.foldl (copyBlock src dst) d = { d with boot := { d.boot with areas := x } } ∧
    ∀ k, Tab.getD x k [] = if k = dst then copied (bundleArea d src) l (bundleArea d dst) else bundleArea d k := by
  induction l generalizing d with
  | nil => exact ⟨d.boot.areas, rfl, fun k => by split <;> simp_all [copied, bundleArea]⟩
  | cons i l ih =>
    obtain ⟨x, hx, harea⟩ := ih (copyBlock src dst d i)
    have hput : ∀ k, bundleArea (copyBlock src dst d i) k =
        if k = dst then spliceAt (bundleArea d dst) (65536 * i) (slice (bundleArea d src) (65536 * i) 65536) else bundleArea d k :=
      fun k => Tab.getD_put _ _ _ _ _
    refine ⟨x, hx, fun k => ?_⟩
    rw [harea, hput src, if_neg hne, hput dst, if_pos rfl, hput k]
    split
    · rfl
    · rfl

/-- A copy between areas that runs to its end: the journal apart, the area copied to alone has changed. -/
theorem advanceCopy_all {d : Dev} {a : Activation} {src dst : Nat} (hne : src ≠ dst) (hdone : a.done = 0) :
    ∃ e n, advanceCopy d a src dst none = (e, n, true) ∧ Keeps (.boot :: noteParts) noteRegs d e ∧
      (∃ x, e.boot = { d.boot with areas := x }) ∧ (∀ k, k ≠ dst → bundleArea e k = bundleArea d k) ∧
      (bnLen (bundleArea d src) = (bundleArea d src).length → (bundleArea e dst).take (bundleArea d src).length = bundleArea d src) := by
  generalize hl : ((blockOrder (blocksIn (bundleArea d src))).drop a.done).take (blocksIn (bundleArea d src) - a.done) = l
  obtain ⟨x, hx, harea⟩ := foldl_copyBlock hne l d
  have hall : l = blockOrder (blocksIn (bundleArea d src)) := by
    rw [← hl, hdone, List.drop_zero, Nat.sub_zero, List.take_of_length_le (length_blockOrder _).le]
  generalize hj : jUpdate { d with boot := { d.boot with areas := x } } a.jseq (fun r => { r with done := r.done + (blocksIn (bundleArea d src) - a.done) }) = e
  have hnoted : Noted { d with boot := { d.boot with areas := x } } e := hj ▸ noted_jUpdate _ _ _
  have hboot : e.boot = { d.boot with areas := x } := hnoted.boot
  have hareas : ∀ k, bundleArea e k = if k = dst then copied (bundleArea d src) l (bundleArea d dst) else bundleArea d k := fun k => by
    rw [bundleArea, hboot]
    exact harea k
  refine ⟨e, a.done + (blocksIn (bundleArea d src) - a.done), ?_, ?_, ⟨x, hboot⟩, fun k hk => (hareas k).trans (if_neg hk), fun hlen => ?_⟩
  · have hend : decide (blocksIn (bundleArea d src) ≤ a.done + (blocksIn (bundleArea d src) - a.done)) = true := decide_eq_true (by omega)
    rw [← hj, ← hx, ← hl]
    unfold advanceCopy
    simp only [hend]
  · exact ((Keeps.refl d).boot (by simp) _).noted hnoted (by simp) fun _ h => h
  · rw [hareas, if_pos rfl]
    refine copied_take (fun i hi => ?_) _
    rw [hall]
    exact mem_blockOrder (by rw [blocksIn, hlen]; exact hi)

end Sys2Proof.Machine
end

section
/-! PROOF. Downloading, verifying, activating and confirming a bundle (14_start_and_self_update.md R396, R405 to R412, R416). -/

namespace Sys2Proof.Machine

/-! ### UPD_VERIFY (R406) -/

theorem bundleVerdict_keeps (f : Fuses) (d : Dev) (b : List Byte) : Keeps (.vault :: noteParts) noteRegs d (bundleVerdict f d b).2 := by
  have huse := useSlot_keeps f d (bnKey b) 42 3 none none
  have hite : ∀ (c : Prop) [Decidable c] (x y : Nat × Dev), Keeps (.vault :: noteParts) noteRegs d x.2 →
      Keeps (.vault :: noteParts) noteRegs d y.2 → Keeps (.vault :: noteParts) noteRegs d (if c then x else y).2 :=
    fun c _ x y hx hy => by split <;> assumption
  unfold bundleVerdict
  dsimp only
  exact hite _ _ _ (Keeps.refl d) (hite _ _ _ huse (hite _ _ _ huse (hite _ _ _ huse (hite _ _ _ huse (hite _ _ _ huse huse)))))

theorem bundleVerdict_lt (f : Fuses) (d : Dev) (b : List Byte) : (bundleVerdict f d b).1 < 256 := by
  have hite : ∀ (c : Prop) [Decidable c] (x y : Nat × Dev), x.1 < 256 → y.1 < 256 → (if c then x else y).1 < 256 :=
    fun c _ x y hx hy => by split <;> assumption
  unfold bundleVerdict
  dsimp only
  exact hite _ _ _ (show upBAD_HEADER < 256 by decide) (hite _ _ _ (show upBAD_SIGNATURE < 256 by decide)
    (hite _ _ _ (show upWRONG_DEVICE < 256 by decide) (hite _ _ _ (show upSVN_TOO_LOW < 256 by decide)
      (hite _ _ _ (show upROLLBACK < 256 by decide) (hite _ _ _ (show upDIGEST < 256 by decide) (show upOK < 256 by decide))))))

/-- The code of the Blend that a bundle carries, which must be a full one. -/
def carriedCode (bl : List Byte) (v : Verdict) : Nat := if v.code = blOk ∧ blKind bl ≠ 1 then blBadVersion else v.code

/-- What UPD_VERIFY leaves, after the checks of the bundle (`r`, `d1`) and of the Blend in it (`v`, `d2`). -/
def verified (bl : List Byte) (w : Sys2Proof.Who) (r : Nat) (d1 : Dev) (v : Verdict) (d2 : Dev) : Dev :=
  if r ≠ upOK then bootEnd d1 w r 0
  else if carriedCode bl v ≠ blOk then bootEnd d2 w upBLEND (carriedCode bl v)
  else bootEnd (d2.setBit BOOT_STATUS_staged_ok true) w upOK 0

theorem updVerify_eq {f : Fuses} {d d1 d2 : Dev} {w : Sys2Proof.Who} {r : Nat} {v : Verdict} (hrun : d.boot.run = none)
    (hstage : updStage d = true) (hhold : d.vault.hold = false) (hr : bundleVerdict f d (bundleArea d 1) = (r, d1))
    (hv : blendVerdict f d1 (bnPart (bundleArea d 1) 2) = (v, d2)) :
    updVerify f d w = verified (bnPart (bundleArea d 1) 2) w r d1 v d2 := by
  simp only [updVerify, bootRun_idle hrun, hstage, hhold, hr, hv, Bool.not_true, Bool.false_eq_true, if_false, verified, carriedCode] <;> rfl

theorem Keeps.staged {ps : List Part} {d e : Dev} (h : Keeps ps noteRegs d e) : e.fld BOOT_STATUS_staged_ok = d.fld BOOT_STATUS_staged_ok := by
  rw [Dev.fld, h.regs _ (by decide), Dev.fld]

theorem bootEnd_staged (d : Dev) (w : Sys2Proof.Who) (code detail : Nat) :
    (bootEnd d w code detail).fld BOOT_STATUS_staged_ok = d.fld BOOT_STATUS_staged_ok := bootEnd_fld _ _ _ _ (by decide)

theorem updVerify_completes {w : Sys2Proof.Who} {s : State} (hup : s.dev.inReset = false) (hrun : s.dev.boot.run = none)
    (hstage : updStage s.dev = true) (hhold : s.dev.vault.hold = false) :
    Completes (.updVerify w) s ([.hif, .vault] ++ noteParts) (fun a => a == BOOT_CMD_STATUS || a == BOOT_STATUS || noteRegs a) fun t =>
      (∀ r d, bundleVerdict s.fuses s.dev (bundleArea s.dev 1) = (r, d) →
        (r ≠ upOK → bootTold t.dev w r 0 = true ∧ t.dev.fld BOOT_STATUS_staged_ok = s.dev.fld BOOT_STATUS_staged_ok) ∧
        (r = upOK → ∀ v d', blendVerdict s.fuses d (bnPart (bundleArea s.dev 1) 2) = (v, d') →
          (v.code = blOk ∧ blKind (bnPart (bundleArea s.dev 1) 2) = 1 → bootTold t.dev w upOK 0 = true ∧ t.dev.fld BOOT_STATUS_staged_ok = 1) ∧
          (v.code ≠ blOk → v.code < 256 → bootTold t.dev w upBLEND v.code = true ∧ t.dev.fld BOOT_STATUS_staged_ok = s.dev.fld BOOT_STATUS_staged_ok))) := by
  generalize hbl : bnPart (bundleArea s.dev 1) 2 = bl
  obtain ⟨⟨r, d1⟩, hr⟩ : ∃ x, bundleVerdict s.fuses s.dev (bundleArea s.dev 1) = x := ⟨_, rfl⟩
  obtain ⟨⟨v, d2⟩, hv⟩ : ∃ x, blendVerdict s.fuses d1 bl = x := ⟨_, rfl⟩
  have h1 : Keeps (.vault :: noteParts) noteRegs s.dev d1 := by simpa only [hr] using bundleVerdict_keeps s.fuses s.dev (bundleArea s.dev 1)
  have h2 : Keeps (.vault :: noteParts) noteRegs s.dev d2 := h1.trans (by simpa only [hv] using blendVerdict_keeps s.fuses d1 bl)
  have hlt : r < 256 := by simpa only [hr] using bundleVerdict_lt s.fuses s.dev (bundleArea s.dev 1)
  have hwide : ∀ {e : Dev}, Keeps (.vault :: noteParts) noteRegs s.dev e →
      Keeps ([.hif, .vault] ++ noteParts) (fun a => a == BOOT_CMD_STATUS || a == BOOT_STATUS || noteRegs a) s.dev e :=
    fun h => h.mono (by decide) fun a ha => by simp [ha]
  have hkeeps : Keeps ([.hif, .vault] ++ noteParts) (fun a => a == BOOT_CMD_STATUS || a == BOOT_STATUS || noteRegs a) s.dev
      (verified bl w r d1 v d2) := by
    unfold verified
    split
    · exact (hwide h1).bootEnd (by decide) (by decide) _ _ _
    · split
      · exact (hwide h2).bootEnd (by decide) (by decide) _ _ _
      · exact ((hwide h2).setBit (x := BOOT_STATUS_staged_ok) (by decide) true).bootEnd (by decide) (by decide) _ _ _
  have hverify : updVerify s.fuses s.dev w = verified bl w r d1 v d2 := by
    rw [← hbl] at hv ⊢
    exact updVerify_eq hrun hstage hhold hr hv
  refine completes_of_onDevF_eq (g := fun f d => updVerify f d w) rfl hup hverify hkeeps fun r' d' hr' => ?_
  obtain ⟨rfl, rfl⟩ := Prod.mk.inj (hr.symm.trans hr')
  refine ⟨fun hbad => ?_, fun hok v' d' hv' => ?_⟩
  · rw [verified, if_pos hbad]
    exact ⟨bootTold_bootEnd _ _ hlt (by decide), (bootEnd_staged _ _ _ _).trans h1.staged⟩
  · obtain ⟨rfl, rfl⟩ := Prod.mk.inj (hv.symm.trans hv')
    rw [verified, if_neg (not_not.mpr hok)]
    refine ⟨fun ⟨hcode, hkind⟩ => ?_, fun hcode hsmall => ?_⟩
    · rw [if_neg (not_not.mpr (show carriedCode bl v = blOk by simp [carriedCode, hkind, hcode]))]
      exact ⟨bootTold_bootEnd _ _ (by decide) (by decide),
        (bootEnd_staged _ _ _ _).trans (Dev.fld_setBit_same _ (by decide) (by decide) true)⟩
    · rw [show carriedCode bl v = v.code from if_neg fun h => hcode h.1, if_pos hcode]
      exact ⟨bootTold_bootEnd _ _ (by decide) hsmall, (bootEnd_staged _ _ _ _).trans h2.staged⟩

/-! ### UPD_ACTIVATE (R407) -/

/-- The registers that an activation writes. -/
def actRegs (a : Nat) : Bool := a == BOOT_CMD_STATUS || a == BOOT_STATUS || a == BOOT_SVN_FW || noteRegs a

/-- The last copy of an activation, under the TRIAL record. -/
theorem activateLast_all {d : Dev} {a : Activation} (hphase : a.phase ≤ 1) (hconf : ConfSlots d)
    (hlen : bnLen (bundleArea d 1) = (bundleArea d 1).length) :
    ∃ e, activateLast d a none = (e, true) ∧ Keeps ([.boot, .hif] ++ noteParts) actRegs d e ∧
      (bundleArea e 0).take (bundleArea d 1).length = bundleArea d 1 ∧ bundleArea e 1 = bundleArea d 1 ∧
      confNow e = { trialRecord d with seq := confNext d } ∧ e.boot.act = none := by
  obtain ⟨k, hk⟩ := writeConf_conf d (trialRecord d)
  generalize hd1 : writeConf d (trialRecord d) = d1 at hk
  have harea : ∀ k, bundleArea d1 k = bundleArea d k := bundleArea_congr (by rw [hk])
  obtain ⟨e, n, he, hkeeps, ⟨x, hx⟩, hother, hcopied⟩ :=
    advanceCopy_all (d := d1) (a := { a with phase := 2, done := 0 }) (src := 1) (dst := 0) (by decide) rfl
  refine ⟨setAct e none, ?_, ?_, ?_, (hother 1 (by decide)).trans (harea 1), ?_, rfl⟩
  · simp only [activateLast, if_pos hphase, hd1, he, if_true]
  · have h1 : Keeps ([.boot, .hif] ++ noteParts) actRegs d d1 := hd1 ▸ (Keeps.refl d).writeConf (by decide) (by decide) (by decide) _
    exact (h1.trans (hkeeps.mono (by decide) fun a ha => by simp [actRegs, ha])).boot (by decide) _
  · rw [harea] at hcopied
    exact hcopied hlen
  · have hsame : confNow (setAct e none) = confNow d1 := confNow_congr (by rw [setAct, hx])
    rw [hsame, ← hd1, confNow_writeConf hconf]

/-- An activation from its beginning to its end. -/
theorem activateOn_all {d : Dev} {a : Activation} (hact : d.boot.act = some a) (hphase : a.phase ≤ 1) (hdone : a.done = 0) (hconf : ConfSlots d)
    (hlen : bnLen (bundleArea d 1) = (bundleArea d 1).length) :
    ∃ e, activateOn d none = (e, true) ∧ Keeps ([.boot, .hif] ++ noteParts) actRegs d e ∧
      (bundleArea e 0).take (bundleArea d 1).length = bundleArea d 1 ∧ bundleArea e 1 = bundleArea d 1 ∧
      (confNow e).state = cfTRIAL ∧ (confNow e).trialStarts = 0 ∧ (confNow e).activeId = bnId (bundleArea d 1) ∧ e.boot.act = none := by
  by_cases hzero : a.phase = 0
  · obtain ⟨d1, n, hd1, hkeeps, ⟨x, hx⟩, hother, -⟩ := advanceCopy_all (d := d) (src := 0) (dst := 2) (by decide) hdone
    have h1 : bundleArea d1 1 = bundleArea d 1 := hother 1 (by decide)
    have hslots : ConfSlots d1 := by rw [ConfSlots, hx]; exact hconf
    obtain ⟨e, he, hlast, hactive, hstaged, hrec, hnone⟩ :=
      activateLast_all (d := d1) (a := { a with phase := 1, done := 0 }) le_rfl hslots (by rw [h1]; exact hlen)
    rw [h1] at hactive hstaged
    refine ⟨e, ?_, (hkeeps.mono (by decide) fun a ha => by simp [actRegs, ha]).trans hlast, hactive, hstaged, ?_⟩
    · simp only [activateOn, hact, if_pos hzero, hd1, if_true, Option.map_none, he]
    · rw [hrec]
      exact ⟨rfl, rfl, congrArg bnId h1, hnone⟩
  · obtain ⟨e, he, hlast, hactive, hstaged, hrec, hnone⟩ := activateLast_all hphase hconf hlen
    refine ⟨e, ?_, hlast, hactive, hstaged, ?_⟩
    · simp only [activateOn, hact, if_neg hzero, he]
    · rw [hrec]
      exact ⟨rfl, rfl, rfl, hnone⟩

/-- An activation begins with its journal record and no block copied. -/
theorem actBegin_eq {d : Dev} (hact : d.boot.act = none) (w : Sys2Proof.Who) :
    ∃ a n, actBegin d w false = setAct (jOpen d 7 (bootOrigin w) (bnId (bundleArea d 1)) n none).2 (some a) ∧
      a.phase ≤ 1 ∧ a.done = 0 ∧ a.restart = false := by
  unfold actBegin
  rw [hact]
  refine ⟨_, _, rfl, ?_, rfl, rfl⟩
  dsimp only
  split <;> decide

theorem actBegin_begun {d : Dev} (hact : d.boot.act = none) (w : Sys2Proof.Who) : ∃ a, a.phase ≤ 1 ∧ a.done = 0 ∧ a.restart = false ∧
    (actBegin d w false).boot = { d.boot with act := some a } ∧ Keeps ([.boot, .hif] ++ noteParts) actRegs d (actBegin d w false) := by
  obtain ⟨a, n, heq, hphase, hdone, hrestart⟩ := actBegin_eq hact w
  have hnoted := noted_jOpen d 7 (bootOrigin w) (bnId (bundleArea d 1)) n none
  rw [heq]
  refine ⟨a, hphase, hdone, hrestart, ?_, ((Keeps.refl d).noted hnoted (by decide) fun a ha => by simp [actRegs, ha]).boot (by decide) _⟩
  rw [setAct, hnoted.boot]

theorem updActivate_completes {w : Sys2Proof.Who} {s : State} (hup : s.dev.inReset = false) (hrun : s.dev.boot.run = none)
    (hstage : updStage s.dev = true) (hstaged : s.dev.fld BOOT_STATUS_staged_ok = 1) (htrial : (confNow s.dev).state ≠ cfTRIAL)
    (hact : s.dev.boot.act = none) (hconf : ConfSlots s.dev) (hlen : bnLen (bundleArea s.dev 1) = (bundleArea s.dev 1).length) :
    Completes (.updActivate w false none) s ([.boot, .hif] ++ noteParts) actRegs fun t => bootTold t.dev w upOK 0 = true ∧
      (bundleArea t.dev 0).take (bundleArea s.dev 1).length = bundleArea s.dev 1 ∧ bundleArea t.dev 1 = bundleArea s.dev 1 ∧
      (confNow t.dev).state = cfTRIAL ∧ (confNow t.dev).trialStarts = 0 ∧ (confNow t.dev).activeId = bnId (bundleArea s.dev 1) ∧
      t.dev.boot.act = none := by
  obtain ⟨a, hphase, hdone, hrestart, hboot, h2⟩ := actBegin_begun hact w
  generalize hbegin : actBegin s.dev w false = d2 at hboot h2
  have harea : ∀ k, bundleArea d2 k = bundleArea s.dev k := bundleArea_congr (by rw [hboot])
  have hslots : ConfSlots d2 := by rw [ConfSlots, hboot]; exact hconf
  obtain ⟨e, he, hkeeps, hactive, hsame, hstate, hstarts, hid, hnone⟩ :=
    activateOn_all (a := a) (by rw [hboot]) hphase hdone hslots (by rw [harea]; exact hlen)
  rw [harea] at hactive hsame hid
  have hbit : s.dev.bit BOOT_STATUS_staged_ok = true := by rw [Dev.bit_eq, hstaged]; rfl
  have hdone : updActivate w false none s.fuses s.dev = (s.fuses, bootEnd (jClose e a.jseq jCOMPLETE upOK) w upOK 0) := by
    simp only [updActivate, hrun, Option.isSome_none, Bool.false_eq_true, if_false, hstage, hbit, Bool.not_true, htrial, or_self, hbegin, he, hboot,
      actDone, hrestart]
  have hend : (bootEnd (jClose e a.jseq jCOMPLETE upOK) w upOK 0).boot = e.boot := (bootEnd_boot _ _ _ _).trans (jClose_boot _ _ _ _)
  have hnow := confNow_congr (congrArg Boot.conf hend)
  refine completes_of_onFuses_eq (g := updActivate w false none) rfl hup hdone
    (((h2.trans hkeeps).noted (noted_jClose e _ _ _) (by decide) fun a ha => by simp [actRegs, ha]).bootEnd (by decide) (by decide) _ _ _)
    ⟨bootTold_bootEnd _ _ (by decide) (by decide), ?_⟩
  dsimp only
  rw [hnow, hend, bundleArea_congr (congrArg Boot.areas hend), bundleArea_congr (congrArg Boot.areas hend)]
  exact ⟨hactive, hsame, hstate, hstarts, hid, hnone⟩

/-! ### UPD_CONFIRM (R409, R411) -/

/-- With no power cut every rollback bit asked for is burnt. -/
theorem rollbackBurn_all (goal : Nat) (f : Fuses) (d : Dev) :
    rollbackBurn goal none f d =
      ({ f with rollback := max f.rollback (min goal 64) }, d.setFld BOOT_STATUS_rb_count (max f.rollback (min goal 64))) := by
  have hadd : f.addRollback (min goal 64) = { f with rollback := max f.rollback (min goal 64) } := by
    rw [Fuses.addRollback, Nat.min_assoc, Nat.min_self]
  unfold rollbackBurn
  dsimp only
  rw [hadd, if_neg (Nat.not_lt.mpr (Nat.le_max_right _ _))]

/-- The record of a confirmed trial. -/
def confirmed (d : Dev) : ConfRec :=
  { confNow d with state := cfCONFIRMED, fwSvnMin := max (confNow d).fwSvnMin (bnSvn (runningBundle d)), blendSvnMin := d.bld.svn,
                   rbTarget := max (confNow d).rbTarget (bnRb (runningBundle d)) }

/-- The device that UPD_CONFIRM leaves but for the count of rollback bits. -/
def confirmedDev (d : Dev) (w : Sys2Proof.Who) : Dev :=
  let e := writeConf d (confirmed d)
  bootEnd ({ e with ktl := { e.ktl with svnBlend := d.bld.svn }, boot := { e.boot with trial := false } }.setFld BLD_SVN_MIN_svn d.bld.svn) w upOK 0

theorem updConfirm_eq {d : Dev} (hrun : d.boot.run = none) (hstage : d.stage = 3) (htrial : (confNow d).state = cfTRIAL)
    (w : Sys2Proof.Who) (f : Fuses) :
    updConfirm w none f d = rollbackBurn (max (confNow d).rbTarget (bnRb (runningBundle d))) none f (confirmedDev d w) := by
  simp only [updConfirm, hrun, Option.isSome_none, Bool.false_eq_true, if_false, hstage, ne_eq, not_true, htrial, confirmedDev, confirmed]

theorem confirmedDev_conf {d : Dev} (hconf : ConfSlots d) (w : Sys2Proof.Who) :
    confNow (confirmedDev d w) = { confirmed d with seq := confNext d } := by
  rw [← confNow_writeConf hconf]
  exact confNow_congr (by rw [confirmedDev, bootEnd_boot]; rfl)

theorem updConfirm_spec {w : Sys2Proof.Who} {s : State} (hup : s.dev.inReset = false) (hrun : s.dev.boot.run = none) (hstage : s.dev.stage = 3)
    (htrial : (confNow s.dev).state = cfTRIAL) (hconf : ConfSlots s.dev) (hrollback : s.fuses.rollback ≤ 64) (hsvn : s.dev.bld.svn < 2 ^ 32) :
    ∃ t, exec (.updConfirm w none) s = .next t ∧ bootTold t.dev w upOK 0 = true ∧ t.pending = s.pending ∧
      t.fuses = { s.fuses with rollback := max s.fuses.rollback (min (confNow t.dev).rbTarget 64) } ∧
      t.dev.fld BOOT_STATUS_rb_count = t.fuses.rollback ∧
      confNow t.dev = { confNow s.dev with seq := (confNow t.dev).seq, state := cfCONFIRMED, blendSvnMin := s.dev.bld.svn, rbTarget := max (confNow s.dev).rbTarget (bnRb (runningBundle s.dev)), fwSvnMin := max (confNow s.dev).fwSvnMin (bnSvn (runningBundle s.dev)) } ∧
      t.dev.fld BLD_SVN_MIN_svn = s.dev.bld.svn := by
  have hexec : exec (.updConfirm w none) s = _ := s.onFuses_up (updConfirm w none) hup
  rw [updConfirm_eq hrun hstage htrial, rollbackBurn_all] at hexec
  have hnow : ∀ v, confNow ((confirmedDev s.dev w).setFld BOOT_STATUS_rb_count v) = { confirmed s.dev with seq := confNext s.dev } :=
    fun v => Eq.trans (confNow_congr rfl) (confirmedDev_conf hconf w)
  have htold : ∀ v, bootTold ((confirmedDev s.dev w).setFld BOOT_STATUS_rb_count v) w upOK 0 = true := fun v =>
    Eq.trans (bootTold_congr (d := confirmedDev s.dev w) (e := (confirmedDev s.dev w).setFld BOOT_STATUS_rb_count v) rfl
      ((Dev.reg_setFld _ _ _ _).trans (if_neg (by decide))) w upOK 0) (bootTold_bootEnd _ _ (by decide) (by decide))
  have hmin : (confirmedDev s.dev w).fld BLD_SVN_MIN_svn = s.dev.bld.svn :=
    (bootEnd_fld _ _ _ _ (by decide)).trans ((Dev.fld_setFld_same _ _ _ (by decide)).trans (Nat.mod_eq_of_lt hsvn))
  refine ⟨_, hexec, ?_, rfl, ?_, ?_, ?_, ?_⟩
  · exact htold _
  · dsimp only
    rw [hnow]
    rfl
  · exact (Dev.fld_setFld_same _ BOOT_STATUS_rb_count _ (by decide)).trans
      (Nat.mod_eq_of_lt (Nat.lt_of_le_of_lt (Nat.max_le.mpr ⟨hrollback, Nat.min_le_right _ _⟩) (by decide)))
  · dsimp only
    rw [hnow]
    rfl
  · exact (Dev.fld_setFld_other _ _ _ _ (by decide)).trans hmin

/-! ### RESTART -/

/-- The start sequence begins alike after POR_N fell. -/
theorem porBegun_porAssert (f : Fuses) {d : Dev} (hup : d.inReset = false) : porBegun f (porAssert d) = porBegun f d := by
  have hreset : coreReset { coreReset d with inReset := true } = { coreReset d with inReset := true } := by
    have hregs : (coreReset { coreReset d with inReset := true }).regs = (coreReset d).regs := by
      simp only [coreReset, List.filter_filter, Bool.and_self]
    calc coreReset { coreReset d with inReset := true }
        = { coreReset d with inReset := true, regs := (coreReset { coreReset d with inReset := true }).regs } := rfl
      _ = { coreReset d with inReset := true } := by rw [hregs]
  rw [porAssert_up d hup, porBegun, hreset, porBegun]

theorem restart_spec {w : Sys2Proof.Who} {ccA trng : Bool} {s : State} (hup : s.dev.inReset = false) (hrun : s.dev.boot.run = none) :
    ∃ t, exec (.restart w ccA trng) s = .next t ∧ t.pending = s.pending ∧ t.fuses.pend = [] ∧ t.dev.boot.started = true ∧ t.dev.inReset = false ∧
      exec (.porRelease ccA trng) { s with dev := porAssert s.dev } = .next t := by
  obtain ⟨hfuses, hlow, hstarted⟩ := porStart_reach ccA trng s.fuses s.dev
  obtain ⟨hpend, -⟩ := completeBurns_reach s.fuses (porBegun s.fuses s.dev)
  have hrestart : Machine.restart w ccA trng s.fuses s.dev = porStart ccA trng s.fuses s.dev := by simp [Machine.restart, hrun]
  have hrelease : porRelease ccA trng s.fuses (porAssert s.dev) = porStart ccA trng s.fuses s.dev := by
    rw [porRelease, if_pos (by rw [porAssert_inReset]; rfl), porStart_eq, porBegun_porAssert _ hup, ← porStart_eq]
  have hexec : exec (.restart w ccA trng) s = _ := s.onFuses_up (Machine.restart w ccA trng) hup
  have hpor : exec (.porRelease ccA trng) { s with dev := porAssert s.dev } =
    State.onKettleF { s with dev := porAssert s.dev } (porRelease ccA trng) := rfl
  rw [hrestart] at hexec
  rw [State.onKettleF] at hpor
  dsimp only at hpor
  rw [hrelease] at hpor
  exact ⟨_, hexec, rfl, (congrArg Fuses.pend hfuses).trans hpend, hstarted, hlow, hpor⟩

/-- Settles O52: each command ends with its result after the state it leaves is read off; an activation copies every block under a record
newer than any other, and RESTART finds the core as POR_N leaves it. -/
theorem updating : Obligations.Updating := by
  unfold Obligations.Updating
  exact ⟨fun w len s hup hrun hstage hlen => updBegin_completes hup hrun hstage hlen,
    fun w len s hup hrun hstage hlen => updBegin_waits hup hrun hstage hlen,
    fun w off len total data s hup hrun hstage hopen hdown hlen htotal hblock =>
      updWrite_completes hup hrun hstage hopen hdown hlen htotal hblock,
    fun w off len total at_ buf data stall s hup hrun hstage hopen hdown hoff hat =>
      updWrite_offset_completes hup hrun hstage hopen hdown hoff hat,
    fun w s hup hrun hstage hhold => updVerify_completes hup hrun hstage hhold,
    fun w s hup hrun hstage hstaged htrial hact hconf hlen _ => updActivate_completes hup hrun hstage hstaged htrial hact hconf hlen,
    fun w s hup hrun hstage htrial hconf hrollback hsvn => updConfirm_spec hup hrun hstage htrial hconf hrollback hsvn,
    fun w s hup hrun hstage hopen => updAbandon_completes hup hrun hstage hopen,
    fun w x s hup hrun hcode hfree => updAbandon_state_completes hup hrun hcode hfree,
    fun w ccA trng s hup hrun => restart_spec hup hrun,
    fun j len x c off data buf stall restart s hup hrun hc => updBusy_completes hup (updBusy_exec hup hrun hc),
    fun x s hup hrun hcode => flashLate_failed_completes rfl hup hrun hcode,
    fun w len s hup hrun => flashLate_begun_completes rfl hup hrun,
    fun x s hup hrun hcode => flashLate_failed_completes rfl hup hrun hcode,
    fun w len s hup hrun => flashLate_begun_completes rfl hup hrun,
    fun x s hup hrun hcode => hostReadTimeout_completes hup hrun hcode⟩

end Sys2Proof.Machine
end

section
/-! SUPPORT. What campaign commands are made of: the result, states entered and recorded in flash, blocks built ahead, the spool
(13_node_campaigns.md R374, R381, R383, R386). -/

namespace Sys2Proof.Machine

/-! ### The result of a command (Table CAMP-4) -/

theorem campResult_master (d : Dev) (m : Sys2Proof.Master) (code : Nat) :
    campResult d (.master m) code = (d.setFld CMP_CMD_STATUS_result code).setBit CMP_CMD_STATUS_busy false := rfl

theorem campTold_campResult (d : Dev) (w : Sys2Proof.Who) {code : Nat} (hc : code < 256) : campTold (campResult d w code) w code = true := by
  cases w with
  | cmd j => exact told_toCmd d j code []
  | master m =>
    rw [campResult_master]
    simp only [campTold, Bool.and_eq_true, beq_iff_eq]
    refine ⟨?_, Dev.fld_setBit_same _ (by decide) (by decide) false⟩
    rw [Dev.fld_setBit_other _ _ _ _ (by decide)]
    exact (Dev.fld_setFld_same d CMP_CMD_STATUS_result code (by decide)).trans (Nat.mod_eq_of_lt hc)

theorem Keeps.campResult {ps : List Part} {rs : Nat → Bool} {d e : Dev} (h : Keeps ps rs d e) (hh : Part.hif ∈ ps)
    (hr : rs CMP_CMD_STATUS = true) (w : Sys2Proof.Who) (code : Nat) : Keeps ps rs d (campResult e w code) := by
  cases w with
  | cmd j => exact h.toCmd hh (.cmd j) code []
  | master m => exact (h.setFld hr _).setBit hr _

theorem campResult_cmp (d : Dev) (w : Sys2Proof.Who) (code : Nat) : (campResult d w code).cmp = d.cmp := by cases w <;> rfl

theorem campResult_camp (d : Dev) (w : Sys2Proof.Who) (code n : Nat) : (campResult d w code).camp n = d.camp n := by
  rw [Dev.camp, campResult_cmp, Dev.camp]

/-- A campaign command that ends with a result and changes nothing more. -/
theorem campAnswer_completes {c : Instr} {w : Sys2Proof.Who} {code : Nat} {s : State} (hup : s.dev.inReset = false)
    (hc : exec c s = .next { s with dev := campResult s.dev w code }) (hcode : code < 256) :
    Completes c s [.hif] (fun a => a == CMP_CMD_STATUS) fun t => campTold t.dev w code = true :=
  completes_of_onDev (g := fun d => campResult d w code) (hc.trans (s.onDev_up (fun d => campResult d w code) hup).symm) hup rfl
    ((Keeps.refl _).campResult (by decide) (by decide) w code) (campTold_campResult _ _ hcode)

/-! ### A state entered, and its record in flash (R386) -/

theorem Dev.camp_setCamp (d : Dev) (n k : Nat) (c : Camp) : (d.setCamp n c).camp k = if k = n then some c else d.camp k := Tab.find_put _ _ _ _

/-- The flash copy of a campaign once its state is recorded. -/
def CampFlash.entered (x : CampFlash) (c : Camp) : CampFlash :=
  { x with state := c.state, before := (x.state, x.ceiling), ceiling := if c.state = cpRUNNING then c.esi + 1024 else x.ceiling }

theorem campStore_eq {d : Dev} {n : Nat} {c : Camp} (h : d.camp n = some c) :
    campStore d n = { d with cmp := { d.cmp with flash := Tab.upd d.cmp.flash n (·.entered c) } } := by
  simp only [campStore, h]
  rfl

/-- `e` is `d` with campaign `n` held as `c` and its state recorded in flash, buffers apart. -/
structure Entering (n : Nat) (c : Camp) (d e : Dev) : Prop where
  keeps : Keeps [.cmp, .pbm] (fun _ => false) d e
  camp : ∀ k, e.camp k = if k = n then some c else d.camp k
  flash : ∀ k, Tab.find e.cmp.flash k = if k = n then (Tab.find d.cmp.flash k).map (·.entered c) else Tab.find d.cmp.flash k

theorem Entering.mine {n : Nat} {c : Camp} {d e : Dev} (h : Entering n c d e) : e.camp n = some c := (h.camp n).trans (if_pos rfl)

theorem Entering.others {n : Nat} {c : Camp} {d e : Dev} (h : Entering n c d e) {k : Nat} (hk : k ≠ n) : e.camp k = d.camp k :=
  (h.camp k).trans (if_neg hk)

theorem Entering.recorded {n : Nat} {c : Camp} {d e : Dev} (h : Entering n c d e) {x : CampFlash} (hx : Tab.find d.cmp.flash n = some x) :
    Tab.find e.cmp.flash n = some (x.entered c) := by
  rw [h.flash, if_pos rfl, hx, Option.map_some]

/-- A campaign replaced on a device whose campaigns are those of `d`, and recorded. -/
theorem entering_campStore {d e : Dev} (hk : Keeps [.cmp, .pbm] (fun _ => false) d e) (he : e.cmp = d.cmp) (n : Nat) (c : Camp) :
    Entering n c d (campStore (e.setCamp n c) n) := by
  have hcamp : (e.setCamp n c).camp n = some c := (Dev.camp_setCamp _ _ _ _).trans (if_pos rfl)
  rw [campStore_eq hcamp]
  refine ⟨(hk.setCamp (by decide) n c).cmp (by decide) _, fun k => ?_, fun k => ?_⟩
  · have hsame : e.camp k = d.camp k := by rw [Dev.camp, he, Dev.camp]
    exact (Dev.camp_setCamp e n k c).trans (by rw [hsame])
  · rw [← he]
    exact Tab.find_upd e.cmp.flash n k (·.entered c)

theorem foldl_bufFree (l : List Built) (d : Dev) :
    Keeps [.cmp, .pbm] (fun _ => false) d (l.foldl (fun a x => bufFree a x.buf) d) ∧ (l.foldl (fun a x => bufFree a x.buf) d).cmp = d.cmp :=
  ⟨(Keeps.refl d).foldl (fun x _ => (Keeps.refl x).pbm (by decide) _) l,
    List.foldlRecOn (motive := fun e : Dev => e.cmp = d.cmp) l _ rfl fun _ h _ _ => h⟩

theorem dropBuilt_pbm (d : Dev) (l : List Built) : Keeps [.cmp, .pbm] (fun _ => false) d (dropBuilt d l) ∧ (dropBuilt d l).cmp = d.cmp :=
  foldl_bufFree _ d

/-- A campaign out of service: no blocks built, no session. -/
def Camp.stopped (c : Camp) (st : Nat) : Camp := { c with state := st, built := [], session := none, due := false }

theorem campEnter_stopped {d : Dev} {n st : Nat} {c : Camp} (h : d.camp n = some c) (hst : st ≠ cpRUNNING) :
    Entering n (c.stopped st) d (campEnter d n st) := by
  obtain ⟨hkeeps, hcmp⟩ := dropBuilt_pbm d c.built
  have heq : campEnter d n st = campStore ((dropBuilt d c.built).setCamp n (c.stopped st)) n := by
    simp only [campEnter, h, if_neg hst]
    rfl
  exact heq ▸ entering_campStore hkeeps hcmp n (c.stopped st)

/-! ### Blocks built ahead (R383) -/

/-- The registers and parts that building ahead changes. -/
def aheadParts : List Part := [.cmp, .pbm, .dsp] ++ noteParts

/-- `e` is `d` with more blocks of campaign `n` in building. -/
structure Ahead (n : Nat) (d e : Dev) : Prop where
  keeps : Keeps aheadParts noteRegs d e
  camp : ∀ c, d.camp n = some c → ∃ b, e.camp n = some { c with built := b }
  others : ∀ k, k ≠ n → e.camp k = d.camp k
  flash : e.cmp.flash = d.cmp.flash

theorem Ahead.refl (n : Nat) (d : Dev) : Ahead n d d := ⟨Keeps.refl d, fun c h => ⟨c.built, h⟩, fun _ _ => rfl, rfl⟩

theorem Ahead.trans {n : Nat} {d e f : Dev} (h : Ahead n d e) (g : Ahead n e f) : Ahead n d f := by
  refine ⟨h.keeps.trans g.keeps, fun c hc => ?_, fun k hk => (g.others k hk).trans (h.others k hk), g.flash.trans h.flash⟩
  obtain ⟨b, hb⟩ := h.camp c hc
  obtain ⟨b', hb'⟩ := g.camp _ hb
  exact ⟨b', hb'⟩

theorem ahead_of_cmp {n : Nat} {d e : Dev} (h : Keeps aheadParts noteRegs d e) (hcmp : e.cmp = d.cmp) : Ahead n d e :=
  ⟨h, fun c hc => ⟨c.built, by rw [Dev.camp, hcmp]; exact hc⟩, fun k _ => by rw [Dev.camp, hcmp, Dev.camp], by rw [hcmp]⟩

theorem bufPut_ahead {n h : Nat} {d e : Dev} {bs : List Byte} (hput : bufPut d bs = some (h, e)) : Ahead n d e := by
  unfold bufPut at hput
  split at hput
  · obtain ⟨-, rfl⟩ := Prod.mk.inj (Option.some.inj hput)
    exact ahead_of_cmp ((Keeps.refl d).pbm (by decide) _) rfl
  · cases hput

/-- A block's task is entered like any other (R64). -/
theorem hwSubmit_block {n i arg0 arg1 : Nat} {d e : Dev} (h : hwSubmit d 0x7C00 0x400 3 5 noFlow 8 arg0 arg1 0 = some (i, e)) : Ahead n d e := by
  obtain ⟨j, hj, hpair⟩ := Option.map_eq_some_iff.mp h
  obtain ⟨rfl, rfl⟩ := Prod.mk.inj hpair
  have hentered := enterTask_entered (d := d) (x := hwDesc j 3 5 noFlow 8 arg0 arg1) (slots := 0) rfl fun h0 => absurd h0 (show ¬ (3 : Nat) = 0 by decide)
  exact ahead_of_cmp (hentered.keeps.mono (by decide) fun _ h => h) (hentered.keeps.parts .cmp (by decide))

theorem setCamp_ahead {n : Nat} {d : Dev} {c : Camp} (h : d.camp n = some c) (b : List Built) : Ahead n d (d.setCamp n { c with built := b }) :=
  ⟨(Keeps.refl d).setCamp (by decide) n _, fun c' hc => ⟨b, by rw [Dev.camp_setCamp, if_pos rfl, Option.some.inj (h.symm.trans hc)]⟩,
    fun k hk => (Dev.camp_setCamp _ _ _ _).trans (if_neg hk), rfl⟩

theorem aheadBlock_ahead {n : Nat} {go : Dev → Dev} (hgo : ∀ x, Ahead n x (go x)) (block : List Byte) (d : Dev) :
    Ahead n d (aheadBlock n block go d) := by
  unfold aheadBlock
  cases hc : d.camp n with
  | none => exact Ahead.refl n d
  | some c =>
    dsimp only
    split
    · exact Ahead.refl n d
    · split
      · exact Ahead.refl n d
      next h d1 hput =>
        have hbuf : Ahead n d d1 := bufPut_ahead hput
        split
        · exact hbuf.trans (ahead_of_cmp ((Keeps.refl d1).pbm (by decide) _) rfl)
        next t d2 hsub =>
          have h2 : Ahead n d d2 := hbuf.trans (hwSubmit_block hsub)
          obtain ⟨b, hb⟩ := h2.camp c hc
          exact (h2.trans (setCamp_ahead hb _)).trans (hgo _)

theorem buildAhead_ahead (n m : Nat) (d : Dev) : Ahead n d (buildAhead n m d) := by
  induction m generalizing d with
  | zero => exact Ahead.refl n d
  | succ m ih =>
    rw [buildAhead_succ]
    exact aheadBlock_ahead ih _ d

/-- A campaign that has begun to run. -/
def Camp.running (c : Camp) : Camp := { c with state := cpRUNNING, due := decide (cdWhistle c.desc ≠ 0) }

theorem campEnter_running {d : Dev} {n : Nat} {c : Camp} (h : d.camp n = some c) :
    ∃ e, Entering n c.running d e ∧ Ahead n e (campEnter d n cpRUNNING) := by
  refine ⟨_, entering_campStore (Keeps.refl d) rfl n c.running, ?_⟩
  have heq : campEnter d n cpRUNNING = buildAhead n 4 (campStore (d.setCamp n c.running) n) := by
    simp only [campEnter, h, if_true]
    rfl
  exact heq ▸ buildAhead_ahead n 4 _

/-! ### The spool (R374) -/

theorem entryAddr_setEntry (d : Dev) (t i j : Nat) (bs : List Byte) : entryAddr (setEntry d t i bs) t j = entryAddr d t j := rfl

theorem setEntry_mem (d : Dev) (t i : Nat) (bs : List Byte) :
    (setEntry d t i bs).tbl.mem = Memory.writeN 0 d.tbl.mem (entryAddr d t i) (fit (tableEntrySize t) bs) := by
  simp only [setEntry, setEntryAt, Nat.add_zero]

/-- A whole entry reads as written. -/
theorem entryBytes_setEntry_same (d : Dev) (t i : Nat) (bs : List Byte) : entryBytes (setEntry d t i bs) t i = fit (tableEntrySize t) bs := by
  have hread := Memory.readN_writeN_same 0 d.tbl.mem (entryAddr d t i) (fit (tableEntrySize t) bs)
  rw [length_fit] at hread
  rw [entryBytes, entryAddr_setEntry, setEntry_mem, hread]

/-- Entries of a table lie apart. -/
theorem entryBytes_setEntry_other (d : Dev) (t : Nat) {i j : Nat} (h : j ≠ i) (bs : List Byte) :
    entryBytes (setEntry d t i bs) t j = entryBytes d t j := by
  have hapart : j * tableEntrySize t + tableEntrySize t ≤ i * tableEntrySize t ∨ i * tableEntrySize t + tableEntrySize t ≤ j * tableEntrySize t := by
    rcases Nat.lt_or_gt_of_ne h with h | h
    · exact Or.inl (by rw [← Nat.succ_mul]; exact Nat.mul_le_mul_right _ h)
    · exact Or.inr (by rw [← Nat.succ_mul]; exact Nat.mul_le_mul_right _ h)
  refine Memory.readN_congr fun c hlo hhi => ?_
  rw [setEntry_mem]
  refine Memory.read_writeN_other 0 _ _ _ _ ?_
  rw [length_fit]
  rw [entryAddr_setEntry] at hlo hhi
  unfold entryAddr at hlo hhi ⊢
  omega

theorem spoolLoad_succ (d : Dev) (s k : Nat) (image : List Byte) :
    spoolLoad d s (k + 1) image = setEntry (spoolLoad d s k image) 7 (s + k) (slice image (1024 * k) 1024) := by
  rw [spoolLoad, List.range_succ, List.foldl_append]
  rfl

/-- Each entry of the spool holds its block. -/
theorem entryBytes_spoolLoad (d : Dev) (s k : Nat) (image : List Byte) {i : Nat} (hi : i < k) :
    entryBytes (spoolLoad d s k image) 7 (s + i) = fit 1024 (slice image (1024 * i) 1024) := by
  induction k with
  | zero => omega
  | succ k ih =>
    rw [spoolLoad_succ]
    by_cases h : i = k
    · rw [h, entryBytes_setEntry_same]
      rfl
    · rw [entryBytes_setEntry_other _ _ (by omega)]
      exact ih (by omega)

theorem Keeps.spoolLoad {ps : List Part} {rs : Nat → Bool} {d e : Dev} (h : Keeps ps rs d e) (ht : Part.tbl ∈ ps) (s k : Nat) (image : List Byte) :
    Keeps ps rs d (spoolLoad e s k image) := h.foldl (fun _ _ => (Keeps.refl _).setEntry ht _ _ _) _

theorem spoolLoad_cmp (d : Dev) (s k : Nat) (image : List Byte) : (spoolLoad d s k image).cmp = d.cmp :=
  Keeps.parts (Keeps.spoolLoad (ps := [.tbl]) (rs := fun _ => false) (Keeps.refl d) (by decide) s k image) .cmp (by decide)

theorem entryBytes_congr {d e : Dev} (hb : e.bld = d.bld) (ht : e.tbl = d.tbl) (t i : Nat) : entryBytes e t i = entryBytes d t i := by
  rw [entryBytes, entryAddr_congr hb, ht, entryBytes]

end Sys2Proof.Machine
end

section
/-! PROOF. Creating, running and ending node campaigns (13_node_campaigns.md R374, R380 to R388). -/

namespace Sys2Proof.Machine

/-! ### CREATE (R381) -/

/-- The campaign that CREATE leaves, and its flash copy. -/
abbrev Camp.created (b : List Byte) (sp : Nat) : Camp := ⟨b, cpREADY, sp, blocksOf (cdLen b), 0, 0, none, false, 0, 0, []⟩
abbrev CampFlash.created (b img : List Byte) : CampFlash := ⟨b, fit (cdLen b) img, cpREADY, 0, (cpREADY, 0)⟩

/-- The device with the campaign in its spool, its table and flash. -/
def createdDev (d : Dev) (b img : List Byte) (sp : Nat) : Dev :=
  let d1 := spoolLoad d sp (blocksOf (cdLen b)) (fit (cdLen b) img)
  { d1 with cmp := { d1.cmp with camps := Tab.put d1.cmp.camps (cdCnum b) (.created b sp),
                                 flash := Tab.put d1.cmp.flash (cdCnum b) (.created b img) } }

theorem create_eq {d : Dev} {w : Sys2Proof.Who} {desc b img : List Byte} {buf : Option Nat} {host : Option (List Byte)} {sp : Nat}
    (hstage : 3 ≤ d.stage) (hdesc : createDesc d w desc = b) (hok : descOk d b = true) (hnone : d.camp (cdCnum b) = none)
    (hroom : d.cmp.camps.length < 16) (hfit : spoolFit d (blocksOf (cdLen b)) = some sp) (hlong : campTooLong d b = false)
    (hsrc : buf.elim host (fun h => some (bufGet d h)) = some img) :
    create d w desc buf host true false = campResult (createdDev d b img sp) w cmOK := by
  have hlate : ¬ d.stage < 3 := Nat.not_lt.mpr hstage
  have hslots : ¬ 16 ≤ d.cmp.camps.length := Nat.not_le.mpr hroom
  cases buf with
  | none =>
    rw [Option.elim_none] at hsrc
    simp only [create, hdesc, hlate, hok, hnone, hslots, hfit, hlong, hsrc, Bool.not_true, Bool.false_eq_true, if_false, Option.isSome_none]
    rfl
  | some h =>
    rw [Option.elim_some] at hsrc
    simp only [create, hdesc, hlate, hok, hnone, hslots, hfit, hlong, Option.some.inj hsrc, Bool.not_true, Bool.false_eq_true, if_false,
      Option.isSome_none]
    rfl

theorem create_completes {w : Sys2Proof.Who} {desc b img : List Byte} {buf : Option Nat} {host : Option (List Byte)} {sp : Nat} {s : State}
    (hup : s.dev.inReset = false) (hstage : 3 ≤ s.dev.stage) (hdesc : createDesc s.dev w desc = b) (hok : descOk s.dev b = true)
    (hnone : s.dev.camp (cdCnum b) = none) (hroom : s.dev.cmp.camps.length < 16) (hfit : spoolFit s.dev (blocksOf (cdLen b)) = some sp)
    (hlong : campTooLong s.dev b = false) (hsrc : buf.elim host (fun h => some (bufGet s.dev h)) = some img) :
    Completes (.create w desc buf host true false) s [.cmp, .tbl, .hif] (fun a => a == CMP_CMD_STATUS) fun t => campTold t.dev w cmOK = true ∧
      t.dev.camp (cdCnum b) = some ⟨b, cpREADY, sp, blocksOf (cdLen b), 0, 0, none, false, 0, 0, []⟩ ∧
      (∀ k, k ≠ cdCnum b → t.dev.camp k = s.dev.camp k) ∧
      Tab.find t.dev.cmp.flash (cdCnum b) = some ⟨b, fit (cdLen b) img, cpREADY, 0, (cpREADY, 0)⟩ ∧
      (∀ k, k < blocksOf (cdLen b) → entryBytes t.dev 7 (sp + k) = fit 1024 (slice (fit (cdLen b) img) (1024 * k) 1024)) := by
  have hkeeps : Keeps [.cmp, .tbl, .hif] (fun a => a == CMP_CMD_STATUS) s.dev (createdDev s.dev b img sp) :=
    ((Keeps.refl s.dev).spoolLoad (by decide) _ _ _).cmp (by decide) _
  have hcamps : ∀ k, (createdDev s.dev b img sp).camp k = if k = cdCnum b then some (.created b sp) else s.dev.camp k := fun k => by
    rw [Dev.camp, createdDev, spoolLoad_cmp]
    exact Tab.find_put _ _ _ _
  have hbytes : ∀ k, entryBytes (campResult (createdDev s.dev b img sp) w cmOK) 7 k =
      entryBytes (spoolLoad s.dev sp (blocksOf (cdLen b)) (fit (cdLen b) img)) 7 k := fun k => by
    have hk : Keeps [.cmp, .hif] (fun a => a == CMP_CMD_STATUS) (spoolLoad s.dev sp (blocksOf (cdLen b)) (fit (cdLen b) img))
        (campResult (createdDev s.dev b img sp) w cmOK) :=
      ((Keeps.refl (spoolLoad s.dev sp (blocksOf (cdLen b)) (fit (cdLen b) img))).cmp (by decide) _).campResult (by decide) (by decide) w cmOK
    exact entryBytes_congr (hk.parts .bld (by decide)) (hk.parts .tbl (by decide)) 7 k
  refine completes_of_onDev (g := fun d => create d w desc buf host true false) rfl hup
    (create_eq hstage hdesc hok hnone hroom hfit hlong hsrc) (hkeeps.campResult (by decide) (by decide) w cmOK)
    ⟨campTold_campResult _ _ (by decide), ?_, fun k hk => ?_, ?_, fun k hk => ?_⟩
  · exact (campResult_camp _ _ _ _).trans ((hcamps _).trans (if_pos rfl))
  · exact (campResult_camp _ _ _ _).trans ((hcamps k).trans (if_neg hk))
  · dsimp only
    rw [campResult_cmp]
    exact (Tab.find_put _ _ _ _).trans (if_pos rfl)
  · exact (hbytes _).trans (entryBytes_spoolLoad _ _ _ _ hk)

/-! ### Commands that are refused -/

/-- The commands on a held campaign, with the states each is permitted in (Table CAMP-3). -/
def campCommands (w : Sys2Proof.Who) (n : Nat) : List (Instr × List Nat) :=
  [(.start w n, [cpREADY]), (.pause w n, [cpRUNNING]), (.resume w n, [cpPAUSED]), (.cancel w n, [cpREADY, cpRUNNING, cpPAUSED]),
   (.delete w n, [cpREADY, cpDONE, cpCANCELLED, cpEXHAUSTED])]

/-- What a command on a campaign answers where it does not act. -/
def campRefusal (d : Dev) (n : Nat) (states : List Nat) : Option Nat :=
  if d.stage < 3 then some cmNOT_READY
  else match d.camp n with
    | none => some cmUNKNOWN
    | some c => if states.contains c.state then none else some cmSTATE

theorem campCmd_refused {d : Dev} {n r : Nat} {states : List Nat} (h : campRefusal d n states = some r) (w : Sys2Proof.Who) (st : Nat) :
    campCmd d w n states st = campResult d w r := by
  unfold campRefusal at h
  unfold campCmd
  split_ifs at h ⊢
  · cases h; rfl
  · cases hc : d.camp n with
    | none => rw [hc] at h; cases h; rfl
    | some c =>
      rw [hc] at h
      dsimp only at h ⊢
      split_ifs at h ⊢
      cases h; rfl

theorem campDelete_refused {d : Dev} {n r : Nat} (h : campRefusal d n [cpREADY, cpDONE, cpCANCELLED, cpEXHAUSTED] = some r) (w : Sys2Proof.Who) :
    campDelete d w n = campResult d w r := by
  unfold campRefusal at h
  unfold campDelete
  split_ifs at h ⊢
  · cases h; rfl
  · cases hc : d.camp n with
    | none => rw [hc] at h; cases h; rfl
    | some c =>
      rw [hc] at h
      dsimp only at h ⊢
      split_ifs at h ⊢
      cases h; rfl

/-- A command on a campaign that is refused. -/
theorem campRefused_exec {c : Instr} {w : Sys2Proof.Who} {n r : Nat} {states : List Nat} {s : State} (hup : s.dev.inReset = false)
    (hc : (c, states) ∈ campCommands w n) (h : campRefusal s.dev n states = some r) : exec c s = .next { s with dev := campResult s.dev w r } := by
  simp only [campCommands, List.mem_cons, Prod.mk.injEq, List.not_mem_nil, or_false] at hc
  rcases hc with ⟨rfl, rfl⟩ | ⟨rfl, rfl⟩ | ⟨rfl, rfl⟩ | ⟨rfl, rfl⟩ | ⟨rfl, rfl⟩
  · exact (s.onDev_up (fun d => campCmd d w n [cpREADY] cpRUNNING) hup).trans (by rw [campCmd_refused h])
  · exact (s.onDev_up (fun d => campCmd d w n [cpRUNNING] cpPAUSED) hup).trans (by rw [campCmd_refused h])
  · exact (s.onDev_up (fun d => campCmd d w n [cpPAUSED] cpRUNNING) hup).trans (by rw [campCmd_refused h])
  · exact (s.onDev_up (fun d => campCmd d w n [cpREADY, cpRUNNING, cpPAUSED] cpCANCELLED) hup).trans (by rw [campCmd_refused h])
  · exact (s.onDev_up (fun d => campDelete d w n) hup).trans (by rw [campDelete_refused h])

theorem create_early {d : Dev} (h : d.stage < 3) (w : Sys2Proof.Who) (desc : List Byte) (buf : Option Nat) (host : Option (List Byte)) (ok cut : Bool) :
    create d w desc buf host ok cut = campResult d w cmNOT_READY := by
  unfold create
  exact if_pos h

theorem campNotReady_completes {c : Instr} {w : Sys2Proof.Who} {n : Nat} {desc : List Byte} {buf : Option Nat} {host : Option (List Byte)}
    {ok cut : Bool} {s : State} (hup : s.dev.inReset = false) (hstage : s.dev.stage < 3)
    (hc : c ∈ [.create w desc buf host ok cut, .start w n, .pause w n, .resume w n, .cancel w n, .delete w n]) :
    Completes c s [.hif] (fun a => a == CMP_CMD_STATUS) fun t => campTold t.dev w cmNOT_READY = true := by
  refine campAnswer_completes hup ?_ (by decide)
  rcases List.mem_cons.mp hc with rfl | hc
  · exact (s.onDev_up (fun d => create d w desc buf host ok cut) hup).trans (by rw [create_early hstage])
  · obtain ⟨states, hmem⟩ : ∃ states, (c, states) ∈ campCommands w n := by
      simp only [campCommands, List.mem_cons, Prod.mk.injEq, List.not_mem_nil, or_false] at hc ⊢
      rcases hc with rfl | rfl | rfl | rfl | rfl <;> simp
    exact campRefused_exec hup hmem (if_pos hstage)

theorem campUnknown_completes {c : Instr} {w : Sys2Proof.Who} {n : Nat} {s : State} (hup : s.dev.inReset = false) (hstage : 3 ≤ s.dev.stage)
    (hnone : s.dev.camp n = none) (hc : c ∈ [.start w n, .pause w n, .resume w n, .cancel w n, .delete w n]) :
    Completes c s [.hif] (fun a => a == CMP_CMD_STATUS) fun t => campTold t.dev w cmUNKNOWN = true := by
  obtain ⟨states, hmem⟩ : ∃ states, (c, states) ∈ campCommands w n := by
    simp only [campCommands, List.mem_cons, Prod.mk.injEq, List.not_mem_nil, or_false] at hc ⊢
    rcases hc with rfl | rfl | rfl | rfl | rfl <;> simp
  exact campAnswer_completes hup (campRefused_exec hup hmem (by simp [campRefusal, Nat.not_lt.mpr hstage, hnone])) (by decide)

theorem campState_completes {c : Instr} {states : List Nat} {w : Sys2Proof.Who} {n : Nat} {x : Camp} {s : State} (hup : s.dev.inReset = false)
    (hstage : 3 ≤ s.dev.stage) (hx : s.dev.camp n = some x) (hc : (c, states) ∈ campCommands w n) (hst : x.state ∉ states) :
    Completes c s [.hif] (fun a => a == CMP_CMD_STATUS) fun t => campTold t.dev w cmSTATE = true :=
  campAnswer_completes hup (campRefused_exec hup hc (by simp [campRefusal, Nat.not_lt.mpr hstage, hx, hst])) (by decide)

/-! ### START, RESUME, PAUSE, CANCEL, DELETE -/

theorem campCmd_taken {d : Dev} {n st : Nat} {states : List Nat} {c : Camp} (hstage : 3 ≤ d.stage) (hc : d.camp n = some c) (hst : c.state ∈ states)
    (w : Sys2Proof.Who) : campCmd d w n states st = campResult (campEnter d n st) w cmOK := by
  simp [campCmd, Nat.not_lt.mpr hstage, hc, hst]

/-- A campaign set running. -/
theorem campRun_completes {i : Instr} {states : List Nat} {w : Sys2Proof.Who} {n : Nat} {c : Camp} {x : CampFlash} {s : State}
    (hi : exec i s = s.onDev fun d => campCmd d w n states cpRUNNING) (hup : s.dev.inReset = false) (hstage : 3 ≤ s.dev.stage)
    (hc : s.dev.camp n = some c) (hst : c.state ∈ states) (hx : Tab.find s.dev.cmp.flash n = some x) :
    Completes i s ([.cmp, .pbm, .dsp, .hif] ++ noteParts) (fun a => a == CMP_CMD_STATUS || noteRegs a) fun t => campTold t.dev w cmOK = true ∧
      (∃ b, t.dev.camp n = some { c with state := cpRUNNING, due := decide (cdWhistle c.desc ≠ 0), built := b }) ∧ (∀ k, k ≠ n → t.dev.camp k = s.dev.camp k) ∧
      Tab.find t.dev.cmp.flash n = some { x with state := cpRUNNING, before := (x.state, x.ceiling), ceiling := c.esi + 1024 } := by
  obtain ⟨e, he, hahead⟩ := campEnter_running hc
  have hkeeps : Keeps ([.cmp, .pbm, .dsp, .hif] ++ noteParts) (fun a => a == CMP_CMD_STATUS || noteRegs a) s.dev (campEnter s.dev n cpRUNNING) :=
    (he.keeps.mono (by decide) (by simp)).trans (hahead.keeps.mono (by decide) fun a ha => by simp [ha])
  obtain ⟨b, hb⟩ := hahead.camp _ he.mine
  refine completes_of_onDev hi hup (campCmd_taken hstage hc hst w) (hkeeps.campResult (by decide) (by decide) w cmOK)
    ⟨campTold_campResult _ _ (by decide), ⟨b, (campResult_camp _ _ _ _).trans hb⟩, fun k hk => ?_, ?_⟩
  · exact (campResult_camp _ _ _ _).trans ((hahead.others k hk).trans (he.others hk))
  · dsimp only
    rw [campResult_cmp, hahead.flash]
    exact he.recorded hx

/-- A campaign taken out of service. -/
theorem campStop_completes {i : Instr} {st : Nat} {states : List Nat} {w : Sys2Proof.Who} {n : Nat} {c : Camp} {x : CampFlash} {s : State}
    (hi : exec i s = s.onDev fun d => campCmd d w n states st) (hne : st ≠ cpRUNNING) (hup : s.dev.inReset = false) (hstage : 3 ≤ s.dev.stage)
    (hc : s.dev.camp n = some c) (hst : c.state ∈ states) (hx : Tab.find s.dev.cmp.flash n = some x) :
    Completes i s [.cmp, .pbm, .hif] (fun a => a == CMP_CMD_STATUS) fun t => campTold t.dev w cmOK = true ∧
      t.dev.camp n = some { c with state := st, built := [], session := none, due := false } ∧
      (∀ k, k ≠ n → t.dev.camp k = s.dev.camp k) ∧ Tab.find t.dev.cmp.flash n = some { x with state := st, before := (x.state, x.ceiling) } := by
  have he := campEnter_stopped (d := s.dev) hc hne
  have hentered : x.entered (c.stopped st) = { x with state := st, before := (x.state, x.ceiling) } := by
    have hceil : (if (c.stopped st).state = cpRUNNING then (c.stopped st).esi + 1024 else x.ceiling) = x.ceiling := if_neg hne
    rw [CampFlash.entered, hceil]
    rfl
  refine completes_of_onDev hi hup (campCmd_taken hstage hc hst w)
    ((he.keeps.mono (by decide) (by simp)).campResult (by decide) (by decide) w cmOK)
    ⟨campTold_campResult _ _ (by decide), (campResult_camp _ _ _ _).trans he.mine, fun k hk => (campResult_camp _ _ _ _).trans (he.others hk), ?_⟩
  dsimp only
  rw [campResult_cmp, he.recorded hx, hentered]

theorem campDelete_completes {w : Sys2Proof.Who} {n : Nat} {c : Camp} {s : State} (hup : s.dev.inReset = false) (hstage : 3 ≤ s.dev.stage)
    (hc : s.dev.camp n = some c) (hst : c.state ∈ [cpREADY, cpDONE, cpCANCELLED, cpEXHAUSTED]) :
    Completes (.delete w n) s [.cmp, .pbm, .hif] (fun a => a == CMP_CMD_STATUS) fun t => campTold t.dev w cmOK = true ∧ t.dev.camp n = none ∧
      Tab.find t.dev.cmp.flash n = none ∧
      (∀ k, k ≠ n → t.dev.camp k = s.dev.camp k ∧ Tab.find t.dev.cmp.flash k = Tab.find s.dev.cmp.flash k) := by
  obtain ⟨hkeeps, hcmp⟩ := dropBuilt_pbm s.dev c.built
  generalize hd1 : dropBuilt s.dev c.built = d1 at hkeeps hcmp
  have hdelete : campDelete s.dev w n =
      campResult { d1 with cmp := { d1.cmp with camps := Tab.del d1.cmp.camps n, flash := Tab.del d1.cmp.flash n } } w cmOK := by
    have hin : [cpREADY, cpDONE, cpCANCELLED, cpEXHAUSTED].contains c.state = true := List.contains_iff_mem.mpr hst
    simp only [campDelete, if_neg (Nat.not_lt.mpr hstage), hc, hin, if_true, hd1]
  have hk : Keeps [.cmp, .pbm, .hif] (fun a => a == CMP_CMD_STATUS) s.dev
      { d1 with cmp := { d1.cmp with camps := Tab.del d1.cmp.camps n, flash := Tab.del d1.cmp.flash n } } :=
    (hkeeps.mono (by decide) (by simp)).cmp (by decide) _
  refine completes_of_onDev (g := fun d => campDelete d w n) rfl hup hdelete (hk.campResult (by decide) (by decide) w cmOK)
    ⟨campTold_campResult _ _ (by decide), ?_, ?_, fun k hne => ⟨?_, ?_⟩⟩
  all_goals dsimp only
  · rw [Dev.camp, campResult_cmp]
    exact (Tab.find_del _ _ _).trans (if_pos rfl)
  · rw [campResult_cmp]
    exact (Tab.find_del _ _ _).trans (if_pos rfl)
  · rw [Dev.camp, campResult_cmp, hcmp]
    exact (Tab.find_del _ _ _).trans (if_neg hne)
  · rw [campResult_cmp, hcmp]
    exact (Tab.find_del _ _ _).trans (if_neg hne)

/-! ### Sessions, the scan, failed writes (R384 to R386) -/

theorem sessionGap_completes {n : Nat} {c : Camp} {s : State} (hup : s.dev.inReset = false) (hc : s.dev.camp n = some c) (hst : c.state = cpRUNNING)
    (hwhistle : cdWhistle c.desc ≠ 0) (hnone : c.session = none) :
    Completes (.sessionGapExpiry n) s [.cmp] (fun _ => false) fun t =>
      t.dev.camp n = some { c with due := true } ∧ ∀ k, k ≠ n → t.dev.camp k = s.dev.camp k := by
  have hgap : sessionGap s.dev n = s.dev.setCamp n { c with due := true } := by
    have hall : c.state = cpRUNNING ∧ cdWhistle c.desc ≠ 0 ∧ c.session.isNone = true := ⟨hst, hwhistle, by rw [hnone]; rfl⟩
    simp only [sessionGap, hc, if_pos hall]
  exact completes_of_onDev (g := fun d => sessionGap d n) rfl hup hgap ((Keeps.refl _).setCamp (by decide) n _)
    ⟨(Dev.camp_setCamp _ _ _ _).trans (if_pos rfl), fun k hk => (Dev.camp_setCamp _ _ _ _).trans (if_neg hk)⟩

/-- A campaign with the counts of a scan. -/
def Camp.counted (c : Camp) (d : Dev) (n : Nat) : Camp :=
  { c with enrolled := campNodes d n [1, 2, 3, 4, 5], ended := campNodes d n [3, 4, 5] }

theorem camp_of_single {d : Dev} {n : Nat} {c : Camp} (h : d.cmp.camps = [(n, c)]) : d.camp n = some c := by
  rw [Dev.camp, h, Tab.find_cons, if_pos rfl]

/-- The scan of the one campaign held. -/
theorem campScan_single {d : Dev} {n : Nat} {c : Camp} (h : d.cmp.camps = [(n, c)]) : campScan d =
    if (c.state = cpRUNNING ∨ c.state = cpPAUSED) ∧ campNodes d n [1, 2, 3, 4, 5] ≠ 0 ∧ campNodes d n [3, 4, 5] = campNodes d n [1, 2, 3, 4, 5]
    then campEnter (d.setCamp n (c.counted d n)) n cpDONE else d.setCamp n (c.counted d n) := by
  have hlist : d.cmp.camps.map (·.1) = [n] := by rw [h]; rfl
  rw [campScan, hlist, List.foldl_cons, List.foldl_nil, campScanOne, camp_of_single h]
  rfl

theorem campScan_ends {n : Nat} {c : Camp} {s : State} (hup : s.dev.inReset = false) (hone : s.dev.cmp.camps = [(n, c)])
    (hst : c.state ∈ [cpRUNNING, cpPAUSED]) (hsome : campNodes s.dev n [1, 2, 3, 4, 5] ≠ 0)
    (hall : campNodes s.dev n [3, 4, 5] = campNodes s.dev n [1, 2, 3, 4, 5]) :
    Completes .campaignScan s [.cmp, .pbm] (fun _ => false) fun t => t.dev.camp n = some { c with
      enrolled := campNodes s.dev n [1, 2, 3, 4, 5], ended := campNodes s.dev n [3, 4, 5], state := cpDONE, built := [], session := none, due := false } := by
  have hcond : c.state = cpRUNNING ∨ c.state = cpPAUSED := by simpa using hst
  have hcamp : (s.dev.setCamp n (c.counted s.dev n)).camp n = some (c.counted s.dev n) := (Dev.camp_setCamp _ _ _ _).trans (if_pos rfl)
  have hentered := campEnter_stopped (st := cpDONE) hcamp (by decide)
  exact completes_of_onDev rfl hup ((campScan_single hone).trans (if_pos ⟨hcond, hsome, hall⟩))
    (((Keeps.refl s.dev).setCamp (by decide) n _).trans hentered.keeps) hentered.mine

theorem campScan_counts {n : Nat} {c : Camp} {s : State} (hup : s.dev.inReset = false) (hone : s.dev.cmp.camps = [(n, c)])
    (hgoes : c.state ∉ [cpRUNNING, cpPAUSED] ∨ campNodes s.dev n [1, 2, 3, 4, 5] = 0 ∨ campNodes s.dev n [3, 4, 5] ≠ campNodes s.dev n [1, 2, 3, 4, 5]) :
    Completes .campaignScan s [.cmp] (fun _ => false) fun t => t.dev.camp n = some { c with
      enrolled := campNodes s.dev n [1, 2, 3, 4, 5], ended := campNodes s.dev n [3, 4, 5] } ∧ t.dev.cmp.flash = s.dev.cmp.flash := by
  have hnot : ¬ ((c.state = cpRUNNING ∨ c.state = cpPAUSED) ∧ campNodes s.dev n [1, 2, 3, 4, 5] ≠ 0 ∧
      campNodes s.dev n [3, 4, 5] = campNodes s.dev n [1, 2, 3, 4, 5]) := by
    rintro ⟨hst, hsome, hall⟩
    rcases hgoes with h | h | h
    · exact h (by simpa using hst)
    · exact hsome h
    · exact h hall
  exact completes_of_onDev rfl hup ((campScan_single hone).trans (if_neg hnot)) ((Keeps.refl s.dev).setCamp (by decide) n _)
    ⟨(Dev.camp_setCamp _ _ _ _).trans (if_pos rfl), rfl⟩

theorem campWriteTimeout_completes {n : Nat} {x : CampFlash} {s : State} (hup : s.dev.inReset = false) (hx : Tab.find s.dev.cmp.flash n = some x) :
    Completes (.campaignStateWriteTimeout n) s ([.cmp] ++ noteParts) noteRegs fun t => t.dev.cmp.camps = s.dev.cmp.camps ∧
      Tab.find t.dev.cmp.flash n = some { x with state := x.before.1, ceiling := x.before.2 } := by
  generalize hd1 : ({ s.dev with cmp := { s.dev.cmp with flash := Tab.put s.dev.cmp.flash n { x with state := x.before.1, ceiling := x.before.2 } } } : Dev) = d1
  have hlate : campWriteTimeout s.dev n = raise d1 192 n 0 := by simp only [campWriteTimeout, hx, hd1]
  have hkeeps : Keeps ([.cmp] ++ noteParts) noteRegs s.dev d1 := hd1 ▸ (Keeps.refl s.dev).cmp (by decide) _
  refine completes_of_onDev (g := fun d => campWriteTimeout d n) rfl hup hlate (hkeeps.noted (noted_raise d1 192 n 0) (by simp) fun _ h => h) ?_
  dsimp only
  rw [raise_cmp, ← hd1]
  exact ⟨rfl, (Tab.find_put _ _ _ _).trans (if_pos rfl)⟩

theorem cmpCntClear_completes {s : State} (hup : s.dev.inReset = false) :
    Completes .cmpCntClear s [] (fun a => a == CMP_CNT_SENT || a == CMP_CNT_ERR) fun t => t.dev.reg CMP_CNT_SENT = 0 ∧ t.dev.reg CMP_CNT_ERR = 0 := by
  refine completes_of_onDev (g := cmpCntClear) rfl hup rfl (Keeps.clearRegs (by simp)) ?_
  simp [cmpCntClear, Dev.reg_clearRegs]

/-- Settles O51: a command acts through the state it enters and what that records in flash; a running campaign's blocks are tasks that leave the
campaign's own record but for the list of what is built. -/
theorem campaigns : Obligations.Campaigns := by
  unfold Obligations.Campaigns
  exact ⟨fun w desc b img buf host sp s hup hstage hdesc hok hnone hroom hfit hlong hsrc =>
      create_completes hup hstage hdesc hok hnone hroom hfit hlong hsrc,
    fun c w n desc buf host ok cut s hup hstage hc => campNotReady_completes hup hstage hc,
    fun c w n s hup hstage hnone hc => campUnknown_completes hup hstage hnone hc,
    fun c states w n x s hup hstage hx hc hst => campState_completes hup hstage hx hc hst,
    fun w n c x s hup hstage hc hst hx => campRun_completes rfl hup hstage hc (List.mem_singleton.mpr hst) hx,
    fun w n c x s hup hstage hc hst hx => campRun_completes rfl hup hstage hc (List.mem_singleton.mpr hst) hx,
    fun w n c x s hup hstage hc hst hx => campStop_completes rfl (by decide) hup hstage hc (List.mem_singleton.mpr hst) hx,
    fun w n c x s hup hstage hc hst hx => campStop_completes rfl (by decide) hup hstage hc hst hx,
    fun w n c s hup hstage hc hst => campDelete_completes hup hstage hc hst,
    fun n c s hup hc hst hwhistle hnone => sessionGap_completes hup hc hst hwhistle hnone,
    fun n c s hup hone hst hsome hall => campScan_ends hup hone hst hsome hall,
    fun n c s hup hone hgoes => campScan_counts hup hone hgoes,
    fun n x s hup hx => campWriteTimeout_completes hup hx,
    fun s hup => cmpCntClear_completes hup⟩

end Sys2Proof.Machine
end
